-- ==== Sys2Proof/Word.lean ====
section
/-! DEFINITION. Words, bytes and byte strings: the widths the spec uses (R10, R11, R14). -/

namespace Sys2Proof

/-- A byte (R11). -/
abbrev Byte := BitVec 8
/-- A 32-bit register word (R14). -/
abbrev Word := BitVec 32
/-- A byte string, first byte first. -/
abbrev Bytes := List Byte

/-- The byte holding a number modulo 256. -/
def byte (n : Nat) : Byte := BitVec.ofNat 8 n

/-- A number as `k` little-endian bytes (R11). -/
def leBytes (k n : Nat) : Bytes := (List.range k).map fun i => byte (n >>> (8 * i))

/-- The number a little-endian byte string spells (R11). -/
def leNat : Bytes → Nat
  | [] => 0
  | b :: bs => b.toNat + 256 * leNat bs

/-- `k` zero bytes. -/
def zeros (k : Nat) : Bytes := List.replicate k 0

/-- Division rounded up. -/
def ceilDiv (a b : Nat) : Nat := (a + b - 1) / b

end Sys2Proof
end

