-- ==== Sys2Proof/Syntax.lean ====
section
/-! DEFINITION. The commands the part takes from outside: host commands, bus events, pin events, register
accesses and the ends of its own operations, one constructor per row of the table. An operand with a default is one that the
command's plainest form leaves at that value. -/

namespace Sys2Proof

/-- Where a host command stands: the function, its submission queue, its command identifier, its FUSE field, and its
reserved bits read together as one number, 0 when every bit that must be 0 is 0 (R89, R114). In a vendor admin command that
number takes in the NSID, and an action or selector code the spec does not list (R114, R121). `mptr` is the MPTR field,
`bucket` whether its data pointer holds an SGL Bit Bucket descriptor (R89, R114). -/
structure Src where
  fn : Nat
  qid : Nat
  cid : Nat
  fuse : Nat
  rsvd : Nat
  mptr : Nat
  bucket : Bool
  deriving DecidableEq, Repr

/-- A configuration request to PF0: a write of VF Enable, of Memory Space Enable, or of BAR2 and BAR3 together; a read of the two; a
read elsewhere (R106, R514, R515, R525). -/
inductive ConfigReq where
  | vfEnable (on : Bool)
  | memSpace (on : Bool)
  | bar2 (value : Nat)
  | readBar2
  | other
  deriving DecidableEq, Repr

/-- Operands of a write or an append: `nlb` is the number of blocks, `dtype` and `dspec` the directive (R52). -/
structure WriteArgs where
  nsid : Nat
  slba : Nat
  nlb : Nat
  dtype : Nat
  dspec : Nat
  keyTag : Nat
  prinfo : Nat
  appTag : Nat
  appMask : Nat
  deriving DecidableEq, Repr

/-- Operands of a read: `nlb` is the number of blocks. -/
structure ReadArgs where
  nsid : Nat
  slba : Nat
  nlb : Nat
  keyTag : Nat
  prinfo : Nat
  appTag : Nat
  appMask : Nat
  deriving DecidableEq, Repr

/-- Operands of Verified Precompressed Write (R118), with the body transferred and the bytes its data pointer
list covers. -/
structure VpwArgs where
  nsid : Nat
  zslba : Nat
  llen : Nat
  slen : Nat
  fmt : Nat
  check : Nat
  dtype : Nat
  dspec : Nat
  keyTag : Nat
  prinfo : Nat
  listed : Nat
  body : Bytes
  deriving DecidableEq, Repr

/-- The structure given to Namespace Management (create) (R46, R47, R532): `other` is the sum of the bytes that
must be 0, `dps` the protection information type, `kpio` whether Key Per I/O is enabled on it. -/
structure NsArgs where
  csi : Nat
  nsze : Nat
  fmt : Nat
  dps : Nat
  extended : Bool
  clutchCode : Nat
  levelSel : Nat
  other : Nat
  kpio : Bool
  deriving DecidableEq, Repr

/-- The 64 B descriptor of Pool Manage (R319). -/
structure PoolDesc where
  qp : Nat
  inflight : Nat
  keys : Nat
  cls : Nat
  flags : Nat
  openq : Nat
  activeq : Nat
  nsq : Nat
  buf : Nat
  stripes : Nat
  g : Nat
  c : Nat
  weight : Nat
  burst : Nat
  peerTag : Nat
  mask : Nat
  reserved : Nat
  deriving DecidableEq, Repr

/-- A source descriptor of Reconstruct, or a peer read's request, as fields (R303, R309). -/
structure PeerReq where
  dev : Nat
  kind : Nat
  coeff : Nat
  nsid : Nat
  addr : Nat
  gen : Nat
  off : Nat
  count : Nat
  keyTag : Nat
  fn : Nat
  peerTag : Nat
  rsvd : Nat
  deriving DecidableEq, Repr

/-- A frame received on a port: the port, its sequence, and the acknowledgement it carries (R280, R283). -/
structure Rx where
  port : Nat
  seq : Nat
  ack : Nat
  deriving DecidableEq, Repr


/-- What a DDR5 channel shows at stage 4: devices found, WIDTH and DENS as DMC_Cx_CFG has them, full trainings run (0: step
6 alone), and per byte lane its read delay, write delay, read eye and write eye (R432-R437). -/
structure Dimm where
  pop : Bool
  width : Nat
  dens : Nat
  tries : Nat
  lanes : List (Nat × Nat × Nat × Nat)
  deriving DecidableEq, Repr

/-- What a stage of a start finds (R374): OTP readable; boot flash in order, its SIZE code, clock in units of 4 MHz and margin read; the DRAM channels; dies as
channel, die and model (0 no answer, 1 4 Tb PLC, 2 4 Tb QLC, 3 2 Tb QLC); read and write eye by channel, where a training failed; rated cycles; the system area
readable; buffered clutches that fail their check; efts that fail their vectors, as pond and number; the event ring writable; of the parameter pages the
maximum page read, page program and block erase times in ns (R210) and, by channel and die, each read of one that failed its CRC (R204,
R224); the last journal sequence that replay reaches, where the next record is missing or bad (R201);
an OTP word read with one bit error, corrected (R344); zone map entries of the checkpoint that read other than they were written, by stripe (R170). -/
structure Found where
  otpOk : Bool
  flashOk : Bool
  flashSize : Nat
  flashClk : Nat
  margin : Bool
  dimms : List Dimm
  dies : List (Nat × Nat × Nat)
  eyes : List (Nat × Nat × Nat)
  rated : Nat
  sysOk : Bool
  clutches : List Nat
  efts : List (Nat × Nat)
  ringOk : Bool
  times : List Nat
  badPages : List (Nat × Nat)
  journalEnd : Option Nat
  otpFixed : Bool
  entries : List (Nat × List (BitVec 8)) := []
  deriving DecidableEq, Repr

/-- The port a request comes through (R441): a pond's efts, a channel engine, the Druzinov Link router, the SNC, a management core, the gecko. -/
inductive DramPort where
  | pond | channel | link | boot | core | gecko
  deriving DecidableEq, Repr

/-- A request at a DRAM controller: its system address, from which its sub-channel follows (R433); bank group, bank index and row, which
the spec hashes in a way it does not give; whether it writes, and writes less than 64 B; its port (R441-R446). -/
structure DramArgs where
  addr : Nat
  group : Nat
  bank : Nat
  row : Nat
  write : Bool
  partly : Bool
  port : DramPort
  deriving DecidableEq, Repr

/-- What ECC finds on a line: how many bytes of its codeword are in error (R451); the region of R452 in its table's order, 0 to 6; the clutch or journal
record that lies there. -/
structure EccSeen where
  bad : Nat
  region : Nat
  unit : Nat
  deriving DecidableEq, Repr

/-- The commands: one constructor per row of the table of operations and events. -/
inductive Instr where
  /-- WRITE (R58): Host Write: clutches built by efts, then placed at the write pointer and completed after placement. -/
  | write (src : Src) (w : WriteArgs)
  /-- READ (R149): Host Read: the LBA is resolved and each clutch is fetched, checked, decrypted, decompressed and sent. -/
  | read (src : Src) (r : ReadArgs)
  /-- COMPARE (R149): Compare reads clutches through the read pipeline and compares them with host data. -/
  | compare (src : Src) (r : ReadArgs) (host : Bytes)
  /-- VERIFY (R149): Verify reads and checks clutches without transferring data to the host. -/
  | verify (src : Src) (r : ReadArgs)
  /-- WRITE_ZEROES (R96): Write Zeroes writes zero blocks and is ordered as a write among overlapping commands. -/
  | writeZeroes (src : Src) (w : WriteArgs)
  /-- DATASET_MANAGEMENT (R46): Dataset Management: Deallocate frees blocks in a conventional namespace and does nothing in a zoned one. -/
  | datasetManagement (src : Src) (nsid : Nat) (deallocate : Bool) (ranges : List (Nat × Nat))
  /-- ZONE_APPEND (R58): Zone Append is placed at the zone's write pointer and fill point, and the completion returns the assigned LBA. -/
  | zoneAppend (src : Src) (w : WriteArgs)
  /-- ZONE_OPEN (R55): Explicit Zone Open checks the limits and quota and opens the zone without binding a stripe. -/
  | zoneOpen (src : Src) (nsid : Nat) (slba : Nat) (all : Bool)
  /-- ZONE_CLOSE (R56): Zone Close closes an open zone, which stays active. -/
  | zoneClose (src : Src) (nsid : Nat) (slba : Nat) (all : Bool)
  /-- ZONE_FINISH (R64): Zone Finish makes the zone Full at its point in the queue order. -/
  | zoneFinish (src : Src) (nsid : Nat) (slba : Nat) (all : Bool)
  /-- ZONE_RESET (R68): Zone Reset commits a new generation, drops the zone's clutches and releases its stripe. -/
  | zoneReset (src : Src) (nsid : Nat) (slba : Nat) (all : Bool)
  /-- REPORT_ZONES (R63): Report Zones returns zone states and write pointers. -/
  | reportZones (src : Src) (nsid : Nat) (slba : Nat) (count : Nat)
  /-- FLUSH (R103): Flush completes once covered writes complete, and also programs them to the spawn while the hold-up has failed. -/
  | flush (src : Src) (nsid : Nat)
  /-- ABORT (R105): Abort aborts a command that is still queued and reports whether it did. -/
  | abort (src : Src) (sqid : Nat) (target : Nat)
  /-- ORDERED_WRITE (R100): Ordered Write fences its queue and stores only if every command in its window succeeded. -/
  | orderedWrite (src : Src) (w : WriteArgs)
  /-- LOCATOR_APPEND (R79): Locator Append places one clutch and returns its 64-bit locator. -/
  | locatorAppend (src : Src) (w : WriteArgs)
  /-- READ_BY_LOCATOR (R80): Read by Locator checks the generation and header, then returns blocks of the named clutch. -/
  | readByLocator (src : Src) (nsid : Nat) (loc : Nat) (gen : Nat) (off : Nat) (count : Nat) (keyTag : Nat) (prinfo : Nat)
  /-- VERIFIED_PRECOMPRESSED_WRITE (R81): Verified Precompressed Write decodes and checks a host-compressed clutch, then places it. -/
  | verifiedPrecompressedWrite (src : Src) (v : VpwArgs)
  /-- RECONSTRUCT (R310): Reconstruct computes a GF(2^8) sum of local and peer sources and places it as one clutch. -/
  | reconstruct (src : Src) (nsid : Nat) (zslba : Nat) (nlb : Nat) (dtype : Nat) (dspec : Nat) (keyTag : Nat) (listLen : Nat) (sources : List PeerReq)
  /-- DIGEST_RANGE (R124): Digest Range computes a SHA-256 or SHA3-256 digest over an LBA range inside the part. -/
  | digestRange (src : Src) (nsid : Nat) (slba : Nat) (count : Nat) (alg : Nat) (keyTag : Nat)
  /-- NAMESPACE_MANAGEMENT_CREATE (R47): Namespace creation checks CSI, clutch size, level, format, identifier and capacity, then creates the namespace. -/
  | namespaceManagementCreate (src : Src) (n : NsArgs)
  /-- NAMESPACE_MANAGEMENT_DELETE (R48): Namespace deletion removes a namespace. -/
  | namespaceManagementDelete (src : Src) (nsid : Nat)
  /-- NAMESPACE_ATTACH (R317): Attach moves the namespace charge to a VF and takes a media slot. -/
  | namespaceAttach (src : Src) (nsid : Nat) (fn : Nat)
  /-- NAMESPACE_DETACH (R317): Detach moves the charge back to PF0 and frees the media slot. -/
  | namespaceDetach (src : Src) (nsid : Nat) (fn : Nat)
  /-- FORMAT_NVM (R48): Format NVM changes the LBA format, advances generations and replaces the media key where the secure erase setting asks for it. -/
  | formatNvm (src : Src) (nsid : Nat) (fmt : Nat) (dps : Nat) (extended : Bool) (ses : Nat)
  /-- SANITIZE_CRYPTO_ERASE (R371): Crypto Erase discards the buffer and keys, draws new media keys and empties every zone. -/
  | sanitizeCryptoErase (src : Src) (ause : Bool) (ndas : Bool)
  /-- SANITIZE_BLOCK_ERASE (R370): Block Erase performs Crypto Erase, then erases every block in loud calls. -/
  | sanitizeBlockErase (src : Src) (ause : Bool) (ndas : Bool)
  /-- SANITIZE_EXIT_FAILURE_MODE (R370): Exit Failure Mode leaves a failed sanitize as NVMe defines. -/
  | sanitizeExitFailureMode (src : Src)
  /-- SANITIZE_OVERWRITE (R370): Overwrite is refused with Invalid Field in Command. -/
  | sanitizeOverwrite (src : Src)
  /-- SANITIZE_COMPLETE (R37): Completion of a sanitize moves the part to SERVE, DEGRADED or READONLY. -/
  | sanitizeComplete (ok : Bool)
  /-- SET_FEATURES_NUMBER_OF_QUEUES (R90): Set Features Number of Queues grants the smaller of the request and the function's allocation. -/
  | setFeaturesNumberOfQueues (src : Src) (nsq : Nat) (ncq : Nat)
  /-- SET_FEATURES_PLM_CONFIG (R266): Predictable Latency Mode Config enables per-set reporting and events. -/
  | setFeaturesPlmConfig (src : Src) (set : Nat) (enable : Bool)
  /-- SET_FEATURES_PLM_WINDOW (R266): Set of the Predictable Latency Mode Window fails with Feature Not Changeable. -/
  | setFeaturesPlmWindow (src : Src)
  /-- SET_FEATURES_HCTM (R422): Host Controlled Thermal Management sets TMT1 and TMT2 within range. -/
  | setFeaturesHctm (src : Src) (tmt1 : Nat) (tmt2 : Nat)
  /-- SET_FEATURES_POWER_MANAGEMENT (R402): Set Features Power Management sets the NVMe power state, with its operating point ceiling and die-token cap. -/
  | setFeaturesPowerManagement (src : Src) (ps : Nat)
  /-- SET_FEATURES_ZONE_PHYSICAL_STATUS (R78): Set Features of feature 0xD2 fails with Feature Not Changeable. -/
  | setFeaturesZonePhysicalStatus (src : Src)
  /-- GET_FEATURES_ZONE_PHYSICAL_STATUS (R78): Returns generation, fill point, choir and lifetime class for 256 zones. -/
  | getFeaturesZonePhysicalStatus (src : Src) (nsid : Nat) (zone : Nat)
  /-- GET_FEATURES_PLM_WINDOW (R266): Returns the current predictable latency window. -/
  | getFeaturesPlmWindow (src : Src) (set : Nat)
  /-- GET_LOG_PAGE_SMART (R473): Returns the SMART / Health Information log. -/
  | getLogPageSmart (src : Src) (rae : Bool)
  /-- GET_LOG_PAGE_LYSKIN_HEALTH (R478): Returns log page 0xC0, taken at one instant. -/
  | getLogPageLyskinHealth (src : Src) (rae : Bool)
  /-- GET_LOG_PAGE_CHORUS_SCHEDULE (R267): Returns log page 0xC1, a snapshot of the chorus schedule. -/
  | getLogPageChorusSchedule (src : Src) (rae : Bool)
  /-- GET_LOG_PAGE_AUTOTOMY_RECORD (R234): Returns log page 0xC2 to PF0, or fails on a VF. -/
  | getLogPageAutotomyRecord (src : Src) (rae : Bool)
  /-- GET_LOG_PAGE_POOL_USAGE (R337): Returns log page 0xC3, the pool header and function entries. -/
  | getLogPagePoolUsage (src : Src) (rae : Bool)
  /-- GET_LOG_PAGE_EVENT_RECORDS (R491): Returns retained event records to PF0 and fixes the list for later offset reads. -/
  | getLogPageEventRecords (src : Src) (rae : Bool) (offset : Nat) (length : Nat)
  /-- GET_LOG_PAGE_PREDICTABLE_LATENCY (R265): Returns the per-set predictable latency windows derived from the turn map. -/
  | getLogPagePredictableLatency (src : Src) (set : Nat) (rae : Bool)
  /-- GET_LOG_PAGE_PLM_EVENT_AGGREGATE (R266): Returns the Predictable Latency Event Aggregate log and releases coalesced notices. -/
  | getLogPagePlmEventAggregate (src : Src) (rae : Bool)
  /-- GET_LOG_PAGE_CHANGED_ZONE_LIST (R63): Returns the Changed Zone List after Zone Descriptor Changed notices. -/
  | getLogPageChangedZoneList (src : Src) (rae : Bool) (nsid : Nat := 1)
  /-- GET_LOG_PAGE_DEVICE_SELF_TEST (R127): Returns the Device Self-test log. -/
  | getLogPageDeviceSelfTest (src : Src) (rae : Bool)
  /-- IDENTIFY_CONTROLLER (R533): Returns Identify Controller data, including NN, MNAN, NPSS and the current ENLAT. -/
  | identifyController (src : Src)
  /-- IDENTIFY_NAMESPACE (R47): Returns Identify Namespace, including clutch size and level. -/
  | identifyNamespace (src : Src) (nsid : Nat)
  /-- IDENTIFY_NVM_SET_LIST (R265): Reports four NVM Sets, one per choir. -/
  | identifyNvmSetList (src : Src)
  /-- CREATE_IO_SUBMISSION_QUEUE (R90): Creates an I/O submission queue within the grant and size limits. -/
  | createIoSubmissionQueue (src : Src) (qid : Nat) (size : Nat) (cqid : Nat) (prio : Nat := 0)
  /-- CREATE_IO_COMPLETION_QUEUE (R90): Creates an I/O completion queue within the grant and size limits. -/
  | createIoCompletionQueue (src : Src) (qid : Nat) (size : Nat)
  /-- DEVICE_SELF_TEST_SHORT (R127): Starts the short self-test on PF0. -/
  | deviceSelfTestShort (src : Src)
  /-- DEVICE_SELF_TEST_EXTENDED (R127): Starts the extended self-test on PF0. -/
  | deviceSelfTestExtended (src : Src)
  /-- DEVICE_SELF_TEST_ABORT (R129): Code Fh aborts the running self-test. -/
  | deviceSelfTestAbort (src : Src)
  /-- SELF_TEST_ITEM (R128): A self-test item of at most one clutch runs on an eft whose deque is empty. -/
  | selfTestItem (pond : Nat) (n : Nat) (clutch : Nat) (faulty : Bool)
  /-- DEVICE_SELF_TEST_COMPLETE (R127): The last segment ends, the result is logged, and a segment 3 failure enters DEGRADED. -/
  | deviceSelfTestComplete (failed : Nat)
  /-- FIRMWARE_IMAGE_DOWNLOAD (R470): Writes a download piece into the non-running slot or Peuth bank, erasing blocks on first touch. -/
  | firmwareImageDownload (src : Src) (off : Nat) (data : Bytes) (verified : Bool := true)
  /-- FIRMWARE_COMMIT_STORE (R381): Commit action 000b checks the image and stores it in the slot as trial. -/
  | firmwareCommitStore (src : Src) (slot : Nat)
  /-- FIRMWARE_COMMIT_STORE_AND_SET_NEXT (R381): Commit action 001b stores the image and makes the slot the next one to start. -/
  | firmwareCommitStoreAndSetNext (src : Src) (slot : Nat)
  /-- FIRMWARE_COMMIT_ACTIVATE_EXISTING (R381): Commit action 010b makes the existing image next. -/
  | firmwareCommitActivateExisting (src : Src) (slot : Nat)
  /-- FIRMWARE_COMMIT_ACTIVATE_NOW (R112): Commit action 011b activates the image without reset, through QUIESCE. -/
  | firmwareCommitActivateNow (src : Src) (slot : Nat)
  /-- FIRMWARE_ACTIVATION (R42): Once the started commands have completed, the part commits the activation, runs the new image and leaves QUIESCE. -/
  | firmwareActivation (leaves : Bool)
  /-- ACTIVATION_TIMEOUT (R385): An activation not out of QUIESCE after 1 s sets CSTS.CFS, and the part accepts no more commands. -/
  | activationTimeout
  /-- ASYNCHRONOUS_EVENT_REQUEST (R530): An outstanding request receives pending events for its function. -/
  | asynchronousEventRequest (src : Src)
  /-- SECURITY_PROTOCOL_LIST (R361): Security protocol 0x00 lists the supported protocols. -/
  | securityProtocolList (src : Src)
  /-- KEY_INJECTION (R352): Key Per I/O injects a wrapped XTS pair into the function's key slot. -/
  | keyInjection (src : Src) (tag : Nat) (blob : Bytes)
  /-- KEY_CLEAR (R352): Clearing a Key Per I/O key zeroes its slot. -/
  | keyClear (src : Src) (tag : Nat)
  /-- IDENTITY (R362): Returns the identity header and the four identity statements. -/
  | identity (src : Src) (len : Nat)
  /-- ATTEST_REQUEST (R363): Records an attestation nonce for the function. -/
  | attestRequest (src : Src) (data : Bytes) (rsvOk : Bool)
  /-- ATTEST_REPORT (R363): Returns the signed report, held until signing completes. -/
  | attestReport (src : Src) (len : Nat)
  /-- REPORT_SIGNATURE_COMPLETE (R364): A report signature finishes under a reserved index, and a held receive completes. -/
  | reportSignatureComplete (rsvOk : Bool) (t : Nat)
  /-- ATTEST_REPORT_DISCARD (R363): A report not read within 10 s is discarded, and its index stays used. -/
  | attestReportDiscard (fn : Nat) (t : Nat)
  /-- HASH_OPEN (R365): Opens a hash session on engine 4 to 7. -/
  | hashOpen (src : Src) (data : Bytes) (t : Nat)
  /-- HASH_FEED (R365): Feeds message bytes to the session's engine. -/
  | hashFeed (src : Src) (data : Bytes) (t : Nat)
  /-- HASH_FINISH (R365): Returns the digest and ends the session. -/
  | hashFinish (src : Src) (len : Nat)
  /-- HASH_RELEASE (R365): Releases the session's engine. -/
  | hashRelease (src : Src) (len : Nat)
  /-- HASH_SESSION_TIMEOUT (R365): A session is ended after 10 s without a feed. -/
  | hashSessionTimeout (fn : Nat) (t : Nat)
  /-- LIFECYCLE_CHALLENGE (R366): Returns the UID, the state and a fresh nonce. -/
  | lifecycleChallenge (src : Src) (len : Nat)
  /-- LIFECYCLE_ADVANCE (R342): Programs the lifecycle OTP flag; SCRAPPED takes effect at once. -/
  | lifecycleAdvance (src : Src) (data : Bytes)
  /-- LIFECYCLE_PROVISION (R341): Vendor test over JTAG moves BLANK to PROVISION and programs identity and settings. -/
  | lifecycleProvision (uid : Bytes) (serial : Bytes) (media : Nat) (digests : List Bytes) (dflt : Nat) (controls : Nat) (floor : Nat)
  /-- HOST_KEK (R353): Installs a new host KEK, in clear in PROVISION or wrapped in FIELD. -/
  | hostKek (src : Src) (data : Bytes)
  /-- SETTINGS_ADVANCE (R345): Writes the next settings generation, then retires the one in use. -/
  | settingsAdvance (src : Src) (data : Bytes)
  /-- POOL_MANAGE_ASSIGN (R321): Assigns resources and quotas to an unassigned VF. -/
  | poolManageAssign (src : Src) (fn : Nat) (len : Nat) (d : PoolDesc)
  /-- POOL_MANAGE_CHANGE (R332): Changes an assigned VF's quotas, possibly below its use. -/
  | poolManageChange (src : Src) (fn : Nat) (len : Nat) (d : PoolDesc)
  /-- POOL_MANAGE_RELEASE (R321): Releases a VF's assignment. -/
  | poolManageRelease (src : Src) (fn : Nat) (len : Nat)
  /-- PROFILE_SELECT (R389): Checks the profile and switches to it through QUIESCE. -/
  | profileSelect (src : Src) (profile : Nat)
  /-- PROFILE_SWITCH_COMPLETE (R389): After the buffer has been reduced and any chorus switch is done, the part leaves QUIESCE. -/
  | profileSwitchComplete
  /-- CHORUS_CONTROL_APPLY (R269): Checks and applies a chorus parameter block, re-locking if staged fields change. -/
  | chorusControlApply (src : Src) (block : Bytes)
  /-- CHORUS_CONTROL_RELOCK (R253): Action 01h starts a re-lock now. -/
  | chorusControlRelock (src : Src) (len : Nat := 0)
  /-- GROUP_JOIN (R287): Checks and stores a domain membership and group key. -/
  | groupJoin (src : Src) (group : Nat) (dev : Nat) (len : Nat) (block : Bytes) (t : Nat)
  /-- GROUP_JOIN_TIMEOUT (R288): A join with no port UP after 5 s completes with Peer Unreachable. -/
  | groupJoinTimeout (t : Nat)
  /-- GROUP_LEAVE (R289): Takes ports down and erases the membership and keys. -/
  | groupLeave (src : Src) (group : Nat) (dev : Nat) (t : Nat)
  /-- GROUP_STATUS_DEVICE (R312): Returns this device's domain status. -/
  | groupStatusDevice (src : Src) (numd : Nat)
  /-- GROUP_STATUS_DOMAIN (R313): Returns the domain summary map. -/
  | groupStatusDomain (src : Src) (numd : Nat)
  /-- SUBSYSTEM_HEALTH_STATUS_POLL (R479): The gecko answers from its copies and live temperatures. -/
  | subsystemHealthStatusPoll
  /-- CONTROLLER_HEALTH_STATUS_POLL (R479): The gecko answers controller health from its copies. -/
  | controllerHealthStatusPoll
  /-- READ_NVME_MI_DATA_STRUCTURE (R406): The gecko returns the data structure without waking the part. -/
  | readNvmeMiDataStructure
  /-- READ_EVENT_RING (R492): The sideband vendor command returns the AON ring, newest first. -/
  | readEventRing (nmd0 : Nat)
  /-- NVME_MI_OTHER_COMMAND (R406): An NVMe-MI command the gecko cannot answer alone wakes the part. -/
  | nvmeMiOtherCommand
  /-- SQ_DOORBELL_WRITE (R110): A doorbell write marks queue entries pending for fetch. -/
  | sqDoorbellWrite (fn : Nat) (qid : Nat) (entries : Nat)
  /-- COMMAND_FETCH (R331): The front end fetches entries in weighted round robin and assigns device tags. -/
  | commandFetch
  /-- COMMAND_START (R94): A queued command whose waits have cleared is handed to an eft. -/
  | commandStart (tag : Nat)
  /-- WRITE_ADMISSION (R325): A waiting write is admitted once buffer room, quota and tokens allow. -/
  | writeAdmission (tag : Nat)
  /-- PLACEMENT_POINT (R58): With all clutches buffered, the checks run and LBAs and granules are assigned atomically. -/
  | placementPoint (tag : Nat)
  /-- CC_EN_SET (R378): Controller enable; CSTS.RDY follows the mode. -/
  | ccEnSet (fn : Nat) (ams : Nat := 0)
  /-- CC_EN_CLEAR_PF0 (R106): Clearing CC.EN on PF0 abandons PF0 commands. -/
  | ccEnClearPf0
  /-- VF_RESET (R335): A VF FLR or CC.EN clear stops, fences and evicts the function's work and keys. -/
  | vfReset (fn : Nat)
  /-- PF0_FLR (R335): PF0 FLR resets every function and clears VF Enable. -/
  | pf0Flr
  /-- FUNCTION_RESET_COMPLETE (R335): Once every eft has stopped and scrubbed, the balance is zeroed, tags are freed and the reset is complete. -/
  | functionResetComplete (fn : Nat)
  /-- MEDIA_SLOT_RELOAD (R351): The firmware unwraps a namespace media key into its slot, and waiting crypto stages go on. -/
  | mediaSlotReload (nsid : Nat)
  /-- SHUTDOWN_NOTIFICATION (R109): CC.SHN stops fetching, programs the buffer, commits the journal and reports SHST complete. -/
  | shutdownNotification (fn : Nat)
  /-- CONFIGURATION_REQUEST (R377): Configuration requests are answered with Request Retry Status until the profile applies. -/
  | configurationRequest (req : ConfigReq := .other)
  /-- POWER_ON (R502): Rails come up, PWR_EN is driven, and a cold start begins. -/
  | powerOn (xin : Bool) (vqps : Bool) (t : Nat)
  /-- PERST_N_ASSERT (R376): The part abandons commands, puts DRAM into self-refresh and stops any start. -/
  | perstNAssert (t : Nat)
  /-- PERST_N_DEASSERT (R375): Begins a warm start; PRF is sampled and link training starts. -/
  | perstNDeassert (samples : List Nat) (t : Nat)
  /-- START_STAGE_COMPLETE (R374): A start stage finishes its work, and the next stage begins. -/
  | startStageComplete (found : Found) (t : Nat)
  /-- CHORUS_WAIT_END (R393): Stage 8 ends on acquisition or on the lock wait. -/
  | chorusWaitEnd (t : Nat)
  /-- START_DECISION (R394): Stage 9 picks the mode, confirms the slot and leaves BOOT. -/
  | startDecision (t : Nat)
  /-- START_WATCHDOG (R383): No stage progress for 25 s raises a warm internal restart. -/
  | startWatchdog (t : Nat)
  /-- HOLDUP_SELF_TEST_START (R510): After HU_SENSE has been steady 10 ms, HU_TEST_N is asserted. -/
  | holdupSelfTestStart (volt : Nat) (t : Nat)
  /-- HOLDUP_SELF_TEST_END (R510): After 20 ms the test load is released and the usable energy judged. -/
  | holdupSelfTestEnd (dv : Nat) (t : Nat)
  /-- PWRFAIL_N_ASSERT (R196): The power-loss flush starts, opening the gate for spawn programs. -/
  | pwrfailNAssert (width : Nat) (t : Nat)
  /-- FLUSH_COMPLETE (R196): The journal region and the flush marker are programmed last. -/
  | flushComplete (room : Bool) (t : Nat)
  /-- PWRFAIL_N_RECOVERY (R40): After 100 ms high the part re-locks and returns to its mode. -/
  | pwrfailNRecovery (t : Nat)
  /-- PWRFAIL_N_STUCK (R40): Still asserted 1 s after the flush: the part enters READONLY. -/
  | pwrfailNStuck (t : Nat)
  /-- VDD_AON_LOSS (R502): The gecko resets, and the next start is a power-on. -/
  | vddAonLoss (t : Nat)
  /-- TEMP_SAMPLE (R420): A reading is sampled, cross-checked and compensated at its rate. -/
  | tempSample (n : Nat) (raw : Int) (bad : Bool) (t : Nat)
  /-- THERMAL_STEP (R423): Every 100 ms the throttle level moves up or down. -/
  | thermalStep (t : Nat)
  /-- HOLD_ENTRY (R424): With the buffer on flash and the journal committed, the part enters HOLD. -/
  | holdEntry
  /-- STOP_CLEAR (R425): After the dwell below 90 °C, STOP clears and HOLD is left. -/
  | stopClear (t : Nat)
  /-- THERMAL_TRIP (R426): Hardware asserts THERMTRIP_N and stops every clock but the gecko's. -/
  | thermalTrip
  /-- POWER_STATE_ENTRY (R404): When the last core executes WAIT, the gecko steps down to the requested state. -/
  | powerStateEntry (woken : Option Nat)
  /-- AUTONOMOUS_POWER_STATE_TRANSITION (R402): APST moves the controller to PS3 or PS4. -/
  | autonomousPowerStateTransition (ps : Nat)
  /-- WAKE_EVENT (R408): A wake source returns the part to RUN, checking the retention banks. -/
  | wakeEvent (fails : Nat) (dimms : List Dimm) (t : Nat)
  /-- TIMER_WAKE (R406): The periodic timer wakes the part for the hold-up self-test. -/
  | timerWake
  /-- DEV_WAKE_N_EDGE (R407): A filtered falling edge wakes the part or powers it up from OFF. -/
  | devWakeNEdge (rising : Bool) (width : Nat) (t : Nat)
  /-- DEV_WAKE_STORM_END (R407): After 1 s of storm the pin re-arms. -/
  | devWakeStormEnd (t : Nat)
  /-- CLKREQ_N_WAKE (R406): Host exit from L1.2 wakes the part. -/
  | clkreqNWake
  /-- PRF_CHANGE (R387): An edge on PRF after sampling sets PINCHG. -/
  | prfChange (t : Nat)
  /-- CLK_OP_REQ_WRITE (R412): The firmware requests an operating point within the ceiling. -/
  | clkOpReqWrite (requester : Nat) (value : Nat)
  /-- DVFS_STEP (R413): The sequencer moves the voltage and clocks one way. -/
  | dvfsStep
  /-- DVFS_RAIL_SETTLED (R413): Once the rail is in regulation and 2 µs have passed, the clocks rise. -/
  | dvfsRailSettled
  /-- CLK_AVS_CMD (R414): Sends an AVSBus frame, or holds a too-low voltage write. -/
  | clkAvsCmd (requester : Nat) (value : Nat) (answer : Nat)
  /-- AVS_CURRENT_READ (R412): Every 1 ms the firmware reads VDD_CORE current. -/
  | avsCurrentRead (current : Nat)
  /-- AVS_REGULATOR_FAULT (R415): No answer or a fault keeps the operating point and sets ERR. -/
  | avsRegulatorFault
  /-- AVS_RETRY (R415): The firmware retries the regulator every 100 ms. -/
  | avsRetry (answers : Bool)
  /-- VDD_CORE_SAG (R415): The supply monitor moves the clocks to OP0. -/
  | vddCoreSag
  /-- POND_GATE (R416): The firmware redirects a pond's homes to gate it. -/
  | pondGate (pond : Nat)
  /-- POND_GATE_DRAINED (R416): Once the deques are empty, the pond clock stops. -/
  | pondGateDrained (pond : Nat)
  /-- POND_UNGATE (R416): Restarts a pond and restores its homes. -/
  | pondUngate (pond : Nat)
  /-- EFT_STEAL_POLL (R135): An eft with an empty deque tries a steal every 16 cycles. -/
  | eftStealPoll (pond : Nat) (n : Nat)
  /-- WRITE_CLUTCH_ITEM (R136): An eft checksums, compresses, verifies, encrypts and buffers a write clutch. -/
  | writeClutchItem (pond : Nat) (n : Nat) (faulty : Bool)
  /-- HOST_READ_COMPLETION (R136): Host data completions land in region A and feed the CRC and the compressor. -/
  | hostReadCompletion (pond : Nat) (n : Nat) (off : Nat) (data : Bytes)
  /-- READ_CLUTCH_ITEM (R149): Verifies header and tag, decrypts, decompresses, checks and sends. -/
  | readClutchItem (pond : Nat) (n : Nat) (faulty : Bool)
  /-- DIE_DATA_LANDING (R134): Die or peer data lands directly or in the landing area, with a resume entry. -/
  | dieDataLanding (pond : Nat) (n : Nat) (clutch : Nat)
  /-- OVERFLOW_BUFFER_RETURN (R142): A buffer returns to the pool zeroed, and waiting reads continue. -/
  | overflowBufferReturn (pond : Nat) (n : Nat)
  /-- DIGEST_FEED (R150): Reads and verifies one clutch for a digest. -/
  | digestFeed (pond : Nat) (n : Nat) (faulty : Bool)
  /-- DIGEST_ABSORB (R150): The owner absorbs verified blocks in LBA order. -/
  | digestAbsorb (tag : Nat)
  /-- PARITY_SLICE (R154): Accumulates P and Q for one 16 KiB slice. -/
  | paritySlice (pond : Nat) (n : Nat) (ends : Bool)
  /-- REPAIR_TERM (R154): Adds a coefficient times a source into the accumulator. -/
  | repairTerm (pond : Nat) (n : Nat) (coeff : Nat) (data : Bytes)
  /-- EFT_WATCHDOG_EXPIRY (R159): The no-progress count reaches LIMIT and fences the eft. -/
  | eftWatchdogExpiry (pond : Nat) (n : Nat)
  /-- EFT_FENCE_CMD (R159): A firmware write fences the named eft. -/
  | eftFenceCmd (requester : Nat) (value : Nat)
  /-- DIE_OP_LAUNCH (R261): The engine launches the head operation of each die queue that passes the chorus test. -/
  | dieOpLaunch (ch : Nat) (t : Nat)
  /-- ERASED_CHECK_COMPLETE (R218): The erased-state check of a suspect unit passes or reports NOT_ERASED. -/
  | erasedCheckComplete (op : Nat) (bits : Nat)
  /-- STATUS_POLL (R210): Read Status Enhanced polls a busy LUN. -/
  | statusPoll (op : Nat) (ready : Bool) (fail : Bool) (t : Nat)
  /-- DIE_READ_COMPLETE (R220): The page is decoded, escalating through retry and soft decode on failure. -/
  | dieReadComplete (op : Nat) (hardOk : Bool) (retry : Nat) (softOk : Bool) (t : Nat)
  /-- PROGRAM_COMPLETE (R179): A program ends; the buffer copy is released and rounds or stages are recorded. -/
  | programComplete (op : Nat) (t : Nat)
  /-- ERASE_COMPLETE (R216): An erase ends, SUSPECT clears and the clear record is queued. -/
  | eraseComplete (op : Nat) (t : Nat)
  /-- OPERATION_TIMEOUT (R210): Not ready at three times the maximum time: a transient event. -/
  | operationTimeout (op : Nat) (t : Nat)
  /-- HOST_READ_ON_BUSY_DIE (R211): A host read aimed at a busy die waits or suspends the running operation. -/
  | hostReadOnBusyDie (op : Nat) (t : Nat)
  /-- DIE_SUSPEND_COMPLETE (R213): The suspend ends and up to 4 queued reads run before the resume. -/
  | dieSuspendComplete (op : Nat) (t : Nat)
  /-- CHANNEL_HOLD_TIMEOUT (R211): Host reads held 500 µs go to on-the-fly rebuild. -/
  | channelHoldTimeout (ch : Nat) (t : Nat)
  /-- STRIPE_REBUILD_READ (R221): Rebuilds a row from the other members and parity. -/
  | stripeRebuildRead (op : Nat) (unreadable : Nat)
  /-- BUSCRC_EVENT (R224): A data-register read-back mismatch after data-in is a transient event. -/
  | buscrcEvent (op : Nat) (t : Nat)
  /-- TRAINING_CHECK (R224): Every TCHK frames, the narrowest eye is checked. -/
  | trainingCheck (ch : Nat) (eyeOk : Bool) (t : Nat)
  /-- RETRAINING_COMPLETE (R225): Retraining ends; the operation is retried, or the retraining failure is counted. -/
  | retrainingComplete (ch : Nat) (reye : Nat) (weye : Nat) (t : Nat)
  /-- REBUILD_MEMBER (R230): A lost member is rebuilt into a replacement block in loud turns. -/
  | rebuildMember
  /-- CALL_BOUNDARY (R249): CHO_COUNTER advances, and loud work, reclaim and grants are handed out. -/
  | callBoundary
  /-- TURN_CLOSING (R261): Near the turn end, running erases are suspended. -/
  | turnClosing (choir : Nat) (t : Nat)
  /-- CHB_IN_BEAT (R241): A beat is qualified or rejected, and it advances acquisition or lock. -/
  | chbInBeat (t : Nat) (width : Nat)
  /-- BEAT_TIMEOUT (R246): No qualified beat by 1.02 periods: LOCKED goes to HOLDOVER. -/
  | beatTimeout (t : Nat)
  /-- HOLDOVER_EXPIRY (R246): SINCE reaches 10 s: DRIFTING. -/
  | holdoverExpiry (t : Nat)
  /-- DRIFT_EXPIRY (R246): SINCE reaches 60 s: UNLOCKED. -/
  | driftExpiry (t : Nat)
  /-- NOISY_CLEAR (R243): NOISY clears after 1 s without a rejection. -/
  | noisyClear (t : Nat)
  /-- RELOCK_ACQUISITION_TIMEOUT (R253): A requested re-lock with no train after 4 s is abandoned. -/
  | relockAcquisitionTimeout
  /-- CHO_CTL_RELOCK (R253): Writing RELOCK starts a re-lock. -/
  | choCtlRelock (requester : Nat)
  /-- STAGED_FIELD_WRITE (R271): A window write to a staged CHO field is held until the next switch. -/
  | stagedFieldWrite (requester : Nat) (offset : Nat) (value : Nat)
  /-- QUIESCE_COMMAND_TIMEOUT (R111): A started command still running 1 s into QUIESCE completes with Command Interrupted. -/
  | quiesceCommandTimeout (tag : Nat)
  /-- COPY_COMMIT (R193): When a copy's destination is written, REMAP and RELEASE are committed and the source freed. -/
  | copyCommit (stripe : Nat)
  /-- CHECKPOINT_COMPLETE (R178): The last quarter is written and the CHECKPOINT record commits. -/
  | checkpointComplete
  /-- REFRESH_DUE (R439): Same-bank refresh at tREFI, forced at the deadline. -/
  | refreshDue (ch : Nat) (sub : Nat) (bank : Nat)
  /-- MR4_READ (R440): Every 16 ms, doubles the refresh rate if asked. -/
  | mr4Read (ch : Nat) (sub : Nat) (fast : Bool)
  /-- DQS_OSCILLATOR_READ (R438): Every 64 ms, corrects write delays and schedules lane retraining. -/
  | dqsOscillatorRead (ch : Nat) (drifts : List Int)
  /-- LANE_RETRAIN_SLICE (R438): A 2 µs slice retrains a drifted lane. -/
  | laneRetrainSlice (ch : Nat) (lane : Nat) (done : Bool) (rdly : Nat) (wdly : Nat) (reye : Nat) (weye : Nat)
  /-- DRAM_REQUEST (R445): A read or write request is scheduled with hazard checks and ECC. -/
  | dramRequest (r : DramArgs) (ecc : EccSeen) (slots : Nat) (t : Nat)
  /-- STREAM_STARVE_TIMEOUT (R444): A stream request waiting past STARVE is promoted to lookup. -/
  | streamStarveTimeout (ch : Nat) (t : Nat)
  /-- DRAM_POWER_DOWN_ENTRY (R447): A sub-channel idle 200 ns enters power-down. -/
  | dramPowerDownEntry (ch : Nat) (sub : Nat) (t : Nat)
  /-- SELF_REFRESH_ENTRY (R448): Drains writes, precharges and issues SRE. -/
  | selfRefreshEntry (ch : Nat) (sre : Bool)
  /-- SELF_REFRESH_EXIT (R449): A request after the commit point causes exit and re-arm. -/
  | selfRefreshExit (ch : Nat) (armed : Bool) (t : Nat)
  /-- PATROL_SCRUB (R453): Reads and corrects every line once per period. -/
  | patrolScrub (ch : Nat) (line : Nat) (ecc : EccSeen) (last : Bool) (t : Nat)
  /-- SNC_PROGRAM (R465): Programs up to 256 B after a blank check. -/
  | sncProgram (requester : Nat) (andow : Bool)
  /-- SNC_SECTOR_ERASE (R461): Erases a 4 KiB sector under intent and clear records. -/
  | sncSectorErase (requester : Nat)
  /-- SNC_BLOCK_ERASE (R461): Erases a 64 KiB block under intent and clear records. -/
  | sncBlockErase (requester : Nat)
  /-- SNC_BLANK_CHECK (R464): Checks a range for 0xFF. -/
  | sncBlankCheck (requester : Nat)
  /-- SNC_OPERATION_COMPLETE (R469): The operation is verified and RESULT set. -/
  | sncOperationComplete (verified : Bool)
  /-- SNC_DEVICE_TIMEOUT (R466): No finish within three times the SFDP maximum: DEVICE. -/
  | sncDeviceTimeout
  /-- SNC_XIP_DETACH_WRITE (R462): Sets a requester's detach bit. -/
  | sncXipDetachWrite (requester : Nat) (value : Nat)
  /-- BOOT_FLASH_INSTRUCTION_FETCH (R462): A fetch by a detached requester or during busy raises a fault. -/
  | bootFlashInstructionFetch (requester : Nat) (addr : Nat)
  /-- BOOT_FLASH_DATA_READ (R467): During a program or erase, reads return the status word. -/
  | bootFlashDataRead (requester : Nat) (addr : Nat) (len : Nat)
  /-- EVENT_RING_PROGRAM (R485): Staged records are programmed to the ring, marks last. -/
  | eventRingProgram
  /-- TOKEN_BUCKET_REFILL (R486): A token is added, writing a summary if events were suppressed. -/
  | tokenBucketRefill (code : Nat)
  /-- EVR_CURSOR_HIGH_WRITE (R490): Writing the high word starts a fetch of the record. -/
  | evrCursorHighWrite (requester : Nat) (value : Nat)
  /-- EVR_CMD_NEWEST (R490): Cursor to the newest record and fetch. -/
  | evrCmdNewest (requester : Nat)
  /-- EVR_CMD_OLDEST (R490): Cursor to the oldest retained record and fetch. -/
  | evrCmdOldest (requester : Nat)
  /-- EVR_CMD_NEXT (R490): Cursor to the next retained sequence and fetch. -/
  | evrCmdNext (requester : Nat)
  /-- EVR_FETCH_COMPLETE (R490): The window fills and FOUND is set. -/
  | evrFetchComplete (requester : Nat)
  /-- HEALTH_COPY_TO_GECKO (R479): Every 1 s, health values are copied to the gecko. -/
  | healthCopyToGecko
  /-- HEALTH_MINUTE_TICK (R473): Busy time, temperature times and histogram minutes are counted. -/
  | healthMinuteTick
  /-- PORT_SIGNAL_DETECT (R274): Signal on all four lanes starts port bring-up. -/
  | portSignalDetect (port : Nat) (t : Nat)
  /-- PORT_TRAINING_COMPLETE (R274): Adaptation and block lock complete; HELLO begins. -/
  | portTrainingComplete (port : Nat) (t : Nat)
  /-- HELLO (R275): Checks partner group, ID, geometry and port. -/
  | hello (port : Nat) (group : Nat) (dev : Nat) (dimx : Nat) (dimy : Nat) (pport : Nat) (t : Nat)
  /-- MISWIRED_HELLO_RETRY (R275): A MISWIRED port retries HELLO every 1 s. -/
  | miswiredHelloRetry (port : Nat) (t : Nat)
  /-- AUTH1 (R278): The responder receives nonce A and replies with a tag. -/
  | auth1 (port : Nat) (nonce : Bytes) (prev : Bool) (t : Nat)
  /-- AUTH2 (R278): The initiator verifies the responder's tag and sends AUTH3. -/
  | auth2 (port : Nat) (nonce : Bytes) (tag : Bytes) (t : Nat)
  /-- AUTH3 (R278): The responder verifies the initiator's tag. -/
  | auth3 (port : Nat) (tag : Bytes) (t : Nat)
  /-- DELAY (R299): A DELAY probe or reply measures one-way link delay. -/
  | delay (rx : Rx) (reply : Bool) (t1 : Nat) (t2 : Nat) (t3 : Nat) (t4 : Nat) (t : Nat)
  /-- DELAY_PROBE_TIMER (R299): Every 1 s a port sends a delay probe. -/
  | delayProbeTimer (port : Nat) (t : Nat)
  /-- BRINGUP_TIMEOUT (R276): A bring-up step over 200 ms puts the port in BACKOFF. -/
  | bringupTimeout (port : Nat) (t : Nat)
  /-- BACKOFF_EXPIRY (R276): Bring-up is retried after the backoff. -/
  | backoffExpiry (port : Nat) (t : Nat)
  /-- PORT_SIGNAL_LOSS (R296): The port goes down and routes change. -/
  | portSignalLoss (port : Nat) (t : Nat)
  /-- IDLE (R283): An acknowledge-only frame releases replay entries. -/
  | idle (port : Nat) (ack : Nat)
  /-- NAK (R283): Resends from the named sequence; 8 resends take the port down. -/
  | nak (port : Nat) (seq : Nat) (t : Nat)
  /-- FRAME_CRC_ERROR (R281): A bad frame is discarded and a NAK is sent. -/
  | frameCrcError (port : Nat) (reserved : Bool)
  /-- SESSION_REKEY (R279): A session counter at 2^47 re-runs authentication. -/
  | sessionRekey (port : Nat) (t : Nat)
  /-- LSA (R290): An LSA updates the map, routes, root and conflicts. -/
  | lsa (rx : Rx) (dev : Nat) (serial : Bytes) (up : Nat) (beat : Bool) (joined : Nat) (t : Nat)
  /-- LSA_PERIODIC (R290): Every 1 s a member floods its LSA. -/
  | lsaPeriodic (t : Nat)
  /-- LSA_EXPIRY (R290): A map entry not refreshed for 3 s is removed. -/
  | lsaExpiry (dev : Nat) (t : Nat)
  /-- ROOT_DISPLACEMENT (R297): A lower-ID member displaces the root after 10 s of beat. -/
  | rootDisplacement (dev : Nat) (t : Nat)
  /-- TIME (R300): A TIME frame from the parent counts as a beat and is forwarded. -/
  | time (rx : Rx) (root : Nat) (epoch : Nat) (frame : Nat) (switch : Nat) (hops : Nat) (sinceMs : Nat) (corr : Nat) (t : Nat)
  /-- ROUTED_FRAME_FORWARD (R293): The router forwards a routed frame by its direction flags and VC. -/
  | routedFrameForward (rx : Rx) (type : Nat) (source : Nat) (dest : Nat) (flags : Nat) (tag : Nat) (payload : Bytes)
  /-- PREAD (R305): A responder checks and serves a peer read. -/
  | pread (rx : Rx) (source : Nat) (tag : Nat) (req : PeerReq)
  /-- PDATA (R303): Peer read data lands in reserved space. -/
  | pdata (rx : Rx) (tag : Nat) (data : Bytes)
  /-- PSTAT (R308): A peer read ends with its status. -/
  | pstat (rx : Rx) (tag : Nat) (code : Nat) (blocks : Nat)
  /-- PEER_READ_TIMEOUT (R308): A missing PSTAT past PEER_TMO resends, or fails with Peer Unreachable. -/
  | peerReadTimeout (tag : Nat) (t : Nat)
  /-- SEC_HE_CLAIM (R358): Claims a hash engine with ALG. -/
  | secHeClaim (requester : Nat) (n : Nat) (alg : Nat) (outlen : Nat)
  /-- SEC_HE_DATA_WRITE (R358): Feeds a message word, dropped for a non-owner. -/
  | secHeDataWrite (requester : Nat) (n : Nat) (value : Nat)
  /-- SEC_HE_FINAL (R358): Ends the message and starts finishing. -/
  | secHeFinal (requester : Nat) (n : Nat) (tailb : Nat)
  /-- HASH_ENGINE_DONE (R358): The digest is ready. -/
  | hashEngineDone (n : Nat)
  /-- SEC_HE_RELEASE (R358): Releases the engine and clears its state. -/
  | secHeRelease (requester : Nat) (n : Nat)
  /-- SEC_HE_DIGEST_LAST_READ (R358): The owner's read of the last digest word releases the engine. -/
  | secHeDigestLastRead (requester : Nat) (n : Nat)
  /-- SEC_KE_CLAIM (R354): Claims the key engine. -/
  | secKeClaim (requester : Nat)
  /-- KE_START_CMAC (R354): Starts an AES-256 CMAC. -/
  | keStartCmac (requester : Nat)
  /-- KE_START_UNWRAP_XTS (R354): Starts an RFC 5649 unwrap to an XTS pair. -/
  | keStartUnwrapXts (requester : Nat)
  /-- KE_START_UNWRAP_AES (R354): Starts an RFC 5649 unwrap to an AES-256 key. -/
  | keStartUnwrapAes (requester : Nat)
  /-- SEC_KE_DATA_WRITE (R355): Feeds an input word, checked against LEN. -/
  | secKeDataWrite (requester : Nat) (value : Nat)
  /-- KE_OPERATION_COMPLETE (R356): The tag is ready, or the unwrapped key is written to its slot. -/
  | keOperationComplete (owner : Nat) (source : Nat)
  /-- SEC_KE_ABORT (R373): Clears the operation and keeps the owner. -/
  | secKeAbort (requester : Nat)
  /-- SEC_KE_RELEASE (R354): Releases the key engine. -/
  | secKeRelease (requester : Nat)
  /-- SEC_KS_ZERO (R373): Zeroes the selected key slot. -/
  | secKsZero (requester : Nat)
  /-- SEC_KS_FILL (R373): Fills the slot from the TRNG as a device key. -/
  | secKsFill (requester : Nat)
  /-- SEC_TRNG_DATA_READ (R373): Returns a fresh TRNG word. -/
  | secTrngDataRead (requester : Nat)
  /-- SECURITY_ALARM (R360): GLITCH, TEMP, OTPECC, TRNG or BUS clears engines and slots as listed. -/
  | securityAlarm (kind : Nat) (engine : Nat)
  /-- TRNG_RECOVERY (R360): After 1,024 passing samples, TRNG words resume. -/
  | trngRecovery
  /-- TRNG_WAIT_TIMEOUT (R360): An operation waiting 100 ms for the TRNG fails with Internal Error. -/
  | trngWaitTimeout
  /-- TOP_LOCK_LOCK (R523): Setting LOCK makes RWL fields ignore writes. -/
  | topLockLock (requester : Nat)
  /-- TOP_LOCK_WINRO (R523): Setting WINRO drops PCIe window writes. -/
  | topLockWinro (requester : Nat)
  /-- TOP_ERRADDR_VALID_CLEAR (R528): Writing VALID clears and re-arms the capture. -/
  | topErraddrValidClear (requester : Nat)
  /-- LOW_WORD_READ_LATCH (R14): Reading a 64-bit register's low word latches its high word per requester. -/
  | lowWordReadLatch (requester : Nat) (offset : Nat)
  /-- RC_REGISTER_READ (R15): A read of an RC field returns and clears it. -/
  | rcRegisterRead (requester : Nat) (offset : Nat)
  /-- WINDOW_ACCESS_IN_LOW_POWER (R521): A PF0 window access in SLEEP or DEEP wakes the part before it is forwarded. -/
  | windowAccessInLowPower (offset : Nat)
  /-- REGISTER_WRITE (R15): A write to a register without its own row applies its access codes, lock, denial and dark rules. -/
  | registerWrite (requester : Nat) (offset : Nat) (dwords : Nat) (full : Bool) (value : Nat)
  /-- PWRFAIL_N_DEASSERT (R40): PWRFAIL_N goes high and the 100 ms recovery count starts, or starts again. -/
  | pwrfailNDeassert (t : Nat)
  /-- REGISTER_READ (R17): A window read of a dark, unmapped or misaligned offset returns 0x0BAD_0FF0 or 0, and sets TOP_ERR bits, TOP_ERRCNT and the TOP_ERRADDR capture. -/
  | registerRead (requester : Nat) (offset : Nat) (dwords : Nat) (full : Bool)
  /-- HOLDUP_SELF_TEST_DUE (R127): The 24-hour period expires in service and a new hold-up self-test is started. -/
  | holdupSelfTestDue (t : Nat)
  /-- SET_FEATURES_ASYNCHRONOUS_EVENT_CONFIG (R63): Set Features Asynchronous Event Configuration enables or disables notices such as Zone Descriptor Changed and Firmware Activation Starting for the function. -/
  | setFeaturesAsynchronousEventConfig (src : Src) (mask : Nat)
  /-- SET_FEATURES_TEMPERATURE_THRESHOLD (R473): Set Features FID 04h sets the over- and under-temperature thresholds that drive Critical Warning bit 1. -/
  | setFeaturesTemperatureThreshold (src : Src) (sensor : Nat) (under : Bool) (kelvin : Nat)
  /-- DELETE_IO_SUBMISSION_QUEUE (R332): Deletes an I/O submission queue; while the function is over its queue-pair quota, the queue cannot be recreated above the new limit. -/
  | deleteIoSubmissionQueue (src : Src) (qid : Nat)
  /-- DELETE_IO_COMPLETION_QUEUE (R332): Deletes an I/O completion queue and frees its queue identifier. -/
  | deleteIoCompletionQueue (src : Src) (qid : Nat)
  deriving DecidableEq, Repr

end Sys2Proof
end

