-- ==== Sys2Proof/Config.lean ====
section
/-! DEFINITION. What one part fixes and the spec does not give: opaque constants no proof can see into. -/

namespace Sys2Proof

/-- The settings of a profile (R388). Buffer size is in units of 256 MiB; `member` is group, device ID, DIMX minus
1, DIMY minus 1 and phase; `words` are the register words of chorus, block, power and thermal settings by window
offset (a register not listed takes its Reset value). -/
structure Profile where
  twoPorts : Bool
  totalVfs : Nat
  window : Bool
  lockAtStart : Bool
  lockWait : Nat
  member : Option (List Nat)
  buffer : Nat
  queuePairs : Nat
  tags : Nat
  keySlots : Nat
  tokens : Nat
  bufQuota : Nat
  stripeQuota : Nat
  words : List (Nat × Nat)
  offEnable : Bool
  deriving DecidableEq, Repr

/-- The built-in profile (R388, last column). -/
def Profile.builtIn : Profile where
  twoPorts := false
  totalVfs := 0
  window := false
  lockAtStart := false
  lockWait := 8
  member := none
  buffer := 8
  queuePairs := 256
  tags := 8192
  keySlots := 256
  tokens := 40000
  bufQuota := 0
  stripeQuota := 0
  words := []
  offEnable := false

/-- The settings of a profile body: none where a setting lies outside its range. The record format belongs to the
Peuth compiler (R386). -/
opaque Config.profileBody : Bytes → Option Profile

/-- A fresh value the spec leaves open, by the counter of State (assumption 3). -/
opaque Config.free : Nat → Nat
/-- The content of the compressed block the encoder finds with a number of candidates to each position, from the input before a
block and the block's input (R138, R139): the match search is free. -/
opaque Config.compressBlock : Nat → Bytes → Bytes → Bytes
/-- The XMSS-MT signature of 256 bytes under an identity's seeds and an index (R363, R364). -/
opaque Config.xmssSign : Bytes → Nat → Bytes → Bytes
/-- Public root and public seed of an identity, 64 bytes, from its private seeds (R346). -/
opaque Config.xmssRoot : Bytes → Bytes
/-- Power estimate in mW from the VDD_CORE current last read (R412 gives no formula). -/
opaque Config.powerEstimate : Nat → Nat

/-- The on-die sensor nearest the AON oscillator (R427 does not name it). -/
opaque Config.oscillatorSensor : Nat

/-- Available Spare of a choir whose reference is 0 (R474 divides by it). -/
opaque Config.spareNoRef : Nat

/-- Bytes of a journal record, by kind (R175 gives the region's size and no record's). -/
opaque Config.recordBytes : Nat → Nat

/-- The XTS pair drawn from the TRNG under a draw number: media keys and device keys (R351, R373). -/
opaque Config.drawnKey : Nat → Bytes

/-- A 32-byte key derived from the device root secret, by purpose: 0 media KEK, 1 record key, 2 the key that wraps the
host KEK in the boot flash (R350, R353). -/
opaque Config.derive : Nat → Bytes → Bytes

/-- Maximum time in ns of an SLC-mode page read, program or erase (0 to 2) in the media firmware's die table (R210). -/
opaque Config.slcMaxTime : Nat → Nat

end Sys2Proof
end

