-- ==== Sys2Proof/Machine/State.lean ====
section
/-! DEFINITION. The state of the part as plain data: every register, queue, table, buffer, pin and mode the
spec gives it, the reasons a step can stop, and the state right after power-on reset. Every value a window
register shows lives in the register file (Machine/Regs.lean says where), not in a second field. -/

namespace Sys2Proof.Machine

open Sys2Proof

/-! ## Why a step can stop -/

/-- Faults: the command names something the part does not have, so no such event can happen. All are safe:
the model stops where the hardware has nothing to answer. -/
inductive Fault where
  /-- raised by any command naming a function above 1,023 (R315); safe -/
  | noSuchFunction
  /-- raised by a host command of an I/O queue that does not exist (R90); safe -/
  | noSuchQueue
  /-- raised by a command naming a channel, eft, port, reading, engine, choir or controller out of range; safe -/
  | noSuchInstance
  /-- raised by an event of a command tag that no outstanding command holds (R91); safe -/
  | noSuchTag
  deriving DecidableEq, Repr

/-- Refusals: only for a command the model does not give a meaning. -/
inductive Refusal where
  /-- raised by Dispatch for a command without a meaning; safe -/
  | notModelled (mnemonic : String)
  deriving DecidableEq, Repr

/-! ## Registers -/

/-- Access codes of R15. -/
inductive Access where
  | ro | rw | rwl | w1c | w1s | wo | rc | rsv
  deriving DecidableEq, Repr

/-- A field of a window register: the register's offset and its bits [msb:lsb] (R10). -/
structure Fld where
  reg : Nat
  msb : Nat
  lsb : Nat
  deriving DecidableEq, Repr

/-- One row of a field table: bits, access code, Reset value, and the Reset value's step per instance. -/
structure FieldDesc where
  lsb : Nat
  len : Nat
  access : Access
  reset : Nat
  step : Nat
  deriving DecidableEq, Repr

/-- One register of the window: its offset, its instances in two dimensions, its fields. -/
structure RegDesc where
  base : Nat
  countA : Nat
  strideA : Nat
  countB : Nat
  strideB : Nat
  fields : List FieldDesc
  deriving DecidableEq, Repr

/-! ## Completions -/

/-- The statuses the part returns: the NVMe ones the spec names, and the vendor ones of R126. -/
inductive Status where
  | success
  | invalidOpcode | invalidField | invalidNsOrFormat | invalidFormat | invalidQueueId | invalidQueueSize
  | invalidLogPage | invalidFwImage | invalidFwSlot | featureNotChangeable | invalidParameter
  | nsNotReady | commandInterrupted | abortRequested | sanitizeInProgress | sanitizeFailed | internalError
  | tooManyOpen | tooManyActive | selfTestInProgress | fwActivationProhibited | fwNeedsReset
  | commandSequence | operationDenied | nsInsufficientCapacity | nsAttachLimit | nsIdUnavailable
  | nsAlreadyAttached | nsNotAttached | nsIsPrivate | zoneFull | zoneReadOnly | zoneOffline
  | zoneInvalidWrite | zoneBoundary | invalidZoneState | lbaOutOfRange | nsWriteProtected | accessDenied
  | deallocatedBlock | unrecoveredRead | guardError | appTagError | refTagError | compareFailure
  | sglTypeInvalid | completionQueueInvalid | invalidQueueDeletion | aerLimit | dataSglLengthInvalid | sscInvalidParameter
  | fenceBroken | quotaExceeded | decompressLimit | checkMismatch | locatorStale | peerUnreachable
  | engineOwned | keySlotEmpty | lengthMismatch | notErased | indexExhausted
  deriving DecidableEq, Repr

/-- The kinds of information an asynchronous event carries (R530, R63, R112, R266, R473). -/
inductive Aen where
  | autotomy      -- 7h / 0x01, log 0xC2
  | rowsLost      -- 7h / 0x02, log 0xC2
  | chorus        -- 7h / 0x03, log 0xC1
  | mode          -- 7h / 0x04, log 0xC0
  | smart         -- SMART / Health, log 02h
  | zoneChanged   -- Zone Descriptor Changed, log BFh
  | fwStarting    -- Firmware Activation Starting
  | plmAggregate  -- Predictable Latency Event Aggregate, log 0Bh
  | sanitizeDone  -- Sanitize Operation Completed, log 81h
  deriving DecidableEq, Repr

/-- One zone descriptor of Report Zones (R63). -/
structure ZoneDesc where
  state : Nat
  attrs : Nat
  zcap : Nat
  zslba : Nat
  wp : Nat
  deriving DecidableEq, Repr

/-- The SMART / Health Information log as fields (R473). -/
structure SmartLog where
  critical : Nat
  composite : Nat
  spare : Nat
  threshold : Nat
  used : Nat
  unitsRead : Nat
  unitsWritten : Nat
  readCmds : Nat
  writeCmds : Nat
  busyMinutes : Nat
  powerCycles : Nat
  powerOnHours : Nat
  unsafeShutdowns : Nat
  mediaErrors : Nat
  errorEntries : Nat
  warnMinutes : Nat
  critMinutes : Nat
  sensors : List Nat
  thermal : List Nat
  deriving DecidableEq, Repr

/-- Identify Controller, the fields the spec states (R89, R98, R109, R127, R378, R380, R402, R533). -/
structure IdCtrl where
  nn : Nat
  mnan : Nat
  npss : Nat
  enlat : List Nat
  frmw : Nat
  awun : Nat
  awupf : Nat
  edstt : Nat
  rtd3e : Nat
  selfTest : Bool
  deriving DecidableEq, Repr

/-- Identify Namespace, the fields the spec states (R46, R47, R50, R56, R98, R532). -/
structure IdNs where
  nsze : Nat
  ncap : Nat
  nuse : Nat
  nlbaf : Nat
  flbas : Nat
  dps : Nat
  nawun : Nat
  nawupf : Nat
  nabsn : Nat
  nvmSet : Nat
  clutchCode : Nat
  levelSel : Nat
  blocksPerConvZone : Nat
  zsze : Nat
  mor : Nat
  mar : Nat
  deriving DecidableEq, Repr

/-- What a completion or a reply carries beside its status. Structures the spec lays out byte by byte are
byte strings; standard NVMe structures are the fields the spec speaks of. -/
inductive Payload where
  | none
  | bytes (b : Bytes)
  | dataMeta (b m : Bytes)   -- data, and the tuples sent through MPTR (R532)
  | smart (l : SmartLog)
  | zones (total : Nat) (l : List ZoneDesc)
  | changedZones (l : List Nat)
  | ctrl (i : IdCtrl)
  | ns (i : IdNs)
  | sets (l : List (Nat × Nat × Bool))   -- NVM Set, its choir, and whether it is in use (R206, R265)
  | latency (l : List Nat)     -- the fields of log page 0Ah, in the order of `State.plmLog` (R265)
  | setEvents (l : List Nat)   -- log page 0Bh: the NVM Sets with an event (R266)
  | selfTest (l : List Nat)    -- the Device Self-test log: code, completion, then results of four numbers (R127)
  | health (ctrl : Bool) (l : List Nat)  -- a health poll of a controller, or of the subsystem (R479)
  | nums (l : List Nat)        -- register words of a read of several (R514)
  deriving DecidableEq, Repr

/-- A completion queue entry, with the data transferred for it. -/
structure Cqe where
  fn : Nat
  qid : Nat
  cid : Nat
  status : Status
  dw0 : Nat
  dw1 : Nat
  data : Payload
  dnr : Bool                 -- Do Not Retry (R126, R529)
  deriving DecidableEq, Repr

/-- An answer that is no completion: a register read, a sideband answer, a configuration request, a bus answer. -/
structure Reply where
  who : Nat
  value : Nat
  err : Bool
  data : Payload
  deriving DecidableEq, Repr

/-! ## Functions and queues -/

/-- An I/O (or admin, qid 0) submission queue of a function. -/
structure Sq where
  qid : Nat
  size : Nat
  cqid : Nat
  waiting : Nat              -- entries the doorbell has announced and the front end has not fetched
  fetched : List Nat         -- tags of fetched entries whose command has not begun, oldest first
  nextPos : Nat              -- position (fetch order) the next command takes (R93)
  winFrom : Nat              -- first position after the latest Ordered Write (R100)
  failed : List Nat          -- positions that completed with an error, since that window opened (R101)
  prio : Nat                 -- 0 urgent, 1 high, 2 medium, 3 low (R89)
  start : Nat := 0           -- the position its life begins at: a queue created anew counts on from the old one's last commands
  cur : Nat := 0             -- tag of the entry taken last
  deriving DecidableEq, Repr

/-- What a function's front end holds: controller state, queues, features, events (R89-R93, R315, R530). -/
structure Fn where
  en : Bool                  -- CC.EN
  rdy : Bool                 -- CSTS.RDY
  cfs : Bool                 -- CSTS.CFS
  shst : Nat                 -- CSTS.SHST: 0 none, 1 in progress, 2 complete
  shutFrom : Option Nat      -- the first journal sequence its shutdown's checkpoint need not hold (R178)
  resetting : Bool           -- its reset is running (R335)
  sqs : List Sq              -- its submission queues, the admin queue (qid 0) among them
  cqs : List (Nat × Nat)     -- its I/O completion queues: identifier and size
  ams : Nat                  -- CC.AMS: 0 round robin, 1 weighted round robin with urgent class (R89)
  rrq : Nat                  -- queue the next fetch of this function begins after
  wrr : List Nat             -- the same by priority, 0 to 3; then the weighted class served last
  grant : Nat                -- queue pairs granted by Number of Queues (R90)
  aec : Nat                  -- Asynchronous Event Configuration
  aers : List Nat            -- cids of outstanding Asynchronous Event Requests, oldest first
  events : List Aen          -- events waiting for a request, oldest first
  masked : List Nat          -- log pages whose events were reported and not read since (R530)
  dulbe : Bool               -- Deallocated or Unwritten Logical Block error enable
  tmtOver : Nat              -- over-temperature threshold, kelvin (FID 04h)
  tmtUnder : Nat
  sensorOver : List (Nat × Nat)   -- thresholds of the used TD inputs
  sensorUnder : List (Nat × Nat)
  changed : List (Nat × Nat) -- Changed Zone List: namespace and first LBA of the zone
  fixedEvents : Option (List Nat) -- sequences of the fixed Event Records list (R491)
  plmOn : List Nat           -- NVM Sets whose latency events are enabled (R266)
  plmPend : List Nat         -- sets in the Predictable Latency Event Aggregate log
  bal : Int                  -- write-token balance (R328)
  extra : Nat                -- extra tokens given at the last boundary
  refill : Nat               -- refill of this frame
  charged : Nat              -- tokens charged in the running frame
  chargedLast : Nat          -- tokens charged in the last complete frame
  waited : Nat               -- frames in which a write waited for tokens (R338)
  weightKept : Option Nat    -- the weight still in force until the next frame boundary after a change (R330)
  keyShrink : Option Nat     -- a smaller key range waiting for its slots to come free (R332)
  unitsRead : Nat            -- blocks read, for Data Units (R473)
  unitsWritten : Nat
  readCmds : Nat
  writeCmds : Nat
  busyMinutes : Nat
  mediaErrors : Nat
  errors : Nat               -- Error Information Log Entries: failed completions (R473)
  ioSeen : Bool              -- an I/O command was outstanding in the running minute
  deriving DecidableEq, Repr

/-! ## Namespaces, zones, clutches -/

/-- A namespace (R46-R50, R317, R351, R532). -/
structure Ns where
  nsid : Nat
  zoned : Bool
  nsze : Nat                 -- blocks
  clutch : Nat               -- blocks in one clutch: 1, 4, 8, 16 or 32
  clutchCode : Nat           -- as given at creation (R47)
  levelSel : Nat             -- as given at creation (R47)
  level : Nat
  fmt : Nat                  -- LBA format 0, 1 or 2 (R532)
  extended : Bool            -- metadata interleaved (true) or through MPTR
  kpio : Bool                -- Key Per I/O enabled
  attached : Option Nat      -- the function it is attached to
  formattedFor : Bool        -- conventional: formatted, and not written since (R49)
  slot : Option Nat          -- media slot (R318)
  slotReady : Bool           -- the slot holds the reloaded media key (R351)
  key : Nat                  -- identity of its media key, drawn at creation, replaced by an erase
  gen0 : Nat                 -- generation its zones took at creation (R66)
  lastFn : Option Nat        -- the function it was last attached to (R49)
  deriving DecidableEq, Repr

/-- NVMe zone states. -/
inductive ZState where
  | empty | implicitOpen | explicitOpen | closed | full | readOnly | offline
  deriving DecidableEq, Repr

/-- A zone of a zoned namespace (R51, R57, R62, R66, R78). -/
structure Zone where
  state : ZState
  wp : Nat                   -- write pointer minus ZSLBA, blocks
  fill : Nat                 -- fill point, granules
  gen : Nat
  stripe : Option Nat        -- stripe sequence of the bound stripe
  choir : Nat
  cls : Nat                  -- lifetime class
  zfc : Bool                 -- Zone Finished by Controller
  fzr : Bool                 -- Finish Zone Recommended
  counts : Bool              -- counts against the stripe quota (R324)
  lastPlace : Nat            -- placement number of its latest placement
  deriving DecidableEq, Repr

/-- The 32 B clutch header (R70). -/
structure Hdr where
  magic : Nat
  fmt : Nat
  level : Nat
  llen : Nat
  slen : Nat
  check : Nat
  lba : Nat
  tag : Nat
  crc : Nat
  deriving DecidableEq, Repr

/-- A stored clutch: the header in clear and the encrypted region, padding included (R69, R144). -/
structure Stored where
  hdr : Hdr
  region : Bytes
  deriving DecidableEq, Repr

/-- Where the newest copy of a clutch lies (R31). -/
inductive Place where
  | buffer
  | spawn (seg : Nat)        -- a spawn segment, after a flush perhaps of another choir's share (R28)
  | stripe (seq : Nat)       -- its zone stripe or home
  | log (seq : Nat)          -- a log stripe
  | lost                     -- acknowledged data lost at a power failure (R83) or a lost row (R222)
  deriving DecidableEq, Repr

/-- One entry of a zone's offset index, or of the overlay and home of a conventional zone. -/
structure Clutch where
  id : Nat                   -- placement number, device wide, rising
  nsid : Nat
  zone : Nat                 -- zone z, or conventional zone k
  gran : Nat                 -- first granule
  ngran : Nat
  lba : Nat
  nblk : Nat
  fn : Nat                   -- function charged for its buffer space
  stored : Stored
  place : Place
  onFlash : Bool             -- some copy is on flash
  log : Nat                  -- conventional: its log stripe (R187); 0 none
  slot : Nat                 -- conventional: its slot in that log stripe (R187)
  pos : Nat                  -- where its copy in a spawn segment begins, in granules of the segment's data
  deriving DecidableEq, Repr

/-! ## Outstanding commands -/

/-- The commands that stay outstanding for more than one step. -/
inductive Kind where
  | write | append | locAppend | vpw | orderedWrite | writeZeroes | deallocate | dsmNone
  | read | compare | verify | readLoc | digest | reconstruct
  | peer                     -- a peer read this part serves, or a local source of Reconstruct (R306, R309)
  | flush | zoneOpen | zoneClose | zoneFinish | zoneReset | report
  deriving DecidableEq, Repr

/-- An outstanding I/O command: what it asks, and how far it has come (R94). -/
structure Cmd where
  tag : Nat
  fn : Nat
  qid : Nat
  cid : Nat
  pos : Nat                  -- position in its submission queue (R93)
  kind : Kind
  nsid : Nat
  slba : Nat
  nlb : Nat                  -- blocks
  started : Bool             -- handed to an eft (R94)
  admitted : Bool            -- write admission passed (R325, R329)
  hint : Nat                 -- placement hint (R52)
  keyTag : Nat
  prinfo : Nat
  appTag : Nat
  appMask : Nat
  ranges : List (Nat × Nat)  -- Dataset Management ranges, or the sources of a digest
  data : Bytes               -- data the command carries: a VPW body, Compare's host data
  fmt : Nat                  -- VPW format
  slen : Nat                 -- VPW stored length
  check : Nat                -- VPW check value
  loc : Nat                  -- Read by Locator: the locator
  gen : Nat                  -- and the expected generation; Ordered Write: where its window begins
  off : Nat                  -- and the block offset; Digest Range: the algorithm
  items : Nat                -- its items not yet ended
  placed : Nat               -- its items already placed on efts (R133)
  targets : List Nat         -- clutch ids to read, in LBA order
  parts : List (Nat × Stored)-- stored clutches in the buffer, by index
  out : List (Nat × Bytes)   -- verified plaintext by clutch id
  fail : Option Status       -- first failure met
  owner : Option Nat         -- Digest Range or Reconstruct: the owning eft (pond * 32 + n)
  terms : List (Nat × Bool)  -- Reconstruct: repair terms issued, segment * 32 + source, and whether each is in the sum
  deriving DecidableEq, Repr

/-! ## Efts -/

/-- Item classes of R132. -/
inductive ItemCls where
  | write | read | digest | repair | parity | selfTest
  deriving DecidableEq, Repr

/-- Whose work an item is (R132). -/
inductive Owner where
  | fn (n : Nat)
  | device
  deriving DecidableEq, Repr

/-- An item: its class and owner, the command's tag and the clutch index or clutch id it works on. -/
structure Item where
  cls : ItemCls
  owner : Owner
  tag : Nat
  ix : Nat
  resume : Bool              -- a resume entry of a parked item (R134)
  redo : Option Nat          -- a redo: the eft it failed on first (R161)
  rebuilt : Bool             -- its clutch has been rebuilt from parity after a bad header (R149)
  deriving DecidableEq, Repr

/-- A Digest Range context in region C (R150). -/
structure Digest where
  tag : Nat
  next : Nat                 -- next block index to absorb
  issued : Nat               -- index in the command's targets of the next feed
  feeds : List (Nat × (Status ⊕ Bytes)) -- verified plaintext waiting to be absorbed, or how the feed failed, by clutch id
  msg : Bytes                -- bytes absorbed
  unwritten : Nat
  fail : Option Status       -- the failure met in LBA order (R124)
  deriving DecidableEq, Repr

/-- One eft (R130, R131, R134, R155, R158, R159). Fence, cause, strikes and last owner are register fields. -/
structure Eft where
  deque : List Item          -- near end first
  parked : List Item
  run : Option Item
  regA : Bytes               -- contiguous prefix of region A
  tail : Bytes               -- PI tail area of region A, from offset 128 KiB
  pieces : List (Nat × Bytes)-- completions beyond the prefix, by offset
  reqs : List (Nat × Nat × Nat) -- host memory requests outstanding: requester, offset and length left (R136, R145)
  nextReq : Nat              -- requests of its item issued so far
  noBuf : Bool               -- its next read is held for an overflow buffer, and counted (R142)
  regB : Option Stored
  ovf : List Bytes           -- overflow buffers its item has filled, in order (R142)
  dirty : Nat                -- bytes of A and B written since the last scrub
  ctx : List Digest          -- Digest Range contexts, at most 2
  acc : Bytes                -- GF accumulator
  noProgress : Nat
  strikeAt : List Nat        -- frames of strikes in the window
  runs : Nat                 -- separate runs in which it was fenced (boot flash record)
  fencedThisRun : Bool
  back : List Bytes          -- overflow buffers of items that have ended, not yet returned to the pool (R156)
  outs : List (Nat × Bytes × Bytes) -- contexts of parked Reconstruct outputs: tag, segments finished for region A, accumulator (R311)
  deriving DecidableEq, Repr

/-! ## Translation (R166-R201) -/

/-- A member of a stripe: channel, LUN, block and status 0 good, 1 rebuilding, 2 lost (R170). -/
structure Member where
  ch : Nat
  lun : Nat
  block : Nat
  status : Nat
  units : Nat                -- program units of its stripe written to it
  deriving DecidableEq, Repr

/-- An entry of the zone map (R170). `state` holds the codes 0 to 7 listed there. -/
structure Stripe where
  seq : Nat
  choir : Nat
  cls : Nat
  state : Nat
  nsid : Nat
  zone : Nat
  members : List Member
  rounds : Nat               -- rounds programmed
  torn : Bool
  copyOf : Nat               -- copy destination: the stripe sequence it replaces
  slot : Nat                 -- its stripe slot, which the block map names (R171)
  handed : Nat               -- member programs handed over, 32 to a round, in row order (R180)
  pq : Nat                   -- rounds whose P and Q programs have been handed over
  full : Nat                 -- when its zone went Full: the next placement, then the record (R180)
  deriving DecidableEq, Repr

/-- A spawn segment (R182): its choir, its 16 blocks (15 data, then P), the granules programmed, whether a fold of it
is running, whether it is released for erase. Its number lies above every stripe sequence. -/
structure Segment where
  id : Nat
  choir : Nat
  blocks : List Member
  used : Nat
  folding : Bool
  released : Bool
  slot : Nat                 -- its segment index, which the block map names (R171)
  deriving DecidableEq, Repr

/-- An entry of the block map (R171). `state` holds the codes 0 to 7 listed there. -/
structure Block where
  native : Nat
  slc : Nat
  owner : Nat
  state : Nat
  suspect : Bool
  deriving DecidableEq, Repr

/-- Journal record kinds (R176). -/
inductive JKind where
  | bind | place | stage | round | reset | finish | remap | release | erased | checkpoint | deallocate
  deriving DecidableEq, Repr

/-- Reclaim work handed to the channel engines (R191, R195, R198). -/
inductive Work where
  | erase (choir unit : Nat)
  | fold (choir seg : Nat)
  | compact (choir stripe : Nat)
  | merge (choir nsid zone : Nat)
  | wlMove (choir stripe : Nat)
  | home (choir clutch : Nat)
  | releaseErased (choir : Nat)
  deriving DecidableEq, Repr

/-- The maps at one moment: what a checkpoint holds, and what a start has where the journal it can verify ends there (R178, R199, R201). -/
structure Maps where
  stripes : List Stripe
  segs : List Segment
  blocks : List (Nat × Block)
  zones : List (Nat × Zone)
  clutches : List Clutch
  unread : List (Nat × Nat)
  released : List (Nat × Nat × Nat × Nat)
  logFree : List Nat
  logFill : List Nat
  spawnErased : List Nat
  spawnBlocks : List Nat
  deriving DecidableEq, Repr

/-- A journal record: its sequence number, kind and what it names, and the maps it found: those a start has that does not find it. -/
structure JRec where
  seq : Nat
  kind : JKind
  args : List Nat
  before : Maps
  deriving DecidableEq, Repr

/-- What a REMAP record commits (R176): the destination of a move or a merge, a fold of a segment, a compaction of a log stripe, a move home, the
rebuild of a member. -/
inductive Remap where
  | stripe (dest : Nat)
  | fold (seg : Nat)
  | compact (choir stripe : Nat)
  | home (choir clutch seg place : Nat)
  | member (kind id pos : Nat)
  deriving DecidableEq, Repr

/-- What the firmware's translation layer keeps in DRAM (R166-R201). -/
structure Xlt where
  stripes : List Stripe
  segs : List Segment
  blocks : List (Nat × Block)    -- sparse block map
  nextStripe : Nat               -- next stripe sequence (R170)
  nextSeg : Nat
  genCounter : Nat               -- device-wide generation counter (R66)
  nextPlace : Nat                -- next placement number
  journal : List JRec            -- the journal region, newest first
  nextRec : Nat                  -- next journal sequence
  unflashed : List Nat           -- structural records waiting for their system-area page (R175)
  ckptQuarters : Nat             -- quarters of the running checkpoint written
  ckptRunning : Bool
  ckptMaps : Maps                -- the maps the running checkpoint writes
  ckptFrom : Nat                 -- first journal sequence they do not hold
  ckptDone : Nat                 -- the same of the newest complete checkpoint
  ckpts : Nat                    -- checkpoints completed since power-on
  safe : Maps                    -- the maps of the newest complete checkpoint
  flashed : Nat                  -- first journal sequence that flash does not hold
  installed : List Nat           -- installed blocks per choir
  nc : List Nat                  -- zone-usable stripes per choir
  spares : List Nat              -- spare blocks per choir (R232)
  sparesRef : List Nat           -- at the first start in FIELD (R474)
  spawnErased : List Nat         -- erased blocks of each share
  spawnBlocks : List Nat         -- blocks of each share
  released : List (Nat × Nat × Nat × Nat)  -- released units waiting for erase: choir, unit, blocks, RELEASE record
  logFree : List Nat             -- free log stripes per choir
  logFill : List Nat             -- slots used in each choir's head log stripe (R187)
  works : List Work              -- reclaim work handed over and not ended
  copies : List (Nat × Nat × Nat)  -- clutches being copied: clutch, destination segment or stripe, place there (R193)
  slices : List (Nat × Nat × Bool) -- parity slices not yet computed: stripe, row, and whether an eft has the item (R154)
  wlOn : List Nat                -- choirs in which wear-levelling moves go on until half the trigger (R195)
  unread : List (Nat × Nat)      -- conventional blocks returning Unrecovered Read Error (R83)
  marker : Option (Nat × Nat)    -- newest flush marker: journal sequence, clutches (R196)
  flushCut : Bool                -- that flush was cut short (R199)
  restored : Bool                -- R201 has completed since the start
  eol : Bool                     -- end of life recorded (R38)
  spareGiven : Nat               -- extra tokens given at the last boundary (R337)
  remaps : List (Nat × Remap)    -- commits whose record still waits for its system-area page, by record (R175, R193)
  useFrom : Nat              -- clutches placed before this number stood in the buffer at a start and count for no function (R316)
  placed : Nat                   -- with the hold-up failed: PLACE records below it are on flash (R176)
  deriving DecidableEq, Repr

/-! ## Event recorder and health (R473-R494) -/

/-- An event record (R481). -/
structure Rec where
  seq : Nat
  counter : Nat
  stamp : Nat
  code : Nat
  supp : Nat
  payload : List Nat             -- payload bytes
  deriving DecidableEq, Repr

/-- A token bucket of an event code (R486). -/
structure Bucket where
  tokens : Nat
  supp : Nat
  last : List Nat                -- payload of the latest suppressed event
  deriving DecidableEq, Repr

/-- The event recorder (R483-R493). -/
structure Evr where
  nextSeq : Nat
  aon : List Rec                 -- AON ring, newest first, at most 64
  staging : List Rec             -- staging queue, oldest first, at most 4,096
  aonOnly : List Rec             -- records the gecko wrote in SLEEP and DEEP, staged after wake
  ring : List (Nat × Rec)        -- records of the persistent ring with their positions, oldest first (their bytes lie in the boot flash)
  ringPos : Nat                  -- position the next record is programmed at, 0 to 131,071
  nand : List Rec                -- NAND event area, oldest first
  nandOk : Bool                  -- the NAND event area is writable (R488)
  ringFails : Nat                -- consecutive ring operations ended with DEVICE or VERIFY
  buckets : List (Nat × Bucket)  -- by code
  fetching : List (Nat × Nat × Bool)  -- fetches in progress: bank, sequence or AON index, AON
  lost : Nat
  suppressed : Nat
  lostTold : Nat                 -- of `lost`, those a records-lost record has named (R489)
  lostOn : Nat                   -- `lost` and `suppressed` at the latest power-on (R493)
  suppOn : Nat
  deriving DecidableEq, Repr

/-- Lifetime health counters (R478). -/
structure Health where
  fences : Nat
  diesRetired : Nat
  autotomized : Nat
  retry : Nat
  soft : Nat
  rebuilt : Nat
  readsFailed : Nat
  transient : Nat
  statusFail : Nat
  rowsLost : Nat
  dramCe : Nat
  dramUe : Nat
  mismatches : Nat
  overruns : Nat
  relocks : Nat
  flushes : Nat
  flushesCut : Nat
  holdup : Nat                   -- 0 pass, 1 fail, 2 not yet run
  dramCritical : Bool            -- an uncorrectable DRAM error has hit the buffer or the journal
  tmax : Int
  tmin : Int
  stops : Nat
  trips : Nat
  hist : List Nat                -- 16 bins, minutes
  hourly : List Int              -- maxima of the last 24 complete hours, newest first
  hourMax : Int                  -- maximum of the running hour
  minutes : Nat                  -- minutes counted in the running hour
  powerCycles : Nat
  onMinutes : Nat
  unsafeStops : Nat
  warnMinutes : Nat
  critMinutes : Nat
  tmt : List Nat                 -- thermal management transition counts and times, TMT1 then TMT2
  gecko : List Nat               -- copies: critical warning, spare, used, source (R479)
  held : Option (Nat × Nat)      -- last live spare and used, held by the gecko (R476)
  busyMinutes : Nat              -- minutes in which any function had an I/O command outstanding
  deriving DecidableEq, Repr

/-- No count made: the hold-up self-test has not run, no temperature has been read. -/
def Health.init : Health :=
  ⟨0, 0, 0, 0, 0, 0, 0, 0, 0, 0, 0, 0, 0, 0, 0, 0, 0, 2, false, -128, 127, 0, 0, List.replicate 16 0,
    List.replicate 24 (-128), -128, 0, 0, 0, 0, 0, 0, [0, 0, 0, 0], [0, 0, 0, 2], none, 0⟩

/-- The health counters as a checkpoint or a flush writes them: the part's, and each function's (R477). -/
structure Counts where
  hlt : Health
  fns : List (Nat × List Nat)
  deriving DecidableEq, Repr

/-! ## Dies and channels (R204-R237) -/

/-- Kinds of die operation. -/
inductive DieKind where
  | read | program | erase | check
  deriving DecidableEq, Repr

/-- A die operation: where it acts, what it is for (0 host read, 1 staging, 2 round, 3 fold or copy, 4 flush,
5 self-test, 6 rebuild, 7 reclaim erase, 8 system area, 9 peer read, 10 rebuild read for a host read, 11 clear record of
an erase, 12 move home after a flush, 14 round for a fold, 15 read for a copy or a round), its progress and what it serves. -/
structure DieOp where
  id : Nat
  kind : DieKind
  ch : Nat
  ce : Nat
  lun : Nat
  block : Nat
  row : Nat                  -- the page read; the round, or the SLC unit of its segment, programmed
  purpose : Nat
  unit : Nat                 -- clutch, stripe, segment or block it serves
  carries : List (Nat × Nat) -- a program: clutches it carries and their places; a read of purpose 15: the programs it feeds, as
                             -- unit and row; system area: journal records
  words : List Nat           -- a read: the codewords of its page it needs (R219)
  eft : Nat                  -- eft that waits for it, 256 none
  st : Nat                   -- 0 queued, 1 running, 2 suspending, 3 suspended in its turn, 4 waiting for a retry,
                             -- 5 an erase suspended at its turn's end
  left : Nat                 -- remaining typical time, ns
  startedAt : Nat            -- latest launch or resume
  ran : Nat                  -- time run before it (R210)
  suspends : Nat
  served : Nat               -- host reads served in the running suspension
  retries : Nat              -- retries of R225 used
  timed : Bool               -- it has timed out before (R227)
  slc : Bool                 -- SLC mode
  checked : Bool             -- its erased-state check has passed or is not needed (R217)
  due : Nat := 0             -- a program or erase that runs: the end of the turn it was launched in; 0 outside turns (R251)
  deriving DecidableEq, Repr

/-- An Autotomy Record entry (R235). -/
structure AutoEntry where
  seq : Nat
  counter : Nat
  kind : Nat
  cause : Nat
  ch : Nat
  die : Nat
  countA : Nat
  countB : Nat
  nsid : Nat
  zone : Nat
  started : Nat
  deriving DecidableEq, Repr

/-- A page of a replacement member that repair terms compute: the item that owns their output (R154). -/
structure RowOut where
  unit : Nat                 -- stripe sequence or segment number
  pos : Nat                  -- member position
  round : Nat                -- program unit of the member it belongs to
  row : Nat
  acc : Bytes                -- GF accumulator
  terms : List (Nat × Nat × Nat) -- source positions with their coefficients, and 0 not issued, 1 on an eft, 2 in the sum
  deriving DecidableEq, Repr

/-- A member awaiting rebuild: kind 0 zone stripe, 1 spawn segment, 2 log stripe (R230). -/
structure Rebuild where
  choir : Nat
  kind : Nat
  id : Nat
  pos : Nat
  entry : Nat                -- sequence of the Autotomy Record entry it belongs to
  copy : Bool                -- its rows are intact, and copied to a new block for a torn round's sake (R200)
  target : Option Member     -- its replacement block, with the program units it holds
  deriving DecidableEq, Repr

/-- A die's erase-intent ring (R214): its active block, 2 or 3, the SLC units used there, the records in it and in the other
block, oldest first, and the flag sequence reached. -/
structure Ring where
  active : Nat
  used : Nat
  recs : List Bytes
  prev : List Bytes
  seq : Nat
  deriving DecidableEq, Repr

/-- The channel engines and the fault handling (R203-R236). -/
structure Med where
  blocksPerDie : Nat         -- 96 MiB blocks of a die of the installed model (R173)
  ops : List DieOp           -- die queues, oldest first
  nextOp : Nat
  held : List (Nat × Nat)    -- channels held for fault handling, and since when (R225)
  events : List (Nat × Nat)  -- transient events: channel and time (R226)
  fails : List (Nat × Nat × Nat) -- status failures: die key, frame, kind (R228)
  lastRetry : List (Nat × Nat)   -- read-level entry that last succeeded, by die key (R220)
  tchecks : List (Nat × Nat) -- frame of each channel's last training check (R224)
  auto : List AutoEntry      -- the Autotomy Record, newest first (R234)
  autoTotal : Nat
  rebuilds : List Rebuild
  rebuilt : List (Nat × Nat) -- members rebuilt so far, by entry
  rows : List RowOut         -- pages of replacement members being computed (R153, R154)
  pieces : List (Nat × Nat × Bytes) -- bytes of stored clutches rebuilt from parity for a read: clutch, byte, bytes (R221)
  lostRows : List (Nat × Nat)    -- rows recorded lost: stripe and row (R222)
  refresh : List (Bool × Nat)    -- marked for refresh: spawn segment (true) or stripe, by number (R223)
  rings : List (Nat × Ring)  -- erase-intent rings, by die key (R214)
  maxTimes : List Nat        -- maximum page read, page program and block erase time of the parameter pages, ns (R210)
  usable : Option (List Nat) -- used choirs decided at the first start in FIELD (R206)
  parity : List (Nat × Nat × Bytes × Bytes) -- P and Q of the parity slices computed, by stripe and row, in the buffer (R154)
  known : List (Nat × Nat)   -- die maps by channel as the last completed start left them (R204, R235)
  autoLater : List AutoEntry -- entries of an autotomy during a flush, which are written after the next start (R233)
  deriving DecidableEq, Repr

/-! ## Chorus (R238-R271) -/

/-- What the chorus block keeps beside its registers. -/
structure Cho where
  ref : Option Nat           -- time of the reference beat (R241)
  aligned : Option Nat       -- time of the last qualified beat local time was aligned to (R245)
  lastQual : Option Nat      -- time of the last qualified beat
  goods : Nat                -- consecutive good beats, at most 4: the train is acquired at 4 (R244)
  offphase : Nat             -- consecutive off-phase beats while LOCKED (R246)
  offGoods : Nat             -- good beats among them after the first
  rejects : List Nat         -- times of rejected beats in the last second (R243)
  callStart : Nat            -- local time at which the running call began
  slew : Int                 -- offset still to be slewed, in eighths of a ns: a call's 100 ppm is a whole number of them (R247)
  staged : List (Nat × Nat)  -- staged fields: which (0 frame, 1 phase, 2 overlap, 3 source, 4-7 turn) and value
  unstaged : List (Nat × Nat) -- Chorus Control's other values, by register offset, for the frame boundary (R269)
  relocking : Bool           -- a re-lock runs and its switch is still to come (R254)
  lastSwitch : Nat           -- counter at the last switch (R267)
  switches : Nat
  offTotal : Nat
  recorded : Nat             -- last frame number recorded in the system area (R249)
  everRecorded : Bool
  pinRef : Option Nat        -- the train on CHB_IN, used or not: reference, last qualified beat, good beats (R297)
  pinLast : Option Nat
  pinGoods : Nat
  outPulses : Nat            -- pulses driven on CHB_OUT (R240)
  outAt : Nat                -- when the latest one began
  refSrc : Nat               -- the source of the reference beat's train: 0 none, 1 CHB_IN, 2 Chroeg
  callSub : Nat              -- eighths of a ns by which the running call began after `callStart`
  deriving DecidableEq, Repr

/-! ## Druzinov Link (R272-R314) -/

/-- An entry of the domain map, from an LSA (R290, R297). -/
structure MapEntry where
  id : Nat
  serial : Bytes
  up : Nat                   -- up-mask of its ports
  beat : Bool
  joined : Nat
  heard : Nat                -- local time it was last refreshed
  beatSince : Nat            -- since when its LSAs have claimed a beat
  conflict : Bool            -- its ID has been claimed under two serial numbers
  passed : Nat               -- local time its announcement was last sent on
  deriving DecidableEq, Repr

/-- A frame sent on a port (R280, R282). -/
structure Frame where
  port : Nat
  seq : Nat                  -- session counter of this direction; 0 outside a session
  type : Nat
  source : Nat
  dest : Nat
  flags : Nat
  tag : Nat
  payload : Bytes
  deriving DecidableEq, Repr

/-- A port (R274-R283, R299). Its state and partner are register fields. -/
structure Port where
  fails : Nat                -- consecutive bring-up failures
  fromUp : Bool              -- it went down from UP: the third failure leads to BACKOFF (R276)
  since : Nat                -- when the running step or wait began
  backoff : Nat              -- last BACKOFF wait since the port was UP, s; 0 none
  nonceA : Bytes
  nonceB : Bytes
  usePrev : Bool             -- the key indicator of the exchange
  rekey : Bool               -- authentication re-runs on the live link (R279)
  probes : List Nat          -- last delay measurements, newest first, units of 0.125 ns
  sendSeq : Nat
  recvSeq : Nat
  unacked : List (Nat × Frame) -- frames sent and not acknowledged, with their resends, oldest first
  wait : List Frame          -- frames held while 128 are unacknowledged
  replays : Nat
  authFails : Nat
  rekeys : Nat
  session : Bool             -- authenticated: frames are numbered
  deriving DecidableEq, Repr

/-- A peer read this part issued (R303, R308): its command and source, and what has come. -/
structure PeerOut where
  tag : Nat
  cmd : Nat
  src : Nat
  req : PeerReq
  sentAt : Nat
  tries : Nat
  sent : Bool                -- false: it waits for one of the 4,096 places (R308)
  data : Bytes
  ended : Option Status      -- how it ended
  path : Nat                 -- direction flags of the route it was sent on
  deriving DecidableEq, Repr

/-- A peer read this part serves (R305-R307). -/
structure PeerIn where
  port : Nat
  source : Nat
  tag : Nat
  req : PeerReq
  running : Bool             -- false: held for QUIESCE, or waiting for one of the 1,024 places
  deriving DecidableEq, Repr

/-- A Group Join that waits for a port UP, or for the switch of its re-lock (R288). -/
structure JoinWait where
  src : Src
  since : Nat                -- local time at which it began to wait
  relock : Bool              -- its staged phase is still to be switched
  deriving DecidableEq, Repr

/-- The Druzinov Link (R272-R313). -/
structure Dzl where
  ports : List Port
  map : List MapEntry
  joined : Nat               -- join time
  joins : List JoinWait      -- Group Joins that wait, oldest first
  outs : List PeerOut
  ins : List PeerIn
  nextTag : Nat
  sent : Nat
  served : Nat
  epoch : Nat
  rootSince : Nat            -- SINCE received from the root, ms (R301)
  switchSoon : Bool          -- an announced switch is awaited (R302)
  beatClean : Nat            -- since when this part's beat has been present without a rejection (R297)
  announce : Nat             -- as root: 1 + the Switch value of the next TIME frame; 0 none (R302)
  frames : List Frame        -- frames sent, newest first
  switchDue : Bool           -- the announced beat has come: the switch is made at the first qualified beat without a program (R302)
  timeAt : Option Nat        -- the frame start that the last TIME frame accepted announced (R300)
  deriving DecidableEq, Repr

/-! ## Security (R340-R373) -/

/-- A key slot: kind 0 empty, 1 XTS pair, 2 AES-256 key; owner; source; key bytes (R351, R373). -/
structure KeySlot where
  kind : Nat
  owner : Nat
  source : Nat
  key : Bytes
  deriving DecidableEq, Repr

/-- A hash engine: its message so far and its digest. Ownership, algorithm and state bits are register fields
(R357-R359). -/
structure HashEngine where
  msg : Bytes
  digest : Bytes
  deriving DecidableEq, Repr

/-- The key engine's running operation (R354, R355): what START took, and the bytes fed. -/
structure KeyRun where
  op : Nat
  len : Nat
  key : Bytes
  dest : Nat
  data : Bytes
  deriving DecidableEq, Repr

/-- An attestation request (R363): state 0 waiting, 1 signing, 2 signed. -/
structure Attest where
  fn : Nat
  nonce : Bytes
  st : Nat
  index : Nat
  signedAt : Nat
  report : Bytes
  held : List Src            -- Receives held until signing is complete, oldest first
  deriving DecidableEq, Repr

/-- An operation that waits for the TRNG (R360). -/
inductive TrngOp where
  | create (src : Src) (n : NsArgs)
  | format (src : Src) (nsid fmt dps : Nat) (extended : Bool)
  | sanitize (src : Src) (block ause : Bool)
  | challenge (src : Src)
  | fill (slot : Nat)
  deriving DecidableEq, Repr

/-- The security island (R340-R373). -/
structure Sec where
  slots : List (Nat × KeySlot)
  otp : List (Nat × Byte)    -- OTP bytes away from 0 (R343)
  engines : List (Nat × HashEngine)
  sessions : List (Nat × Nat × Nat)  -- hash sessions: function, engine, time of the last feed (R365)
  ke : Option KeyRun         -- the key engine's running operation
  challenge : Option Bytes   -- the last lifecycle nonce (R366)
  attests : List Attest      -- oldest first
  ckptRsv : Bytes            -- reservation record copied into the checkpoint (R367)
  drawn : Nat                -- keys and words drawn so far
  trngWaits : List TrngOp    -- operations waiting for the TRNG, oldest first
  scrapped : Bool            -- commands that need a key get Key Slot Empty (R342)
  otpPend : List (Nat × Nat) -- OTP steps waiting for VQPS_OTP: 0 floor, 1 revocation, 2 identity; and value
  deriving DecidableEq, Repr

/-! ## Starts, firmware and profiles (R374-R400) -/

/-- A download in progress (R470): target region, blocks erased so far, ranges programmed, the held header. -/
structure Download where
  base : Nat
  len : Nat
  type : Nat
  erased : List Nat
  done : List (Nat × Nat)
  header : Bytes
  deriving DecidableEq, Repr

/-- The device self-test (R127-R129). -/
structure SelfTest where
  code : Nat                 -- 0 none, 1 short, 2 extended
  segment : Nat
  failed : Nat               -- first failed segment, 0 none
  tried : List Nat           -- efts whose item of segment 1 or 7 has run
  last : Nat                 -- segment 6: the clutch checked last, in placement order
  samples : List Nat         -- segment 5: the sample stripes, one of each choir
  row : Nat                  -- segment 5: the next row of the sample stripes to read
  log : List (Nat × Nat × Nat × Nat) -- results, newest first: result, code, segment, power-on hours
  deriving DecidableEq, Repr

/-- What a start and the firmware keep (R374-R400). -/
structure Boot where
  limited : Bool             -- limited service (R395)
  perstLow : Bool
  provHold : Bool            -- fetching held for an activation in PROVISION (R381)
  running : Bool             -- a start is running
  startAt : Nat
  stageAt : Nat              -- time of the last stage progress (R383)
  named : Nat                -- slot the record named as next at the beginning (R382)
  sanitize : Nat             -- 0 none, 1 in progress, 2 failed
  sanKind : Nat              -- 1 Crypto Erase, 2 Block Erase
  sanAuse : Bool             -- it allows exit from failure mode (R370)
  sanPaused : Bool           -- paused for HOLD (R43)
  sanRuns : Nat              -- sanitizes completed
  download : Option Download
  pendingSlot : Option Nat   -- activation waiting for a reset (R381)
  actAt : Option Nat         -- when an activation's image started (R385)
  fwHang : Bool              -- it has not left QUIESCE: no more commands (R385)
  profile : Profile          -- settings in use
  cleanStop : Bool           -- a shutdown notification has completed, or OFF was entered (R473)
  cfgReady : Bool            -- configuration requests complete normally (R377)
  aonKept : Bool             -- VDD_AON kept since the last live health value (R476)
  fieldStarted : Bool        -- a start in FIELD has built the maps (R390)
  peuthBank : Nat            -- bank of the Peuth image in use
  selfTest : SelfTest
  unclean : Bool             -- the running start followed an unclean stop (R172)
  lost : List Nat            -- clutches whose buffer copy is gone, for stage 6 (R83)
  vfEnable : Bool            -- VF Enable of PF0's SR-IOV capability (R106)
  memSpace : Bool            -- PF0's Memory Space Enable (R515)
  bar2 : Nat                 -- PF0's BAR2 and BAR3: the base the host has programmed, 0 for none (R514, R525)
  ckptCounts : Counts        -- the health counters the running checkpoint writes (R477)
  safeCounts : Counts        -- those of the newest verified checkpoint or complete flush
  startWait : Option Nat     -- PERST_N has deasserted during a flush: the start waits for it, with this PRF (R376)
  deriving DecidableEq, Repr

/-! ## Power, clocks and temperature (R401-R430) -/

structure Pwr where
  pfHold : Bool              -- PWRFAIL_N has asserted and service has not resumed
  pfLow : Bool               -- PWRFAIL_N is low
  pfSince : Nat              -- its latest assertion
  pfHigh : Nat               -- its latest deassertion
  flushAt : Nat              -- start and end of the latest flush
  flushEnd : Nat
  flushQueue : List Nat      -- clutches the flush has still to program, oldest placement first
  flushCount : Nat
  lastOp : Nat               -- last operational NVMe power state
  goodConv : List (Nat × Nat)  -- consecutive good conversions of a FAULT reading (R419)
  goodAgree : List (Nat × Nat) -- consecutive agreeing samples of a SUSPECT reading (R420)
  coolSince : Option Nat     -- since when STOP's clearing condition has held (R425)
  levelAt : Nat              -- time of the last level change or STOP clear
  tmt1 : Nat
  tmt2 : Nat
  trip : Bool                -- THERMTRIP_N is asserted, clocks stopped (R426)
  tripSeen : Bool            -- to be counted at the next start (R478)
  trimAt : Int               -- temperature of the last oscillator trim (R427)
  climbing : Option Nat      -- the operating point being climbed to
  clkOp : Nat                -- the operating point whose clocks run (R413)
  avsFault : Bool            -- the regulator has not answered, and the firmware retries (R415)
  avsHeld : Option Nat       -- a held target voltage, mV
  avsNow : Nat               -- target voltage sent last, mV
  gating : List Nat          -- ponds being gated
  highSince : Option Nat     -- since when DEV_WAKE_N has been high
  edges : List Nat           -- accepted edges in the last second
  storms : List Nat          -- times of the storms in the last hour, newest first (R407)
  offStorms : Nat            -- storms seen in OFF, recorded at the next start
  waking : Option Nat        -- the wake source that has begun a wake (R406)
  held : List (Bool × Nat × Nat) -- PF0 window accesses held until the part is in RUN: write, offset, value (R521)
  huStep : Nat               -- hold-up test: 0 idle, 1 waiting for a steady reading, 2 load on
  huVolt : Nat               -- charged voltage, mV
  huAt : Nat                 -- time of the last run
  huPending : Bool           -- a run is due and QUIESCE or power failure put it off
  current : Nat              -- VDD_CORE current last read
  on : Bool                  -- the rails are up (R502)
  onAt : Nat                 -- since when
  flushed : Bool             -- the flush of the running power failure has programmed its marker (R196)
  flushRes : Nat             -- result of a flush since the last start, for XLT_FLUSH_LAST: 0 none (R201)
  stuck : Bool               -- PWRFAIL_N was found stuck during a start (R391)
  deriving DecidableEq, Repr

/-! ## DRAM controllers (R431-R455) -/

/-- A request queued at a controller: sub-channel, line, bank group and index, row, whether it writes, whether it has lookup
priority, and since when it waits (R441-R446). -/
structure DramReq where
  sub : Nat
  line : Nat
  group : Nat
  bank : Nat
  row : Nat
  write : Bool
  lookup : Bool
  since : Nat
  deriving DecidableEq, Repr

/-- A controller. -/
structure DramCtl where
  queue : List DramReq       -- oldest first
  rows : List (Nat × Nat)    -- open rows by sub-channel and bank
  hits : List (Nat × Nat)    -- row hits in a row, by sub-channel and bank
  draining : List Nat        -- sub-channels whose write queue drains
  postponed : List (Nat × Nat) -- refreshes owed, by sub-channel and bank index (R439)
  parked : List DramReq      -- requests waiting for a self-refresh exit (R449)
  lanes : List Nat           -- lanes due for retraining (R438)
  drift : List Int           -- drift of each lane since its training
  fast : List Nat            -- sub-channels whose tREFI is halved (R440)
  down : List Nat            -- sub-channels in power-down (R447)
  lastReq : List Nat         -- time of each sub-channel's last request
  deriving DecidableEq, Repr

structure Dram where
  ctls : List DramCtl
  errors : List (Nat × Nat)  -- corrected errors: 2 MiB region and time (R454)
  retired : List Nat
  deriving DecidableEq, Repr

/-! ## Boot flash (R456-R472) -/

/-- A queued boot flash operation (R464). -/
structure SncOp where
  bank : Nat
  code : Nat
  addr : Nat
  len : Nat
  data : Bytes
  andow : Bool
  intent : Nat               -- sequence of a running erase's intent record, which its clear repeats (R461)
  deriving DecidableEq, Repr

structure Snc where
  flash : List (Nat × Byte)  -- boot flash bytes away from 0xFF, by address
  queue : List SncOp
  running : Option SncOp
  flagSeq : Nat              -- flag-record sequence reached (R461)
  faults : Nat               -- fetch faults raised (R462, R467)
  deriving DecidableEq, Repr

/-! ## Pins (R497-R499, R502, R509) -/

structure Pins where
  pwrEn : Bool
  huTest : Bool              -- HU_TEST_N asserted
  vqps : Bool                -- VQPS_OTP in range
  xin : Bool                 -- XIN present and in tolerance
  prf : Nat                  -- PRF[1:0] as last sampled
  deriving DecidableEq, Repr

/-! ## Modes (R37-R45, R396-R398) -/

/-- What QUIESCE runs (R397). -/
inductive QAct where
  | firmware (slot : Nat)
  | profile (k : Nat) (commit : Bool)  -- `commit`: asked for by a Firmware Commit on slot 3 (R386)
  | relock (staged : Bool)     -- whether the command staged values
  deriving DecidableEq, Repr

/-- A requested QUIESCE action, and the command whose completion waits for it. -/
structure QReq where
  act : QAct
  src : Option Src
  deriving DecidableEq, Repr

/-- QUIESCE's bookkeeping: the running action, the queue behind it, whether it is committed (R42), when the
hold began (R111). A queue kept outside QUIESCE runs when the mode is SERVE or DEGRADED again (R42, R398). -/
structure Quiesce where
  running : Option QReq
  queue : List QReq
  committed : Bool
  since : Nat
  deriving DecidableEq, Repr

/-! ## The whole state -/

/-- The state of the part. -/
structure State where
  now : Nat                          -- local time, ns since power-on
  regs : List (Nat × Word)           -- window registers away from their Reset value, by offset and bank
  latch : List (Nat × Word)          -- high words latched by a low-word read, by requester (R14)
  replies : List Reply               -- answers given, newest first
  cqes : List Cqe                    -- completions posted, newest first
  fns : List (Nat × Fn)              -- functions away from their default
  rr : Nat                           -- next function of the fetch round (R331)
  nss : List Ns                      -- namespaces, by identifier
  zones : List (Nat × Zone)          -- zones, by nsid * 2^20 + zone number
  clutches : List Clutch             -- offset indexes and overlay, in placement order
  kept : List Clutch                 -- superseded clutches that an outstanding command still reads (R98)
  landing : List (Nat × Nat × Stored) -- the landing area: command tag, clutch and its stored form (R134, R156)
  cmds : List Cmd                    -- outstanding commands, in fetch order
  adminTags : List (Src × Nat)       -- admin commands that wait, and the tag each was fetched under (R91)
  efts : List (Nat × Eft)            -- efts, by pond * 32 + n
  xlt : Xlt
  evr : Evr
  hlt : Health
  quiesce : Quiesce
  med : Med
  cho : Cho
  dzl : Dzl
  sec : Sec
  boot : Boot
  pwr : Pwr
  dram : Dram
  snc : Snc
  pins : Pins
  freeIx : Nat                       -- the model's own counter of free values
  pending : List Instr               -- commands waiting, first in first out
  deriving DecidableEq, Repr

/-! ## Reset -/

/-- A port that has never been up. -/
def Port.init : Port := ⟨0, false, 0, 0, [], [], false, false, [], 0, 0, [], [], 0, 0, 0, false⟩

/-- A controller with nothing queued. -/
def DramCtl.init : DramCtl := ⟨[], [], [], [], [], [], [], List.replicate 10 0, [], [], [0, 0]⟩

/-- The maps of a part that has never run. -/
def noMaps : Maps := ⟨[], [], [], [], [], [], [], [], [], [], []⟩

/-- The part as power-on reset leaves a part that has never run: every register at its Reset value, the OTP and
both flash memories blank, PERST_N still asserted, nothing queued. Values of the fields the spec gives no reset
value are the model's (assumption 2). -/
def State.reset : State where
  now := 0
  regs := []
  latch := []
  replies := []
  cqes := []
  fns := []
  rr := 0
  nss := []
  zones := []
  clutches := []
  kept := []
  landing := []
  cmds := []
  adminTags := []
  efts := []
  xlt := ⟨[], [], [], 1, 2 ^ 48, 0, 1, [], 1, [], 0, false, noMaps, 0, 0, 0, noMaps, 0, [0, 0, 0, 0], [0, 0, 0, 0], [0, 0, 0, 0], [0, 0, 0, 0],
    [0, 0, 0, 0], [0, 0, 0, 0], [], [0, 0, 0, 0], [0, 0, 0, 0], [], [], [], [], [], none, false, false, false, 0, [], 0, 0⟩
  evr := ⟨4097, [], [], [], [], 0, [], true, 0, [], [], 0, 0, 0, 0, 0⟩
  hlt := Health.init
  quiesce := ⟨none, [], false, 0⟩
  med := ⟨0, [], 1, [], [], [], [], [], [], 0, [], [], [], [], [], [], [], [0, 0, 0], none, [], [], []⟩
  cho := ⟨none, none, none, 0, 0, 0, [], 0, 0, [], [], false, 0, 0, 0, 0, false, none, none, 0, 0, 0, 0, 0⟩
  dzl := ⟨List.replicate 4 Port.init, [], 0, [], [], [], 0, 0, 0, 0, 0, false, 0, 0, [], false, none⟩
  sec := ⟨[], [], [], [], none, none, [], [], 0, [], false, []⟩
  boot := ⟨false, true, false, false, 0, 0, 0, 0, 0, false, false, 0, none, none, none, false, Profile.builtIn, true,
    false, false, false, 0, ⟨0, 0, 0, [], 0, [], 0, []⟩, false, [], false, false, 0, ⟨Health.init, []⟩, ⟨Health.init, []⟩, none⟩
  pwr := ⟨false, false, 0, 0, 0, 0, [], 0, 0, [], [], none, 0, 0, 0, false, false, 0, none, 4, false, none, 810, [],
    none, [], [], 0, none, [], 0, 0, 0, false, 0, false, 0, false, 0, false⟩
  dram := ⟨List.replicate 4 DramCtl.init, [], []⟩
  snc := ⟨[], [], none, 0, 0⟩
  pins := ⟨false, false, false, false, 0⟩
  freeIx := 0
  pending := []

end Sys2Proof.Machine
end

