-- ==== Sys2Proof/Machine/Regs.lean ====
section
/-! DEFINITION. The management window's register map, written out from the register tables of the spec
(R165, R202, R237, R270, R314, R339, R373, R400, R429, R430, R455, R472, R493, R494, R527): for every
register its offset (with its instance strides), and for every field its bits, access code (R15) and
Reset value (R16). Every register-visible value of State has its one home in the word this map names. -/

namespace Sys2Proof.Machine

/-- EFT_PD[p]_STATUS: Usable efts in pond *p* (R165). -/
def Reg.EFT_PD_STATUS (n : Nat) : Nat := 0x400000 + 0x8000 * n
def Fd.EFT_PD_STATUS_USABLE (n : Nat) : Fld := ⟨Reg.EFT_PD_STATUS n, 5, 0⟩

/-- EFT_PD[p]_OVF: Overflow pool (R165). -/
def Reg.EFT_PD_OVF (n : Nat) : Nat := 0x400004 + 0x8000 * n
def Fd.EFT_PD_OVF_NOBUF (n : Nat) : Fld := ⟨Reg.EFT_PD_OVF n, 31, 16⟩
def Fd.EFT_PD_OVF_FREE (n : Nat) : Fld := ⟨Reg.EFT_PD_OVF n, 6, 0⟩

/-- EFT_PD[p]_STEAL_LOCAL: In-pond steals (R165). -/
def Reg.EFT_PD_STEAL_LOCAL (n : Nat) : Nat := 0x400008 + 0x8000 * n
def Fd.EFT_PD_STEAL_LOCAL_COUNT (n : Nat) : Fld := ⟨Reg.EFT_PD_STEAL_LOCAL n, 31, 0⟩

/-- EFT_PD[p]_STEAL_IN: Steals into this pond from other ponds (R165). -/
def Reg.EFT_PD_STEAL_IN (n : Nat) : Nat := 0x40000C + 0x8000 * n
def Fd.EFT_PD_STEAL_IN_COUNT (n : Nat) : Fld := ⟨Reg.EFT_PD_STEAL_IN n, 31, 0⟩

/-- EFT_PD[p]_SCRUBS: Scrubs (R165). -/
def Reg.EFT_PD_SCRUBS (n : Nat) : Nat := 0x400010 + 0x8000 * n
def Fd.EFT_PD_SCRUBS_COUNT (n : Nat) : Fld := ⟨Reg.EFT_PD_SCRUBS n, 31, 0⟩

/-- EFT_PD[p]_E[n]_STATE: State of eft *n* (R165). -/
def Reg.EFT_PD_E_STATE (n k : Nat) : Nat := 0x400100 + 0x8000 * n + 0x10 * k
def Fd.EFT_PD_E_STATE_FENCED (n k : Nat) : Fld := ⟨Reg.EFT_PD_E_STATE n k, 31, 31⟩
def Fd.EFT_PD_E_STATE_CAUSE (n k : Nat) : Fld := ⟨Reg.EFT_PD_E_STATE n k, 30, 29⟩
def Fd.EFT_PD_E_STATE_STRIKES (n k : Nat) : Fld := ⟨Reg.EFT_PD_E_STATE n k, 28, 27⟩
def Fd.EFT_PD_E_STATE_LASTFN (n k : Nat) : Fld := ⟨Reg.EFT_PD_E_STATE n k, 25, 16⟩
def Fd.EFT_PD_E_STATE_DEVICE (n k : Nat) : Fld := ⟨Reg.EFT_PD_E_STATE n k, 15, 15⟩
def Fd.EFT_PD_E_STATE_DEPTH (n k : Nat) : Fld := ⟨Reg.EFT_PD_E_STATE n k, 6, 0⟩

/-- EFT_PD[p]_E[n]_DONE: Items completed by eft *n* (R165). -/
def Reg.EFT_PD_E_DONE (n k : Nat) : Nat := 0x400104 + 0x8000 * n + 0x10 * k
def Fd.EFT_PD_E_DONE_COUNT (n k : Nat) : Fld := ⟨Reg.EFT_PD_E_DONE n k, 31, 0⟩

/-- EFT_CTL: Steal and scrub controls (R165). -/
def Reg.EFT_CTL : Nat := 0x440000
def Fd.EFT_CTL_XSTEAL_SCAN : Fld := ⟨Reg.EFT_CTL, 11, 8⟩
def Fd.EFT_CTL_SCRUB_ALWAYS : Fld := ⟨Reg.EFT_CTL, 2, 2⟩
def Fd.EFT_CTL_XSTEAL_EN : Fld := ⟨Reg.EFT_CTL, 1, 1⟩
def Fd.EFT_CTL_STEAL_EN : Fld := ⟨Reg.EFT_CTL, 0, 0⟩

/-- EFT_WDOG: Watchdog limit (R165). -/
def Reg.EFT_WDOG : Nat := 0x440004
def Fd.EFT_WDOG_LIMIT : Fld := ⟨Reg.EFT_WDOG, 23, 0⟩

/-- EFT_FENCE_SUM: Count of fenced efts (R165). -/
def Reg.EFT_FENCE_SUM : Nat := 0x440008
def Fd.EFT_FENCE_SUM_COUNT : Fld := ⟨Reg.EFT_FENCE_SUM, 8, 0⟩

/-- EFT_FENCE_CMD: Fence one eft (R165). -/
def Reg.EFT_FENCE_CMD : Nat := 0x44000C
def Fd.EFT_FENCE_CMD_GO : Fld := ⟨Reg.EFT_FENCE_CMD, 31, 31⟩
def Fd.EFT_FENCE_CMD_POND : Fld := ⟨Reg.EFT_FENCE_CMD, 7, 5⟩
def Fd.EFT_FENCE_CMD_EFT : Fld := ⟨Reg.EFT_FENCE_CMD, 4, 0⟩

/-- EFT_POND_MAP: Gating and home redirection (R165). -/
def Reg.EFT_POND_MAP : Nat := 0x440010
def Fd.EFT_POND_MAP_GATED : Fld := ⟨Reg.EFT_POND_MAP, 31, 24⟩
def Fd.EFT_POND_MAP_HOME : Fld := ⟨Reg.EFT_POND_MAP, 23, 0⟩

/-- EFT_FENCED[p]: Fence bitmap of pond *p* (R165). -/
def Reg.EFT_FENCED (n : Nat) : Nat := 0x440020 + 0x4 * n
def Fd.EFT_FENCED_MAP (n : Nat) : Fld := ⟨Reg.EFT_FENCED n, 31, 0⟩

/-- XLT_STRIPES: Stripe slots (R202). -/
def Reg.XLT_STRIPES : Nat := 0x1000000
def Fd.XLT_STRIPES_COUNT : Fld := ⟨Reg.XLT_STRIPES, 18, 0⟩

/-- XLT_ZONE_STRIPES: Zone-usable stripes (R202). -/
def Reg.XLT_ZONE_STRIPES : Nat := 0x1000004
def Fd.XLT_ZONE_STRIPES_COUNT : Fld := ⟨Reg.XLT_ZONE_STRIPES, 18, 0⟩

/-- XLT_FILL: Bound stripes (R202). -/
def Reg.XLT_FILL : Nat := 0x1000008
def Fd.XLT_FILL_COUNT : Fld := ⟨Reg.XLT_FILL, 18, 0⟩

/-- XLT_FREE[c]: Free stripes and level of choir *c* (R202). -/
def Reg.XLT_FREE (n : Nat) : Nat := 0x1000010 + 0x4 * n
def Fd.XLT_FREE_LEVEL (n : Nat) : Fld := ⟨Reg.XLT_FREE n, 31, 30⟩
def Fd.XLT_FREE_COUNT (n : Nat) : Fld := ⟨Reg.XLT_FREE n, 16, 0⟩

/-- XLT_RECLAIM[c]: Factor and pending erases of choir *c* (R202). -/
def Reg.XLT_RECLAIM (n : Nat) : Nat := 0x1000020 + 0x4 * n
def Fd.XLT_RECLAIM_H (n : Nat) : Fld := ⟨Reg.XLT_RECLAIM n, 22, 16⟩
def Fd.XLT_RECLAIM_PEND (n : Nat) : Fld := ⟨Reg.XLT_RECLAIM n, 15, 0⟩

/-- XLT_SPAWN_SIZE: Spawn blocks now (R202). -/
def Reg.XLT_SPAWN_SIZE : Nat := 0x1000030
def Fd.XLT_SPAWN_SIZE_COUNT : Fld := ⟨Reg.XLT_SPAWN_SIZE, 18, 0⟩

/-- XLT_SPAWN_TARGET: Spawn target (R202). -/
def Reg.XLT_SPAWN_TARGET : Nat := 0x1000034
def Fd.XLT_SPAWN_TARGET_COUNT : Fld := ⟨Reg.XLT_SPAWN_TARGET, 18, 0⟩

/-- XLT_SPAWN_RESERVE: Flush reserve (R202). -/
def Reg.XLT_SPAWN_RESERVE : Nat := 0x1000038
def Fd.XLT_SPAWN_RESERVE_OK : Fld := ⟨Reg.XLT_SPAWN_RESERVE, 31, 31⟩
def Fd.XLT_SPAWN_RESERVE_BLOCKS : Fld := ⟨Reg.XLT_SPAWN_RESERVE, 18, 0⟩

/-- XLT_BUF: Buffer size and use (R202). -/
def Reg.XLT_BUF : Nat := 0x1000040
def Fd.XLT_BUF_SIZE : Fld := ⟨Reg.XLT_BUF, 31, 26⟩
def Fd.XLT_BUF_USED : Fld := ⟨Reg.XLT_BUF, 13, 0⟩

/-- XLT_FLUSH_CFG: Flush die limit (R202). -/
def Reg.XLT_FLUSH_CFG : Nat := 0x1000044
def Fd.XLT_FLUSH_CFG_DIES : Fld := ⟨Reg.XLT_FLUSH_CFG, 10, 0⟩

/-- XLT_FLUSH_LAST: Last flush (R202). -/
def Reg.XLT_FLUSH_LAST : Nat := 0x1000048
def Fd.XLT_FLUSH_LAST_RESULT : Fld := ⟨Reg.XLT_FLUSH_LAST, 31, 30⟩
def Fd.XLT_FLUSH_LAST_TIME : Fld := ⟨Reg.XLT_FLUSH_LAST, 19, 0⟩

/-- XLT_LOG_FREE: Free log stripes per choir (R202). -/
def Reg.XLT_LOG_FREE : Nat := 0x1000050
def Fd.XLT_LOG_FREE_C3 : Fld := ⟨Reg.XLT_LOG_FREE, 31, 24⟩
def Fd.XLT_LOG_FREE_C2 : Fld := ⟨Reg.XLT_LOG_FREE, 23, 16⟩
def Fd.XLT_LOG_FREE_C1 : Fld := ⟨Reg.XLT_LOG_FREE, 15, 8⟩
def Fd.XLT_LOG_FREE_C0 : Fld := ⟨Reg.XLT_LOG_FREE, 7, 0⟩

/-- XLT_LOG_LOW: Log low mark (R202). -/
def Reg.XLT_LOG_LOW : Nat := 0x1000054
def Fd.XLT_LOG_LOW_LOW : Fld := ⟨Reg.XLT_LOG_LOW, 5, 0⟩

/-- XLT_WL_CFG: Wear-levelling control (R202). -/
def Reg.XLT_WL_CFG : Nat := 0x1000060
def Fd.XLT_WL_CFG_EN : Fld := ⟨Reg.XLT_WL_CFG, 31, 31⟩
def Fd.XLT_WL_CFG_RATED : Fld := ⟨Reg.XLT_WL_CFG, 15, 0⟩

/-- XLT_WL_SPREAD: Wear spread and trigger (R202). -/
def Reg.XLT_WL_SPREAD : Nat := 0x1000064
def Fd.XLT_WL_SPREAD_TRIGGER : Fld := ⟨Reg.XLT_WL_SPREAD, 31, 16⟩
def Fd.XLT_WL_SPREAD_SPREAD : Fld := ⟨Reg.XLT_WL_SPREAD, 15, 0⟩

/-- XLT_JRNL: Journal state (R202). -/
def Reg.XLT_JRNL : Nat := 0x1000070
def Fd.XLT_JRNL_FILL : Fld := ⟨Reg.XLT_JRNL, 31, 25⟩
def Fd.XLT_JRNL_FLASH : Fld := ⟨Reg.XLT_JRNL, 24, 24⟩
def Fd.XLT_JRNL_CKPTS : Fld := ⟨Reg.XLT_JRNL, 15, 0⟩

/-- XLT_START: Recovery counts from the last start (R202). -/
def Reg.XLT_START : Nat := 0x1000074
def Fd.XLT_START_ORPHANS : Fld := ⟨Reg.XLT_START, 31, 16⟩
def Fd.XLT_START_REERASE : Fld := ⟨Reg.XLT_START, 15, 0⟩

/-- MED_CHn_STATE: Channel state (R237). -/
def Reg.MED_CH_STATE (n : Nat) : Nat := 0x800000 + 0x4000 * n
def Fd.MED_CH_STATE_STATE (n : Nat) : Fld := ⟨Reg.MED_CH_STATE n, 31, 28⟩
def Fd.MED_CH_STATE_CAUSE (n : Nat) : Fld := ⟨Reg.MED_CH_STATE n, 27, 24⟩
def Fd.MED_CH_STATE_RTFAIL (n : Nat) : Fld := ⟨Reg.MED_CH_STATE n, 23, 22⟩
def Fd.MED_CH_STATE_TRANS10 (n : Nat) : Fld := ⟨Reg.MED_CH_STATE n, 14, 8⟩
def Fd.MED_CH_STATE_DIES (n : Nat) : Fld := ⟨Reg.MED_CH_STATE n, 5, 0⟩

/-- MED_CHn_DIES: Dies in service (R237). -/
def Reg.MED_CH_DIES (n : Nat) : Nat := 0x800004 + 0x4000 * n
def Fd.MED_CH_DIES_MAP (n : Nat) : Fld := ⟨Reg.MED_CH_DIES n, 31, 0⟩

/-- MED_CHn_RETIRED: Retired dies (R237). -/
def Reg.MED_CH_RETIRED (n : Nat) : Nat := 0x800008 + 0x4000 * n
def Fd.MED_CH_RETIRED_MAP (n : Nat) : Fld := ⟨Reg.MED_CH_RETIRED n, 31, 0⟩

/-- MED_CHn_XEVT: Transient event counts (R237). -/
def Reg.MED_CH_XEVT (n : Nat) : Nat := 0x80000C + 0x4000 * n
def Fd.MED_CH_XEVT_BUSCRC (n : Nat) : Fld := ⟨Reg.MED_CH_XEVT n, 31, 24⟩
def Fd.MED_CH_XEVT_TIMEOUT (n : Nat) : Fld := ⟨Reg.MED_CH_XEVT n, 23, 16⟩
def Fd.MED_CH_XEVT_TRAINLOSS (n : Nat) : Fld := ⟨Reg.MED_CH_XEVT n, 15, 8⟩
def Fd.MED_CH_XEVT_RETRAIN (n : Nat) : Fld := ⟨Reg.MED_CH_XEVT n, 7, 0⟩

/-- MED_CHn_RDREC: Read recovery counts (R237). -/
def Reg.MED_CH_RDREC (n : Nat) : Nat := 0x800010 + 0x4000 * n
def Fd.MED_CH_RDREC_RETRY (n : Nat) : Fld := ⟨Reg.MED_CH_RDREC n, 31, 24⟩
def Fd.MED_CH_RDREC_SOFT (n : Nat) : Fld := ⟨Reg.MED_CH_RDREC n, 23, 16⟩
def Fd.MED_CH_RDREC_REBUILD (n : Nat) : Fld := ⟨Reg.MED_CH_RDREC n, 15, 8⟩
def Fd.MED_CH_RDREC_FAILED (n : Nat) : Fld := ⟨Reg.MED_CH_RDREC n, 7, 0⟩

/-- MED_CHn_TRAIN: Training results (R237). -/
def Reg.MED_CH_TRAIN (n : Nat) : Nat := 0x800014 + 0x4000 * n
def Fd.MED_CH_TRAIN_COUNT (n : Nat) : Fld := ⟨Reg.MED_CH_TRAIN n, 31, 16⟩
def Fd.MED_CH_TRAIN_REYE (n : Nat) : Fld := ⟨Reg.MED_CH_TRAIN n, 15, 8⟩
def Fd.MED_CH_TRAIN_WEYE (n : Nat) : Fld := ⟨Reg.MED_CH_TRAIN n, 7, 0⟩

/-- MED_CFG: Recovery, suspend and check controls (R237). -/
def Reg.MED_CFG : Nat := 0xC00000
def Fd.MED_CFG_RETRY_MAX : Fld := ⟨Reg.MED_CFG, 27, 24⟩
def Fd.MED_CFG_REFRESH_AT : Fld := ⟨Reg.MED_CFG, 23, 20⟩
def Fd.MED_CFG_PSUSP_MAX : Fld := ⟨Reg.MED_CFG, 19, 18⟩
def Fd.MED_CFG_ESUSP_EN : Fld := ⟨Reg.MED_CFG, 17, 17⟩
def Fd.MED_CFG_SOFT_EN : Fld := ⟨Reg.MED_CFG, 16, 16⟩
def Fd.MED_CFG_ERASED_BITS : Fld := ⟨Reg.MED_CFG, 15, 8⟩
def Fd.MED_CFG_TCHK : Fld := ⟨Reg.MED_CFG, 7, 0⟩

/-- MED_REBUILD: Rebuild share and progress (R237). -/
def Reg.MED_REBUILD : Nat := 0xC00004
def Fd.MED_REBUILD_ACTIVE : Fld := ⟨Reg.MED_REBUILD, 31, 31⟩
def Fd.MED_REBUILD_SHARE : Fld := ⟨Reg.MED_REBUILD, 28, 22⟩
def Fd.MED_REBUILD_PEND : Fld := ⟨Reg.MED_REBUILD, 21, 0⟩

/-- MED_AUTO_LO: Channels 0 to 31 cut off (R237). -/
def Reg.MED_AUTO_LO : Nat := 0xC00008
def Fd.MED_AUTO_LO_MAP : Fld := ⟨Reg.MED_AUTO_LO, 31, 0⟩

/-- MED_AUTO_HI: Channels 32 to 63 cut off (R237). -/
def Reg.MED_AUTO_HI : Nat := 0xC0000C
def Fd.MED_AUTO_HI_MAP : Fld := ⟨Reg.MED_AUTO_HI, 31, 0⟩

/-- MED_SPARE[c]: *S*꜀ (R237). -/
def Reg.MED_SPARE (n : Nat) : Nat := 0xC00010 + 0x4 * n
def Fd.MED_SPARE_COUNT (n : Nat) : Fld := ⟨Reg.MED_SPARE n, 18, 0⟩

/-- CHO_CTL: Source, output and policy controls (R270). -/
def Reg.CHO_CTL : Nat := 0x1200000
def Fd.CHO_CTL_PENDING : Fld := ⟨Reg.CHO_CTL, 31, 31⟩
def Fd.CHO_CTL_RELOCK : Fld := ⟨Reg.CHO_CTL, 30, 30⟩
def Fd.CHO_CTL_UNLOCKED_POL : Fld := ⟨Reg.CHO_CTL, 9, 8⟩
def Fd.CHO_CTL_CHBOUT : Fld := ⟨Reg.CHO_CTL, 5, 4⟩
def Fd.CHO_CTL_OVERLAP_EN : Fld := ⟨Reg.CHO_CTL, 2, 2⟩
def Fd.CHO_CTL_SRC : Fld := ⟨Reg.CHO_CTL, 1, 0⟩

/-- CHO_FRAME: Frame length (R270). -/
def Reg.CHO_FRAME : Nat := 0x1200004
def Fd.CHO_FRAME_FRAME : Fld := ⟨Reg.CHO_FRAME, 1, 0⟩

/-- CHO_PHASE: Phase (R270). -/
def Reg.CHO_PHASE : Nat := 0x1200008
def Fd.CHO_PHASE_PHASE : Fld := ⟨Reg.CHO_PHASE, 7, 0⟩

/-- CHO_TURNMAP[c]: Turn of choir *c* (R270). -/
def Reg.CHO_TURNMAP (n : Nat) : Nat := 0x1200010 + 0x4 * n
def Fd.CHO_TURNMAP_LEN (n : Nat) : Fld := ⟨Reg.CHO_TURNMAP n, 23, 16⟩
def Fd.CHO_TURNMAP_START (n : Nat) : Fld := ⟨Reg.CHO_TURNMAP n, 7, 0⟩

/-- CHO_COUNTER: Chorus counter (R270). -/
def Reg.CHO_COUNTER : Nat := 0x1200020
def Fd.CHO_COUNTER_FRAME : Fld := ⟨Reg.CHO_COUNTER, 63, 8⟩
def Fd.CHO_COUNTER_CALL : Fld := ⟨Reg.CHO_COUNTER, 7, 0⟩

/-- CHO_STATE: Lock state and current turn (R270). -/
def Reg.CHO_STATE : Nat := 0x1200028
def Fd.CHO_STATE_STATE : Fld := ⟨Reg.CHO_STATE, 31, 29⟩
def Fd.CHO_STATE_SRC_USED : Fld := ⟨Reg.CHO_STATE, 28, 27⟩
def Fd.CHO_STATE_NOISY : Fld := ⟨Reg.CHO_STATE, 26, 26⟩
def Fd.CHO_STATE_ACQ : Fld := ⟨Reg.CHO_STATE, 25, 25⟩
def Fd.CHO_STATE_LOUD : Fld := ⟨Reg.CHO_STATE, 23, 20⟩
def Fd.CHO_STATE_SINCE : Fld := ⟨Reg.CHO_STATE, 19, 8⟩
def Fd.CHO_STATE_ECALL : Fld := ⟨Reg.CHO_STATE, 7, 0⟩

/-- CHO_POWER: Die tokens (R270). -/
def Reg.CHO_POWER : Nat := 0x1200030
def Fd.CHO_POWER_EFFECTIVE : Fld := ⟨Reg.CHO_POWER, 27, 16⟩
def Fd.CHO_POWER_TOKENS : Fld := ⟨Reg.CHO_POWER, 11, 0⟩

/-- CHO_GUARD: Guard base and fit margin (R270). -/
def Reg.CHO_GUARD : Nat := 0x1200034
def Fd.CHO_GUARD_MARGIN : Fld := ⟨Reg.CHO_GUARD, 31, 24⟩
def Fd.CHO_GUARD_BASE : Fld := ⟨Reg.CHO_GUARD, 15, 0⟩

/-- CHO_BEAT: Current guard and last offset (R270). -/
def Reg.CHO_BEAT : Nat := 0x1200038
def Fd.CHO_BEAT_GUARD_NOW : Fld := ⟨Reg.CHO_BEAT, 31, 16⟩
def Fd.CHO_BEAT_OFFSET : Fld := ⟨Reg.CHO_BEAT, 15, 0⟩

/-- CHO_STATS: Beat and schedule counts (R270). -/
def Reg.CHO_STATS : Nat := 0x120003C
def Fd.CHO_STATS_REJECTED : Fld := ⟨Reg.CHO_STATS, 31, 24⟩
def Fd.CHO_STATS_OFFPHASE : Fld := ⟨Reg.CHO_STATS, 23, 16⟩
def Fd.CHO_STATS_RELOCKS : Fld := ⟨Reg.CHO_STATS, 15, 8⟩
def Fd.CHO_STATS_OVERRUNS : Fld := ⟨Reg.CHO_STATS, 7, 0⟩

/-- DZL_DEVID: Membership and device ID (R314). -/
def Reg.DZL_DEVID : Nat := 0x1400000
def Fd.DZL_DEVID_MEMBER : Fld := ⟨Reg.DZL_DEVID, 31, 31⟩
def Fd.DZL_DEVID_CONFLICT : Fld := ⟨Reg.DZL_DEVID, 30, 30⟩
def Fd.DZL_DEVID_DEVID : Fld := ⟨Reg.DZL_DEVID, 9, 0⟩

/-- DZL_GROUP: Group ID (R314). -/
def Reg.DZL_GROUP : Nat := 0x1400004
def Fd.DZL_GROUP_GROUP : Fld := ⟨Reg.DZL_GROUP, 15, 0⟩

/-- DZL_GEOM: Geometry (R314). -/
def Reg.DZL_GEOM : Nat := 0x1400008
def Fd.DZL_GEOM_DIMY : Fld := ⟨Reg.DZL_GEOM, 12, 8⟩
def Fd.DZL_GEOM_DIMX : Fld := ⟨Reg.DZL_GEOM, 4, 0⟩

/-- DZL_CFG: Port enables and peer-read controls (R314). -/
def Reg.DZL_CFG : Nat := 0x140000C
def Fd.DZL_CFG_PEER_TMO : Fld := ⟨Reg.DZL_CFG, 19, 8⟩
def Fd.DZL_CFG_PEER_PRIO : Fld := ⟨Reg.DZL_CFG, 4, 4⟩
def Fd.DZL_CFG_PORT_EN : Fld := ⟨Reg.DZL_CFG, 3, 0⟩

/-- DZL_TIME: Time tree (R314). -/
def Reg.DZL_TIME : Nat := 0x1400010
def Fd.DZL_TIME_ROLE : Fld := ⟨Reg.DZL_TIME, 31, 30⟩
def Fd.DZL_TIME_HOPS : Fld := ⟨Reg.DZL_TIME, 29, 24⟩
def Fd.DZL_TIME_PARENT : Fld := ⟨Reg.DZL_TIME, 23, 22⟩
def Fd.DZL_TIME_FRMISM : Fld := ⟨Reg.DZL_TIME, 21, 21⟩
def Fd.DZL_TIME_ROOTV : Fld := ⟨Reg.DZL_TIME, 20, 20⟩
def Fd.DZL_TIME_ROOT : Fld := ⟨Reg.DZL_TIME, 9, 0⟩

/-- DZL_PEER: Peer-read load (R314). -/
def Reg.DZL_PEER : Nat := 0x1400014
def Fd.DZL_PEER_OUT : Fld := ⟨Reg.DZL_PEER, 31, 19⟩
def Fd.DZL_PEER_SERVING : Fld := ⟨Reg.DZL_PEER, 18, 8⟩

/-- DZL_P[p]_STATE: Port state (R314). -/
def Reg.DZL_P_STATE (n : Nat) : Nat := 0x1400100 + 0x40 * n
def Fd.DZL_P_STATE_STATE (n : Nat) : Fld := ⟨Reg.DZL_P_STATE n, 31, 28⟩
def Fd.DZL_P_STATE_PARTNER (n : Nat) : Fld := ⟨Reg.DZL_P_STATE n, 25, 16⟩
def Fd.DZL_P_STATE_PVALID (n : Nat) : Fld := ⟨Reg.DZL_P_STATE n, 15, 15⟩
def Fd.DZL_P_STATE_PPORT (n : Nat) : Fld := ⟨Reg.DZL_P_STATE n, 1, 0⟩

/-- DZL_P[p]_DELAY: One-way delay (R314). -/
def Reg.DZL_P_DELAY (n : Nat) : Nat := 0x1400104 + 0x40 * n
def Fd.DZL_P_DELAY_DELAY (n : Nat) : Fld := ⟨Reg.DZL_P_DELAY n, 19, 0⟩

/-- DZL_P[p]_ERR: Error counts (R314). -/
def Reg.DZL_P_ERR (n : Nat) : Nat := 0x1400108 + 0x40 * n
def Fd.DZL_P_ERR_CRC (n : Nat) : Fld := ⟨Reg.DZL_P_ERR n, 31, 24⟩
def Fd.DZL_P_ERR_REPLAY (n : Nat) : Fld := ⟨Reg.DZL_P_ERR n, 23, 16⟩
def Fd.DZL_P_ERR_AUTHFAIL (n : Nat) : Fld := ⟨Reg.DZL_P_ERR n, 15, 8⟩
def Fd.DZL_P_ERR_REKEY (n : Nat) : Fld := ⟨Reg.DZL_P_ERR n, 7, 0⟩

/-- DZL_REACH[i]: Reachability map (R314). -/
def Reg.DZL_REACH (n : Nat) : Nat := 0x1400200 + 0x4 * n
def Fd.DZL_REACH_MAP (n : Nat) : Fld := ⟨Reg.DZL_REACH n, 31, 0⟩

/-- VFM_FN[n]_STATE: Assignment, class, flags (R339). -/
def Reg.VFM_FN_STATE (n : Nat) : Nat := 0x1800000 + 0x400 * n
def Fd.VFM_FN_STATE_ASSIGNED (n : Nat) : Fld := ⟨Reg.VFM_FN_STATE n, 31, 31⟩
def Fd.VFM_FN_STATE_RESET (n : Nat) : Fld := ⟨Reg.VFM_FN_STATE n, 30, 30⟩
def Fd.VFM_FN_STATE_CLASS (n : Nat) : Fld := ⟨Reg.VFM_FN_STATE n, 29, 28⟩
def Fd.VFM_FN_STATE_WAITTOK (n : Nat) : Fld := ⟨Reg.VFM_FN_STATE n, 27, 27⟩
def Fd.VFM_FN_STATE_OVERQ (n : Nat) : Fld := ⟨Reg.VFM_FN_STATE n, 7, 0⟩

/-- VFM_FN[n]_QP: Queue pairs (R339). -/
def Reg.VFM_FN_QP (n : Nat) : Nat := 0x1800004 + 0x400 * n
def Fd.VFM_FN_QP_CREATED (n : Nat) : Fld := ⟨Reg.VFM_FN_QP n, 24, 16⟩
def Fd.VFM_FN_QP_LIMIT (n : Nat) : Fld := ⟨Reg.VFM_FN_QP n, 8, 0⟩

/-- VFM_FN[n]_INFLIGHT: Tags (R339). -/
def Reg.VFM_FN_INFLIGHT (n : Nat) : Nat := 0x1800008 + 0x400 * n
def Fd.VFM_FN_INFLIGHT_CUR (n : Nat) : Fld := ⟨Reg.VFM_FN_INFLIGHT n, 29, 16⟩
def Fd.VFM_FN_INFLIGHT_LIMIT (n : Nat) : Fld := ⟨Reg.VFM_FN_INFLIGHT n, 13, 0⟩

/-- VFM_FN[n]_KEYS: Key range (R339). -/
def Reg.VFM_FN_KEYS (n : Nat) : Nat := 0x180000C + 0x400 * n
def Fd.VFM_FN_KEYS_SLOTS (n : Nat) : Fld := ⟨Reg.VFM_FN_KEYS n, 28, 16⟩
def Fd.VFM_FN_KEYS_BASE (n : Nat) : Fld := ⟨Reg.VFM_FN_KEYS n, 13, 0⟩

/-- VFM_FN[n]_NS: Namespaces, media slots (R339). -/
def Reg.VFM_FN_NS (n : Nat) : Nat := 0x1800010 + 0x400 * n
def Fd.VFM_FN_NS_MEDIA (n : Nat) : Fld := ⟨Reg.VFM_FN_NS n, 23, 16⟩
def Fd.VFM_FN_NS_CUR (n : Nat) : Fld := ⟨Reg.VFM_FN_NS n, 15, 8⟩
def Fd.VFM_FN_NS_QUOTA (n : Nat) : Fld := ⟨Reg.VFM_FN_NS n, 7, 0⟩

/-- VFM_FN[n]_OPEN: Open zones (R339). -/
def Reg.VFM_FN_OPEN (n : Nat) : Nat := 0x1800014 + 0x400 * n
def Fd.VFM_FN_OPEN_CUR (n : Nat) : Fld := ⟨Reg.VFM_FN_OPEN n, 31, 16⟩
def Fd.VFM_FN_OPEN_QUOTA (n : Nat) : Fld := ⟨Reg.VFM_FN_OPEN n, 15, 0⟩

/-- VFM_FN[n]_ACTIVE: Active zones (R339). -/
def Reg.VFM_FN_ACTIVE (n : Nat) : Nat := 0x1800018 + 0x400 * n
def Fd.VFM_FN_ACTIVE_CUR (n : Nat) : Fld := ⟨Reg.VFM_FN_ACTIVE n, 31, 16⟩
def Fd.VFM_FN_ACTIVE_QUOTA (n : Nat) : Fld := ⟨Reg.VFM_FN_ACTIVE n, 15, 0⟩

/-- VFM_FN[n]_BUF: Buffer (R339). -/
def Reg.VFM_FN_BUF (n : Nat) : Nat := 0x180001C + 0x400 * n
def Fd.VFM_FN_BUF_CUR (n : Nat) : Fld := ⟨Reg.VFM_FN_BUF n, 31, 16⟩
def Fd.VFM_FN_BUF_QUOTA (n : Nat) : Fld := ⟨Reg.VFM_FN_BUF n, 15, 0⟩

/-- VFM_FN[n]_STRIPES: Bound stripes (R339). -/
def Reg.VFM_FN_STRIPES (n : Nat) : Nat := 0x1800020 + 0x400 * n
def Fd.VFM_FN_STRIPES_COUNT (n : Nat) : Fld := ⟨Reg.VFM_FN_STRIPES n, 18, 0⟩

/-- VFM_FN[n]_STRIPEQ: Stripe quota (R339). -/
def Reg.VFM_FN_STRIPEQ (n : Nat) : Nat := 0x1800024 + 0x400 * n
def Fd.VFM_FN_STRIPEQ_COUNT (n : Nat) : Fld := ⟨Reg.VFM_FN_STRIPEQ n, 18, 0⟩

/-- VFM_FN[n]_GTOK: *G* (R339). -/
def Reg.VFM_FN_GTOK (n : Nat) : Nat := 0x1800028 + 0x400 * n
def Fd.VFM_FN_GTOK_TOKENS (n : Nat) : Fld := ⟨Reg.VFM_FN_GTOK n, 19, 0⟩

/-- VFM_FN[n]_CTOK: *C* (R339). -/
def Reg.VFM_FN_CTOK (n : Nat) : Nat := 0x180002C + 0x400 * n
def Fd.VFM_FN_CTOK_TOKENS (n : Nat) : Fld := ⟨Reg.VFM_FN_CTOK n, 19, 0⟩

/-- VFM_FN[n]_TOKCFG: Weight, burst (R339). -/
def Reg.VFM_FN_TOKCFG (n : Nat) : Nat := 0x1800030 + 0x400 * n
def Fd.VFM_FN_TOKCFG_BURST (n : Nat) : Fld := ⟨Reg.VFM_FN_TOKCFG n, 18, 16⟩
def Fd.VFM_FN_TOKCFG_WEIGHT (n : Nat) : Fld := ⟨Reg.VFM_FN_TOKCFG n, 9, 0⟩

/-- VFM_FN[n]_BAL: Balance (R339). -/
def Reg.VFM_FN_BAL (n : Nat) : Nat := 0x1800034 + 0x400 * n
def Fd.VFM_FN_BAL_VALUE (n : Nat) : Fld := ⟨Reg.VFM_FN_BAL n, 31, 0⟩

/-- VFM_FN[n]_PEERTAG: Peer tag (R339). -/
def Reg.VFM_FN_PEERTAG (n : Nat) : Nat := 0x1800038 + 0x400 * n
def Fd.VFM_FN_PEERTAG_VALUE (n : Nat) : Fld := ⟨Reg.VFM_FN_PEERTAG n, 31, 0⟩

/-- VFM_POOL_QP: Free queue pairs (R339). -/
def Reg.VFM_POOL_QP : Nat := 0x1900000
def Fd.VFM_POOL_QP_FREE : Fld := ⟨Reg.VFM_POOL_QP, 14, 0⟩

/-- VFM_POOL_KEYS: Free key slots (R339). -/
def Reg.VFM_POOL_KEYS : Nat := 0x1900004
def Fd.VFM_POOL_KEYS_LARGEST : Fld := ⟨Reg.VFM_POOL_KEYS, 30, 16⟩
def Fd.VFM_POOL_KEYS_FREE : Fld := ⟨Reg.VFM_POOL_KEYS, 14, 0⟩

/-- VFM_POOL_WTOK: Token total (R339). -/
def Reg.VFM_POOL_WTOK : Nat := 0x1900008
def Fd.VFM_POOL_WTOK_TOTAL : Fld := ⟨Reg.VFM_POOL_WTOK, 19, 0⟩

/-- VFM_POOL_GSUM: Σ *G* (R339). -/
def Reg.VFM_POOL_GSUM : Nat := 0x190000C
def Fd.VFM_POOL_GSUM_SUM : Fld := ⟨Reg.VFM_POOL_GSUM, 19, 0⟩

/-- VFM_POOL_STATUS: Counts (R339). -/
def Reg.VFM_POOL_STATUS : Nat := 0x1900010
def Fd.VFM_POOL_STATUS_ASSIGNED : Fld := ⟨Reg.VFM_POOL_STATUS, 26, 16⟩
def Fd.VFM_POOL_STATUS_OVERQ : Fld := ⟨Reg.VFM_POOL_STATUS, 10, 0⟩

/-- SEC_LIFECYCLE: Lifecycle and media class (R373). -/
def Reg.SEC_LIFECYCLE : Nat := 0x2000000
def Fd.SEC_LIFECYCLE_STATE : Fld := ⟨Reg.SEC_LIFECYCLE, 31, 29⟩
def Fd.SEC_LIFECYCLE_PENDING : Fld := ⟨Reg.SEC_LIFECYCLE, 28, 26⟩
def Fd.SEC_LIFECYCLE_MEDIA : Fld := ⟨Reg.SEC_LIFECYCLE, 4, 3⟩
def Fd.SEC_LIFECYCLE_DEBUG : Fld := ⟨Reg.SEC_LIFECYCLE, 2, 2⟩

/-- SEC_OTP_STAT: OTP state (R373). -/
def Reg.SEC_OTP_STAT : Nat := 0x2000004
def Fd.SEC_OTP_STAT_VQPS : Fld := ⟨Reg.SEC_OTP_STAT, 31, 31⟩
def Fd.SEC_OTP_STAT_BUSY : Fld := ⟨Reg.SEC_OTP_STAT, 30, 30⟩
def Fd.SEC_OTP_STAT_SETGEN : Fld := ⟨Reg.SEC_OTP_STAT, 23, 22⟩
def Fd.SEC_OTP_STAT_SETFREE : Fld := ⟨Reg.SEC_OTP_STAT, 21, 20⟩
def Fd.SEC_OTP_STAT_ECCCOR : Fld := ⟨Reg.SEC_OTP_STAT, 16, 16⟩
def Fd.SEC_OTP_STAT_PEND : Fld := ⟨Reg.SEC_OTP_STAT, 2, 0⟩

/-- SEC_OTP_ADDR: OTP read address (R373). -/
def Reg.SEC_OTP_ADDR : Nat := 0x2000008
def Fd.SEC_OTP_ADDR_ADDR : Fld := ⟨Reg.SEC_OTP_ADDR, 11, 2⟩

/-- SEC_OTP_DATA: OTP read data (R373). -/
def Reg.SEC_OTP_DATA : Nat := 0x200000C
def Fd.SEC_OTP_DATA_DATA : Fld := ⟨Reg.SEC_OTP_DATA, 31, 0⟩

/-- SEC_ALARM: Alarms (R373). -/
def Reg.SEC_ALARM : Nat := 0x2000010
def Fd.SEC_ALARM_GLITCH : Fld := ⟨Reg.SEC_ALARM, 31, 31⟩
def Fd.SEC_ALARM_TEMP : Fld := ⟨Reg.SEC_ALARM, 30, 30⟩
def Fd.SEC_ALARM_OTPECC : Fld := ⟨Reg.SEC_ALARM, 29, 29⟩
def Fd.SEC_ALARM_TRNG : Fld := ⟨Reg.SEC_ALARM, 28, 28⟩
def Fd.SEC_ALARM_BUS : Fld := ⟨Reg.SEC_ALARM, 27, 27⟩
def Fd.SEC_ALARM_DENIED : Fld := ⟨Reg.SEC_ALARM, 26, 26⟩
def Fd.SEC_ALARM_COUNT : Fld := ⟨Reg.SEC_ALARM, 7, 0⟩

/-- SEC_FWKEY: Vendor keys and floor (R373). -/
def Reg.SEC_FWKEY : Nat := 0x2000014
def Fd.SEC_FWKEY_FLOOR : Fld := ⟨Reg.SEC_FWKEY, 23, 16⟩
def Fd.SEC_FWKEY_REVOKED : Fld := ⟨Reg.SEC_FWKEY, 11, 8⟩
def Fd.SEC_FWKEY_PRESENT : Fld := ⟨Reg.SEC_FWKEY, 7, 4⟩
def Fd.SEC_FWKEY_GEN : Fld := ⟨Reg.SEC_FWKEY, 1, 0⟩

/-- SEC_IDENT: Identity generations (R373). -/
def Reg.SEC_IDENT : Nat := 0x2000018
def Fd.SEC_IDENT_READY : Fld := ⟨Reg.SEC_IDENT, 31, 31⟩
def Fd.SEC_IDENT_EXHAUSTED : Fld := ⟨Reg.SEC_IDENT, 30, 30⟩
def Fd.SEC_IDENT_RETIRED : Fld := ⟨Reg.SEC_IDENT, 11, 8⟩
def Fd.SEC_IDENT_ACTIVE : Fld := ⟨Reg.SEC_IDENT, 7, 4⟩
def Fd.SEC_IDENT_GEN : Fld := ⟨Reg.SEC_IDENT, 1, 0⟩

/-- SEC_IDX: Next signing index (R373). -/
def Reg.SEC_IDX : Nat := 0x2000020
def Fd.SEC_IDX_INDEX : Fld := ⟨Reg.SEC_IDX, 39, 0⟩

/-- SEC_RSV_END: End of the reservation (R373). -/
def Reg.SEC_RSV_END : Nat := 0x2000028
def Fd.SEC_RSV_END_END : Fld := ⟨Reg.SEC_RSV_END, 39, 0⟩

/-- SEC_TRNG_STAT: TRNG state (R373). -/
def Reg.SEC_TRNG_STAT : Nat := 0x2000030
def Fd.SEC_TRNG_STAT_OK : Fld := ⟨Reg.SEC_TRNG_STAT, 31, 31⟩
def Fd.SEC_TRNG_STAT_AVAIL : Fld := ⟨Reg.SEC_TRNG_STAT, 30, 30⟩
def Fd.SEC_TRNG_STAT_FAILS : Fld := ⟨Reg.SEC_TRNG_STAT, 15, 0⟩

/-- SEC_TRNG_DATA: TRNG output (R373). -/
def Reg.SEC_TRNG_DATA : Nat := 0x2000034
def Fd.SEC_TRNG_DATA_DATA : Fld := ⟨Reg.SEC_TRNG_DATA, 31, 0⟩

/-- SEC_KE_CTL: Key engine control (R373). -/
def Reg.SEC_KE_CTL : Nat := 0x2000100
def Fd.SEC_KE_CTL_OWNER : Fld := ⟨Reg.SEC_KE_CTL, 31, 21⟩
def Fd.SEC_KE_CTL_OWNED : Fld := ⟨Reg.SEC_KE_CTL, 20, 20⟩
def Fd.SEC_KE_CTL_OP : Fld := ⟨Reg.SEC_KE_CTL, 7, 6⟩
def Fd.SEC_KE_CTL_RELEASE : Fld := ⟨Reg.SEC_KE_CTL, 4, 4⟩
def Fd.SEC_KE_CTL_ABORT : Fld := ⟨Reg.SEC_KE_CTL, 3, 3⟩
def Fd.SEC_KE_CTL_START : Fld := ⟨Reg.SEC_KE_CTL, 2, 2⟩
def Fd.SEC_KE_CTL_CLAIM : Fld := ⟨Reg.SEC_KE_CTL, 1, 1⟩

/-- SEC_KE_SLOTS: Key and destination slots (R373). -/
def Reg.SEC_KE_SLOTS : Nat := 0x2000104
def Fd.SEC_KE_SLOTS_DEST : Fld := ⟨Reg.SEC_KE_SLOTS, 29, 16⟩
def Fd.SEC_KE_SLOTS_KEY : Fld := ⟨Reg.SEC_KE_SLOTS, 13, 0⟩

/-- SEC_KE_LEN: Message or blob length (R373). -/
def Reg.SEC_KE_LEN : Nat := 0x2000108
def Fd.SEC_KE_LEN_LEN : Fld := ⟨Reg.SEC_KE_LEN, 20, 0⟩

/-- SEC_KE_DATA: Input (R373). -/
def Reg.SEC_KE_DATA : Nat := 0x200010C
def Fd.SEC_KE_DATA_DATA : Fld := ⟨Reg.SEC_KE_DATA, 31, 0⟩

/-- SEC_KE_STATUS: Result (R373). -/
def Reg.SEC_KE_STATUS : Nat := 0x2000110
def Fd.SEC_KE_STATUS_BUSY : Fld := ⟨Reg.SEC_KE_STATUS, 31, 31⟩
def Fd.SEC_KE_STATUS_DONE : Fld := ⟨Reg.SEC_KE_STATUS, 30, 30⟩
def Fd.SEC_KE_STATUS_ERR : Fld := ⟨Reg.SEC_KE_STATUS, 3, 0⟩

/-- SEC_KE_TAG[k]: CMAC tag (R373). -/
def Reg.SEC_KE_TAG (n : Nat) : Nat := 0x2000120 + 0x4 * n
def Fd.SEC_KE_TAG_TAG (n : Nat) : Fld := ⟨Reg.SEC_KE_TAG n, 31, 0⟩

/-- SEC_KS_SEL: Slot selection (R373). -/
def Reg.SEC_KS_SEL : Nat := 0x2000200
def Fd.SEC_KS_SEL_SLOT : Fld := ⟨Reg.SEC_KS_SEL, 13, 0⟩

/-- SEC_KS_INFO: Selected slot (R373). -/
def Reg.SEC_KS_INFO : Nat := 0x2000204
def Fd.SEC_KS_INFO_VALID : Fld := ⟨Reg.SEC_KS_INFO, 31, 31⟩
def Fd.SEC_KS_INFO_KIND : Fld := ⟨Reg.SEC_KS_INFO, 30, 29⟩
def Fd.SEC_KS_INFO_SOURCE : Fld := ⟨Reg.SEC_KS_INFO, 28, 26⟩
def Fd.SEC_KS_INFO_OWNER : Fld := ⟨Reg.SEC_KS_INFO, 10, 0⟩

/-- SEC_KS_CMD: Slot command (R373). -/
def Reg.SEC_KS_CMD : Nat := 0x2000208
def Fd.SEC_KS_CMD_OP : Fld := ⟨Reg.SEC_KS_CMD, 2, 0⟩

/-- SEC_HE[n]_CTL: Hash engine control (R373). -/
def Reg.SEC_HE_CTL (n : Nat) : Nat := 0x2001000 + 0x100 * n
def Fd.SEC_HE_CTL_OWNER (n : Nat) : Fld := ⟨Reg.SEC_HE_CTL n, 31, 21⟩
def Fd.SEC_HE_CTL_OWNED (n : Nat) : Fld := ⟨Reg.SEC_HE_CTL n, 20, 20⟩
def Fd.SEC_HE_CTL_OUTLEN (n : Nat) : Fld := ⟨Reg.SEC_HE_CTL n, 11, 10⟩
def Fd.SEC_HE_CTL_ALG (n : Nat) : Fld := ⟨Reg.SEC_HE_CTL n, 9, 8⟩
def Fd.SEC_HE_CTL_TAILB (n : Nat) : Fld := ⟨Reg.SEC_HE_CTL n, 5, 4⟩
def Fd.SEC_HE_CTL_RELEASE (n : Nat) : Fld := ⟨Reg.SEC_HE_CTL n, 3, 3⟩
def Fd.SEC_HE_CTL_FINAL (n : Nat) : Fld := ⟨Reg.SEC_HE_CTL n, 2, 2⟩
def Fd.SEC_HE_CTL_CLAIM (n : Nat) : Fld := ⟨Reg.SEC_HE_CTL n, 1, 1⟩

/-- SEC_HE[n]_STATUS: Hash engine status (R373). -/
def Reg.SEC_HE_STATUS (n : Nat) : Nat := 0x2001004 + 0x100 * n
def Fd.SEC_HE_STATUS_BUSY (n : Nat) : Fld := ⟨Reg.SEC_HE_STATUS n, 31, 31⟩
def Fd.SEC_HE_STATUS_DONE (n : Nat) : Fld := ⟨Reg.SEC_HE_STATUS n, 30, 30⟩
def Fd.SEC_HE_STATUS_INTRUDE (n : Nat) : Fld := ⟨Reg.SEC_HE_STATUS n, 29, 29⟩
def Fd.SEC_HE_STATUS_CLEARED (n : Nat) : Fld := ⟨Reg.SEC_HE_STATUS n, 28, 28⟩

/-- SEC_HE[n]_DATA: Input (R373). -/
def Reg.SEC_HE_DATA (n : Nat) : Nat := 0x2001008 + 0x100 * n
def Fd.SEC_HE_DATA_DATA (n : Nat) : Fld := ⟨Reg.SEC_HE_DATA n, 31, 0⟩

/-- SEC_HE[n]_DIGEST[k]: Digest (R373). -/
def Reg.SEC_HE_DIGEST (n k : Nat) : Nat := 0x2001040 + 0x100 * n + 0x4 * k
def Fd.SEC_HE_DIGEST_DIGEST (n k : Nat) : Fld := ⟨Reg.SEC_HE_DIGEST n k, 31, 0⟩

/-- TOP_MODE: Mode (R527). -/
def Reg.TOP_MODE : Nat := 0x10
def Fd.TOP_MODE_FLUSH : Fld := ⟨Reg.TOP_MODE, 31, 31⟩
def Fd.TOP_MODE_QCAUSE : Fld := ⟨Reg.TOP_MODE, 26, 24⟩
def Fd.TOP_MODE_ROCAUSE : Fld := ⟨Reg.TOP_MODE, 21, 20⟩
def Fd.TOP_MODE_DGCAUSE : Fld := ⟨Reg.TOP_MODE, 18, 16⟩
def Fd.TOP_MODE_RETURN : Fld := ⟨Reg.TOP_MODE, 11, 8⟩
def Fd.TOP_MODE_PREV : Fld := ⟨Reg.TOP_MODE, 7, 4⟩
def Fd.TOP_MODE_MODE : Fld := ⟨Reg.TOP_MODE, 3, 0⟩

/-- TOP_PROFILE: Profile (R527). -/
def Reg.TOP_PROFILE : Nat := 0x14
def Fd.TOP_PROFILE_SRC : Fld := ⟨Reg.TOP_PROFILE, 31, 29⟩
def Fd.TOP_PROFILE_MIXED : Fld := ⟨Reg.TOP_PROFILE, 28, 28⟩
def Fd.TOP_PROFILE_PINCHG : Fld := ⟨Reg.TOP_PROFILE, 27, 27⟩
def Fd.TOP_PROFILE_PEUTH : Fld := ⟨Reg.TOP_PROFILE, 26, 25⟩
def Fd.TOP_PROFILE_VALID : Fld := ⟨Reg.TOP_PROFILE, 23, 20⟩
def Fd.TOP_PROFILE_PINS : Fld := ⟨Reg.TOP_PROFILE, 11, 10⟩
def Fd.TOP_PROFILE_START : Fld := ⟨Reg.TOP_PROFILE, 9, 8⟩
def Fd.TOP_PROFILE_ACTIVE : Fld := ⟨Reg.TOP_PROFILE, 1, 0⟩

/-- TOP_BOOT: Start progress (R527). -/
def Reg.TOP_BOOT : Nat := 0x18
def Fd.TOP_BOOT_STAGE : Fld := ⟨Reg.TOP_BOOT, 31, 28⟩
def Fd.TOP_BOOT_KIND : Fld := ⟨Reg.TOP_BOOT, 27, 26⟩
def Fd.TOP_BOOT_RECOVERY : Fld := ⟨Reg.TOP_BOOT, 25, 25⟩
def Fd.TOP_BOOT_FALLBACK : Fld := ⟨Reg.TOP_BOOT, 24, 24⟩
def Fd.TOP_BOOT_THERM : Fld := ⟨Reg.TOP_BOOT, 23, 23⟩
def Fd.TOP_BOOT_PFHELD : Fld := ⟨Reg.TOP_BOOT, 22, 22⟩
def Fd.TOP_BOOT_SLOT : Fld := ⟨Reg.TOP_BOOT, 21, 21⟩
def Fd.TOP_BOOT_FAIL : Fld := ⟨Reg.TOP_BOOT, 19, 16⟩
def Fd.TOP_BOOT_TIME : Fld := ⟨Reg.TOP_BOOT, 15, 0⟩

/-- GK_PSTATE_REQ: Requested state (R429). -/
def Reg.GK_PSTATE_REQ : Nat := 0x100000
def Fd.GK_PSTATE_REQ_STATE : Fld := ⟨Reg.GK_PSTATE_REQ, 2, 0⟩

/-- GK_PSTATE: Current state (R429). -/
def Reg.GK_PSTATE : Nat := 0x100004
def Fd.GK_PSTATE_CUR : Fld := ⟨Reg.GK_PSTATE, 31, 29⟩
def Fd.GK_PSTATE_LAST : Fld := ⟨Reg.GK_PSTATE, 28, 26⟩
def Fd.GK_PSTATE_UNWOUND : Fld := ⟨Reg.GK_PSTATE, 23, 16⟩
def Fd.GK_PSTATE_NVME : Fld := ⟨Reg.GK_PSTATE, 10, 8⟩

/-- GK_WAKESRC: Wake record (R429). -/
def Reg.GK_WAKESRC : Nat := 0x100008
def Fd.GK_WAKESRC_FIRST : Fld := ⟨Reg.GK_WAKESRC, 31, 28⟩
def Fd.GK_WAKESRC_PEND : Fld := ⟨Reg.GK_WAKESRC, 6, 0⟩

/-- GK_WAKECFG: Wake controls (R429). -/
def Reg.GK_WAKECFG : Nat := 0x10000C
def Fd.GK_WAKECFG_STORM : Fld := ⟨Reg.GK_WAKECFG, 31, 31⟩
def Fd.GK_WAKECFG_STORMS : Fld := ⟨Reg.GK_WAKECFG, 30, 24⟩
def Fd.GK_WAKECFG_TIMER : Fld := ⟨Reg.GK_WAKECFG, 15, 8⟩
def Fd.GK_WAKECFG_EN : Fld := ⟨Reg.GK_WAKECFG, 6, 0⟩

/-- GK_RETSEL: Retention selection (R429). -/
def Reg.GK_RETSEL : Nat := 0x100010
def Fd.GK_RETSEL_SEL : Fld := ⟨Reg.GK_RETSEL, 15, 0⟩

/-- GK_RETFAIL: Retention failures (R429). -/
def Reg.GK_RETFAIL : Nat := 0x100014
def Fd.GK_RETFAIL_MAP : Fld := ⟨Reg.GK_RETFAIL, 15, 0⟩

/-- GK_RETCRC[b]: Bank CRC (R429). -/
def Reg.GK_RETCRC (n : Nat) : Nat := 0x100040 + 0x4 * n
def Fd.GK_RETCRC_CRC (n : Nat) : Fld := ⟨Reg.GK_RETCRC n, 31, 0⟩

/-- GK_TEMP[n]: Reading *n* (R429). -/
def Reg.GK_TEMP (n : Nat) : Nat := 0x100100 + 0x4 * n
def Fd.GK_TEMP_FAULT (n : Nat) : Fld := ⟨Reg.GK_TEMP n, 31, 31⟩
def Fd.GK_TEMP_SUSPECT (n : Nat) : Fld := ⟨Reg.GK_TEMP n, 30, 30⟩
def Fd.GK_TEMP_ABSENT (n : Nat) : Fld := ⟨Reg.GK_TEMP n, 29, 29⟩
def Fd.GK_TEMP_RATE (n : Nat) : Fld := ⟨Reg.GK_TEMP n, 25, 24⟩
def Fd.GK_TEMP_RAW (n : Nat) : Fld := ⟨Reg.GK_TEMP n, 15, 8⟩
def Fd.GK_TEMP_USED (n : Nat) : Fld := ⟨Reg.GK_TEMP n, 7, 0⟩

/-- GK_THERM: Thermal state (R429). -/
def Reg.GK_THERM : Nat := 0x100180
def Fd.GK_THERM_STOP : Fld := ⟨Reg.GK_THERM, 31, 31⟩
def Fd.GK_THERM_LEVEL : Fld := ⟨Reg.GK_THERM, 30, 28⟩
def Fd.GK_THERM_FLOOR : Fld := ⟨Reg.GK_THERM, 27, 26⟩
def Fd.GK_THERM_TDHOT : Fld := ⟨Reg.GK_THERM, 23, 16⟩
def Fd.GK_THERM_TDSTOP : Fld := ⟨Reg.GK_THERM, 15, 8⟩
def Fd.GK_THERM_COMPOSITE : Fld := ⟨Reg.GK_THERM, 7, 0⟩

/-- GK_THCFG: Thermal controls (R429). -/
def Reg.GK_THCFG : Nat := 0x100184
def Fd.GK_THCFG_ALERT_EN : Fld := ⟨Reg.GK_THCFG, 31, 31⟩
def Fd.GK_THCFG_DWELL : Fld := ⟨Reg.GK_THCFG, 7, 0⟩

/-- GK_TDCFG[k]: Input TD*k* (R429). -/
def Reg.GK_TDCFG (n : Nat) : Nat := 0x1001A0 + 0x4 * n
def Fd.GK_TDCFG_MODE (n : Nat) : Fld := ⟨Reg.GK_TDCFG n, 31, 30⟩
def Fd.GK_TDCFG_NB1 (n : Nat) : Fld := ⟨Reg.GK_TDCFG n, 27, 23⟩
def Fd.GK_TDCFG_NB0 (n : Nat) : Fld := ⟨Reg.GK_TDCFG n, 22, 18⟩
def Fd.GK_TDCFG_STOPLIM (n : Nat) : Fld := ⟨Reg.GK_TDCFG n, 15, 8⟩
def Fd.GK_TDCFG_THROTTLE (n : Nat) : Fld := ⟨Reg.GK_TDCFG n, 7, 0⟩

/-- CLK_OP: Operating point (R430). -/
def Reg.CLK_OP : Nat := 0x200000
def Fd.CLK_OP_BUSY : Fld := ⟨Reg.CLK_OP, 31, 31⟩
def Fd.CLK_OP_CEIL : Fld := ⟨Reg.CLK_OP, 26, 24⟩
def Fd.CLK_OP_CUR : Fld := ⟨Reg.CLK_OP, 18, 16⟩
def Fd.CLK_OP_MAX : Fld := ⟨Reg.CLK_OP, 10, 8⟩
def Fd.CLK_OP_REQ : Fld := ⟨Reg.CLK_OP, 2, 0⟩

/-- CLK_AVS_CMD: AVSBus command (R430). -/
def Reg.CLK_AVS_CMD : Nat := 0x200004
def Fd.CLK_AVS_CMD_GO : Fld := ⟨Reg.CLK_AVS_CMD, 31, 31⟩
def Fd.CLK_AVS_CMD_READ : Fld := ⟨Reg.CLK_AVS_CMD, 30, 30⟩
def Fd.CLK_AVS_CMD_CMD : Fld := ⟨Reg.CLK_AVS_CMD, 27, 24⟩
def Fd.CLK_AVS_CMD_DATA : Fld := ⟨Reg.CLK_AVS_CMD, 15, 0⟩

/-- CLK_AVS_STAT: AVSBus status (R430). -/
def Reg.CLK_AVS_STAT : Nat := 0x200008
def Fd.CLK_AVS_STAT_BUSY : Fld := ⟨Reg.CLK_AVS_STAT, 31, 31⟩
def Fd.CLK_AVS_STAT_HELD : Fld := ⟨Reg.CLK_AVS_STAT, 30, 30⟩
def Fd.CLK_AVS_STAT_ERR : Fld := ⟨Reg.CLK_AVS_STAT, 29, 29⟩
def Fd.CLK_AVS_STAT_DATA : Fld := ⟨Reg.CLK_AVS_STAT, 15, 0⟩

/-- DMC_Cx_CFG: Detected configuration (R455). -/
def Reg.DMC_C_CFG (n : Nat) : Nat := 0x2400000 + 0x10000 * n
def Fd.DMC_C_CFG_POP (n : Nat) : Fld := ⟨Reg.DMC_C_CFG n, 31, 31⟩
def Fd.DMC_C_CFG_WIDTH (n : Nat) : Fld := ⟨Reg.DMC_C_CFG n, 23, 22⟩
def Fd.DMC_C_CFG_DENS (n : Nat) : Fld := ⟨Reg.DMC_C_CFG n, 21, 19⟩
def Fd.DMC_C_CFG_SIZE (n : Nat) : Fld := ⟨Reg.DMC_C_CFG n, 15, 0⟩

/-- DMC_Cx_STATE: Controller state (R455). -/
def Reg.DMC_C_STATE (n : Nat) : Nat := 0x2400004 + 0x10000 * n
def Fd.DMC_C_STATE_STATE (n : Nat) : Fld := ⟨Reg.DMC_C_STATE n, 31, 28⟩
def Fd.DMC_C_STATE_CANCELS (n : Nat) : Fld := ⟨Reg.DMC_C_STATE n, 23, 16⟩

/-- DMC_Cx_TRAIN: Last training result (R455). -/
def Reg.DMC_C_TRAIN (n : Nat) : Nat := 0x2400008 + 0x10000 * n
def Fd.DMC_C_TRAIN_RESULT (n : Nat) : Fld := ⟨Reg.DMC_C_TRAIN n, 31, 30⟩
def Fd.DMC_C_TRAIN_TRIES (n : Nat) : Fld := ⟨Reg.DMC_C_TRAIN n, 29, 28⟩
def Fd.DMC_C_TRAIN_LANE (n : Nat) : Fld := ⟨Reg.DMC_C_TRAIN n, 19, 16⟩
def Fd.DMC_C_TRAIN_REYE (n : Nat) : Fld := ⟨Reg.DMC_C_TRAIN n, 15, 8⟩
def Fd.DMC_C_TRAIN_WEYE (n : Nat) : Fld := ⟨Reg.DMC_C_TRAIN n, 7, 0⟩

/-- DMC_Cx_SCHED: Scheduling controls (R455). -/
def Reg.DMC_C_SCHED (n : Nat) : Nat := 0x240000C + 0x10000 * n
def Fd.DMC_C_SCHED_HITCAP (n : Nat) : Fld := ⟨Reg.DMC_C_SCHED n, 31, 27⟩
def Fd.DMC_C_SCHED_STARVE (n : Nat) : Fld := ⟨Reg.DMC_C_SCHED n, 26, 16⟩
def Fd.DMC_C_SCHED_WHI (n : Nat) : Fld := ⟨Reg.DMC_C_SCHED n, 13, 8⟩
def Fd.DMC_C_SCHED_WLO (n : Nat) : Fld := ⟨Reg.DMC_C_SCHED n, 5, 0⟩

/-- DMC_Cx_REFRESH: Refresh state (R455). -/
def Reg.DMC_C_REFRESH (n : Nat) : Nat := 0x2400010 + 0x10000 * n
def Fd.DMC_C_REFRESH_RATE2X (n : Nat) : Fld := ⟨Reg.DMC_C_REFRESH n, 31, 31⟩
def Fd.DMC_C_REFRESH_FORCED (n : Nat) : Fld := ⟨Reg.DMC_C_REFRESH n, 23, 16⟩
def Fd.DMC_C_REFRESH_MAXPOST (n : Nat) : Fld := ⟨Reg.DMC_C_REFRESH n, 15, 8⟩

/-- DMC_Cx_ECC: Error counts (R455). -/
def Reg.DMC_C_ECC (n : Nat) : Nat := 0x2400014 + 0x10000 * n
def Fd.DMC_C_ECC_UE (n : Nat) : Fld := ⟨Reg.DMC_C_ECC n, 31, 24⟩
def Fd.DMC_C_ECC_CE (n : Nat) : Fld := ⟨Reg.DMC_C_ECC n, 23, 0⟩

/-- DMC_Cx_ECCADDR: Last error (R455). -/
def Reg.DMC_C_ECCADDR (n : Nat) : Nat := 0x2400018 + 0x10000 * n
def Fd.DMC_C_ECCADDR_VALID (n : Nat) : Fld := ⟨Reg.DMC_C_ECCADDR n, 31, 31⟩
def Fd.DMC_C_ECCADDR_UE (n : Nat) : Fld := ⟨Reg.DMC_C_ECCADDR n, 30, 30⟩
def Fd.DMC_C_ECCADDR_LINE (n : Nat) : Fld := ⟨Reg.DMC_C_ECCADDR n, 27, 0⟩

/-- DMC_Cx_HAZ: Hazard counts (R455). -/
def Reg.DMC_C_HAZ (n : Nat) : Nat := 0x240001C + 0x10000 * n
def Fd.DMC_C_HAZ_RAW (n : Nat) : Fld := ⟨Reg.DMC_C_HAZ n, 31, 16⟩
def Fd.DMC_C_HAZ_RMW (n : Nat) : Fld := ⟨Reg.DMC_C_HAZ n, 15, 0⟩

/-- DMC_Cx_LANE[l]: Lane *l* (R455). -/
def Reg.DMC_C_LANE (n k : Nat) : Nat := 0x2400040 + 0x10000 * n + 0x4 * k
def Fd.DMC_C_LANE_RDLY (n k : Nat) : Fld := ⟨Reg.DMC_C_LANE n k, 31, 24⟩
def Fd.DMC_C_LANE_WDLY (n k : Nat) : Fld := ⟨Reg.DMC_C_LANE n k, 23, 16⟩
def Fd.DMC_C_LANE_REYE (n k : Nat) : Fld := ⟨Reg.DMC_C_LANE n k, 15, 8⟩
def Fd.DMC_C_LANE_WEYE (n k : Nat) : Fld := ⟨Reg.DMC_C_LANE n k, 7, 0⟩

/-- DMC_SCRUB: Patrol scrub (R455). -/
def Reg.DMC_SCRUB : Nat := 0x2480000
def Fd.DMC_SCRUB_PASSES : Fld := ⟨Reg.DMC_SCRUB, 31, 16⟩
def Fd.DMC_SCRUB_PERIOD : Fld := ⟨Reg.DMC_SCRUB, 7, 0⟩

/-- DMC_RETIRED: Retired regions (R455). -/
def Reg.DMC_RETIRED : Nat := 0x2480004
def Fd.DMC_RETIRED_COUNT : Fld := ⟨Reg.DMC_RETIRED, 8, 0⟩

/-- SNC_CFG: Detected device (R472). -/
def Reg.SNC_CFG : Nat := 0x2600000
def Fd.SNC_CFG_PRESENT : Fld := ⟨Reg.SNC_CFG, 31, 31⟩
def Fd.SNC_CFG_MARGIN : Fld := ⟨Reg.SNC_CFG, 30, 30⟩
def Fd.SNC_CFG_SIZE : Fld := ⟨Reg.SNC_CFG, 25, 24⟩
def Fd.SNC_CFG_CLK : Fld := ⟨Reg.SNC_CFG, 15, 8⟩

/-- SNC_STATUS: Device activity (R472). -/
def Reg.SNC_STATUS : Nat := 0x2600004
def Fd.SNC_STATUS_BUSY : Fld := ⟨Reg.SNC_STATUS, 31, 31⟩
def Fd.SNC_STATUS_OP : Fld := ⟨Reg.SNC_STATUS, 30, 28⟩
def Fd.SNC_STATUS_QUEUED : Fld := ⟨Reg.SNC_STATUS, 23, 16⟩

/-- SNC_XIP_DETACH: Execute-in-place state (R472). -/
def Reg.SNC_XIP_DETACH : Nat := 0x2600008
def Fd.SNC_XIP_DETACH_DETACH : Fld := ⟨Reg.SNC_XIP_DETACH, 16, 0⟩

/-- SNC_START: Recovery counts from the last start (R472). -/
def Reg.SNC_START : Nat := 0x260000C
def Fd.SNC_START_REERASE : Fld := ⟨Reg.SNC_START, 31, 16⟩
def Fd.SNC_START_SKIPPED : Fld := ⟨Reg.SNC_START, 15, 0⟩

/-- SNC_ERR: Error counts (R472). -/
def Reg.SNC_ERR : Nat := 0x2600010
def Fd.SNC_ERR_SELFBUSY : Fld := ⟨Reg.SNC_ERR, 31, 24⟩
def Fd.SNC_ERR_NOTERASED : Fld := ⟨Reg.SNC_ERR, 23, 16⟩
def Fd.SNC_ERR_VERIFY : Fld := ⟨Reg.SNC_ERR, 15, 8⟩
def Fd.SNC_ERR_DEVICE : Fld := ⟨Reg.SNC_ERR, 7, 0⟩

/-- SNC_OP: Operation (R472). -/
def Reg.SNC_OP : Nat := 0x2600020
def Fd.SNC_OP_GO : Fld := ⟨Reg.SNC_OP, 31, 31⟩
def Fd.SNC_OP_DONE : Fld := ⟨Reg.SNC_OP, 30, 30⟩
def Fd.SNC_OP_RESULT : Fld := ⟨Reg.SNC_OP, 11, 8⟩
def Fd.SNC_OP_ANDOW : Fld := ⟨Reg.SNC_OP, 4, 4⟩
def Fd.SNC_OP_CODE : Fld := ⟨Reg.SNC_OP, 2, 0⟩

/-- SNC_ADDR: Target address (R472). -/
def Reg.SNC_ADDR : Nat := 0x2600024
def Fd.SNC_ADDR_ADDR : Fld := ⟨Reg.SNC_ADDR, 27, 0⟩

/-- SNC_LEN: Length (R472). -/
def Reg.SNC_LEN : Nat := 0x2600028
def Fd.SNC_LEN_LEN : Fld := ⟨Reg.SNC_LEN, 8, 0⟩

/-- SNC_BUF[k]: Program data (R472). -/
def Reg.SNC_BUF (n : Nat) : Nat := 0x2600100 + 0x4 * n
def Fd.SNC_BUF_DATA (n : Nat) : Fld := ⟨Reg.SNC_BUF n, 31, 0⟩

/-- EVR_STAT: Home and fetch state (R493). -/
def Reg.EVR_STAT : Nat := 0x2800000
def Fd.EVR_STAT_FETCH : Fld := ⟨Reg.EVR_STAT, 31, 31⟩
def Fd.EVR_STAT_FOUND : Fld := ⟨Reg.EVR_STAT, 30, 30⟩
def Fd.EVR_STAT_HOME : Fld := ⟨Reg.EVR_STAT, 25, 24⟩
def Fd.EVR_STAT_STAGED : Fld := ⟨Reg.EVR_STAT, 12, 0⟩

/-- EVR_NEWEST: Newest sequence (R493). -/
def Reg.EVR_NEWEST : Nat := 0x2800008
def Fd.EVR_NEWEST_SEQ : Fld := ⟨Reg.EVR_NEWEST, 47, 0⟩

/-- EVR_CURSOR: Record selection (R493). -/
def Reg.EVR_CURSOR : Nat := 0x2800010
def Fd.EVR_CURSOR_AON : Fld := ⟨Reg.EVR_CURSOR, 63, 63⟩
def Fd.EVR_CURSOR_SEQ : Fld := ⟨Reg.EVR_CURSOR, 47, 0⟩

/-- EVR_CMD: Cursor commands (R493). -/
def Reg.EVR_CMD : Nat := 0x2800018
def Fd.EVR_CMD_NEWEST : Fld := ⟨Reg.EVR_CMD, 2, 2⟩
def Fd.EVR_CMD_OLDEST : Fld := ⟨Reg.EVR_CMD, 1, 1⟩
def Fd.EVR_CMD_NEXT : Fld := ⟨Reg.EVR_CMD, 0, 0⟩

/-- EVR_LOST: Lost and suppressed counts (R493). -/
def Reg.EVR_LOST : Nat := 0x280001C
def Fd.EVR_LOST_LOST : Fld := ⟨Reg.EVR_LOST, 31, 16⟩
def Fd.EVR_LOST_SUPPRESSED : Fld := ⟨Reg.EVR_LOST, 15, 0⟩

/-- EVR_WINDOW[k]: Bytes 4*k* to 4*k* + 3 of the record (R493). -/
def Reg.EVR_WINDOW (n : Nat) : Nat := 0x2800040 + 0x4 * n
def Fd.EVR_WINDOW_DATA (n : Nat) : Fld := ⟨Reg.EVR_WINDOW n, 31, 0⟩

/-- HLT_LIFE: Spare and life (R494). -/
def Reg.HLT_LIFE : Nat := 0x2A00000
def Fd.HLT_LIFE_SRC : Fld := ⟨Reg.HLT_LIFE, 31, 30⟩
def Fd.HLT_LIFE_USED : Fld := ⟨Reg.HLT_LIFE, 15, 8⟩
def Fd.HLT_LIFE_SPARE : Fld := ⟨Reg.HLT_LIFE, 7, 0⟩

/-- HLT_CRIT: Critical Warning (R494). -/
def Reg.HLT_CRIT : Nat := 0x2A00004
def Fd.HLT_CRIT_CW : Fld := ⟨Reg.HLT_CRIT, 7, 0⟩

/-- HLT_ALERT: ALERT_N causes (R494). -/
def Reg.HLT_ALERT : Nat := 0x2A00008
def Fd.HLT_ALERT_MASK : Fld := ⟨Reg.HLT_ALERT, 31, 28⟩
def Fd.HLT_ALERT_CRIT : Fld := ⟨Reg.HLT_ALERT, 3, 3⟩
def Fd.HLT_ALERT_LOGMEM : Fld := ⟨Reg.HLT_ALERT, 2, 2⟩
def Fd.HLT_ALERT_CW : Fld := ⟨Reg.HLT_ALERT, 1, 1⟩
def Fd.HLT_ALERT_THERM : Fld := ⟨Reg.HLT_ALERT, 0, 0⟩

/-- TOP_ID: Family, part and stepping (R527). -/
def Reg.TOP_ID : Nat := 0x0
def Fd.TOP_ID_FAMILY : Fld := ⟨Reg.TOP_ID, 31, 24⟩
def Fd.TOP_ID_PART : Fld := ⟨Reg.TOP_ID, 23, 8⟩
def Fd.TOP_ID_STEP : Fld := ⟨Reg.TOP_ID, 7, 0⟩

/-- TOP_CONFIG: Configuration found at the start (R527). -/
def Reg.TOP_CONFIG : Nat := 0x4
def Fd.TOP_CONFIG_MEDIA : Fld := ⟨Reg.TOP_CONFIG, 31, 30⟩
def Fd.TOP_CONFIG_PORTMODE : Fld := ⟨Reg.TOP_CONFIG, 29, 29⟩
def Fd.TOP_CONFIG_CHANNELS : Fld := ⟨Reg.TOP_CONFIG, 26, 20⟩
def Fd.TOP_CONFIG_DRAM : Fld := ⟨Reg.TOP_CONFIG, 19, 13⟩
def Fd.TOP_CONFIG_TOTALVFS : Fld := ⟨Reg.TOP_CONFIG, 9, 0⟩

/-- TOP_FWVER[k]: Running image version (R527). -/
def Reg.TOP_FWVER (n : Nat) : Nat := 0x8 + 0x4 * n
def Fd.TOP_FWVER_ASCII (n : Nat) : Fld := ⟨Reg.TOP_FWVER n, 31, 0⟩

/-- TOP_LOCK: Lock (R527). -/
def Reg.TOP_LOCK : Nat := 0x1C
def Fd.TOP_LOCK_WINRO : Fld := ⟨Reg.TOP_LOCK, 1, 1⟩
def Fd.TOP_LOCK_LOCK : Fld := ⟨Reg.TOP_LOCK, 0, 0⟩

/-- TOP_ERR: Access errors and log memory (R527). -/
def Reg.TOP_ERR : Nat := 0x20
def Fd.TOP_ERR_LOGMEM : Fld := ⟨Reg.TOP_ERR, 31, 31⟩
def Fd.TOP_ERR_DENIED : Fld := ⟨Reg.TOP_ERR, 6, 6⟩
def Fd.TOP_ERR_LOCKED : Fld := ⟨Reg.TOP_ERR, 5, 5⟩
def Fd.TOP_ERR_UNMAPPED : Fld := ⟨Reg.TOP_ERR, 4, 4⟩
def Fd.TOP_ERR_WSIZE : Fld := ⟨Reg.TOP_ERR, 3, 3⟩
def Fd.TOP_ERR_ALIGN : Fld := ⟨Reg.TOP_ERR, 2, 2⟩
def Fd.TOP_ERR_DARK : Fld := ⟨Reg.TOP_ERR, 0, 0⟩

/-- TOP_ERRADDR: First access error (R527). -/
def Reg.TOP_ERRADDR : Nat := 0x24
def Fd.TOP_ERRADDR_VALID : Fld := ⟨Reg.TOP_ERRADDR, 31, 31⟩
def Fd.TOP_ERRADDR_WRITE : Fld := ⟨Reg.TOP_ERRADDR, 30, 30⟩
def Fd.TOP_ERRADDR_PCIE : Fld := ⟨Reg.TOP_ERRADDR, 29, 29⟩
def Fd.TOP_ERRADDR_OFFSET : Fld := ⟨Reg.TOP_ERRADDR, 25, 2⟩

/-- TOP_ERRCNT: Access error counts (R527). -/
def Reg.TOP_ERRCNT : Nat := 0x28
def Fd.TOP_ERRCNT_DARK : Fld := ⟨Reg.TOP_ERRCNT, 31, 16⟩
def Fd.TOP_ERRCNT_OTHER : Fld := ⟨Reg.TOP_ERRCNT, 15, 0⟩

/-- TOP_UID[k]: Device UID (R527). -/
def Reg.TOP_UID (n : Nat) : Nat := 0x30 + 0x4 * n
def Fd.TOP_UID_UID (n : Nat) : Fld := ⟨Reg.TOP_UID n, 31, 0⟩

/-- The registers of the EFT block: base, instance counts and strides, and per field its low bit, width,
access code, reset value and the reset value's step from one instance to the next. -/
def regsEFT : List RegDesc := [
  ⟨0x400000, 8, 0x8000, 1, 0x0, [⟨0, 6, .ro, 0x20, 0x0⟩]⟩,
  ⟨0x400004, 8, 0x8000, 1, 0x0, [⟨16, 16, .rc, 0x0, 0x0⟩, ⟨0, 7, .ro, 0x40, 0x0⟩]⟩,
  ⟨0x400008, 8, 0x8000, 1, 0x0, [⟨0, 32, .rc, 0x0, 0x0⟩]⟩,
  ⟨0x40000C, 8, 0x8000, 1, 0x0, [⟨0, 32, .rc, 0x0, 0x0⟩]⟩,
  ⟨0x400010, 8, 0x8000, 1, 0x0, [⟨0, 32, .rc, 0x0, 0x0⟩]⟩,
  ⟨0x400100, 8, 0x8000, 32, 0x10, [⟨31, 1, .ro, 0x0, 0x0⟩, ⟨29, 2, .ro, 0x0, 0x0⟩, ⟨27, 2, .ro, 0x0, 0x0⟩, ⟨16, 10, .ro, 0x0, 0x0⟩, ⟨15, 1, .ro, 0x0, 0x0⟩, ⟨0, 7, .ro, 0x0, 0x0⟩]⟩,
  ⟨0x400104, 8, 0x8000, 32, 0x10, [⟨0, 32, .ro, 0x0, 0x0⟩]⟩,
  ⟨0x440000, 1, 0x0, 1, 0x0, [⟨8, 4, .rwl, 0x4, 0x0⟩, ⟨2, 1, .rwl, 0x0, 0x0⟩, ⟨1, 1, .rwl, 0x1, 0x0⟩, ⟨0, 1, .rwl, 0x1, 0x0⟩]⟩,
  ⟨0x440004, 1, 0x0, 1, 0x0, [⟨0, 24, .rwl, 0x100000, 0x0⟩]⟩,
  ⟨0x440008, 1, 0x0, 1, 0x0, [⟨0, 9, .ro, 0x0, 0x0⟩]⟩,
  ⟨0x44000C, 1, 0x0, 1, 0x0, [⟨31, 1, .wo, 0x0, 0x0⟩, ⟨5, 3, .wo, 0x0, 0x0⟩, ⟨0, 5, .wo, 0x0, 0x0⟩]⟩,
  ⟨0x440010, 1, 0x0, 1, 0x0, [⟨24, 8, .ro, 0x0, 0x0⟩, ⟨0, 24, .ro, 0xFAC688, 0x0⟩]⟩,
  ⟨0x440020, 8, 0x4, 1, 0x0, [⟨0, 32, .ro, 0x0, 0x0⟩]⟩]

/-- The registers of the XLT block: base, instance counts and strides, and per field its low bit, width,
access code, reset value and the reset value's step from one instance to the next. -/
def regsXLT : List RegDesc := [
  ⟨0x1000000, 1, 0x0, 1, 0x0, [⟨0, 19, .ro, 0x0, 0x0⟩]⟩,
  ⟨0x1000004, 1, 0x0, 1, 0x0, [⟨0, 19, .ro, 0x0, 0x0⟩]⟩,
  ⟨0x1000008, 1, 0x0, 1, 0x0, [⟨0, 19, .ro, 0x0, 0x0⟩]⟩,
  ⟨0x1000010, 4, 0x4, 1, 0x0, [⟨30, 2, .ro, 0x0, 0x0⟩, ⟨0, 17, .ro, 0x0, 0x0⟩]⟩,
  ⟨0x1000020, 4, 0x4, 1, 0x0, [⟨16, 7, .ro, 0x0, 0x0⟩, ⟨0, 16, .ro, 0x0, 0x0⟩]⟩,
  ⟨0x1000030, 1, 0x0, 1, 0x0, [⟨0, 19, .ro, 0x0, 0x0⟩]⟩,
  ⟨0x1000034, 1, 0x0, 1, 0x0, [⟨0, 19, .ro, 0x0, 0x0⟩]⟩,
  ⟨0x1000038, 1, 0x0, 1, 0x0, [⟨31, 1, .ro, 0x0, 0x0⟩, ⟨0, 19, .ro, 0x0, 0x0⟩]⟩,
  ⟨0x1000040, 1, 0x0, 1, 0x0, [⟨26, 6, .ro, 0x0, 0x0⟩, ⟨0, 14, .ro, 0x0, 0x0⟩]⟩,
  ⟨0x1000044, 1, 0x0, 1, 0x0, [⟨0, 11, .rwl, 0x200, 0x0⟩]⟩,
  ⟨0x1000048, 1, 0x0, 1, 0x0, [⟨30, 2, .ro, 0x0, 0x0⟩, ⟨0, 20, .ro, 0x0, 0x0⟩]⟩,
  ⟨0x1000050, 1, 0x0, 1, 0x0, [⟨24, 8, .ro, 0x0, 0x0⟩, ⟨16, 8, .ro, 0x0, 0x0⟩, ⟨8, 8, .ro, 0x0, 0x0⟩, ⟨0, 8, .ro, 0x0, 0x0⟩]⟩,
  ⟨0x1000054, 1, 0x0, 1, 0x0, [⟨0, 6, .rwl, 0x8, 0x0⟩]⟩,
  ⟨0x1000060, 1, 0x0, 1, 0x0, [⟨31, 1, .rwl, 0x1, 0x0⟩, ⟨0, 16, .ro, 0x0, 0x0⟩]⟩,
  ⟨0x1000064, 1, 0x0, 1, 0x0, [⟨16, 16, .ro, 0x0, 0x0⟩, ⟨0, 16, .ro, 0x0, 0x0⟩]⟩,
  ⟨0x1000070, 1, 0x0, 1, 0x0, [⟨25, 7, .ro, 0x0, 0x0⟩, ⟨24, 1, .ro, 0x0, 0x0⟩, ⟨0, 16, .ro, 0x0, 0x0⟩]⟩,
  ⟨0x1000074, 1, 0x0, 1, 0x0, [⟨16, 16, .ro, 0x0, 0x0⟩, ⟨0, 16, .ro, 0x0, 0x0⟩]⟩]

/-- The registers of the MED block: base, instance counts and strides, and per field its low bit, width,
access code, reset value and the reset value's step from one instance to the next. -/
def regsMED : List RegDesc := [
  ⟨0x800000, 64, 0x4000, 1, 0x0, [⟨28, 4, .ro, 0x0, 0x0⟩, ⟨24, 4, .ro, 0x0, 0x0⟩, ⟨22, 2, .ro, 0x0, 0x0⟩, ⟨8, 7, .ro, 0x0, 0x0⟩, ⟨0, 6, .ro, 0x0, 0x0⟩]⟩,
  ⟨0x800004, 64, 0x4000, 1, 0x0, [⟨0, 32, .ro, 0x0, 0x0⟩]⟩,
  ⟨0x800008, 64, 0x4000, 1, 0x0, [⟨0, 32, .ro, 0x0, 0x0⟩]⟩,
  ⟨0x80000C, 64, 0x4000, 1, 0x0, [⟨24, 8, .rc, 0x0, 0x0⟩, ⟨16, 8, .rc, 0x0, 0x0⟩, ⟨8, 8, .rc, 0x0, 0x0⟩, ⟨0, 8, .rc, 0x0, 0x0⟩]⟩,
  ⟨0x800010, 64, 0x4000, 1, 0x0, [⟨24, 8, .rc, 0x0, 0x0⟩, ⟨16, 8, .rc, 0x0, 0x0⟩, ⟨8, 8, .rc, 0x0, 0x0⟩, ⟨0, 8, .rc, 0x0, 0x0⟩]⟩,
  ⟨0x800014, 64, 0x4000, 1, 0x0, [⟨16, 16, .ro, 0x0, 0x0⟩, ⟨8, 8, .ro, 0x0, 0x0⟩, ⟨0, 8, .ro, 0x0, 0x0⟩]⟩,
  ⟨0xC00000, 1, 0x0, 1, 0x0, [⟨24, 4, .rwl, 0x8, 0x0⟩, ⟨20, 4, .rwl, 0x5, 0x0⟩, ⟨18, 2, .rwl, 0x2, 0x0⟩, ⟨17, 1, .rwl, 0x1, 0x0⟩, ⟨16, 1, .rwl, 0x1, 0x0⟩, ⟨8, 8, .rwl, 0x20, 0x0⟩, ⟨0, 8, .rwl, 0x40, 0x0⟩]⟩,
  ⟨0xC00004, 1, 0x0, 1, 0x0, [⟨31, 1, .ro, 0x0, 0x0⟩, ⟨22, 7, .rwl, 0x10, 0x0⟩, ⟨0, 22, .ro, 0x0, 0x0⟩]⟩,
  ⟨0xC00008, 1, 0x0, 1, 0x0, [⟨0, 32, .ro, 0x0, 0x0⟩]⟩,
  ⟨0xC0000C, 1, 0x0, 1, 0x0, [⟨0, 32, .ro, 0x0, 0x0⟩]⟩,
  ⟨0xC00010, 4, 0x4, 1, 0x0, [⟨0, 19, .ro, 0x0, 0x0⟩]⟩]

/-- The registers of the CHO block: base, instance counts and strides, and per field its low bit, width,
access code, reset value and the reset value's step from one instance to the next. -/
def regsCHO : List RegDesc := [
  ⟨0x1200000, 1, 0x0, 1, 0x0, [⟨31, 1, .ro, 0x0, 0x0⟩, ⟨30, 1, .w1s, 0x0, 0x0⟩, ⟨8, 2, .rwl, 0x0, 0x0⟩, ⟨4, 2, .rwl, 0x0, 0x0⟩, ⟨2, 1, .rwl, 0x0, 0x0⟩, ⟨0, 2, .rwl, 0x0, 0x0⟩]⟩,
  ⟨0x1200004, 1, 0x0, 1, 0x0, [⟨0, 2, .rwl, 0x1, 0x0⟩]⟩,
  ⟨0x1200008, 1, 0x0, 1, 0x0, [⟨0, 8, .rwl, 0x0, 0x0⟩]⟩,
  ⟨0x1200010, 4, 0x4, 1, 0x0, [⟨16, 8, .rwl, 0x40, 0x0⟩, ⟨0, 8, .rwl, 0x0, 0x40⟩]⟩,
  ⟨0x1200020, 1, 0x0, 1, 0x0, [⟨8, 24, .ro, 0x0, 0x0⟩, ⟨0, 8, .ro, 0x0, 0x0⟩]⟩,
  ⟨0x1200024, 1, 0x0, 1, 0x0, [⟨0, 32, .ro, 0x0, 0x0⟩]⟩,
  ⟨0x1200028, 1, 0x0, 1, 0x0, [⟨29, 3, .ro, 0x0, 0x0⟩, ⟨27, 2, .ro, 0x0, 0x0⟩, ⟨26, 1, .ro, 0x0, 0x0⟩, ⟨25, 1, .ro, 0x0, 0x0⟩, ⟨20, 4, .ro, 0x0, 0x0⟩, ⟨8, 12, .ro, 0x0, 0x0⟩, ⟨0, 8, .ro, 0x0, 0x0⟩]⟩,
  ⟨0x1200030, 1, 0x0, 1, 0x0, [⟨16, 12, .ro, 0x0, 0x0⟩, ⟨0, 12, .rwl, 0x180, 0x0⟩]⟩,
  ⟨0x1200034, 1, 0x0, 1, 0x0, [⟨24, 8, .rwl, 0xA, 0x0⟩, ⟨0, 16, .rwl, 0xFA0, 0x0⟩]⟩,
  ⟨0x1200038, 1, 0x0, 1, 0x0, [⟨16, 16, .ro, 0x0, 0x0⟩, ⟨0, 16, .ro, 0x0, 0x0⟩]⟩,
  ⟨0x120003C, 1, 0x0, 1, 0x0, [⟨24, 8, .rc, 0x0, 0x0⟩, ⟨16, 8, .rc, 0x0, 0x0⟩, ⟨8, 8, .rc, 0x0, 0x0⟩, ⟨0, 8, .rc, 0x0, 0x0⟩]⟩]

/-- The registers of the DZL block: base, instance counts and strides, and per field its low bit, width,
access code, reset value and the reset value's step from one instance to the next. -/
def regsDZL : List RegDesc := [
  ⟨0x1400000, 1, 0x0, 1, 0x0, [⟨31, 1, .ro, 0x0, 0x0⟩, ⟨30, 1, .ro, 0x0, 0x0⟩, ⟨0, 10, .ro, 0x0, 0x0⟩]⟩,
  ⟨0x1400004, 1, 0x0, 1, 0x0, [⟨0, 16, .ro, 0x0, 0x0⟩]⟩,
  ⟨0x1400008, 1, 0x0, 1, 0x0, [⟨8, 5, .ro, 0x0, 0x0⟩, ⟨0, 5, .ro, 0x0, 0x0⟩]⟩,
  ⟨0x140000C, 1, 0x0, 1, 0x0, [⟨8, 12, .rwl, 0x1F4, 0x0⟩, ⟨4, 1, .rwl, 0x0, 0x0⟩, ⟨0, 4, .rwl, 0xF, 0x0⟩]⟩,
  ⟨0x1400010, 1, 0x0, 1, 0x0, [⟨30, 2, .ro, 0x0, 0x0⟩, ⟨24, 6, .ro, 0x0, 0x0⟩, ⟨22, 2, .ro, 0x0, 0x0⟩, ⟨21, 1, .ro, 0x0, 0x0⟩, ⟨20, 1, .ro, 0x0, 0x0⟩, ⟨0, 10, .ro, 0x0, 0x0⟩]⟩,
  ⟨0x1400014, 1, 0x0, 1, 0x0, [⟨19, 13, .ro, 0x0, 0x0⟩, ⟨8, 11, .ro, 0x0, 0x0⟩]⟩,
  ⟨0x1400100, 4, 0x40, 1, 0x0, [⟨28, 4, .ro, 0x0, 0x0⟩, ⟨16, 10, .ro, 0x0, 0x0⟩, ⟨15, 1, .ro, 0x0, 0x0⟩, ⟨0, 2, .ro, 0x0, 0x0⟩]⟩,
  ⟨0x1400104, 4, 0x40, 1, 0x0, [⟨0, 20, .ro, 0x0, 0x0⟩]⟩,
  ⟨0x1400108, 4, 0x40, 1, 0x0, [⟨24, 8, .rc, 0x0, 0x0⟩, ⟨16, 8, .rc, 0x0, 0x0⟩, ⟨8, 8, .rc, 0x0, 0x0⟩, ⟨0, 8, .rc, 0x0, 0x0⟩]⟩,
  ⟨0x1400200, 32, 0x4, 1, 0x0, [⟨0, 32, .ro, 0x0, 0x0⟩]⟩]

/-- The registers of the VFM block: base, instance counts and strides, and per field its low bit, width,
access code, reset value and the reset value's step from one instance to the next. -/
def regsVFM : List RegDesc := [
  ⟨0x1800000, 1024, 0x400, 1, 0x0, [⟨31, 1, .ro, 0x0, 0x0⟩, ⟨30, 1, .ro, 0x0, 0x0⟩, ⟨28, 2, .ro, 0x0, 0x0⟩, ⟨27, 1, .ro, 0x0, 0x0⟩, ⟨0, 8, .ro, 0x0, 0x0⟩]⟩,
  ⟨0x1800004, 1024, 0x400, 1, 0x0, [⟨16, 9, .ro, 0x0, 0x0⟩, ⟨0, 9, .ro, 0x0, 0x0⟩]⟩,
  ⟨0x1800008, 1024, 0x400, 1, 0x0, [⟨16, 14, .ro, 0x0, 0x0⟩, ⟨0, 14, .ro, 0x0, 0x0⟩]⟩,
  ⟨0x180000C, 1024, 0x400, 1, 0x0, [⟨16, 13, .ro, 0x0, 0x0⟩, ⟨0, 14, .ro, 0x0, 0x0⟩]⟩,
  ⟨0x1800010, 1024, 0x400, 1, 0x0, [⟨16, 8, .ro, 0x0, 0x0⟩, ⟨8, 8, .ro, 0x0, 0x0⟩, ⟨0, 8, .ro, 0x0, 0x0⟩]⟩,
  ⟨0x1800014, 1024, 0x400, 1, 0x0, [⟨16, 16, .ro, 0x0, 0x0⟩, ⟨0, 16, .ro, 0x0, 0x0⟩]⟩,
  ⟨0x1800018, 1024, 0x400, 1, 0x0, [⟨16, 16, .ro, 0x0, 0x0⟩, ⟨0, 16, .ro, 0x0, 0x0⟩]⟩,
  ⟨0x180001C, 1024, 0x400, 1, 0x0, [⟨16, 16, .ro, 0x0, 0x0⟩, ⟨0, 16, .ro, 0x0, 0x0⟩]⟩,
  ⟨0x1800020, 1024, 0x400, 1, 0x0, [⟨0, 19, .ro, 0x0, 0x0⟩]⟩,
  ⟨0x1800024, 1024, 0x400, 1, 0x0, [⟨0, 19, .ro, 0x0, 0x0⟩]⟩,
  ⟨0x1800028, 1024, 0x400, 1, 0x0, [⟨0, 20, .ro, 0x0, 0x0⟩]⟩,
  ⟨0x180002C, 1024, 0x400, 1, 0x0, [⟨0, 20, .ro, 0x0, 0x0⟩]⟩,
  ⟨0x1800030, 1024, 0x400, 1, 0x0, [⟨16, 3, .ro, 0x0, 0x0⟩, ⟨0, 10, .ro, 0x0, 0x0⟩]⟩,
  ⟨0x1800034, 1024, 0x400, 1, 0x0, [⟨0, 32, .ro, 0x0, 0x0⟩]⟩,
  ⟨0x1800038, 1024, 0x400, 1, 0x0, [⟨0, 32, .ro, 0x0, 0x0⟩]⟩,
  ⟨0x1900000, 1, 0x0, 1, 0x0, [⟨0, 15, .ro, 0x0, 0x0⟩]⟩,
  ⟨0x1900004, 1, 0x0, 1, 0x0, [⟨16, 15, .ro, 0x0, 0x0⟩, ⟨0, 15, .ro, 0x0, 0x0⟩]⟩,
  ⟨0x1900008, 1, 0x0, 1, 0x0, [⟨0, 20, .rwl, 0x9C40, 0x0⟩]⟩,
  ⟨0x190000C, 1, 0x0, 1, 0x0, [⟨0, 20, .ro, 0x0, 0x0⟩]⟩,
  ⟨0x1900010, 1, 0x0, 1, 0x0, [⟨16, 11, .ro, 0x0, 0x0⟩, ⟨0, 11, .ro, 0x0, 0x0⟩]⟩]

/-- The registers of the SEC block: base, instance counts and strides, and per field its low bit, width,
access code, reset value and the reset value's step from one instance to the next. -/
def regsSEC : List RegDesc := [
  ⟨0x2000000, 1, 0x0, 1, 0x0, [⟨29, 3, .ro, 0x0, 0x0⟩, ⟨26, 3, .ro, 0x0, 0x0⟩, ⟨3, 2, .ro, 0x0, 0x0⟩, ⟨2, 1, .ro, 0x0, 0x0⟩]⟩,
  ⟨0x2000004, 1, 0x0, 1, 0x0, [⟨31, 1, .ro, 0x0, 0x0⟩, ⟨30, 1, .ro, 0x0, 0x0⟩, ⟨22, 2, .ro, 0x0, 0x0⟩, ⟨20, 2, .ro, 0x0, 0x0⟩, ⟨16, 1, .rc, 0x0, 0x0⟩, ⟨0, 3, .ro, 0x0, 0x0⟩]⟩,
  ⟨0x2000008, 1, 0x0, 1, 0x0, [⟨2, 10, .rw, 0x0, 0x0⟩]⟩,
  ⟨0x200000C, 1, 0x0, 1, 0x0, [⟨0, 32, .ro, 0x0, 0x0⟩]⟩,
  ⟨0x2000010, 1, 0x0, 1, 0x0, [⟨31, 1, .w1c, 0x0, 0x0⟩, ⟨30, 1, .w1c, 0x0, 0x0⟩, ⟨29, 1, .w1c, 0x0, 0x0⟩, ⟨28, 1, .w1c, 0x0, 0x0⟩, ⟨27, 1, .w1c, 0x0, 0x0⟩, ⟨26, 1, .w1c, 0x0, 0x0⟩, ⟨0, 8, .ro, 0x0, 0x0⟩]⟩,
  ⟨0x2000014, 1, 0x0, 1, 0x0, [⟨16, 8, .ro, 0x0, 0x0⟩, ⟨8, 4, .ro, 0x0, 0x0⟩, ⟨4, 4, .ro, 0x0, 0x0⟩, ⟨0, 2, .ro, 0x0, 0x0⟩]⟩,
  ⟨0x2000018, 1, 0x0, 1, 0x0, [⟨31, 1, .ro, 0x0, 0x0⟩, ⟨30, 1, .ro, 0x0, 0x0⟩, ⟨8, 4, .ro, 0x0, 0x0⟩, ⟨4, 4, .ro, 0x0, 0x0⟩, ⟨0, 2, .ro, 0x0, 0x0⟩]⟩,
  ⟨0x2000020, 1, 0x0, 1, 0x0, [⟨0, 32, .ro, 0x0, 0x0⟩]⟩,
  ⟨0x2000024, 1, 0x0, 1, 0x0, [⟨0, 8, .ro, 0x0, 0x0⟩]⟩,
  ⟨0x2000028, 1, 0x0, 1, 0x0, [⟨0, 32, .ro, 0x0, 0x0⟩]⟩,
  ⟨0x200002C, 1, 0x0, 1, 0x0, [⟨0, 8, .ro, 0x0, 0x0⟩]⟩,
  ⟨0x2000030, 1, 0x0, 1, 0x0, [⟨31, 1, .ro, 0x0, 0x0⟩, ⟨30, 1, .ro, 0x0, 0x0⟩, ⟨0, 16, .ro, 0x0, 0x0⟩]⟩,
  ⟨0x2000034, 1, 0x0, 1, 0x0, [⟨0, 32, .ro, 0x0, 0x0⟩]⟩,
  ⟨0x2000100, 1, 0x0, 1, 0x0, [⟨21, 11, .ro, 0x0, 0x0⟩, ⟨20, 1, .ro, 0x0, 0x0⟩, ⟨6, 2, .rw, 0x0, 0x0⟩, ⟨4, 1, .wo, 0x0, 0x0⟩, ⟨3, 1, .wo, 0x0, 0x0⟩, ⟨2, 1, .wo, 0x0, 0x0⟩, ⟨1, 1, .wo, 0x0, 0x0⟩]⟩,
  ⟨0x2000104, 1, 0x0, 1, 0x0, [⟨16, 14, .rw, 0x0, 0x0⟩, ⟨0, 14, .rw, 0x0, 0x0⟩]⟩,
  ⟨0x2000108, 1, 0x0, 1, 0x0, [⟨0, 21, .rw, 0x0, 0x0⟩]⟩,
  ⟨0x200010C, 1, 0x0, 1, 0x0, [⟨0, 32, .wo, 0x0, 0x0⟩]⟩,
  ⟨0x2000110, 1, 0x0, 1, 0x0, [⟨31, 1, .ro, 0x0, 0x0⟩, ⟨30, 1, .ro, 0x0, 0x0⟩, ⟨0, 4, .ro, 0x0, 0x0⟩]⟩,
  ⟨0x2000120, 4, 0x4, 1, 0x0, [⟨0, 32, .ro, 0x0, 0x0⟩]⟩,
  ⟨0x2000200, 1, 0x0, 1, 0x0, [⟨0, 14, .rw, 0x0, 0x0⟩]⟩,
  ⟨0x2000204, 1, 0x0, 1, 0x0, [⟨31, 1, .ro, 0x0, 0x0⟩, ⟨29, 2, .ro, 0x0, 0x0⟩, ⟨26, 3, .ro, 0x0, 0x0⟩, ⟨0, 11, .ro, 0x0, 0x0⟩]⟩,
  ⟨0x2000208, 1, 0x0, 1, 0x0, [⟨0, 3, .wo, 0x0, 0x0⟩]⟩,
  ⟨0x2001000, 8, 0x100, 1, 0x0, [⟨21, 11, .ro, 0x0, 0x0⟩, ⟨20, 1, .ro, 0x0, 0x0⟩, ⟨10, 2, .rw, 0x0, 0x0⟩, ⟨8, 2, .rw, 0x0, 0x0⟩, ⟨4, 2, .wo, 0x0, 0x0⟩, ⟨3, 1, .wo, 0x0, 0x0⟩, ⟨2, 1, .wo, 0x0, 0x0⟩, ⟨1, 1, .wo, 0x0, 0x0⟩]⟩,
  ⟨0x2001004, 8, 0x100, 1, 0x0, [⟨31, 1, .ro, 0x0, 0x0⟩, ⟨30, 1, .ro, 0x0, 0x0⟩, ⟨29, 1, .w1c, 0x0, 0x0⟩, ⟨28, 1, .w1c, 0x0, 0x0⟩]⟩,
  ⟨0x2001008, 8, 0x100, 1, 0x0, [⟨0, 32, .wo, 0x0, 0x0⟩]⟩,
  ⟨0x2001040, 8, 0x100, 16, 0x4, [⟨0, 32, .ro, 0x0, 0x0⟩]⟩]

/-- The registers of the TOP block: base, instance counts and strides, and per field its low bit, width,
access code, reset value and the reset value's step from one instance to the next. -/
def regsTOP : List RegDesc := [
  ⟨0x10, 1, 0x0, 1, 0x0, [⟨31, 1, .ro, 0x0, 0x0⟩, ⟨24, 3, .ro, 0x0, 0x0⟩, ⟨20, 2, .ro, 0x0, 0x0⟩, ⟨16, 3, .ro, 0x0, 0x0⟩, ⟨8, 4, .ro, 0x0, 0x0⟩, ⟨4, 4, .ro, 0x0, 0x0⟩, ⟨0, 4, .ro, 0x2, 0x0⟩]⟩,
  ⟨0x14, 1, 0x0, 1, 0x0, [⟨29, 3, .ro, 0x0, 0x0⟩, ⟨28, 1, .ro, 0x0, 0x0⟩, ⟨27, 1, .w1c, 0x0, 0x0⟩, ⟨25, 2, .ro, 0x0, 0x0⟩, ⟨20, 4, .ro, 0x0, 0x0⟩, ⟨10, 2, .ro, 0x0, 0x0⟩, ⟨8, 2, .ro, 0x0, 0x0⟩, ⟨0, 2, .ro, 0x0, 0x0⟩]⟩,
  ⟨0x18, 1, 0x0, 1, 0x0, [⟨28, 4, .ro, 0x0, 0x0⟩, ⟨26, 2, .ro, 0x0, 0x0⟩, ⟨25, 1, .ro, 0x0, 0x0⟩, ⟨24, 1, .ro, 0x0, 0x0⟩, ⟨23, 1, .ro, 0x0, 0x0⟩, ⟨22, 1, .ro, 0x0, 0x0⟩, ⟨21, 1, .ro, 0x0, 0x0⟩, ⟨16, 4, .ro, 0x0, 0x0⟩, ⟨0, 16, .ro, 0x0, 0x0⟩]⟩,
  ⟨0x0, 1, 0x0, 1, 0x0, [⟨24, 8, .ro, 0x4C, 0x0⟩, ⟨8, 16, .ro, 0x1024, 0x0⟩, ⟨0, 8, .ro, 0xB1, 0x0⟩]⟩,
  ⟨0x4, 1, 0x0, 1, 0x0, [⟨30, 2, .ro, 0x0, 0x0⟩, ⟨29, 1, .ro, 0x0, 0x0⟩, ⟨20, 7, .ro, 0x0, 0x0⟩, ⟨13, 7, .ro, 0x0, 0x0⟩, ⟨0, 10, .ro, 0x0, 0x0⟩]⟩,
  ⟨0x8, 2, 0x4, 1, 0x0, [⟨0, 32, .ro, 0x0, 0x0⟩]⟩,
  ⟨0x1C, 1, 0x0, 1, 0x0, [⟨1, 1, .w1s, 0x0, 0x0⟩, ⟨0, 1, .w1s, 0x0, 0x0⟩]⟩,
  ⟨0x20, 1, 0x0, 1, 0x0, [⟨31, 1, .ro, 0x0, 0x0⟩, ⟨6, 1, .w1c, 0x0, 0x0⟩, ⟨5, 1, .w1c, 0x0, 0x0⟩, ⟨4, 1, .w1c, 0x0, 0x0⟩, ⟨3, 1, .w1c, 0x0, 0x0⟩, ⟨2, 1, .w1c, 0x0, 0x0⟩, ⟨0, 1, .w1c, 0x0, 0x0⟩]⟩,
  ⟨0x24, 1, 0x0, 1, 0x0, [⟨31, 1, .w1c, 0x0, 0x0⟩, ⟨30, 1, .ro, 0x0, 0x0⟩, ⟨29, 1, .ro, 0x0, 0x0⟩, ⟨2, 24, .ro, 0x0, 0x0⟩]⟩,
  ⟨0x28, 1, 0x0, 1, 0x0, [⟨16, 16, .rc, 0x0, 0x0⟩, ⟨0, 16, .rc, 0x0, 0x0⟩]⟩,
  ⟨0x30, 4, 0x4, 1, 0x0, [⟨0, 32, .ro, 0x0, 0x0⟩]⟩]

/-- The registers of the GK block: base, instance counts and strides, and per field its low bit, width,
access code, reset value and the reset value's step from one instance to the next. -/
def regsGK : List RegDesc := [
  ⟨0x100000, 1, 0x0, 1, 0x0, [⟨0, 3, .rw, 0x0, 0x0⟩]⟩,
  ⟨0x100004, 1, 0x0, 1, 0x0, [⟨29, 3, .ro, 0x0, 0x0⟩, ⟨26, 3, .ro, 0x0, 0x0⟩, ⟨16, 8, .rc, 0x0, 0x0⟩, ⟨8, 3, .ro, 0x0, 0x0⟩]⟩,
  ⟨0x100008, 1, 0x0, 1, 0x0, [⟨28, 4, .ro, 0x0, 0x0⟩, ⟨0, 7, .w1c, 0x0, 0x0⟩]⟩,
  ⟨0x10000C, 1, 0x0, 1, 0x0, [⟨31, 1, .ro, 0x0, 0x0⟩, ⟨24, 7, .rc, 0x0, 0x0⟩, ⟨8, 8, .rwl, 0x18, 0x0⟩, ⟨0, 7, .rwl, 0x7F, 0x0⟩]⟩,
  ⟨0x100010, 1, 0x0, 1, 0x0, [⟨0, 16, .rwl, 0xFFFF, 0x0⟩]⟩,
  ⟨0x100014, 1, 0x0, 1, 0x0, [⟨0, 16, .w1c, 0x0, 0x0⟩]⟩,
  ⟨0x100040, 16, 0x4, 1, 0x0, [⟨0, 32, .ro, 0x0, 0x0⟩]⟩,
  ⟨0x100100, 24, 0x4, 1, 0x0, [⟨31, 1, .ro, 0x0, 0x0⟩, ⟨30, 1, .ro, 0x0, 0x0⟩, ⟨29, 1, .ro, 0x0, 0x0⟩, ⟨24, 2, .ro, 0x0, 0x0⟩, ⟨8, 8, .ro, 0x0, 0x0⟩, ⟨0, 8, .ro, 0x0, 0x0⟩]⟩,
  ⟨0x100180, 1, 0x0, 1, 0x0, [⟨31, 1, .ro, 0x0, 0x0⟩, ⟨28, 3, .ro, 0x0, 0x0⟩, ⟨26, 2, .ro, 0x0, 0x0⟩, ⟨16, 8, .ro, 0x0, 0x0⟩, ⟨8, 8, .ro, 0x0, 0x0⟩, ⟨0, 8, .ro, 0x0, 0x0⟩]⟩,
  ⟨0x100184, 1, 0x0, 1, 0x0, [⟨31, 1, .rwl, 0x1, 0x0⟩, ⟨0, 8, .rwl, 0xA, 0x0⟩]⟩,
  ⟨0x1001A0, 8, 0x4, 1, 0x0, [⟨30, 2, .rwl, 0x0, 0x0⟩, ⟨23, 5, .rwl, 0x1F, 0x0⟩, ⟨18, 5, .rwl, 0x1F, 0x0⟩, ⟨8, 8, .rwl, 0x58, 0x0⟩, ⟨0, 8, .rwl, 0x50, 0x0⟩]⟩]

/-- The registers of the CLK block: base, instance counts and strides, and per field its low bit, width,
access code, reset value and the reset value's step from one instance to the next. -/
def regsCLK : List RegDesc := [
  ⟨0x200000, 1, 0x0, 1, 0x0, [⟨31, 1, .ro, 0x0, 0x0⟩, ⟨24, 3, .ro, 0x5, 0x0⟩, ⟨16, 3, .ro, 0x4, 0x0⟩, ⟨8, 3, .rwl, 0x5, 0x0⟩, ⟨0, 3, .rw, 0x4, 0x0⟩]⟩,
  ⟨0x200004, 1, 0x0, 1, 0x0, [⟨31, 1, .wo, 0x0, 0x0⟩, ⟨30, 1, .wo, 0x0, 0x0⟩, ⟨24, 4, .wo, 0x0, 0x0⟩, ⟨0, 16, .wo, 0x0, 0x0⟩]⟩,
  ⟨0x200008, 1, 0x0, 1, 0x0, [⟨31, 1, .ro, 0x0, 0x0⟩, ⟨30, 1, .ro, 0x0, 0x0⟩, ⟨29, 1, .w1c, 0x0, 0x0⟩, ⟨0, 16, .ro, 0x0, 0x0⟩]⟩]

/-- The registers of the DMC block: base, instance counts and strides, and per field its low bit, width,
access code, reset value and the reset value's step from one instance to the next. -/
def regsDMC : List RegDesc := [
  ⟨0x2400000, 4, 0x10000, 1, 0x0, [⟨31, 1, .ro, 0x0, 0x0⟩, ⟨22, 2, .ro, 0x0, 0x0⟩, ⟨19, 3, .ro, 0x0, 0x0⟩, ⟨0, 16, .ro, 0x0, 0x0⟩]⟩,
  ⟨0x2400004, 4, 0x10000, 1, 0x0, [⟨28, 4, .ro, 0x0, 0x0⟩, ⟨16, 8, .rc, 0x0, 0x0⟩]⟩,
  ⟨0x2400008, 4, 0x10000, 1, 0x0, [⟨30, 2, .ro, 0x0, 0x0⟩, ⟨28, 2, .ro, 0x0, 0x0⟩, ⟨16, 4, .ro, 0x0, 0x0⟩, ⟨8, 8, .ro, 0x0, 0x0⟩, ⟨0, 8, .ro, 0x0, 0x0⟩]⟩,
  ⟨0x240000C, 4, 0x10000, 1, 0x0, [⟨27, 5, .rwl, 0x10, 0x0⟩, ⟨16, 11, .rwl, 0xC8, 0x0⟩, ⟨8, 6, .rwl, 0x30, 0x0⟩, ⟨0, 6, .rwl, 0x10, 0x0⟩]⟩,
  ⟨0x2400010, 4, 0x10000, 1, 0x0, [⟨31, 1, .ro, 0x0, 0x0⟩, ⟨16, 8, .rc, 0x0, 0x0⟩, ⟨8, 8, .ro, 0x0, 0x0⟩]⟩,
  ⟨0x2400014, 4, 0x10000, 1, 0x0, [⟨24, 8, .rc, 0x0, 0x0⟩, ⟨0, 24, .rc, 0x0, 0x0⟩]⟩,
  ⟨0x2400018, 4, 0x10000, 1, 0x0, [⟨31, 1, .ro, 0x0, 0x0⟩, ⟨30, 1, .ro, 0x0, 0x0⟩, ⟨0, 28, .ro, 0x0, 0x0⟩]⟩,
  ⟨0x240001C, 4, 0x10000, 1, 0x0, [⟨16, 16, .rc, 0x0, 0x0⟩, ⟨0, 16, .rc, 0x0, 0x0⟩]⟩,
  ⟨0x2400040, 4, 0x10000, 10, 0x4, [⟨24, 8, .ro, 0x0, 0x0⟩, ⟨16, 8, .ro, 0x0, 0x0⟩, ⟨8, 8, .ro, 0x0, 0x0⟩, ⟨0, 8, .ro, 0x0, 0x0⟩]⟩,
  ⟨0x2480000, 1, 0x0, 1, 0x0, [⟨16, 16, .ro, 0x0, 0x0⟩, ⟨0, 8, .rwl, 0x18, 0x0⟩]⟩,
  ⟨0x2480004, 1, 0x0, 1, 0x0, [⟨0, 9, .ro, 0x0, 0x0⟩]⟩]

/-- The registers of the SNC block: base, instance counts and strides, and per field its low bit, width,
access code, reset value and the reset value's step from one instance to the next. -/
def regsSNC : List RegDesc := [
  ⟨0x2600000, 1, 0x0, 1, 0x0, [⟨31, 1, .ro, 0x0, 0x0⟩, ⟨30, 1, .ro, 0x0, 0x0⟩, ⟨24, 2, .ro, 0x0, 0x0⟩, ⟨8, 8, .ro, 0x0, 0x0⟩]⟩,
  ⟨0x2600004, 1, 0x0, 1, 0x0, [⟨31, 1, .ro, 0x0, 0x0⟩, ⟨28, 3, .ro, 0x0, 0x0⟩, ⟨16, 8, .ro, 0x0, 0x0⟩]⟩,
  ⟨0x2600008, 1, 0x0, 1, 0x0, [⟨0, 17, .w1s, 0x1FFFF, 0x0⟩]⟩,
  ⟨0x260000C, 1, 0x0, 1, 0x0, [⟨16, 16, .ro, 0x0, 0x0⟩, ⟨0, 16, .ro, 0x0, 0x0⟩]⟩,
  ⟨0x2600010, 1, 0x0, 1, 0x0, [⟨24, 8, .rc, 0x0, 0x0⟩, ⟨16, 8, .rc, 0x0, 0x0⟩, ⟨8, 8, .rc, 0x0, 0x0⟩, ⟨0, 8, .rc, 0x0, 0x0⟩]⟩,
  ⟨0x2600020, 1, 0x0, 1, 0x0, [⟨31, 1, .wo, 0x0, 0x0⟩, ⟨30, 1, .ro, 0x0, 0x0⟩, ⟨8, 4, .ro, 0x0, 0x0⟩, ⟨4, 1, .rw, 0x0, 0x0⟩, ⟨0, 3, .rw, 0x0, 0x0⟩]⟩,
  ⟨0x2600024, 1, 0x0, 1, 0x0, [⟨0, 28, .rw, 0x0, 0x0⟩]⟩,
  ⟨0x2600028, 1, 0x0, 1, 0x0, [⟨0, 9, .rw, 0x0, 0x0⟩]⟩,
  ⟨0x2600100, 64, 0x4, 1, 0x0, [⟨0, 32, .rw, 0x0, 0x0⟩]⟩]

/-- The registers of the EVR block: base, instance counts and strides, and per field its low bit, width,
access code, reset value and the reset value's step from one instance to the next. -/
def regsEVR : List RegDesc := [
  ⟨0x2800000, 1, 0x0, 1, 0x0, [⟨31, 1, .ro, 0x0, 0x0⟩, ⟨30, 1, .ro, 0x0, 0x0⟩, ⟨24, 2, .ro, 0x0, 0x0⟩, ⟨0, 13, .ro, 0x0, 0x0⟩]⟩,
  ⟨0x2800008, 1, 0x0, 1, 0x0, [⟨0, 32, .ro, 0x0, 0x0⟩]⟩,
  ⟨0x280000C, 1, 0x0, 1, 0x0, [⟨0, 16, .ro, 0x0, 0x0⟩]⟩,
  ⟨0x2800010, 1, 0x0, 1, 0x0, [⟨0, 32, .rw, 0x0, 0x0⟩]⟩,
  ⟨0x2800014, 1, 0x0, 1, 0x0, [⟨31, 1, .rw, 0x0, 0x0⟩, ⟨0, 16, .rw, 0x0, 0x0⟩]⟩,
  ⟨0x2800018, 1, 0x0, 1, 0x0, [⟨2, 1, .wo, 0x0, 0x0⟩, ⟨1, 1, .wo, 0x0, 0x0⟩, ⟨0, 1, .wo, 0x0, 0x0⟩]⟩,
  ⟨0x280001C, 1, 0x0, 1, 0x0, [⟨16, 16, .ro, 0x0, 0x0⟩, ⟨0, 16, .ro, 0x0, 0x0⟩]⟩,
  ⟨0x2800040, 16, 0x4, 1, 0x0, [⟨0, 32, .ro, 0x0, 0x0⟩]⟩]

/-- The registers of the HLT block: base, instance counts and strides, and per field its low bit, width,
access code, reset value and the reset value's step from one instance to the next. -/
def regsHLT : List RegDesc := [
  ⟨0x2A00000, 1, 0x0, 1, 0x0, [⟨30, 2, .ro, 0x2, 0x0⟩, ⟨8, 8, .ro, 0x0, 0x0⟩, ⟨0, 8, .ro, 0x0, 0x0⟩]⟩,
  ⟨0x2A00004, 1, 0x0, 1, 0x0, [⟨0, 8, .ro, 0x0, 0x0⟩]⟩,
  ⟨0x2A00008, 1, 0x0, 1, 0x0, [⟨28, 4, .rwl, 0x0, 0x0⟩, ⟨3, 1, .w1c, 0x0, 0x0⟩, ⟨2, 1, .ro, 0x0, 0x0⟩, ⟨1, 1, .ro, 0x0, 0x0⟩, ⟨0, 1, .ro, 0x0, 0x0⟩]⟩]

/-- Every register of the window (R519's blocks). -/
def regTable : List RegDesc :=
  regsEFT ++ regsXLT ++ regsMED ++ regsCHO ++ regsDZL ++ regsVFM ++ regsSEC ++ regsTOP ++ regsGK ++ regsCLK ++ regsDMC ++ regsSNC ++ regsEVR ++ regsHLT

end Sys2Proof.Machine
end

