-- ==== Sys2Proof/Machine/Ops.lean ====
section
/-! DEFINITION. The named operations over the state: sparse tables, the register file, completions, replies,
functions, namespaces, zones and efts. -/

namespace Sys2Proof.Machine

open Sys2Proof

/-! ## Sparse tables in canonical form -/

/-- The value under a key: the listed one, else the default. -/
def tblGet {α : Type} (d : Nat → α) : List (Nat × α) → Nat → α
  | [], k => d k
  | (i, v) :: r, k => if i = k then v else tblGet d r k

/-- The table without a key. -/
def tblDrop {α : Type} (k : Nat) : List (Nat × α) → List (Nat × α)
  | [] => []
  | (i, w) :: r => if i = k then tblDrop k r else (i, w) :: tblDrop k r

/-- Put a pair before the first greater key. -/
def tblPut {α : Type} (k : Nat) (v : α) : List (Nat × α) → List (Nat × α)
  | [] => [(k, v)]
  | (i, w) :: r => if k < i then (k, v) :: (i, w) :: r else (i, w) :: tblPut k v r

/-- Write a value under a key, keeping keys rising and no entry equal to the default. -/
def tblSet {α : Type} [DecidableEq α] (d : Nat → α) (t : List (Nat × α)) (k : Nat) (v : α) : List (Nat × α) :=
  if v = d k then tblDrop k t else tblPut k v (tblDrop k t)

/-- The canonical form: keys strictly rising above `lo`, no entry equal to the default. -/
def tblWfFrom {α : Type} [DecidableEq α] (d : Nat → α) : Nat → List (Nat × α) → Bool
  | _, [] => true
  | lo, (i, v) :: r => decide (lo ≤ i) && decide (v ≠ d i) && tblWfFrom d (i + 1) r

def tblWf {α : Type} [DecidableEq α] (d : Nat → α) (t : List (Nat × α)) : Bool := tblWfFrom d 0 t

/-! ## Lists -/

/-- Element `i`, or `x`. -/
def nth {α : Type} (l : List α) (i : Nat) (x : α) : α := l.getD i x

/-- Replace element `i`. -/
def setNth {α : Type} (l : List α) (i : Nat) (x : α) : List α := l.set i x

/-- The least number from `lo` up that is in no place of `used` (`fuel` candidates tried). -/
def leastFree (used : List Nat) : Nat → Nat → Nat
  | 0, lo => lo
  | fuel + 1, lo => if used.contains lo then leastFree used fuel (lo + 1) else lo

def sumNat (l : List Nat) : Nat := l.foldl (· + ·) 0
def minNat (l : List Nat) (d : Nat) : Nat := l.foldl min d
def maxNat (l : List Nat) : Nat := l.foldl max 0

/-- The first element with the least key. -/
def argMin {α : Type} (key : α → Nat) : List α → Option α
  | [] => none
  | x :: r => match argMin key r with
    | none => some x
    | some y => if key y < key x then some y else some x

/-- The first element with the greatest key. -/
def argMax {α : Type} (key : α → Nat) : List α → Option α
  | [] => none
  | x :: r => match argMax key r with
    | none => some x
    | some y => if key x < key y then some y else some x

/-! ## The register file -/

/-- The instance index of an offset in a register's row, if it is one of its words. -/
def RegDesc.index (r : RegDesc) (off : Nat) : Option Nat :=
  if off < r.base then none
  else
    let d := off - r.base
    let i := d / r.strideA
    let e := d % r.strideA
    let j := e / r.strideB
    if i < r.countA && j < r.countB && e % r.strideB = 0 then some (i * r.countB + j) else none

/-- The table's row for an offset. -/
def regFind (off : Nat) : List RegDesc → Option (RegDesc × Nat)
  | [] => none
  | r :: rs => match r.index off with
    | some i => some (r, i)
    | none => regFind off rs

/-- The bank bit of banked registers: a bank number times this is added to the offset. -/
def bankStep : Nat := 0x4000000

/-- The rows of the part of the window that an offset lies in (R519's blocks): all that `regTable` has for the offset. -/
def regsNear (off : Nat) : List RegDesc :=
  if off < 0x1000000 then
    if off < 0x400000 then regsTOP ++ regsGK ++ regsCLK
    else if off < 0x800000 then regsEFT else regsMED
  else if off < 0x1800000 then regsXLT ++ regsCHO ++ regsDZL
  else if off < 0x2000000 then regsVFM
  else if off < 0x2400000 then regsSEC
  else regsDMC ++ regsSNC ++ regsEVR ++ regsHLT

/-- The value of a word after power-on reset, from the Reset column (R16). -/
def regReset (off : Nat) : Word :=
  match regFind (off % bankStep) (regsNear (off % bankStep)) with
  | none => 0
  | some (r, i) => BitVec.ofNat 32 (sumNat (r.fields.map fun f => ((f.reset + i * f.step) % 2 ^ f.len) <<< f.lsb))

/-- The stored word at an offset. -/
def State.word (s : State) (off : Nat) : Nat := (tblGet regReset s.regs off).toNat

/-- Store a word at an offset. -/
def State.setWord (s : State) (off v : Nat) : State :=
  { s with regs := tblSet regReset s.regs off (BitVec.ofNat 32 v) }

/-- Bits [msb:lsb] of a number. -/
def getBits (w msb lsb : Nat) : Nat := (w >>> lsb) % 2 ^ (msb + 1 - lsb)

/-- Put a value into bits [msb:lsb] of a number. -/
def putBits (w msb lsb v : Nat) : Nat :=
  w - (getBits w msb lsb) <<< lsb + (v % 2 ^ (msb + 1 - lsb)) <<< lsb

/-- The value of a register field. A field that reaches beyond bit 31 lies in two words, low word first (R14). -/
def State.rd (s : State) (f : Fld) : Nat :=
  if f.msb < 32 then getBits (s.word f.reg) f.msb f.lsb
  else getBits (s.word f.reg + (s.word (f.reg + 4)) <<< 32) f.msb f.lsb

/-- Write a register field. -/
def State.wr (s : State) (f : Fld) (v : Nat) : State :=
  if f.msb < 32 then s.setWord f.reg (putBits (s.word f.reg) f.msb f.lsb v)
  else
    let w := putBits (s.word f.reg + (s.word (f.reg + 4)) <<< 32) f.msb f.lsb v
    (s.setWord f.reg (w % 2 ^ 32)).setWord (f.reg + 4) (w >>> 32)

/-- A one-bit field as a Bool. -/
def State.flag (s : State) (f : Fld) : Bool := s.rd f != 0

def State.setFlag (s : State) (f : Fld) (b : Bool) : State := s.wr f b.toNat

/-- Add to a counting field that saturates at its width. -/
def State.bump (s : State) (f : Fld) (n : Nat) : State :=
  s.wr f (min (s.rd f + n) (2 ^ (f.msb + 1 - f.lsb) - 1))

/-- Add to a counting field that wraps. -/
def State.count (s : State) (f : Fld) : State := s.wr f (s.rd f + 1)

/-! ## Time and free values -/

/-- Local time moves to `t`, never back. -/
def State.at (s : State) (t : Nat) : State := { s with now := max s.now t }

/-- A free value: one the spec leaves open. The counter makes each a fresh one (assumption 3). -/
def State.free (s : State) (bound : Nat) : Nat × State :=
  (Config.free s.freeIx % bound, { s with freeIx := s.freeIx + 1 })

/-! ## Functions -/

def fnCount : Nat := 1024

/-- A submission queue with no entries. -/
def Sq.new (qid size cqid : Nat) : Sq := ⟨qid, size, cqid, 0, [], 0, 0, [], 0, 0, 0⟩

/-- A function after reset: its admin queue, everything else off (R89). The composite's default
over-temperature threshold is WCTEMP, 368 K (R473). -/
def Fn.init : Fn where
  en := false
  rdy := false
  cfs := false
  shst := 0
  shutFrom := none
  resetting := false
  sqs := [Sq.new 0 4096 0]
  cqs := []
  ams := 0
  rrq := 0
  wrr := [0, 0, 0, 0, 3]
  grant := 0
  aec := 0
  aers := []
  events := []
  masked := []
  dulbe := false
  tmtOver := 368
  tmtUnder := 0
  sensorOver := []
  sensorUnder := []
  changed := []
  fixedEvents := none
  plmOn := []
  plmPend := []
  bal := 0
  extra := 0
  refill := 0
  charged := 0
  chargedLast := 0
  waited := 0
  weightKept := none
  keyShrink := none
  unitsRead := 0
  unitsWritten := 0
  readCmds := 0
  writeCmds := 0
  busyMinutes := 0
  mediaErrors := 0
  errors := 0
  ioSeen := false

def fnDefault (_ : Nat) : Fn := Fn.init

def State.fn (s : State) (n : Nat) : Fn := tblGet fnDefault s.fns n
def State.setFn (s : State) (n : Nat) (f : Fn) : State := { s with fns := tblSet fnDefault s.fns n f }
def State.modFn (s : State) (n : Nat) (g : Fn → Fn) : State := s.setFn n (g (s.fn n))

/-- A function's submission queue. -/
def Fn.sq (f : Fn) (qid : Nat) : Option Sq := f.sqs.find? (·.qid = qid)
def Fn.modSq (f : Fn) (qid : Nat) (g : Sq → Sq) : Fn :=
  { f with sqs := f.sqs.map fun q => if q.qid = qid then g q else q }
def State.modSq (s : State) (n qid : Nat) (g : Sq → Sq) : State := s.modFn n (·.modSq qid g)

/-- PF0 is always assigned; a VF from the assign action on (R315). -/
def State.assigned (s : State) (n : Nat) : Bool := n = 0 || s.flag (Fd.VFM_FN_STATE_ASSIGNED n)

/-- The numbers of the functions that have anything recorded: PF0 and the assigned or active VFs. -/
def State.assignedFns (s : State) : List Nat := (List.range fnCount).filter s.assigned

/-! ## Namespaces and zones -/

def State.ns (s : State) (nsid : Nat) : Option Ns := s.nss.find? (·.nsid = nsid)
def State.modNs (s : State) (nsid : Nat) (g : Ns → Ns) : State :=
  { s with nss := s.nss.map fun n => if n.nsid = nsid then g n else n }

/-- Blocks in a zone (R50) and granules in a zone's data space (R57). -/
def zoneBlocks : Nat := 2 ^ 21
def zoneGranules : Nat := 47185920
/-- Blocks in a conventional zone (R85) and granules in its slot (R84). -/
def convBlocks : Nat := 725937
def convGranules : Nat := 65

def Ns.zones (n : Ns) : Nat := if n.zoned then n.nsze / zoneBlocks else ceilDiv n.nsze convBlocks

/-- The function a namespace is charged to (R317). -/
def Ns.charge (n : Ns) : Nat := n.attached.getD 0

/-- An Empty zone. -/
def Zone.init : Zone := ⟨.empty, 0, 0, 0, none, 0, 0, false, false, false, 0⟩

def zoneDefault (_ : Nat) : Zone := Zone.init
def zoneKey (nsid z : Nat) : Nat := nsid * 2 ^ 20 + z

/-- A zone. One never written since the namespace's creation is Empty at the creation's generation (R66). -/
def State.zone (s : State) (n : Ns) (z : Nat) : Zone :=
  let w := tblGet zoneDefault s.zones (zoneKey n.nsid z)
  if w.gen = 0 then { w with gen := n.gen0 } else w

def State.setZone (s : State) (nsid z : Nat) (w : Zone) : State :=
  { s with zones := tblSet zoneDefault s.zones (zoneKey nsid z) w }

/-- The recorded zones of a namespace: zone number and zone. -/
def State.zonesOf (s : State) (nsid : Nat) : List (Nat × Zone) :=
  (s.zones.filter fun e => e.1 / 2 ^ 20 = nsid).map fun e => (e.1 % 2 ^ 20, e.2)

def ZState.isOpen : ZState → Bool
  | .implicitOpen | .explicitOpen => true
  | _ => false
def ZState.isActive : ZState → Bool
  | .implicitOpen | .explicitOpen | .closed => true
  | _ => false

/-- The namespaces charged to a function. -/
def State.nssOf (s : State) (f : Nat) : List Ns := s.nss.filter (·.charge = f)

def State.openIn (s : State) (nsid : Nat) : Nat := ((s.zonesOf nsid).filter (·.2.state.isOpen)).length
def State.activeIn (s : State) (nsid : Nat) : Nat := ((s.zonesOf nsid).filter (·.2.state.isActive)).length
def State.openOf (s : State) (f : Nat) : Nat := sumNat ((s.nssOf f).map fun n => s.openIn n.nsid)
def State.activeOf (s : State) (f : Nat) : Nat := sumNat ((s.nssOf f).map fun n => s.activeIn n.nsid)

/-- Stripes charged to a function: zones that count (R324), and the homes of its conventional namespaces. -/
def State.stripesOf (s : State) (f : Nat) : Nat :=
  sumNat ((s.nssOf f).map fun n =>
    if n.zoned then ((s.zonesOf n.nsid).filter (·.2.counts)).length else n.zones)

/-- Buffer use of a function in MiB, rounded up: its clutches in the buffer and not yet programmed (R325), those that a start found
there apart (R316). -/
def State.bufOf (s : State) (f : Nat) : Nat :=
  ceilDiv (64 * (sumNat ((s.clutches.filter fun c => c.fn = f && c.place = .buffer && decide (s.xlt.useFrom ≤ c.id)).map (·.ngran))
    + sumNat ((s.cmds.filter (·.fn = f)).map fun c => sumNat (c.parts.map fun p => (32 + p.2.region.length) / 64))))
    (2 ^ 20)

/-- Buffer use of the device in bytes, the 64 MiB journal region apart (R175, R179). -/
def State.bufBytes (s : State) : Nat :=
  64 * (sumNat ((s.clutches.filter (·.place = .buffer)).map (·.ngran))
    + sumNat (s.cmds.map fun c => sumNat (c.parts.map fun p => (32 + p.2.region.length) / 64)))

/-- Bytes the buffer holds for clutches: its size less the journal region and the staging queue of events. -/
def State.bufRoom (s : State) : Nat := (s.rd Fd.XLT_BUF_SIZE) * 2 ^ 28 - 2 ^ 26

/-- The command that an operation waiting for the TRNG belongs to. -/
def TrngOp.src : TrngOp → Option Src
  | .create src _ | .format src _ _ _ _ | .sanitize src _ _ | .challenge src => some src
  | .fill _ => none

/-- The admin commands that stay outstanding for more than one step, event requests apart: those that wait for QUIESCE, a
join, the TRNG or a signature. -/
def State.heldSrcs (s : State) : List Src :=
  (s.quiesce.running.toList ++ s.quiesce.queue).filterMap QReq.src ++ s.dzl.joins.map JoinWait.src ++
    s.sec.attests.flatMap Attest.held ++ s.sec.trngWaits.filterMap TrngOp.src

/-- Command tags a function holds: of I/O commands, of entries fetched, of held admin commands and of event requests (R91). -/
def State.inflight (s : State) (f : Nat) : Nat :=
  (s.cmds.filter fun c => c.fn = f && c.kind ≠ .peer).length + sumNat ((s.fn f).sqs.map fun q => q.fetched.length) +
    (s.heldSrcs.filter (·.fn = f)).length + (s.fn f).aers.length

/-- A function's tag limit: its VFM field, 64 for a VF that is not assigned (R315). -/
def State.tagLimit (s : State) (f : Nat) : Nat :=
  if s.assigned f then s.rd (Fd.VFM_FN_INFLIGHT_LIMIT f) else 64

/-- The admin command is outstanding: it waits, or it is an event request not yet answered. -/
def State.heldNow (s : State) (src : Src) : Bool :=
  s.heldSrcs.contains src || (src.qid = 0 && (s.fn src.fn).aers.contains src.cid)

/-- The admin commands that wait, each with the tag it was fetched under (R91). -/
def State.heldTags (s : State) : List (Src × Nat) := s.adminTags.filter fun e => s.heldNow e.1

/-- An admin command that begins to wait keeps the tag it was fetched under (R91). -/
def State.keepTag (s : State) (src : Src) : State :=
  { s with adminTags := (s.heldTags.filter fun e => e.1 ≠ src) ++ [(src, (((s.fn src.fn).sq src.qid).map Sq.cur).getD 0)] }

/-- Device tags in use: of I/O commands, of entries fetched and of the admin commands that wait (R91). -/
def State.tagsInUse (s : State) : List Nat :=
  (s.cmds.filter (·.kind ≠ .peer)).map (·.tag) ++ s.fns.flatMap (fun e => e.2.sqs.flatMap (·.fetched)) ++ s.heldTags.map (·.2)

def deviceTags : Nat := 262144

/-- Queue pairs a function has created: the larger of its submission and completion queues. -/
def Fn.created (f : Fn) : Nat := max (f.sqs.filter (·.qid ≠ 0)).length f.cqs.length

/-! ## Commands -/

def State.cmd (s : State) (tag : Nat) : Option Cmd := s.cmds.find? (·.tag = tag)
def State.modCmd (s : State) (tag : Nat) (g : Cmd → Cmd) : State :=
  { s with cmds := s.cmds.map fun c => if c.tag = tag then g c else c }
/-- An outstanding command among these still reads a clutch. -/
def reads (cs : List Cmd) (x : Clutch) : Bool := cs.any fun c => c.kind ≠ .flush && c.targets.contains x.id

/-- A command leaves; superseded clutches only it read, and what landed for it, go with it (R98, R156). -/
def State.dropCmd (s : State) (tag : Nat) : State :=
  let cs := s.cmds.filter fun c => c.tag ≠ tag
  { s with cmds := cs, kept := s.kept.filter (reads cs), landing := s.landing.filter fun e => e.1 ≠ tag }

/-! ## Clutches -/

/-- Clutches leave the indexes. One that an outstanding command has resolved to stays readable for it: a command reads the
old content of a block or the new one, whole (R98, R125). -/
def State.removeClutches (s : State) (p : Clutch → Bool) : State :=
  { s with clutches := s.clutches.filter fun x => !p x, kept := s.kept ++ s.clutches.filter fun x => p x && reads s.cmds x }

/-- The clutches outstanding commands can name. -/
def State.known (s : State) : List Clutch := s.kept ++ s.clutches
def State.clutchOf (s : State) (id : Nat) : Option Clutch := s.known.find? (·.id = id)

/-! ## Efts -/

def Eft.init : Eft := ⟨[], [], none, [], [], [], [], 0, false, none, [], 0, [], [], 0, [], 0, false, [], []⟩
def eftDefault (_ : Nat) : Eft := Eft.init
def eftKey (p n : Nat) : Nat := p * 32 + n
def State.eft (s : State) (p n : Nat) : Eft := tblGet eftDefault s.efts (eftKey p n)
def State.setEft (s : State) (p n : Nat) (e : Eft) : State :=
  { s with efts := tblSet eftDefault s.efts (eftKey p n) e }
def State.modEft (s : State) (p n : Nat) (g : Eft → Eft) : State := s.setEft p n (g (s.eft p n))

def State.fenced (s : State) (p n : Nat) : Bool := s.flag (Fd.EFT_PD_E_STATE_FENCED p n)
def State.gated (s : State) (p : Nat) : Bool := (s.rd Fd.EFT_POND_MAP_GATED).testBit p

/-- The last owner of an eft, from its state register (R155). -/
def State.lastOwner (s : State) (p n : Nat) : Owner :=
  if s.flag (Fd.EFT_PD_E_STATE_DEVICE p n) then .device else .fn (s.rd (Fd.EFT_PD_E_STATE_LASTFN p n))
def State.setOwner (s : State) (p n : Nat) : Owner → State
  | .device => s.wr (Fd.EFT_PD_E_STATE_DEVICE p n) 1
  | .fn f => (s.wr (Fd.EFT_PD_E_STATE_DEVICE p n) 0).wr (Fd.EFT_PD_E_STATE_LASTFN p n) f

/-! ## Outcomes over instances -/

abbrev Result := Host.Outcome State Fault Refusal

/-- Go on where an instance number is in range; else there is no such instance. -/
def inRange (i n : Nat) (k : Result) : Result := if i < n then k else .fault .noSuchInstance

def onFn (f : Nat) (k : Result) : Result := if f < fnCount then k else .fault .noSuchFunction

def onTag (s : State) (tag : Nat) (k : Cmd → Result) : Result :=
  match s.cmd tag with
  | some c => k c
  | none => .fault .noSuchTag

def State.reply (s : State) (who value : Nat) (err : Bool) (data : Payload) : State :=
  { s with replies := ⟨who, value, err, data⟩ :: s.replies }

end Sys2Proof.Machine
end

