-- ==== Sys2Proof/Machine/Crypto.lean ====
section
/-! DEFINITION. The primitives R6 names by their published standards: AES-256 as IEEE 1619, SP 800-38B and RFC 5649 use
it, SHA-256 and SHA-512 (FIPS 180-4), SHA3-256 and SHAKE (FIPS 202), and the verification of an XMSS-SHAKE_20_256
signature (RFC 8391). Their tables and steps are those of the standards (assumption 84). -/

namespace Sys2Proof.Machine

open Sys2Proof

/-! ## AES-256 -/

/-- The S-box: row `r` holds the values of inputs 16r to 16r + 15, the first in the most significant byte. -/
def aesSbox : List Nat :=
  [0x637c777bf26b6fc53001672bfed7ab76, 0xca82c97dfa5947f0add4a2af9ca472c0,
   0xb7fd9326363ff7cc34a5e5f171d83115, 0x04c723c31896059a071280e2eb27b275,
   0x09832c1a1b6e5aa0523bd6b329e32f84, 0x53d100ed20fcb15b6acbbe394a4c58cf,
   0xd0efaafb434d338545f9027f503c9fa8, 0x51a3408f929d38f5bcb6da2110fff3d2,
   0xcd0c13ec5f974417c4a77e3d645d1973, 0x60814fdc222a908846eeb814de5e0bdb,
   0xe0323a0a4906245cc2d3ac629195e479, 0xe7c8376d8dd54ea96c56f4ea657aae08,
   0xba78252e1ca6b4c6e8dd741f4bbd8b8a, 0x703eb5664803f60e613557b986c11d9e,
   0xe1f8981169d98e949b1e87e9ce5528df, 0x8ca1890dbfe6426841992d0fb054bb16]

/-- The inverse S-box, laid out alike. -/
def aesInvSbox : List Nat :=
  [0x52096ad53036a538bf40a39e81f3d7fb, 0x7ce339829b2fff87348e4344c4dee9cb,
   0x547b9432a6c2233dee4c950b42fac34e, 0x082ea16628d924b2765ba2496d8bd125,
   0x72f8f66486689816d4a45ccc5d65b692, 0x6c704850fdedb9da5e154657a78d9d84,
   0x90d8ab008cbcd30af7e45805b8b34506, 0xd02c1e8fca3f0f02c1afbd0301138a6b,
   0x3a9111414f67dcea97f2cfcef0b4e673, 0x96ac7422e7ad3585e2f937e81c75df6e,
   0x47f11a711d29c5896fb7620eaa18be1b, 0xfc563e4bc6d279209adbc0fe78cd5af4,
   0x1fdda8338807c731b11210592780ec5f, 0x60517fa919b54a0d2de57a9f93c99cef,
   0xa0e03b4dae2af5b0c8ebbb3c83539961, 0x172b047eba77d626e169146355210c7d]

/-- Look a byte up in a box. -/
def aesSub (box : List Nat) (x : Nat) : Nat := (nth box (x / 16) 0 >>> (8 * (15 - x % 16))) % 256

/-- Multiply by x in the field of AES. -/
def aesDouble (a : Nat) : Nat := if a < 128 then 2 * a else (2 * a) ^^^ 0x11B

/-- Multiply by a constant below 16. -/
def aesMul (c a : Nat) : Nat :=
  let b := aesDouble a
  let d := aesDouble b
  (if c.testBit 0 then a else 0) ^^^ (if c.testBit 1 then b else 0) ^^^ (if c.testBit 2 then d else 0) ^^^
    (if c.testBit 3 then aesDouble d else 0)

/-- One byte of a column's product: a row of the matrix times the column. -/
def aesDot (m0 m1 m2 m3 a b c d : Nat) : Nat := aesMul m0 a ^^^ aesMul m1 b ^^^ aesMul m2 c ^^^ aesMul m3 d

/-- Multiply each column by the circulant matrix whose first row is given. -/
def aesMix (m0 m1 m2 m3 : Nat) : List Nat → List Nat
  | a :: b :: c :: d :: r =>
    aesDot m0 m1 m2 m3 a b c d :: aesDot m3 m0 m1 m2 a b c d :: aesDot m2 m3 m0 m1 a b c d :: aesDot m1 m2 m3 m0 a b c d ::
      aesMix m0 m1 m2 m3 r
  | l => l

/-- ShiftRows, and its inverse. -/
def aesShift : List Nat → List Nat
  | [a, b, c, d, e, f, g, h, i, j, k, l, m, n, o, p] => [a, f, k, p, e, j, o, d, i, n, c, h, m, b, g, l]
  | st => st
def aesUnshift : List Nat → List Nat
  | [a, b, c, d, e, f, g, h, i, j, k, l, m, n, o, p] => [a, n, k, h, e, b, o, l, i, f, c, p, m, j, g, d]
  | st => st

def aesXor (a b : List Nat) : List Nat := List.zipWith (· ^^^ ·) a b

/-- Extend the key schedule by eight words: `w` is the last eight words as 32 bytes, `rcon` the round constant. -/
def aesNext (rcon : Nat) (w : List Nat) : List Nat :=
  let sub := List.map (aesSub aesSbox)
  let a := aesXor (w.take 4) (aesXor (sub ((w.drop 29) ++ (w.drop 28).take 1)) [rcon, 0, 0, 0])
  let b := aesXor ((w.drop 4).take 4) a
  let c := aesXor ((w.drop 8).take 4) b
  let d := aesXor ((w.drop 12).take 4) c
  let e := aesXor ((w.drop 16).take 4) (sub d)
  let f := aesXor ((w.drop 20).take 4) e
  let g := aesXor ((w.drop 24).take 4) f
  let h := aesXor ((w.drop 28).take 4) g
  a ++ b ++ c ++ d ++ e ++ f ++ g ++ h

/-- The bytes of the key schedule: `n` further groups of eight words. -/
def aesExpand : Nat → Nat → List Nat → List Nat
  | 0, _, w => w
  | n + 1, rcon, w => w ++ aesExpand n (aesDouble rcon) (aesNext rcon w)

/-- The fifteen round keys of 16 bytes. -/
def aesRoundKeys (key : Bytes) : List (List Nat) :=
  let w := aesExpand 7 1 (key.map BitVec.toNat)
  (List.range 15).map fun i => (w.drop (16 * i)).take 16

def aesEncRounds : List (List Nat) → List Nat → List Nat
  | [], st => st
  | [k], st => aesXor (aesShift (st.map (aesSub aesSbox))) k
  | k :: ks, st => aesEncRounds ks (aesXor (aesMix 2 3 1 1 (aesShift (st.map (aesSub aesSbox)))) k)

def aesDecRounds : List (List Nat) → List Nat → List Nat
  | [], st => st
  | [k], st => aesXor ((aesUnshift st).map (aesSub aesInvSbox)) k
  | k :: ks, st => aesDecRounds ks (aesMix 14 11 13 9 (aesXor ((aesUnshift st).map (aesSub aesInvSbox)) k))

/-- One block under round keys. -/
def aesEncWith (ks : List (List Nat)) (block : Bytes) : Bytes :=
  (aesEncRounds (ks.drop 1) (aesXor (block.map BitVec.toNat) (nth ks 0 []))).map byte
def aesDecWith (ks : List (List Nat)) (block : Bytes) : Bytes :=
  (aesDecRounds (ks.reverse.drop 1) (aesXor (block.map BitVec.toNat) (nth ks 14 []))).map byte

/-- AES-256 of one 16-byte block under a 32-byte key. -/
def aesEnc (key block : Bytes) : Bytes := aesEncWith (aesRoundKeys key) block
def aesDec (key block : Bytes) : Bytes := aesDecWith (aesRoundKeys key) block

/-! ## SHA-256 and SHA-512 -/

/-- The 64-bit words of rows of `per` words, the first of a row in its most significant bits. -/
def lanes (per : Nat) (rows : List Nat) : List Nat :=
  rows.flatMap fun r => (List.range per).map fun i => (r >>> (64 * (per - 1 - i))) % 2 ^ 64

/-- The constants of SHA-512, five to a row; the upper halves of the first 64 are those of SHA-256. -/
def shaK : List Nat := lanes 5
  [0x428a2f98d728ae227137449123ef65cdb5c0fbcfec4d3b2fe9b5dba58189dbbc3956c25bf348b538,
   0x59f111f1b605d019923f82a4af194f9bab1c5ed5da6d8118d807aa98a303024212835b0145706fbe,
   0x243185be4ee4b28c550c7dc3d5ffb4e272be5d74f27b896f80deb1fe3b1696b19bdc06a725c71235,
   0xc19bf174cf692694e49b69c19ef14ad2efbe4786384f25e30fc19dc68b8cd5b5240ca1cc77ac9c65,
   0x2de92c6f592b02754a7484aa6ea6e4835cb0a9dcbd41fbd476f988da831153b5983e5152ee66dfab,
   0xa831c66d2db43210b00327c898fb213fbf597fc7beef0ee4c6e00bf33da88fc2d5a79147930aa725,
   0x06ca6351e003826f142929670a0e6e7027b70a8546d22ffc2e1b21385c26c9264d2c6dfc5ac42aed,
   0x53380d139d95b3df650a73548baf63de766a0abb3c77b2a881c2c92e47edaee692722c851482353b,
   0xa2bfe8a14cf10364a81a664bbc423001c24b8b70d0f89791c76c51a30654be30d192e819d6ef5218,
   0xd69906245565a910f40e35855771202a106aa07032bbd1b819a4c116b8d2d0c81e376c085141ab53,
   0x2748774cdf8eeb9934b0bcb5e19b48a8391c0cb3c5c95a634ed8aa4ae3418acb5b9cca4f7763e373,
   0x682e6ff3d6b2b8a3748f82ee5defb2fc78a5636f43172f6084c87814a1f0ab728cc702081a6439ec,
   0x90befffa23631e28a4506cebde82bde9bef9a3f7b2c67915c67178f2e372532bca273eceea26619c,
   0xd186b8c721c0c207eada7dd6cde0eb1ef57d4f7fee6ed17806f067aa72176fba0a637dc5a2c898a6,
   0x113f9804bef90dae1b710b35131c471b28db77f523047d8432caab7b40c724933c9ebe0a15c9bebc,
   0x431d67c49c100d4c4cc5d4becb3e42b6597f299cfc657e2a5fcb6fab3ad6faec6c44198c4a475817]

/-- The initial hash value of SHA-512, four to a row; its upper halves are that of SHA-256. -/
def shaH : List Nat := lanes 4
  [0x6a09e667f3bcc908bb67ae8584caa73b3c6ef372fe94f82ba54ff53a5f1d36f1,
   0x510e527fade682d19b05688c2b3e6c1f1f83d9abfb41bd6b5be0cd19137e2179]

/-- What tells SHA-256 and SHA-512 apart: word width, rounds, and the amounts of Σ0, Σ1, σ0, σ1 (the last amount of
the σ is a shift). -/
structure Sha where
  w : Nat
  rounds : Nat
  big0 : Nat × Nat × Nat
  big1 : Nat × Nat × Nat
  small0 : Nat × Nat × Nat
  small1 : Nat × Nat × Nat
  deriving DecidableEq, Repr

def sha256Kind : Sha := ⟨32, 64, (2, 13, 22), (6, 11, 25), (7, 18, 3), (17, 19, 10)⟩
def sha512Kind : Sha := ⟨64, 80, (28, 34, 39), (14, 18, 41), (1, 8, 7), (19, 61, 6)⟩

/-- Rotate a word of `w` bits right. -/
def rotr (w n x : Nat) : Nat := (x >>> n) ^^^ ((x <<< (w - n)) % 2 ^ w)

def Sha.big (k : Sha) (r : Nat × Nat × Nat) (x : Nat) : Nat := rotr k.w r.1 x ^^^ rotr k.w r.2.1 x ^^^ rotr k.w r.2.2 x
def Sha.small (k : Sha) (r : Nat × Nat × Nat) (x : Nat) : Nat := rotr k.w r.1 x ^^^ rotr k.w r.2.1 x ^^^ (x >>> r.2.2)

/-- One round over the working variables a to h, with the word and the constant. -/
def Sha.round (k : Sha) (v : List Nat) (kt wt : Nat) : List Nat :=
  match v with
  | [a, b, c, d, e, f, g, h] =>
    let t1 := h + k.big k.big1 e + ((e &&& f) ^^^ ((2 ^ k.w - 1 - e) &&& g)) + kt + wt
    let t2 := k.big k.big0 a + ((a &&& b) ^^^ (a &&& c) ^^^ (b &&& c))
    [(t1 + t2) % 2 ^ k.w, a, b, c, (d + t1) % 2 ^ k.w, e, f, g]
  | _ => v

/-- The rounds, with the last sixteen words of the schedule at hand, oldest first. -/
def Sha.rounds' (k : Sha) : List Nat → List Nat → List Nat → List Nat
  | [], _, v => v
  | kt :: ks, ws, v =>
    let next := (k.small k.small1 (nth ws 14 0) + nth ws 9 0 + k.small k.small0 (nth ws 1 0) + nth ws 0 0) % 2 ^ k.w
    Sha.rounds' k ks (ws.drop 1 ++ [next]) (k.round v kt (nth ws 0 0))

/-- A big-endian number. -/
def beNat (b : Bytes) : Nat := b.foldl (fun n x => 256 * n + x.toNat) 0
/-- Big-endian bytes (R11). -/
def beBytes (k n : Nat) : Bytes := (leBytes k n).reverse

/-- Absorb `n` blocks of sixteen words. -/
def Sha.blocks (k : Sha) : Nat → Bytes → List Nat → List Nat
  | 0, _, h => h
  | n + 1, m, h =>
    let ws := (List.range 16).map fun i => beNat ((m.drop (i * (k.w / 8))).take (k.w / 8))
    let v := k.rounds' ((shaK.take k.rounds).map (· >>> (64 - k.w))) ws h
    Sha.blocks k n (m.drop (2 * k.w)) (List.zipWith (fun a b => (a + b) % 2 ^ k.w) h v)

/-- The digest: pad, absorb, and put the words out. -/
def Sha.digest (k : Sha) (m : Bytes) : Bytes :=
  let size := 2 * k.w
  let n := ceilDiv (m.length + 1 + k.w / 4) size
  let p := m ++ [0x80] ++ zeros (size * n - m.length - 1 - k.w / 4) ++ beBytes (k.w / 4) (8 * m.length)
  (k.blocks n p (shaH.map (· >>> (64 - k.w)))).flatMap (beBytes (k.w / 8))

/-! ## Keccak: SHA3-256 and SHAKE -/

/-- The round constants of Keccak-f[1600], six to a row. -/
def keccakRC : List Nat := lanes 6
  [0x00000000000000010000000000008082800000000000808a8000000080008000000000000000808b0000000080000001,
   0x80000000800080818000000000008009000000000000008a00000000000000880000000080008009000000008000000a,
   0x000000008000808b800000000000008b8000000000008089800000000000800380000000000080028000000000000080,
   0x000000000000800a800000008000000a8000000080008081800000000000808000000000800000018000000080008008]

/-- Rotate a lane left. -/
def rotl64 (n x : Nat) : Nat := ((x <<< n) % 0x10000000000000000) ||| (x >>> (64 - n))

/-- The parity of a column. -/
def keccakColumn (a b c d e : Nat) : Nat := a ^^^ b ^^^ c ^^^ d ^^^ e

/-- θ's word for each column, from the five column parities. -/
def keccakTheta (a b c d e : Nat) (k : Nat → Nat → Nat → Nat → Nat → List Nat) : List Nat :=
  k (e ^^^ rotl64 1 b) (a ^^^ rotl64 1 c) (b ^^^ rotl64 1 d) (c ^^^ rotl64 1 e) (d ^^^ rotl64 1 a)

/-- χ over one plane, in front of the planes behind it. -/
def keccakChi (a b c d e : Nat) (r : List Nat) : List Nat :=
  let f := fun x y z => x ^^^ ((0xFFFFFFFFFFFFFFFF - y) &&& z)
  f a b c :: f b c d :: f c d e :: f d e a :: f e a b :: r

/-- One round over the 25 lanes, lane x + 5y being `a` with the digits x and y: θ, then ρ and π, then χ, then ι. -/
def keccakRound (a : List Nat) (rc : Nat) : List Nat :=
  match a with
  | [a00, a10, a20, a30, a40, a01, a11, a21, a31, a41, a02, a12, a22, a32, a42, a03, a13, a23, a33, a43,
      a04, a14, a24, a34, a44] =>
    keccakTheta (keccakColumn a00 a01 a02 a03 a04) (keccakColumn a10 a11 a12 a13 a14) (keccakColumn a20 a21 a22 a23 a24)
      (keccakColumn a30 a31 a32 a33 a34) (keccakColumn a40 a41 a42 a43 a44) fun d0 d1 d2 d3 d4 =>
    match keccakChi (a00 ^^^ d0) (rotl64 44 (a11 ^^^ d1)) (rotl64 43 (a22 ^^^ d2)) (rotl64 21 (a33 ^^^ d3)) (rotl64 14 (a44 ^^^ d4))
      (keccakChi (rotl64 28 (a30 ^^^ d3)) (rotl64 20 (a41 ^^^ d4)) (rotl64 3 (a02 ^^^ d0)) (rotl64 45 (a13 ^^^ d1)) (rotl64 61 (a24 ^^^ d2))
      (keccakChi (rotl64 1 (a10 ^^^ d1)) (rotl64 6 (a21 ^^^ d2)) (rotl64 25 (a32 ^^^ d3)) (rotl64 8 (a43 ^^^ d4)) (rotl64 18 (a04 ^^^ d0))
      (keccakChi (rotl64 27 (a40 ^^^ d4)) (rotl64 36 (a01 ^^^ d0)) (rotl64 10 (a12 ^^^ d1)) (rotl64 15 (a23 ^^^ d2)) (rotl64 56 (a34 ^^^ d3))
      (keccakChi (rotl64 62 (a20 ^^^ d2)) (rotl64 55 (a31 ^^^ d3)) (rotl64 39 (a42 ^^^ d4)) (rotl64 41 (a03 ^^^ d0)) (rotl64 2 (a14 ^^^ d1)) [])))) with
    | [] => []
    | l :: ls => (l ^^^ rc) :: ls
  | _ => []

def keccakF (a : List Nat) : List Nat := keccakRC.foldl keccakRound a

/-- XOR bytes into the lanes, eight to a lane, first byte lowest. -/
def keccakAdd : List Nat → Bytes → List Nat
  | l :: ls, a :: b :: c :: d :: e :: f :: g :: h :: m => (l ^^^ leNat [a, b, c, d, e, f, g, h]) :: keccakAdd ls m
  | ls, _ => ls

/-- Absorb `n` blocks of `rate` bytes. -/
def keccakAbsorb (rate : Nat) : Nat → Bytes → List Nat → List Nat
  | 0, _, a => a
  | n + 1, m, a => keccakAbsorb rate n (m.drop rate) (keccakF (keccakAdd a (m.take rate)))

/-- Squeeze `out` bytes in at most `n` blocks. -/
def keccakSqueeze (rate : Nat) : Nat → Nat → List Nat → Bytes
  | 0, _, _ => []
  | n + 1, out, a =>
    if out ≤ rate then ((a.take (ceilDiv out 8)).flatMap (leBytes 8)).take out
    else (a.take (rate / 8)).flatMap (leBytes 8) ++ keccakSqueeze rate n (out - rate) (keccakF a)

/-- A sponge of a rate, a domain suffix and an output length. -/
def sponge (rate suffix out : Nat) (m : Bytes) : Bytes :=
  let n := m.length / rate + 1
  let z := rate * n - m.length
  let pad := if z = 1 then [byte (suffix + 0x80)] else [byte suffix] ++ zeros (z - 2) ++ [0x80]
  keccakSqueeze rate (ceilDiv out rate) out (keccakAbsorb rate n (m ++ pad) (List.replicate 25 0))

def sha3of256 (m : Bytes) : Bytes := sponge 136 0x06 32 m
def shake128 (out : Nat) (m : Bytes) : Bytes := sponge 168 0x1F out m
def shake256 (out : Nat) (m : Bytes) : Bytes := sponge 136 0x1F out m
def sha256 (m : Bytes) : Bytes := sha256Kind.digest m
def sha512 (m : Bytes) : Bytes := sha512Kind.digest m

/-! ## Verifying XMSS-SHAKE_20_256 (RFC 8391): n = 32, w = 16, 67 chains, height 20 -/

/-- F, H, H_msg and PRF: SHAKE128 over a 32-byte function number, a key and a message. -/
def xmssHash (fn : Nat) (key m : Bytes) : Bytes := shake128 32 (beBytes 32 fn ++ key ++ m)

/-- An address of layer 0, tree 0: its type, three words, and keyAndMask. -/
def xmssAddr (type a b c mask : Nat) : Bytes := beBytes 16 type ++ beBytes 4 a ++ beBytes 4 b ++ beBytes 4 c ++ beBytes 4 mask

def xmssXor (a b : Bytes) : Bytes := List.zipWith (· ^^^ ·) a b

/-- Chain `n` steps from step `k` on. -/
def xmssChain (seed : Bytes) (ots i : Nat) : Nat → Nat → Bytes → Bytes
  | 0, _, x => x
  | n + 1, k, x =>
    let prf := fun m => xmssHash 3 seed (xmssAddr 0 ots i k m)
    xmssChain seed ots i n (k + 1) (xmssHash 0 (prf 0) (xmssXor x (prf 1)))

/-- RAND_HASH of two nodes at a height and index of a tree (type 1 with its address: L-tree; type 2: hash tree). -/
def xmssNode (seed : Bytes) (type a height index : Nat) (l r : Bytes) : Bytes :=
  let prf := fun m => xmssHash 3 seed (xmssAddr type a height index m)
  xmssHash 1 (prf 0) (xmssXor l (prf 1) ++ xmssXor r (prf 2))

/-- One level of the L-tree. -/
def xmssPairs (seed : Bytes) (a height : Nat) : Nat → List Bytes → List Bytes
  | i, l :: r :: rest => xmssNode seed 1 a height i l r :: xmssPairs seed a height (i + 1) rest
  | _, l => l

/-- The L-tree over at most 2^`n` nodes. -/
def xmssLtree (seed : Bytes) (a : Nat) : Nat → Nat → List Bytes → Bytes
  | 0, _, l => nth l 0 []
  | n + 1, h, l => xmssLtree seed a n (h + 1) (xmssPairs seed a h 0 l)

/-- Up the authentication path. -/
def xmssClimb (seed : Bytes) : List Bytes → Nat → Nat → Bytes → Bytes
  | [], _, _, node => node
  | a :: as, k, idx, node =>
    xmssClimb seed as (k + 1) (idx / 2)
      (if idx % 2 = 0 then xmssNode seed 2 0 k (idx / 2) node a else xmssNode seed 2 0 k (idx / 2) a node)

/-- The 67 base-16 digits of a message hash and its checksum. -/
def xmssDigits (m : Bytes) : List Nat :=
  let d := m.flatMap fun x => [x.toNat / 16, x.toNat % 16]
  let c := (d.map (15 - ·)).sum
  d ++ [c / 256, c / 16 % 16, c % 16]

/-- Pieces of 32 bytes. -/
def pieces32 (n : Nat) (b : Bytes) : List Bytes := (List.range n).map fun i => (b.drop (32 * i)).take 32

/-- The message hash of a signature under a root. -/
def xmssMessage (root sig m : Bytes) : Bytes := xmssHash 2 ((sig.drop 4).take 32 ++ root ++ beBytes 32 (beNat (sig.take 4))) m

/-- The root a signature yields. -/
def xmssRootOf (seed sig mhash : Bytes) : Bytes :=
  let idx := beNat (sig.take 4)
  let dig := xmssDigits mhash
  let ots := (pieces32 67 (sig.drop 36)).zipIdx.map fun (x, i) => xmssChain seed idx i (15 - nth dig i 0) (nth dig i 0) x
  xmssClimb seed (pieces32 20 (sig.drop 2180)) 0 idx (xmssLtree seed idx 7 0 ots)

/-- Does a 2,820-byte signature over a message verify under a 68-byte public key: identifier 9 of RFC 8391, root, seed. -/
def xmssVerify (key m sig : Bytes) : Bool :=
  let root := (key.drop 4).take 32
  key.length = 68 && sig.length = 2820 && beNat (key.take 4) = 9 && beNat (sig.take 4) < 2 ^ 20 &&
  xmssRootOf (key.drop 36) sig (xmssMessage root sig m) = root

end Sys2Proof.Machine
end

