-- ==== Sys2Proof/Machine/Zstd.lean ====
section
/-! DEFINITION. What a compressed block of a Zstandard frame holds, as RFC 8878 lays it out: literals in every mode, FSE
tables, sequences, repeat offsets (R146). The decoder keeps what later blocks of the frame may refer to (assumption 84). -/

namespace Sys2Proof.Machine

open Sys2Proof

/-! ## Bit streams read backwards -/

/-- A stream read from its end: `n` bits at hand in `acc`, and the bytes before them, last first. -/
structure Bits where
  acc : Nat
  n : Nat
  rest : Bytes
  deriving DecidableEq, Repr

/-- Bring at least `k` bits to hand, as far as there are bytes. -/
def bitsFill (k : Nat) : Bytes → Nat → Nat → Bits
  | [], acc, n => ⟨acc, n, []⟩
  | b :: r, acc, n => if k ≤ n then ⟨acc, n, b :: r⟩ else bitsFill k r (256 * acc + b.toNat) (n + 8)

/-- Open a stream: its last byte's highest set bit ends it. -/
def bitsOpen (b : Bytes) : Option Bits :=
  match b.reverse with
  | [] => none
  | h :: r => if h = 0 then none else some ⟨h.toNat % 2 ^ h.toNat.log2, h.toNat.log2, r⟩

/-- Read `k` bits; none past the start of the stream. -/
def Bits.read (k : Nat) (s : Bits) : Option (Nat × Bits) :=
  let t := bitsFill k s.rest s.acc s.n
  if t.n < k then none else some (t.acc >>> (t.n - k), ⟨t.acc % 2 ^ (t.n - k), t.n - k, t.rest⟩)

/-- Every bit is consumed. -/
def Bits.done (s : Bits) : Bool := s.n = 0 && s.rest.isEmpty

/-! ## FSE tables -/

/-- A decoding table: its accuracy, and for each state its symbol, the bits to read, and what they are added to. -/
structure Fse where
  al : Nat
  cells : List (Nat × Nat × Nat)
  deriving DecidableEq, Repr

/-- The flags behind a zero probability: two bits each say how many more zeros follow; 3 says that a flag follows too. -/
def fseZeros (v : Nat) : Nat → Nat → Nat → Nat × Nat
  | 0, pos, z => (pos, z)
  | fuel + 1, pos, z =>
    let r := (v >>> pos) % 4
    if r = 3 then fseZeros v fuel (pos + 2) (z + 3) else (pos + 2, z + r)

/-- The coded probabilities (0 stands for "less than 1", else the probability plus 1) of at most `max` symbols, and the
bit behind them. -/
def fseProbs (v max : Nat) : Nat → Nat → Nat → List Nat → Option (Nat × List Nat)
  | 0, _, _, _ => none
  | fuel + 1, pos, left, ps =>
    if left = 0 then (if ps.length ≤ max then some (pos, ps.reverse) else none)
    else if max ≤ ps.length then none
    else
      let bits := (left + 1).log2 + 1
      let x := (v >>> pos) % 2 ^ bits
      let low := x % 2 ^ (bits - 1)
      let short := 2 ^ bits - 2 - left
      let val := if low < short then low else if x < 2 ^ (bits - 1) then x else x - short
      let pos := pos + (if low < short then bits - 1 else bits)
      if val = 1 then
        let z := fseZeros v max pos 1
        fseProbs v max fuel z.1 left (List.replicate z.2 1 ++ ps)
      else fseProbs v max fuel pos (left - (if val = 0 then 1 else val - 1)) (val :: ps)

/-- The symbol of each state: symbols of less than 1 from the top down, the others spread in steps. -/
def fseSpread (al : Nat) (ps : List Nat) : List Nat :=
  let size := 2 ^ al
  let rare := (ps.zipIdx.filter fun e => e.1 = 0).map (·.2)
  let often := ps.zipIdx.flatMap fun e => List.replicate (e.1 - 1) e.2
  let at' := ((List.range size).map fun k => k * (size / 2 + size / 8 + 3) % size).filter (· < size - rare.length)
  let pairs := at'.zip often ++ rare.zipIdx.map fun e => (size - 1 - e.2, e.1)
  (List.range size).map fun i => match pairs.find? fun e => e.1 = i with
    | some e => e.2
    | none => 0

/-- The cells of a table from its states' symbols; `next` holds each symbol's counter. -/
def fseCells (al : Nat) : List Nat → List Nat → List (Nat × Nat × Nat)
  | [], _ => []
  | s :: r, next =>
    let x := nth next s 1
    let nb := al - x.log2
    (s, nb, (x <<< nb) - 2 ^ al) :: fseCells al r (setNth next s (x + 1))

/-- The table of coded probabilities. -/
def fseBuild (al : Nat) (ps : List Nat) : Fse := ⟨al, fseCells al (fseSpread al ps) (ps.map fun p => if p = 0 then 1 else p - 1)⟩

/-- A table of one symbol. -/
def fseRle (s : Nat) : Fse := ⟨0, [(s, 0, 0)]⟩

/-- Read a table description of at most `maxAl` and `max` symbols; the bytes behind it. -/
def fseRead (maxAl max : Nat) (b : Bytes) : Option (Fse × Bytes) :=
  let v := leNat (b.take 128)
  let al := v % 16 + 5
  if maxAl < al then none
  else match fseProbs v max (max + 1) 4 (2 ^ al) [] with
    | none => none
    | some (pos, ps) => if b.length < ceilDiv pos 8 then none else some (fseBuild al ps, b.drop (ceilDiv pos 8))

def Fse.sym (t : Fse) (st : Nat) : Nat := (nth t.cells st (0, 0, 0)).1
/-- The next state. -/
def Fse.next (t : Fse) (st : Nat) (s : Bits) : Option (Nat × Bits) :=
  let c := nth t.cells st (0, 0, 0)
  match s.read c.2.1 with
  | none => none
  | some (x, s) => some (c.2.2 + x, s)

/-! ## Huffman-coded literals -/

/-- A prefix code: its longest length, and in code order how many codes of that length each symbol spans, its length,
and the symbol. -/
structure Huff where
  bits : Nat
  codes : List (Nat × Nat × Byte)
  deriving DecidableEq, Repr

/-- The code of weights, the last of which is implied. -/
def huffBuild (ws : List Nat) : Option Huff :=
  let sum := sumNat (ws.map fun w => if w = 0 then 0 else 2 ^ (w - 1))
  let bits := sum.log2 + 1
  let left := 2 ^ bits - sum
  if sum = 0 || 11 < bits || 255 < ws.length || left ≠ 2 ^ left.log2 then none
  else
    let all := (ws ++ [left.log2 + 1]).zipIdx
    some ⟨bits, (List.range bits).flatMap fun k =>
      (all.filter fun e => e.1 = k + 1).map fun e => (2 ^ k, bits - k, byte e.2)⟩

/-- Weights coded by two alternating FSE states, until the stream is spent. -/
def huffWeights (t : Fse) : Nat → Nat → Nat → Bits → Option (List Nat)
  | 0, _, _, _ => none
  | fuel + 1, a, b, s =>
    match t.next a s with
    | none => some [t.sym a, t.sym b]
    | some (a', s) => match huffWeights t fuel b a' s with
      | none => none
      | some ws => some (t.sym a :: ws)

/-- Read a tree description; the bytes behind it. -/
def huffRead (b : Bytes) : Option (Huff × Bytes) :=
  match b with
  | [] => none
  | h :: r =>
    let h := h.toNat
    if 128 ≤ h then
      let n := h - 127
      let k := ceilDiv n 2
      if r.length < k then none
      else match huffBuild (((r.take k).flatMap fun x => [x.toNat / 16, x.toNat % 16]).take n) with
        | none => none
        | some t => some (t, r.drop k)
    else if r.length < h then none
    else match fseRead 6 256 (r.take h) with
      | none => none
      | some (t, c) => match bitsOpen c with
        | none => none
        | some s => match s.read t.al with
          | none => none
          | some (a, s) => match s.read t.al with
            | none => none
            | some (b', s) => match huffWeights t 255 a b' s with
              | none => none
              | some ws => match huffBuild ws with
                | none => none
                | some t => some (t, r.drop h)

/-- The code at the front of `x`. -/
def huffFind (x : Nat) : List (Nat × Nat × Byte) → Nat × Byte
  | [] => (0, 0)
  | (span, len, sym) :: r => if x < span then (len, sym) else huffFind (x - span) r

/-- Decode `n` literals; the stream must be spent exactly. -/
def huffStream (t : Huff) : Nat → Bits → Option Bytes
  | 0, s => if s.done then some [] else none
  | n + 1, s =>
    let s := bitsFill t.bits s.rest s.acc s.n
    let x := if t.bits ≤ s.n then s.acc >>> (s.n - t.bits) else s.acc <<< (t.bits - s.n)
    let c := huffFind x t.codes
    if s.n < c.1 then none
    else match huffStream t n ⟨s.acc % 2 ^ (s.n - c.1), s.n - c.1, s.rest⟩ with
      | none => none
      | some b => some (c.2 :: b)

/-- Decode streams of given literals and bytes each. -/
def huffStreams (t : Huff) : List (Nat × Nat) → Bytes → Option Bytes
  | [], _ => some []
  | (n, k) :: r, b =>
    match bitsOpen (b.take k) with
    | none => none
    | some s => match huffStream t n s, huffStreams t r (b.drop k) with
      | some x, some y => some (x ++ y)
      | _, _ => none

/-- One stream, or four behind their jump table. -/
def huffLiterals (t : Huff) (four : Bool) (n : Nat) (b : Bytes) : Option Bytes :=
  if four then
    let size (i : Nat) : Nat := leNat ((b.drop (2 * i)).take 2)
    let q := ceilDiv n 4
    if b.length < 6 + size 0 + size 1 + size 2 || n < 3 * q then none
    else huffStreams t [(q, size 0), (q, size 1), (q, size 2), (n - 3 * q, b.length - 6 - size 0 - size 1 - size 2)] (b.drop 6)
  else huffStreams t [(n, b.length)] b

/-- The literals of a block, the code in force after it, and the bytes behind the section. -/
def literals (old : Option Huff) (b : Bytes) : Option (Bytes × Option Huff × Bytes) :=
  let h := leNat (b.take 5)
  let type := h % 4
  let sf := h / 4 % 4
  if type < 2 then
    let hd := if sf = 1 then 2 else if sf = 3 then 3 else 1
    let n := if sf = 1 then h / 16 % 2 ^ 12 else if sf = 3 then h / 16 % 2 ^ 20 else h / 8 % 2 ^ 5
    let size := if type = 0 then n else 1
    let body := (b.drop hd).take size
    if b.length < hd + size then none
    else some (if type = 0 then body else List.replicate n (nth body 0 0), old, b.drop (hd + size))
  else
    let k := if sf < 2 then 10 else if sf = 2 then 14 else 18
    let hd := if sf < 2 then 3 else if sf = 2 then 4 else 5
    let n := h / 16 % 2 ^ k
    let size := h / 2 ^ (4 + k) % 2 ^ k
    let body := (b.drop hd).take size
    if b.length < hd + size then none
    else match (if type = 2 then huffRead body else old.map fun t => (t, body)) with
      | none => none
      | some (t, c) => match huffLiterals t (sf ≠ 0) n c with
        | none => none
        | some x => some (x, some t, b.drop (hd + size))

/-! ## Sequences -/

/-- Base and extra bits of each literals length code and match length code. -/
def llCodes : List (Nat × Nat) :=
  (List.range 16).map (fun i => (i, 0)) ++
  [(16, 1), (18, 1), (20, 1), (22, 1), (24, 2), (28, 2), (32, 3), (40, 3), (48, 4), (64, 6), (128, 7), (256, 8), (512, 9),
   (1024, 10), (2048, 11), (4096, 12), (8192, 13), (16384, 14), (32768, 15), (65536, 16)]
def mlCodes : List (Nat × Nat) :=
  (List.range 32).map (fun i => (i + 3, 0)) ++
  [(35, 1), (37, 1), (39, 1), (41, 1), (43, 2), (47, 2), (51, 3), (59, 3), (67, 4), (83, 4), (99, 5), (131, 7), (259, 8),
   (515, 9), (1027, 10), (2051, 11), (4099, 12), (8195, 13), (16387, 14), (32771, 15), (65539, 16)]

/-- The predefined tables: probabilities plus 1, 0 for "less than 1". -/
def llDefault : Fse := fseBuild 6
  [5, 4, 3, 3, 3, 3, 3, 3, 3, 3, 3, 3, 3, 2, 2, 2, 3, 3, 3, 3, 3, 3, 3, 3, 3, 4, 3, 2, 2, 2, 2, 2, 0, 0, 0, 0]
def mlDefault : Fse := fseBuild 6 ([2, 5, 4, 3, 3, 3, 3, 3, 3] ++ List.replicate 37 2 ++ List.replicate 7 0)
def ofDefault : Fse := fseBuild 5 (List.replicate 6 2 ++ [3, 3, 3] ++ List.replicate 15 2 ++ List.replicate 5 0)

/-- What later blocks of a frame may refer to: the literals' code, the tables for literals lengths, offsets and match
lengths, and the three repeat offsets. -/
structure Zst where
  huff : Option Huff
  ll : Option Fse
  off : Option Fse
  ml : Option Fse
  reps : Nat × Nat × Nat
  deriving DecidableEq, Repr

/-- At the start of a frame. -/
def Zst.start : Zst := ⟨none, none, none, none, (1, 4, 8)⟩

/-- One output step: a literal run, or a match of an offset and a length. -/
inductive Run where
  | lit (b : Bytes) | copy (off len : Nat)
  deriving DecidableEq, Repr

/-- The table a mode selects: predefined, one symbol, described, or the last one. -/
def seqTable (mode maxAl max : Nat) (dflt : Fse) (old : Option Fse) (b : Bytes) : Option (Fse × Bytes) :=
  if mode = 0 then some (dflt, b)
  else if mode = 1 then match b with
    | [] => none
    | s :: r => if s.toNat < max then some (fseRle s.toNat, r) else none
  else if mode = 2 then fseRead maxAl max b
  else old.map fun t => (t, b)

/-- The offset of an offset value and the repeat offsets after it; a value of 1 to 3 repeats, one further where the
literals length is 0. -/
def repeatOffset (reps : Nat × Nat × Nat) (v ll : Nat) : Nat × (Nat × Nat × Nat) :=
  let (a, b, c) := reps
  if 3 < v then (v - 3, (v - 3, a, b))
  else match (if ll = 0 then v + 1 else v) with
    | 1 => (a, (a, b, c))
    | 2 => (b, (b, a, c))
    | 3 => (c, (c, a, b))
    | _ => (a - 1, (a - 1, a, b))

/-- One sequence's lengths and offset value from the three codes. -/
def seqRead (lc oc mc : Nat) (s : Bits) : Option (Nat × Nat × Nat × Bits) :=
  let l := nth llCodes lc (0, 0)
  let m := nth mlCodes mc (0, 0)
  match s.read oc with
  | none => none
  | some (o, s) => match s.read m.2 with
    | none => none
    | some (x, s) => match s.read l.2 with
      | none => none
      | some (y, s) => some (l.1 + y, 2 ^ oc + o, m.1 + x, s)

/-- The next states, in the order literals length, match length, offset. -/
def seqNext (lt ot mt : Fse) (a b c : Nat) (s : Bits) : Option (Nat × Nat × Nat × Bits) :=
  match lt.next a s with
  | none => none
  | some (a, s) => match mt.next c s with
    | none => none
    | some (c, s) => match ot.next b s with
      | none => none
      | some (b, s) => some (a, b, c, s)

/-- The runs of `n` sequences over the literals left: the runs up to the first fault, whether there was none, and the
repeat offsets. -/
def seqRuns (lt ot mt : Fse) : Nat → Nat → Nat → Nat → Bytes → Nat × Nat × Nat → Bits → List Run × Bool × (Nat × Nat × Nat)
  | 0, _, _, _, lits, reps, s => if s.done then ([.lit lits], true, reps) else ([], false, reps)
  | n + 1, a, b, c, lits, reps, s =>
    match seqRead (lt.sym a) (ot.sym b) (mt.sym c) s with
    | none => ([], false, reps)
    | some (ll, v, ml, s) =>
      let o := repeatOffset reps v ll
      if lits.length < ll then ([], false, reps)
      else if o.1 = 0 then ([.lit (lits.take ll)], false, reps)
      else
        let more := match (if n = 0 then some (a, b, c, s) else seqNext lt ot mt a b c s) with
          | none => ([], false, o.2)
          | some (a, b, c, s) => seqRuns lt ot mt n a b c (lits.drop ll) o.2 s
        (.lit (lits.take ll) :: .copy o.1 ml :: more.1, more.2)

/-- The count of sequences and the bytes behind it. -/
def seqCount (b : Bytes) : Option (Nat × Bytes) :=
  match b with
  | [] => none
  | x :: r =>
    let x := x.toNat
    if x < 128 then some (x, r)
    else if x < 255 then (if r.length < 1 then none else some ((x - 128) * 256 + leNat (r.take 1), r.drop 1))
    else if r.length < 2 then none else some (leNat (r.take 2) + 0x7F00, r.drop 2)

/-- The initial states of the three tables. -/
def seqStart (lt ot mt : Fse) (b : Bytes) : Option (Nat × Nat × Nat × Bits) :=
  match bitsOpen b with
  | none => none
  | some s => match s.read lt.al with
    | none => none
    | some (a, s) => match s.read ot.al with
      | none => none
      | some (b, s) => match s.read mt.al with
        | none => none
        | some (c, s) => some (a, b, c, s)

/-- The three tables of a sequences section, and its bit stream. -/
def seqTables (z : Zst) (b : Bytes) : Option (Fse × Fse × Fse × Bytes) :=
  match b with
  | [] => none
  | m :: r =>
    let m := m.toNat
    if m % 4 ≠ 0 then none
    else match seqTable (m / 64) 9 36 llDefault z.ll r with
      | none => none
      | some (lt, r) => match seqTable (m / 16 % 4) 8 32 ofDefault z.off r with
        | none => none
        | some (ot, r) => match seqTable (m / 4 % 4) 9 53 mlDefault z.ml r with
          | none => none
          | some (mt, r) => some (lt, ot, mt, r)

/-- A compressed block: its runs up to the first fault of its coding, whether there was none, and what later blocks may
refer to. -/
def blockRuns (z : Zst) (b : Bytes) : List Run × Bool × Zst :=
  match literals z.huff b with
  | none => ([], false, z)
  | some (lits, hf, r) => match seqCount r with
    | none => ([], false, z)
    | some (n, r) =>
      if n = 0 then (if r.isEmpty then ([.lit lits], true, { z with huff := hf }) else ([], false, z))
      else match seqTables z r with
        | none => ([], false, z)
        | some (lt, ot, mt, r) => match seqStart lt ot mt r with
          | none => ([], false, z)
          | some (a, b, c, s) =>
            let x := seqRuns lt ot mt n a b c lits z.reps s
            (x.1, x.2.1, ⟨hf, some lt, some ot, some mt, x.2.2⟩)

end Sys2Proof.Machine
end

