-- ==== Sys2Proof/Machine/Codec.lean ====
section
/-! DEFINITION. What the eft units compute: CRCs, the clutch header, GF(2⁸), the Zstandard guard, protection
information, XTS (R70, R71, R75, R139-R148, R152, R281). -/

namespace Sys2Proof.Machine

open Sys2Proof

/-! ## CRCs -/

/-- One bit step of a CRC that is not reflected, of `w` bits. -/
def crcStep (w poly reg : Nat) : Nat :=
  if reg.testBit (w - 1) then ((reg <<< 1) ^^^ poly) % 2 ^ w else (reg <<< 1) % 2 ^ w

/-- A CRC of `w` bits, most significant bit first. -/
def crcBytes (w poly init : Nat) (b : Bytes) : Nat :=
  b.foldl (fun r x => (List.range 8).foldl (fun q _ => crcStep w poly q) (r ^^^ (x.toNat <<< (w - 8)))) init

/-- One bit step of a reflected CRC. -/
def crcStepR (poly reg : Nat) : Nat := if reg.testBit 0 then (reg >>> 1) ^^^ poly else reg >>> 1

/-- A reflected CRC with its final XOR. -/
def crcBytesR (poly init xorOut : Nat) (b : Bytes) : Nat :=
  (b.foldl (fun r x => (List.range 8).foldl (fun q _ => crcStepR poly q) (r ^^^ x.toNat)) init) ^^^ xorOut

/-- The CRC16 of R71: polynomial 0x1021, initial value 0xFFFF, no reflection, no final XOR. -/
def crc16 (b : Bytes) : Nat := crcBytes 16 0x1021 0xFFFF b

/-- CRC-32 of the link's frames (R281): polynomial 04C11DB7h, reflected. -/
def crc32 (b : Bytes) : Nat := crcBytesR 0xEDB88320 0xFFFFFFFF 0xFFFFFFFF b

/-- CRC32C (the Castagnoli CRC, reflected, as is usual; assumption 12). -/
def crc32c (b : Bytes) : Nat := crcBytesR 0x82F63B78 0xFFFFFFFF 0xFFFFFFFF b

/-- The 16-bit guard CRC of an 8 B tuple, polynomial 0x8BB7 (assumption 12). -/
def guard16 (b : Bytes) : Nat := crcBytes 16 0x8BB7 0 b

/-- The 64-bit guard CRC of a 16 B tuple (assumption 12). -/
def guard64 (b : Bytes) : Nat := crcBytesR 0x9A6C9329AC4BC9B5 0xFFFFFFFFFFFFFFFF 0xFFFFFFFFFFFFFFFF b

/-! ## The clutch header (R70) -/

def clutchMagic : Nat := 0x4C59

/-- Bytes 0 to 27 of a header, over which the CRC16 runs. -/
def Hdr.head (h : Hdr) : Bytes :=
  leBytes 2 h.magic ++ leBytes 1 h.fmt ++ leBytes 1 h.level ++ leBytes 4 h.llen ++ leBytes 4 h.slen
    ++ leBytes 4 h.check ++ leBytes 8 h.lba ++ leBytes 4 h.tag

/-- The 32 header bytes. -/
def Hdr.bytes (h : Hdr) : Bytes := h.head ++ leBytes 2 h.crc ++ [0, 0]

/-- The header with its CRC16 computed (R71). -/
def Hdr.seal (h : Hdr) : Hdr := { h with crc := crc16 h.head }

/-- Magic and CRC16 are right, and the format is one of the two (R70). -/
def Hdr.good (h : Hdr) : Bool := h.magic = clutchMagic && decide (h.fmt ≤ 1) && h.crc = crc16 h.head

/-- Stored size in granules of a body and a PI tail: ⌈(32 + stored + tail) / 64⌉ (R69). -/
def granulesOf (body tail : Nat) : Nat := ceilDiv (32 + body + tail) 64

/-- Granules a stored clutch takes. -/
def Stored.gran (c : Stored) : Nat := (32 + c.region.length) / 64

/-- PI tail bytes per block of an LBA format (R532). -/
def piBytes (fmt : Nat) : Nat := if fmt = 1 then 8 else if fmt = 2 then 16 else 0

/-- The gain threshold of a clutch (R140). -/
def gainThreshold (llen tail : Nat) : Nat := (granulesOf llen tail - 1) * 64 - 32 - tail

/-! ## XTS-AES-256 (R144): one data unit, tweak = first LBA as 128-bit little-endian -/

def xorBytes (a b : Bytes) : Bytes := List.zipWith (· ^^^ ·) a b

/-- Multiply a tweak by x in GF(2^128) as IEEE 1619 does. -/
def xtsMul (t : Bytes) : Bytes :=
  let n := leNat t
  leBytes 16 (((n <<< 1) % 2 ^ 128) ^^^ (if n.testBit 127 then 0x87 else 0))

/-- XTS over whole 16-byte blocks (`k` blocks). -/
def xtsBlocks (f : Bytes → Bytes) : Nat → Bytes → Bytes → Bytes
  | 0, _, _ => []
  | k + 1, t, b => xorBytes (f (xorBytes (b.take 16) t)) t ++ xtsBlocks f k (xtsMul t) (b.drop 16)

/-- Encrypt a region under a 64-byte XTS pair. -/
def xtsEnc (key : Bytes) (lba : Nat) (b : Bytes) : Bytes :=
  let ks := aesRoundKeys (key.take 32)
  xtsBlocks (aesEncWith ks) (b.length / 16) (aesEnc (key.drop 32) (leBytes 16 lba)) b

def xtsDec (key : Bytes) (lba : Nat) (b : Bytes) : Bytes :=
  let ks := aesRoundKeys (key.take 32)
  xtsBlocks (aesDecWith ks) (b.length / 16) (aesEnc (key.drop 32) (leBytes 16 lba)) b

/-! ## GF(2⁸) with polynomial 0x11D (R152) -/

def gfDouble (a : Nat) : Nat := let d := a <<< 1; if d.testBit 8 then d ^^^ 0x11D else d

def gfMulAux : Nat → Nat → Nat → Nat
  | 0, _, _ => 0
  | k + 1, a, b => (if b.testBit 0 then a else 0) ^^^ gfMulAux k (gfDouble a) (b >>> 1)

def gfMul (a b : Nat) : Nat := gfMulAux 8 a b

/-- 2 to the `j` in the field. -/
def gfPow2 : Nat → Nat
  | 0 => 1
  | j + 1 => gfDouble (gfPow2 j)

/-- Add coefficient times a vector into an accumulator (R152). -/
def gfAcc (c : Nat) (acc v : Bytes) : Bytes :=
  List.zipWith (fun a x => a ^^^ byte (gfMul c x.toNat)) acc v

/-- P and Q of the data members' bytes (R153). -/
def parityP (l : List Bytes) (n : Nat) : Bytes := l.foldl (fun a d => gfAcc 1 a d) (zeros n)
def parityQ (l : List Bytes) (n : Nat) : Bytes :=
  ((List.range l.length).zip l).foldl (fun a d => gfAcc (gfPow2 d.1) a d.2) (zeros n)

/-- The inverse in the field: the 254th power, every element but 0 being of an order that divides 255. -/
def gfInv (x : Nat) : Nat := (List.range 254).foldl (fun a _ => gfMul a x) 1

/-! Lost data members from those that are left and from parity, as repair terms with the inverse coefficients (R153). `l` holds the
data members in order, with zeros for the lost ones. -/

/-- One lost member, from P. -/
def rebuildFromP (l : List Bytes) (p : Bytes) : Bytes := gfAcc 1 p (parityP l p.length)

/-- Lost member `j`, from Q. -/
def rebuildFromQ (l : List Bytes) (j : Nat) (q : Bytes) : Bytes :=
  gfAcc (gfInv (gfPow2 j)) (zeros q.length) (gfAcc 1 q (parityQ l q.length))

/-- Lost members `i` and `j`, from P and Q: D_j = (Q' + 2^i P') / (2^i + 2^j) and D_i = P' + D_j, where P' and Q' are what P and Q
differ by from the members left. -/
def rebuildTwo (l : List Bytes) (i j : Nat) (p q : Bytes) : Bytes × Bytes :=
  let p' := gfAcc 1 p (parityP l p.length)
  let q' := gfAcc 1 q (parityQ l q.length)
  let dj := gfAcc (gfInv (gfPow2 i ^^^ gfPow2 j)) (zeros p.length) (gfAcc (gfPow2 i) q' p')
  (gfAcc 1 p' dj, dj)

/-! ## Decompressor guard (R146, R147, R148) -/

/-- What the guard answers: OK with the output, or a stop reason. -/
inductive Guard where
  | ok (out : Bytes) | stop (reason : Nat)
  deriving DecidableEq, Repr

def gEND : Nat := 1
def gFORM : Nat := 2
def gOFFSET : Nat := 3
def gLIMIT : Nat := 4
def gSHORT : Nat := 5
def gRAWLEN : Nat := 6

/-- A logical length the guard refuses. -/
def badLogical (llen clutch : Nat) : Bool := llen % 4096 ≠ 0 || llen < 4096 || llen > clutch * 4096

/-- The frame header read byte by byte (R146, R147): its length and content size, or the stop reason. -/
def frameHeader (b : Bytes) : Nat ⊕ (Nat × Nat) :=
  let magic : Bytes := [0x28, 0xB5, 0x2F, 0xFD]
  let seen := b.take 4
  if seen ≠ magic.take seen.length then .inl gFORM
  else if b.length < 5 then .inl gEND
  else
    let d := (nth b 4 0).toNat
    let fcs := d / 64
    if !(d.testBit 5) || d % 32 ≠ 0 || fcs = 0 then .inl gFORM
    else
      let n := if fcs = 1 then 2 else if fcs = 2 then 4 else 8
      if b.length < 5 + n then .inl gEND
      else
        let v := leNat ((b.drop 5).take n)
        .inr (5 + n, if fcs = 1 then v + 256 else v)

/-- A block header: last flag, type, size. -/
def blockHeader (b : Bytes) : Bool × Nat × Nat :=
  let v := leNat (b.take 3)
  (v % 2 = 1, v / 2 % 4, v / 8)

/-- Pass 1: walk the structure from the block headers (`fuel` blocks). Answers 0 when the frame ends exactly. -/
def walk (lim : Nat) : Nat → Bytes → Nat
  | 0, _ => gEND
  | fuel + 1, b =>
    if b.length < 3 then gEND
    else
      let h := blockHeader b
      if h.2.1 = 3 || h.2.2 > lim then gFORM
      else
        let n := if h.2.1 = 1 then 1 else h.2.2
        if b.length < 3 + n then gEND
        else if h.1 then (if b.length = 3 + n then 0 else gEND) else walk lim fuel (b.drop (3 + n))

/-- Copy a match of an offset behind the output's end; the output stands last byte first. -/
def copyMatch : Nat → Nat → Bytes → Bytes
  | 0, _, out => out
  | k + 1, off, out => copyMatch k off (nth out (off - 1) 0 :: out)

/-- Pass 2 over one block's runs: the output, last byte first, and its length, or the stop reason. -/
def runRuns (lim : Nat) : List Run → Nat → Bytes → Nat ⊕ (Nat × Bytes)
  | [], n, out => .inr (n, out)
  | .lit b :: r, n, out =>
    if n + b.length > lim then .inl gLIMIT else runRuns lim r (n + b.length) (b.reverse ++ out)
  | .copy off len :: r, n, out =>
    if off > n then .inl gOFFSET
    else if n + len > lim then .inl gLIMIT
    else runRuns lim r (n + len) (copyMatch len off out)

/-- Pass 2: decode block after block. Bad entropy coding stops with FORM behind the runs that come before it. -/
def decodeBlocks (lim : Nat) : Nat → Zst → Bytes → Nat → Bytes → Guard
  | 0, _, _, _, out => .ok out.reverse
  | fuel + 1, z, b, k, out =>
    let h := blockHeader b
    let n := if h.2.1 = 1 then 1 else h.2.2
    let body := (b.drop 3).take n
    let x : List Run × Bool × Zst :=
      if h.2.1 = 0 then ([.lit body], true, z)
      else if h.2.1 = 1 then ([.lit (List.replicate h.2.2 (nth body 0 0))], true, z)
      else blockRuns z body
    match runRuns lim x.1 k out with
    | .inl r => .stop r
    | .inr (k', out') =>
      if !x.2.1 then .stop gFORM
      else if h.1 then .ok out'.reverse else decodeBlocks lim fuel x.2.2 (b.drop (3 + n)) k' out'

/-- The guard of R147 over a body of `slen` bytes, for a namespace of `clutch` blocks per clutch. -/
def guard (clutch fmt llen slen : Nat) (body : Bytes) : Guard :=
  let lim := min llen 131072
  if badLogical llen clutch then .stop gFORM
  else if fmt = 1 then (if slen = llen then .ok body else .stop gRAWLEN)
  else match frameHeader body with
    | .inl r => .stop r
    | .inr (p, fcs) =>
      if fcs ≠ llen then .stop gFORM
      else
        let rest := body.drop p
        match walk lim rest.length rest with
        | 0 => match decodeBlocks lim rest.length .start rest 0 [] with
          | .stop r => .stop r
          | .ok out => if out.length = llen then .ok out else .stop gSHORT
        | r => .stop r

/-! ## The encoder (R138, R139) -/

/-- A block's header: last flag, type, size. -/
def blockHead (last : Bool) (type size : Nat) : Bytes := leBytes 3 ((if last then 1 else 0) + 2 * type + 8 * size)

/-- Candidates the match search examines at each position, at levels 1 to 9; level 0 bypasses the compressor (R138). -/
def searchDepth (level : Nat) : Nat := if level = 0 then 0 else 2 ^ (min level 9 + 1)

/-- One block per 32 KiB of input, each the smallest of a compressed, an RLE and a raw block. The content of a
compressed block is free but for this: it decodes to the block's input, so what does not is no block the encoder emits.
`k` bytes of input came before, in `out` last byte first. -/
def encodeBlocks (level lim : Nat) : Nat → Zst → Nat → Bytes → Bytes → Bytes
  | 0, _, _, _, _ => []
  | fuel + 1, z, k, out, data =>
    let chunk := data.take 32768
    let rest := data.drop 32768
    let out' := chunk.reverse ++ out
    let k' := k + chunk.length
    if chunk.all (· = nth chunk 0 0) then
      blockHead rest.isEmpty 1 chunk.length ++ chunk.take 1 ++ (if rest.isEmpty then [] else encodeBlocks level lim fuel z k' out' rest)
    else
      let c := Config.compressBlock (searchDepth level) out.reverse chunk
      let x := blockRuns z c
      if c.length < chunk.length && x.2.1 && decide (runRuns lim x.1 k out = .inr (k', out')) then
        blockHead rest.isEmpty 2 c.length ++ c ++ (if rest.isEmpty then [] else encodeBlocks level lim fuel x.2.2 k' out' rest)
      else
        blockHead rest.isEmpty 0 chunk.length ++ chunk ++ (if rest.isEmpty then [] else encodeBlocks level lim fuel z k' out' rest)

/-- The frame of a clutch: a content size of 2 bytes up to 64 KiB, else of 4. -/
def encode (level : Nat) (data : Bytes) : Bytes :=
  let n := data.length
  [0x28, 0xB5, 0x2F, 0xFD] ++ (if n ≤ 65536 then [0x60] ++ leBytes 2 (n - 256) else [0xA0] ++ leBytes 4 n) ++
    encodeBlocks level (min n 131072) (ceilDiv n 32768) .start 0 [] data

/-- Status of a stop reason for the read class, and for Verified Precompressed Write (R148). -/
def guardStatusRead (_ : Nat) : Status := .decompressLimit
def guardStatusVpw (r : Nat) : Status := if r = gEND || r = gSHORT then .lengthMismatch else .decompressLimit

/-! ## Protection information (R75, R532) -/

/-- A block's guard for an LBA format. -/
def piGuard (fmt : Nat) (block : Bytes) : Nat := if fmt = 2 then guard64 block else guard16 block

/-- The tuple of a block: guard, application tag, reference tag (R532). -/
def piTuple (fmt appTag lba : Nat) (block : Bytes) : Bytes :=
  if fmt = 1 then beBytes 2 (guard16 block) ++ beBytes 2 appTag ++ beBytes 4 lba
  else if fmt = 2 then beBytes 8 (guard64 block) ++ beBytes 2 appTag ++ beBytes 6 lba
  else []

/-- Tuples for consecutive blocks. -/
def piTail (fmt appTag lba : Nat) (data : Bytes) (blocks : Nat) : Bytes :=
  (List.range blocks).flatMap fun i => piTuple fmt appTag (lba + i) ((data.drop (4096 * i)).take 4096)

/-- Check one tuple under PRINFO: bit 2 guard, bit 1 application tag, bit 0 reference tag. Type 1: a tuple whose application tag is
FFFFh is not checked, as NVMe has it. -/
def piCheck (fmt prinfo appTag appMask lba : Nat) (block tuple : Bytes) : Option Status :=
  let g := if fmt = 2 then 8 else 2
  let r := if fmt = 2 then 6 else 4
  if beNat ((tuple.drop g).take 2) = 0xFFFF then none
  else if prinfo.testBit 2 && beNat (tuple.take g) ≠ piGuard fmt block then some .guardError
  else if prinfo.testBit 1 && (beNat ((tuple.drop g).take 2)) &&& appMask ≠ appTag &&& appMask then some .appTagError
  else if prinfo.testBit 0 && beNat ((tuple.drop (g + 2)).take r) ≠ lba % 2 ^ (8 * r) then some .refTagError
  else none

/-- Check the tuples of consecutive blocks; the first failure decides. -/
def piCheckAll (fmt prinfo appTag appMask : Nat) : Nat → Nat → Bytes → Bytes → Option Status
  | 0, _, _, _ => none
  | k + 1, lba, data, tail =>
    if fmt = 0 then none
    else match piCheck fmt prinfo appTag appMask lba (data.take 4096) (tail.take (piBytes fmt)) with
      | some st => some st
      | none => piCheckAll fmt prinfo appTag appMask k (lba + 1) (data.drop 4096) (tail.drop (piBytes fmt))

/-! ## Locators (R76) -/

def mkLocator (zone gran ngran fmt : Nat) : Nat := zone <<< 40 + gran <<< 14 + (ngran - 1) <<< 2 + fmt
def locZone (l : Nat) : Nat := l >>> 40
def locGran (l : Nat) : Nat := getBits l 39 14
def locLen (l : Nat) : Nat := getBits l 13 2
def locFmt (l : Nat) : Nat := l % 4

end Sys2Proof.Machine
end

