-- ==== Sys2Proof/Machine/Flags.lean ====
section
/-! DEFINITION. Flag computations: DNR of each status, severities, over-quota flags, the Critical Warning byte,
the causes of ALERT_N. -/

namespace Sys2Proof.Machine

open Sys2Proof

/-- DNR of a status (R126, R529): clear where the condition can pass by itself. -/
def Status.dnr : Status → Bool
  | .success | .nsNotReady | .commandInterrupted | .abortRequested | .sanitizeInProgress | .internalError
  | .tooManyOpen | .tooManyActive | .selfTestInProgress | .fwActivationProhibited | .commandSequence
  | .operationDenied | .fenceBroken | .quotaExceeded | .peerUnreachable | .engineOwned => false
  | _ => true

/-- Status code of a vendor status, status code type 7h (R126). -/
def Status.vendorCode : Status → Option Nat
  | .fenceBroken => some 0xC0
  | .quotaExceeded => some 0xC1
  | .decompressLimit => some 0xC2
  | .checkMismatch => some 0xC3
  | .locatorStale => some 0xC4
  | .peerUnreachable => some 0xC5
  | .engineOwned => some 0xC6
  | .keySlotEmpty => some 0xC7
  | .lengthMismatch => some 0xC8
  | .notErased => some 0xC9
  | .indexExhausted => some 0xCA
  | _ => none

/-- A command ended with one of these counts as a Media and Data Integrity Error (R473). -/
def Status.mediaError : Status → Bool
  | .unrecoveredRead | .checkMismatch | .decompressLimit | .guardError | .appTagError | .refTagError => true
  | _ => false

/-- Severity of an event code (R482). -/
def evSeverity : Nat → Nat
  | 0x0002 | 0x0101 | 0x0701 => 0
  | 0x0001 | 0x0003 | 0x0105 | 0x0108 | 0x0405 | 0x0601 | 0x0C02 => 1
  | 0x0005 | 0x0102 | 0x0104 | 0x0401 | 0x0602 | 0x0603 | 0x0604 | 0x0702 | 0x0704 | 0x0A02 | 0x0B01 => 2
  | 0x0106 | 0x0107 | 0x0109 | 0x0303 | 0x0403 | 0x0404 | 0x0407 | 0x0C01 => 4
  | _ => 3

/-- Token capacity and refill period (ms) of a severity (R486); critical is never limited. -/
def evCapacity : Nat → Nat
  | 0 => 8 | 1 => 16 | 2 => 32 | 3 => 64 | _ => 0
def evRefillMs : Nat → Nat
  | 0 => 1000 | 1 => 500 | 2 => 250 | 3 => 125 | _ => 0

/-! ## Over-quota flags (R332, R338) -/

/-- Key slots a function has loaded: media slots it holds and Key Per I/O keys. -/
def State.mediaOf (s : State) (f : Nat) : Nat := ((s.nssOf f).filter (·.slot.isSome)).length

/-- The over-quota flags of a function: a flag stands while its use is not below a limit that was cut below
it. Zero limits mean no function limit. `was` is the flag as it stood (a full quota that was never cut sets no
flag; one that was cut clears only below the limit). -/
def overFlag (was cut : Bool) (use limit : Nat) : Bool := (was || cut) && limit ≠ 0 && decide (limit ≤ use)

/-- The uses in flag order: queue pairs, key slots, open, active, namespaces, buffer, stripes, in flight. -/
def State.useList (s : State) (f : Nat) : List Nat :=
  [(s.fn f).created, s.mediaOf f, s.openOf f, s.activeOf f, (s.nssOf f).length, s.bufOf f, s.stripesOf f,
   s.inflight f]

def State.limitList (s : State) (f : Nat) : List Nat :=
  [s.rd (Fd.VFM_FN_QP_LIMIT f), s.rd (Fd.VFM_FN_KEYS_SLOTS f), s.rd (Fd.VFM_FN_OPEN_QUOTA f),
   s.rd (Fd.VFM_FN_ACTIVE_QUOTA f), s.rd (Fd.VFM_FN_NS_QUOTA f), s.rd (Fd.VFM_FN_BUF_QUOTA f),
   s.rd (Fd.VFM_FN_STRIPEQ_COUNT f), s.rd (Fd.VFM_FN_INFLIGHT_LIMIT f)]

/-- Flags as bits, lowest first. -/
def bitsOf : List Bool → Nat
  | [] => 0
  | b :: r => b.toNat + 2 * bitsOf r

/-- Whether flag `i`'s use stands at or over its limit. -/
def State.atLimit (s : State) (f i : Nat) : Bool :=
  let l := nth (s.limitList f) i 0
  l ≠ 0 && decide (l ≤ nth (s.useList f) i 0)

/-- Clear the over-quota flags of a function whose use has fallen below the limit (R332, R334). The stored
field keeps the flags set; a flag that no longer applies reads 0 from here on. -/
def State.overNow (s : State) (f : Nat) : Nat :=
  bitsOf ((List.range 8).map fun i => (s.rd (Fd.VFM_FN_STATE_OVERQ f)).testBit i && s.atLimit f i)

/-- Set the flags of the resources in `cut` that stand at or over their limit (R332). -/
def State.cutFlags (s : State) (f : Nat) (cut : List Nat) : State :=
  s.wr (Fd.VFM_FN_STATE_OVERQ f)
    (bitsOf ((List.range 8).map fun i =>
      ((s.rd (Fd.VFM_FN_STATE_OVERQ f)).testBit i || cut.contains i) && s.atLimit f i))

/-- Clear what no longer applies, in the stored field, after a use has fallen (R332, R334). -/
def State.settleFlags (s : State) (f : Nat) : State := s.wr (Fd.VFM_FN_STATE_OVERQ f) (s.overNow f)

/-! ## Critical Warning (R473) -/

/-- A signed reading kept in `len` bits. -/
def signed (len v : Nat) : Int := if v < 2 ^ (len - 1) then (v : Int) else (v : Int) - (2 ^ len : Nat)

/-- The composite temperature in °C. -/
def State.composite (s : State) : Int := signed 8 (s.rd Fd.GK_THERM_COMPOSITE)

/-- A reading's USED value. -/
def State.tempUsed (s : State) (k : Nat) : Int := signed 8 (s.rd (Fd.GK_TEMP_USED k))

/-- TD input `k` is in use: diode or thermistor (reading 16 + k). Code 11 acts as unused (R429). -/
def State.tdUsed (s : State) (k : Nat) : Bool := s.rd (Fd.GK_TDCFG_MODE k) = 1 || s.rd (Fd.GK_TDCFG_MODE k) = 2

/-- Bit 1: the composite or a used TD input beyond PF0's thresholds, in kelvin. -/
def State.tempWarn (s : State) : Bool :=
  let f := s.fn 0
  let beyond (c : Int) (hi lo : Nat) : Bool := decide ((hi : Int) ≤ c + 273) || decide (c + 273 ≤ (lo : Int) ∧ lo ≠ 0)
  beyond s.composite f.tmtOver f.tmtUnder ||
    (List.range 8).any fun k => s.tdUsed k &&
      (decide ((((f.sensorOver.find? (·.1 = k)).map (·.2)).getD 0xFFFF : Int) ≤ s.tempUsed (16 + k) + 273) ||
       decide (s.tempUsed (16 + k) + 273 ≤ (((f.sensorUnder.find? (·.1 = k)).map (·.2)).getD 0 : Nat)
          ∧ ((f.sensorUnder.find? (·.1 = k)).map (·.2)).getD 0 ≠ 0))

/-- The Critical Warning byte now. Bit 2 stays until a start (R473). -/
def State.critNow (s : State) : Nat :=
  bitsOf [decide (s.rd Fd.HLT_LIFE_SPARE < 10),
    s.tempWarn,
    s.rd Fd.TOP_MODE_MODE = 4 || s.hlt.dramCritical || s.med.auto.any (·.kind = 5) || (s.rd Fd.HLT_CRIT_CW).testBit 2,
    s.rd Fd.TOP_MODE_MODE = 8,
    s.hlt.holdup = 1]

/-- A thermal cause of R423: the level is at least 1, STOP is in force, or a reading is FAULT or SUSPECT. -/
def State.thermCause (s : State) : Bool :=
  s.flag Fd.GK_THCFG_ALERT_EN && (s.rd Fd.GK_THERM_LEVEL ≠ 0 || s.flag Fd.GK_THERM_STOP ||
    (List.range 24).any fun n => (decide (n < 16) || s.tdUsed (n - 16)) && (s.flag (Fd.GK_TEMP_FAULT n) || s.flag (Fd.GK_TEMP_SUSPECT n)))

/-- HLT_ALERT [3:0]: the causes now (R480, R494). -/
def State.alertCauses (s : State) : Nat :=
  bitsOf [s.thermCause, s.rd Fd.HLT_CRIT_CW ≠ 0, s.flag Fd.TOP_ERR_LOGMEM, s.flag Fd.HLT_ALERT_CRIT]

/-- ALERT_N is asserted while any unmasked cause is present (R480): the thermal causes are gated by
GK_THCFG.ALERT_EN and not by the mask; and while XIN is absent or out of tolerance with the rails up (R503). -/
def State.alertN (s : State) : Bool :=
  (s.pwr.on && !s.pins.xin) ||
  (List.range 4).any fun i => (s.alertCauses).testBit i && (i = 0 || !(s.rd Fd.HLT_ALERT_MASK).testBit i)

end Sys2Proof.Machine
end

