-- ==== Sys2Proof/Machine/Link.lean ====
section
/-! DEFINITION. The Druzinov Link's frames, routes, map, time tree and peer reads (R272-R311, R314). -/

namespace Sys2Proof.Machine

open Sys2Proof

/-! ## Position and neighbours (R272) -/

def State.member (s : State) : Bool := s.flag Fd.DZL_DEVID_MEMBER
def State.selfId (s : State) : Nat := s.rd Fd.DZL_DEVID_DEVID
def State.dimX (s : State) : Nat := s.rd Fd.DZL_GEOM_DIMX + 1
def State.dimY (s : State) : Nat := s.rd Fd.DZL_GEOM_DIMY + 1

/-- The device on port `p` of device `i`: +x, -x, +y, -y. -/
def State.neighbour (s : State) (i p : Nat) : Nat :=
  let w := s.dimX; let h := s.dimY
  let x := i % w; let y := i / w
  match p with
  | 0 => y * w + (x + 1) % w
  | 1 => y * w + (x + w - 1) % w
  | 2 => (y + 1) % h * w + x
  | _ => (y + h - 1) % h * w + x

/-- The port of the partner that faces a port. -/
def partnerPort (p : Nat) : Nat := if p % 2 = 0 then p + 1 else p - 1

/-- A port that is enabled and faces a used direction (R272, R274). -/
def State.portUsed (s : State) (p : Nat) : Bool :=
  s.member && (s.rd Fd.DZL_CFG_PORT_EN).testBit p && (decide (p < 2) || decide (1 < s.dimY))

/-! ## Ports (R274-R283, R314) -/

def pDISABLED : Nat := 0
def pNOSIGNAL : Nat := 1
def pTRAINING : Nat := 2
def pHELLO : Nat := 3
def pAUTH : Nat := 4
def pUP : Nat := 5
def pMISWIRED : Nat := 6
def pBACKOFF : Nat := 8

def State.port (s : State) (p : Nat) : Port := nth s.dzl.ports p Port.init
def State.modPort (s : State) (p : Nat) (g : Port → Port) : State :=
  { s with dzl := { s.dzl with ports := setNth s.dzl.ports p (g (s.port p)) } }
def State.pst (s : State) (p : Nat) : Nat := s.rd (Fd.DZL_P_STATE_STATE p)

/-- This device's own up-mask: none in conflict (R291). -/
def State.selfUp (s : State) : Nat :=
  if s.flag Fd.DZL_DEVID_CONFLICT then 0 else bitsOf ((List.range 4).map fun p => s.pst p = pUP)

/-! ## Sending (R280, R283) -/

/-- Send a frame of a session: it is numbered and kept until acknowledged; with 128 kept, or during a re-key, it
waits. -/
def State.sendFrame (s : State) (f : Frame) : State :=
  let p := s.port f.port
  if 128 ≤ p.unacked.length || p.rekey then s.modPort f.port fun q => { q with wait := q.wait ++ [f] }
  else
    let f := { f with seq := p.sendSeq }
    let s := s.modPort f.port fun q => { q with sendSeq := q.sendSeq + 1, unacked := q.unacked ++ [(0, f)] }
    { s with dzl := { s.dzl with frames := f :: s.dzl.frames } }

/-- The 256 bytes of a frame on the wire, with the low half of the next sequence expected on the reverse direction (R280, R281). -/
def Frame.bytes (f : Frame) (ack : Nat) : Bytes :=
  let b := leBytes 2 (f.dest % 1024) ++ leBytes 2 (f.source % 1024) ++ [byte f.type, byte f.flags] ++ leBytes 2 f.tag ++ leBytes 6 f.seq ++
    leBytes 2 (min 232 f.payload.length) ++ (f.payload ++ zeros 232).take 232 ++ leBytes 4 (ack % 2 ^ 32)
  b ++ leBytes 4 (crc32 b)

/-- What a port sends for a frame now. -/
def State.wire (s : State) (f : Frame) : Bytes := f.bytes (s.port f.port).recvSeq

/-- Send a frame outside any session: HELLO and AUTH. -/
def State.sendRaw (s : State) (p type flags : Nat) (b : Bytes) : State :=
  { s with dzl := { s.dzl with frames := ⟨p, 0, type, s.selfId, 0, flags, 0, b⟩ :: s.dzl.frames } }

/-- Send waiting frames as places become free (`fuel` of them). -/
def State.sendWaiting (p : Nat) : Nat → State → State
  | 0, s => s
  | k + 1, s =>
    match (s.port p).wait with
    | [] => s
    | f :: r =>
      if 128 ≤ (s.port p).unacked.length || (s.port p).rekey then s
      else State.sendWaiting p k ((s.modPort p fun q => { q with wait := r }).sendFrame f)

/-- An acknowledgement releases the frames before the sequence it names. -/
def State.acked (s : State) (p ack : Nat) : State :=
  let s := s.modPort p fun q => { q with unacked := q.unacked.filter fun (e : Nat × Frame) =>
    let d := (ack + 2 ^ 32 - e.2.seq % 2 ^ 32) % 2 ^ 32
    !(decide (1 ≤ d) && decide (d ≤ 2 ^ 31)) }
  State.sendWaiting p 128 s

/-! ## Routes (R293, R294) -/

/-- The up-mask of a device: this one's own, or the map's. -/
def State.upOf (s : State) (i : Nat) : Nat :=
  if i = s.selfId then s.selfUp else ((s.dzl.map.find? (·.id = i)).map (·.up)).getD 0
def State.inMap (s : State) (i : Nat) : Bool := i = s.selfId || s.dzl.map.any (·.id = i)

/-- Every link of `k` hops from a device through a port is UP. -/
def State.arcUp (s : State) (p : Nat) : Nat → Nat → Bool
  | 0, _ => true
  | k + 1, i => (s.upOf i).testBit p && (s.upOf (s.neighbour i p)).testBit (partnerPort p) && s.arcUp p k (s.neighbour i p)

/-- Direction in one dimension of size `n`: `plus` and `minus` are its ports, `f` and `t` coordinates, `i` where the
arc begins. Answers the minus bit and the hops. -/
def State.chooseDir (s : State) (n plus minus f t i : Nat) : Option (Bool × Nat) :=
  let k := (t + n - f) % n
  if k = 0 then some (false, 0)
  else
    let pref := decide (n - k < k)
    let hops (m : Bool) : Nat := if m then n - k else k
    let up (m : Bool) : Bool := s.arcUp (if m then minus else plus) (hops m) i
    if up pref then some (pref, hops pref) else if up (!pref) then some (!pref, hops (!pref)) else none

/-- A route from this device: first port, direction flags (bits 3 and 4), hops. -/
def State.route (s : State) (d : Nat) : Option (Nat × Nat × Nat) :=
  let w := s.dimX
  let i := s.selfId
  if w * s.dimY ≤ d || s.flag Fd.DZL_DEVID_CONFLICT then none
  else match s.chooseDir w 0 1 (i % w) (d % w) i with
  | none => none
  | some x => match s.chooseDir s.dimY 2 3 (i / w) (d / w) (i / w * w + d % w) with
    | none => none
    | some y => some (if x.2 ≠ 0 then x.1.toNat else 2 + y.1.toNat, 8 * x.1.toNat + 16 * y.1.toNat, x.2 + y.2)

/-- The VC bit on leaving device `i` through a port: 1 once the wrap link of the dimension is crossed, 0 again on
turning into y (R294). -/
def State.vcBit (s : State) (i p vc inX : Nat) : Nat :=
  let w := s.dimX
  let wrap := (p = 0 && i % w = w - 1) || (p = 1 && i % w = 0) || (p = 2 && i / w = s.dimY - 1) || (p = 3 && i / w = 0)
  if wrap then 1 else if 2 ≤ p && inX = 1 then 0 else vc

def State.reachable (s : State) (d : Nat) : Bool := s.member && (d = s.selfId || (s.inMap d && (s.route d).isSome))

/-- Send a routed frame along its route; false where there is none. -/
def State.sendRouted (s : State) (type dest flags tag : Nat) (b : Bytes) : Bool × State :=
  match s.route dest with
  | none => (false, s)
  | some r => (true, s.sendFrame ⟨r.1, 0, type, s.selfId, dest, flags + r.2.1 + s.vcBit s.selfId r.1 0 0, tag, b⟩)

/-! ## The time tree (R297, R298) -/

def State.framePeriod (s : State) : Nat := 8000000 * 2 ^ s.rd Fd.CHO_FRAME_FRAME

/-- This part's beat is present (R297). -/
def State.beatPresent (s : State) : Bool :=
  s.rd Fd.CHO_CTL_SRC ≠ 2 && 4 ≤ s.cho.pinGoods &&
  match s.cho.pinLast with
  | some t => decide (s.now ≤ t + s.framePeriod * 102 / 100)
  | none => false

/-- Neighbours of a device over UP links: port and device. -/
def State.upNeighbours (s : State) (i : Nat) : List (Nat × Nat) :=
  ((List.range 4).filter fun p => (decide (p < 2) || decide (1 < s.dimY)) && (s.upOf i).testBit p &&
    (s.upOf (s.neighbour i p)).testBit (partnerPort p)).map fun p => (p, s.neighbour i p)

/-- Hops from a root, by breadth (`fuel` rounds): devices found with their hops, and the latest round. -/
def State.spreadHops (s : State) : Nat → Nat → List (Nat × Nat) → List Nat → List (Nat × Nat)
  | 0, _, found, _ => found
  | k + 1, d, found, last =>
    let new := (last.flatMap fun i => (s.upNeighbours i).map (·.2)).foldl
      (fun (acc : List Nat) i => if found.any (fun e => e.1 = i) || acc.contains i then acc else acc ++ [i]) []
    if new.isEmpty then found else s.spreadHops k (d + 1) (found ++ new.map fun i => (i, d + 1)) new

def State.hopsFrom (s : State) (root : Nat) : List (Nat × Nat) := s.spreadHops 1024 0 [(root, 0)] [root]
def hopOf (h : List (Nat × Nat)) (i : Nat) : Option Nat := (h.find? (·.1 = i)).map (·.2)

/-- A device's parent port: fewest hops, then lower ID, then lower port. -/
def State.parentPort (s : State) (h : List (Nat × Nat)) (i : Nat) : Option Nat :=
  (argMin (fun (e : Nat × Nat) => ((hopOf h e.2).getD 2048) * 4096 + e.2 * 4 + e.1) ((s.upNeighbours i).filter fun e => (hopOf h e.2).isSome)).map (·.1)

/-- Members with a present beat. -/
def State.beatMembers (s : State) : List Nat :=
  (if s.beatPresent && !s.flag Fd.DZL_DEVID_CONFLICT then [s.selfId] else []) ++ (s.dzl.map.filter fun e => e.beat && e.id ≠ s.selfId).map (·.id)

def State.isRoot (s : State) : Bool := s.rd Fd.DZL_TIME_ROLE = 2

/-- Role, root, hops and parent for a root; routes with them. -/
def State.setRoot (s : State) (r : Option Nat) : State :=
  let s := (List.range 32).foldl (fun (s : State) i =>
    s.setWord (Reg.DZL_REACH i) (bitsOf ((List.range 32).map fun n => s.reachable (32 * i + n)))) s
  match r with
  | none => ((s.wr Fd.DZL_TIME_ROOTV 0).wr Fd.DZL_TIME_ROLE s.member.toNat).wr Fd.DZL_TIME_HOPS 0
  | some r =>
    let h := s.hopsFrom r
    let s := (s.wr Fd.DZL_TIME_ROOTV 1).wr Fd.DZL_TIME_ROOT r
    let s := s.wr Fd.DZL_TIME_ROLE (if !s.member then 0 else if r = s.selfId then 2 else 1)
    let s := s.wr Fd.DZL_TIME_HOPS (min 63 ((hopOf h s.selfId).getD 63))
    s.wr Fd.DZL_TIME_PARENT (if r = s.selfId then 0 else (s.parentPort h s.selfId).getD 0)

/-- Elect: the root stays while its beat is present; else the lowest ID with a present beat is root (R297). -/
def State.elect (s : State) : State :=
  if !s.member then s.setRoot none
  else
    let c := s.beatMembers
    let cur := s.rd Fd.DZL_TIME_ROOT
    if s.flag Fd.DZL_TIME_ROOTV && c.contains cur then s.setRoot (some cur)
    else match c with
      | [] => s.setRoot none
      | x :: r => s.setRoot (some (minNat r x))

/-- Ports whose neighbour has chosen this part as its parent. -/
def State.children (s : State) : List Nat :=
  if s.flag Fd.DZL_TIME_ROOTV then
    let h := s.hopsFrom (s.rd Fd.DZL_TIME_ROOT)
    ((s.upNeighbours s.selfId).filter fun e => e.2 ≠ s.rd Fd.DZL_TIME_ROOT && s.parentPort h e.2 = some (partnerPort e.1)).map (·.1)
  else []

/-- The TIME payload (R300). -/
def timePayload (root epoch frame switch hops sinceMs corr : Nat) : Bytes :=
  leBytes 2 root ++ leBytes 2 epoch ++ [byte frame, byte switch, byte hops, 0] ++ leBytes 4 (min sinceMs 0xFFFFFFFF) ++ leBytes 4 corr

/-- Send TIME to every child. -/
def State.sendTime (s : State) (b : Bytes) : State :=
  s.children.foldl (fun (s : State) p => s.sendFrame ⟨p, 0, 4, s.selfId, 0, 0, 0, b⟩) s

/-- The root's TIME at a frame start, with the Switch value of an announcement; its send delay is free. -/
def State.rootTime (s : State) (sinceMs : Nat) : State :=
  if !s.isRoot then s
  else
    let r := s.free (2 ^ 32)
    let s := r.2
    let k := s.dzl.announce - 1
    let s := s.sendTime (timePayload s.selfId s.dzl.epoch (s.rd Fd.CHO_FRAME_FRAME) k 0 sinceMs r.1)
    { s with dzl := { s.dzl with announce := k } }

/-! ## Status codes on the link (R305) -/

/-- Status code type and code of a status: type 7h for the vendor ones; the others as NVMe numbers them
(assumption 23). -/
def Status.code (st : Status) : Nat :=
  match st.vendorCode with
  | some c => 0x700 + c
  | none =>
    match st with
    | .success => 0x000
    | .invalidField => 0x002
    | .invalidNsOrFormat => 0x00B
    | .commandInterrupted => 0x021
    | .lbaOutOfRange => 0x080
    | .nsNotReady => 0x082
    | .invalidFormat => 0x10A
    | .zoneOffline => 0x1BB
    | .unrecoveredRead => 0x281
    | .guardError => 0x282
    | .appTagError => 0x283
    | .refTagError => 0x284
    | .accessDenied => 0x286
    | .deallocatedBlock => 0x287
    | _ => 0x006

/-- The status a requester takes from a PSTAT frame: Not Ready becomes Peer Unreachable. -/
def pstatStatus (c : Nat) : Status :=
  if c = Status.code .nsNotReady then .peerUnreachable
  else (([.success, .invalidField, .invalidNsOrFormat, .commandInterrupted, .lbaOutOfRange, .zoneOffline, .unrecoveredRead,
     .guardError, .appTagError, .refTagError, .accessDenied, .deallocatedBlock, .fenceBroken, .quotaExceeded, .decompressLimit,
     .checkMismatch, .locatorStale, .peerUnreachable, .engineOwned, .keySlotEmpty, .lengthMismatch] : List Status).find?
      fun x => Status.code x = c).getD .internalError

/-! ## Peer reads as requester (R303, R308, R311) -/

/-- The PREAD payload (R303). -/
def preadPayload (r : PeerReq) : Bytes :=
  leBytes 4 r.nsid ++ [byte r.kind, byte r.off] ++ leBytes 2 (r.count - 1) ++ leBytes 8 r.addr ++ leBytes 8 r.gen ++
  leBytes 2 r.keyTag ++ leBytes 2 r.fn ++ leBytes 4 r.peerTag ++ zeros 200

def State.modOut (s : State) (tag : Nat) (g : PeerOut → PeerOut) : State :=
  { s with dzl := { s.dzl with outs := s.dzl.outs.map fun o => if o.tag = tag then g o else o } }

def PeerOut.open (o : PeerOut) : Bool := o.sent && o.ended.isNone

/-- Send, or send again, an outstanding peer read. Without a route, or absent from the map, it fails. -/
def State.sendPread (s : State) (o : PeerOut) : State :=
  let r := if s.member && s.inMap o.req.dev then s.sendRouted 0x10 o.req.dev 0 o.tag (preadPayload o.req) else (false, s)
  if r.1 then
    let p := ((s.route o.req.dev).map fun x => x.2.1).getD 0
    let s := r.2.modOut o.tag fun o => { o with sent := true, sentAt := s.now, tries := o.tries + 1, data := [], path := p }
    { s with dzl := { s.dzl with sent := s.dzl.sent + 1 } }
  else s.modOut o.tag fun o => { o with sent := true, ended := some .peerUnreachable }

/-- Send the remote reads that wait, while fewer than 4,096 are outstanding (`fuel` of them). -/
def State.sendOuts : Nat → State → State
  | 0, s => s
  | k + 1, s =>
    match s.dzl.outs.find? fun o => !o.sent && o.ended.isNone && o.req.dev ≠ s.selfId && (s.cmd o.cmd).any Cmd.started with
    | none => s
    | some o => if 4096 ≤ (s.dzl.outs.filter fun o => o.open && o.req.dev ≠ s.selfId).length then s
      else State.sendOuts k (s.sendPread o)

/-- The peer reads of a command go with it: its landing space is freed (R311), and what waited for a place is sent (R308). -/
def State.dropOuts (s : State) (tag : Nat) : State :=
  State.sendOuts s.dzl.outs.length { s with dzl := { s.dzl with outs := s.dzl.outs.filter fun o => o.cmd ≠ tag } }

/-! ## Peer reads as responder (R305-R307) -/

/-- Blocks in 232 B pieces. -/
def pieces232 : Nat → Bytes → List Bytes
  | 0, _ => []
  | k + 1, b => if b.isEmpty then [] else b.take 232 :: pieces232 k (b.drop 232)

/-- A served read ends: PDATA frames and one PSTAT to a peer, or straight to the command it is a source of. -/
def State.peerAnswer (s : State) (i : PeerIn) (st : Status) (b : Bytes) : State :=
  let s := { s with dzl := { s.dzl with ins := s.dzl.ins.filter fun j => !(j.port = i.port && j.source = i.source && j.tag = i.tag) } }
  if i.port = 4 then s.modOut i.tag fun o => { o with data := b, ended := some st }
  else
    let ps := if st = .success then pieces232 b.length b else []
    let s := ps.foldl (fun (s : State) p => (s.sendRouted 0x11 i.source 0 i.tag p).2) s
    let s := (s.sendRouted 0x12 i.source 2 i.tag (leBytes 2 st.code ++ zeros 2 ++ leBytes 4 (if st = .success then b.length / 4096 else 0))).2
    { s with dzl := { s.dzl with served := s.dzl.served + 1 } }

/-- The command a served read runs as has ended (R306). Its record names port, source and transaction tag. -/
def State.peerEnd (s : State) (c : Cmd) (st : Status) (data : Payload) : State :=
  match s.dzl.ins.find? fun i => i.port = c.cid && i.source = c.slen && i.tag = c.check with
  | none => s
  | some i => s.peerAnswer i st (match data with | .bytes b => b | _ => [])

end Sys2Proof.Machine
end

