-- ==== Sys2Proof/Machine/Events.lean ====
section
/-! DEFINITION. Event records, asynchronous events, completions and mode changes: the operations most
commands share (R39, R481-R488, R530). -/

namespace Sys2Proof.Machine

open Sys2Proof

/-! ## Event records -/

/-- GK_PSTATE.CUR codes (R401): RUN 0, IDLE 1, SLEEP 2, DEEP 3, OFF 4. -/
def State.asleep (s : State) : Bool := s.rd Fd.GK_PSTATE_CUR = 2 || s.rd Fd.GK_PSTATE_CUR = 3

/-- CHO_COUNTER as one 64-bit value. -/
def State.counter (s : State) : Nat := s.word Reg.CHO_COUNTER + (s.word (Reg.CHO_COUNTER + 4)) <<< 32

/-- Queue a record for the persistent home; when the queue is full the oldest is dropped and lost (R484, R488). -/
def Evr.stage (e : Evr) (r : Rec) : Evr :=
  if e.staging.length < 4096 then { e with staging := e.staging ++ [r] }
  else { e with staging := e.staging.drop 1 ++ [r], lost := e.lost + 1 }

/-- Write a record: the AON ring first, then the staging queue, or the gecko's list in SLEEP and DEEP (R484).
A record of severity 4 latches HLT_ALERT.CRIT (R480). -/
def State.emit (s : State) (code supp : Nat) (payload : List Nat) : State :=
  let r : Rec := ⟨s.evr.nextSeq, s.counter, (s.now - s.pwr.onAt) / 1000 % 2 ^ 32, code, min supp 0xFFFF, payload⟩
  let e := { s.evr with nextSeq := s.evr.nextSeq + 1, aon := (r :: s.evr.aon).take 64 }
  let e := if s.asleep then { e with aonOnly := e.aonOnly ++ [r] } else e.stage r
  let s := { s with evr := e }.wr Fd.EVR_NEWEST_SEQ r.seq
  if evSeverity code = 4 then s.wr Fd.HLT_ALERT_CRIT 1 else s

/-- A code's token bucket; a full one where the code has not been used (R486). -/
def Evr.bucket (e : Evr) (code : Nat) : Bucket :=
  ((e.buckets.find? (·.1 = code)).map (·.2)).getD ⟨evCapacity (evSeverity code), 0, []⟩

def Evr.setBucket (e : Evr) (code : Nat) (b : Bucket) : Evr :=
  { e with buckets := (e.buckets.filter (·.1 ≠ code)) ++ [(code, b)] }

/-- An event happens: its record is written if its code's bucket has a token; else it is suppressed (R486). -/
def State.record (s : State) (code : Nat) (payload : List Nat) : State :=
  if evSeverity code = 4 then s.emit code 0 payload
  else
    let b := s.evr.bucket code
    if b.tokens = 0 then
      { s with evr := { s.evr.setBucket code { b with supp := min (b.supp + 1) 0xFFFF, last := payload } with
          suppressed := s.evr.suppressed + 1 } }
    else
      ({ s with evr := s.evr.setBucket code { b with tokens := b.tokens - 1, supp := 0 } }).emit code b.supp payload

/-! ## Completions -/

/-- Post a completion (R91, R105); DNR follows the status (R126, R529). -/
def State.post (s : State) (fn qid cid : Nat) (st : Status) (dw0 dw1 : Nat) (data : Payload) : State :=
  let s := { s with cqes := ⟨fn, qid, cid, st, dw0, dw1, data, st.dnr⟩ :: s.cqes }
  if st = .success then s
  else s.modFn fn fun f => { f with mediaErrors := f.mediaErrors + st.mediaError.toNat, errors := f.errors + 1 }

/-- A command that completes in the step that takes it: admin commands and immediate I/O commands. A failed
command's position breaks the window it stands in (R101). -/
def State.done (s : State) (src : Src) (st : Status) (dw0 dw1 : Nat) (data : Payload) : State :=
  let s := s.post src.fn src.qid src.cid st dw0 dw1 data
  if st = .success then s
  else s.modSq src.fn src.qid fun q => { q with failed := q.failed ++ [q.nextPos - 1] }

def State.ok (s : State) (src : Src) : State := s.done src .success 0 0 .none
def State.err (s : State) (src : Src) (st : Status) : State := s.done src st 0 0 .none

/-- Fetch resumes as tags are freed (R91): a finished command leaves the list of outstanding commands, and its
failure is noted for its window. -/
def State.finish (s : State) (c : Cmd) (st : Status) (dw0 dw1 : Nat) (data : Payload) : State :=
  if c.kind = .peer then (s.dropCmd c.tag).peerEnd c st data
  else
  let s := if c.kind = .reconstruct then s.dropOuts c.tag else s
  let s := (s.dropCmd c.tag).post c.fn c.qid c.cid st dw0 dw1 data
  let s := if st = .success then s
    else s.modSq c.fn c.qid fun q => if q.start ≤ c.pos then { q with failed := q.failed ++ [c.pos] } else q
  if c.kind = .orderedWrite then
    s.modSq c.fn c.qid fun q => { q with failed := q.failed.filter (c.pos < ·) }
  else s

/-! ## Asynchronous events -/

/-- The log page an event names. -/
def Aen.page : Aen → Nat
  | .autotomy | .rowsLost => 0xC2
  | .chorus => 0xC1
  | .mode => 0xC0
  | .smart => 0x02
  | .zoneChanged => 0xBF
  | .fwStarting => 0x03
  | .plmAggregate => 0x0B
  | .sanitizeDone => 0x81

/-- DW0 of the completion that reports it: type, information, log page. The vendor events are R530's. -/
def Aen.dw0 : Aen → Nat
  | .autotomy => 7 + 0x01 * 256 + 0xC2 * 65536
  | .rowsLost => 7 + 0x02 * 256 + 0xC2 * 65536
  | .chorus => 7 + 0x03 * 256 + 0xC1 * 65536
  | .mode => 7 + 0x04 * 256 + 0xC0 * 65536
  | .smart => 1 + 0x00 * 256 + 0x02 * 65536
  | .zoneChanged => 2 + 0xEF * 256 + 0xBF * 65536
  | .fwStarting => 2 + 0x01 * 256 + 0x03 * 65536
  | .plmAggregate => 2 + 0x04 * 256 + 0x0B * 65536
  | .sanitizeDone => 6 + 0x01 * 256 + 0x81 * 65536

/-- Report to a function every waiting event it has a request for and has not masked (R530). -/
def deliverTo : List Aen → Fn → Nat → List Cqe → Fn × List Cqe
  | [], f, _, q => (f, q)
  | a :: r, f, n, q =>
    match f.aers with
    | [] => (f, q)
    | cid :: cids =>
      if f.masked.contains a.page then deliverTo r f n q
      else deliverTo r { f with aers := cids, events := f.events.erase a, masked := a.page :: f.masked } n
        (⟨n, 0, cid, .success, a.dw0, 0, .none, false⟩ :: q)

def State.deliver (s : State) (n : Nat) : State :=
  let r := deliverTo (s.fn n).events (s.fn n) n s.cqes
  { s.setFn n r.1 with cqes := r.2 }

/-- An event for a function: kept until it has a request; events naming a page are one event (R530). Where events of different information
codes become one, 0x01 and 0x02 for page 0xC2, it carries the code of the first: the spec does not say which (DESIGN CHOICE,
assumption 136). -/
def State.raise (s : State) (n : Nat) (a : Aen) : State :=
  (s.modFn n fun f => if f.events.any (·.page = a.page) then f else { f with events := f.events ++ [a] }).deliver n

/-- A standard event goes only to a function that has enabled it in its configuration. -/
def State.raiseIf (s : State) (n bit : Nat) (a : Aen) : State :=
  if (s.fn n).aec.testBit bit then s.raise n a else s

/-- A log page has been read: with RAE clear, its events may be reported again (R530). -/
def State.logRead (s : State) (n page : Nat) (rae : Bool) : State :=
  if rae then s else (s.modFn n fun f => { f with masked := f.masked.filter (· ≠ page) }).deliver n

/-- Zone Descriptor Changed: the zone joins the Changed Zone List of the namespace's function, or of PF0, if
that function has enabled the notice (R63). Bit 27 of the configuration enables it. -/
def State.zoneNotice (s : State) (n : Ns) (z : Nat) : State :=
  let f := n.attached.getD 0
  if (s.fn f).aec.testBit 27 then
    (s.modFn f fun g => { g with changed := if g.changed.contains (n.nsid, z * zoneBlocks) then g.changed
                                            else g.changed ++ [(n.nsid, z * zoneBlocks)] }).raise f .zoneChanged
  else s

/-! ## Health refresh -/

/-- Recompute the Critical Warning byte. A new bit raises the SMART event to functions that enabled it, and the
gecko's copies follow at once (R473, R479). -/
def State.refreshCrit (s : State) : State :=
  let old := s.rd Fd.HLT_CRIT_CW
  let new := s.critNow
  if old = new then s
  else
    let s := s.wr Fd.HLT_CRIT_CW new
    let s := { s with hlt := { s.hlt with gecko :=
      [new, s.rd Fd.HLT_LIFE_SPARE, s.rd Fd.HLT_LIFE_USED, s.rd Fd.HLT_LIFE_SRC] } }
    let fresh := (List.range 5).filter fun i => new.testBit i && !old.testBit i
    if fresh.isEmpty then s
    else s.fns.foldl (fun t e => if fresh.any fun i => e.2.aec.testBit i then t.raise e.1 .smart else t) s

/-! ## Modes -/

/-- Mode codes of R37. -/
def mProvision : Nat := 1
def mBoot : Nat := 2
def mServe : Nat := 3
def mDegraded : Nat := 4
def mQuiesce : Nat := 5
def mHold : Nat := 6
def mSanitize : Nat := 7
def mReadonly : Nat := 8

def State.mode (s : State) : Nat := s.rd Fd.TOP_MODE_MODE

/-- The functions an event for PF0 and every VF goes to: PF0, every VF of TotalVFs, and any
other that is assigned or enabled. -/
def State.allFns (s : State) : List Nat :=
  (List.range fnCount).filter fun n => n ≤ s.rd Fd.TOP_CONFIG_TOTALVFS || s.assigned n || (s.fn n).en

/-- A mode change writes record 0x0001; a change into DEGRADED, HOLD or READONLY raises the mode event, except a
return to a mode already reported (R39). -/
def State.setMode (s : State) (m : Nat) (returning : Bool) : State :=
  let old := s.mode
  if old = m then s
  else
    let s := (s.wr Fd.TOP_MODE_PREV old).wr Fd.TOP_MODE_MODE m
    let s := if m = mQuiesce || m = mHold then s else (s.wr Fd.TOP_MODE_RETURN 0)
    let s := s.record 0x0001 [old, m, getBits (s.word Reg.TOP_MODE) 23 16, getBits (s.word Reg.TOP_MODE) 31 24]
    let s := if (m = mDegraded || m = mHold || m = mReadonly) && !returning
      then s.allFns.foldl (fun t n => t.raise n .mode) s else s
    s.refreshCrit

/-- A DEGRADED cause arises: its DGCAUSE bit sets (0 efts, 1 spares, 2 hold-up), and a part in SERVE enters
DEGRADED (R37, R396). -/
def State.degrade (s : State) (bit : Nat) : State :=
  let s := s.wr Fd.TOP_MODE_DGCAUSE ((s.rd Fd.TOP_MODE_DGCAUSE) ||| (2 ^ bit))
  if s.mode = mServe then s.setMode mDegraded false else s

/-- The part enters READONLY with a cause: 1 RMA, 2 end of life, 3 stuck PWRFAIL_N (R37, R400). -/
def State.enterReadonly (s : State) (cause : Nat) : State :=
  let s := s.wr Fd.TOP_MODE_ROCAUSE cause
  let s := s.setMode mReadonly false
  if cause = 2 then s.wr Fd.HLT_LIFE_USED (max 100 (s.rd Fd.HLT_LIFE_USED)) else s

/-- End of life is found: it is recorded, and in SERVE or DEGRADED the part enters READONLY (R38, R396). -/
def State.endOfLife (s : State) : State :=
  let s := { s with xlt := { s.xlt with eol := true } }
  if s.mode = mServe || s.mode = mDegraded then s.enterReadonly 2 else s

end Sys2Proof.Machine
end

