-- ==== Sys2Proof/Machine/Clocks.lean ====
section
/-! DEFINITION. Operating points and wakes, as other commands use them: the ceiling, the DVFS sequencer, held voltages,
wake sources, and the return to an operational power state (R402, R406, R411-R417, R423). -/

namespace Sys2Proof.Machine

open Sys2Proof

/-! ## Operating points (R411, R412) -/

/-- VDD_CORE in mV, and ponds at most. -/
def opVolt (k : Nat) : Nat := nth [650, 690, 730, 770, 810, 850] k 850
def opPonds (k : Nat) : Nat := nth [2, 3, 4, 6, 8, 8] k 8

/-- Ceilings of the NVMe power state and of the throttle level. -/
def nvmeCeil (k : Nat) : Nat := nth [5, 4, 2] k 5
def thermCeil (k : Nat) : Nat := nth [5, 4, 3, 2, 0] k 0

/-- The NVMe state whose ceiling holds: PS3 and PS4 keep that of the last operational one (assumption 40). -/
def State.nvmeOp (s : State) : Nat := if s.rd Fd.GK_PSTATE_NVME < 3 then s.rd Fd.GK_PSTATE_NVME else s.pwr.lastOp
def State.ceiling (s : State) : Nat :=
  min (min (nvmeCeil s.nvmeOp) (thermCeil (s.rd Fd.GK_THERM_LEVEL))) (min 5 (s.rd Fd.CLK_OP_MAX))

/-- The operating point requested, within the ceiling. -/
def State.opTarget (s : State) : Nat := min (min 5 (s.rd Fd.CLK_OP_REQ)) (s.rd Fd.CLK_OP_CEIL)

/-- Ponds whose clock runs. -/
def State.ungated (s : State) : Nat := ((List.range 8).filter fun p => !s.gated p).length

/-! ## The sequencer (R413, R414, R417) -/

/-- A held target voltage is sent once the clocks need no more than it. -/
def State.releaseHeld (s : State) : State :=
  match s.pwr.avsHeld with
  | none => s
  | some v =>
    if v < opVolt s.pwr.clkOp then s
    else ({ s with pwr := { s.pwr with avsHeld := none, avsNow := v } }).wr Fd.CLK_AVS_STAT_HELD 0

/-- The voltage follows the clocks down, once the ponds that may run at the lower point are all that run. -/
def State.voltDown (s : State) : State :=
  if !s.pwr.avsFault && s.pwr.clkOp < s.rd Fd.CLK_OP_CUR && s.ungated ≤ opPonds s.pwr.clkOp then
    let k := s.pwr.clkOp
    let s := ({ s with pwr := { s.pwr with avsNow := opVolt k } }).wr Fd.CLK_OP_CUR k
    (s.setFlag Fd.CLK_OP_BUSY (s.opTarget ≠ k)).releaseHeld
  else s

/-- Down: the clocks at once, then the voltage. A climb under way is given up. -/
def State.opDown (s : State) (k : Nat) : State :=
  let s := { s with pwr := { s.pwr with clkOp := k, climbing := none } }
  (s.wr Fd.CLK_OP_BUSY 1).voltDown

/-- Up: the target voltage first; the clocks rise when the rail has settled. -/
def State.opUp (s : State) (k : Nat) : State :=
  let s := { s with pwr := { s.pwr with climbing := some k, avsNow := opVolt k } }
  (s.wr Fd.CLK_OP_BUSY 1).wr Fd.CLK_AVS_STAT_BUSY 1

/-- The ceiling is computed again; a current point above it moves down at once, but while the regulator's fault keeps it (R412, R415). -/
def State.settleCeil (s : State) : State :=
  let s := s.wr Fd.CLK_OP_CEIL s.ceiling
  let s := s.setFlag Fd.CLK_OP_BUSY (s.opTarget ≠ s.rd Fd.CLK_OP_CUR)
  if s.rd Fd.CLK_OP_CEIL < s.pwr.clkOp && !s.pwr.avsFault then s.opDown s.opTarget else s

/-! ## Wakes (R402, R406) -/

/-- A wake source occurs: its bit is latched; in SLEEP and DEEP an enabled one begins a wake. -/
def State.wakeSource (s : State) (k : Nat) : State :=
  let s := s.wr Fd.GK_WAKESRC_PEND (s.rd Fd.GK_WAKESRC_PEND ||| 2 ^ k)
  if s.asleep && (s.rd Fd.GK_WAKECFG_EN).testBit k && s.pwr.waking.isNone then { s with pwr := { s.pwr with waking := some k } } else s

/-- RUN again after SLEEP or DEEP: the wake's source and record; the gecko's own records are staged ahead of new ones. -/
def State.leaveSleep (s : State) (k : Nat) : State :=
  let left := s.rd Fd.GK_PSTATE_CUR
  let s := ((s.wr Fd.GK_PSTATE_CUR 0).wr Fd.GK_PSTATE_REQ_STATE 0).wr Fd.GK_WAKESRC_FIRST (k + 1)
  let own := s.evr.aonOnly
  let s := own.foldl (fun (s : State) (r : Rec) => { s with evr := s.evr.stage r }) { s with evr := { s.evr with aonOnly := [] } }
  let s := { s with pwr := { s.pwr with waking := none } }
  s.record 0x0101 [k + 1, left]

/-- A command is fetched: PS3 and PS4 give way to the last operational state, and the cores leave IDLE. -/
def State.hostBusy (s : State) : State :=
  let s := if s.rd Fd.GK_PSTATE_CUR = 1 then (s.wr Fd.GK_PSTATE_CUR 0).wr Fd.GK_PSTATE_REQ_STATE 0 else s
  if s.rd Fd.GK_PSTATE_NVME < 3 then s else (s.wr Fd.GK_PSTATE_NVME s.pwr.lastOp).settleCeil

end Sys2Proof.Machine
end

