-- ==== Sys2Proof/Machine/Access.lean ====
section
/-! DEFINITION. What every access through the management window meets: its requester, dark blocks, denied and
locked writes, the error capture, the access codes and the latch of 64-bit registers (R14-R17, R514-R528). -/

namespace Sys2Proof.Machine

open Sys2Proof

/-! ## Requesters (R515) -/

/-- Requesters by their owner ID: cores 0 to 15, the gecko, PF0 through BAR2. -/
def reqGecko : Nat := 0x20
def reqPcie : Nat := 0x40
def requesterOk (r : Nat) : Bool := decide (r < 16) || r = reqGecko || r = reqPcie

/-- A requester's bank: cores 0 to 15, the gecko 16, the window 17 (R472, R490). -/
def bankOf (r : Nat) : Nat := if r = reqGecko then 16 else if r = reqPcie then 17 else r

/-- Registers banked per requester: SNC_OP, SNC_ADDR, SNC_LEN, SNC_BUF, EVR_STAT, EVR_CURSOR, EVR_CMD, EVR_WINDOW. -/
def banked (off : Nat) : Bool :=
  (decide (Reg.SNC_OP ≤ off) && decide (off ≤ Reg.SNC_LEN)) || (decide (Reg.SNC_BUF 0 ≤ off) && decide (off ≤ Reg.SNC_BUF 63)) ||
  off = Reg.EVR_STAT || (decide (Reg.EVR_CURSOR ≤ off) && decide (off ≤ Reg.EVR_CMD)) ||
  (decide (Reg.EVR_WINDOW 0 ≤ off) && decide (off ≤ Reg.EVR_WINDOW 15))

/-- The home of a register for a requester. -/
def homeOf (r off : Nat) : Nat := if banked off then off + bankStep * bankOf r else off

/-- A field in a bank. -/
def Fld.inBank (f : Fld) (b : Nat) : Fld := { f with reg := f.reg + bankStep * b }

/-- Low words of the 64-bit registers (R14). -/
def lowWords : List Nat := [Reg.CHO_COUNTER, Reg.SEC_IDX, Reg.SEC_RSV_END, Reg.EVR_NEWEST, Reg.EVR_CURSOR]

/-! ## Errors (R528) -/

def eDARK : Nat := 1
def eALIGN : Nat := 4
def eWSIZE : Nat := 8
def eUNMAPPED : Nat := 16
def eLOCKED : Nat := 32
def eDENIED : Nat := 64

/-- An access sets bits of TOP_ERR: the counts rise, and the first one is captured (R527, R528). -/
def State.noteErr (s : State) (r off : Nat) (write : Bool) (bits : Nat) : State :=
  let s := s.setWord Reg.TOP_ERR (s.word Reg.TOP_ERR ||| bits)
  let s := if s.flag Fd.TOP_ERRADDR_VALID then s
    else s.setWord Reg.TOP_ERRADDR (2 ^ 31 + write.toNat * 2 ^ 30 + (decide (r = reqPcie)).toNat * 2 ^ 29 + off % 2 ^ 26 / 4 * 4)
  let s := if bits % 2 = 1 then s.bump Fd.TOP_ERRCNT_DARK 1 else s
  if bits / 4 % 32 ≠ 0 then s.bump Fd.TOP_ERRCNT_OTHER 1 else s

/-! ## Dark, unmapped, denied -/

def unmapped (off : Nat) : Bool := decide (0x2C00000 ≤ off)

/-- The pond registers' pond. -/
def pondAt (off : Nat) : Option Nat :=
  if 0x400000 ≤ off && off < 0x440000 then some ((off - 0x400000) / 0x8000) else none

/-- A block whose clock or power is off (R17, R35, R519): every block but TOP and GK from SLEEP down, and once a thermal trip has stopped
every clock but the gecko's (R426); a pond's registers while the pond is gated, and from IDLE. The spec does not say which clocks do not
run yet at each stage of a start: no block is dark for that (DESIGN CHOICE, assumption 105). -/
def State.dark (s : State) (off : Nat) : Bool :=
  decide (0x200000 ≤ off) && !unmapped off &&
  (decide (2 ≤ s.rd Fd.GK_PSTATE_CUR) || s.pwr.trip ||
   match pondAt off with
   | some p => s.gated p || s.rd Fd.GK_PSTATE_CUR = 1
   | none => false)

/-- Who may write a firmware-only register: cores, gecko (R522). `none`: not firmware-only. -/
def fwOnly (off : Nat) : Option (Bool × Bool) :=
  if off = Reg.GK_PSTATE_REQ || off = Reg.CLK_OP || off = Reg.CLK_AVS_CMD || off = Reg.EFT_FENCE_CMD ||
     (decide (Reg.SEC_KE_CTL ≤ off) && decide (off ≤ Reg.SEC_KE_DATA)) || off = Reg.SEC_KS_SEL || off = Reg.SEC_KS_CMD
  then some (true, false)
  else if (List.range 4).any (fun n => off = Reg.SEC_HE_CTL n || off = Reg.SEC_HE_DATA n) ||
     (decide (Reg.SNC_OP ≤ off) && decide (off ≤ Reg.SNC_LEN)) || (decide (Reg.SNC_BUF 0 ≤ off) && decide (off ≤ Reg.SNC_BUF 63))
  then some (true, true)
  else if off = Reg.DZL_DEVID || off = Reg.DZL_GROUP || off = Reg.DZL_GEOM ||
     (decide (0x1800000 ≤ off) && decide (off < 0x2000000) && off ≠ Reg.VFM_POOL_WTOK && (regFind off regTable).isSome)
  then some (false, false)
  else none

/-- A requester may not write the register. -/
def deniedTo (r off : Nat) : Bool :=
  match fwOnly off with
  | none => false
  | some (c, g) => if r = reqPcie then true else if r = reqGecko then !g else !c

/-- Raise an alarm of the island: its bit, its count, its record (R360). Bits: see SEC_ALARM. -/
def State.alarm (s : State) (f : Fld) : State :=
  let s := (s.wr f 1).bump Fd.SEC_ALARM_COUNT 1
  s.record 0x0901 [getBits (s.word Reg.SEC_ALARM) 31 24]

/-- A denied write: DENIED for a PCIe write; for a SEC register that is not dark also SEC_ALARM.DENIED (R522). -/
def State.noteDenied (s : State) (r off : Nat) : State :=
  if r ≠ reqPcie then s
  else
    let s := s.noteErr r off true (if s.flag Fd.TOP_LOCK_WINRO then eDENIED + eLOCKED else eDENIED)
    if 0x2000000 ≤ off && off < 0x2400000 && !s.dark off then s.alarm Fd.SEC_ALARM_DENIED else s

/-! ## Reaching the window (R514, R521, R526) -/

/-- PF0 has a window: enabled at the start, configuration requests complete normally, BAR2 is programmed and Memory Space Enable is set
(R514, R515, R525). -/
def State.hasWindow (s : State) : Bool := s.boot.cfgReady && s.boot.profile.window && s.boot.memSpace && s.boot.bar2 ≠ 0

/-- A PF0 access in SLEEP or DEEP brings the link out of L1.2, which is wake source 1; it is held, and forwarded only once
the part is in RUN (R521). -/
def State.lowPowerAccess (s : State) (write : Bool) (off v : Nat) : State :=
  let s := s.wakeSource 1
  { s with pwr := { s.pwr with held := s.pwr.held ++ [(write, off, v)] } }

/-! ## Access codes (R15) -/

/-- The word a write leaves, field by field. -/
def codeWrite (locked : Bool) (old v : Nat) : List FieldDesc → Nat
  | [] => old
  | f :: r =>
    let o := codeWrite locked old v r
    let m := f.lsb + f.len - 1
    let x := getBits v m f.lsb
    match f.access with
    | .rw => putBits o m f.lsb x
    | .rwl => if locked then o else putBits o m f.lsb x
    | .w1c => putBits o m f.lsb (getBits o m f.lsb - (getBits o m f.lsb &&& x))
    | .w1s => putBits o m f.lsb (getBits o m f.lsb ||| x)
    | _ => o

/-- The word a read leaves: RC fields cleared. -/
def codeRead (old : Nat) : List FieldDesc → Nat
  | [] => old
  | f :: r =>
    let o := codeRead old r
    if f.access = .rc then putBits o (f.lsb + f.len - 1) f.lsb 0 else o

/-- Bits a read never shows: WO fields. -/
def codeShow (v : Nat) : List FieldDesc → Nat
  | [] => v
  | f :: r =>
    let o := codeShow v r
    if f.access = .wo then putBits o (f.lsb + f.len - 1) f.lsb 0 else o

def hasLocked (fs : List FieldDesc) : Bool := fs.any (·.access = .rwl)

/-- Bits that cannot be cleared: EN bits 2 to 4 of GK_WAKECFG, SEL bits 0 to 2 of GK_RETSEL (R429). -/
def stuckBits (off : Nat) : Nat := if off = Reg.GK_WAKECFG then 0x1C else if off = Reg.GK_RETSEL then 7 else 0

/-- A write under the access codes alone. A write to RWL fields under LOCK is ignored and noted (R523). -/
def State.plainWrite (s : State) (r off v : Nat) : State :=
  match regFind off regTable with
  | none => s
  | some (d, _) =>
    let locked := s.flag Fd.TOP_LOCK_LOCK
    let h := homeOf r off
    let s := s.setWord h (codeWrite locked (s.word h) v d.fields ||| stuckBits off)
    if locked && hasLocked d.fields then s.noteErr r off true eLOCKED else s

/-- What stands before a write of one whole word `v`: unreachable, held in low power, denied, read-only window, unmapped, dark.
`k` acts where the write reaches its register. -/
def winWrite (r off v : Nat) (s : State) (k : State → State) : Result :=
  if !requesterOk r then .fault .noSuchInstance
  else if !s.pwr.on || (r = reqPcie && !s.hasWindow) then .next s
  else if r = reqPcie && s.asleep then .next (s.lowPowerAccess true off v)
  else if deniedTo r off then .next (s.noteDenied r off)
  else if r = reqPcie && s.flag Fd.TOP_LOCK_WINRO && off ≠ Reg.TOP_ERR && off ≠ Reg.TOP_ERRADDR then
    .next (s.noteErr r off true (if unmapped off then eLOCKED + eUNMAPPED else eLOCKED))
  else if unmapped off then .next (s.noteErr r off true eUNMAPPED)
  else if s.dark off then
    let s := s.noteErr r off true eDARK
    .next (if r = reqPcie then s else s.reply r 0 true .none)
  else .next (k s)

/-- The value a dark block reads as (R17). -/
def darkWord : Nat := 0x0BAD0FF0

/-- A read of one word that reaches the window: unmapped and dark offsets are answered at the fabric (R17, R518, R520); `k` answers
where the read reaches its register. The word, whether it is an error response, and the state. -/
def State.readAt (s : State) (r off : Nat) (k : State → Nat × State) : Nat × Bool × State :=
  if unmapped off then (0, false, s.noteErr r off false eUNMAPPED)
  else if s.dark off then (darkWord, r ≠ reqPcie, s.noteErr r off false eDARK)
  else ((k s).1, false, (k s).2)

/-- What stands before a read: unreachable (an error answer where the host has no window), held in low power as a read of `n` words. -/
def winReach (r off n : Nat) (s : State) (k : State → State) : Result :=
  if !requesterOk r then .fault .noSuchInstance
  else if !s.pwr.on then .next s
  else if r = reqPcie && !s.hasWindow then .next (s.reply r 0 true .none)
  else if r = reqPcie && s.asleep then .next (s.lowPowerAccess false off n)
  else .next (k s)

/-- A read of one word. -/
def winRead (r off : Nat) (s : State) (k : State → Nat × State) : Result :=
  winReach r off 1 s fun s =>
    let a := s.readAt r off k
    a.2.2.reply r a.1 a.2.1 .none

end Sys2Proof.Machine
end

