-- ==== Sys2Proof/Machine/Operands.lean ====
section
/-! DEFINITION. The operand checks commands share: the front end's gate by mode and class, the fields every
command checks, key selection, placement hints, and where a block of a namespace lies. -/

namespace Sys2Proof.Machine

open Sys2Proof

/-! ## The front end's gate -/

/-- Classes of host command, as the modes treat them (R37, R395). -/
inductive Class where
  | ioRead | ioWrite | ioReset | ioOther
  | identify | logPage | getFeat | setFeat | fw | activate | sanitize | security | selfTest | profile | admin | vendor
  deriving DecidableEq, Repr

def Class.io : Class → Bool
  | .ioRead | .ioWrite | .ioReset | .ioOther => true
  | _ => false

/-- Answered in limited service (R395); firmware commands only in recovery (R384). -/
def Class.limited (recovery : Bool) : Class → Bool
  | .identify | .logPage | .getFeat => true
  | .fw | .activate => recovery
  | _ => false

/-- Answered in PROVISION (R395). -/
def Class.provision : Class → Bool
  | .identify | .logPage | .getFeat | .setFeat | .fw | .activate | .security | .selfTest | .profile => true
  | _ => false

/-- Whether the front end fetches for a function at all: ready, not failed, not resetting or shut down, no power-loss
flush, power and reset good, clocks running, link awake, no QUIESCE or activation hold (R92, R106, R109, R110, R196, R426). -/
def State.fetches (s : State) (fn : Nat) : Bool :=
  let f := s.fn fn
  f.en && f.rdy && !f.cfs && !f.resetting && f.shst = 0 && !s.boot.perstLow && !s.pwr.pfHold && !s.pwr.trip && !s.flag Fd.TOP_MODE_FLUSH
    && s.mode ≠ mQuiesce && !s.boot.provHold && !(s.rd Fd.GK_PSTATE_CUR = 2 || s.rd Fd.GK_PSTATE_CUR = 3)
    && (s.mode ≠ mBoot || (s.boot.limited && fn = 0))

/-- Room for one more tag: the function's limit and the device's (R92, R315). -/
def State.tagRoom (s : State) (fn : Nat) : Bool :=
  decide (s.inflight fn < s.tagLimit fn) && decide (s.tagsInUse.length < deviceTags)

/-- The admin vendor commands, PF0's alone (R113). -/
def Class.adminVendor : Class → Bool
  | .vendor | .profile => true
  | _ => false

/-- What the front end does with an entry it could fetch: hold it in its queue, refuse it, or take it. -/
inductive Gate where
  | hold | refuse (st : Status) | take
  deriving DecidableEq, Repr

/-- The status the mode gives a command, if it refuses it (R37, R45, R113, R384, R395). -/
def State.modeRefusal (s : State) (src : Src) (cls : Class) : Option Status :=
  if cls.adminVendor && src.fn ≠ 0 then some .invalidOpcode
  else if s.mode = mBoot then
    if cls.limited (s.flag Fd.TOP_BOOT_RECOVERY) then none else some .commandSequence
  else if s.mode = mProvision then
    if cls.io then some .invalidOpcode
    else if cls.provision then none else some .commandSequence
  else if s.mode = mHold then (if cls.io then some .nsNotReady else none)
  else if s.mode = mSanitize then
    if cls = .activate then some .fwActivationProhibited
    else if cls = .profile then some .commandSequence
    else if s.boot.sanitize = 2 then (if cls = .sanitize || cls = .logPage then none else some .sanitizeFailed)
    else if cls.io then some .sanitizeInProgress else none
  else if s.mode = mReadonly then
    (if cls = .ioWrite || cls = .ioReset then some .nsWriteProtected else none)
  else none

/-- The gate of an entry. Tags already assigned to fetched entries need no more room. -/
def State.gate (s : State) (src : Src) (q : Sq) (cls : Class) : Gate :=
  if !s.fetches src.fn then .hold
  else if q.fetched.isEmpty && !s.tagRoom src.fn then .hold
  else match s.modeRefusal src cls with
    | some st => .refuse st
    | none => .take

/-- The entry stays where it is: a fetched one keeps its tag, another counts as announced and not fetched. -/
def State.holdEntry (s : State) (src : Src) : State :=
  s.modSq src.fn src.qid fun q => if q.fetched.isEmpty then { q with waiting := max q.waiting 1 } else q

/-- Take the entry: the oldest tag fetched for its queue, else a free tag; the queue's position advances. -/
def State.takeEntry (s : State) (src : Src) (q : Sq) : Nat × State :=
  let tag := match q.fetched with
    | t :: _ => t
    | [] => leastFree s.tagsInUse s.tagsInUse.length 0
  (tag, s.hostBusy.modSq src.fn src.qid fun q =>
    { q with fetched := q.fetched.drop 1, nextPos := q.nextPos + 1, cur := tag,
             waiting := if q.fetched.isEmpty then q.waiting - 1 else q.waiting })

/-- An Ordered Write has been taken: whatever becomes of it, the next window of its queue opens behind it (R100). -/
def State.openWindow (s : State) (src : Src) (pos : Nat) : State :=
  s.modSq src.fn src.qid fun q => { q with winFrom := pos + 1 }

/-- The fields every command checks (R89, R114). A Bit Bucket descriptor ends the command as NVMe has it, after the reserved
fields (assumption 85). -/
def srcBad (src : Src) (cls : Class) : Option Status :=
  if src.fuse ≠ 0 || src.rsvd ≠ 0 || (cls.adminVendor && src.mptr ≠ 0) then some .invalidField
  else if src.bucket then some .sglTypeInvalid
  else none

/-- A host command of a class: the gate, then the fields every command checks, then its own work. `fence` says that it is an
Ordered Write. `k` gets the tag, the queue as it stood, and the state with the entry taken. -/
def hostTagged (s : State) (src : Src) (cls : Class) (fence : Bool) (k : Nat → Sq → State → State) : Result :=
  onFn src.fn (
    match (s.fn src.fn).sq src.qid with
    | none => .fault .noSuchQueue
    | some q =>
      let taken := s.takeEntry src q
      let t := if fence then taken.2.openWindow src q.nextPos else taken.2
      match s.gate src q cls with
      | .hold => .next (s.holdEntry src)
      | .refuse st => .next (t.err src st)
      | .take => match srcBad src cls with
        | some st => .next (t.err src st)
        | none => .next (k taken.1 q t))

/-- A host command that completes in its own step. -/
def host (s : State) (src : Src) (cls : Class) (k : State → State) : Result :=
  hostTagged s src cls false fun _ _ s => k s

/-! ## Namespaces a command names -/

/-- The namespace a function's command names: it exists and is attached to the function (R49). -/
def State.nsFor (s : State) (fn nsid : Nat) : Option Ns :=
  (s.ns nsid).filter fun n => n.attached = some fn

/-- I/O on a namespace that is not attached to the function: NVMe's Invalid Namespace or Format. -/
def withNs (s : State) (src : Src) (nsid : Nat) (k : Ns → State) : State :=
  match s.nsFor src.fn nsid with
  | some n => k n
  | none => s.err src .invalidNsOrFormat

/-- The same for a vendor I/O command, whose MPTR is 0 unless the namespace's tuples travel in a separate buffer (R114). -/
def withVendorNs (s : State) (src : Src) (nsid : Nat) (k : Ns → State) : State :=
  withNs s src nsid fun n => if src.mptr ≠ 0 && (n.fmt = 0 || n.extended) then s.err src .invalidField else k n

/-! ## Key selection (R145) -/

def slotDefault (_ : Nat) : KeySlot := ⟨0, 0, 0, []⟩
def State.slot (s : State) (k : Nat) : KeySlot := tblGet slotDefault s.sec.slots k

/-- A function's key count: its slots less the media slots it holds (R318). -/
def State.keyCount (s : State) (fn : Nat) : Nat := s.rd (Fd.VFM_FN_KEYS_SLOTS fn) - s.mediaOf fn

/-- Key tag fields: 0 unless Key Per I/O is enabled; else below the key count (R117, R118, R122, R145). -/
def State.keyTagBad (s : State) (n : Ns) (fn tag : Nat) : Bool :=
  if n.kpio then decide (s.keyCount fn ≤ tag) else tag ≠ 0

/-- The slot an item uses (R145). -/
def State.keySlot (s : State) (n : Ns) (fn tag : Nat) : Nat :=
  if n.kpio then s.rd (Fd.VFM_FN_KEYS_BASE fn) + tag else n.slot.getD 0

/-- The crypto stage of an item on a media slot waits until the slot's key is reloaded (R318, R351). A scrapped part has nothing to
reload: the empty slot fails the item (R342). -/
def State.slotWaits (s : State) (n : Ns) : Bool := !n.kpio && !n.slotReady && !s.sec.scrapped

/-- What selecting a slot gives: a key pair, or the failure (R145). -/
def State.selectKey (s : State) (n : Ns) (fn tag : Nat) : Bytes ⊕ Status :=
  let k := s.slot (s.keySlot n fn tag)
  if k.kind = 0 then .inr .keySlotEmpty
  else if k.owner ≠ fn then .inr .accessDenied
  else .inl k.key

/-- Selecting a slot of another owner writes record 0x0303 (R145). -/
def State.noteKey (s : State) (n : Ns) (fn tag : Nat) : State :=
  let i := s.keySlot n fn tag
  if (s.slot i).kind ≠ 0 && (s.slot i).owner ≠ fn then
    s.record 0x0303 [i % 256, i / 256, fn % 256, fn / 256, (s.slot i).owner % 256, (s.slot i).owner / 256]
  else s

/-! ## Placement hints (R52) -/

/-- The hint of a command: its DSPEC under directive type 2h, else 0xD (any choir, warm). -/
def hintOf (dtype dspec : Nat) : Nat := if dtype = 2 then dspec else 0xD

/-- A hint whose bits [15:4] are not 0, or a directive type other than none and Data Placement. -/
def hintBad (dtype dspec : Nat) : Bool := (dtype ≠ 0 && dtype ≠ 2) || (dtype = 2 && dspec / 16 ≠ 0)

/-! ## Choirs -/

/-- The used choirs, from the zone-usable stripes found at the start (R206). -/
def State.usedChoirs (s : State) : List Nat := (List.range 4).filter fun c => nth s.xlt.nc c 0 ≠ 0

/-- A die is in service: found at the start and not retired; die number is CE * 8 + LUN. -/
def State.dieUp (s : State) (ch ce lun : Nat) : Bool :=
  (s.rd (Fd.MED_CH_DIES_MAP ch)).testBit (ce * 8 + lun) && !(s.rd (Fd.MED_CH_RETIRED_MAP ch)).testBit (ce * 8 + lun)

def State.lunsOf (s : State) (ch ce : Nat) : List Nat := (List.range 8).filter (s.dieUp ch ce)

/-- Channels in service that carry an in-service die of a choir; a used choir binds stripes only with at least 33 (R205, R206). -/
def State.choirChannels (s : State) (c : Nat) : Nat :=
  ((List.range 64).filter fun ch => (s.rd (Fd.MED_CH_STATE_STATE ch) = 2 || s.rd (Fd.MED_CH_STATE_STATE ch) = 3) && !(s.lunsOf ch c).isEmpty).length
def State.choirBinds (s : State) (c : Nat) : Bool := decide (33 ≤ s.choirChannels c)

/-- The choir of conventional zone k: the (k mod u)-th used choir (R85). -/
def State.convChoir (s : State) (k : Nat) : Nat := nth s.usedChoirs (k % s.usedChoirs.length) 0

/-! ## Clutches over an LBA range -/

/-- The clutches of a namespace that hold a block of [lba, lba + nlb), in LBA order of the index. -/
def State.covering (s : State) (nsid lba nlb : Nat) : List Clutch :=
  s.clutches.filter fun c => c.nsid = nsid && decide (c.lba < lba + nlb) && decide (lba < c.lba + c.nblk)

/-- The clutch that holds a block: the newest one (R31). -/
def State.clutchAt (s : State) (nsid lba : Nat) : Option Clutch :=
  (s.covering nsid lba 1).getLast?

/-- Bytes of the little-endian fields of an event payload. -/
def pay (k n : Nat) : List Nat := (List.range k).map fun i => (n >>> (8 * i)) % 256

end Sys2Proof.Machine
end

