-- ==== Sys2Proof/Machine/FrontEnd.lean ====
section
/-! DEFINITION. The host front end: doorbells, fetch, tags, starting a command, write admission, queues, aborts
and the per-function features (R89-R105, R133, R323-R332). -/

namespace Sys2Proof.Machine

open Sys2Proof

/-! ## Doorbells and fetch -/

/-- SQ_DOORBELL_WRITE: entries become pending for fetch; doorbell writes are accepted in QUIESCE too (R110). -/
def execSqDoorbellWrite (fn qid entries : Nat) (s : State) : Result :=
  onFn fn (
    match (s.fn fn).sq qid with
    | none => .fault .noSuchQueue
    | some _ => .next (s.modSq fn qid fun q => { q with waiting := min (q.waiting + entries) (q.size - 1) }))

/-- Entries a function may fetch in its turn: max(1, ⌊weight / 10⌋); PF0 has weight 1,000 (R331). -/
def State.fetchTurn (s : State) (fn : Nat) : Nat :=
  if fn = 0 then 100 else max 1 ((s.fn fn).weightKept.getD (s.rd (Fd.VFM_FN_TOKCFG_WEIGHT fn)) / 10)

/-- What the controller registers say of the queues and the start (R89, R106, R378): CAP.TO, 30 s in units of 500 ms, CAP.MQES, CAP.DSTRD, CAP.AMS's weighted round robin with urgent
class, CAP.NSSRS, and the entry sizes of CC.IOSQES and CC.IOCQES. -/
structure Cap where
  timeout : Nat
  mqes : Nat
  dstrd : Nat
  amsWrr : Bool
  nssrs : Nat
  iosqes : Nat
  iocqes : Nat
  deriving DecidableEq, Repr

def cap : Cap := ⟨0x3C, 65535, 0, true, 0, 6, 4⟩

/-- Among the queues with entries pending of one sort: the next identifier after `last`, else the lowest. -/
def Fn.turnOf (f : Fn) (last : Nat) (p : Sq → Bool) : Option Sq :=
  let qs := f.sqs.filter fun q => q.waiting ≠ 0 && p q
  match argMin Sq.qid (qs.filter fun q => decide (last < q.qid)) with
  | some q => some q
  | none => argMin Sq.qid qs

/-- The queue a function's next fetch takes (R89). Round robin: every queue in turn. Weighted round robin with urgent class: the
admin queue, then the urgent queues, then the high, medium and low classes in turn, round robin within each. The spec gives
the classes no weight, and they have equal ones (assumption 86). -/
def Fn.nextQueue (f : Fn) : Option Sq :=
  if f.ams ≠ 1 then f.turnOf f.rrq fun _ => true
  else match f.turnOf 0 (·.qid = 0) with
    | some q => some q
    | none => match f.turnOf (nth f.wrr 0 0) (·.prio = 0) with
      | some q => some q
      | none => [1, 2, 3].findSome? fun k =>
          let p := (nth f.wrr 4 3 + k - 1) % 3 + 1
          f.turnOf (nth f.wrr p 0) fun q => q.qid ≠ 0 && q.prio = p

/-- The turns after a queue has been served. -/
def Fn.served (f : Fn) (q : Sq) : Fn :=
  { f with rrq := q.qid,
           wrr := if q.qid = 0 then f.wrr
             else if q.prio = 0 then setNth f.wrr 0 q.qid
             else setNth (setNth f.wrr q.prio q.qid) 4 q.prio }

/-- Fetch up to `k` entries for a function; each takes a device tag (R91, R92). -/
def State.fetchFor (s : State) (fn : Nat) : Nat → State
  | 0 => s
  | k + 1 =>
    if !s.tagRoom fn then s
    else match (s.fn fn).nextQueue with
      | none => s
      | some q =>
        let tag := leastFree s.tagsInUse s.tagsInUse.length 0
        let s := (s.modSq fn q.qid fun q =>
          { q with waiting := q.waiting - 1, fetched := q.fetched ++ [tag] }).modFn fn fun f => f.served q
        State.fetchFor s fn k

/-- A function has entries to fetch and may fetch. -/
def State.canFetch (s : State) (fn : Nat) : Bool :=
  s.fetches fn && s.tagRoom fn && (s.fn fn).nextQueue.isSome

/-- The next function of the round: the first from `rr` on, then from 0 (R331). -/
def State.nextFn (s : State) : Option Nat :=
  match (List.range fnCount).find? fun n => decide (s.rr ≤ n) && s.canFetch n with
  | some n => some n
  | none => (List.range fnCount).find? s.canFetch

/-- COMMAND_FETCH: one function's turn of the weighted round robin (R331). -/
def execCommandFetch (s : State) : Result :=
  match s.nextFn with
  | none => .next s
  | some n => .next { s.hostBusy.fetchFor n (s.fetchTurn n) with rr := (n + 1) % fnCount }

/-! ## Placing items on efts (R133) -/

/-- The home pond of a submission queue, redirected as EFT_POND_MAP shows (R133, R162). -/
def State.homePond (s : State) (fn qid : Nat) : Nat :=
  getBits (s.rd Fd.EFT_POND_MAP_HOME) (3 * ((fn + qid) % 8) + 2) (3 * ((fn + qid) % 8))

/-- A pond is usable when it is not gated, nor being gated, and has at least 4 unfenced efts (R162, R416). -/
def State.unfenced (s : State) (p : Nat) : Nat := ((List.range 32).filter fun n => !s.fenced p n).length
def State.usable (s : State) (p : Nat) : Bool := !s.gated p && !s.pwr.gating.contains p && decide (4 ≤ s.unfenced p)
def State.anyPond (s : State) : Bool := (List.range 8).any s.usable

/-- The eft of a pond an item goes to: unfenced, fewer than 56 waiting entries, the fewest waiting, lowest
index; a Digest Range needs a free digest context (R133). -/
def State.pickEft (s : State) (p : Nat) (needCtx : Bool) : Option Nat :=
  argMin (fun n => (s.eft p n).deque.length)
    ((List.range 32).filter fun n => !s.fenced p n && decide ((s.eft p n).deque.length < 56)
      && (!needCtx || decide ((s.eft p n).ctx.length < 2)))

/-- Push an item at the far end of a deque (R135). -/
def State.pushItem (s : State) (p n : Nat) (i : Item) : State :=
  s.modEft p n fun e => { e with deque := e.deque ++ [i] }

/-- Place a command's items one by one on a pond, as many as find a deque below 56; those left wait for the next placing
(R133). Answers how many were placed. -/
def State.placeItems (s : State) (p : Nat) : List Item → Nat × State
  | [] => (0, s)
  | i :: r => match s.pickEft p false with
    | none => (0, s)
    | some n =>
      let a := State.placeItems (s.pushItem p n i) p r
      (a.1 + 1, a.2)

/-- Place what is left of a command's items on its home pond. It is started once its first item is placed. Without a usable
pond nothing is placed, and commands wait (R94, R133, R162). -/
def State.placeCmd (s : State) (c : Cmd) (is : List Item) : State :=
  if !s.anyPond then s
  else
    let a := s.placeItems (s.homePond c.fn c.qid) (is.drop c.placed)
    if a.1 = 0 then s
    else a.2.modCmd c.tag fun _ => { c with started := true, placed := c.placed + a.1 }

/-! ## Starting a command (R94-R101) -/

/-- The class of a kind of command, for the mode's refusals. -/
def Kind.cls : Kind → Class
  | .write | .append | .locAppend | .vpw | .orderedWrite | .writeZeroes | .deallocate | .reconstruct => .ioWrite
  | .read | .compare | .verify | .readLoc | .digest | .peer => .ioRead
  | .zoneReset => .ioReset
  | .flush | .zoneFinish | .zoneOpen | .zoneClose | .report | .dsmNone => .ioOther

/-- A read that names its clutch by locator: Read by Locator, and peer reads of kind 01h. -/
def Cmd.byLoc (c : Cmd) : Bool := c.kind = .readLoc || (c.kind = .peer && c.fmt = 1)

/-- Commands that write, and that read, for R96. -/
def Kind.writes : Kind → Bool
  | .write | .orderedWrite | .writeZeroes | .deallocate => true
  | _ => false
def Kind.reads : Kind → Bool
  | .read | .compare | .verify | .digest => true
  | _ => false

/-- Commands that carry data into the buffer, and so pass write admission (R94). -/
def Kind.stores : Kind → Bool
  | .write | .append | .locAppend | .vpw | .orderedWrite | .writeZeroes | .reconstruct => true
  | _ => false

/-- The LBA ranges a command names. -/
def Cmd.spans (c : Cmd) : List (Nat × Nat) := if c.kind = .deallocate then c.ranges else [(c.slba, c.nlb)]

def Cmd.overlaps (a b : Cmd) : Bool :=
  a.spans.any fun x => b.spans.any fun y => decide (x.1 < y.1 + y.2) && decide (y.1 < x.1 + x.2)

/-- The command was submitted to the queue that has its identifier now, not to one deleted since. -/
def State.ofQueue (s : State) (c : Cmd) : Bool := ((s.fn c.fn).sq c.qid).any fun q => decide (q.start ≤ c.pos)

/-- An earlier outstanding command of the same queue: the two were submitted to one queue, not to two that had one identifier. -/
def State.earlier (s : State) (a b : Cmd) : Bool :=
  a.fn = b.fn && a.qid = b.qid && decide (a.pos < b.pos) && s.ofQueue a = s.ofQueue b

/-- R96: in a conventional namespace an overlapping earlier command, one of the two writing, holds it back. -/
def State.overlapWait (s : State) (c : Cmd) : Bool :=
  (match s.ns c.nsid with | some n => !n.zoned | none => false) &&
  s.cmds.any fun a => s.earlier a c && a.nsid = c.nsid && a.overlaps c &&
    ((a.kind.writes && (c.kind.writes || c.kind.reads)) || (c.kind.writes && a.kind.reads))

/-- R100: an outstanding earlier Ordered Write fences it; an Ordered Write waits for its whole window. -/
def State.fenceWait (s : State) (c : Cmd) : Bool :=
  s.cmds.any fun a => s.earlier a c && (a.kind = .orderedWrite ||
    (c.kind = .orderedWrite && decide (c.gen ≤ a.pos)))

/-- R65: a Zone Reset or Finish waits for the earlier writes and appends to its zone in its own queue. A
command of all zones waits for those to every zone of the namespace. -/
def State.zoneWait (s : State) (c : Cmd) : Bool :=
  (c.kind = .zoneReset || c.kind = .zoneFinish) &&
  s.cmds.any fun a => s.earlier a c && a.nsid = c.nsid && (a.kind.stores || a.kind = .zoneReset || a.kind = .zoneFinish) &&
    (c.nlb = 0 || a.nlb = 0 || a.slba / zoneBlocks = c.slba / zoneBlocks)

/-- R103: a Flush waits for the earlier writes of its queue to its namespaces, and, while the hold-up has
failed, for every covered clutch to be on flash (R104). -/
def State.flushWait (s : State) (c : Cmd) : Bool :=
  c.kind = .flush &&
  (s.cmds.any (fun a => s.earlier a c && a.kind.stores && (c.nsid = 0xFFFFFFFF || a.nsid = c.nsid)) ||
   (s.hlt.holdup = 1 && s.clutches.any fun x => c.targets.contains x.id && !x.onFlash))

/-- Everything that keeps a queued command from starting (R94). -/
def State.waits (s : State) (c : Cmd) : Bool :=
  s.mode = mQuiesce || s.flag Fd.TOP_MODE_FLUSH || s.pwr.pfHold || s.overlapWait c || s.fenceWait c || s.zoneWait c || s.flushWait c ||
  (c.kind.stores && !c.admitted)

/-- An Ordered Write whose window holds a failed command (R101). -/
def State.windowBroken (s : State) (c : Cmd) : Bool :=
  match (s.fn c.fn).sq c.qid with
  | some q => q.failed.any fun p => decide (c.gen ≤ p) && decide (p < c.pos)
  | none => false

/-- Clutches a write is cut into (R26); a conventional write is one clutch per block (R84). -/
def Ns.clutchesOf (n : Ns) (nlb : Nat) : Nat := ceilDiv nlb n.clutch

/-! Reading back: what a finished read returns. -/

/-- The verified content of the clutch that holds a block, and the block's place in it. A clutch's content is its plaintext,
then its PI tuples. -/
def blockIn (targets : List Clutch) (out : List (Nat × Bytes)) (lba : Nat) : Option (Bytes × Nat × Nat) :=
  (targets.reverse.find? fun c => decide (c.lba ≤ lba) && decide (lba < c.lba + c.nblk)).map fun c =>
    (((out.find? (·.1 = c.id)).map (·.2)).getD [], lba - c.lba, c.nblk)

/-- A block of the answer, zeros where no clutch holds it (R63). -/
def blockOut (targets : List Clutch) (out : List (Nat × Bytes)) (lba : Nat) : Bytes :=
  match blockIn targets out lba with
  | some (b, i, _) => (b.drop (4096 * i)).take 4096
  | none => zeros 4096

/-- Its tuple, as it crosses the host link (R75). For a block no clutch holds the spec gives no tuple: every byte is FFh, as NVMe
has it (assumption 87). -/
def tupleOut (fmt : Nat) (targets : List Clutch) (out : List (Nat × Bytes)) (lba : Nat) : Bytes :=
  match blockIn targets out lba with
  | some (b, i, k) => (b.drop (4096 * k + piBytes fmt * i)).take (piBytes fmt)
  | none => List.replicate (piBytes fmt) 0xFF

/-- The host takes the tuples: the format has them, and PRACT, which strips them, is 0 (R532). -/
def Cmd.withTuples (c : Cmd) (n : Ns) : Bool := n.fmt ≠ 0 && !c.prinfo.testBit 3

/-- Blocks and tuples as they cross the link: interleaved as extended LBAs, or apart, the tuples through MPTR (R532). -/
def hostForm (n : Ns) (tuples : Bool) (blocks tups : List Bytes) : Payload :=
  if !tuples then .bytes blocks.flatten
  else if n.extended then .bytes ((blocks.zip tups).flatMap fun e => e.1 ++ e.2)
  else .dataMeta blocks.flatten tups.flatten

/-- The data a read returns for its range. -/
def State.readData (s : State) (c : Cmd) (n : Ns) : Payload :=
  let ts := s.known.filter fun x => c.targets.contains x.id
  let lbas := (List.range c.nlb).map (c.slba + ·)
  hostForm n (c.withTuples n) (lbas.map (blockOut ts c.out)) (lbas.map (tupleOut n.fmt ts c.out))

/-- The blocks a read by locator returns, from its clutch's content. -/
def State.locData (s : State) (c : Cmd) (n : Ns) : Payload :=
  let x := (c.targets.head?.bind s.clutchOf).map Clutch.nblk
  let b := ((c.out.head?).map (·.2)).getD []
  let ixs := (List.range c.nlb).map (c.off + ·)
  hostForm n (c.withTuples n) (ixs.map fun i => (b.drop (4096 * i)).take 4096)
    (ixs.map fun i => (b.drop (4096 * x.getD 0 + piBytes n.fmt * i)).take (piBytes n.fmt))

/-- The bytes of a payload, the metadata behind the data. -/
def Payload.flat : Payload → Bytes
  | .bytes b => b
  | .dataMeta b m => b ++ m
  | _ => []

/-- Count a finished command's data (R473): blocks of 4,096 B, and the command, for its function. -/
def State.countIo (s : State) (c : Cmd) : State :=
  s.modFn c.fn fun f =>
    if c.kind.stores then { f with writeCmds := f.writeCmds + 1, unitsWritten := f.unitsWritten + c.nlb }
    else if c.kind = .read || c.kind = .readLoc || c.kind = .compare || c.kind = .verify then
      { f with readCmds := f.readCmds + 1, unitsRead := f.unitsRead + c.nlb }
    else if c.kind = .digest then { f with readCmds := f.readCmds + 1 }
    else f

/-- All items of a read-class command have ended: its completion (R132, R149). A peer gets plain blocks (R306). Compare's host
data is compared in the form it crosses the link in. -/
def State.finishRead (s : State) (c : Cmd) : State :=
  match c.fail, s.ns c.nsid with
  | some st, _ => s.finish c st 0 0 .none
  | none, none => s.finish c .invalidNsOrFormat 0 0 .none
  | none, some n =>
    let s := s.countIo c
    let n := if c.kind = .peer then { n with fmt := 0 } else n
    if c.byLoc then s.finish c .success 0 0 (s.locData c n)
    else if c.kind = .read || c.kind = .peer then s.finish c .success 0 0 (s.readData c n)
    else if c.kind = .compare then
      (if (s.readData c n).flat = c.data then s.finish c .success 0 0 .none else s.finish c .compareFailure 0 0 .none)
    else s.finish c .success 0 0 .none

/-- Blocks of the range that no clutch holds, or that were deallocated. -/
def State.unwrittenIn (s : State) (n : Ns) (lba nlb : Nat) : Bool :=
  (List.range nlb).any fun i => (s.clutchAt n.nsid (lba + i)).isNone

/-- The clutches a read resolves to: for each block the newest clutch that holds it, each once (R31, R99). -/
def State.resolve (s : State) (n : Ns) (lba nlb : Nat) : List Clutch :=
  (s.covering n.nsid lba nlb).filter fun c =>
    (List.range nlb).any fun i => ((s.clutchAt n.nsid (lba + i)).map (·.id)) = some c.id

/-- A block's newest write was lost at a power failure, or its row is lost (R83, R222). -/
def State.lostBlock (s : State) (nsid lba : Nat) : Bool :=
  s.xlt.unread.contains (nsid, lba) || (match s.clutchAt nsid lba with | some x => decide (x.place = .lost) | none => false)

/-- Some block of a range is lost. -/
def State.lostIn (s : State) (nsid lba nlb : Nat) : Bool :=
  s.xlt.unread.any (fun u => u.1 = nsid && decide (lba ≤ u.2) && decide (u.2 < lba + nlb)) ||
    (s.covering nsid lba nlb).any (·.place = .lost)

/-- The items of a started or starting command, in order: one for each clutch (R20, R26, R132). -/
def Cmd.itemList (c : Cmd) (n : Ns) : List Item :=
  let mk (cls : ItemCls) (ix : Nat) : Item := ⟨cls, .fn c.fn, c.tag, ix, false, none, false⟩
  if c.kind.stores then (List.range (n.clutchesOf c.nlb)).map (mk .write) else c.targets.map (mk .read)

/-- Start a Read, Compare or Verify: resolve its blocks; place one item per clutch. Unwritten blocks fail with
DULBE enabled (R63), one setting for a function and all its namespaces, since the spec does not say whose it is (DESIGN CHOICE,
assumption 139); a lost block is an Unrecovered Read Error (R83, R222). -/
def State.startRead (s : State) (c : Cmd) (n : Ns) : State :=
  if s.lostIn n.nsid c.slba c.nlb then s.finish c .unrecoveredRead 0 0 .none
  else if (s.fn c.fn).dulbe && s.unwrittenIn n c.slba c.nlb then s.finish c .deallocatedBlock 0 0 .none
  else
    let ts := s.resolve n c.slba c.nlb
    let c := { c with targets := ts.map (·.id), items := ts.length }
    if ts.isEmpty then (s.modCmd c.tag fun _ => { c with started := true }).finishRead c
    else s.placeCmd c (c.itemList n)

/-- Start a write: one item per clutch on the home pond (R20, R26, R133). -/
def State.startWrite (s : State) (c : Cmd) (n : Ns) : State :=
  s.placeCmd { c with items := n.clutchesOf c.nlb } (c.itemList n)

/-- Start a Digest Range on an eft with a free digest context, which owns it (R133, R150). -/
def State.startDigest (s : State) (c : Cmd) (n : Ns) : State :=
  let p := s.homePond c.fn c.qid
  match (if s.anyPond then s.pickEft p true else none) with
  | none => s
  | some e =>
    let ts := s.resolve n c.slba c.nlb
    let s := s.modEft p e fun x => { x with ctx := x.ctx ++ [⟨c.tag, 0, 0, [], [], 0, none⟩] }
    s.modCmd c.tag fun c =>
      { c with started := true, owner := some (eftKey p e), targets := ts.map (·.id), items := ts.length }

/-! ## Write admission (R30, R88, R325, R329) -/

/-- Used choirs that may bind a new stripe: those with in-service dies on at least 33 channels (R206). -/
def State.bindingChoirs (s : State) : List Nat := s.usedChoirs.filter s.choirBinds

/-- The choir a hint names, if it names a used one: 0 to 2; else any (R52, R206). A used choir that has become too narrow to bind is
treated as any too (DESIGN CHOICE, assumption 107). -/
def State.namedChoir (s : State) (hint : Nat) : Option Nat :=
  let c := hint / 4 % 4
  if c < 3 && s.bindingChoirs.contains c then some c else none

/-- The choir a binding takes: the named one, else the used choir with the most free stripes, lowest index on a
tie (R52). Free stripes are XLT_FREE's count (R174). -/
def State.bindChoir (s : State) (hint : Nat) : Option Nat :=
  match s.namedChoir hint with
  | some c => some c
  | none => argMax (fun c => s.rd (Fd.XLT_FREE_COUNT c)) s.bindingChoirs

/-- A binding waits while its choir is at the stop level (R54, R189). -/
def State.bindWaits (s : State) (hint : Nat) : Bool :=
  match s.bindChoir hint with
  | some c => s.rd (Fd.XLT_FREE_LEVEL c) = 3
  | none => true

/-- Slots a log stripe holds (R84, R85). -/
def logSlots : Nat := zoneGranules / convGranules

/-- The head log stripe of a choir: its newest open one (R187). -/
def State.logHead (s : State) (c : Nat) : Option Stripe :=
  (s.xlt.stripes.filter fun t => t.choir = c && t.state = 4).getLast?

/-- Blocks a command writes in a choir. -/
def State.convBlocksIn (s : State) (ch : Nat) (c : Cmd) : Nat :=
  ((List.range c.nlb).filter fun i => s.convChoir ((c.slba + i) / convBlocks) = ch).length

/-- Slots left in a choir's log stripes: of its head, and of the free ones while the choir binds stripes (R206). -/
def State.logSlotsLeft (s : State) (ch : Nat) : Nat :=
  (if (s.logHead ch).isSome then logSlots - nth s.xlt.logFill ch 0 else 0) +
    (if s.choirBinds ch then nth s.xlt.logFree ch 0 * logSlots else 0)

/-- A write to a conventional namespace that has been admitted. -/
def State.convAdmitted (s : State) (c : Cmd) : Bool :=
  c.kind.writes && c.kind.stores && c.admitted && (match s.ns c.nsid with | some n => !n.zoned | none => false)

/-- Log-stripe room for the command's blocks in every choir they belong to, beside the room of the writes admitted
before it (R88). -/
def State.logRoom (s : State) (c : Cmd) : Bool :=
  let before := s.cmds.filter fun a => s.convAdmitted a && a.tag ≠ c.tag
  s.usedChoirs.all fun ch => s.convBlocksIn ch c = 0 ||
    decide ((if c.admitted then 0 else sumNat (before.map (s.convBlocksIn ch))) + s.convBlocksIn ch c ≤ s.logSlotsLeft ch)

/-- A function's writes are waiting for tokens: one is not admitted, and the balance is not above 0 (R329). -/
def State.waitsTokens (s : State) (fn : Nat) : Bool :=
  decide ((s.fn fn).bal ≤ 0) && s.cmds.any fun c => c.fn = fn && c.kind.stores && !c.admitted

/-- Whether a waiting write may be admitted (R94). -/
def State.admits (s : State) (c : Cmd) (n : Ns) : Bool :=
  (s.rd (Fd.VFM_FN_BUF_QUOTA c.fn) = 0 || decide (s.bufOf c.fn < s.rd (Fd.VFM_FN_BUF_QUOTA c.fn))) &&
  decide (s.bufBytes < s.bufRoom) && !s.flag Fd.GK_THERM_STOP &&
  decide (0 < (s.fn c.fn).bal) &&
  (if n.zoned then
    !((s.zone n (c.slba / zoneBlocks)).state = .empty && s.bindWaits c.hint)
   else s.logRoom c)

/-- WRITE_ADMISSION: a waiting write is admitted once buffer room, quota, tokens and log-stripe room allow (R94, R329). -/
def execWriteAdmission (tag : Nat) (s : State) : Result :=
  onTag s tag fun c =>
    match s.ns c.nsid with
    | none => .next s
    | some n =>
      if !c.kind.stores || c.admitted then .next s
      -- a write that waits when the part enters READONLY is refused as a new one (R37)
      else if s.mode = mReadonly then .next (s.finish c .nsWriteProtected 0 0 .none)
      else if s.admits c n then .next (s.modCmd tag fun c => { c with admitted := true })
      else .next s

/-! ## Abort and queues -/

/-- Abort: succeeds only on a command still queued (R105). The target is named by queue and identifier; one that has started cannot be
reached. -/
def execAbort (src : Src) (sqid target : Nat) (s : State) : Result :=
  host s src .admin fun s =>
    match s.cmds.find? fun c => c.fn = src.fn && c.qid = sqid && c.cid = target && !c.started with
    | some c => (s.finish c .abortRequested 0 0 .none).done src .success 0 0 .none
    | none => s.done src .success 1 0 .none

/-- A function's allocation of queue pairs: its limit if assigned, 0 for a VF that is not (R315). -/
def State.qpLimit (s : State) (fn : Nat) : Nat := if s.assigned fn then s.rd (Fd.VFM_FN_QP_LIMIT fn) else 0

/-- Set Features, Number of Queues: grants the smaller of the request and the allocation (R90). Where the requests for submission
and completion queues differ, one count is granted for both, the smaller (assumption 88). The grant is reported as NVMe
reports it, one less in each half of DW0; what a grant of none reads as is free (R315). -/
def execSetFeaturesNumberOfQueues (src : Src) (nsq ncq : Nat) (s : State) : Result :=
  host s src .setFeat fun s =>
    let g := min (min nsq ncq) (s.qpLimit src.fn)
    let s := s.modFn src.fn fun f => { f with grant := g }
    if g = 0 then
      let r := s.free (2 ^ 32)
      r.2.done src .success r.1 0 .none
    else s.done src .success ((g - 1) + (g - 1) * 65536) 0 .none

/-- A queue identifier the function may create: from 1 to the grant, and, while the function stands over a cut
quota, below the new limit (R90, R332). -/
def State.qidBad (s : State) (fn qid : Nat) : Bool :=
  qid = 0 || decide ((s.fn fn).grant < qid) || decide (s.qpLimit fn < qid) ||
    ((s.overNow fn).testBit 0 && decide (s.qpLimit fn ≤ qid))

/-- Create I/O Completion Queue (R89, R90). -/
def execCreateIoCompletionQueue (src : Src) (qid size : Nat) (s : State) : Result :=
  host s src .admin fun s =>
    if s.qidBad src.fn qid || (s.fn src.fn).cqs.any (·.1 = qid) then s.err src .invalidQueueId
    else if 65536 < size || size = 0 then s.err src .invalidQueueSize
    else (s.modFn src.fn fun f => { f with cqs := f.cqs ++ [(qid, size)] }).ok src

/-- Where the positions of a queue created anew begin: behind those of commands still outstanding from a deleted queue of the same
identifier, so that none of them counts as submitted to the new one (R96, R100). -/
def State.nextLife (s : State) (fn qid : Nat) : Nat :=
  maxNat ((s.cmds.filter fun c => c.fn = fn && c.qid = qid).map fun c => c.pos + 1)

/-- Create I/O Submission Queue, with its priority (R89, R90); its completion queue exists, as NVMe requires. -/
def execCreateIoSubmissionQueue (src : Src) (qid size cqid : Nat) (s : State) (prio : Nat := 0) : Result :=
  host s src .admin fun s =>
    if s.qidBad src.fn qid || ((s.fn src.fn).sq qid).isSome then s.err src .invalidQueueId
    else if 65536 < size || size = 0 then s.err src .invalidQueueSize
    else if !(s.fn src.fn).cqs.any (·.1 = cqid) then s.err src .completionQueueInvalid
    else
      let first := s.nextLife src.fn qid
      (s.modFn src.fn fun f => { f with sqs := f.sqs ++
        [{ Sq.new qid size cqid with prio := prio % 4, start := first, nextPos := first, winFrom := first }] }).ok src

/-- Delete I/O Submission Queue: the queue goes, its queued commands complete as aborted, those that have started run on (DEDUCED, assumption
147), and the over-quota flag may clear (R332). -/
def execDeleteIoSubmissionQueue (src : Src) (qid : Nat) (s : State) : Result :=
  host s src .admin fun s =>
    if qid = 0 || ((s.fn src.fn).sq qid).isNone then s.err src .invalidQueueId
    else
      let dead := s.cmds.filter fun c => c.fn = src.fn && c.qid = qid && !c.started
      let s := dead.foldl (fun s c => s.finish c .abortRequested 0 0 .none) s
      ((s.modFn src.fn fun f => { f with sqs := f.sqs.filter (·.qid ≠ qid) }).settleFlags src.fn).ok src

/-- Delete I/O Completion Queue: refused while a submission queue uses it, as NVMe requires. -/
def execDeleteIoCompletionQueue (src : Src) (qid : Nat) (s : State) : Result :=
  host s src .admin fun s =>
    if qid = 0 || !(s.fn src.fn).cqs.any (·.1 = qid) then s.err src .invalidQueueId
    else if (s.fn src.fn).sqs.any (fun q => q.qid ≠ 0 && q.cqid = qid) then s.err src .invalidQueueDeletion
    else ((s.modFn src.fn fun f => { f with cqs := f.cqs.filter (·.1 ≠ qid) }).settleFlags src.fn).ok src

/-! ## Events and features of a function -/

/-- Asynchronous Event Request: it stays outstanding until an event is reported to the function (R530). -/
def execAsynchronousEventRequest (src : Src) (s : State) : Result :=
  host s src .admin fun s =>
    ((s.keepTag src).modFn src.fn fun f => { f with aers := f.aers ++ [src.cid] }).deliver src.fn

/-- Set Features, Asynchronous Event Configuration (R63, R112). -/
def execSetFeaturesAsynchronousEventConfig (src : Src) (mask : Nat) (s : State) : Result :=
  host s src .setFeat fun s => (s.modFn src.fn fun f => { f with aec := mask % 2 ^ 32 }).ok src

/-- Set Features, Temperature Threshold: sensor 0 is the composite, 1 to 8 the TD inputs (R422, R473). -/
def execSetFeaturesTemperatureThreshold (src : Src) (sensor : Nat) (under : Bool) (kelvin : Nat) (s : State) : Result :=
  host s src .setFeat fun s =>
    if 8 < sensor then s.err src .invalidField
    else
      let s := s.modFn src.fn fun f =>
        if sensor = 0 then (if under then { f with tmtUnder := kelvin } else { f with tmtOver := kelvin })
        else if under then { f with sensorUnder := (f.sensorUnder.filter (·.1 ≠ sensor - 1)) ++ [(sensor - 1, kelvin)] }
        else { f with sensorOver := (f.sensorOver.filter (·.1 ≠ sensor - 1)) ++ [(sensor - 1, kelvin)] }
      (s.refreshCrit).ok src

end Sys2Proof.Machine
end

