-- ==== Sys2Proof/Machine/Translation.lean ====
section
/-! DEFINITION. The translation layer: journal, stripes and blocks, capacity accounting, the spawn, reclaim
levels, checkpoints and copies (R166-R196). -/

namespace Sys2Proof.Machine

open Sys2Proof

/-! ## The journal (R175, R176) -/

/-- The number a kind is recorded under: the order of R176's table. A Deallocate's record has none there and takes a kind of its own, not
structural (DESIGN CHOICE, assumption 141). -/
def JKind.code : JKind → Nat
  | .bind => 0 | .place => 1 | .stage => 2 | .round => 3 | .reset => 4 | .finish => 5 | .remap => 6
  | .release => 7 | .erased => 8 | .checkpoint => 9 | .deallocate => 10

def JKind.structural : JKind → Bool
  | .bind | .reset | .finish | .remap | .release | .checkpoint => true
  | _ => false

/-- Journal region use in bytes and percent (XLT_JRNL.FILL). -/
def State.journalBytes (s : State) : Nat := sumNat (s.xlt.journal.map fun r => Config.recordBytes r.kind.code)
def State.journalPct (s : State) : Nat := min 100 (s.journalBytes * 100 / 2 ^ 26)

/-- The maps as they stand: what a checkpoint or a flush writes (R178, R196). -/
def State.maps (s : State) : Maps :=
  let x := s.xlt
  ⟨x.stripes, x.segs, x.blocks, s.zones, s.clutches, x.unread, x.released, x.logFree, x.logFill, x.spawnErased, x.spawnBlocks⟩

/-! ## The saved health counters (R477) -/

/-- A function's counters, in one row. -/
def Fn.countRow (f : Fn) : List Nat :=
  [f.unitsRead, f.unitsWritten, f.readCmds, f.writeCmds, f.busyMinutes, f.mediaErrors, f.errors]
def Fn.setCountRow (f : Fn) (l : List Nat) : Fn :=
  { f with unitsRead := nth l 0 0, unitsWritten := nth l 1 0, readCmds := nth l 2 0, writeCmds := nth l 3 0,
           busyMinutes := nth l 4 0, mediaErrors := nth l 5 0, errors := nth l 6 0 }

/-- The health counters as they stand. -/
def State.counts (s : State) : Counts := ⟨s.hlt, s.fns.map fun e => (e.1, e.2.countRow)⟩

/-- Counts made since the newest verified checkpoint are lost; what is no count stays as it is (R477, R199). -/
def State.loseCounts (s : State) : State :=
  let k := s.boot.safeCounts
  let h := s.hlt
  let s := s.fns.foldl (fun (s : State) (e : Nat × Fn) =>
    s.modFn e.1 fun f => f.setCountRow (((k.fns.find? fun (x : Nat × List Nat) => x.1 = e.1).map (·.2)).getD [])) s
  { s with hlt := { k.hlt with holdup := h.holdup, dramCritical := h.dramCritical, gecko := h.gecko, held := h.held } }

/-- The journal region stands in the system area: at the end of a flush, and before HOLD (R196, R424). -/
def State.journalOnFlash (s : State) : State :=
  { s with xlt := { s.xlt with unflashed := [], flashed := s.xlt.nextRec, placed := s.xlt.nextRec } }

/-- A checkpoint begins: at half a journal, and at every shutdown (R178). -/
def State.startCheckpoint (s : State) : State :=
  if s.xlt.ckptRunning then s
  else { s with
    xlt := { s.xlt with ckptRunning := true, ckptQuarters := 0, ckptMaps := s.maps, ckptFrom := s.xlt.nextRec }
    boot := { s.boot with ckptCounts := s.counts } }

/-- Write a record. It is committed when it stands in the region; while the hold-up self-test is failed, a
structural record also waits for its system-area page (R175). At half a region a checkpoint begins (R178). -/
def State.journal (s : State) (k : JKind) (args : List Nat) : State :=
  let x := s.xlt
  let x := { x with journal := ⟨x.nextRec, k, args, s.maps⟩ :: x.journal, nextRec := x.nextRec + 1,
                    unflashed := if k.structural && s.hlt.holdup = 1 then x.unflashed ++ [x.nextRec] else x.unflashed }
  let s := { s with xlt := x }
  let s := s.wr Fd.XLT_JRNL_FILL s.journalPct
  if 50 ≤ s.journalPct then s.startCheckpoint else s

/-! ## Blocks (R171) -/

def State.plc (s : State) : Bool := s.rd Fd.TOP_CONFIG_MEDIA ≠ 2

def dieKey (ch ce lun : Nat) : Nat := (ch * 4 + ce) * 8 + lun
def blockKey (ch ce lun b : Nat) : Nat := dieKey ch ce lun * 8192 + b

/-- An erased free block; blocks 0 to 3 of every die are the system area (R173). -/
def blockDefault (k : Nat) : Block := ⟨0, 0, 0, if k % 8192 < 4 then 5 else 0, false⟩

/-- A block's entry in the block map. Every block of a retired die has STATE 7 (R228). -/
def State.block (s : State) (k : Nat) : Block :=
  let b := tblGet blockDefault s.xlt.blocks k
  if (s.rd (Fd.MED_CH_RETIRED_MAP (k / 8192 / 32))).testBit (k / 8192 % 32) then { b with state := 7 } else b
def State.setBlock (s : State) (k : Nat) (b : Block) : State :=
  { s with xlt := { s.xlt with blocks := tblSet blockDefault s.xlt.blocks k b } }
def State.modBlock (s : State) (k : Nat) (g : Block → Block) : State := s.setBlock k (g (s.block k))

/-- Wear of a block (R185). -/
def Block.wear (b : Block) : Nat := b.native + b.slc / 10

/-- A cycle is counted in its mode; the 16-bit counts stay at their largest value (assumption 93). -/
def Block.cycled (b : Block) (slc : Bool) : Block :=
  if slc then { b with slc := min 65535 (b.slc + 1) } else { b with native := min 65535 (b.native + 1) }

/-- The 64-bit entry of the block map (R171). -/
def Block.word (b : Block) : Nat :=
  b.native % 2 ^ 16 * 2 ^ 48 + b.slc % 2 ^ 16 * 2 ^ 32 + b.owner % 2 ^ 19 * 2 ^ 13 + b.state % 16 * 2 ^ 9 + b.suspect.toNat * 2 ^ 8

/-- SLC cycles at which a block is never used in SLC mode again (R185). -/
def slcLimit : Nat := 30000

/-- The listed blocks of a die: block number and entry. -/
def State.listed (s : State) (ch ce lun : Nat) : List (Nat × Block) :=
  (s.xlt.blocks.filter fun e => e.1 / 8192 = dieKey ch ce lun).map fun e => (e.1 % 8192, e.2)

/-- Erased free blocks of a choir's dies on a channel. -/
def State.freeOn (s : State) (ce ch : Nat) : Nat :=
  sumNat ((s.lunsOf ch ce).map fun l =>
    s.med.blocksPerDie - 4 - ((s.listed ch ce l).filter fun e => 4 ≤ e.1 && e.2.state ≠ 0).length)

/-- The lowest block of a die that has never been used: unlisted, so of no wear. -/
def State.fresh (s : State) (ch ce lun : Nat) : Option Nat :=
  let used := (s.listed ch ce lun).map (·.1)
  let b := leastFree used used.length 4
  if b < s.med.blocksPerDie then some b else none

/-- The listed free blocks on a channel of a choir, as LUN, block and entry. -/
def State.freeListed (s : State) (ce ch : Nat) : List (Nat × Nat × Block) :=
  (s.lunsOf ch ce).flatMap fun l => ((s.listed ch ce l).filter fun e => e.2.state = 0).map fun e => (l, e.1, e.2)

/-- The free block with the lowest wear on a channel of a choir, as LUN and block; for SLC mode only one below the limit (R185,
R194). -/
def State.lowBlock (s : State) (ce ch : Nat) (slc : Bool) : Option (Nat × Nat) :=
  match (s.lunsOf ch ce).findSome? fun l => (s.fresh ch ce l).map fun b => (l, b) with
  | some x => some x
  | none =>
    (argMin (fun (e : Nat × Nat × Block) => e.2.2.wear)
      ((s.freeListed ce ch).filter fun e => !slc || decide (e.2.2.slc < slcLimit))).map fun e => (e.1, e.2.1)

/-- The free block with the highest wear still below the rated cycles (R194). On a channel that has none, the free block of the
lowest wear (DESIGN CHOICE, assumption 94). -/
def State.highBlock (s : State) (ce ch : Nat) : Option (Nat × Nat) :=
  match argMax (fun (e : Nat × Nat × Block) => e.2.2.wear)
      ((s.freeListed ce ch).filter fun e => decide (e.2.2.wear < s.rd Fd.XLT_WL_CFG_RATED)) with
  | some e => some (e.1, e.2.1)
  | none => s.lowBlock ce ch false

/-! ## Forming a stripe (R166) -/

/-- Insert into a list sorted by a strict order. -/
def insertBy {α : Type} (lt : α → α → Bool) (x : α) : List α → List α
  | [] => [x]
  | y :: r => if lt x y then x :: y :: r else y :: insertBy lt x r

def sortBy {α : Type} (lt : α → α → Bool) (l : List α) : List α := l.foldr (insertBy lt) []

/-- The 32 channels of a choir with the most erased free blocks; ties to the channel first counting upward from
(stripe sequence mod 64); then in ascending channel order. -/
def State.stripeChannels (s : State) (choir seq n : Nat) : List Nat :=
  let ranked := sortBy (fun a b => decide (s.freeOn choir b < s.freeOn choir a) ||
      (s.freeOn choir a = s.freeOn choir b && decide ((a + 64 - seq % 64) % 64 < (b + 64 - seq % 64) % 64)))
    ((List.range 64).filter fun ch => s.freeOn choir ch ≠ 0)
  sortBy (fun a b => decide (a < b)) (ranked.take n)

/-- The `n` channels of a choir whose free blocks for SLC mode have the lowest wear; ties as in R166 (R185). -/
def State.segChannels (s : State) (choir id n : Nat) : List Nat :=
  let wear (ch : Nat) : Nat := ((s.lowBlock choir ch true).map fun b => (s.block (blockKey ch choir b.1 b.2)).wear).getD 0
  let l := (List.range 64).filter fun ch => (s.lowBlock choir ch true).isSome
  sortBy (fun a b => decide (a < b)) ((sortBy (fun a b => decide (wear a < wear b) ||
    (wear a = wear b && decide ((a + 64 - id % 64) % 64 < (b + 64 - id % 64) % 64))) l).take n)

/-- Positions of P and Q in a stripe (R166). -/
def parityPos (seq : Nat) : Nat := 2 * (seq % 16)
/-- Position of data member `j` in a stripe (R166). -/
def dataPos (seq j : Nat) : Nat := if j < parityPos seq then j else j + 2

/-- One member on each channel: of the highest wear, or of the lowest (R194). -/
def State.members (s : State) (choir : Nat) (high slc : Bool) (chs : List Nat) : List Member :=
  chs.filterMap fun ch => (if high then s.highBlock choir ch else s.lowBlock choir ch slc).map fun b => ⟨ch, b.1, b.2, 0, 0⟩

def Member.key (m : Member) (choir : Nat) : Nat := blockKey m.ch choir m.lun m.block

/-- The 3 B entry of a member (R170). -/
def Member.word (m : Member) : Nat := m.ch % 64 * 2 ^ 18 + m.lun % 8 * 2 ^ 15 + m.block % 2 ^ 13 * 4 + m.status % 4

/-- Mark members' blocks in the block map with a state and an owner: the index of their stripe or segment. -/
def State.takeBlocks (s : State) (choir st owner : Nat) (ms : List Member) : State :=
  ms.foldl (fun s m => s.modBlock (m.key choir) fun b => { b with state := st, owner := owner }) s

/-- Allocate a stripe: its members, of high wear or low, its slot, and its sequence, which is never reused. -/
def State.newStripe (s : State) (choir cls : Nat) (high : Bool) (st nsid zone copyOf : Nat) : Nat × State :=
  let seq := s.xlt.nextStripe
  let slot := leastFree (s.xlt.stripes.map (·.slot)) s.xlt.stripes.length 0
  let ms := s.members choir high false (s.stripeChannels choir seq 32)
  let s := s.takeBlocks choir (if st = 4 then 3 else 2) slot ms
  let t : Stripe := ⟨seq, choir, cls, st, nsid, zone, ms, 0, false, copyOf, slot, 0, 0, 0⟩
  (seq, { s with xlt := { s.xlt with nextStripe := seq + 1, stripes := s.xlt.stripes ++ [t] } })

def State.stripe (s : State) (seq : Nat) : Option Stripe := s.xlt.stripes.find? (·.seq = seq)
def State.modStripe (s : State) (seq : Nat) (g : Stripe → Stripe) : State :=
  { s with xlt := { s.xlt with stripes := s.xlt.stripes.map fun t => if t.seq = seq then g t else t } }

def State.seg (s : State) (id : Nat) : Option Segment := s.xlt.segs.find? (·.id = id)
def State.modSeg (s : State) (id : Nat) (g : Segment → Segment) : State :=
  { s with xlt := { s.xlt with segs := s.xlt.segs.map fun h => if h.id = id then g h else h } }

/-- The 128 B entry of the zone map (R170). The namespace handle, which the rule does not define, is the NSID (DESIGN CHOICE,
assumption 140). A stripe without a zone has generation, fill point and write pointer 0. -/
def State.stripeEntry (s : State) (t : Stripe) : Bytes :=
  let w := match s.ns t.nsid with | some n => if n.zoned then s.zone n t.zone else Zone.init | none => Zone.init
  let b := (t.members.flatMap fun m => leBytes 3 m.word) ++ zeros (96 - 3 * t.members.length) ++ leBytes 8 t.seq ++ leBytes 8 w.gen ++
    leBytes 2 t.nsid ++ leBytes 3 t.zone ++ leBytes 4 w.fill ++ leBytes 3 (w.wp % 2 ^ 22) ++
    [byte (t.state * 16 + t.choir % 4 * 4 + t.cls % 4), byte (bitsOf [w.zfc, w.fzr, t.torn])]
  b ++ leBytes 2 (crc16 b)

/-! ## Capacity (R173, R174, R183, R184, R189, R190) -/

/-- Stripe slots: ⌊installed blocks / 32⌋, per choir and in total (R173). -/
def State.stripeSlots (s : State) : Nat := sumNat (s.xlt.installed.map (· / 32))

/-- Bound stripes of a choir: states 1, 2 and 6, and conventional homes (R174). -/
def State.bound (s : State) (c : Nat) : Nat :=
  (s.xlt.stripes.filter fun t => t.choir = c && (t.state = 1 || t.state = 2 || t.state = 6 || t.state = 3)).length

def State.boundAll (s : State) : Nat := sumNat ((List.range 4).map s.bound)

/-- Installed blocks of the used choirs, and zone-usable stripes in total. -/
def State.usedBlocks (s : State) : Nat := sumNat (s.usedChoirs.map fun c => nth s.xlt.installed c 0)
def State.zoneUsable (s : State) : Nat := sumNat s.xlt.nc

/-- Spawn target of the device for `b` bound stripes: ⌊B × (32 × Z − 30 × b) / (800 × Z)⌋ (R183). -/
def spawnTarget (blocks z b : Nat) : Nat := blocks * (32 * z - 30 * b) / (800 * z)

/-- A share's target and floor: 1/u of the device's, rounded down (R183). -/
def State.shareTarget (s : State) : Nat := spawnTarget s.usedBlocks s.zoneUsable s.boundAll / s.usedChoirs.length
def State.shareFloor (s : State) : Nat :=
  spawnTarget s.usedBlocks s.zoneUsable s.zoneUsable / s.usedChoirs.length

/-- SLC units of a block: 308 of 64 KiB (PLC), 384 (QLC), and the data bytes they hold (R183). -/
def State.slcUnits (s : State) : Nat := if s.plc then 308 else 384
def State.slcBlockBytes (s : State) : Nat := s.slcUnits * 65536

/-- The flush reserve in blocks: buffer size × 17/16 + 256 MiB in SLC capacity (R184). -/
def State.reserveBlocks (s : State) (buf256 : Nat) : Nat :=
  ceilDiv (buf256 * 2 ^ 28 * 17 / 16 + 2 ^ 28) s.slcBlockBytes

/-- A share's part of it. -/
def State.reserveShare (s : State) : Nat := ceilDiv (s.reserveBlocks (s.rd Fd.XLT_BUF_SIZE)) s.usedChoirs.length

/-- Blocks a share can still draw on: spares, and blocks of stripes that are not bound, less those it has drawn above its floor already
(R184). -/
def State.drawable (s : State) (c : Nat) : Nat :=
  nth s.xlt.spares c 0 + 32 * (nth s.xlt.nc c 0 - s.bound c) - (nth s.xlt.spawnBlocks c 0 - s.shareFloor)

/-- Every used choir holds erased blocks for its part of a reserve, spares and free blocks drawn on (R184). -/
def State.canReserve (s : State) (buf256 : Nat) : Bool :=
  s.usedChoirs.all fun c =>
    decide (ceilDiv (s.reserveBlocks buf256) s.usedChoirs.length ≤ nth s.xlt.spawnErased c 0 + s.drawable c)

/-- Erased blocks join or leave a share: a count; which blocks they are is decided when a segment takes them (assumption 95). -/
def State.addErased (s : State) (c n : Nat) : State :=
  { s with xlt := { s.xlt with
    spawnBlocks := setNth s.xlt.spawnBlocks c (nth s.xlt.spawnBlocks c 0 + n)
    spawnErased := setNth s.xlt.spawnErased c (nth s.xlt.spawnErased c 0 + n) } }
def State.dropErased (s : State) (c n : Nat) : State :=
  { s with xlt := { s.xlt with
    spawnBlocks := setNth s.xlt.spawnBlocks c (nth s.xlt.spawnBlocks c 0 - n)
    spawnErased := setNth s.xlt.spawnErased c (nth s.xlt.spawnErased c 0 - n) } }

/-- A share below its part of the reserve draws on spares and free blocks (R184). -/
def State.drawReserve (s : State) : State :=
  s.usedChoirs.foldl (fun s c => s.addErased c (min (s.reserveShare - nth s.xlt.spawnErased c 0) (s.drawable c))) s

/-- Free stripes of a choir (R174). -/
def State.freeStripes (s : State) (c : Nat) : Nat :=
  nth s.xlt.nc c 0 - s.bound c - ceilDiv (nth s.xlt.spawnBlocks c 0 - s.shareFloor) 32

/-- The thresholds of R173. -/
def tBg (n : Nat) : Nat := 15 * n / 1000
def tFg (n : Nat) : Nat := 75 * n / 10000
def tStop (n : Nat) : Nat := 25 * n / 10000

/-- Reclaim level for F free stripes of N usable (R189). -/
def levelOf (n f : Nat) : Nat := if tBg n ≤ f then 0 else if tFg n ≤ f then 1 else if tStop n ≤ f then 2 else 3

/-- The factor H of a choir (R190). -/
def factorOf (n f : Nat) : Nat :=
  if levelOf n f < 2 then 64 else max 8 (64 * (f - tStop n) / (tFg n - tStop n))

/-- Re-evaluate free counts, spawn target, size and reserve, and buffer use (R174, R183, R184). Until translation is restored the
fields read 0 (R202). -/
def State.refreshXlt (s : State) : State :=
  if !s.xlt.restored then s
  else
    let s := s.drawReserve
    let s := (List.range 4).foldl (fun s c =>
      if s.usedChoirs.contains c then s.wr (Fd.XLT_FREE_COUNT c) (s.freeStripes c) else s) s
    let s := (List.range 4).foldl (fun s c =>
      s.wr (Fd.XLT_RECLAIM_PEND c) (min 0xFFFF (ceilDiv (sumNat ((s.xlt.released.filter (·.1 = c)).map (·.2.2.1))) 32))) s
    let s := s.wr Fd.XLT_FILL_COUNT s.boundAll
    let s := s.wr Fd.XLT_SPAWN_SIZE_COUNT (sumNat s.xlt.spawnBlocks)
    let s := s.wr Fd.XLT_SPAWN_TARGET_COUNT (spawnTarget s.usedBlocks s.zoneUsable s.boundAll)
    let s := s.wr Fd.XLT_SPAWN_RESERVE_BLOCKS (s.reserveBlocks (s.rd Fd.XLT_BUF_SIZE))
    let s := s.setFlag Fd.XLT_SPAWN_RESERVE_OK (s.usedChoirs.all fun c => decide (s.reserveShare ≤ nth s.xlt.spawnErased c 0))
    let s := s.wr Fd.XLT_BUF_USED (ceilDiv s.bufBytes (2 ^ 20))
    (List.range 4).foldl (fun s c => s.wr (nth [Fd.XLT_LOG_FREE_C0, Fd.XLT_LOG_FREE_C1, Fd.XLT_LOG_FREE_C2, Fd.XLT_LOG_FREE_C3] c Fd.XLT_LOG_FREE_C0)
      (nth s.xlt.logFree c 0)) s

/-- The reclaim levels, from the free counts: at every frame boundary, at every binding, and where a start recomputes them (R174,
R189, R201). -/
def State.setLevels (s : State) : State :=
  if !s.xlt.restored then s
  else s.usedChoirs.foldl (fun s c => s.wr (Fd.XLT_FREE_LEVEL c) (levelOf (nth s.xlt.nc c 0) (s.freeStripes c))) s

/-- H is fixed for the frame: set at the frame boundary, and where a start recomputes the levels (R190, R201). -/
def State.setFactors (s : State) : State :=
  if !s.xlt.restored then s
  else s.usedChoirs.foldl (fun s c => s.wr (Fd.XLT_RECLAIM_H c) (factorOf (nth s.xlt.nc c 0) (s.freeStripes c))) s

/-! ## Binding and release -/

/-- Allocate a stripe behind its BIND record, which carries members and sequence (R175, R176). -/
def State.bindStripe (s : State) (choir cls : Nat) (high : Bool) (st nsid zone : Nat) : Nat × State :=
  let r := s.newStripe choir cls high st nsid zone 0
  (s.journal .bind ([r.1, nsid, zone, choir] ++ (((r.2.stripe r.1).map Stripe.members).getD []).map Member.word)).newStripe choir cls high st nsid zone 0

/-- Bind a stripe to a zone (R51, R166, R194). -/
def State.bindZone (s : State) (n : Ns) (z choir cls : Nat) : State :=
  let r := s.bindStripe choir cls (decide (2 ≤ cls)) 1 n.nsid z
  let s := r.2.setZone n.nsid z { s.zone n z with stripe := some r.1, choir := choir, cls := cls, counts := true }
  s.refreshXlt.setLevels

/-- A unit waits for its erases, behind its RELEASE record, number `rec'` (R68, R177). -/
def State.releaseUnit (s : State) (c unit n rec' : Nat) : State :=
  ({ s with xlt := { s.xlt with released := s.xlt.released ++ [(c, unit, n, rec')] } }).refreshXlt

/-- Stripes and segments that wait for a rebuild (R234, R237). -/
def State.pendingUnits (s : State) : Nat := (s.med.rebuilds.map fun (r : Rebuild) => (decide (r.kind = 1), r.id)).eraseDups.length

/-- MED_REBUILD follows the rebuild list (R237). -/
def State.refreshRebuild (s : State) : State :=
  (s.setFlag Fd.MED_REBUILD_ACTIVE (!s.med.rebuilds.isEmpty)).wr Fd.MED_REBUILD_PEND s.pendingUnits

/-- Release a stripe for erase. What was queued for it and had not started goes. -/
def State.releaseStripe (s : State) (seq : Nat) : State :=
  match s.stripe seq with
  | none => s
  | some t =>
    let rec' := s.xlt.nextRec
    let s := (s.journal .release [seq]).modStripe seq fun t => { t with state := 5 }
    let s := t.members.foldl (fun s m => s.modBlock (m.key t.choir) fun b => { b with state := if b.state = 6 then 6 else 1 }) s
    let s := { s with
      xlt := { s.xlt with
        slices := s.xlt.slices.filter fun e => e.1 ≠ seq
        copies := s.xlt.copies.filter fun e => e.2.1 ≠ seq }
      med := { s.med with
        rebuilds := s.med.rebuilds.filter (fun (r : Rebuild) => !(r.kind ≠ 1 && r.id = seq))
        refresh := s.med.refresh.filter (· ≠ (false, seq))
        parity := s.med.parity.filter fun e => e.1 ≠ seq
        rows := s.med.rows.filter fun (o : RowOut) => o.unit ≠ seq
        ops := s.med.ops.filter (fun (o : DieOp) => !((o.purpose = 2 || o.purpose = 3 || o.purpose = 6 || o.purpose = 14) && o.unit = seq && o.st = 0)) } }
    s.refreshRebuild.releaseUnit t.choir seq t.members.length rec'

/-- Release a spawn segment for erase: its blocks leave the share. -/
def State.releaseSeg (s : State) (id : Nat) : State :=
  match s.seg id with
  | none => s
  | some g =>
    let rec' := s.xlt.nextRec
    let s := (s.journal .release [id]).modSeg id fun h => { h with released := true, folding := false }
    let s := g.blocks.foldl (fun s m => s.modBlock (m.key g.choir) fun b => { b with state := if b.state = 6 then 6 else 1 }) s
    let s := { s with
      xlt := { s.xlt with
        spawnBlocks := setNth s.xlt.spawnBlocks g.choir (nth s.xlt.spawnBlocks g.choir 0 - g.blocks.length)
        works := s.xlt.works.filter fun w => w ≠ Work.fold g.choir id }
      med := { s.med with
        rebuilds := s.med.rebuilds.filter (fun (r : Rebuild) => !(r.kind = 1 && r.id = id))
        refresh := s.med.refresh.filter (· ≠ (true, id))
        rows := s.med.rows.filter fun (o : RowOut) => o.unit ≠ id
        ops := s.med.ops.filter (fun (o : DieOp) => !(o.purpose = 6 && o.unit = id && o.st = 0)) } }
    s.refreshRebuild.releaseUnit g.choir id g.blocks.length rec'

/-- A single block released for erase is a unit of its own, above every stripe and segment number; its last bit tells the mode. -/
def blockUnit (k : Nat) (slc : Bool) : Nat := 2 ^ 60 + 2 * k + slc.toNat

def State.releaseBlock (s : State) (k : Nat) (slc : Bool) : State :=
  ((s.journal .release [blockUnit k slc]).modBlock k fun b => { b with state := if b.state = 6 then 6 else 1 }).releaseUnit
    (k / 8192 / 8 % 4) (blockUnit k slc) 1 s.xlt.nextRec

/-- A copy whose source is reset is abandoned: its destination is released without a REMAP (R193). -/
def State.abandonCopies (s : State) (seq : Nat) : State :=
  let s := (s.xlt.stripes.filter fun t => t.state = 6 && t.copyOf = seq).foldl (fun s t => s.releaseStripe t.seq) s
  { s with xlt := { s.xlt with works := s.xlt.works.filter fun w => match w with | .wlMove _ q => q ≠ seq | _ => true } }

/-! ## Rounds (R168, R169) -/

/-- Rows and granules of one round, and the rows of a stripe that carry data. -/
def State.roundRows (s : State) : Nat := if s.plc then 20 else 16
def rowGranules : Nat := 7680
def State.roundGranules (s : State) : Nat := rowGranules * s.roundRows
def dataRows : Nat := 6144

/-- Where a clutch begins in its stripe: at its granule in a zone or home, at its slot in a log stripe (R168, R187). -/
def Clutch.posIn (x : Clutch) : Nat := if x.log ≠ 0 then x.slot * convGranules else x.gran

/-- The stripe a clutch belongs to: its log stripe, or its zone's. -/
def State.stripeOf (s : State) (x : Clutch) : Option Stripe :=
  if x.log ≠ 0 then s.stripe x.log
  else ((s.ns x.nsid).bind fun n => if n.zoned then (s.zone n x.zone).stripe else none).bind s.stripe

/-- The clutches a stripe holds or is to hold. -/
def State.stripeClutches (s : State) (t : Stripe) : List Clutch :=
  s.clutches.filter fun x => if t.state = 4 then x.log = t.seq else x.log = 0 && x.nsid = t.nsid && x.zone = t.zone

/-- Rounds of a stripe whose data is all placed: up to the fill point, and the last one too once the zone is Full; of a log stripe,
up to its last slot used. -/
def State.completeRounds (s : State) (t : Stripe) : Nat :=
  let g := s.roundGranules
  if t.state = 4 then
    (if ((s.logHead t.choir).map (·.seq)) = some t.seq then nth s.xlt.logFill t.choir 0 * convGranules / g else ceilDiv (logSlots * convGranules) g)
  else match s.ns t.nsid with
    | none => 0
    | some n => let w := s.zone n t.zone
      if t.state = 2 then ceilDiv w.fill g else w.fill / g

/-- Rounds that all of a stripe's members hold. One that waits for its rebuild holds a round back, whose data stays in the buffer until it is
programmed to the replacement (R179, R227, R229); one that is lost for good does not (R222). -/
def Stripe.programmed (t : Stripe) : Nat :=
  minNat ((t.members.filter fun m => m.status ≠ 2).map Member.units) (maxNat (t.members.map Member.units))

/-- A round is whole: its record; the clutches that end in it lie in the stripe, and their buffer space is released (R169, R179). -/
def State.roundWhole (s : State) (q r : Nat) : State :=
  match s.stripe q with
  | none => s
  | some t =>
    let s := (s.journal .round [q, r]).modStripe q fun t => { t with rounds := r + 1, torn := false }
    let upTo := (r + 1) * s.roundGranules
    let mine := (s.stripeClutches t).map (·.id)
    { s with
      med := { s.med with parity := s.med.parity.filter fun e => !(e.1 = q && decide (e.2.1 < (r + 1) * s.roundRows)) }
      clutches := s.clutches.map fun (c : Clutch) =>
        let moves := match c.place with | .buffer | .spawn _ => true | _ => false
        if mine.contains c.id && moves && decide (c.posIn + c.ngran ≤ upTo) then
          { c with place := if t.state = 4 then .log q else .stripe q, onFlash := true } else c }

/-- Rounds that have become whole. -/
def State.settleRounds (s : State) (q : Nat) : State :=
  match s.stripe q with
  | none => s
  | some t =>
    if t.state = 6 then s
    else (List.range (t.programmed - t.rounds)).foldl (fun (s : State) k => s.roundWhole q (t.rounds + k)) s

/-! ## Log stripes (R187, R188) -/

/-- A new head log stripe, from the choir's free ones, its first slot taken (R187). -/
def State.newLogHead (s : State) (c : Nat) : Nat × Nat × State :=
  let r := s.bindStripe c 1 false 4 0 0
  (r.1, 0, { r.2 with xlt := { r.2.xlt with
    logFill := setNth r.2.xlt.logFill c 1
    logFree := setNth r.2.xlt.logFree c (nth r.2.xlt.logFree c 0 - 1) } }.refreshXlt)

/-- A slot for one more conventional block at a choir's log head; a full head, or none, takes a free log stripe (R187, R88).
Answers the log stripe and the slot. -/
def State.logSlot (s : State) (c : Nat) : Nat × Nat × State :=
  match s.logHead c with
  | some t =>
    let k := nth s.xlt.logFill c 0
    if k < logSlots then (t.seq, k, { s with xlt := { s.xlt with logFill := setNth s.xlt.logFill c (k + 1) } })
    else s.newLogHead c
  | none => s.newLogHead c

/-- The head's running round is closed: slots up to its end stay unused, so that the round can be programmed (assumption 96). -/
def State.closeLogRound (s : State) (c : Nat) : State :=
  { s with xlt := { s.xlt with
    logFill := setNth s.xlt.logFill c (min logSlots (ceilDiv (ceilDiv (nth s.xlt.logFill c 0 * convGranules) s.roundGranules * s.roundGranules) convGranules)) } }

/-! ## Where a clutch lies on flash (R168, R182) -/

/-- Granules of a page, and of an SLC program unit of 64 KiB: one page on each of four planes. -/
def pageGranules : Nat := 256
def slcGranules : Nat := 1024

/-- The byte of its page at which a granule begins (R168). -/
def pageByte (g : Nat) : Nat := g % pageGranules * 64

/-- The member and row of a page of a stripe's data, counted in granule order: 30 data members to a row, P and Q stepped over. -/
def State.stripePage (s : State) (q pg : Nat) : Option (Nat × Member × Nat) :=
  (s.stripe q).bind fun t => (t.members[dataPos q (pg % 30)]?).map fun m => (t.choir, m, pg / 30)

/-- The same for a page of a spawn segment: its SLC units go over the 15 data blocks in turn (assumption 90). -/
def State.spawnPage (s : State) (g pg : Nat) : Option (Nat × Member × Nat) :=
  (s.seg g).bind fun h => (h.blocks[pg / 4 % 15]?).map fun m => (h.choir, m, pg / 4 / 15 * 4 + pg % 4)

/-- The codewords, of 4 KiB each, that granules `a` to `b - 1` need of page `pg` (R219). -/
def codewords (a b pg : Nat) : List Nat :=
  let lo := pageByte (max a (pg * pageGranules))
  let hi := pageByte (min b ((pg + 1) * pageGranules) - 1)
  (List.range 4).filter fun w => decide (lo / 4096 ≤ w) && decide (w ≤ hi / 4096)

/-- The pages that hold a clutch, and no others, with the codewords it needs of each (R207, R219): choir, member, row; none where it is
not on flash. -/
def State.dieReads (s : State) (x : Clutch) : List (Nat × Member × Nat × List Nat) :=
  let pagesOver (first : Nat) (page : Nat → Option (Nat × Member × Nat)) : List (Nat × Member × Nat × List Nat) :=
    ((List.range ((first + x.ngran - 1) / pageGranules + 1 - first / pageGranules)).map (first / pageGranules + ·)).filterMap fun pg =>
      (page pg).map fun e => (e.1, e.2.1, e.2.2, codewords first (first + x.ngran) pg)
  match x.place with
  | .stripe q => pagesOver x.gran (s.stripePage q)
  | .log q => pagesOver (x.slot * convGranules) (s.stripePage q)
  | .spawn g => pagesOver x.pos (s.spawnPage g)
  | _ => []

/-! ## Copies (R31, R186, R188, R193) -/

/-- The destination of a clutch's running copy, and its place there. -/
def State.copyOf (s : State) (id : Nat) : Option (Nat × Nat) := (s.xlt.copies.find? (·.1 = id)).map (·.2)

/-- A queued or running program carries a clutch for some of these purposes. -/
def State.carried (s : State) (id : Nat) (p : Nat → Bool) : Bool :=
  s.med.ops.any fun o => o.kind = .program && p o.purpose && o.carries.any (·.1 = id)

/-- Programs that carry buffered clutches into the spawn: staging, a flush, and staging that a Flush or a shutdown waits for (R104, R109,
R180, R196). -/
def stages (purpose : Nat) : Bool := purpose = 1 || purpose = 4 || purpose = 13

/-- Copies that have ended, and those of clutches that have gone, are forgotten. -/
def State.dropCopiesOf (s : State) (ids : List Nat) : State :=
  { s with xlt := { s.xlt with copies := s.xlt.copies.filter fun e => !ids.contains e.1 && s.clutches.any (·.id = e.1) } }

/-- Rounds a copy destination takes: those its source holds; of a merge, the whole home. -/
def State.copyRounds (s : State) (t : Stripe) : Nat :=
  match s.stripe t.copyOf with
  | some q => if q.state = 3 then ceilDiv (logSlots * convGranules) s.roundGranules else q.rounds
  | none => ceilDiv (logSlots * convGranules) s.roundGranules

/-- The clutches that lie in a segment. -/
def State.segClutches (s : State) (g : Nat) : List Clutch := s.clutches.filter (·.place = .spawn g)

/-! ## What a stripe's pages hold (R153, R168, R221) -/

/-- P and Q of a stripe's rounds are computed: not for a move, which copies them (R195). -/
def State.computes (s : State) (t : Stripe) : Bool := t.state ≠ 6 || ((s.stripe t.copyOf).map (·.state)).getD 3 = 3

/-- The clutches of a stripe, and those being copied or moved to it, with their places in it. -/
def State.ownData (s : State) (t : Stripe) : List (Clutch × Nat) := (s.stripeClutches t).map fun x => (x, x.posIn)
def State.copiedData (s : State) (t : Stripe) : List (Clutch × Nat) :=
  (s.xlt.copies.filter fun e => e.2.1 = t.seq).filterMap (fun e =>
    (s.clutches.find? (·.id = e.1)).map fun x => (x, if t.state = 4 then e.2.2 * convGranules else e.2.2)) ++
  (if s.computes t then [] else (s.clutches.filter (·.place = .stripe t.copyOf)).map fun x => (x, x.gran))

def Clutch.bytes (x : Clutch) : Bytes := (x.stored.hdr.bytes ++ x.stored.region ++ zeros (64 * x.ngran)).take (64 * x.ngran)

/-- Bytes `lo` to `hi - 1` of a data space in which clutches lie at their granules: zeros where none does (R169). -/
def spaceBytes (l : List (Clutch × Nat)) (lo hi : Nat) : Bytes :=
  (l.filter fun e => decide (64 * e.2 < hi) && decide (lo < 64 * (e.2 + e.1.ngran))).foldl (fun b e =>
    let a := 64 * e.2
    let part := (e.1.bytes.drop (lo - a)).take (hi - max lo a)
    b.take (a - lo) ++ part ++ b.drop (a - lo + part.length)) (zeros (hi - lo))

/-- Bytes `lo` to `hi - 1` of data member `j`'s page in a row of a stripe, or of a page of a segment (R168, R182). -/
def State.rowBytes (s : State) (t : Stripe) (row j lo hi : Nat) : Bytes :=
  let pg := 16384 * (30 * row + j)
  spaceBytes ((if t.state = 6 then [] else s.ownData t) ++ s.copiedData t) (pg + lo) (pg + hi)
def State.segBytesOf (s : State) (g pg lo hi : Nat) : Bytes :=
  spaceBytes ((s.clutches.filter (·.place = .spawn g)).map fun x => (x, x.pos)) (16384 * pg + lo) (16384 * pg + hi)

/-- The 30 inputs of a parity slice: the pages of a row (R154). -/
def State.sliceInputs (s : State) (q row : Nat) : List Bytes :=
  match s.stripe q with
  | none => []
  | some t => (List.range 30).map fun j => s.rowBytes t row j 0 16384

/-! ## Reclaim (R191, R195) -/

/-- The oldest released unit of a choir whose RELEASE record is committed and whose erases have not been handed over (R177). -/
def State.erasePending (s : State) (c : Nat) : Option (Nat × Nat × Nat × Nat) :=
  s.xlt.released.find? fun (e : Nat × Nat × Nat × Nat) =>
    e.1 = c && !s.xlt.works.contains (Work.erase c e.2.1) && !s.xlt.unflashed.contains e.2.2.2

/-- A wear-levelling move is due in a choir: the spread of wear over blocks in native use exceeds the trigger
(R195). -/
def State.nativeBlocks (s : State) (c : Nat) : List Block :=
  (s.xlt.blocks.filter fun e => e.1 / 8192 / 8 % 4 = c && (e.2.state = 2 || e.2.state = 3)).map (·.2)

def State.spread (s : State) (c : Nat) : Nat :=
  let w := (s.nativeBlocks c).map Block.wear
  maxNat w - minNat w (maxNat w)

def State.wlTrigger (s : State) : Nat := min (8 * s.rd Fd.XLT_WL_CFG_RATED / 100) 150

/-- Moves run in a choir from a spread above the trigger until it is at most half of it (R195). -/
def State.updateWl (s : State) (c : Nat) : State :=
  let on := if s.wlTrigger < s.spread c then true else if s.spread c ≤ s.wlTrigger / 2 then false else s.xlt.wlOn.contains c
  if on = s.xlt.wlOn.contains c then s
  else { s with xlt := { s.xlt with wlOn := if on then s.xlt.wlOn ++ [c] else s.xlt.wlOn.filter (· ≠ c) } }

/-- Full zone stripes that can be moved: every round they have is programmed, and no copy of them runs. -/
def State.movable (s : State) (c : Nat) : List Stripe :=
  s.xlt.stripes.filter fun t => t.choir = c && t.state = 2 && decide (s.completeRounds t ≤ t.rounds) &&
    !s.xlt.works.contains (Work.wlMove c t.seq)

def State.wlDue (s : State) (c : Nat) : Bool :=
  ((s.movable c).any fun t => s.med.refresh.contains (false, t.seq)) || (s.flag Fd.XLT_WL_CFG_EN && s.xlt.wlOn.contains c)

/-- Mean wear of a stripe's blocks times its member count. -/
def State.stripeWear (s : State) (t : Stripe) : Nat := sumNat (t.members.map fun m => (s.block (m.key t.choir)).wear)

/-- The victim: a stripe marked for refresh (R223); else the Full zone stripe of class 3, then class 2, of lowest mean wear; then the
oldest warm stripe (R195). -/
def State.wlVictim (s : State) (c : Nat) : Option Stripe :=
  let full := s.movable c
  match full.find? fun t => s.med.refresh.contains (false, t.seq) with
  | some t => some t
  | none =>
  match argMin s.stripeWear (full.filter (·.cls = 3)) with
  | some t => some t
  | none => match argMin s.stripeWear (full.filter (·.cls = 2)) with
    | some t => some t
    | none => argMin (·.seq) (full.filter (·.cls = 1))

/-- The spawn segment of a choir to fold: one marked for refresh, else the oldest (R186, R223). -/
def State.oldestSeg (s : State) (c : Nat) : Option Segment :=
  let gs := s.xlt.segs.filter fun g => g.choir = c && !g.folding && !g.released
  match gs.find? fun g => s.med.refresh.contains (true, g.id) with
  | some g => some g
  | none => gs.head?
def State.segLive (s : State) (g : Segment) : Nat := (s.segClutches g.id).length

/-- The head of a choir's share: its newest segment that is neither folded nor released, and has lost no member. -/
def State.headSeg (s : State) (c : Nat) : Option Segment :=
  (s.xlt.segs.filter fun h => h.choir = c && !h.folding && !h.released && h.blocks.all (·.status = 0)).getLast?

/-- Granules of data in a segment: 15 blocks in SLC mode (R182). -/
def State.segGranules (s : State) : Nat := 15 * s.slcBlockBytes / 64

/-- Erased blocks of a share that staging may take: those above its part of the reserve, while the blocks in use stay within its target
(R180, R183, R184). -/
def State.stageBlocks (s : State) (c : Nat) : Nat :=
  let erased := nth s.xlt.spawnErased c 0
  min (erased - s.reserveShare) (s.shareTarget - (nth s.xlt.spawnBlocks c 0 - erased))

/-- Staging room of a choir in bytes: those blocks, in whole segments, and what is left of the head segment; none at levels 2 and 3
(R180). -/
def State.stagingRoom (s : State) (c : Nat) : Nat :=
  if 2 ≤ s.rd (Fd.XLT_FREE_LEVEL c) then 0
  else 64 * (s.stageBlocks c / 16 * s.segGranules +
    match s.headSeg c with | some h => s.segGranules - h.used | none => 0)

/-- Logged slots of a log stripe, wherever their newest copy lies. -/
def State.logLive (s : State) (seq : Nat) : Nat := (s.clutches.filter (·.log = seq)).length

/-- The choir a clutch belongs to: its zone's, or its conventional zone's. -/
def State.homeChoir (s : State) (x : Clutch) : Option Nat :=
  (s.ns x.nsid).map fun n => if n.zoned then (s.zone n x.zone).choir else s.convChoir x.zone

/-- A clutch lies in a spawn segment of another choir (R28, R198). -/
def State.foreign (s : State) (x : Clutch) : Bool :=
  match x.place with
  | .spawn g => (s.xlt.segs.any fun h => h.id = g && some h.choir ≠ s.homeChoir x)
  | _ => false

/-- A merge of the choir runs (R188). -/
def State.merging (s : State) (c : Nat) : Bool := s.xlt.works.any fun w => match w with | .merge d _ _ => d = c | _ => false

/-- The conventional zones of a choir, and the one with the most logged blocks. -/
def State.convZones (s : State) (c : Nat) : List (Nat × Nat) :=
  (s.nss.filter fun n => !n.zoned).flatMap fun n => ((List.range n.zones).filter fun k => s.convChoir k = c).map fun k => (n.nsid, k)
def State.mostLogged (s : State) (c : Nat) : Option (Nat × Nat) :=
  argMax (fun (p : Nat × Nat) => (s.clutches.filter fun x => x.nsid = p.1 && x.zone = p.2 && x.log ≠ 0).length) (s.convZones c)

/-- The reclaim work the firmware picks for a choir (R191); moves home come before it (R198). A compaction whose slots the log head and the free
log stripes cannot take gives way to a merge (DESIGN CHOICE, assumption 131). -/
def State.pickReclaim (s : State) (c : Nat) : Option Work :=
  match s.clutches.find? fun x => s.foreign x && s.homeChoir x = some c && !s.xlt.works.contains (Work.home c x.id) with
  | some x => some (.home c x.id)
  | none => match s.erasePending c with
  | some e => some (.erase c e.2.1)
  | none =>
    let lvl := s.rd (Fd.XLT_FREE_LEVEL c)
    let lim := if 2 ≤ lvl then s.shareFloor else s.shareTarget
    let fold := (s.oldestSeg c).map fun g => Work.fold c g.id
    if lim < nth s.xlt.spawnBlocks c 0 then
      (if s.reserveShare < nth s.xlt.spawnErased c 0 then some (.releaseErased c) else fold)
    else if (lvl = 1 || decide (s.stagingRoom c < s.shareTarget * s.slcBlockBytes / 4)) &&
        s.xlt.segs.any (fun g => g.choir = c && !g.folding && !g.released && s.segLive g ≠ 0) then fold
    else if nth s.xlt.logFree c 0 < max 1 (s.rd Fd.XLT_LOG_LOW_LOW) then
      match argMin (fun t => s.logLive t.seq) (s.xlt.stripes.filter fun t => t.choir = c && t.state = 4 &&
          some t.seq ≠ ((s.logHead c).map (·.seq)) && !s.xlt.works.contains (Work.compact c t.seq)) with
      | none => none
      | some t =>
        if 2 * s.logLive t.seq < logSlots && decide (s.logLive t.seq ≤ s.logSlotsLeft c) then some (.compact c t.seq)
        else if s.merging c || !s.choirBinds c then none
        else (s.mostLogged c).map fun p => .merge c p.1 p.2
    else if lvl ≤ 1 && s.wlDue c && s.choirBinds c then (s.wlVictim c).map fun t => .wlMove c t.seq
    else none

end Sys2Proof.Machine
end

