-- ==== Sys2Proof/Machine/Zones.lean ====
section
/-! DEFINITION. Zones: open, close, finish, reset, report, limits, and the placement point (R51-R68, R78-R88,
R323-R334). -/

namespace Sys2Proof.Machine

open Sys2Proof

/-! ## Limits (R56, R323, R324) -/

def morLimit : Nat := 4096
def marLimit : Nat := 8192

/-- A quota of 0 is no function limit. -/
def quotaReached (use quota : Nat) : Bool := quota ≠ 0 && decide (quota ≤ use)

def State.nsOpenFull (s : State) (n : Ns) : Bool := decide (morLimit ≤ s.openIn n.nsid)
def State.fnOpenFull (s : State) (f : Nat) : Bool := quotaReached (s.openOf f) (s.rd (Fd.VFM_FN_OPEN_QUOTA f))
def State.activeFull (s : State) (n : Ns) : Bool :=
  decide (marLimit ≤ s.activeIn n.nsid) || quotaReached (s.activeOf n.charge) (s.rd (Fd.VFM_FN_ACTIVE_QUOTA n.charge))
def State.stripesFull (s : State) (f : Nat) : Bool := quotaReached (s.stripesOf f) (s.rd (Fd.VFM_FN_STRIPEQ_COUNT f))

/-- The implicitly opened zone the part closes to make room, as its key (R56): longest without a placement;
ties to the lowest NSID, then the lowest zone. -/
def State.closeVictim (s : State) (n : Ns) : Option (Nat × Zone) :=
  argMin (fun (e : Nat × Zone) => e.2.lastPlace)
    (s.zones.filter fun e => e.2.state = .implicitOpen &&
      (if s.nsOpenFull n then e.1 / 2 ^ 20 = n.nsid
       else (s.nss.any fun m => m.nsid = e.1 / 2 ^ 20 && m.charge = n.charge)))

/-- Room for one more open zone: as it is, or after closing an implicitly opened zone; none where no such
zone can be closed (R56). -/
def State.makeOpenRoom (s : State) (n : Ns) : Option State :=
  if !s.nsOpenFull n && !s.fnOpenFull n.charge then some s
  else match s.closeVictim n with
    | none => none
    | some e => some { s with zones := tblSet zoneDefault s.zones e.1 { e.2 with state := .closed } }

/-- The checks of a zone going open: active limits for an Empty zone, then open limits, then the stripe quota
for an Empty zone that nothing counts yet (R56, R59, R324). Where the stripe quota then fails, the implicit close that made room does
not stand: the spec is silent on the other zone (DESIGN CHOICE, assumption 137). -/
def State.openChecks (s : State) (n : Ns) (z : Nat) : State ⊕ Status :=
  let w := s.zone n z
  if w.state = .empty && s.activeFull n then .inr .tooManyActive
  else
    let room := if w.state.isOpen then some s else s.makeOpenRoom n
    match room with
    | none => .inr .tooManyOpen
    | some s' => if w.state = .empty && !w.counts && s.stripesFull n.charge then .inr .quotaExceeded else .inl s'

/-! ## Naming a zone -/

/-- Zone management names a zone by its first LBA, or all zones (R50). -/
def zoneArgs (s : State) (src : Src) (nsid slba : Nat) (all : Bool) (k : Ns → State) : State :=
  withNs s src nsid fun n =>
    if !n.zoned then s.err src .invalidOpcode
    else if all then k n
    else if n.nsze ≤ slba then s.err src .lbaOutOfRange
    else if slba % zoneBlocks ≠ 0 then s.err src .invalidField
    else k n

/-- The zone numbers of a namespace in a set of states; zones never recorded are Empty and are not listed. -/
def State.zonesIn (s : State) (n : Ns) (p : ZState → Bool) : List Nat :=
  ((s.zonesOf n.nsid).filter fun e => p e.2.state).map (·.1)

/-! ## Open and close -/

/-- Open one zone explicitly (R55, R56). -/
def State.openZone (s : State) (n : Ns) (z : Nat) : State ⊕ Status :=
  let w := s.zone n z
  match w.state with
  | .full | .readOnly | .offline => .inr .invalidZoneState
  | .explicitOpen => .inl s
  | .implicitOpen => .inl (s.setZone n.nsid z { w with state := .explicitOpen })
  | .empty | .closed =>
    match s.openChecks n z with
    | .inr st => .inr st
    | .inl s' => .inl (s'.setZone n.nsid z { w with state := .explicitOpen, counts := true })

/-- Open several zones; the first that fails decides and nothing changes (R9). -/
def State.openZones (s : State) (n : Ns) : List Nat → State ⊕ Status
  | [] => .inl s
  | z :: r => match s.openZone n z with
    | .inr st => .inr st
    | .inl s' => State.openZones s' n r

/-- A Zone Open takes effect: explicit open; all zones means every Closed zone. -/
def State.startOpen (s : State) (c : Cmd) (n : Ns) : State :=
  match s.openZones n (if c.nlb = 0 then s.zonesIn n (· = .closed) else [c.slba / zoneBlocks]) with
  | .inl s' => s'.finish c .success 0 0 .none
  | .inr st => s.finish c st 0 0 .none

/-- Close one zone: an open zone becomes Closed and stays active (R56). -/
def State.closeZone (s : State) (n : Ns) (z : Nat) : State :=
  let w := s.zone n z
  if w.state.isOpen then s.setZone n.nsid z { w with state := .closed } else s

/-- A Zone Close takes effect; all zones means every open zone. -/
def State.startClose (s : State) (c : Cmd) (n : Ns) : State :=
  if c.nlb = 0 then
    (((s.zonesIn n ZState.isOpen).foldl (fun s z => s.closeZone n z) s).settleFlags n.charge).finish c .success 0 0 .none
  else if (s.zone n (c.slba / zoneBlocks)).state.isActive then
    ((s.closeZone n (c.slba / zoneBlocks)).settleFlags n.charge).finish c .success 0 0 .none
  else s.finish c .invalidZoneState 0 0 .none

/-! ## Finish (R64, R333) -/

/-- Make a zone Full. A stripe it holds becomes Full; its FINISH record is written; a zone finished by the
controller sends its notice (R63). -/
def State.fillZone (s : State) (n : Ns) (z : Nat) (byCtrl notice : Bool) : State :=
  let w := s.zone n z
  let s := s.journal .finish [n.nsid, z]
  let s := s.setZone n.nsid z { w with state := .full, zfc := byCtrl }
  let s := match w.stripe with
    | some q => s.modStripe q fun t => { t with state := 2, full := s.xlt.nextPlace * 2 ^ 64 + s.xlt.nextRec }
    | none => s
  let s := s.settleFlags n.charge
  if notice then s.zoneNotice n z else s

/-- Zone Finish of one zone: an Empty zone becomes Full without a stripe and counts nowhere (R64). -/
def State.finishZone (s : State) (n : Ns) (z : Nat) : State ⊕ Status :=
  match (s.zone n z).state with
  | .full => .inl s
  | .readOnly | .offline => .inr .invalidZoneState
  | .empty | .implicitOpen | .explicitOpen | .closed => .inl (s.fillZone n z false false)

/-! ## Reset (R65-R68) -/

/-- RESET records of zones at a generation (R176). -/
def State.recordResets (s : State) (n : Ns) (g : Nat) (zs : List Nat) : State := zs.foldl (fun s z => s.journal .reset [n.nsid, z, g]) s

/-- Zones become Empty at a generation: clutches are dropped, stripes released, copies of them abandoned (R66, R68, R193). -/
def State.clearZones (s : State) (n : Ns) (g : Nat) (zs : List Nat) : State :=
  (zs.foldl (fun s z =>
      let w := s.zone n z
      let s := s.removeClutches fun c => c.nsid = n.nsid && c.zone = z
      let s := match w.stripe with
        | some q => (s.abandonCopies q).releaseStripe q
        | none => s
      s.setZone n.nsid z { Zone.init with gen := g, lastPlace := w.lastPlace }) s).settleFlags n.charge

/-- The same behind their records. -/
def State.emptyZones (s : State) (n : Ns) (g : Nat) (zs : List Nat) : State := (s.recordResets n g zs).clearZones n g zs

/-- An event that changes generations: the device-wide counter advances by 1 (R66). -/
def State.nextGen (s : State) : State := { s with xlt := { s.xlt with genCounter := s.xlt.genCounter + 1 } }

/-- A reset of zones of one namespace, one event. Without a zone that it affects nothing changes (R66). -/
def State.resetZones (s : State) (n : Ns) (zs : List Nat) : State :=
  if zs.isEmpty then s else s.nextGen.emptyZones n (s.xlt.genCounter + 1) zs

/-- The zones a reset affects: those not Empty; all of them, or the one named (R66). -/
def State.resetSet (s : State) (n : Ns) (c : Cmd) : List Nat :=
  if c.nlb = 0 then s.zonesIn n fun st => st.isActive || st = .full
  else if (s.zone n (c.slba / zoneBlocks)).state = .empty then [] else [c.slba / zoneBlocks]

/-- A Zone Reset takes effect. While the hold-up self-test is failed its records are written, and it waits, outstanding and unapplied,
until they are on flash: in the record `gen` is the generation, `ranges` the zones, `off` the first journal sequence behind them
(R67, R175). -/
def State.startReset (s : State) (c : Cmd) (n : Ns) : State :=
  let w := s.zone n (c.slba / zoneBlocks)
  let zs := s.resetSet n c
  if c.nlb ≠ 0 && (w.state = .readOnly || w.state = .offline) then s.finish c .invalidZoneState 0 0 .none
  else if s.hlt.holdup = 1 && !zs.isEmpty then
    let s := s.nextGen.recordResets n (s.xlt.genCounter + 1) zs
    s.modCmd c.tag fun c => { c with started := true, gen := s.xlt.genCounter, ranges := zs.map fun z => (z, 0), off := s.xlt.nextRec }
  else (s.resetZones n zs).finish c .success 0 0 .none

/-- Resets whose records have all reached flash take effect and complete (R67). -/
def State.commitResets (s : State) : State :=
  (s.cmds.filter fun c => c.kind = .zoneReset && c.started && !s.xlt.unflashed.any fun q => decide (q < c.off)).foldl (fun s c =>
    match s.ns c.nsid with
    | some n => (s.clearZones n c.gen (c.ranges.map (·.1))).finish c .success 0 0 .none
    | none => s) s

/-- A Zone Finish takes effect at its point of the queue order (R65). -/
def State.startFinish (s : State) (c : Cmd) (n : Ns) : State :=
  if c.nlb = 0 then
    ((s.zonesIn n ZState.isActive).foldl (fun s z => s.fillZone n z false false) s).finish c .success 0 0 .none
  else match s.finishZone n (c.slba / zoneBlocks) with
    | .inl s' => s'.finish c .success 0 0 .none
    | .inr st => s.finish c st 0 0 .none

/-- A command record with the fields most commands leave at zero. -/
def Cmd.new (tag pos : Nat) (src : Src) (kind : Kind) (nsid slba nlb : Nat) : Cmd :=
  ⟨tag, src.fn, src.qid, src.cid, pos, kind, nsid, slba, nlb, false, false, 0xD, 0, 0, 0, 0, [], [], 0, 0, 0, 0, 0, 0,
   0, 0, [], [], [], none, none, []⟩

def State.addCmd (s : State) (c : Cmd) : State :=
  ({ s with cmds := s.cmds ++ [c] }).modFn c.fn fun f => { f with ioSeen := f.ioSeen || decide (c.kind ≠ Kind.peer) }

/-- Zone management of one zone or of all: it is queued, and takes effect at once where nothing holds it back (R94, R100). In the
record `nlb` 0 stands for all zones. -/
def zoneCmd (s : State) (src : Src) (cls : Class) (k : Kind) (nsid slba : Nat) (all : Bool) (go : State → Cmd → Ns → State) : Result :=
  hostTagged s src cls false fun tag q s =>
    zoneArgs s src nsid slba all fun n =>
      let c := Cmd.new tag q.nextPos src k nsid slba (if all then 0 else 1)
      let s := s.addCmd c
      if s.waits c then s else go s c n

def execZoneOpen (src : Src) (nsid slba : Nat) (all : Bool) (s : State) : Result :=
  zoneCmd s src .ioOther .zoneOpen nsid slba all State.startOpen
def execZoneClose (src : Src) (nsid slba : Nat) (all : Bool) (s : State) : Result :=
  zoneCmd s src .ioOther .zoneClose nsid slba all State.startClose
def execZoneReset (src : Src) (nsid slba : Nat) (all : Bool) (s : State) : Result :=
  zoneCmd s src .ioReset .zoneReset nsid slba all State.startReset
def execZoneFinish (src : Src) (nsid slba : Nat) (all : Bool) (s : State) : Result :=
  zoneCmd s src .ioOther .zoneFinish nsid slba all State.startFinish

/-! ## Report and physical status -/

/-- NVMe zone state codes. -/
def ZState.code : ZState → Nat
  | .empty => 1 | .implicitOpen => 2 | .explicitOpen => 3 | .closed => 4 | .readOnly => 13 | .full => 14 | .offline => 15

/-- A zone's descriptor: an Offline zone's write pointer reads ZSLBA (R63). -/
def State.zoneDesc (s : State) (n : Ns) (z : Nat) : ZoneDesc :=
  let w := s.zone n z
  ⟨w.state.code, bitsOf [w.zfc, w.fzr], zoneBlocks, z * zoneBlocks,
   z * zoneBlocks + (if w.state = .offline then 0 else w.wp)⟩

/-- A report from a zone on, at most as many descriptors as asked (R50, R57, R63). -/
def State.startReport (s : State) (c : Cmd) (n : Ns) : State :=
  let z := c.slba / zoneBlocks
  s.finish c .success 0 0 (.zones (n.zones - z) ((List.range (min c.off (n.zones - z))).map fun i => s.zoneDesc n (z + i)))

/-- REPORT_ZONES: queued as any I/O command, it answers at once where nothing holds it back. -/
def execReportZones (src : Src) (nsid slba count : Nat) (s : State) : Result :=
  hostTagged s src .ioOther false fun tag q s =>
    withNs s src nsid fun n =>
      if !n.zoned then s.err src .invalidOpcode
      else if n.nsze ≤ slba then s.err src .lbaOutOfRange
      else
        let c := { Cmd.new tag q.nextPos src .report nsid slba 1 with off := count }
        let s := s.addCmd c
        if s.waits c then s else s.startReport c n

/-- One 16 B entry of Zone Physical Status (R78). -/
def State.zoneStatus (s : State) (n : Ns) (z : Nat) : Bytes :=
  if n.zones ≤ z then zeros 12 ++ [0xFF] ++ zeros 3
  else
    let w := s.zone n z
    leBytes 8 w.gen ++ leBytes 4 w.fill ++
      (match w.stripe with
       | some _ => [byte w.choir, byte w.cls]
       | none => [0xFF, 0]) ++ zeros 2

/-- Get Features 0xD2: 256 entries from the zone in CDW11 up (R78). -/
def execGetFeaturesZonePhysicalStatus (src : Src) (nsid zone : Nat) (s : State) : Result :=
  host s src .getFeat fun s =>
    withNs s src nsid fun n =>
      if !n.zoned then s.err src .invalidNsOrFormat
      else s.done src .success 0 0 (.bytes ((List.range 256).flatMap fun i => s.zoneStatus n (zone + i)))

/-- Set Features 0xD2 is not changeable (R78). -/
def execSetFeaturesZonePhysicalStatus (src : Src) (s : State) : Result :=
  host s src .setFeat fun s => s.err src .featureNotChangeable

/-- Changed Zone List of a namespace: the first LBAs of its changed zones, as the function's list has them; reading empties them,
and with none left the notice may come again (R63). -/
def execGetLogPageChangedZoneList (src : Src) (rae : Bool) (s : State) (nsid : Nat := 1) : Result :=
  host s src .logPage fun s =>
    let l := ((s.fn src.fn).changed.filter (·.1 = nsid)).map (·.2)
    let s := if rae then s else s.modFn src.fn fun f => { f with changed := f.changed.filter (·.1 ≠ nsid) }
    (s.logRead src.fn 0xBF rae).done src .success 0 0 (.changedZones l)

/-! ## The placement point (R58-R62) -/

/-- Tokens charged for stored granules in a choir with factor H: ⌈⌈g / 64⌉ × 64 / H⌉ (R190, R326). -/
def charge (granules h : Nat) : Nat := ceilDiv (ceilDiv granules 64 * 64) (if h = 0 then 64 else h)

def State.chargeFn (s : State) (f t : Nat) : State :=
  s.modFn f fun g => { g with bal := g.bal - (t : Int), charged := g.charged + t }

/-- Checks 1 to 4 of R59, which need no room: state, write pointer, logical room, physical room. -/
def placeCheck (w : Zone) (isWrite : Bool) (off nlb gran : Nat) : Option Status :=
  if w.state = .full then some .zoneFull
  else if w.state = .readOnly then some .zoneReadOnly
  else if w.state = .offline then some .zoneOffline
  else if isWrite && off ≠ w.wp then some .zoneInvalidWrite
  else if zoneBlocks < w.wp + nlb then some .zoneBoundary
  else if zoneGranules < w.fill + gran then some .zoneFull
  else none

/-- The failure that also finishes the zone: no physical room (R59). -/
def placeFills (w : Zone) (isWrite : Bool) (off nlb gran : Nat) : Bool :=
  (w.state = .empty || w.state.isActive) && !(isWrite && off ≠ w.wp) && decide (w.wp + nlb ≤ zoneBlocks) &&
    decide (zoneGranules < w.fill + gran)

/-- Granules of the raw clutch of a namespace, the most a clutch can take (R69). -/
def Ns.rawGranules (n : Ns) : Nat := granulesOf (n.clutch * 4096) (n.clutch * piBytes n.fmt)

/-- The clutches a command places: consecutive LBAs and granules in LBA order. The first LBA in each header is
the one assigned (R70), which re-seals the header of an append. -/
def layClutches (n : Ns) (fn z id0 : Nat) : Nat → Nat → Nat → List Stored → List Clutch
  | _, _, _, [] => []
  | i, lba, g, p :: r =>
    let h := ({ p.hdr with lba := lba }).seal
    ⟨id0 + i, n.nsid, z, g, p.gran, lba, p.hdr.llen / 4096, fn, { p with hdr := h }, .buffer, false, 0, 0, 0⟩ ::
      layClutches n fn z id0 (i + 1) (lba + p.hdr.llen / 4096) (g + p.gran) r

/-- Tuples with their reference tags set for consecutive blocks from an LBA (R75, R119). -/
def retag (fmt : Nat) : Nat → Nat → Bytes → Bytes
  | 0, _, _ => []
  | k + 1, lba, t =>
    let r := if fmt = 2 then 6 else 4
    t.take (piBytes fmt - r) ++ beBytes r lba ++ retag fmt k (lba + 1) (t.drop (piBytes fmt))

/-- Give a clutch the first LBA assigned at placement where it was not known before (R58, R119): the tweak is
the first LBA (R144) and the reference tags follow it. -/
def retweak (n : Ns) (key : Bytes) (old : Nat) (new : Nat) (p : Stored) : Stored :=
  if old = new then p
  else
    let b := xtsDec key old p.region
    let k := p.hdr.llen / 4096
    let tail := retag n.fmt k new ((b.drop p.hdr.slen).take (k * piBytes n.fmt))
    let b := if n.fmt = 0 then b else b.take p.hdr.slen ++ tail ++ b.drop (p.hdr.slen + k * piBytes n.fmt)
    { hdr := ({ p.hdr with lba := new }).seal, region := xtsEnc key new b }

/-- A command's stored clutches in LBA order. -/
def Cmd.stored (c : Cmd) : List Stored :=
  (sortBy (fun (a b : Nat × Stored) => decide (a.1 < b.1)) c.parts).map (·.2)

/-- Every clutch of a write stands in the buffer in stored form. -/
def Cmd.atPlacement (c : Cmd) (n : Ns) : Bool :=
  c.kind.stores && c.started && c.items = 0 && c.fail.isNone && c.parts.length = n.clutchesOf c.nlb

/-- R65: a write fetched after a reset or finish of its zone in the same queue meets the zone as that left it:
it is placed only after them. -/
def State.placeWaits (s : State) (c : Cmd) : Bool :=
  s.cmds.any fun a => s.earlier a c && a.nsid = c.nsid && (a.kind = .zoneReset || a.kind = .zoneFinish) &&
    (a.nlb = 0 || a.slba / zoneBlocks = c.slba / zoneBlocks)

/-- The completion of a placed command: its data counted, the locator or the assigned LBA returned. -/
def State.finishWrite (s : State) (c : Cmd) (lba : Nat) (loc : Nat) : State :=
  let s := (s.countIo c)
  if c.kind = .locAppend || c.kind = .vpw || c.kind = .reconstruct then
    s.finish c .success (loc % 2 ^ 32) (loc >>> 32) .none
  else if c.kind = .append then s.finish c .success (lba % 2 ^ 32) (lba >>> 32) .none
  else s.finish c .success 0 0 .none

/-- Flushes of the same queue that come after a write cover what it placed (R103). -/
def State.coverByFlush (s : State) (c : Cmd) (ids : List Nat) : State :=
  { s with cmds := s.cmds.map fun f =>
      if f.kind = .flush && s.earlier c f && (f.nsid = 0xFFFFFFFF || f.nsid = c.nsid)
      then { f with targets := f.targets ++ ids } else f }

/-- Place a command in its zone, all its checks passed and its stripe bound (R58, R61, R62). Where one placement brings the write
pointer to the zone's capacity and the fill point to exactly its end, both cases of R61 apply; Zone Finished by Controller is
set and the notice sent (assumption 89). -/
def State.placeZoned (s : State) (c : Cmd) (n : Ns) (z : Nat) : State :=
  let w := s.zone n z
  let parts := c.stored
  let gran := sumNat (parts.map Stored.gran)
  let s := s.journal .place [n.nsid, z, w.wp, c.nlb, w.fill, gran]
  let lba := z * zoneBlocks + w.wp
  let key := (s.slot (s.keySlot n c.fn c.keyTag)).key
  let laid := layClutches n c.fn z s.xlt.nextPlace 0 lba w.fill parts
  let laid := (laid.zip parts).map fun e => { e.1 with stored := retweak n key e.2.hdr.lba e.1.lba e.2 }
  let w' : Zone := { w with
                     wp := w.wp + c.nlb, fill := w.fill + gran,
                     state := if w.state = .explicitOpen then ZState.explicitOpen else ZState.implicitOpen,
                     counts := true, lastPlace := s.xlt.nextPlace + parts.length }
  let w' : Zone := { w' with fzr := w'.fzr || decide (zoneGranules - w'.fill < n.rawGranules) }
  let s := (s.setZone n.nsid z w').coverByFlush c (laid.map (·.id))
  let x := { s.xlt with nextPlace := s.xlt.nextPlace + parts.length }
  let s := { s with clutches := s.clutches ++ laid, xlt := x }
  let s := s.chargeFn c.fn (charge gran (s.rd (Fd.XLT_RECLAIM_H w'.choir)))
  let s := if w'.wp = zoneBlocks then s.fillZone n z (decide (w'.fill = zoneGranules)) (decide (w'.fill = zoneGranules))
    else if w'.fill = zoneGranules then s.fillZone n z true true else s
  s.finishWrite c lba (mkLocator z w.fill gran ((parts.head?.map (·.hdr.fmt)).getD 0))

/-- A command reaches its placement point in a zone: the checks of R59 in order, the binding of R51. A binding
whose choir is at the stop level waits (R54). -/
def State.placeInZone (s : State) (c : Cmd) (n : Ns) : State :=
  let z := c.slba / zoneBlocks
  let w := s.zone n z
  let gran := sumNat (c.stored.map Stored.gran)
  let isWrite := c.kind = .write || c.kind = .orderedWrite || c.kind = .writeZeroes
  match placeCheck w isWrite (c.slba % zoneBlocks) c.nlb gran with
  | some st =>
    let s := if placeFills w isWrite (c.slba % zoneBlocks) c.nlb gran then s.fillZone n z true true else s
    s.finish c st 0 0 .none
  | none =>
    match s.openChecks n z with
    | .inr st => s.finish c st 0 0 .none
    | .inl s' =>
      if w.stripe.isSome then s'.placeZoned c n z
      else if s'.bindWaits c.hint then s
      else (s'.bindZone n z ((s'.bindChoir c.hint).getD 0) (c.hint % 4)).placeZoned c n z

/-- A conventional write whose blocks are all in the buffer: each becomes the newest copy of its block in the
overlay, and takes a slot of the log head of its choir (R84, R88, R187). Its charge is per choir (R326). -/
def State.placeConv (s : State) (c : Cmd) (n : Ns) : State :=
  let parts := c.stored
  let s := s.journal .place [n.nsid, c.slba, c.nlb]
  let r := (parts.zip (List.range parts.length)).foldl (fun (a : List Clutch × State) e =>
    let lba := c.slba + e.2
    let l := a.2.logSlot (s.convChoir (lba / convBlocks))
    (a.1 ++ [⟨s.xlt.nextPlace + e.2, n.nsid, lba / convBlocks, lba % convBlocks * convGranules, convGranules, lba, 1, c.fn, e.1, .buffer, false, l.1, l.2.1, 0⟩], l.2.2)) ([], s)
  let cs := r.1
  let s := r.2
  let s := (s.coverByFlush c (cs.map (·.id))).removeClutches fun (x : Clutch) => x.nsid = n.nsid && cs.any (·.lba = x.lba)
  let s : State := { s with
    clutches := s.clutches ++ cs,
    xlt := { s.xlt with
      nextPlace := s.xlt.nextPlace + parts.length,
      unread := s.xlt.unread.filter fun o => !(o.1 = n.nsid && cs.any (·.lba = o.2)) } }
  let s := (List.range 4).foldl (fun s ch =>
    let g := sumNat ((cs.filter fun x => s.convChoir x.zone = ch).map (·.ngran))
    if g = 0 then s else s.chargeFn c.fn (charge g (s.rd (Fd.XLT_RECLAIM_H ch)))) s
  let s := s.modNs n.nsid fun n => { n with formattedFor := false }
  s.finishWrite c c.slba 0

/-- PLACEMENT_POINT: nothing happens before every clutch stands in the buffer and earlier resets and finishes
of the queue have taken effect. A conventional write waits while its choirs' log stripes are full (R88). -/
def execPlacementPoint (tag : Nat) (s : State) : Result :=
  onTag s tag fun c =>
    match s.ns c.nsid with
    | none => .next s
    | some n =>
      if c.atPlacement n && !s.placeWaits c && (n.zoned || s.logRoom c) then
        .next (if n.zoned then s.placeInZone c n else s.placeConv c n)
      else .next s

end Sys2Proof.Machine
end

