-- ==== Sys2Proof/Machine/Tenancy.lean ====
section
/-! DEFINITION. Functions, pools and quotas: Pool Manage, key ranges and media slots, write-token refills, the Pool
Usage log page (R315-R338). -/

namespace Sys2Proof.Machine

open Sys2Proof

/-! ## Key ranges (R318) -/

def keySlotsForFns : Nat := 16320
def poolQueuePairs : Nat := 16384

def State.setSlot (s : State) (k : Nat) (v : KeySlot) : State :=
  { s with sec := { s.sec with slots := tblSet slotDefault s.sec.slots k v } }
def State.zeroSlot (s : State) (k : Nat) : State := s.setSlot k (slotDefault k)

/-- The key ranges of the assigned functions: base, size, function; by base. -/
def State.keyRanges (s : State) : List (Nat × Nat × Nat) :=
  sortBy (fun (a b : Nat × Nat × Nat) => decide (a.1 < b.1))
    ((s.assignedFns.filter fun f => s.rd (Fd.VFM_FN_KEYS_SLOTS f) ≠ 0).map fun f =>
      (s.rd (Fd.VFM_FN_KEYS_BASE f), s.rd (Fd.VFM_FN_KEYS_SLOTS f), f))

/-- The free runs between ranges: base and size. -/
def freeRuns : Nat → List (Nat × Nat × Nat) → List (Nat × Nat)
  | lo, [] => if lo < keySlotsForFns then [(lo, keySlotsForFns - lo)] else []
  | lo, (b, n, _) :: r => (if lo < b then [(lo, b - lo)] else []) ++ freeRuns (max lo (b + n)) r

def State.runs (s : State) : List (Nat × Nat) := freeRuns 0 s.keyRanges

/-- The base the part chooses for a range: the lowest free run that holds it (assumption 20). -/
def State.pickBase (s : State) (n : Nat) : Option Nat := (s.runs.find? fun r => decide (n ≤ r.2)).map (·.1)

/-- A slot of a range holds a Key Per I/O key: it is loaded and no namespace's media slot. -/
def State.kpioLoaded (s : State) (k : Nat) : Bool := (s.slot k).kind ≠ 0 && !s.nss.any (·.slot = some k)

/-- A function's media slots, topmost first. -/
def State.mediaSlots (s : State) (f : Nat) : List (Nat × Nat) :=
  sortBy (fun (a b : Nat × Nat) => decide (b.1 < a.1))
    ((s.nssOf f).filterMap fun n => n.slot.map fun k => (k, n.nsid))

/-- Move a function's media slots to lie one below another under `top`; each moved one is zeroed where it was
and reloads in its new place (R318). -/
def State.moveMedia (s : State) (f top : Nat) : State :=
  let ms := s.mediaSlots f
  let s := ms.foldl (fun s m => s.zeroSlot m.1) s
  ((List.range ms.length).zip ms).foldl (fun s e =>
    let k := top - 1 - e.1
    let keep := k = e.2.1
    let s := s.modNs e.2.2 fun n => { n with slot := some k, slotReady := n.slotReady && keep }
    match s.ns e.2.2 with
    | some n => if keep && n.slotReady then s.setSlot k ⟨1, f, 1, Config.drawnKey n.key⟩ else s
    | none => s) s

/-- The slots media slots would move into under a new top are free of Key Per I/O keys (R332), and so are those above it, which would
leave the range with a key in them (DEDUCED, assumption 109). -/
def State.shrinkFits (s : State) (f new : Nat) : Bool :=
  let b := s.rd (Fd.VFM_FN_KEYS_BASE f)
  let m := (s.mediaSlots f).length
  decide (m ≤ new) && (List.range (s.rd (Fd.VFM_FN_KEYS_SLOTS f) - (new - m))).all fun i => !s.kpioLoaded (b + (new - m) + i)

/-- Set a function's range size: a growth moves the media slots up; a shrink waits until it fits (R318, R332). -/
def State.resizeKeys (s : State) (f new : Nat) : State :=
  let old := s.rd (Fd.VFM_FN_KEYS_SLOTS f)
  let b := s.rd (Fd.VFM_FN_KEYS_BASE f)
  if old ≤ new || s.shrinkFits f new then
    let s := (s.wr (Fd.VFM_FN_KEYS_SLOTS f) new).modFn f fun g => { g with keyShrink := none }
    if (s.mediaSlots f).isEmpty then s else s.moveMedia f (b + new)
  else (s.modFn f fun g => { g with keyShrink := some new }).wr (Fd.VFM_FN_STATE_OVERQ f) ((s.rd (Fd.VFM_FN_STATE_OVERQ f)) ||| 2)

/-- A waiting shrink goes through once its slots are free; the over-quota flag clears with it. -/
def State.retryShrink (s : State) (f : Nat) : State :=
  match (s.fn f).keyShrink with
  | some n => if s.shrinkFits f n then (s.resizeKeys f n).settleFlags f else s
  | none => s

/-- The slot an attach takes for a namespace: the one just below the media slots, if no key lies there (R318). -/
def State.attachSlot (s : State) (f : Nat) : Option Nat :=
  let b := s.rd (Fd.VFM_FN_KEYS_BASE f)
  let n := s.rd (Fd.VFM_FN_KEYS_SLOTS f)
  let m := (s.mediaSlots f).length
  if n ≤ m then none
  else if s.kpioLoaded (b + n - 1 - m) then none else some (b + n - 1 - m)

/-! ## Pool Manage (R319-R322) -/

/-- The descriptor's own ranges and the constraints of its class (R319, R320). -/
def poolBad (d : PoolDesc) : Bool :=
  d.qp = 0 || decide (256 < d.qp) || decide (d.inflight < 64) || decide (8192 < d.inflight) || d.keys = 0 ||
  decide (4096 < d.keys) || decide (2 < d.cls) || decide (1 < d.flags) || decide (65535 < d.openq) ||
  decide (65535 < d.activeq) || d.nsq = 0 || decide (128 < d.nsq) || decide (d.buf < 16) || decide (8192 < d.buf) ||
  decide (349504 < d.stripes) || decide (1000000 < d.g) || decide (1000000 < d.c) || d.weight = 0 ||
  decide (1000 < d.weight) || d.burst = 0 || decide (8 < d.burst) || d.reserved ≠ 0 ||
  (d.cls = 0 && d.c ≠ d.g) || (d.cls = 1 && (d.c = 0 || decide (d.c < d.g))) || (d.cls = 2 && (d.g ≠ 0 || d.c = 0))

/-- A function's current settings, as a descriptor. The flags field holds only for the change it came with. -/
def State.poolNow (s : State) (f : Nat) : PoolDesc :=
  { qp := s.rd (Fd.VFM_FN_QP_LIMIT f), inflight := s.rd (Fd.VFM_FN_INFLIGHT_LIMIT f), keys := s.rd (Fd.VFM_FN_KEYS_SLOTS f),
    cls := s.rd (Fd.VFM_FN_STATE_CLASS f), flags := 0, openq := s.rd (Fd.VFM_FN_OPEN_QUOTA f),
    activeq := s.rd (Fd.VFM_FN_ACTIVE_QUOTA f), nsq := s.rd (Fd.VFM_FN_NS_QUOTA f), buf := s.rd (Fd.VFM_FN_BUF_QUOTA f),
    stripes := s.rd (Fd.VFM_FN_STRIPEQ_COUNT f), g := s.rd (Fd.VFM_FN_GTOK_TOKENS f), c := s.rd (Fd.VFM_FN_CTOK_TOKENS f),
    weight := s.rd (Fd.VFM_FN_TOKCFG_WEIGHT f), burst := s.rd (Fd.VFM_FN_TOKCFG_BURST f) + 1,
    peerTag := s.rd (Fd.VFM_FN_PEERTAG_VALUE f), mask := 0, reserved := 0 }

/-- Apply the change mask to current values (R319, R320). -/
def poolOver (d now : PoolDesc) : PoolDesc :=
  let p (i : Nat) (a b : Nat) : Nat := if d.mask.testBit i then a else b
  { qp := p 0 d.qp now.qp, inflight := p 1 d.inflight now.inflight, keys := p 2 d.keys now.keys, cls := p 3 d.cls now.cls,
    flags := p 4 d.flags now.flags, openq := p 5 d.openq now.openq, activeq := p 6 d.activeq now.activeq,
    nsq := p 7 d.nsq now.nsq, buf := p 8 d.buf now.buf, stripes := p 9 d.stripes now.stripes, g := p 10 d.g now.g,
    c := p 11 d.c now.c, weight := p 12 d.weight now.weight, burst := p 13 d.burst now.burst,
    peerTag := p 14 d.peerTag now.peerTag, mask := 0, reserved := d.reserved }

/-- Σ G, and queue pairs assigned, over all functions but one. -/
def State.gSumBut (s : State) (f : Nat) : Nat :=
  sumNat ((s.assignedFns.filter (· ≠ f)).map fun g => s.rd (Fd.VFM_FN_GTOK_TOKENS g))
def State.qpSumBut (s : State) (f : Nat) : Nat :=
  sumNat ((s.assignedFns.filter (· ≠ f)).map fun g => s.rd (Fd.VFM_FN_QP_LIMIT g))

/-- Write a function's settings, keys apart. -/
def State.setPool (s : State) (f : Nat) (d : PoolDesc) : State :=
  let s := (s.wr (Fd.VFM_FN_QP_LIMIT f) d.qp).wr (Fd.VFM_FN_INFLIGHT_LIMIT f) d.inflight
  let s := (s.wr (Fd.VFM_FN_STATE_CLASS f) d.cls).wr (Fd.VFM_FN_OPEN_QUOTA f) d.openq
  let s := (s.wr (Fd.VFM_FN_ACTIVE_QUOTA f) d.activeq).wr (Fd.VFM_FN_NS_QUOTA f) d.nsq
  let s := (s.wr (Fd.VFM_FN_BUF_QUOTA f) d.buf).wr (Fd.VFM_FN_STRIPEQ_COUNT f) d.stripes
  let s := (s.wr (Fd.VFM_FN_GTOK_TOKENS f) d.g).wr (Fd.VFM_FN_CTOK_TOKENS f) d.c
  let s := (s.wr (Fd.VFM_FN_TOKCFG_WEIGHT f) d.weight).wr (Fd.VFM_FN_TOKCFG_BURST f) (d.burst - 1)
  s.wr (Fd.VFM_FN_PEERTAG_VALUE f) d.peerTag

/-- The function field of Pool Manage: 1 to 1,023 (R121). -/
def poolFnBad (f : Nat) : Bool := f = 0 || decide (fnCount ≤ f)

/-- A Pool Manage naming a VF whose reset is in progress waits for it (R322). -/
def poolCmd (s : State) (src : Src) (f : Nat) (k : State → State) : Result :=
  if (s.fn f).resetting && src.fn = 0 then onFn src.fn (.next (s.holdEntry src)) else host s src .vendor k

/-- TOTAL, no lower than Σ G (R321, R339). -/
def State.tokTotal (s : State) : Nat := max (s.rd Fd.VFM_POOL_WTOK_TOTAL) (s.gSumBut fnCount)

/-- POOL_MANAGE_ASSIGN (R321): an unassigned VF gets its range and limits; its balance starts at 0. -/
def execPoolManageAssign (src : Src) (fn len : Nat) (d : PoolDesc) (s : State) : Result :=
  poolCmd s src fn fun s =>
    if poolFnBad fn || len ≠ 64 then s.err src .invalidField
    else if s.assigned fn then s.err src .commandSequence
    else if poolBad d || d.mask ≠ 0 then s.err src .invalidField
    else if poolQueuePairs < s.qpSumBut fn + d.qp || s.tokTotal < s.gSumBut fn + d.g then s.err src .quotaExceeded
    else match s.pickBase d.keys with
      | none => s.err src .quotaExceeded
      | some b =>
        let s := (s.wr (Fd.VFM_FN_STATE_ASSIGNED fn) 1).setPool fn d
        let s := (s.wr (Fd.VFM_FN_KEYS_BASE fn) b).wr (Fd.VFM_FN_KEYS_SLOTS fn) d.keys
        s.done src .success b 0 .none

/-- Room for a larger key range: the slots after its end are free, or it holds no key and another run fits it. -/
def State.growBase (s : State) (f new : Nat) : Option Nat :=
  let b := s.rd (Fd.VFM_FN_KEYS_BASE f)
  let old := s.rd (Fd.VFM_FN_KEYS_SLOTS f)
  let others := s.keyRanges.filter (·.2.2 ≠ f)
  if b + new ≤ keySlotsForFns && !others.any (fun r => decide (r.1 < b + new) && decide (b < r.1 + r.2.1)) then some b
  else if (List.range old).any (fun i => (s.slot (b + i)).kind ≠ 0) then none
  else ((freeRuns 0 others).find? fun r => decide (new ≤ r.2)).map (·.1)

/-- Zones over a lowered open quota, least recently placed first (R333). -/
def State.overOpen (s : State) (f quota : Nat) : List (Nat × Zone) :=
  let zs := s.zones.filter fun e => e.2.state.isOpen && s.nss.any fun m => m.nsid = e.1 / 2 ^ 20 && m.charge = f
  (sortBy (fun (a b : Nat × Zone) => decide (a.2.lastPlace < b.2.lastPlace)) zs).take (zs.length - quota)

/-- Finish them by the controller; one without data is closed and returns to Empty (R333). -/
def State.finishOver (s : State) (f quota : Nat) : State :=
  (s.overOpen f quota).foldl (fun s e =>
    match s.ns (e.1 / 2 ^ 20) with
    | none => s
    | some n =>
      if e.2.wp = 0 then s.setZone n.nsid (e.1 % 2 ^ 20) { e.2 with state := .empty, counts := e.2.stripe.isSome }
      else s.fillZone n (e.1 % 2 ^ 20) true true) s

/-- The limits a change lowered, as over-quota flag numbers (R332). -/
def loweredFlags (d now : PoolDesc) : List Nat :=
  let p (i : Nat) (a b : Nat) : List Nat := if a ≠ 0 && (b = 0 || decide (a < b)) then [i] else []
  p 0 d.qp now.qp ++ p 1 d.keys now.keys ++ p 2 d.openq now.openq ++ p 3 d.activeq now.activeq ++ p 4 d.nsq now.nsq ++
  p 5 d.buf now.buf ++ p 6 d.stripes now.stripes ++ p 7 d.inflight now.inflight

/-- POOL_MANAGE_CHANGE (R321, R332, R333). -/
def execPoolManageChange (src : Src) (fn len : Nat) (d : PoolDesc) (s : State) : Result :=
  poolCmd s src fn fun s =>
    if poolFnBad fn || len ≠ 64 then s.err src .invalidField
    else if !s.assigned fn then s.err src .commandSequence
    else
      let now := s.poolNow fn
      let v := poolOver d now
      if poolBad v || 32767 < d.mask then s.err src .invalidField
      else if (now.qp < v.qp && poolQueuePairs < s.qpSumBut fn + v.qp) ||
          (now.g < v.g && s.tokTotal < s.gSumBut fn + v.g) then s.err src .quotaExceeded
      else match (if now.keys < v.keys then s.growBase fn v.keys else some (s.rd (Fd.VFM_FN_KEYS_BASE fn))) with
        | none => s.err src .quotaExceeded
        | some b =>
          let s := s.modFn fn fun f => { f with weightKept := some (f.weightKept.getD now.weight) }
          let s := (s.setPool fn v).wr (Fd.VFM_FN_KEYS_BASE fn) b
          let s := (s.resizeKeys fn v.keys).cutFlags fn (loweredFlags v now)
          let s := if v.flags.testBit 0 && v.openq ≠ 0 && (now.openq = 0 || v.openq < now.openq) then s.finishOver fn v.openq else s
          (s.settleFlags fn).done src .success b 0 .none

/-- A namespace holds data: a zone not Empty, or a conventional one written since its format (R49). -/
def State.holdsData (s : State) (n : Ns) : Bool :=
  if n.zoned then !(s.zonesIn n (· ≠ .empty)).isEmpty else !n.formattedFor

/-- PF0's flags where a charge takes it past its namespace or stripe quota (R317). -/
def State.chargePf0 (s : State) : State :=
  let q := s.rd (Fd.VFM_FN_NS_QUOTA 0)
  let t := s.rd (Fd.VFM_FN_STRIPEQ_COUNT 0)
  s.cutFlags 0 ((if q ≠ 0 && decide (q < (s.nssOf 0).length) then [4] else []) ++ (if t ≠ 0 && decide (t < s.stripesOf 0) then [6] else []))

/-- A VF becomes unassigned: its key slots are zeroed, its namespaces detached and charged to PF0, its registers and tokens cleared
(R317). -/
def State.unassign (s : State) (fn : Nat) : State :=
  let b := s.rd (Fd.VFM_FN_KEYS_BASE fn)
  let s := (List.range (s.rd (Fd.VFM_FN_KEYS_SLOTS fn))).foldl (fun s i => s.zeroSlot (b + i)) s
  let s := { s with nss := s.nss.map fun (n : Ns) => if n.attached = some fn then { n with attached := none, slot := none, slotReady := false } else n }
  let s := (List.range 15).foldl (fun s i => s.setWord (Reg.VFM_FN_STATE fn + 4 * i) 0) s
  let s := s.modFn fn fun f =>
    { f with bal := 0, extra := 0, refill := 0, charged := 0, chargedLast := 0, waited := 0, weightKept := none, grant := 0, keyShrink := none }
  s.chargePf0

/-- POOL_MANAGE_RELEASE (R321): the VF becomes unassigned; its range returns to the pool. -/
def execPoolManageRelease (src : Src) (fn len : Nat) (s : State) : Result :=
  poolCmd s src fn fun s =>
    if poolFnBad fn || len ≠ 0 then s.err src .invalidField
    else if !s.assigned fn then s.err src .commandSequence
    else if (s.nssOf fn).any s.holdsData || (s.fn fn).en then s.err src .commandSequence
    else
      (s.unassign fn).ok src

/-! ## Refill (R328) -/

/-- Frame length in ms (R12). -/
def State.frameMs (s : State) : Nat := 8 * 2 ^ s.rd Fd.CHO_FRAME_FRAME

/-- A function was charged in the frame that ended, or has a write waiting for tokens. -/
def State.wanting (s : State) (f : Nat) : Bool := (s.fn f).charged ≠ 0 || s.waitsTokens f

/-- Extra tokens of one class out of a spare amount; answers what is left. -/
def State.giveExtra (s : State) (cls spare : Nat) : Nat × State :=
  let fr := s.frameMs
  let fs := s.assignedFns.filter fun f => s.rd (Fd.VFM_FN_STATE_CLASS f) = cls && s.wanting f
  let w := sumNat (fs.map fun f => s.rd (Fd.VFM_FN_TOKCFG_WEIGHT f))
  let amount (f : Nat) : Nat :=
    let c := s.rd (Fd.VFM_FN_CTOK_TOKENS f)
    min ((if cls = 1 then c - s.rd (Fd.VFM_FN_GTOK_TOKENS f) else c) * fr / 16) (spare * s.rd (Fd.VFM_FN_TOKCFG_WEIGHT f) / w)
  (spare - sumNat (fs.map amount), fs.foldl (fun s f => s.modFn f fun g => { g with extra := amount f }) s)

/-- The refill of every frame boundary; the spare given is what log page 0xC3 reports. -/
def State.refillAll (s : State) : State :=
  let fr := s.frameMs
  let spare := (s.tokTotal - s.gSumBut fnCount) * fr / 16
  let r1 := s.giveExtra 1 spare
  let r2 := r1.2.giveExtra 2 r1.1
  s.assignedFns.foldl (fun t f =>
    let e := (t.fn f).extra
    let r := t.rd (Fd.VFM_FN_GTOK_TOKENS f) * fr / 16 + e
    let cap := t.rd (Fd.VFM_FN_CTOK_TOKENS f) * fr / 16 * (t.rd (Fd.VFM_FN_TOKCFG_BURST f) + 1)
    t.modFn f fun g => { g with
      bal := min (g.bal + (r : Int)) (cap : Int)
      refill := r
      extra := 0
      weightKept := none
      waited := if s.waitsTokens f then min (g.waited + 1) 0xFFFFFFFF else g.waited
      chargedLast := g.charged
      charged := 0 }) { r2.2 with xlt := { r2.2.xlt with spareGiven := spare - r2.1 } }

/-! ## Pool Usage (R337, R338) -/

/-- A function's 64 B entry. -/
def State.poolEntry (s : State) (f : Nat) : Bytes :=
  let g := s.fn f
  if !s.assigned f then leBytes 2 f ++ zeros 62
  else
    let b := s.rd (Fd.VFM_FN_KEYS_BASE f)
    let n := s.rd (Fd.VFM_FN_KEYS_SLOTS f)
    leBytes 2 f ++ [if g.resetting then 2 else 1] ++ leBytes 1 (s.rd (Fd.VFM_FN_STATE_CLASS f)) ++ leBytes 2 (s.overNow f)
      ++ leBytes 2 g.created ++ leBytes 2 (s.rd (Fd.VFM_FN_QP_LIMIT f))
      ++ leBytes 2 (s.inflight f) ++ leBytes 2 (s.rd (Fd.VFM_FN_INFLIGHT_LIMIT f))
      ++ leBytes 2 (((List.range n).filter fun i => (s.slot (b + i)).kind ≠ 0).length) ++ leBytes 2 n ++ leBytes 2 b
      ++ leBytes 2 (s.openOf f) ++ leBytes 2 (s.rd (Fd.VFM_FN_OPEN_QUOTA f))
      ++ leBytes 2 (s.activeOf f) ++ leBytes 2 (s.rd (Fd.VFM_FN_ACTIVE_QUOTA f))
      ++ leBytes 1 (s.nssOf f).length ++ leBytes 1 (s.rd (Fd.VFM_FN_NS_QUOTA f))
      ++ leBytes 2 (s.bufOf f) ++ leBytes 2 (s.rd (Fd.VFM_FN_BUF_QUOTA f)) ++ zeros 2
      ++ leBytes 4 (s.stripesOf f) ++ leBytes 4 (s.rd (Fd.VFM_FN_STRIPEQ_COUNT f))
      ++ leBytes 4 (g.bal % (2 ^ 32 : Nat)).toNat ++ leBytes 4 g.refill ++ leBytes 4 g.chargedLast ++ leBytes 4 g.waited ++ zeros 4

/-- The 64 B header. -/
def State.poolHeader (s : State) : Bytes :=
  let fs := s.assignedFns
  let fr := s.frameMs
  leBytes 4 fs.length ++ leBytes 2 (poolQueuePairs - s.qpSumBut fnCount)
    ++ leBytes 2 (sumNat (s.runs.map (·.2))) ++ leBytes 2 (maxNat (s.runs.map (·.2))) ++ zeros 2
    ++ leBytes 4 (s.tokTotal * fr / 16) ++ leBytes 4 (s.gSumBut fnCount * fr / 16) ++ leBytes 4 s.xlt.spareGiven
    ++ leBytes 4 (s.rd Fd.XLT_BUF_SIZE * 256) ++ leBytes 4 (ceilDiv s.bufBytes (2 ^ 20))
    ++ leBytes 4 (sumNat (fs.map fun f => s.rd (Fd.VFM_FN_BUF_QUOTA f)))
    ++ leBytes 4 (sumNat (fs.map fun f => s.rd (Fd.VFM_FN_STRIPEQ_COUNT f))) ++ leBytes 8 s.counter ++ zeros 16

/-- GET_LOG_PAGE_POOL_USAGE: all functions to PF0; to a VF the header with bytes 0 to 39 as 0, and its entry. -/
def execGetLogPagePoolUsage (src : Src) (rae : Bool) (s : State) : Result :=
  host s src .logPage fun s =>
    let b := if src.fn = 0 then s.poolHeader ++ (List.range fnCount).flatMap s.poolEntry
      else zeros 40 ++ s.poolHeader.drop 40 ++ s.poolEntry src.fn
    (s.logRead src.fn 0xC3 rae).done src .success 0 0 (.bytes b)

end Sys2Proof.Machine
end

