-- ==== Sys2Proof/Machine/ChorusTime.lean ====
section
/-! DEFINITION. Chorus time: calls, turns, the guard, die tokens, the turn-map rule, lock-state changes, staged
settings and the switch of a re-lock; and the typical times of die operations (R208, R238-R261, R271). -/

namespace Sys2Proof.Machine

open Sys2Proof

/-! ## Calls and turns (R249, R255) -/

/-- Length of a call: 1/256 of the frame. -/
def callLen (frame : Nat) : Nat := 31250 * 2 ^ frame
def State.callNs (s : State) : Nat := callLen (s.rd Fd.CHO_FRAME_FRAME)
def State.periodNs (s : State) : Nat := 256 * s.callNs

def State.setCounter (s : State) (v : Nat) : State :=
  (s.setWord Reg.CHO_COUNTER (v % 2 ^ 32)).setWord (Reg.CHO_COUNTER + 4) (v >>> 32 % 2 ^ 32)

/-- The effective call of a counter value. -/
def ecallOf (counter phase : Nat) : Nat := (counter % 256 + 256 - phase) % 256
def State.ecall (s : State) : Nat := ecallOf s.counter (s.rd Fd.CHO_PHASE_PHASE)

/-- Choir `c` is in its loud turn at an effective call. -/
def State.inTurnAt (s : State) (c e : Nat) : Bool :=
  decide ((e + 256 - s.rd (Fd.CHO_TURNMAP_START c)) % 256 < s.rd (Fd.CHO_TURNMAP_LEN c))
def State.inTurn (s : State) (c : Nat) : Bool := s.inTurnAt c s.ecall
def State.loudNow (s : State) : Nat := bitsOf ((List.range 4).map s.inTurn)

/-- Local times of the start and end of the running turn of a choir. -/
def State.turnStart (s : State) (c : Nat) : Nat :=
  s.cho.callStart - ((s.ecall + 256 - s.rd (Fd.CHO_TURNMAP_START c)) % 256) * s.callNs
def State.turnEnd (s : State) (c : Nat) : Nat := s.turnStart c + s.rd (Fd.CHO_TURNMAP_LEN c) * s.callNs

/-- The counter value at which a choir's next loud turn starts (R267). For an unused choir, of LEN 0, the spec gives no value: it is the one
its START gives (DESIGN CHOICE, assumption 108). -/
def State.nextTurn (s : State) (c : Nat) : Nat :=
  let d := (s.rd (Fd.CHO_TURNMAP_START c) + 256 - s.ecall) % 256
  s.counter + (if d = 0 then 256 else d)

/-! ## SINCE and the guard (R245, R250, R301) -/

def sLOCKED : Nat := 1
def sHOLDOVER : Nat := 2
def sDRIFTING : Nat := 3
def sRELOCKING : Nat := 4
def sFLUSH : Nat := 5

def State.choState (s : State) : Nat := s.rd Fd.CHO_STATE_STATE

/-- SINCE in ns: 0 while LOCKED; without any aligned beat, the largest value CHO_STATE can show (assumption 21). -/
def State.since (s : State) : Nat :=
  if s.choState = sLOCKED then 0
  else match s.cho.aligned with
    | some t => s.now - t
    | none => 0xFFF * 100000000

/-- The state that follows SINCE: HOLDOVER, DRIFTING or UNLOCKED. -/
def State.stateBySince (s : State) : Nat :=
  match s.cho.aligned with
  | none => 0
  | some t => if s.now - t < 10000000000 then 2 else if s.now - t < 60000000000 then 3 else 0

def State.guardBase (s : State) : Nat := max 1000 (s.rd Fd.CHO_GUARD_BASE)
def State.margin (s : State) : Nat := min 50 (s.rd Fd.CHO_GUARD_MARGIN)

/-- Chroeg time is the source in use (R238): a member that is not the root, with SRC 00, 11 or 10. -/
def State.linkSource (s : State) : Bool :=
  let src := s.rd Fd.CHO_CTL_SRC
  s.flag Fd.DZL_DEVID_MEMBER && (src = 2 || (src ≠ 1 && s.rd Fd.DZL_TIME_ROLE ≠ 2))
/-- CHB_IN is the source in use. -/
def State.pinSource (s : State) : Bool := s.rd Fd.CHO_CTL_SRC ≠ 2 && !s.linkSource

/-- The SINCE the guard uses: the root's own holdover counts too (R301). -/
def State.sinceGuard (s : State) : Nat :=
  if s.linkSource then max s.since (s.dzl.rootSince * 1000000) else s.since

/-- The guard in ns. -/
def State.guardNs (s : State) : Nat := s.guardBase + min 150000 (s.sinceGuard * 25 / 10000000)

/-! ## Typical times of die operations (R208), ns -/

def State.tXfer (s : State) : Nat := if s.plc then 91000 else 73000
def State.tProg (s : State) : Nat := if s.plc then 2300000 else 1600000
def tSlcProg : Nat := 210000
def tSlcXfer : Nat := 18400
def tEraseNative : Nat := 10000000
def tEraseSlc : Nat := 3000000
def State.tRead (s : State) : Nat := if s.plc then 120000 else 85000
def tSlcRead : Nat := 30000
/-- Native read typical of R264. -/
def State.tReadTyp (s : State) : Nat := if s.plc then 140000 else 105000

/-! ## The turn-map rule (R257) -/

/-- The least turn length for a frame. -/
def State.lmin (s : State) (frame : Nat) : Nat :=
  max 16 (ceilDiv ((s.tXfer + s.tProg) * (100 + s.margin) + 200 * s.guardBase) (100 * callLen frame))

/-- Turns given as (START, LEN) share a call. -/
def turnsMeet (a b : Nat × Nat) : Bool :=
  (List.range 256).any fun e => decide ((e + 256 - a.1) % 256 < a.2) && decide ((e + 256 - b.1) % 256 < b.2)

/-- A turn map is valid for a frame and an overlap setting. -/
def State.turnMapOk (s : State) (frame : Nat) (overlap : Bool) (m : List (Nat × Nat)) : Bool :=
  ((List.range 4).all fun c =>
    let l := (nth m c (0, 0)).2
    if s.usedChoirs.contains c then decide (s.lmin frame ≤ l) && decide (l ≤ 128) else l = 0) &&
  (overlap || ((List.range 4).all fun a => (List.range a).all fun b => !turnsMeet (nth m a (0, 0)) (nth m b (0, 0))))

/-! ## Lock state (R246, R248) -/

/-- A state change: its record, and the event of an entry into DRIFTING, UNLOCKED or RELOCKING and of a return to
LOCKED from any of them. -/
def State.setChoState (s : State) (st : Nat) : State :=
  let old := s.choState
  if old = st then s
  else
    let ms := s.since / 1000000
    let s := (s.wr Fd.CHO_STATE_STATE st).record 0x0601 ([old, st] ++ pay 4 ms)
    let loudOld := old = sDRIFTING || old = 0 || old = sRELOCKING
    if st = sDRIFTING || st = 0 || st = sRELOCKING || (st = sLOCKED && loudOld) then s.raise 0 .chorus else s

/-- The frame number is recorded in the system area (R249). -/
def State.noteFrame (s : State) : State :=
  { s with cho := { s.cho with recorded := max s.cho.recorded (s.rd Fd.CHO_COUNTER_FRAME), everRecorded := true } }

/-- Recorded at least every 2^20 frames, however the counter came to its frame (R249). -/
def State.recordFrame (s : State) : State :=
  if s.cho.everRecorded && s.rd Fd.CHO_COUNTER_FRAME < s.cho.recorded + 2 ^ 20 then s else s.noteFrame

/-- Entries reported to a function: its latency aggregate notice (R266). -/
def State.plmChange (s : State) (c : Nat) : State :=
  s.fns.foldl (fun (s : State) (e : Nat × Fn) =>
    if e.2.plmOn.contains (c + 1) then
      let s := s.modFn e.1 fun f => { f with plmPend := if f.plmPend.contains (c + 1) then f.plmPend else f.plmPend ++ [c + 1] }
      s.raiseIf e.1 12 .plmAggregate
    else s) s

/-- Each choir whose window is not the one it was in gets its turn change (R266). -/
def State.plmTurns (s : State) (was : Nat) : State :=
  ((List.range 4).filter fun c => was.testBit c ≠ s.loudNow.testBit c).foldl (fun (s : State) c => s.plmChange c) s

/-! ## CHB_OUT (R240) -/

/-- A pulse of 1 µs begins at a time: with CHBOUT 01 at each qualified beat, with 10 at each local call 0. -/
def State.chbPulse (s : State) (mode at' : Nat) : State :=
  if s.rd Fd.CHO_CTL_CHBOUT = mode then { s with cho := { s.cho with outPulses := s.cho.outPulses + 1, outAt := at' } } else s

/-- The level of CHB_OUT. -/
def State.chbOut (s : State) : Bool :=
  match s.rd Fd.CHO_CTL_CHBOUT with
  | 0 => false
  | 3 => s.usedChoirs.any s.inTurn
  | _ => s.cho.outPulses ≠ 0 && decide (s.cho.outAt ≤ s.now) && decide (s.now < s.cho.outAt + 1000)

/-! ## Staged settings (R271) -/

/-- The value a staged field would have at a switch: its staged value, else the one in use. -/
def State.stagedOr (s : State) (k cur : Nat) : Nat := ((s.cho.staged.find? (·.1 = k)).map (·.2)).getD cur

def State.stage (s : State) (k v : Nat) : State :=
  ({ s with cho := { s.cho with staged := s.cho.staged.filter (fun (e : Nat × Nat) => e.1 ≠ k) ++ [(k, v)] } }).wr Fd.CHO_CTL_PENDING 1

/-- The turn of a choir as one number, LEN in [23:16] and START in [7:0]. -/
def State.turnWord (s : State) (c : Nat) : Nat := s.rd (Fd.CHO_TURNMAP_START c) + 65536 * s.rd (Fd.CHO_TURNMAP_LEN c)

/-- The staged values that would result. -/
def State.resulting (s : State) : Nat × Nat × Nat × Nat × List (Nat × Nat) :=
  (s.stagedOr 0 (s.rd Fd.CHO_FRAME_FRAME), s.stagedOr 1 (s.rd Fd.CHO_PHASE_PHASE),
   s.stagedOr 2 (s.rd Fd.CHO_CTL_OVERLAP_EN), s.stagedOr 3 (s.rd Fd.CHO_CTL_SRC),
   (List.range 4).map fun c => let w := s.stagedOr (4 + c) (s.turnWord c); (w % 256, w / 65536 % 256))

/-- Apply resulting settings. -/
def State.applyStaged (s : State) (r : Nat × Nat × Nat × Nat × List (Nat × Nat)) : State :=
  let s := (s.wr Fd.CHO_FRAME_FRAME r.1).wr Fd.CHO_PHASE_PHASE r.2.1
  let s := (s.wr Fd.CHO_CTL_OVERLAP_EN r.2.2.1).wr Fd.CHO_CTL_SRC r.2.2.2.1
  (List.range 4).foldl (fun s c =>
    (s.wr (Fd.CHO_TURNMAP_START c) (nth r.2.2.2.2 c (0, 0)).1).wr (Fd.CHO_TURNMAP_LEN c) (nth r.2.2.2.2 c (0, 0)).2) s

/-- The switch (R249, R254, R271): staged values that together keep R257 are applied, else none is and record
0x0604 is written; the counter goes to the next frame, call 0 is aligned to the beat. Answers whether staged values
were refused. -/
def State.choSwitch (s : State) (beat : Nat) : Bool × State :=
  let r := s.resulting
  let was := s.loudNow
  let ok := s.cho.staged.isEmpty || s.turnMapOk r.1 (r.2.2.1 = 1) r.2.2.2.2
  let s := if ok then s.applyStaged r
    else s.record 0x0604 ([r.1, r.2.1] ++ (r.2.2.2.2.flatMap fun (t : Nat × Nat) => [t.1, t.2]))
  let n := (s.counter / 256 + 1) * 256
  let s := (s.setCounter n).recordFrame.wr Fd.CHO_CTL_PENDING 0
  let s := (s.wr Fd.CHO_CTL_RELOCK 0).bump Fd.CHO_STATS_RELOCKS 1
  let s := { s with cho := { s.cho with
    staged := []
    callStart := beat
    callSub := 0
    slew := 0
    aligned := some beat
    lastSwitch := n
    switches := s.cho.switches + 1
    relocking := false }, dzl := { s.dzl with switchDue := false } }
  let s := { s with hlt := { s.hlt with relocks := s.hlt.relocks + 1 } }
  (!ok, ((s.chbPulse 2 beat).plmTurns was).setChoState sLOCKED)

/-- Local time adopted at a beat without a switch of settings (R246 during BOOT, R398). -/
def State.adoptTime (s : State) (beat : Nat) : State :=
  let was := s.loudNow
  let s := if s.counter % 256 = 0 then s else (s.setCounter ((s.counter / 256 + 1) * 256)).recordFrame
  let s := { s with cho := { s.cho with callStart := beat, callSub := 0, slew := 0, aligned := some beat, relocking := false } }
  ((s.chbPulse 2 beat).plmTurns was).setChoState sLOCKED

/-! ## Die tokens (R259, R260) -/

/-- Caps of the NVMe power state and of the throttle level; 2,048 is no cap. -/
def nvmeCap : Nat → Nat
  | 0 => 2048 | 1 => 192 | 2 => 64 | _ => 0
def thermCap : Nat → Nat
  | 0 => 2048 | 1 => 256 | 2 => 192 | 3 => 128 | _ => 64

/-- D from the settings; CHO_POWER.EFFECTIVE takes it at a frame boundary. -/
def State.dieTokens (s : State) : Nat :=
  min (max 64 (min 2048 (s.rd Fd.CHO_POWER_TOKENS))) (min (nvmeCap (s.rd Fd.GK_PSTATE_NVME)) (thermCap (s.rd Fd.GK_THERM_LEVEL)))
def State.setTokens (s : State) : State := s.wr Fd.CHO_POWER_EFFECTIVE s.dieTokens
/-- The tokens of a call: EFFECTIVE. On the way to SLEEP and DEEP, where R259's cap is 0 and R403 has the part program its buffer, the cap of the last
operational state serves those programs (DEDUCED, assumption 148). -/
def State.tokens (s : State) : Nat :=
  if s.rd Fd.GK_PSTATE_NVME < 3 then s.rd Fd.CHO_POWER_EFFECTIVE
  else min (max 64 (min 2048 (s.rd Fd.CHO_POWER_TOKENS))) (min (nvmeCap s.pwr.lastOp) (thermCap (s.rd Fd.GK_THERM_LEVEL)))

/-- Shares of a choir in a loud call: reclaim, rebuild, host. -/
def State.rebuildShare (s : State) : Nat := max 1 (min 48 (s.rd Fd.MED_REBUILD_SHARE))
def shares (d h rb : Nat) : Nat × Nat × Nat :=
  let r := d * (64 - h) / 64
  let b := (d - r) * rb / 64
  (r, b, d - r - b)
def State.sharesOf (s : State) (c : Nat) : Nat × Nat × Nat :=
  let h := s.rd (Fd.XLT_RECLAIM_H c)
  shares s.tokens (if h = 0 then 64 else h) s.rebuildShare

/-! ## Die queues -/

/-- An operation holds a die token from launch to end, suspended time within the turn included. -/
def DieOp.holdsToken (o : DieOp) : Bool := (o.kind = .program || o.kind = .erase) && (o.st = 1 || o.st = 2 || o.st = 3)
/-- Kind of work: 0 host, 1 reclaim, 2 rebuild. -/
def DieOp.share (o : DieOp) : Nat :=
  if o.purpose = 3 || o.purpose = 7 || o.purpose = 12 || o.purpose = 14 then 1 else if o.purpose = 6 then 2 else 0
def State.tokensHeld (s : State) : Nat := (s.med.ops.filter DieOp.holdsToken).length
def State.heldBy (s : State) (c k : Nat) : Nat :=
  (s.med.ops.filter fun o => o.holdsToken && o.ce = c && o.share = k).length

def State.modOp (s : State) (id : Nat) (g : DieOp → DieOp) : State :=
  { s with med := { s.med with ops := s.med.ops.map fun o => if o.id = id then g o else o } }
def State.dropOp (s : State) (id : Nat) : State :=
  { s with med := { s.med with ops := s.med.ops.filter fun o => o.id ≠ id } }
def State.op (s : State) (id : Nat) : Option DieOp := s.med.ops.find? (·.id = id)

/-- A running operation stops running: what it has done counts towards its end, and towards its timeout; time suspended counts for
neither (R210, R212). -/
def DieOp.paused (o : DieOp) (now : Nat) : DieOp :=
  { o with left := o.left - (now - o.startedAt), ran := o.ran + (now - o.startedAt), startedAt := now }

/-- Running erases of a choir (all choirs: 4 and above) are suspended: each returns its token and resumes as the
first operation of its die in the choir's next loud turn (R213, R254). -/
def State.suspendErases (s : State) (c : Nat) : State :=
  { s with med := { s.med with ops := s.med.ops.map fun o =>
      if o.kind = .erase && (o.st = 1 || o.st = 2 || o.st = 3) && (4 ≤ c || o.ce = c) then
        { (if o.st = 1 then o.paused s.now else o) with st := 5, suspends := o.suspends + 1 } else o } }

/-- The operation is on a die, or on a member's block. -/
def DieOp.onDie (o : DieOp) (ch ce lun : Nat) : Bool := o.ch = ch && o.ce = ce && o.lun = lun
def DieOp.onBlock (o : DieOp) (m : Member) : Bool := o.ch = m.ch && o.lun = m.lun && o.block = m.block

/-- Queue an operation on its die. -/
def State.queueOp (s : State) (o : DieOp) : State :=
  { s with med := { s.med with ops := s.med.ops ++ [{ o with id := s.med.nextOp }], nextOp := s.med.nextOp + 1 } }

/-- A program of a unit: SLC (spawn, system area) or native. -/
def State.progOp (s : State) (ch ce lun block row purpose unit : Nat) (slc : Bool) : DieOp :=
  { id := 0, kind := .program, ch := ch, ce := ce, lun := lun, block := block, row := row, purpose := purpose, unit := unit, carries := [],
    words := [], eft := 256, st := 0, left := if slc then tSlcXfer + tSlcProg else s.tXfer + s.tProg, startedAt := 0, ran := 0, suspends := 0,
    served := 0, retries := 0, timed := false, slc := slc, checked := !(s.block (blockKey ch ce lun block)).suspect }
def eraseOp (ch ce lun block unit : Nat) (slc : Bool) : DieOp :=
  { id := 0, kind := .erase, ch := ch, ce := ce, lun := lun, block := block, row := 0, purpose := 7, unit := unit, carries := [], words := [],
    eft := 256, st := 0, left := if slc then tEraseSlc else tEraseNative, startedAt := 0, ran := 0, suspends := 0, served := 0, retries := 0,
    timed := false, slc := slc, checked := true }

/-- A program runs, or stands suspended within its turn for a host read: the switch of R254 waits until it has finished. -/
def State.programRuns (s : State) : Bool := s.med.ops.any fun o => o.kind = .program && (o.st = 1 || o.st = 2 || o.st = 3)

end Sys2Proof.Machine
end

