-- ==== Sys2Proof/Machine/Snc.lean ====
section
/-! DEFINITION. The boot flash: layout, paired record areas, flag records, the operation queue, verification, and
the homes of event records in it (R456-R469, R472, R485, R487). -/

namespace Sys2Proof.Machine

open Sys2Proof

/-! ## Bytes of the flash -/

/-- Blank flash reads 0xFF. -/
def blankByte (_ : Nat) : Byte := 0xFF
def State.flashGet (s : State) (a : Nat) : Byte := tblGet blankByte s.snc.flash a
def State.flashPut (s : State) (a : Nat) (b : Byte) : State :=
  { s with snc := { s.snc with flash := tblSet blankByte s.snc.flash a b } }
def State.flashRead (s : State) (a n : Nat) : Bytes := (List.range n).map fun i => s.flashGet (a + i)

/-- Program bytes: each becomes the old value AND the new one. -/
def State.flashAnd (s : State) : Nat → Bytes → State
  | _, [] => s
  | a, b :: r => State.flashAnd (s.flashPut a (s.flashGet a &&& b)) (a + 1) r

/-- Erase a range. -/
def State.flashErase (s : State) (a n : Nat) : State :=
  { s with snc := { s.snc with flash := s.snc.flash.filter fun e => !(decide (a ≤ e.1) && decide (e.1 < a + n)) } }

/-- A range is blank. -/
def State.flashBlank (s : State) (a n : Nat) : Bool :=
  !s.snc.flash.any fun e => decide (a ≤ e.1) && decide (e.1 < a + n)

/-! ## Layout (R457, R458) -/

/-- The density in bytes: 64, 128 or 256 MiB. -/
def State.flashSize (s : State) : Nat := 2 ^ 26 * 2 ^ s.rd Fd.SNC_CFG_SIZE
def State.slotLen (s : State) : Nat := (s.flashSize - 2 ^ 24) / 2
/-- Base of a firmware slot: 0 A, 1 B. -/
def State.slotBase (s : State) (k : Nat) : Nat := 0x1000000 + k * s.slotLen
def peuthBase (bank : Nat) : Nat := 0x100000 + bank * 0x200000
def peuthLen : Nat := 0x200000
def ringBase : Nat := 0x500000
def aFlags : Nat := 0
def aSlots : Nat := 0x2000
def aPeuth : Nat := 0x4000
def aSign : Nat := 0x6000
def aKeys : Nat := 0x8000
def aFences : Nat := 0xA000
def aIdent (g : Nat) : Nat := 0xC000 + 0x1000 * g

/-- The slot the running image came from. -/
def State.runningSlot (s : State) : Nat := s.rd Fd.TOP_BOOT_SLOT

/-! ## Paired record areas (R459, R461) -/

/-- The bytes of a record slot of a sector. -/
def State.recSlot (s : State) (base sz sector i : Nat) : Bytes := s.flashRead (base + 4096 * sector + sz * i) sz

/-- A slot holds a valid record: its mark is 0xA5, and its CRC16, where the record has one at offset `c`, checks. -/
def recValid (c : Nat) (b : Bytes) : Bool :=
  b.head? = some 0xA5 && (c = 0 || leNat ((b.drop c).take 2) = crc16 ((b.take c).drop 1))

/-- A slot whose CRC16, at offset `c`, checks can be read, with its mark or without. -/
def recReadable (c : Nat) (b : Bytes) : Bool := leNat ((b.drop c).take 2) = crc16 ((b.take c).drop 1)

/-- The readable records of an area, in both sectors. -/
def State.readableRecs (s : State) (base sz c : Nat) : List Bytes :=
  (List.range (8192 / sz)).filterMap fun i =>
    if s.flashBlank (base + sz * i) sz then none
    else
      let b := s.flashRead (base + sz * i) sz
      if recReadable c b then some b else none

/-- Index of the last valid slot of a sector. -/
def State.lastValid (s : State) (base sz c sector : Nat) : Option Nat :=
  ((List.range (4096 / sz)).filter fun i => recValid c (s.recSlot base sz sector i)).getLast?

/-- First blank slot of a sector among its first `n`. -/
def State.firstBlank (s : State) (base sz n sector : Nat) : Option Nat :=
  (List.range n).find? fun i => s.flashBlank (base + 4096 * sector + sz * i) sz

/-- The active sector: the one that holds the newest valid record. With records in both, the one that still has
blank slots is the newer. -/
def State.activeSector (s : State) (base sz c : Nat) : Nat :=
  match s.lastValid base sz c 0, s.lastValid base sz c 1 with
  | none, some _ => 1
  | some _, some _ => if (s.firstBlank base sz (4096 / sz) 1).isSome then 1 else 0
  | _, _ => 0

/-- The newest valid record of an area. -/
def State.newestRec (s : State) (base sz c : Nat) : Option Bytes :=
  let a := s.activeSector base sz c
  (s.lastValid base sz c a).map fun i => s.recSlot base sz a i

/-- A flag record (R461): kind 1 intent, 2 clear. -/
def flagRec (kind size target seq : Nat) : Bytes :=
  let b := [byte kind, byte size, 0] ++ leBytes 4 target ++ leBytes 8 seq ++ zeros 14
  [0xA5] ++ b ++ leBytes 2 (crc16 b)

/-- Write a flag record. The last two slots of each sector are kept for the erase of the other sector. -/
def State.flagAppend (s : State) (r : Bytes) : State :=
  let a := s.activeSector aFlags 32 30
  match s.firstBlank aFlags 32 126 a with
  | some i => s.flashAnd (aFlags + 4096 * a + 32 * i) r
  | none =>
    let o := 1 - a
    let s := s.flashAnd (aFlags + 4096 * o) r
    let q := s.snc.flagSeq + 1
    let s := { s with snc := { s.snc with flagSeq := q } }
    let s := s.flashAnd (aFlags + 4096 * o + 32 * 126) (flagRec 1 0 (aFlags + 4096 * a) q)
    let s := s.flashErase (aFlags + 4096 * a) 4096
    s.flashAnd (aFlags + 4096 * o + 32 * 127) (flagRec 2 0 (aFlags + 4096 * a) q)

/-- The intent record of an erase, outside the flag sectors, under the next sequence; `size` 0 sector, 1 block. -/
def State.eraseIntent (s : State) (size a : Nat) : State :=
  if a < 0x2000 then s
  else
    let q := s.snc.flagSeq + 1
    ({ s with snc := { s.snc with flagSeq := q } }).flagAppend (flagRec 1 size a q)
/-- The clear record of an erase: it repeats its intent's sequence. -/
def State.eraseClear (s : State) (size a q : Nat) : State :=
  if a < 0x2000 then s else s.flagAppend (flagRec 2 size a q)

/-- An erase under intent and clear records, done whole. -/
def State.eraseWhole (s : State) (size a : Nat) : State :=
  ((s.eraseIntent size a).flashErase a (if size = 0 then 4096 else 65536)).eraseClear size a (s.snc.flagSeq + 1)

/-- Write a record of a paired area (R459). A full sector gives way to the other, which must be blank. -/
def State.writeRec (s : State) (base sz c : Nat) (r : Bytes) : State :=
  let a := s.activeSector base sz c
  match s.firstBlank base sz (4096 / sz) a with
  | some i => s.flashAnd (base + 4096 * a + sz * i) r
  | none =>
    let o := 1 - a
    if s.flashBlank (base + 4096 * o) 4096 then (s.flashAnd (base + 4096 * o) r).eraseWhole 0 (base + 4096 * a) else s

/-! ## The homes of event records (R484, R485, R487, R488) -/

/-- The 64 bytes of a record (R481). -/
def Rec.bytes (r : Rec) : Bytes :=
  let b := leBytes 6 r.seq ++ leBytes 8 r.counter ++ leBytes 4 r.stamp ++ leBytes 2 r.code ++ [byte (evSeverity r.code)]
    ++ [byte (r.code / 256)] ++ leBytes 2 r.supp ++ (r.payload.map byte ++ zeros 32).take 32
  [0xA5] ++ b ++ leBytes 2 (crc16 b) ++ zeros 5

/-- The home by its causes: 0 ring, 1 NAND event area, 2 AON ring only. -/
def State.logHomeNow (s : State) : Nat :=
  if !s.flag Fd.TOP_ERR_LOGMEM then 0
  else if s.evr.nandOk && s.mode ≠ mReadonly then 1 else 2

/-- A change of home writes its record (R487, R489). -/
def State.settleHome (s : State) : State :=
  let old := s.rd Fd.EVR_STAT_HOME
  let new := s.logHomeNow
  if old = new then s else (s.wr Fd.EVR_STAT_HOME new).record 0x0C01 [old, new]

/-- The ring is found unwritable: TOP_ERR.LOGMEM, and the records go to the next home (R487). -/
def State.ringUnwritable (s : State) : State :=
  if s.flag Fd.TOP_ERR_LOGMEM then s else (s.wr Fd.TOP_ERR_LOGMEM 1).settleHome

/-- A ring operation ended: three in a row with DEVICE or VERIFY, or a failed erase, make the ring unwritable. -/
def State.ringOpEnded (s : State) (result : Nat) (erase : Bool) : State :=
  let bad := result = 3 || result = 5
  let s := { s with evr := { s.evr with ringFails := if bad then s.evr.ringFails + 1 else 0 } }
  if bad && (erase || decide (3 ≤ s.evr.ringFails)) then s.ringUnwritable else s

/-! ## Operations (R464-R469) -/

/-- Class of a target: 1 system area, 2 event ring, 3 firmware and Peuth. -/
def sncClass (a : Nat) : Nat := if a < 0x100000 then 1 else if ringBase ≤ a && a < 0xD00000 then 2 else 3

/-- The queued operation that runs next: lowest class, oldest within it. After PWRFAIL_N no erase starts, and of the programs those of
records run (R468). -/
def State.nextSnc (s : State) : Option SncOp :=
  argMin (fun o => sncClass o.addr) (s.snc.queue.filter fun o => !(s.pwr.pfHold && (o.code = 2 || o.code = 3 || sncClass o.addr = 3)))

/-- SNC_STATUS follows the running operation and the queue. -/
def State.refreshSnc (s : State) : State :=
  let busy := match s.snc.running with | some o => o.code ≠ 4 | none => false
  let s := s.setFlag Fd.SNC_STATUS_BUSY busy
  let s := s.wr Fd.SNC_STATUS_OP ((s.snc.running.map (·.code)).getD 0)
  s.wr Fd.SNC_STATUS_QUEUED (min 255 s.snc.queue.length)

/-- Start the next operation when the device is free; an erase writes its intent record first (R461). From SLEEP
down queued operations stay queued (R468). -/
def State.sncNext (s : State) : State :=
  if s.snc.running.isSome || s.asleep then s.refreshSnc
  else match s.nextSnc with
    | none => s.refreshSnc
    | some o =>
      let s := { s with snc := { s.snc with queue := s.snc.queue.erase o, running := some { o with intent := s.snc.flagSeq + 1 } } }
      (if o.code = 2 then s.eraseIntent 0 o.addr else if o.code = 3 then s.eraseIntent 1 o.addr else s).refreshSnc

/-- A bank's operation ends with a result: DONE, RESULT and the counts of SNC_ERR. Device and verify failures
write their record. -/
def State.sncEnd (s : State) (bank result addr : Nat) : State :=
  let s := (s.wr (Fd.SNC_OP_DONE.inBank bank) 1).wr (Fd.SNC_OP_RESULT.inBank bank) result
  let s := if result = 1 then s.bump Fd.SNC_ERR_SELFBUSY 1 else if result = 2 then s.bump Fd.SNC_ERR_NOTERASED 1
    else if result = 3 then s.bump Fd.SNC_ERR_VERIFY 1 else if result = 5 then s.bump Fd.SNC_ERR_DEVICE 1 else s
  if result = 3 || result = 5 then s.record 0x0B01 (result :: pay 4 addr) else s

/-- Bytes an operation touches. -/
def sncSpan (code len : Nat) : Nat := if code = 2 then 4096 else if code = 3 then 65536 else len

def meets (a n b m : Nat) : Bool := decide (a < b + m) && decide (b < a + n)

/-- An image runs from a slot: the start has passed stage 3, and none stands in recovery (R374, R384). -/
def State.imageRuns (s : State) : Bool := decide (4 ≤ s.rd Fd.TOP_BOOT_STAGE) && !s.flag Fd.TOP_BOOT_RECOVERY

/-- Why an operation is refused: PERM 6, RANGE 4, SELF_BUSY 1 (R463, R465, R466, R472). -/
def State.sncRefusal (s : State) (code a len : Nat) (andow : Bool) : Option Nat :=
  let n := sncSpan code len
  if code = 0 || 4 < code then some 6
  else if (code = 1 || code = 4) && (len = 0 || 256 < len) then some 4
  else if (code = 2 && a % 4096 ≠ 0) || (code = 3 && a % 65536 ≠ 0) || (code = 1 && 256 < a % 256 + len) then some 4
  else if s.flashSize < a + n || meets a n 0x10000 0xF0000 || meets a n 0xD00000 0x300000 then some 4
  else if s.imageRuns && meets a n (s.slotBase s.runningSlot) s.slotLen then some 4
  else if meets a n 0xC000 0x4000 && !(s.rd Fd.SEC_LIFECYCLE_STATE ≤ 1) then some 4
  else if code = 1 && andow && 0xC000 < a + n then some 6
  else if code ≠ 4 && s.rd Fd.SNC_XIP_DETACH_DETACH ≠ 0x1FFFF then some 1
  else none

/-- A write of SNC_OP with GO set: DONE clears, and the operation is refused or queued (R464). -/
def State.sncGo (s : State) (r code : Nat) (andow : Bool) : State :=
  let b := bankOf r
  let s := (s.wr (Fd.SNC_OP_CODE.inBank b) code).wr (Fd.SNC_OP_ANDOW.inBank b) andow.toNat
  let s := s.wr (Fd.SNC_OP_DONE.inBank b) 0
  let a := s.rd (Fd.SNC_ADDR_ADDR.inBank b)
  let len := s.rd (Fd.SNC_LEN_LEN.inBank b)
  match s.sncRefusal code a len andow with
  | some x => s.sncEnd b x a
  | none =>
    let data := ((List.range 64).flatMap fun k => leBytes 4 (s.rd ((Fd.SNC_BUF_DATA k).inBank b))).take len
    let o : SncOp := ⟨b, code, a, len, data, andow, 0⟩
    ({ s with snc := { s.snc with queue := s.snc.queue ++ [o] } }).sncNext

/-- The four commands: a whole-word write of SNC_OP by a core or the gecko with GO and the code. -/
def sncCmd (r code : Nat) (andow : Bool) (s : State) : Result := winWrite r Reg.SNC_OP (putBits (putBits (2 ^ Fd.SNC_OP_GO.lsb) Fd.SNC_OP_CODE.msb Fd.SNC_OP_CODE.lsb code) Fd.SNC_OP_ANDOW.msb Fd.SNC_OP_ANDOW.lsb andow.toNat) s fun s => s.sncGo r code andow

def execSncProgram (requester : Nat) (andow : Bool) (s : State) : Result := sncCmd requester 1 andow s
def execSncSectorErase (requester : Nat) (s : State) : Result := sncCmd requester 2 false s
def execSncBlockErase (requester : Nat) (s : State) : Result := sncCmd requester 3 false s
def execSncBlankCheck (requester : Nat) (s : State) : Result := sncCmd requester 4 false s

/-- What bytes hold after an operation that did not verify: free values. -/
def State.flashFree (s : State) (a n : Nat) : State :=
  let i := s.freeIx
  (List.range n).foldl (fun t k => t.flashPut (a + k) (byte (Config.free (i + k)))) { s with freeIx := i + n }

/-- The running operation ends: `result` 0 as verified, 3 where it does not verify, 5 where the device did not
finish. A program over bytes that are not blank ends with NOT_ERASED and programs nothing (R465). -/
def State.sncFinish (s : State) (o : SncOp) (result : Nat) : State :=
  let n := sncSpan o.code o.len
  let s := { s with snc := { s.snc with running := none } }
  let r : Nat × State :=
    if o.code = 4 then (if result = 5 then (5, s) else if s.flashBlank o.addr n then (0, s) else (2, s))
    else if o.code = 1 && !o.andow && !s.flashBlank o.addr n && result ≠ 5 then (2, s)
    else if result ≠ 0 then (result, s.flashFree o.addr n)
    else if o.code = 1 then (0, s.flashAnd o.addr o.data)
    else
      let size := if o.code = 2 then 0 else 1
      (0, (s.flashErase o.addr n).eraseClear size o.addr o.intent)
  let s := r.2.sncEnd o.bank r.1 o.addr
  let s := if sncClass o.addr = 2 && o.code ≠ 4 then s.ringOpEnded r.1 (o.code ≠ 1) else s
  s.sncNext

/-- SNC_OPERATION_COMPLETE: the operation ends and is verified (R469); `verified` is what the check finds. -/
def execSncOperationComplete (verified : Bool) (s : State) : Result :=
  match s.snc.running with
  | none => .next s
  | some o => .next (s.sncFinish o (if verified then 0 else 3))

/-- SNC_DEVICE_TIMEOUT: no finish within three times the SFDP maximum time (R466). -/
def execSncDeviceTimeout (s : State) : Result :=
  match s.snc.running with
  | none => .next s
  | some o => .next (s.sncFinish o 5)

/-- SNC_XIP_DETACH_WRITE: bits written 1 are set (R462). -/
def execSncXipDetachWrite (requester value : Nat) (s : State) : Result :=
  winWrite requester Reg.SNC_XIP_DETACH value s fun s => s.plainWrite requester Reg.SNC_XIP_DETACH value

/-! ## Reads and fetches (R462, R467) -/

/-- A program or erase runs. -/
def State.sncBusy (s : State) : Bool := match s.snc.running with | some o => o.code ≠ 4 | none => false

/-- The status word. -/
def State.statusWord (s : State) : Nat :=
  match s.snc.running with
  | some o => (0xA0 + o.code) * 2 ^ 24 + o.addr / 65536 * 256 + 0x5B
  | none => 0

/-- BOOT_FLASH_DATA_READ: data, or, while a program or erase runs, the status word in every aligned word. -/
def execBootFlashDataRead (requester addr len : Nat) (s : State) : Result :=
  if !(decide (requester < 16) || requester = reqGecko) then .fault .noSuchInstance
  else
    let b := if s.sncBusy then (List.range len).map fun i => byte (s.statusWord >>> (8 * ((addr + i) % 4)))
      else s.flashRead addr len
    .next (s.reply requester 0 false (.bytes b))

/-- BOOT_FLASH_INSTRUCTION_FETCH: a fetch fault for a requester whose DETACH bit is 1, or while the device is busy. -/
def execBootFlashInstructionFetch (requester addr : Nat) (s : State) : Result :=
  if !(decide (requester < 16) || requester = reqGecko) then .fault .noSuchInstance
  else if (s.rd Fd.SNC_XIP_DETACH_DETACH).testBit (bankOf requester) || s.sncBusy then
    .next (({ s with snc := { s.snc with faults := s.snc.faults + 1 } }).reply requester 0 true .none)
  else .next (s.reply requester (leNat (s.flashRead addr 4)) false .none)

end Sys2Proof.Machine
end

