-- ==== Sys2Proof/Machine/Recorder.lean ====
section
/-! DEFINITION. The event recorder's commands: programming the persistent homes, refilling token buckets, the
cursor registers, log page 0xC4 and Read Event Ring (R484-R493). -/

namespace Sys2Proof.Machine

open Sys2Proof

/-! ## Programming the homes -/

/-- Blocks of the ring, and records in a block (R485). -/
def ringBlocks : Nat := 128
def ringPer : Nat := 1024

/-- Erase a ring block: its records go. -/
def State.ringErase (s : State) (b : Nat) : State :=
  ({ s with evr := { s.evr with ring := s.evr.ring.filter fun e => e.1 / ringPer ≠ b } }).eraseWhole 1 (ringBase + b * 65536)

/-- When the head enters the last erased block, the oldest block is erased. -/
def State.ringMakeRoom (s : State) : State :=
  let b := s.evr.ringPos / ringPer
  if s.evr.ringPos % ringPer = 0 && !s.flashBlank (ringBase + (b + 1) % ringBlocks * 65536) 65536
  then s.ringErase ((b + 1) % ringBlocks) else s

/-- Program up to four staged records that share a page: bytes 1 to 63 first, then each mark in order. A record
leaves the queue once its mark is programmed. -/
def State.ringProgram (s : State) : State :=
  let s := s.ringMakeRoom
  let p := s.evr.ringPos
  let rs := s.evr.staging.take (4 - p % 4)
  let s := s.flashAnd (ringBase + 64 * p) (rs.flatMap fun r => 0xFF :: r.bytes.drop 1)
  let s := ((List.range rs.length).foldl (fun s i => s.flashAnd (ringBase + 64 * (p + i)) [0xA5]) s)
  { s with evr := { s.evr with
      ring := s.evr.ring ++ ((List.range rs.length).map (p + ·)).zip rs
      ringPos := (p + rs.length) % (ringBlocks * ringPer)
      ringFails := 0
      staging := s.evr.staging.drop rs.length } }

/-- A used choir is in its loud turn, so that the NAND event area can be programmed (R487). -/
def State.anyLoud (s : State) : Bool := s.usedChoirs.any s.inTurn

/-- A whole unit of 1,024 staged records goes to the NAND event area, 4 MiB in each used choir: when it is full
its oldest unit gives way (assumption 22). -/
def State.nandProgram (s : State) : State :=
  if s.evr.staging.length < ringPer || !s.anyLoud then s
  else
    let keep := if 65536 * s.usedChoirs.length < s.evr.nand.length + ringPer then s.evr.nand.drop ringPer else s.evr.nand
    { s with evr := { s.evr with
        nand := keep ++ s.evr.staging.take ringPer
        staging := s.evr.staging.drop ringPer } }

/-- EVENT_RING_PROGRAM: staged records go to the persistent home in force. The ring waits while the boot flash is
busy, while a core runs in place, and in SLEEP and DEEP (R463, R464, R485). -/
def execEventRingProgram (s : State) : Result :=
  let s := s.settleHome
  if s.evr.staging.isEmpty || s.asleep then .next s
  else if s.rd Fd.EVR_STAT_HOME = 0 then
    (if s.snc.running.isSome || s.rd Fd.SNC_XIP_DETACH_DETACH ≠ 0x1FFFF then .next s
     else if !s.flag Fd.SNC_CFG_PRESENT then .next s.ringUnwritable else .next s.ringProgram)
  else if s.rd Fd.EVR_STAT_HOME = 1 then .next s.nandProgram
  else .next s

/-! ## Token buckets (R486) -/

/-- Codes the part writes (R482). -/
def evCodes : List Nat :=
  [0x0001, 0x0002, 0x0003, 0x0004, 0x0005, 0x0101, 0x0102, 0x0103, 0x0104, 0x0105, 0x0106, 0x0107, 0x0108, 0x0109,
   0x0201, 0x0301, 0x0302, 0x0303, 0x0401, 0x0402, 0x0403, 0x0404, 0x0405, 0x0406, 0x0407, 0x0501, 0x0502, 0x0601,
   0x0602, 0x0603, 0x0604, 0x0701, 0x0702, 0x0703, 0x0704, 0x0901, 0x0A01, 0x0A02, 0x0B01, 0x0C01, 0x0C02]

/-- TOKEN_BUCKET_REFILL: a code gains a token, up to its capacity; with events suppressed, a summary record with the
latest payload takes it at once and the count returns to 0. -/
def execTokenBucketRefill (code : Nat) (s : State) : Result :=
  if !evCodes.contains code || evSeverity code = 4 then .fault .noSuchInstance
  else
    let b := s.evr.bucket code
    let n := min (b.tokens + 1) (evCapacity (evSeverity code))
    if b.supp = 0 then .next { s with evr := s.evr.setBucket code { b with tokens := n } }
    else .next (({ s with evr := s.evr.setBucket code ⟨n - 1, 0, b.last⟩ }).emit code b.supp b.last)

/-! ## Retained records and the cursor (R490, R493) -/

/-- Every retained record, oldest first, each sequence once. -/
def State.retained (s : State) : List Rec :=
  let all := s.evr.ring.map (·.2) ++ s.evr.nand ++ s.evr.aon.reverse
  (sortBy (fun (a b : Rec) => decide (a.seq < b.seq)) all).foldr
    (fun r acc => match acc with
      | q :: _ => if q.seq = r.seq then acc else r :: acc
      | [] => [r]) []

/-- Start a fetch for a bank: FETCH reads 1 until it is complete. An earlier one of the bank gives way. -/
def State.startFetch (s : State) (bank n : Nat) (aon : Bool) : State :=
  let s := { s with evr := { s.evr with fetching := s.evr.fetching.filter (fun (e : Nat × Nat × Bool) => e.1 ≠ bank) ++ [(bank, n, aon)] } }
  s.wr (Fd.EVR_STAT_FETCH.inBank bank) 1

/-- Set a bank's cursor and fetch; sequence 0 stands for no record, and is never found. -/
def State.cursorTo (s : State) (bank : Nat) (r : Option Rec) : State :=
  match r with
  | some r => ((s.wr (Fd.EVR_CURSOR_AON.inBank bank) 0).wr (Fd.EVR_CURSOR_SEQ.inBank bank) r.seq).startFetch bank r.seq false
  | none => s.startFetch bank 0 false

/-- The action of a write to EVR_CMD: with several bits set the highest acts. -/
def State.cursorCmd (s : State) (bank v : Nat) : State :=
  let cur := s.rd (Fd.EVR_CURSOR_SEQ.inBank bank)
  if v.testBit 2 then s.cursorTo bank s.retained.getLast?
  else if v.testBit 1 then s.cursorTo bank s.retained.head?
  else if v.testBit 0 then s.cursorTo bank (s.retained.find? fun r => decide (cur < r.seq))
  else s

/-- The action of a write to the cursor's high word. -/
def State.cursorHigh (s : State) (r v : Nat) : State :=
  let b := bankOf r
  let s := s.plainWrite r (Reg.EVR_CURSOR + 4) v
  let seq := s.rd (Fd.EVR_CURSOR_SEQ.inBank b)
  if s.flag (Fd.EVR_CURSOR_AON.inBank b) then s.startFetch b (seq % 64) true else s.startFetch b seq false

def execEvrCursorHighWrite (requester value : Nat) (s : State) : Result :=
  winWrite requester (Reg.EVR_CURSOR + 4) value s fun s => s.cursorHigh requester value
def execEvrCmdNewest (requester : Nat) (s : State) : Result :=
  winWrite requester Reg.EVR_CMD 4 s fun s => s.cursorCmd (bankOf requester) 4
def execEvrCmdOldest (requester : Nat) (s : State) : Result :=
  winWrite requester Reg.EVR_CMD 2 s fun s => s.cursorCmd (bankOf requester) 2
def execEvrCmdNext (requester : Nat) (s : State) : Result :=
  winWrite requester Reg.EVR_CMD 1 s fun s => s.cursorCmd (bankOf requester) 1

/-- EVR_FETCH_COMPLETE: the window shows the record, or zeros with FOUND 0. A record of the ring waits for a running
program or erase of the boot flash. -/
def execEvrFetchComplete (requester : Nat) (s : State) : Result :=
  if !requesterOk requester then .fault .noSuchInstance
  else
    let b := bankOf requester
    match s.evr.fetching.find? fun e => e.1 = b with
    | none => .next s
    | some (_, n, aon) =>
      let r := if aon then s.evr.aon[n]? else s.retained.find? fun r => r.seq = n
      if !aon && s.sncBusy && s.evr.ring.any (fun e => e.2.seq = n) then .next s
      else
        let bytes := (r.map Rec.bytes).getD (zeros 64)
        let s := (List.range 16).foldl (fun s k =>
          s.wr ((Fd.EVR_WINDOW_DATA k).inBank b) (leNat ((bytes.drop (4 * k)).take 4))) s
        let s := (s.wr (Fd.EVR_STAT_FETCH.inBank b) 0).wr (Fd.EVR_STAT_FOUND.inBank b) r.isSome.toNat
        .next { s with evr := { s.evr with fetching := s.evr.fetching.filter fun e => e.1 ≠ b } }

/-! ## Log page 0xC4 (R491) and Read Event Ring (R492) -/

/-- The header of log page 0xC4. -/
def State.evHeader (s : State) : Bytes :=
  let rs := s.retained
  leBytes 6 ((rs.head?.map (·.seq)).getD 0) ++ leBytes 6 ((rs.getLast?.map (·.seq)).getD 0) ++ leBytes 4 rs.length
    ++ [byte s.logHomeNow] ++ zeros 3 ++ leBytes 4 s.evr.lost ++ zeros 40

/-- GET_LOG_PAGE_EVENT_RECORDS: PF0 only. A read at offset 0, or one by a function without a list, fixes the list; a
record erased since then reads as zeros. -/
def execGetLogPageEventRecords (src : Src) (rae : Bool) (offset length : Nat) (s : State) : Result :=
  host s src .logPage fun s =>
    if src.fn ≠ 0 then s.err src .invalidLogPage
    else if offset % 64 ≠ 0 then s.err src .invalidField
    else
      let s := if offset = 0 || (s.fn 0).fixedEvents.isNone
        then s.modFn 0 fun f => { f with fixedEvents := some (s.retained.map (·.seq)) } else s
      let l := ((s.fn 0).fixedEvents).getD []
      let rs := s.retained
      let page := s.evHeader ++ l.flatMap fun q => ((rs.find? fun r => r.seq = q).map Rec.bytes).getD (zeros 64)
      (s.logRead 0 0xC4 rae).done src .success 0 0 (.bytes ((page.drop offset).take length))

/-- The sideband's management endpoint. -/
def reqSideband : Nat := 0x30

/-- READ_EVENT_RING: the AON ring, newest first, in every power state from RUN to DEEP. -/
def execReadEventRing (nmd0 : Nat) (s : State) : Result :=
  if !s.pwr.on || s.rd Fd.GK_PSTATE_CUR = 4 then .next s
  else
    let n := nmd0 % 128
    if n = 0 || 64 < n then .next (s.reply reqSideband 0 true .none)
    else .next (s.reply reqSideband 0 false (.bytes ((s.evr.aon.take n).flatMap Rec.bytes)))

end Sys2Proof.Machine
end

