-- ==== Sys2Proof/Machine/Health.lean ====
section
/-! DEFINITION. Health: spare and life, the SMART and Lyskin Health log pages, the gecko's copies and the sideband's
answers, and the counting of minutes (R406, R473-R479). -/

namespace Sys2Proof.Machine

open Sys2Proof

/-! ## Spare and life (R474-R476) -/

/-- Available Spare: the least of the used choirs' parts of their references, at most 100. -/
def State.spareNow (s : State) : Nat :=
  min 100 (minNat (s.usedChoirs.map fun c =>
    if nth s.xlt.sparesRef c 0 = 0 then Config.spareNoRef else 100 * nth s.xlt.spares c 0 / nth s.xlt.sparesRef c 0) 100)

/-- Blocks in native use, and spawn blocks. -/
def State.nativeUse (s : State) : List Block := s.usedChoirs.flatMap s.nativeBlocks
def State.spawnUse (s : State) : List Block := (s.xlt.blocks.filter fun e => e.2.state = 4).map (·.2)

def meanNat (l : List Nat) : Nat := sumNat l / l.length

/-- The two terms of Percentage Used. RATED reads 0 only before stage 5. -/
def State.nativeTerm (s : State) : Nat :=
  if s.rd Fd.XLT_WL_CFG_RATED = 0 then 0
  else
    let l := s.nativeUse.map (·.native)
    100 * sumNat l / (l.length * s.rd Fd.XLT_WL_CFG_RATED)
def State.slcTerm (s : State) : Nat :=
  let l := s.spawnUse.map (·.slc)
  100 * sumNat l / (l.length * 30000)
def State.usedNow (s : State) : Nat :=
  let u := min 255 (max s.nativeTerm s.slcTerm)
  if s.mode = mReadonly && s.rd Fd.TOP_MODE_ROCAUSE = 2 then max 100 u else u

/-- The source in use: 0 live, 1 held, 2 none (R476). -/
def State.lifeSrc (s : State) : Nat :=
  if s.xlt.restored then 0
  else if s.boot.aonKept && s.hlt.held.isSome && (s.boot.limited || decide (s.rd Fd.TOP_BOOT_STAGE ≤ 5)) then 1 else 2

/-- Bring HLT_LIFE and the Critical Warning byte up to date; the gecko's copies follow at once (R479). -/
def State.refreshHealth (s : State) : State :=
  let src := s.lifeSrc
  let v := if src = 0 then (s.spareNow, s.usedNow) else if src = 1 then s.hlt.held.getD (0, 0) else (0, 0)
  let s := ((s.wr Fd.HLT_LIFE_SRC src).wr Fd.HLT_LIFE_SPARE v.1).wr Fd.HLT_LIFE_USED v.2
  let s := if src = 0 then { s with hlt := { s.hlt with held := some v } } else s
  let s := s.refreshCrit
  { s with hlt := { s.hlt with gecko := [s.rd Fd.HLT_CRIT_CW, v.1, v.2, src] } }

/-! ## Counting -/

/-- Bin of the temperature histogram (R478). -/
def histBin (c : Int) : Nat := if c < 35 then 0 else min 15 ((c - 30) / 5).toNat

/-- HEALTH_MINUTE_TICK: a minute in any state but OFF counts; minutes busy, minutes warm, the histogram in RUN and
IDLE, the hourly maxima (R473, R478). -/
def execHealthMinuteTick (s : State) : Result :=
  if !s.pwr.on || s.rd Fd.GK_PSTATE_CUR = 4 then .next s
  else
    let c := s.composite
    let io (n : Nat) : Bool := s.cmds.any fun c => c.fn = n && c.kind ≠ .peer
    let busy (n : Nat) (f : Fn) : Bool := f.ioSeen || io n
    let any := s.fns.any fun e => busy e.1 e.2
    let s' := s.fns.foldl (fun (t : State) e => t.modFn e.1 fun f =>
      { f with busyMinutes := f.busyMinutes + (busy e.1 f).toNat, ioSeen := io e.1 }) s
    let h := s'.hlt
    let m := if h.minutes = 0 then c else max h.hourMax c
    let full := decide (59 ≤ h.minutes)
    .next { s' with hlt := { h with
      onMinutes := h.onMinutes + 1
      busyMinutes := h.busyMinutes + any.toNat
      warnMinutes := h.warnMinutes + (decide (95 ≤ c)).toNat
      critMinutes := h.critMinutes + (decide (102 ≤ c)).toNat
      tmax := max h.tmax c
      tmin := min h.tmin c
      hist := if s'.rd Fd.GK_PSTATE_CUR < 2 then setNth h.hist (histBin c) (nth h.hist (histBin c) 0 + 1) else h.hist
      minutes := if full then 0 else h.minutes + 1
      hourMax := m
      hourly := if full then (m :: h.hourly).take 24 else h.hourly } }

/-- HEALTH_COPY_TO_GECKO: every second, and at once on any change (R479). -/
def execHealthCopyToGecko (s : State) : Result :=
  .next { s with hlt := { s.hlt with gecko :=
    [s.rd Fd.HLT_CRIT_CW, s.rd Fd.HLT_LIFE_SPARE, s.rd Fd.HLT_LIFE_USED, s.rd Fd.HLT_LIFE_SRC] } }

/-! ## The SMART log (R473) -/

/-- Data Units: 1,000 × 512 B, rounded up, from blocks of 4,096 B. -/
def dataUnits (blocks : Nat) : Nat := ceilDiv (8 * blocks) 1000

def sat32 (n : Nat) : Nat := min n 0xFFFFFFFF

/-- Kelvin of a temperature. -/
def kelvin (c : Int) : Nat := (c + 273).toNat

/-- Temperature Sensors 1 to 8: TD0 to TD7, 0 for an unused input (R422). -/
def State.sensors (s : State) : List Nat :=
  (List.range 8).map fun k => if s.tdUsed k then kelvin (s.tempUsed (16 + k)) else 0

/-- The log for a function: a VF's counting rows hold its own commands and time, PF0's the device's. -/
def State.smartFor (s : State) (n : Nat) : SmartLog :=
  let fs := if n = 0 then s.fns.map (·.2) else [s.fn n]
  let sum (g : Fn → Nat) : Nat := sumNat (fs.map g)
  let h := s.hlt
  { critical := s.rd Fd.HLT_CRIT_CW
    composite := kelvin s.composite
    spare := s.rd Fd.HLT_LIFE_SPARE
    threshold := 10
    used := s.rd Fd.HLT_LIFE_USED
    unitsRead := dataUnits (sum (·.unitsRead))
    unitsWritten := dataUnits (sum (·.unitsWritten))
    readCmds := sum (·.readCmds)
    writeCmds := sum (·.writeCmds)
    busyMinutes := if n = 0 then h.busyMinutes else (s.fn n).busyMinutes
    powerCycles := h.powerCycles
    powerOnHours := h.onMinutes / 60
    unsafeShutdowns := h.unsafeStops
    mediaErrors := sum (·.mediaErrors)
    errorEntries := sum (·.errors)
    warnMinutes := h.warnMinutes
    critMinutes := h.critMinutes
    sensors := s.sensors
    thermal := [nth h.tmt 0 0, nth h.tmt 1 0, nth h.tmt 2 0 / 10, nth h.tmt 3 0 / 10] }

def execGetLogPageSmart (src : Src) (rae : Bool) (s : State) : Result :=
  host s src .logPage fun s => (s.logRead src.fn 0x02 rae).done src .success 0 0 (.smart (s.smartFor src.fn))

/-! ## Lyskin Health (R478) -/

def byteI (c : Int) : Byte := byte (c % 256).toNat

/-- The 512 bytes of log page 0xC0. -/
def State.lyskin (s : State) : Bytes :=
  let h := s.hlt
  let u (n : Nat) : Bytes := leBytes 4 (sat32 n)
  let nat := s.nativeUse.map (·.native)
  let slc := s.spawnUse.map (·.slc)
  let three (l : List Nat) : Bytes := leBytes 2 (minNat l (maxNat l)) ++ leBytes 2 (meanNat l) ++ leBytes 2 (maxNat l)
  let live := s.xlt.restored
  [1, 0, byte s.lifeSrc, byte s.mode]
    ++ (List.range 4).flatMap (fun c => u (if s.usedChoirs.contains c then nth s.xlt.spares c 0 else 0))
    ++ (List.range 4).flatMap (fun c => u (nth s.xlt.sparesRef c 0))
    ++ [byte (s.rd Fd.HLT_LIFE_SPARE), byte (s.rd Fd.HLT_LIFE_USED),
        byte (if live then min 255 s.nativeTerm else 0), byte (if live then min 255 s.slcTerm else 0)]
    ++ leBytes 2 (s.rd Fd.XLT_WL_CFG_RATED) ++ three nat ++ three slc ++ zeros 2
    ++ u h.fences ++ u h.diesRetired ++ u h.autotomized ++ u h.retry ++ u h.soft ++ u h.rebuilt ++ u h.readsFailed
    ++ u h.transient ++ u h.statusFail ++ u h.rowsLost ++ u h.dramCe ++ u h.dramUe ++ u s.dram.retired.length
    ++ u h.mismatches ++ u h.overruns ++ u h.relocks ++ u h.flushes ++ u h.flushesCut
    ++ [byte h.holdup] ++ zeros 7
    ++ [byteI s.composite, byteI h.tmax, byteI h.tmin, byte (s.rd Fd.GK_THERM_LEVEL)]
    ++ u h.stops ++ u h.trips ++ h.hist.flatMap u ++ h.hourly.map byteI ++ zeros 4
    ++ leBytes 6 (s.rd Fd.EVR_NEWEST_SEQ) ++ zeros 2 ++ u s.evr.lost ++ u s.evr.suppressed ++ [byte s.logHomeNow]
    ++ zeros 255

def execGetLogPageLyskinHealth (src : Src) (rae : Bool) (s : State) : Result :=
  host s src .logPage fun s => (s.logRead src.fn 0xC0 rae).done src .success 0 0 (.bytes s.lyskin)

/-! ## The sideband (R406, R479) -/

/-- A health poll is answered from the gecko's copies and its own live temperature: Critical Warning, Composite
Temperature, Available Spare, Percentage Drive Life Used, and whether the controller is ready (R479, R503). -/
def healthPoll (ctrl : Bool) (s : State) : Result :=
  if !s.pwr.on || s.rd Fd.GK_PSTATE_CUR = 4 then .next s
  else
    let g := s.hlt.gecko
    .next (s.reply reqSideband 0 false (.health ctrl [nth g 0 0, kelvin s.composite, nth g 1 0, nth g 2 0, (s.fn 0).rdy.toNat]))

def execSubsystemHealthStatusPoll (s : State) : Result := healthPoll false s
def execControllerHealthStatusPoll (s : State) : Result := healthPoll true s

/-- READ_NVME_MI_DATA_STRUCTURE: the gecko answers without waking the part. What the structure holds the spec does
not say: a free value (assumption 3). -/
def execReadNvmeMiDataStructure (s : State) : Result :=
  if !s.pwr.on || s.rd Fd.GK_PSTATE_CUR = 4 then .next s
  else
    let r := s.free (2 ^ 32)
    .next (r.2.reply reqSideband r.1 false .none)

/-- NVME_MI_OTHER_COMMAND: in SLEEP and DEEP it is wake source 6; otherwise the firmware answers, with a value the
spec does not give. -/
def execNvmeMiOtherCommand (s : State) : Result :=
  if !s.pwr.on || s.rd Fd.GK_PSTATE_CUR = 4 then .next s
  else if s.asleep then .next (s.wakeSource 6)
  else
    let r := s.free (2 ^ 32)
    .next (r.2.reply reqSideband r.1 false .none)

end Sys2Proof.Machine
end

