-- ==== Sys2Proof/Machine/Images.lean ====
section
/-! DEFINITION. OTP and what it holds, firmware and Peuth images, slot and Peuth records, and profiles: how they are
checked, chosen and applied (R340-R349, R379-R389, R460). -/

namespace Sys2Proof.Machine

open Sys2Proof

/-! ## OTP (R343-R346) -/

def otpBlank (_ : Nat) : Byte := 0
def State.otpGet (s : State) (a : Nat) : Byte := tblGet otpBlank s.sec.otp a
def State.otpRead (s : State) (a n : Nat) : Bytes := (List.range n).map fun i => s.otpGet (a + i)

/-- Program OTP bits: bits set to 1 stay 1. -/
def State.otpSet (s : State) : Nat → Bytes → State
  | _, [] => s
  | a, b :: r => State.otpSet { s with sec := { s.sec with otp := tblSet otpBlank s.sec.otp a (s.otpGet a ||| b) } } (a + 1) r

/-- Ones of the bytes. -/
def ones (b : Bytes) : Nat := sumNat (b.map fun x => ((List.range 8).filter x.toNat.testBit).length)

/-- The lifecycle in OTP: the highest flag word with at least 16 of its 32 bits set (R344). -/
def State.otpLifecycle (s : State) : Nat :=
  (((List.range 4).filter fun k => decide (16 ≤ ones (s.otpRead (4 * k) 4))).map (· + 1)).foldl max 0

/-- Revoked vendor key generations: at least 4 of the byte's 8 bits. -/
def State.revoked (s : State) (g : Nat) : Bool := decide (4 ≤ ones (s.otpRead (0x480 + g) 1))

/-- The security version floor: the thermometer bits set (R349). -/
def State.secFloor (s : State) : Nat := ones (s.otpRead 0x4A0 32)

/-- A settings generation that is written, not retired, and whose CRC16 checks (R345). -/
def State.settingsOk (s : State) (g : Nat) : Bool :=
  let b := s.otpRead (0x800 + 256 * g) 256
  let st := (nth b 0 0).toNat
  st.testBit 0 && !st.testBit 1 && leNat (b.drop 254) = crc16 (b.take 254)
def State.settingsGen (s : State) : Option Nat := (List.range 4).find? s.settingsOk
/-- Generations never written. -/
def State.settingsFree (s : State) : Nat := ((List.range 4).filter fun g => !(s.otpGet (0x800 + 256 * g)).toNat.testBit 0).length
/-- Default profile, controls and vendor key floor; the defaults of R379 where none is written. -/
def State.setting (s : State) (i dflt : Nat) : Nat :=
  match s.settingsGen with
  | some g => (s.otpGet (0x800 + 256 * g + i)).toNat
  | none => dflt
def State.defaultProfile (s : State) : Nat := s.setting 1 0xFF
def State.controls (s : State) : Nat := s.setting 2 7
def State.keyFloor (s : State) : Nat := s.setting 3 0

/-- Identity generations: active, retired, the current one (R346). -/
def State.identByte (s : State) (g : Nat) : Nat := (s.otpGet (0xC00 + 256 * g + 0x80)).toNat
def State.identGen (s : State) : Option Nat :=
  (List.range 4).find? fun g => (s.identByte g).testBit 0 && !(s.identByte g).testBit 1

/-- The SEC fields shown with Reset "OTP" follow the OTP (R373, R379). -/
def State.refreshOtp (s : State) : State :=
  let s := (s.wr Fd.SEC_OTP_STAT_SETGEN (s.settingsGen.getD 0)).wr Fd.SEC_OTP_STAT_SETFREE s.settingsFree
  let s := s.setFlag Fd.SEC_OTP_STAT_VQPS s.pins.vqps
  let s := (s.wr Fd.SEC_FWKEY_FLOOR s.secFloor).wr Fd.SEC_FWKEY_REVOKED (bitsOf ((List.range 4).map s.revoked))
  let s := s.wr Fd.SEC_FWKEY_PRESENT (bitsOf ((List.range 4).map fun g => (s.otpRead (0x400 + 32 * g) 32).any (· ≠ 0)))
  let s := s.wr Fd.SEC_IDENT_RETIRED (bitsOf ((List.range 4).map fun g => (s.identByte g).testBit 1))
  let s := s.wr Fd.SEC_IDENT_ACTIVE (bitsOf ((List.range 4).map fun g => (s.identByte g).testBit 0))
  let s := s.wr Fd.SEC_IDENT_GEN (s.identGen.getD 0)
  let s := s.wr Fd.SEC_LIFECYCLE_PENDING s.otpLifecycle
  s.wr Fd.SEC_LIFECYCLE_MEDIA (s.otpGet 0x10).toNat

/-- Lifecycle codes. -/
def lBLANK : Nat := 0
def lPROVISION : Nat := 1
def lFIELD : Nat := 2
def lRMA : Nat := 3
def lSCRAPPED : Nat := 4
def State.lifecycle (s : State) : Nat := s.rd Fd.SEC_LIFECYCLE_STATE

/-! ## Image headers (R347, R348) -/

def imgHeader : Nat := 256
def imgSignature : Nat := 2820
def imgMagic : Bytes := [0x4C, 0x59, 0x46, 0x57]
def field (b : Bytes) (off n : Nat) : Nat := leNat ((b.drop off).take n)
def allZero (b : Bytes) : Bool := b.all (· = 0)

/-- Magic, header version, type and reserved fields. -/
def headerOk (h : Bytes) : Bool :=
  h.take 4 = imgMagic && field h 4 2 = 1 && (field h 6 1 = 1 || field h 6 1 = 2) && field h 11 1 < 2 &&
  allZero ((h.drop 13).take 3) && allZero ((h.drop 28).take 36) && allZero ((h.drop 132).take 124)

/-- Media class of R4: the part's, or any for a Peuth image. -/
def State.mediaOk (s : State) (h : Bytes) : Bool :=
  field h 7 1 = (s.otpGet 0x10).toNat || (field h 7 1 = 0 && field h 6 1 = 2)

/-- The signature over a header and the payload behind it verifies under the key the header carries (R347). -/
def State.imageSigned (s : State) (h : Bytes) (base : Nat) : Bool :=
  let n := field h 24 4
  xmssVerify ((h.drop 64).take 68) (h ++ s.flashRead (base + imgHeader) n) (s.flashRead (base + imgHeader + n) imgSignature)

/-- The checks of R348 in order, over a header and the payload and signature that lie behind it in a region. Every
failure has the status Invalid Firmware Image, so the order shows nowhere. -/
def State.imageOk (s : State) (h : Bytes) (base len type : Nat) : Bool :=
  let n := field h 24 4
  let g := field h 10 1
  let digest := s.otpRead (0x400 + 32 * g) 32
  headerOk h && field h 6 1 = type && imgHeader + n + imgSignature ≤ len && s.mediaOk h && (field h 8 2).testBit 3 &&
  g < 4 && !s.revoked g && s.keyFloor ≤ g &&
  digest.any (· ≠ 0) && shake256 32 ((h.drop 64).take 68) = digest &&
  s.imageSigned h base && s.secFloor ≤ field h 12 1

/-- The image stored in a region, header included. -/
def State.storedOk (s : State) (base len type : Nat) : Bool := s.imageOk (s.flashRead base imgHeader) base len type
def State.slotOk (s : State) (k : Nat) : Bool := s.storedOk (s.slotBase k) s.slotLen 1
def State.peuthOk (s : State) (bank : Nat) : Bool := s.storedOk (peuthBase bank) peuthLen 2

/-! ## Slot records (R380, R382) -/

/-- A slot record's fields. -/
structure SlotRec where
  seq : Nat
  next : Nat
  a : Nat
  b : Nat
  tries : Nat
  deriving DecidableEq, Repr

def SlotRec.state (r : SlotRec) (k : Nat) : Nat := if k = 0 then r.a else r.b
def SlotRec.setState (r : SlotRec) (k v : Nat) : SlotRec := if k = 0 then { r with a := v } else { r with b := v }

def sEMPTY : Nat := 0
def sCONFIRMED : Nat := 1
def sTRIAL : Nat := 2
def sFAILED : Nat := 3

/-- The newest valid slot record; a part without one has two empty slots. -/
def State.slotRec (s : State) : SlotRec :=
  match s.newestRec aSlots 32 30 with
  | some b => ⟨field b 1 4, field b 5 1 % 2, field b 6 1, field b 7 1, field b 8 1⟩
  | none => ⟨0, 0, 0, 0, 0⟩

/-- Write a slot record: its sequence is one above the highest readable in the area (R380). -/
def State.writeSlot (s : State) (r : SlotRec) : State :=
  let q := maxNat ((s.readableRecs aSlots 32 30).map fun b => field b 1 4) + 1
  let b := leBytes 4 q ++ [byte r.next, byte r.a, byte r.b, byte r.tries] ++ zeros 21
  s.writeRec aSlots 32 30 ([0xA5] ++ b ++ leBytes 2 (crc16 b))

/-- Stage 2 (R382): a trial slot takes a try, or has had its tries and is failed; the record is written before any image
runs. -/
def State.takeTry (s : State) : State :=
  let r := s.slotRec
  let k := r.next
  if r.state k ≠ sTRIAL then s
  else if 2 ≤ r.tries then s.writeSlot { r.setState k sFAILED with next := 1 - k }
  else s.writeSlot { r with tries := r.tries + 1 }

/-- Stage 3 (R382): the slot that runs, if any: the one the record names, or else the other, if confirmed. -/
def State.pickSlot (s : State) : Option Nat × State :=
  let r := s.slotRec
  let k := r.next
  if (r.state k = sCONFIRMED || r.state k = sTRIAL) && s.slotOk k then (some k, s)
  else
    let r := if r.state k = sTRIAL then r.setState k sFAILED else r
    let t := 1 - k
    if r.state t = sCONFIRMED && s.slotOk t then (some t, s.writeSlot { r with next := t }) else (none, s)

/-! ## Activation (R349, R381) -/

/-- The 32 bytes of a thermometer of `v` bits. -/
def thermometer (v : Nat) : Bytes := leBytes 32 (2 ^ v - 1)

/-- Program one OTP step: 0 raise the floor to a value, 1 revoke every generation below a value, 2 activate identity
generation `v` + 1 and retire `v`. -/
def State.otpProgram (s : State) (kind v : Nat) : State :=
  match kind with
  | 0 => (s.otpSet 0x4A0 (thermometer v)).refreshOtp
  | 1 => ((List.range v).foldl (fun (s : State) g => s.otpSet (0x480 + g) [0xFF]) s).refreshOtp
  | _ => (((if v < 3 then s.otpSet (0xC00 + 256 * (v + 1) + 0x80) [1] else s).otpSet (0xC00 + 256 * v + 0x80) [2])).refreshOtp

/-- An OTP step, now where VQPS_OTP is present, else at the first start at which it is (R349). -/
def State.otpStep (s : State) (kind v : Nat) : State :=
  if s.pins.vqps then s.otpProgram kind v
  else if s.sec.otpPend.contains (kind, v) then s
  else ({ s with sec := { s.sec with otpPend := s.sec.otpPend ++ [(kind, v)] } }).wr Fd.SEC_OTP_STAT_PEND
    (s.rd Fd.SEC_OTP_STAT_PEND ||| 2 ^ kind)

/-- The steps that wait, at a start with the rail present. -/
def State.otpPending (s : State) : State :=
  if !s.pins.vqps then s.wr Fd.SEC_OTP_STAT_PEND (bitsOf ((List.range 3).map fun k => s.sec.otpPend.any fun (e : Nat × Nat) => e.1 = k))
  else
    let s' := s.sec.otpPend.foldl (fun (s : State) e => s.otpProgram e.1 e.2) s
    ({ s' with sec := { s'.sec with otpPend := [] } }).wr Fd.SEC_OTP_STAT_PEND 0

/-- Slot `k` is confirmed, tries 0, the other slot's state kept: its image has activated, so the floor rises and
lower generations are revoked as its header says (R349, R381, R382). -/
def State.confirmSlot (s : State) (k : Nat) : State :=
  let s := s.writeSlot { s.slotRec.setState k sCONFIRMED with tries := 0 }
  let h := s.flashRead (s.slotBase k) imgHeader
  let s := if s.secFloor < field h 12 1 then s.otpStep 0 (field h 12 1) else s
  if (field h 11 1).testBit 0 && !(List.range (field h 10 1)).all s.revoked then s.otpStep 1 (field h 10 1) else s

/-- The image of slot `k` runs: TOP_BOOT.SLOT, the key generation and the version text follow it (R347, R373). A download that went into the
slot is over: it is the running one now (R381). -/
def State.runImage (s : State) (k : Nat) : State :=
  let h := s.flashRead (s.slotBase k) imgHeader
  let s := { s with boot := { s.boot with download := s.boot.download.filter fun (d : Download) => d.base ≠ s.slotBase k } }
  let s := (s.wr Fd.TOP_BOOT_SLOT k).wr Fd.SEC_FWKEY_GEN (field h 10 1)
  (List.range 2).foldl (fun (s : State) i => s.wr (Fd.TOP_FWVER_ASCII i) (field h (16 + 4 * i) 4)) s

/-! ## Peuth records (R386, R460) -/

/-- The newest Peuth record: sequence, current bank, whether the other bank holds the previous image. -/
def State.peuthRec (s : State) : Option (Nat × Nat × Bool) :=
  (s.newestRec aPeuth 32 30).map fun b => (field b 1 4, field b 5 1 % 2, field b 6 1 = 1)

def State.writePeuth (s : State) (bank : Nat) (prev : Bool) : State :=
  let q := ((s.peuthRec.map (·.1)).getD 0) + 1
  let b := leBytes 4 q ++ [byte bank, byte prev.toNat] ++ zeros 23
  s.writeRec aPeuth 32 30 ([0xA5] ++ b ++ leBytes 2 (crc16 b))

/-- The bank that is not current: where a download goes. -/
def State.peuthSpare (s : State) : Nat := match s.peuthRec with | some r => 1 - r.2.1 | none => 0

/-! ## Profiles (R386-R389) -/

/-- Profile `k` of the image in a bank, if it is valid: present, its CRC32C right, every setting in range. -/
def State.profileIn (s : State) (bank k : Nat) : Option Profile :=
  let p := peuthBase bank + imgHeader
  let plen := field (s.flashRead (peuthBase bank) imgHeader) 24 4
  let dir := s.flashRead p 144
  let e := (dir.drop (16 + 32 * k)).take 32
  let off := field e 0 4
  let len := field e 4 4
  if dir.take 4 = [0x4C, 0x59, 0x50, 0x46] && (nth dir 4 0).toNat.testBit k && off + len ≤ plen then
    let body := s.flashRead (p + off) len
    if crc32c body = field e 24 4 then Config.profileBody body else none
  else none

/-- The image in use: its bank, or none. -/
def State.peuthInUse (s : State) : Option Nat := if s.rd Fd.TOP_PROFILE_PEUTH = 2 then none else some s.boot.peuthBank
def State.profileOf (s : State) (k : Nat) : Option Profile := s.peuthInUse.bind fun b => s.profileIn b k

/-- Registers a profile governs (R388, R428). -/
def profileRegs : List Nat :=
  [Reg.EFT_CTL, Reg.EFT_WDOG, Reg.MED_CFG, Reg.MED_REBUILD, Reg.XLT_FLUSH_CFG, Reg.XLT_LOG_LOW, Reg.XLT_WL_CFG,
   Reg.VFM_POOL_WTOK, Reg.DZL_CFG, Reg.CLK_OP, Reg.GK_RETSEL, Reg.GK_WAKECFG, Reg.GK_THCFG] ++
  (List.range 8).map Reg.GK_TDCFG
def chorusRegs : List Nat :=
  [Reg.CHO_CTL, Reg.CHO_FRAME, Reg.CHO_PHASE, Reg.CHO_POWER, Reg.CHO_GUARD] ++ (List.range 4).map Reg.CHO_TURNMAP

/-- The word a profile gives a register. -/
def profWord (p : Profile) (off : Nat) : Nat :=
  ((p.words.find? (·.1 = off)).map (·.2)).getD (regReset off).toNat

/-- Load the RWL fields of a register, whatever TOP_LOCK says (R388). -/
def State.loadReg (s : State) (p : Profile) (off : Nat) : State :=
  match regFind off regTable with
  | none => s
  | some (d, _) => s.setWord off (codeWrite false (s.word off) (profWord p off) (d.fields.filter (·.access = .rwl)) ||| stuckBits off)

/-- PF0's shares (R315, R388). It is of class 0, so that its *C* is its *G* (R320), and its weight is 1,000 (R331). A share cut below
its use sets its flag (R332). -/
def State.loadPf0 (s : State) (p : Profile) : State :=
  let now := s.poolNow 0
  let v := { now with qp := p.queuePairs, inflight := p.tags, keys := p.keySlots, g := p.tokens,
                      c := p.tokens, weight := 1000,
                      buf := if p.bufQuota = 0 then p.buffer * 256 else p.bufQuota, stripes := p.stripeQuota }
  let s := s.setPool 0 v
  -- a larger range is taken where one fits; PF0 keeps its range where none does
  let s := match (if now.keys < p.keySlots then s.growBase 0 p.keySlots else some (s.rd (Fd.VFM_FN_KEYS_BASE 0))) with
    | some b => (s.wr (Fd.VFM_FN_KEYS_BASE 0) b).resizeKeys 0 p.keySlots
    | none => s
  s.cutFlags 0 (loweredFlags v now)

/-- The buffer size a profile asks for, in units of 256 MiB, capped at a quarter of the installed DRAM; the cap is
recorded (R388). -/
def State.capBuffer (s : State) (want : Nat) : Nat × State :=
  let cap := s.rd Fd.TOP_CONFIG_DRAM
  if s.rd Fd.TOP_CONFIG_DRAM ≠ 0 && cap < want then (cap, s.record 0x0005 (pay 2 want ++ pay 2 cap)) else (want, s)

/-- The turn map a start loads: LEN 0 for unused choirs; replaced by the reset map where a used choir has LEN 0 or
the map breaks the rule (R257). -/
def State.settleTurnMap (s : State) : State :=
  let used := s.usedChoirs
  let s := (List.range 4).foldl (fun (s : State) c => if used.contains c then s else s.wr (Fd.CHO_TURNMAP_LEN c) 0) s
  let m := (List.range 4).map fun c => (s.rd (Fd.CHO_TURNMAP_START c), s.rd (Fd.CHO_TURNMAP_LEN c))
  if used.isEmpty || s.turnMapOk (s.rd Fd.CHO_FRAME_FRAME) (s.flag Fd.CHO_CTL_OVERLAP_EN) m then s
  else (List.range 4).foldl (fun (s : State) c =>
    (s.wr (Fd.CHO_TURNMAP_START c) (64 * c)).wr (Fd.CHO_TURNMAP_LEN c) (if used.contains c then 64 else 0)) s

/-- Stage the chorus settings of a profile that differ from those in use, and load the unstaged ones (R389). -/
def State.stageProfile (s : State) (p : Profile) : State :=
  let put (s : State) (k cur new : Nat) : State := if new = cur then s else s.stage k new
  let ctl := profWord p Reg.CHO_CTL
  let s := put s 0 (s.rd Fd.CHO_FRAME_FRAME) (getBits (profWord p Reg.CHO_FRAME) 1 0)
  let s := put s 1 (s.rd Fd.CHO_PHASE_PHASE) (getBits (profWord p Reg.CHO_PHASE) 7 0)
  let s := put s 2 (s.rd Fd.CHO_CTL_OVERLAP_EN) (getBits ctl 2 2)
  let s := put s 3 (s.rd Fd.CHO_CTL_SRC) (getBits ctl 1 0)
  let s := (List.range 4).foldl (fun (s : State) c =>
    let w := profWord p (Reg.CHO_TURNMAP c)
    let len := if s.usedChoirs.contains c then getBits w 23 16 else 0
    put s (4 + c) (s.turnWord c) (getBits w 7 0 + 65536 * len)) s
  let s := (s.wr Fd.CHO_CTL_UNLOCKED_POL (getBits ctl 9 8)).wr Fd.CHO_CTL_CHBOUT (getBits ctl 5 4)
  (s.loadReg p Reg.CHO_POWER).loadReg p Reg.CHO_GUARD

/-- Apply the Select settings of a profile: registers, PF0's shares, buffer size; at a start also the chorus fields
at once, at a Profile Select through staging. -/
def State.applySelect (s : State) (p : Profile) (start : Bool) : State :=
  let s := profileRegs.foldl (fun (s : State) off => s.loadReg p off) s
  let s := if start then chorusRegs.foldl (fun (s : State) off => s.loadReg p off) s else s.stageProfile p
  let r := s.settleCeil.capBuffer p.buffer
  (r.2.wr Fd.XLT_BUF_SIZE r.1).loadPf0 { p with buffer := r.1 }

/-- Two profiles ask for the same Start settings. -/
def sameStart (a b : Profile) : Bool :=
  a.twoPorts = b.twoPorts && a.totalVfs = b.totalVfs && a.window = b.window && a.lockAtStart = b.lockAtStart &&
  a.lockWait = b.lockWait && a.member = b.member

/-- A selected profile in use: Select settings its own, Start settings the start profile's (R389). -/
def selectOver (old new : Profile) : Profile :=
  { new with twoPorts := old.twoPorts, totalVfs := old.totalVfs, window := old.window, lockAtStart := old.lockAtStart,
             lockWait := old.lockWait, member := old.member }

/-- Profile `k` becomes the profile in use through a Profile Select; `direct`: without QUIESCE, in PROVISION, its
chorus settings at once (R389). -/
def State.selectProfile (s : State) (k : Nat) (direct : Bool) : State :=
  match s.profileOf k with
  | none => s
  | some p =>
    let s := s.applySelect p direct
    let s := if direct then s.settleTurnMap else s
    let s := (s.wr Fd.TOP_PROFILE_ACTIVE k).wr Fd.TOP_PROFILE_SRC 3
    let s := s.setFlag Fd.TOP_PROFILE_MIXED (!sameStart s.boot.profile p)
    { s with boot := { s.boot with profile := selectOver s.boot.profile p } }

end Sys2Proof.Machine
end

