-- ==== Sys2Proof/Machine/IoCommands.lean ====
section
/-! DEFINITION. I/O commands as the front end takes them, and COMMAND_START, which hands a command whose waits
have cleared to an eft (R46, R58, R79-R81, R94-R104, R114-R124, R149). -/

namespace Sys2Proof.Machine

open Sys2Proof

/-- Checks a write or append passes before it is queued: blocks, range, hint, key tag (R52, R145). -/
def State.writeBad (s : State) (n : Ns) (fn : Nat) (w : WriteArgs) : Option Status :=
  if w.nlb = 0 then some .invalidField
  else if n.nsze < w.slba + w.nlb then some .lbaOutOfRange
  else if n.zoned && hintBad w.dtype w.dspec then some .invalidField
  else if s.keyTagBad n fn w.keyTag then some .invalidField
  else none

/-- The status of a command that only a zoned namespace takes: a standard one, or a vendor one (R46, R88). -/
def Kind.wrongNs (k : Kind) : Status := if k = .append then .invalidOpcode else .invalidNsOrFormat

/-- Queue a write-class command. -/
def queueWrite (s : State) (src : Src) (w : WriteArgs) (k : Kind) (zslba : Bool) : Result :=
  hostTagged s src .ioWrite (k = .orderedWrite) fun tag q s =>
    (if k = .orderedWrite || k = .locAppend then withVendorNs else withNs) s src w.nsid fun n =>
      if zslba && !n.zoned then s.err src k.wrongNs
      else match s.writeBad n src.fn w with
      | some st => s.err src st
      | none =>
        if zslba && w.slba % zoneBlocks ≠ 0 then s.err src .invalidField
        else if k = .locAppend && n.clutch < w.nlb then s.err src .invalidField
        else s.addCmd { Cmd.new tag q.nextPos src k w.nsid w.slba w.nlb with
          hint := hintOf w.dtype w.dspec, keyTag := w.keyTag, prinfo := w.prinfo, appTag := w.appTag, appMask := w.appMask
          gen := if k = .orderedWrite then q.winFrom else 0 }

def execWrite (src : Src) (w : WriteArgs) (s : State) : Result := queueWrite s src w .write false
def execWriteZeroes (src : Src) (w : WriteArgs) (s : State) : Result := queueWrite s src w .writeZeroes false
def execZoneAppend (src : Src) (w : WriteArgs) (s : State) : Result := queueWrite s src w .append true
def execOrderedWrite (src : Src) (w : WriteArgs) (s : State) : Result := queueWrite s src w .orderedWrite false
def execLocatorAppend (src : Src) (w : WriteArgs) (s : State) : Result := queueWrite s src w .locAppend true

/-- VERIFIED_PRECOMPRESSED_WRITE: the checks of R81 that need no decoding, in order (R118). -/
def vpwBad (n : Ns) (v : VpwArgs) : Option Status :=
  if !n.zoned then some .invalidNsOrFormat
  else if v.llen = 0 || n.clutch < v.llen || v.slen = 0 || n.clutch * 4096 < v.slen || 1 < v.fmt then some .invalidField
  else if v.fmt = 1 && v.slen ≠ v.llen * 4096 then some .lengthMismatch
  else if v.listed < v.slen then some .dataSglLengthInvalid
  else none

/-- The placement hint, the zone address, the key tag and the LBA range are checked before the ordered checks of R81, which do not place
them (DESIGN CHOICE, assumption 138). -/
def execVerifiedPrecompressedWrite (src : Src) (v : VpwArgs) (s : State) : Result :=
  hostTagged s src .ioWrite false fun tag q s =>
    withVendorNs s src v.nsid fun n =>
      if n.zoned && (hintBad v.dtype v.dspec || v.zslba % zoneBlocks ≠ 0 || s.keyTagBad n src.fn v.keyTag)
      then s.err src .invalidField
      else if n.zoned && n.nsze ≤ v.zslba then s.err src .lbaOutOfRange
      else match vpwBad n v with
        | some st => s.err src st
        | none => s.addCmd { Cmd.new tag q.nextPos src .vpw v.nsid v.zslba v.llen with
            hint := hintOf v.dtype v.dspec, keyTag := v.keyTag, prinfo := v.prinfo, data := v.body.take v.slen,
            fmt := v.fmt, slen := v.slen, check := v.check }

/-- Checks of a read: blocks, range, key tag, and the zones it touches (R63, R145). -/
def State.readBad (s : State) (n : Ns) (fn : Nat) (slba nlb keyTag : Nat) : Option Status :=
  if nlb = 0 then some .invalidField
  else if n.nsze < slba + nlb then some .lbaOutOfRange
  else if s.keyTagBad n fn keyTag then some .invalidField
  else if n.zoned && (List.range ((slba + nlb - 1) / zoneBlocks + 1 - slba / zoneBlocks)).any
      (fun i => (s.zone n (slba / zoneBlocks + i)).state = .offline) then some .zoneOffline
  else none

/-- Queue a Read, Compare or Verify. -/
def queueRead (s : State) (src : Src) (r : ReadArgs) (k : Kind) (data : Bytes) : Result :=
  hostTagged s src .ioRead false fun tag q s =>
    withNs s src r.nsid fun n =>
      match s.readBad n src.fn r.slba r.nlb r.keyTag with
      | some st => s.err src st
      | none => s.addCmd { Cmd.new tag q.nextPos src k r.nsid r.slba r.nlb with
          keyTag := r.keyTag, prinfo := r.prinfo, appTag := r.appTag, appMask := r.appMask, data := data }

def execRead (src : Src) (r : ReadArgs) (s : State) : Result := queueRead s src r .read []
def execCompare (src : Src) (r : ReadArgs) (data : Bytes) (s : State) : Result := queueRead s src r .compare data
def execVerify (src : Src) (r : ReadArgs) (s : State) : Result := queueRead s src r .verify []

/-- READ_BY_LOCATOR: the checks of R80 before the header is read, in order. -/
def State.locBad (s : State) (n : Ns) (loc gen : Nat) : Option Status :=
  if !n.zoned then some .invalidNsOrFormat
  else if n.zones ≤ locZone loc then some .lbaOutOfRange
  else if (s.zone n (locZone loc)).gen ≠ gen then some .locatorStale
  else if (s.zone n (locZone loc)).state = .offline then some .zoneOffline
  else if 1 < locFmt loc then some .invalidField
  else if (s.zone n (locZone loc)).fill < locGran loc + locLen loc + 1 then some .deallocatedBlock
  else none

/-- READ_BY_LOCATOR. A reserved bit, MPTR, a PRINFO bit and the key tag answer first, on a conventional namespace too: the spec does not
order them against R88's Invalid Namespace or Format (DESIGN CHOICE, assumption 138). -/
def execReadByLocator (src : Src) (nsid loc gen off count keyTag prinfo : Nat) (s : State) : Result :=
  hostTagged s src .ioRead false fun tag q s =>
    withVendorNs s src nsid fun n =>
      if prinfo.testBit 1 || (n.zoned && s.keyTagBad n src.fn keyTag) then s.err src .invalidField
      else match s.locBad n loc gen with
        | some st => s.err src st
        | none => s.addCmd { Cmd.new tag q.nextPos src .readLoc nsid (locZone loc * zoneBlocks) count with
            keyTag := keyTag, prinfo := prinfo, loc := loc, gen := gen, off := off }

/-- DIGEST_RANGE: the checks of R124. -/
def execDigestRange (src : Src) (nsid slba count alg keyTag : Nat) (s : State) : Result :=
  hostTagged s src .ioRead false fun tag q s =>
    withVendorNs s src nsid fun n =>
      if 1 < alg || count = 0 || 2 ^ 24 < count || s.keyTagBad n src.fn keyTag then s.err src .invalidField
      else if n.nsze < slba + count then s.err src .lbaOutOfRange
      else s.addCmd { Cmd.new tag q.nextPos src .digest nsid slba count with keyTag := keyTag, off := alg }

/-- Deallocate takes effect: the blocks read as unwritten; it is recorded in the journal (R187). A lost block goes on returning
Unrecovered Read Error: only a write ends that (R83). -/
def State.startDeallocate (s : State) (c : Cmd) (n : Ns) : State :=
  let gone (lba : Nat) : Bool := c.ranges.any fun r => decide (r.1 ≤ lba) && decide (lba < r.1 + r.2)
  let s := s.journal .deallocate (n.nsid :: c.ranges.flatMap fun r => [r.1, r.2])
  let s := s.removeClutches fun x => x.nsid = n.nsid && gone x.lba
  s.finish c .success 0 0 .none

/-- DATASET_MANAGEMENT: nothing in a zoned namespace; Deallocate frees blocks in a conventional one (R46). -/
def execDatasetManagement (src : Src) (nsid : Nat) (deallocate : Bool) (ranges : List (Nat × Nat)) (s : State) : Result :=
  hostTagged s src (if deallocate then .ioWrite else .ioOther) false fun tag q s =>
    withNs s src nsid fun n =>
      if ranges.any fun r => decide (n.nsze < r.1 + r.2) then s.err src .lbaOutOfRange
      else s.addCmd { Cmd.new tag q.nextPos src (if deallocate && !n.zoned then .deallocate else .dsmNone) nsid 0 0 with ranges := ranges }

/-- FLUSH: outstanding until the earlier writes of its queue have completed, and, while the hold-up has failed,
until every covered clutch is on flash (R103, R104). -/
def execFlush (src : Src) (nsid : Nat) (s : State) : Result :=
  hostTagged s src .ioOther false fun tag q s =>
    if nsid ≠ 0xFFFFFFFF && (s.nsFor src.fn nsid).isNone then s.err src .invalidNsOrFormat
    else
      let cover := (s.clutches.filter fun x => x.fn = src.fn && x.place = .buffer &&
        (nsid = 0xFFFFFFFF || x.nsid = nsid)).map (·.id)
      s.addCmd { Cmd.new tag q.nextPos src .flush nsid 0 0 with targets := cover }

/-- Start Read by Locator: one item on the clutch the index records at the locator's granule. With none there
the header check cannot pass, and the status is Invalid Field in Command (R80). -/
def State.startReadLoc (s : State) (c : Cmd) (n : Ns) : State :=
  match s.locBad n c.loc c.gen with
  | some st => s.finish c st 0 0 .none
  | none =>
    match s.clutches.find? fun x => x.nsid = n.nsid && x.zone = locZone c.loc && x.gran = locGran c.loc with
    | none => s.finish c .invalidField 0 0 .none
    | some x =>
      if x.place = .lost then s.finish c .unrecoveredRead 0 0 .none
      else
        let c := { c with targets := [x.id], items := 1 }
        s.placeCmd c (c.itemList n)

end Sys2Proof.Machine
end

