-- ==== Sys2Proof/Machine/Efts.lean ====
section
/-! DEFINITION. Efts: items, steals, the write and read pipelines, digests, the GF unit, scrubs, strikes and
fences (R130-R165). -/

namespace Sys2Proof.Machine

open Sys2Proof

def onEft (p n : Nat) (k : Result) : Result := inRange p 8 (inRange n 32 k)

/-! ## Starting and ending an item -/

/-- Scrub (R155): regions A and B, the GF accumulator and the item registers are cleared; digest contexts and
parked contexts stay. -/
def Eft.scrub (e : Eft) : Eft :=
  { e with regA := [], tail := [], pieces := [], reqs := [], nextReq := 0, regB := none, acc := [], dirty := 0 }

def State.scrubEft (s : State) (p n : Nat) : State := (s.modEft p n Eft.scrub).bump (Fd.EFT_PD_SCRUBS_COUNT p) 1

/-- An item starts: a scrub first where the owner changes or SCRUB_ALWAYS is set; the owner is recorded. A read that parks for its
data has not started: it starts, is scrubbed for and is recorded when its data is in hand (assumption 91). -/
def State.startItem (s : State) (p n : Nat) (i : Item) : State :=
  let s := if s.lastOwner p n ≠ i.owner || s.flag Fd.EFT_CTL_SCRUB_ALWAYS then s.scrubEft p n else s
  (s.modEft p n fun e => { e with run := some i, regA := [], tail := [], pieces := [], reqs := [], nextReq := 0, regB := none,
                                  noBuf := false, noProgress := 0 }).setOwner p n i.owner

/-- The buffers of an item that has ended go back (R142). -/
def Eft.letGo (e : Eft) : Eft := { e with run := none, regB := none, pieces := [], reqs := [], nextReq := 0, noBuf := false, back := e.back ++ e.ovf, ovf := [] }

/-- The item ends: the eft is free again and counts it. Its key registers are cleared with it (R145). -/
def State.endItem (s : State) (p n : Nat) : State := (s.modEft p n Eft.letGo).count (Fd.EFT_PD_E_DONE_COUNT p n)

/-- The tag of a running item whose command has gone: no command has it. -/
def deadTag : Nat := 2 ^ 32

/-- The tag of the items of the device self-test. -/
def testTag : Nat := 2 ^ 32 + 1
def Item.isTest (i : Item) : Bool := i.tag = testTag

/-- A running item whose command has gone stops at its clutch boundary, and the eft scrubs (R157). -/
def State.stopItem (s : State) (p n : Nat) : State :=
  (s.modEft p n fun e => { e.letGo with noProgress := 0 }).scrubEft p n

/-- The entry an eft takes next: the oldest. An entry of the self-test is passed over while another waits: it runs only on a deque that
holds no other work (R128, R135). -/
def nextEntry (l : List Item) : Option Item :=
  match l.find? fun i => !i.isTest with
  | some i => some i
  | none => l.head?

/-- The owner takes its next entry if it is of the wanted class (R135). -/
def State.takeNear (s : State) (p n : Nat) (want : ItemCls → Bool) : Option (Item × State) :=
  match nextEntry (s.eft p n).deque with
  | some i => if want i.cls then some (i, s.modEft p n fun e => { e with deque := e.deque.erase i }) else none
  | none => none

/-! ## Fences and strikes (R158-R162) -/

/-- Classes that may leave their pond (R132). -/
def ItemCls.crosses : ItemCls → Bool
  | .read | .digest | .repair => true
  | .write | .parity | .selfTest => false

/-- The pond that takes a pond's home assignments: the first usable one from it on (R162). -/
def State.homeFor (s : State) (p : Nat) : Nat :=
  (((List.range 8).map fun k => (p + k) % 8).find? s.usable).getD p

/-- EFT_POND_MAP.HOME shows the redirection. -/
def State.refreshHomes (s : State) : State :=
  s.wr Fd.EFT_POND_MAP_HOME (sumNat ((List.range 8).map fun p => s.homeFor p <<< (3 * p)))

def State.fencedCount (s : State) : Nat :=
  sumNat ((List.range 8).map fun p => ((List.range 32).filter (s.fenced p)).length)

/-- An eft that may take an entry: in the pond first, then, for the read class, in the next ponds (R132, R160). -/
def State.otherEft (s : State) (p : Nat) (i : Item) : Option (Nat × Nat) :=
  match s.pickEft p false with
  | some n => some (p, n)
  | none =>
    if i.cls.crosses then
      (((List.range 7).map fun k => (p + k + 1) % 8).filter fun q => !s.gated q).findSome? fun q =>
        (s.pickEft q false).map fun n => (q, n)
    else none

/-- Give a fenced eft's entries to other efts; those nobody has room for stay until a thief comes. -/
def State.disperse (s : State) (p n : Nat) : List Item → State
  | [] => s
  | i :: r => match s.otherEft p i with
    | some e => State.disperse (s.pushItem e.1 e.2 i) p n r
    | none => State.disperse (s.pushItem p n i) p n r

/-- Parity slices and the repair terms of a rebuild are device work: they name a stripe or segment in place of a command. -/
def Item.unitWork (i : Item) : Bool := i.owner = .device && (i.cls = .parity || i.cls = .repair)

/-- An item of a command, or of the self-test. -/
def Item.of (i : Item) (tag : Nat) : Bool := i.tag = tag && !i.unitWork

/-- The landing area and the running efts let go of a command's items (R156, R157). -/
def Eft.forget (tag : Nat) (e : Eft) : Eft :=
  { e with
    deque := e.deque.filter fun i => !i.of tag, parked := e.parked.filter fun i => !i.of tag, ctx := e.ctx.filter (·.tag ≠ tag)
    outs := e.outs.filter (·.1 ≠ tag)
    run := e.run.map fun i => if i.of tag then { i with tag := deadTag } else i }

/-- Remove a command's items: waiting, parked and landed ones go, a running one stops at its clutch boundary. -/
def State.cancelItems (s : State) (tag : Nat) : State :=
  { s with
    efts := (s.efts.map fun (e : Nat × Eft) => (e.1, e.2.forget tag)).filter fun (e : Nat × Eft) => e.2 ≠ Eft.init
    landing := s.landing.filter fun e => e.1 ≠ tag }

/-- What a fence does to a Digest Range whose owner was the eft: it begins again from its first LBA on another eft, and has still
started (R160, R163). -/
def Cmd.ownerLost (c : Cmd) : Cmd := { c with owner := none, items := 0, targets := [] }

/-- The sum of a Reconstruct's output is lost: it is computed again from the landed sources, by the eft that takes the output item (R160,
R161, R311). -/
def Cmd.sumLost (c : Cmd) : Cmd := { c with owner := none, terms := [] }

/-- What a fence does to the commands an eft owns: the digest state is lost with it, and so is the sum of a Reconstruct's output, unless
that is in the buffer already; its terms begin again. -/
def State.ownerFenced (s : State) (tag : Nat) : State :=
  match s.cmd tag with
  | none => s
  | some c =>
    if c.kind = .digest then (s.cancelItems tag).modCmd tag Cmd.ownerLost
    else if c.items = 0 then s
    else
      ({ s with
          efts := (s.efts.map fun (e : Nat × Eft) => (e.1, { e.2 with
            deque := e.2.deque.filter (fun (i : Item) => !(i.of tag && i.cls = ItemCls.repair)),
            outs := e.2.outs.filter (fun (x : Nat × Bytes × Bytes) => x.1 ≠ tag) })).filter
              (fun (e : Nat × Eft) => e.2 ≠ Eft.init) }).modCmd tag Cmd.sumLost

/-- Fence an eft with a cause: 1 strikes, 2 watchdog, 3 self-test or EFT_FENCE_CMD (R160). Its entries are
stolen, its running and parked items redone, the commands it owned begin again on another eft; 33 fenced
efts, or no usable pond, put the part in DEGRADED (R162). -/
def State.fenceEft (s : State) (p n cause : Nat) : State :=
  if s.fenced p n then s
  else
    let owned := (s.cmds.filter fun c => c.owner = some (eftKey p n)).map Cmd.tag
    let s := owned.foldl State.ownerFenced s
    let e := s.eft p n
    let items := e.deque ++ (e.parked ++ e.run.toList.filter (·.tag ≠ deadTag)).map (fun i => { i with resume := false })
    let s := (s.wr (Fd.EFT_PD_E_STATE_FENCED p n) 1).wr (Fd.EFT_PD_E_STATE_CAUSE p n) cause
    let s := s.setEft p n { Eft.init with strikeAt := e.strikeAt, runs := e.runs + 1, fencedThisRun := true, back := e.back ++ e.ovf }
    let s := { s with hlt := { s.hlt with fences := s.hlt.fences + 1 } }
    let s := (s.record 0x0301 [p, n, cause]).disperse p n items
    let s := s.refreshHomes
    if 33 ≤ s.fencedCount || !s.anyPond then s.degrade 0 else s

/-- Charge a strike: two within 1,024 frames fence the eft (R158). -/
def State.strike (s : State) (key : Nat) : State :=
  let p := key / 32; let n := key % 32
  let f := s.rd Fd.CHO_COUNTER_FRAME
  let at' := ((s.eft p n).strikeAt.filter fun g => decide (f < g + 1024)) ++ [f]
  let s := (s.modEft p n fun e => { e with strikeAt := at' }).wr (Fd.EFT_PD_E_STATE_STRIKES p n) (min 2 at'.length)
  if 2 ≤ at'.length then s.fenceEft p n 1 else s

/-- The eft a redo goes to: an idle one in another pond if there is one, else any other unfenced one with room (R161). -/
def State.redoEft (s : State) (p n : Nat) : Option (Nat × Nat) :=
  let all := (List.range 256).filter fun k => k ≠ eftKey p n && !s.fenced (k / 32) (k % 32) && !s.gated (k / 32)
    && decide ((s.eft (k / 32) (k % 32)).deque.length < 56)
  let idle := all.filter fun k => k / 32 ≠ p && (s.eft (k / 32) (k % 32)).run.isNone && (s.eft (k / 32) (k % 32)).deque.isEmpty
  (match idle.head? with
   | some k => some k
   | none => all.head?).map fun k => (k / 32, k % 32)

/-- There is an eft for a redo, but none of them has room: the item waits (R133, R161). -/
def State.redoWaits (s : State) (p n : Nat) (i : Item) : Bool :=
  i.redo.isNone && (s.redoEft p n).isNone &&
    (List.range 256).any fun k => k ≠ eftKey p n && !s.fenced (k / 32) (k % 32) && !s.gated (k / 32)

/-- Redo an item once. -/
def State.redo (s : State) (p n : Nat) (i : Item) : Option State :=
  (s.redoEft p n).map fun e => (s.endItem p n).pushItem e.1 e.2 { i with resume := false, redo := some (eftKey p n) }

/-- A redo has passed: the eft it failed on first takes a strike (R158, R161). -/
def State.redoPassed (s : State) (i : Item) : State := match i.redo with | some k => s.strike k | none => s

/-! ## The write pipeline (R136-R144) -/

/-- Blocks of clutch `ix` of a write (R26). -/
def Cmd.blocksOf (c : Cmd) (n : Ns) (ix : Nat) : Nat := min n.clutch (c.nlb - ix * n.clutch)

/-- Region B in bytes; what lies beyond it needs overflow buffers of 16 KiB (R131, R142). -/
def regionB : Nat := 98304
def ovfSize : Nat := 16384
def ovfNeed (len : Nat) : Nat := ceilDiv (len - regionB) ovfSize

/-- The buffers that what outgrows region B fills, in order (R142). -/
def ovfChain (b : Bytes) : List Bytes := (List.range (ovfNeed b.length)).map fun k => (b.drop (regionB + k * ovfSize)).take ovfSize
def Stored.spill (x : Stored) : List Bytes := if 32 + x.region.length ≤ regionB then [] else ovfChain (x.hdr.bytes ++ x.region)

/-- An item of a command has ended: with a status on failure, with its stored clutch on success. When all have
ended a failed command completes, and its clutches are dropped. -/
def State.itemDone (s : State) (tag : Nat) (r : Status ⊕ (Nat × Stored)) : State :=
  match s.cmd tag with
  | none => s
  | some c =>
    let c := match r with
      | .inl st => { c with items := c.items - 1, fail := some (c.fail.getD st) }
      | .inr p => { c with items := c.items - 1, parts := c.parts ++ [p] }
    let s := s.modCmd tag fun _ => c
    match c.fail with
    | some st => if c.items = 0 then s.finish c st 0 0 .none else s
    | none => s

/-- Zero padding up to the next granule boundary, 32 B of header counted (R69). -/
def padded (b : Bytes) : Bytes := b ++ zeros (granulesOf b.length 0 * 64 - 32 - b.length)

/-- Build and encrypt the stored clutch (R70, R144). -/
def buildStored (n : Ns) (fn level fmt lba : Nat) (key data body tail : Bytes) : Stored :=
  let h : Hdr := ⟨clutchMagic, fmt, level, data.length, body.length, crc32c data, lba, fn, 0⟩
  { hdr := h.seal, region := xtsEnc key lba (padded (body ++ tail ++ zeros (if n.zoned then 0 else 4144 - 4096 - tail.length - 32))) }

/-- The PI tail of a clutch: generated with PRACT, else the host's, checked under PRINFO (R75, R136). -/
def Cmd.tailFor (c : Cmd) (n : Ns) (lba blocks : Nat) (data host : Bytes) : Status ⊕ Bytes :=
  if n.fmt = 0 then .inr []
  else if c.prinfo.testBit 3 || c.kind = .vpw || c.kind = .writeZeroes || c.kind = .reconstruct then .inr (piTail n.fmt c.appTag lba data blocks)
  else match piCheckAll n.fmt c.prinfo c.appTag c.appMask blocks lba data host with
    | some st => .inl st
    | none => .inr host

/-- What the compressor yields for a clutch (R138-R143): the frame, or raw, with the overflow buffers its output took;
or no buffer was free; or the verification decode fails. -/
inductive Packed where
  | frame (b : Bytes) (ovf : List Bytes) | raw (ovf : List Bytes) | noBuf (ovf : List Bytes) | badDecode (ovf : List Bytes)
  deriving DecidableEq, Repr

def pack (n : Ns) (faulty : Bool) (free : Nat) (data : Bytes) (tail : Nat) : Packed :=
  if n.level = 0 || !n.zoned then .raw []
  else
    let f := encode n.level data
    let thr := gainThreshold data.length tail
    let need := ovfChain (f.take (thr + 1))   -- the compressor stops as soon as its output exceeds the threshold
    if free < need.length then .noBuf (need.take free)
    else if thr < f.length then .raw need
    else match guard n.clutch 0 data.length f.length f with
      | .ok out => if faulty || crc32c out ≠ crc32c data then .badDecode need else .frame f need
      | .stop _ => .badDecode need

/-- An eft takes overflow buffers of its pond's pool and fills them. -/
def State.takeOvf (s : State) (p n : Nat) (l : List Bytes) : State :=
  (s.wr (Fd.EFT_PD_OVF_FREE p) (s.rd (Fd.EFT_PD_OVF_FREE p) - l.length)).modEft p n fun e => { e with ovf := e.ovf ++ l }

/-- Finish a write clutch: its stored clutch goes to the buffer and its overflow buffers wait for their return. -/
def State.storeClutch (s : State) (p n : Nat) (i : Item) (c : Cmd) (ns : Ns) (level fmt : Nat) (data body tail : Bytes) (ovf : List Bytes) : State :=
  match s.selectKey ns c.fn c.keyTag with
  | .inr st => ((s.noteKey ns c.fn c.keyTag).endItem p n).itemDone c.tag (.inl st)
  | .inl key =>
    let lba := c.slba + i.ix * ns.clutch
    let st := buildStored ns c.fn level fmt lba key data body tail
    let s := (s.takeOvf p n ovf).modEft p n fun e => { e with dirty := e.dirty + data.length + st.region.length }
    (s.endItem p n).itemDone c.tag (.inr (i.ix, st))

/-- The PI tail area of region A begins at 128 KiB (R131). -/
def tailArea : Nat := 131072

/-- The host gives the tuples of a write: not with PRACT, and not for commands that carry no host data or make their own. -/
def Cmd.hostTuples (c : Cmd) (ns : Ns) : Bool :=
  ns.fmt ≠ 0 && !c.prinfo.testBit 3 && c.kind ≠ .writeZeroes && c.kind ≠ .reconstruct && c.kind ≠ .vpw

/-- What an item fetches from host memory: offset in region A and length. Interleaved tuples come with their blocks; tuples of a
separate buffer go to the tail area. A command that carries its body with it, or none, fetches nothing. -/
def Cmd.spansOf (c : Cmd) (ns : Ns) (ix : Nat) : List (Nat × Nat) :=
  let k := c.blocksOf ns ix
  if c.kind = .writeZeroes || c.kind = .reconstruct || c.kind = .vpw then []
  else if !c.hostTuples ns then [(0, 4096 * k)]
  else if ns.extended then [(0, (4096 + piBytes ns.fmt) * k)]
  else [(0, 4096 * k), (tailArea, piBytes ns.fmt * k)]

/-- Requests of up to 4 KiB over a span (R136). -/
def chop : Nat → Nat → Nat → List (Nat × Nat)
  | 0, _, _ => []
  | k + 1, off, len => if len = 0 then [] else (off, min len 4096) :: chop k (off + 4096) (len - 4096)

def Cmd.requests (c : Cmd) (ns : Ns) (ix : Nat) : List (Nat × Nat) :=
  (c.spansOf ns ix).flatMap fun e => chop (ceilDiv e.2 4096) e.1 e.2

/-- Issue requests, at most 32 outstanding, each with the requester ID of the item's function (R136, R145). -/
def Eft.issue (fn : Nat) (all : List (Nat × Nat)) (e : Eft) : Eft :=
  let new := (all.drop e.nextReq).take (32 - e.reqs.length)
  { e with reqs := e.reqs ++ new.map (fun r => (fn, r.1, r.2)), nextReq := e.nextReq + new.length }

/-- The data and the tuples an item has fetched. -/
def Eft.fetched (e : Eft) (c : Cmd) (ns : Ns) (ix : Nat) : Bytes × Bytes :=
  if c.hostTuples ns && ns.extended then
    let w := 4096 + piBytes ns.fmt
    let blocks := (List.range (c.blocksOf ns ix)).map fun i => (e.regA.drop (w * i)).take w
    (blocks.flatMap (·.take 4096), blocks.flatMap (·.drop 4096))
  else (e.regA, e.tail)

/-- A precompressed clutch (R81, R119, R148): guarded, compared with its declared check value with one redo, and stored as sent. A
body beyond region B waits for its overflow buffers: it may not be stored raw instead (assumption 92). -/
def State.runVpw (s : State) (p n : Nat) (i : Item) (c : Cmd) (ns : Ns) (faulty : Bool) : State :=
  let fail (s : State) (st : Status) : State := (s.endItem p n).itemDone c.tag (.inl st)
  let need := ovfChain c.data
  if s.rd (Fd.EFT_PD_OVF_FREE p) < need.length then s
  else match guard ns.clutch c.fmt (4096 * c.nlb) c.slen c.data with
  | .stop r => fail s (guardStatusVpw r)
  | .ok out =>
    if faulty || crc32c out ≠ c.check then
      if s.redoWaits p n i then s else
      match i.redo, s.redo p n i with
      | none, some s' => s'
      | _, _ => fail (s.record 0x0302 (pay 2 c.fn ++ pay 8 c.slba ++ [1])) .checkMismatch
    else match c.tailFor ns c.slba c.nlb out [] with
      | .inl st => fail s st
      | .inr tail => (s.redoPassed i).storeClutch p n i c ns 0xFF c.fmt out c.data tail need

/-- Run a write item whose data has all arrived (R136); `faulty` says this eft computed wrongly. -/
def State.runWrite (s : State) (p n : Nat) (i : Item) (c : Cmd) (ns : Ns) (faulty : Bool) : State :=
  let e := s.eft p n
  let blocks := c.blocksOf ns i.ix
  let llen := blocks * 4096
  let lba := c.slba + i.ix * ns.clutch
  if c.kind = .vpw then s.runVpw p n i c ns faulty
  else if !e.reqs.isEmpty || decide (e.nextReq < (c.requests ns i.ix).length) then s
  else
    let got := e.fetched c ns i.ix
    -- the output of a Reconstruct stands in region A, as its eft has summed it (R311)
    let data := if c.kind = .writeZeroes then zeros llen else got.1
    match c.tailFor ns lba blocks data got.2 with
    | .inl st => (s.endItem p n).itemDone c.tag (.inl st)
    | .inr tail =>
      let raw (ovf : List Bytes) (s : State) : State := s.storeClutch p n i c ns ns.level 1 data data tail ovf
      match pack ns faulty (s.rd (Fd.EFT_PD_OVF_FREE p)) data tail.length with
      | .raw ovf => raw ovf s
      | .noBuf ovf => raw ovf (s.bump (Fd.EFT_PD_OVF_NOBUF p) 1)
      | .frame f ovf => (s.redoPassed i).storeClutch p n i c ns ns.level 0 data f tail ovf
      | .badDecode ovf =>
        if s.redoWaits p n i then s else
        match i.redo, s.redo p n i with
        | none, some s' => if c.kind = .reconstruct then s'.modCmd c.tag Cmd.sumLost else s'
        | _, _ => raw ovf (s.record 0x0302 (pay 2 c.fn ++ pay 8 lba ++ [1]))

/-- Join completions that now touch the contiguous prefix (`fuel` of them). -/
def joinPieces : Nat → Bytes → List (Nat × Bytes) → Bytes × List (Nat × Bytes)
  | 0, a, ps => (a, ps)
  | k + 1, a, ps => match ps.find? fun q => decide (q.1 ≤ a.length) with
    | some q => joinPieces k (a ++ q.2.drop (a.length - q.1)) (ps.erase q)
    | none => (a, ps)

/-- A completion lands: it answers the front of the request that begins at its offset. Region A's prefix grows, or the PI tail. -/
def Eft.land (off : Nat) (data : Bytes) (inTail : Bool) (e : Eft) : Eft :=
  let reqs := e.reqs.filterMap fun r =>
    if r.2.1 = off then (if r.2.2 = data.length then none else some (r.1, off + data.length, r.2.2 - data.length)) else some r
  let e := { e with reqs := reqs, dirty := e.dirty + data.length, noProgress := 0 }
  if inTail then { e with tail := e.tail ++ data }
  else
    let ps := e.pieces ++ [(off, data)]
    let r := joinPieces ps.length e.regA ps
    { e with regA := r.1, pieces := r.2 }

/-- HOST_READ_COMPLETION: host data lands in region A at its offset; the contiguous prefix grows, and the next request goes out
(R136). What answers no outstanding request is discarded (R335). -/
def execHostReadCompletion (pond n off : Nat) (data : Bytes) (s : State) : Result :=
  onEft pond n (
    let e := s.eft pond n
    match e.run.bind fun i => (s.cmd i.tag).bind fun c => (s.ns c.nsid).map fun ns => (i, c, ns) with
    | none => .next s
    | some (i, c, ns) =>
      if s.fenced pond n || data.isEmpty || !e.reqs.any (fun r => r.2.1 = off && decide (data.length ≤ r.2.2)) then .next s
      else .next (s.modEft pond n fun e =>
        (e.land off data (decide (tailArea ≤ off) && !ns.extended)).issue c.fn (c.requests ns i.ix)))

/-! ## The read pipeline (R149) -/

/-- What steps 2 to 6 of a read item give. `header`: the header check of step 2 failed. -/
inductive ReadRes where
  | data (b : Bytes) | fail (st : Status) | header | redo
  deriving DecidableEq, Repr

/-- Steps 2 to 6 of R149, with the checks of R80 for Read by Locator in their place. The content is the plaintext, then the
tuples. -/
def State.readClutch (s : State) (c : Cmd) (ns : Ns) (x : Stored) (ng : Nat) (faulty : Bool) : ReadRes :=
  let h := x.hdr
  if !h.good || (c.byLoc && (h.fmt ≠ locFmt c.loc || ng ≠ locLen c.loc + 1)) then .header
  else if h.tag ≠ c.fn then .fail .accessDenied
  else if c.byLoc && (c.nlb = 0 || h.llen / 4096 < c.off + c.nlb) then .fail .lengthMismatch
  else match s.selectKey ns c.fn c.keyTag with
    | .inr st => .fail st
    | .inl key =>
      let plain := xtsDec key h.lba x.region
      match guard ns.clutch h.fmt h.llen h.slen (plain.take h.slen) with
      | .stop r => .fail (guardStatusRead r)
      | .ok out =>
        if faulty || crc32c out ≠ h.check then .redo
        else
          let first := if c.byLoc then c.off else c.slba - h.lba
          let last := if c.byLoc then c.off + c.nlb else min (h.llen / 4096) (c.slba + c.nlb - h.lba)
          let pb := piBytes ns.fmt
          let tuples := (plain.drop h.slen).take (pb * (h.llen / 4096))
          match piCheckAll ns.fmt (if c.kind = .digest then 0 else c.prinfo) c.appTag c.appMask (last - first) (h.lba + first)
              (out.drop (4096 * first)) (tuples.drop (pb * first)) with
          | some st => .fail st
          | none => .data (out ++ tuples)

/-- A read item has verified data or a status: hand it on, and complete the command with its last item. -/
def State.readItemDone (s : State) (tag id : Nat) (r : Status ⊕ Bytes) : State :=
  match s.cmd tag with
  | none => s
  | some c =>
    let c := match r with
      | .inl st => { c with items := c.items - 1, fail := some (c.fail.getD st) }
      | .inr b => { c with items := c.items - 1, out := c.out ++ [(id, b)] }
    let s := s.modCmd tag fun _ => c
    if c.items = 0 then s.finishRead c else s

/-- A digest feed's outcome goes to the owner's context, where it counts when its clutch is reached (R124, R150). -/
def State.feedDone (s : State) (tag id : Nat) (r : Status ⊕ Bytes) : State :=
  match (s.cmd tag).bind Cmd.owner with
  | some k => s.modEft (k / 32) (k % 32) fun e =>
      { e with ctx := e.ctx.map fun d => if d.tag = tag then { d with feeds := d.feeds ++ [(id, r)] } else d }
  | none => s

/-- A read-class item ends with its content or a status. -/
def State.readEnd (s : State) (i : Item) (r : Status ⊕ Bytes) : State :=
  let s := { s with landing := s.landing.filter fun e => !(e.1 = i.tag && e.2.1 = i.ix) }
  if i.cls = .digest then s.feedDone i.tag i.ix r else s.readItemDone i.tag i.ix r

/-- A copy that lies on SLC blocks: the spawn's (R182). -/
def slcPlace : Place → Bool
  | .spawn _ => true
  | _ => false

/-- Queue reads of the pages that hold a clutch, for an eft (R134, R207): purpose 0 at host-read priority, 9 for a peer (R306), 10 a
rebuild from parity (R149, R221), 15 a source of the programs `feeds` names. A page of a lost member, or of a die out of service, is
rebuilt at once (R228, R229). -/
def State.queueReads (s : State) (x : Clutch) (eft purpose : Nat) (feeds : List (Nat × Nat)) : State :=
  (s.dieReads x).foldl (fun (s : State) e =>
    let op : DieOp := {
      id := s.med.nextOp, kind := .read, ch := e.2.1.ch, ce := e.1, lun := e.2.1.lun, block := e.2.1.block, row := e.2.2.1,
      purpose := if e.2.1.status = 0 && s.dieUp e.2.1.ch e.1 e.2.1.lun then purpose else 10, unit := x.id, carries := feeds, words := e.2.2.2, eft := eft, st := 0, left := 0, startedAt := 0, ran := 0,
      suspends := 0, served := 0, retries := 0, timed := false, slc := slcPlace x.place, checked := true
    }
    { s with med := { s.med with ops := s.med.ops ++ [op], nextOp := s.med.nextOp + 1 } }) s
def State.queueDieRead (s : State) (x : Clutch) (eft purpose : Nat) : State := s.queueReads x eft purpose []

/-- The item has its stored clutch in regions A and B, and in overflow buffers. -/
def State.holdClutch (s : State) (p n : Nat) (st : Stored) : State :=
  (s.takeOvf p n st.spill).modEft p n fun e => { e with dirty := e.dirty + st.region.length + st.hdr.llen }

/-- A clutch from a die whose header fails is read again through its rebuild from parity, once; its item parks for it, at most 8 (R134,
R149). -/
def State.rereadItem (s : State) (p n : Nat) (i : Item) (x : Clutch) : State :=
  ((s.endItem p n).modEft p n fun e => { e with parked := e.parked ++ [{ i with rebuilt := true, resume := false }] }).queueDieRead x (eftKey p n) 10

/-- Run a read-class item on data in hand; `die` says that it came from a die. It waits where it should be parked, or redone, and there
is no room. -/
def State.runRead (s : State) (p n : Nat) (i : Item) (c : Cmd) (ns : Ns) (x : Clutch) (st : Stored) (die faulty : Bool) : State :=
  let fin (s : State) (r : Status ⊕ Bytes) : State := (s.endItem p n).readEnd i r
  let s' := s.holdClutch p n st
  match s.readClutch c ns st x.ngran faulty with
  | .data b => fin (s'.redoPassed i) (.inr b)
  | .fail r => fin (if r = .accessDenied then s'.noteKey ns c.fn c.keyTag else s') (.inl r)
  | .header =>
    if !(die && !i.rebuilt) then fin s' (.inl .unrecoveredRead)
    else if 8 ≤ (s.eft p n).parked.length then s
    else s'.rereadItem p n i x
  | .redo =>
    if s.redoWaits p n i then s
    else
    let s := s'
    match i.redo, s.redo p n i with
    | none, some s' => s'
    | _, _ =>
      let s := { s with hlt := { s.hlt with mismatches := s.hlt.mismatches + 1 } }
      fin (s.record 0x0302 (pay 2 c.fn ++ pay 8 x.lba ++ [0])) (.inl .checkMismatch)

/-! ## Reconstruct: the sum of its sources (R132, R154, R311) -/

/-- Segments of 32 KiB of an output, and the one its sum stands at: the first that still lacks a term. -/
def segBytes : Nat := 32768
def Cmd.segments (c : Cmd) : Nat := ceilDiv (4096 * c.nlb) segBytes
def Cmd.segLen (c : Cmd) (g : Nat) : Nat := min segBytes (4096 * c.nlb - segBytes * g)
def Cmd.segmentNow (c : Cmd) (sources : Nat) : Nat :=
  ((List.range c.segments).find? fun g => decide ((c.terms.filter fun t => t.1 / 32 = g && t.2).length < sources)).getD c.segments

/-- The peer reads of a Reconstruct, in the order of its sources. -/
def State.sources (s : State) (tag : Nat) : List PeerOut := s.dzl.outs.filter fun o => o.cmd = tag

/-- The whole output is summed. -/
def State.summed (s : State) (c : Cmd) : Bool := c.segmentNow (s.sources c.tag).length = c.segments

/-- The output item of a Reconstruct: a write clutch (R132). -/
def Cmd.outItem (c : Cmd) : Item := ⟨.write, .fn c.fn, c.tag, 0, false, none, false⟩

/-- The running item is the output of a command. -/
def Eft.outputs (e : Eft) (tag : Nat) : Bool := e.run.any fun i => i.cls = .write && i.tag = tag

/-- Change the sum of an output where its owner eft has it: finished segments in region A and the accumulator of the running one, or the
same in the context of the parked item. -/
def State.modSum (s : State) (c : Cmd) (g : Bytes × Bytes → Bytes × Bytes) : State :=
  match c.owner with
  | none => s
  | some k => s.modEft (k / 32) (k % 32) fun e =>
    if e.outputs c.tag then { e with regA := (g (e.regA, e.acc)).1, acc := (g (e.regA, e.acc)).2 }
    else { e with outs := e.outs.map fun x => if x.1 = c.tag then (x.1, g x.2) else x }

/-- An output item waits for its sources: it is parked, with its context, when its eft has other work (R134). -/
def State.parkOutput (s : State) (p n : Nat) : State :=
  let e := s.eft p n
  match e.run.bind fun i => (s.cmd i.tag).map fun c => (i, c) with
  | none => s
  | some (i, c) =>
    if i.cls = .write && c.kind = .reconstruct && !s.summed c && !e.deque.isEmpty && decide (e.parked.length < 8) then
      s.modEft p n fun e => { e with run := none, regA := [], acc := [], parked := e.parked ++ [i], outs := e.outs ++ [(c.tag, e.regA, e.acc)] }
    else s

/-- An eft starts an output item: it owns the output from now on, and goes on from its context where an eft keeps that. -/
def State.startOutput (s : State) (p n : Nat) (i : Item) (c : Cmd) : State :=
  let old := c.owner.bind fun k => ((s.eft (k / 32) (k % 32)).outs.find? (·.1 = c.tag)).map (·.2)
  let s := match c.owner with
    | some k => s.modEft (k / 32) (k % 32) fun e => { e with outs := e.outs.filter (·.1 ≠ c.tag) }
    | none => s
  let sum := old.getD ([], [])
  let s := (s.startItem p n i).modEft p n fun e => { e with regA := sum.1, acc := sum.2 }
  s.modCmd c.tag fun c => { c with owner := some (eftKey p n), terms := if old.isNone then [] else c.terms }

/-- A parked output is summed: its item goes on at once on an idle eft, or gets a resume entry at the far end of its eft's deque (R134). -/
def State.resumeOutput (s : State) (c : Cmd) (k : Nat) : State :=
  let p := k / 32
  let n := k % 32
  match (s.eft p n).parked.find? fun i => i.tag = c.tag && i.cls = .write with
  | none => s
  | some i =>
    let s := s.modEft p n fun e => { e with parked := e.parked.erase i }
    if (s.eft p n).run.isNone && (s.eft p n).deque.isEmpty then s.startOutput p n i c else s.pushItem p n { i with resume := true }

/-- Issue the terms of the running segment whose sources have landed, as repair items on the owner's eft, in deques of fewer than 56
entries; with the last segment summed the output item goes on (R132, R133, R311). -/
def State.issueTerms (s : State) (c : Cmd) : State :=
  match c.owner with
  | none => s
  | some k =>
    if s.summed c then s.resumeOutput c k
    else
      let g := c.segmentNow (s.sources c.tag).length
      let landed (o : PeerOut) : Bool := (o.ended.isNone || o.ended = some .success) && decide (segBytes * g + c.segLen g ≤ o.data.length)
      let new := ((s.sources c.tag).filter fun o => landed o && !c.terms.any fun t => t.1 = 32 * g + o.src).map fun o => 32 * g + o.src
      let new := new.take (56 - (s.eft (k / 32) (k % 32)).deque.length)
      let s := new.foldl (fun (s : State) t => s.pushItem (k / 32) (k % 32) ⟨.repair, .fn c.fn, c.tag, t, false, none, false⟩) s
      s.modCmd c.tag fun c => { c with terms := c.terms ++ new.map fun t => (t, false) }

/-- A Reconstruct whose sources have all ended, one in failure: the lowest-numbered failure decides, and its items go; else the terms of
what has landed are issued (R310, R311). -/
def State.concludeOne (s : State) (c : Cmd) : State :=
  let os := s.sources c.tag
  let bad := os.filter fun o => o.ended ≠ some .success
  if os.all (·.ended.isSome) && !bad.isEmpty then (s.cancelItems c.tag).finish c (((bad.head?).bind PeerOut.ended).getD .internalError) 0 0 .none
  else s.issueTerms c

/-- Every Reconstruct that runs; twice over, since what one lets go may end the reads of another (R308). -/
def State.concludeRecon (s : State) : State :=
  let l := (s.cmds.filter fun c => c.kind = .reconstruct && c.started && c.items ≠ 0).map Cmd.tag
  (l ++ l).foldl (fun (s : State) t => match s.cmd t with | some c => if c.items = 0 then s else s.concludeOne c | none => s) s

/-- A term of a Reconstruct: its source's part of the segment, times its coefficient, is added into the accumulator; the last one of a
segment moves it to region A. A source whose data was let go for a second request gives its term again (R308, R311). -/
def State.addTerm (s : State) (c : Cmd) (t : Nat) : State :=
  let g := t / 32
  match (s.sources c.tag).find? fun o => o.src = t % 32 with
  | none => s
  | some o =>
    let len := c.segLen g
    if o.data.length < segBytes * g + len then s.modCmd c.tag fun c => { c with terms := c.terms.filter fun x => x.1 ≠ t }
    else
      let terms := c.terms.map fun x => if x.1 = t then (t, true) else x
      let full := decide ((s.sources c.tag).length ≤ (terms.filter fun x => x.1 / 32 = g && x.2).length)
      let s := s.modSum c fun x =>
        let acc := gfAcc o.req.coeff (if x.2.isEmpty then zeros len else x.2) ((o.data.drop (segBytes * g)).take len)
        if full then (x.1 ++ acc, []) else (x.1, acc)
      s.modCmd c.tag fun c => { c with terms := terms }

/-- WRITE_CLUTCH_ITEM: an idle eft takes its next entry if it is a write clutch and requests its data; an eft whose clutch has all
its data finishes it. A fenced eft runs nothing (R160). -/
def execWriteClutchItem (pond n : Nat) (faulty : Bool) (s : State) : Result :=
  onEft pond n (
    if s.fenced pond n || s.gated pond then .next s
    else
      let s := s.parkOutput pond n
      let start : Option (Item × State) := match (s.eft pond n).run with
        | some i => if i.cls = ItemCls.write then some (i, s) else none
        | none => (s.takeNear pond n fun k => k = ItemCls.write).map fun r => (r.1, match s.cmd r.1.tag with
          | some c => if c.kind = .reconstruct then r.2.startOutput pond n r.1 c else r.2.startItem pond n r.1
          | none => r.2.startItem pond n r.1)
      match start with
      | none => .next s
      | some (i, s') =>
        match s'.cmd i.tag with
        | none => .next (s'.stopItem pond n)   -- its function was reset, or its command has ended (R157)
        | some c => match s'.ns c.nsid with
          | none => .next (s'.stopItem pond n)
          | some ns =>
            if c.kind = .reconstruct && !s'.summed c then .next s'.concludeRecon else
            let s' := s'.modEft pond n (Eft.issue c.fn (c.requests ns i.ix))
            .next (if s'.slotWaits ns then s' else s'.runWrite pond n i c ns faulty))

/-- What a read item finds to work on: the stored clutch in region B or in the landing area, which came from a die, or in the DRAM
buffer; none where it is on a die. A superseded clutch whose stripe has been let go is read where the buffer kept it. -/
def State.inHand (s : State) (p n : Nat) (i : Item) (x : Clutch) : Option (Stored × Bool) :=
  match (s.eft p n).regB with
  | some st => some (st, true)
  | none => match s.landing.find? fun e => e.1 = i.tag && e.2.1 = i.ix with
    | some e => if i.resume then some (e.2.2, true) else none
    | none => if x.place = .buffer || (s.dieReads x).isEmpty then some (x.stored, false) else none

/-! ## The self-test's items (R127-R129, R132) -/

def State.test (s : State) : SelfTest := s.boot.selfTest
def State.setTest (s : State) (t : SelfTest) : State := { s with boot := { s.boot with selfTest := t } }

/-- A segment has failed; the first one that did is the result. -/
def State.noteFailed (s : State) (segment : Nat) : State :=
  s.setTest { s.test with failed := if s.test.failed = 0 then segment else s.test.failed }

/-- Die reads of segment 5's samples serve no eft: they carry this number instead of an eft's. -/
def sampleEft : Nat := 257

/-- QUIESCE and HOLD suspend the device self-test, and STOP starts no item (R129, R424). -/
def State.testSuspended (s : State) : Bool := s.mode = mQuiesce || s.mode = mHold || s.flag Fd.GK_THERM_STOP

/-- What segment 6 finds in a stored clutch: its header, and without Key Per I/O its plaintext under its namespace's media slot (R127).
Answers whether the check may be redone (R161): a check value that differs, and nothing else. -/
def State.testClutch (s : State) (x : Clutch) (st : Stored) (faulty : Bool) : ReadRes :=
  let h := st.hdr
  if !h.good then .header
  else match s.ns x.nsid with
  | none => .data []
  | some n =>
    if n.kpio then .data []
    else match s.selectKey n h.tag 0 with
    | .inr e => .fail e
    | .inl key =>
      match guard n.clutch h.fmt h.llen h.slen ((xtsDec key h.lba st.region).take h.slen) with
      | .stop r => .fail (guardStatusRead r)
      | .ok out => if faulty || crc32c out ≠ h.check then .redo else .data []

/-- Mark a stripe or segment for refresh: its data is written onto new blocks (R223). -/
def State.markPlace (s : State) (p : Place) : State :=
  let put (k : Bool × Nat) : State :=
    if s.med.refresh.contains k then s else { s with med := { s.med with refresh := s.med.refresh ++ [k] } }
  match p with
  | .spawn g => put (true, g)
  | .stripe q | .log q => put (false, q)
  | _ => s

/-- A clutch that fails is rebuilt from stripe parity, through rebuild reads of its pages, and the test continues (R129, R221). Where the
rebuilt data goes the spec does not say: its stripe or segment is marked for refresh (DESIGN CHOICE, assumption 129). -/
def State.rebuildClutch (s : State) (x : Clutch) : State := (s.markPlace x.place).queueReads x 256 10 []

/-- Segment 6 goes on behind a clutch. One that fails does not fail the segment: the spec says only that the test continues (DESIGN CHOICE,
assumption 130). -/
def State.tested (s : State) (id : Nat) : State := s.setTest { s.test with last := max s.test.last id }

/-- Run the read item of segment 6 on the clutch in hand, as R149 and R161 have a read item run. -/
def State.runTest (s : State) (p n : Nat) (i : Item) (x : Clutch) (st : Stored) (die faulty : Bool) : State :=
  let s' := s.holdClutch p n st
  let fin (s : State) : State :=
    { (s.endItem p n).tested x.id with landing := s.landing.filter fun e => !(e.1 = i.tag && e.2.1 = i.ix) }
  match s.testClutch x st faulty with
  | .data _ => fin (s'.redoPassed i)
  | .fail _ => (fin s').rebuildClutch x
  | .header =>
    if !(die && !i.rebuilt) then (fin s').rebuildClutch x
    else if 8 ≤ (s.eft p n).parked.length then s
    else s'.rereadItem p n i x
  | .redo =>
    if s.redoWaits p n i then s
    else match i.redo, s'.redo p n i with
    | none, some t => t
    | _, _ =>
      let s' := { s' with hlt := { s'.hlt with mismatches := s'.hlt.mismatches + 1 } }
      (fin (s'.record 0x0302 (pay 2 st.hdr.tag ++ pay 8 x.lba ++ [0]))).rebuildClutch x

/-- A command that reads nothing: the stand-in for the self-test's items, which belong to no command. -/
def testCmd (x : Clutch) : Cmd := Cmd.new testTag 0 ⟨x.fn, 0x10000, 0, 0, 0, 0, false⟩ .verify x.nsid x.lba 0

/-- Take a read-class item in hand: with its data there it is run; else the die read is queued and the
item parked, at most 8 (R134). A read that finds too few overflow buffers is counted and waits (R142). An item of the self-test does not
start while the test is suspended; its die reads have purpose 5 (R128, R129). -/
def State.takeRead (s : State) (p n : Nat) (want : ItemCls → Bool) (faulty : Bool) : State :=
  let e := s.eft p n
  let cand : Option (Item × State) := match e.run with
    | some i => if want i.cls then some (i, s) else none
    | none => s.takeNear p n want
  match cand with
  | none => s
  | some (i, s1) =>
    let gone (s : State) : State := if i.isTest then s.tested i.ix else s
    if i.isTest && s.testSuspended && e.run.isNone then s
    else
    match (if i.isTest then (s1.clutchOf i.ix).map testCmd else s1.cmd i.tag), s1.clutchOf i.ix with
    | some c, some x =>
      match s1.ns c.nsid with
      | none => gone (if e.run.isSome then s1.stopItem p n else s1)
      | some ns =>
        if x.place = .lost then
          (let s2 := if e.run.isSome then s1.endItem p n else s1
           if i.isTest then gone s2 else s2.readEnd i (.inl .unrecoveredRead))
        else match s.inHand p n i x with
        | some (st, die) =>
          if s.rd (Fd.EFT_PD_OVF_FREE p) < ovfNeed (32 + st.region.length) then
            (if e.noBuf then s else (s.bump (Fd.EFT_PD_OVF_NOBUF p) 1).modEft p n fun e => { e with noBuf := true })
          else if s.slotWaits ns then s
          else
            let s2 := if e.run.isSome then s1 else s1.startItem p n i
            if i.isTest then s2.runTest p n i x st die faulty else s2.runRead p n i c ns x st die faulty
        | none =>
          if 8 ≤ e.parked.length then s
          else (s1.modEft p n fun e => { e with parked := e.parked ++ [i] }).queueDieRead x (eftKey p n)
            (if i.isTest then 5 else if c.kind = .peer && !s.flag Fd.DZL_CFG_PEER_PRIO then 9 else 0)
    | _, _ => gone (if e.run.isSome then s1.stopItem p n else s1)

/-- READ_CLUTCH_ITEM: an idle eft takes its next entry if it is a read clutch, or finishes one that landed. -/
def execReadClutchItem (pond n : Nat) (faulty : Bool) (s : State) : Result :=
  onEft pond n (if s.fenced pond n || s.gated pond then .next s
    else .next (((s.parkOutput pond n).takeRead pond n (· = .read) faulty).concludeRecon))

/-- DIGEST_FEED: as a read item, up to the checks; its plaintext goes to the owner's digest unit (R150). -/
def execDigestFeed (pond n : Nat) (faulty : Bool) (s : State) : Result :=
  onEft pond n (if s.fenced pond n || s.gated pond then .next s else .next ((s.parkOutput pond n).takeRead pond n (· = .digest) faulty))

/-- The stored clutch that an array of bytes holds. -/
def Stored.ofBytes (b : Bytes) (len : Nat) : Stored :=
  let f (a n : Nat) : Nat := leNat ((b.drop a).take n)
  ⟨⟨f 0 2, f 2 1, f 3 1, f 4 4, f 8 4, f 12 4, f 16 8, f 24 4, f 28 2⟩, (b.drop 32).take len⟩

/-- Put bytes over others at an offset. -/
def overlay (off : Nat) (new b : Bytes) : Bytes := b.take off ++ new ++ b.drop (off + new.length)

/-- The stored clutch as its die reads give it: with the bytes that were rebuilt from parity in their places (R221). -/
def State.landed (s : State) (x : Clutch) : Stored :=
  match s.med.pieces.filter fun e => e.1 = x.id with
  | [] => x.stored
  | l => Stored.ofBytes (l.foldl (fun b e => overlay e.2.1 e.2.2 b) (x.stored.hdr.bytes ++ x.stored.region)) x.stored.region.length

/-- DIE_DATA_LANDING: every page of a parked item's clutch has been read. Directly into region B if the eft is idle with an empty
deque; else to the landing area, with a resume entry at the far end of the eft's deque (R134). -/
def execDieDataLanding (pond n clutch : Nat) (s : State) : Result :=
  onEft pond n (
    let e := s.eft pond n
    match e.parked.find? (·.ix = clutch), s.clutchOf clutch with
    | some i, some x =>
      if s.med.ops.any fun o => o.kind = .read && o.unit = clutch && o.eft = eftKey pond n then .next s else
      let st := s.landed x
      let s := s.modEft pond n fun e => { e with parked := e.parked.erase i }
      let s := { s with med := { s.med with pieces := s.med.pieces.filter fun e => e.1 ≠ clutch } }
      if e.run.isNone && e.deque.isEmpty then
        .next ((s.startItem pond n i).modEft pond n fun e => { e with regB := some st })
      else .next ({ s with landing := s.landing ++ [(i.tag, clutch, st)] }.pushItem pond n { i with resume := true })
    | some i, none => .next (if i.isTest then s.modEft pond n fun e => { e with parked := e.parked.erase i } else s)
    | none, _ => .next s)

/-- OVERFLOW_BUFFER_RETURN: the buffers that the eft's ended items held return to its pond's pool, zeroed: nothing of what they held is
kept, and a free buffer is a count (R142, R156). -/
def execOverflowBufferReturn (pond n : Nat) (s : State) : Result :=
  onEft pond n (.next ((s.wr (Fd.EFT_PD_OVF_FREE pond) (min 64 (s.rd (Fd.EFT_PD_OVF_FREE pond) + (s.eft pond n).back.length))).modEft pond n
    fun e => { e with back := [] }))

/-! ## Digest Range (R123, R150, R151) -/

/-- Issue feeds, one per clutch in LBA order, at most 4 clutches ahead of the state. -/
def issueFeeds (s : State) (p n : Nat) (c : Cmd) : Nat → State
  | 0 => s
  | k + 1 =>
    match (s.eft p n).ctx.find? (·.tag = c.tag) with
    | none => s
    | some d =>
      let behind := (c.targets.take d.issued).filter fun t =>
        match s.clutchOf t with
        | some x => decide (c.slba + d.next < x.lba + x.nblk)
        | none => false
      if d.issued < c.targets.length && behind.length < 4 && (s.eft p n).deque.length < 56 then
        let s := s.pushItem p n ⟨.digest, .fn c.fn, c.tag, nth c.targets d.issued 0, false, none, false⟩
        issueFeeds (s.modEft p n fun e => { e with ctx := e.ctx.map fun d => if d.tag = c.tag then { d with issued := d.issued + 1 } else d }) p n c k
      else s

/-- Absorb blocks in LBA order as far as they are at hand: a block no clutch holds is 4,096 zero bytes. The first block that is lost,
or whose feed failed, decides the status (R83, R124). -/
def absorb (xs : List Clutch) (lost : Nat → Bool) (slba : Nat) : Nat → Digest → Digest
  | 0, d => d
  | k + 1, d =>
    let lba := slba + d.next
    match xs.find? fun x => decide (x.lba ≤ lba) && decide (lba < x.lba + x.nblk) with
    | none =>
      if lost lba then { d with fail := some .unrecoveredRead }
      else absorb xs lost slba k { d with next := d.next + 1, msg := d.msg ++ zeros 4096, unwritten := d.unwritten + 1 }
    | some x =>
      if x.place = .lost then { d with fail := some .unrecoveredRead }
      else match d.feeds.find? (·.1 = x.id) with
      | none => d
      | some (_, .inl st) => { d with fail := some st }
      | some (_, .inr b) => absorb xs lost slba k { d with next := d.next + 1, msg := d.msg ++ (b.drop (4096 * (lba - x.lba))).take 4096 }

/-- The 64 B result (R123); algorithm 0 is SHA-256, 1 SHA3-256. -/
def digestResult (alg blocks unwritten : Nat) (msg : Bytes) : Bytes :=
  (if alg = 0 then sha256 msg else sha3of256 msg) ++ leBytes 8 blocks ++ leBytes 8 unwritten ++ zeros 16

/-- DIGEST_ABSORB: the owner absorbs what is at hand and issues further feeds; the last block, or a failure, ends the command, and
its other feeds are cancelled. -/
def execDigestAbsorb (tag : Nat) (s : State) : Result :=
  onTag s tag fun c =>
    match c.owner with
    | none => .next s
    | some k =>
      match (s.eft (k / 32) (k % 32)).ctx.find? (·.tag = tag) with
      | none => .next s
      | some d =>
        let xs := s.known.filter fun x => c.targets.contains x.id
        let d := absorb xs (fun lba => s.xlt.unread.contains (c.nsid, lba)) c.slba (c.nlb - d.next) d
        match d.fail with
        | some st => .next ((s.cancelItems tag).finish c st 0 0 .none)
        | none =>
          if c.nlb ≤ d.next then
            .next (((s.countIo c).cancelItems tag).finish c .success 0 0 (.bytes (digestResult c.off c.nlb d.unwritten d.msg)))
          else
            let s := s.modEft (k / 32) (k % 32) fun e => { e with ctx := e.ctx.map fun x => if x.tag = tag then d else x }
            .next (issueFeeds s (k / 32) (k % 32) c 4)

/-! ## Steals (R135) -/

/-- Take entry `i` from the far end of a victim, for a thief. -/
def State.takeFar (s : State) (vp vn i p n : Nat) : State :=
  let q := (s.eft vp vn).deque
  let ix := q.length - 1 - i
  match q[ix]? with
  | none => s
  | some e => (s.modEft vp vn fun x => { x with deque := x.deque.eraseIdx ix }).modEft p n fun x => { x with deque := [e] }

/-- The longest deque of a pond, unfenced, lowest index on a tie. -/
def State.longest (s : State) (p : Nat) : Option Nat :=
  argMax (fun n => (s.eft p n).deque.length) ((List.range 32).filter fun n => !s.fenced p n)

/-- Fenced efts of a pond with entries that nobody had room for: they are stolen from them (R160). -/
def State.leftBehind (s : State) (p : Nat) : List Nat :=
  (List.range 32).filter fun n => s.fenced p n && !(s.eft p n).deque.isEmpty

/-- The first entry from the far end, among the first `xsteal_scan`, that may leave its pond. -/
def State.crossEntry (s : State) (p v : Nat) : Option Nat :=
  let q := (s.eft p v).deque
  let scan := let x := s.rd Fd.EFT_CTL_XSTEAL_SCAN; if x = 0 then 1 else min x 8
  (List.range (min scan q.length)).find? fun i => match q[q.length - 1 - i]? with | some e => e.cls.crosses | none => false

/-- EFT_STEAL_POLL: an eft with an empty deque tries a steal: in its pond first, then across ponds. What a fenced eft still has goes first
in its pond, and last in another one (R135, R160). -/
def execEftStealPoll (pond n : Nat) (s : State) : Result :=
  onEft pond n (
    if s.fenced pond n || s.gated pond || !(s.eft pond n).deque.isEmpty || !s.flag Fd.EFT_CTL_STEAL_EN then .next s
    else
      match (s.leftBehind pond).head?.or (s.longest pond) with
      | some v =>
        if (s.eft pond v).deque.isEmpty || v = n then cross s else .next ((s.takeFar pond v 0 pond n).bump (Fd.EFT_PD_STEAL_LOCAL_COUNT pond) 1)
      | none => cross s)
where
  cross (s : State) : Result :=
    if !s.flag Fd.EFT_CTL_XSTEAL_EN then .next s
    else
      match (((List.range 7).map fun k => (pond + k + 1) % 8).filter fun q => !s.gated q).findSome? fun q =>
          ((s.longest q).toList ++ s.leftBehind q).findSome? fun v => (s.crossEntry q v).map fun i => (q, v, i) with
      | none => .next s
      | some (q, v, i) => .next ((s.takeFar q v i pond n).bump (Fd.EFT_PD_STEAL_IN_COUNT pond) 1)

/-! ## The GF unit (R152-R154) -/

/-- Bytes of a parity slice's input: one page (R154). -/
def sliceBytes : Nat := 16384

/-- PARITY_SLICE: an eft takes its next entry if it is a parity slice, and with `ends` its running slice ends: P and Q are accumulated
over the 30 inputs of 16 KiB that the DRAM buffer holds, and go back to the buffer for the channel engines. It is device work (R132,
R153, R154). -/
def execParitySlice (pond n : Nat) (ends : Bool) (s : State) : Result :=
  onEft pond n (
    if s.fenced pond n || s.gated pond then .next s
    else
      let s := s.parkOutput pond n
      match (s.eft pond n).run with
      | none => .next (match s.takeNear pond n fun k => k = ItemCls.parity with
        | none => s
        | some (i, s1) => s1.startItem pond n i)
      | some i =>
        if !ends || i.cls ≠ .parity then .next s
        else
          let inputs := s.sliceInputs i.tag i.ix
          let pq := (parityP inputs sliceBytes, parityQ inputs sliceBytes)
          let s := s.modEft pond n fun e => { e with acc := pq.1 ++ pq.2 }
          -- the round of a stripe that was released meanwhile has no use for them
          let due := s.xlt.slices.any fun e => e.1 = i.tag && e.2.1 = i.ix
          .next ((if due then { s with
            med := { s.med with parity := s.med.parity ++ [(i.tag, i.ix, pq.1, pq.2)] }
            xlt := { s.xlt with slices := s.xlt.slices.filter fun e => !(e.1 = i.tag && e.2.1 = i.ix) } } else s).endItem pond n))

/-! ## Repair terms of a rebuild (R132, R153, R154, R230) -/

/-- The page a device term belongs to, and its source: an item names them in one number. -/
def termIx (row pos source : Nat) : Nat := (row * 32 + pos) * 32 + source

/-- Give terms that no eft has to the efts, on the pond of the unit's number or the next one with room (`fuel` of them; assumption 97). -/
def State.placeTerms : Nat → State → State
  | 0, s => s
  | k + 1, s =>
    match s.med.rows.findSome? (fun (o : RowOut) => (o.terms.find? (fun (t : Nat × Nat × Nat) => t.2.2 = 0)).map (fun (t : Nat × Nat × Nat) => (o, t.1))) with
    | none => s
    | some (o, j) =>
      match (((List.range 8).map fun q => (o.unit + q) % 8).filter fun p => !s.gated p).findSome? fun p => (s.pickEft p false).map fun n => (p, n) with
      | none => s
      | some (p, n) =>
        State.placeTerms k ({ s with med := { s.med with rows := s.med.rows.map (fun (r : RowOut) => if r = o then
            { r with terms := r.terms.map (fun (t : Nat × Nat × Nat) => if t.1 = j then (t.1, t.2.1, 1) else t) } else r) } }.pushItem p n
          ⟨.repair, .device, o.unit, termIx o.row o.pos j, false, none, false⟩)

/-- A term of a rebuild: the range it fetched, times its coefficient, is added into the accumulator of the page's item. -/
def State.addDeviceTerm (s : State) (i : Item) (coeff : Nat) (data : Bytes) : State :=
  { s with med := { s.med with rows := s.med.rows.map (fun (o : RowOut) =>
    if o.unit = i.tag && o.terms.any (fun (t : Nat × Nat × Nat) => termIx o.row o.pos t.1 = i.ix) then
      { o with acc := gfAcc coeff o.acc data, terms := o.terms.map (fun (t : Nat × Nat × Nat) =>
          if termIx o.row o.pos t.1 = i.ix then (t.1, t.2.1, 2) else t) }
    else o) } }

/-- The coefficient of a device term; none where its page has gone. -/
def State.termCoeff (s : State) (i : Item) : Option Nat :=
  s.med.rows.findSome? fun o => if o.unit = i.tag then (o.terms.find? fun t => termIx o.row o.pos t.1 = i.ix).map (·.2.1) else none

/-- REPAIR_TERM: an eft takes its next entry if it is a repair term. One of a Reconstruct adds its landed source into the sum its output's
owner holds; one of the firmware's rebuild adds the page `data` it fetched, times its coefficient `coeff`, into the accumulator of the
page being rebuilt; that page comes with the command (R132, R152, R154; DESIGN CHOICE, assumption 134). -/
def execRepairTerm (pond n coeff : Nat) (data : Bytes) (s : State) : Result :=
  onEft pond n (
    if s.fenced pond n || s.gated pond then .next s
    else
      let s := s.parkOutput pond n
      if (s.eft pond n).run.isSome then .next s
      else match s.takeNear pond n fun k => k = ItemCls.repair with
      | none => .next s
      | some (i, s1) =>
        if i.unitWork then
          match s.termCoeff i with
          | none => .next s1
          | some k =>
            if k ≠ coeff || data.length ≠ sliceBytes then .next s
            else .next (((s1.startItem pond n i).addDeviceTerm i coeff data).endItem pond n)
        else match s1.cmd i.tag with
          | none => .next s1
          | some c => .next (((s1.startItem pond n i).addTerm c i.ix).endItem pond n).concludeRecon)

/-! ## Fencing commands -/

/-- EFT_WATCHDOG_EXPIRY: the no-progress count of a running item has reached EFT_WDOG.LIMIT (values below
0x1_0000 act as 0x1_0000): the eft is fenced at once (R159). -/
def execEftWatchdogExpiry (pond n : Nat) (s : State) : Result :=
  onEft pond n (
    if (s.eft pond n).run.isNone then .next s
    else
      let s := s.modEft pond n fun e => { e with noProgress := max 0x10000 (s.rd Fd.EFT_WDOG_LIMIT) }
      .next (s.fenceEft pond n 2))

end Sys2Proof.Machine
end

