-- ==== Sys2Proof/Machine/Peer.lean ====
section
/-! DEFINITION. Peer reads as they are served, Reconstruct, and COMMAND_START, which hands a command whose waits
have cleared to an eft (R94, R133, R304-R311). -/

namespace Sys2Proof.Machine

open Sys2Proof

/-! ## Serving a peer read (R305, R306) -/

/-- Modes in which a read is served or held. -/
def State.servesPeers (s : State) : Bool :=
  s.mode = mServe || s.mode = mDegraded || s.mode = mReadonly || s.mode = mQuiesce

/-- The checks after the mode's, and the clutches a read names. -/
def State.peerChecks (s : State) (r : PeerReq) : Status ⊕ (Ns × Nat × List Clutch) :=
  match s.ns r.nsid with
  | none => .inl .invalidNsOrFormat
  | some n =>
    match n.attached with
    | none => .inl .invalidNsOrFormat
    | some f =>
      let tag := s.rd (Fd.VFM_FN_PEERTAG_VALUE f)
      if tag = 0 || tag ≠ r.peerTag then .inl .accessDenied
      else if r.kind = 1 then
        match s.locBad n r.addr r.gen with
        | some st => .inl st
        | none => match s.clutches.find? fun x => x.nsid = n.nsid && x.zone = locZone r.addr && x.gran = locGran r.addr with
          | none => .inl .invalidField
          | some x =>
            if s.keyTagBad n f r.keyTag then .inl .invalidField
            else if x.place = .lost then .inl .unrecoveredRead else .inr (n, f, [x])
      else if n.nsze < r.addr + r.count then .inl .lbaOutOfRange
      else if s.unwrittenIn n r.addr r.count then .inl .deallocatedBlock
      else if s.keyTagBad n f r.keyTag then .inl .invalidField
      else if s.lostIn n.nsid r.addr r.count then .inl .unrecoveredRead
      else .inr (n, f, s.resolve n r.addr r.count)

/-- Tags of served reads lie above the command tags. -/
def peerTagBase : Nat := 2 ^ 20

/-- Serve a read: its checks, then read items owned by the namespace's function. Without room on its pond it waits. -/
def State.startPeer (s : State) (i : PeerIn) : State :=
  match s.peerChecks i.req with
  | .inl st => s.peerAnswer i st []
  | .inr (n, f, ts) =>
    let tag := leastFree (s.cmds.map (·.tag)) s.cmds.length peerTagBase
    let c := { Cmd.new tag 0 ⟨f, 0x10000, i.port, 0, 0, 0, false⟩ .peer n.nsid (if i.req.kind = 1 then locZone i.req.addr * zoneBlocks else i.req.addr) i.req.count with
      fmt := i.req.kind, loc := i.req.addr, gen := i.req.gen, off := i.req.off, keyTag := i.req.keyTag
      slen := i.source, check := i.tag, targets := ts.map Clutch.id, items := ts.length }
    let s1 := ({ s with cmds := s.cmds ++ [c] }).placeCmd c (c.itemList n)
    if !(s1.cmd tag).any Cmd.started then s
    else { s1 with dzl := { s1.dzl with ins := s1.dzl.ins.map fun (j : PeerIn) =>
        if j.port = i.port && j.source = i.source && j.tag = i.tag then { j with running := true } else j } }

/-- Serve what waits, up to 1,024 reads at once, outside QUIESCE (R306, R307). -/
def State.startPeers (s : State) : State :=
  if s.mode = mQuiesce then s
  else
    let room := 1024 - (s.dzl.ins.filter (·.running)).length
    ((s.dzl.ins.filter fun i => !i.running).take room).foldl (fun (s : State) i =>
      if s.dzl.ins.any (fun j => j.port = i.port && j.source = i.source && j.tag = i.tag && !j.running) then s.startPeer i else s) s

/-! ## Reconstruct (R120, R309-R311) -/

def sourceBad (r : PeerReq) : Bool :=
  1 < r.kind || r.coeff = 0 || 255 < r.coeff || 1023 < r.dev || r.rsvd ≠ 0 || (r.kind = 0 && (r.gen ≠ 0 || r.off ≠ 0))

/-- The key under which a Reconstruct's output is written: checked before its sources, as R310 orders them; one that waits for its media
slot is checked when it starts (R145, R310). -/
def State.outputKeyBad (s : State) (n : Ns) (fn tag : Nat) : Option Status :=
  if s.slotWaits n then none
  else match s.selectKey n fn tag with
  | .inl _ => none
  | .inr st => some st

/-- RECONSTRUCT: the checks of R310 that need no source; then it is queued as a write of one clutch. -/
def execReconstruct (src : Src) (nsid zslba nlb dtype dspec keyTag listLen : Nat) (sources : List PeerReq) (s : State) : Result :=
  hostTagged s src .ioWrite false fun tag q s =>
    withVendorNs s src nsid fun n =>
      if !n.zoned then s.err src .invalidNsOrFormat
      else if nlb = 0 || n.clutch < nlb || sources.isEmpty || 32 < sources.length || listLen ≠ 32 * sources.length ||
        sources.any sourceBad || zslba % zoneBlocks ≠ 0 || hintBad dtype dspec then s.err src .invalidField
      else if n.nsze ≤ zslba then s.err src .lbaOutOfRange
      else if s.keyTagBad n src.fn keyTag then s.err src .invalidField
      else match s.outputKeyBad n src.fn keyTag with
      | some st => (s.noteKey n src.fn keyTag).err src st
      | none =>
        let mine := s.rd (Fd.VFM_FN_PEERTAG_VALUE src.fn)
        let remote := sources.any fun r => !(s.member && r.dev = s.selfId)
        if remote && !s.member then s.err src .peerUnreachable
        else if remote && mine = 0 then s.err src .accessDenied
        else
          let c := { Cmd.new tag q.nextPos src .reconstruct nsid zslba nlb with hint := hintOf dtype dspec, keyTag := keyTag }
          let outs := (List.range sources.length).zip sources |>.map fun (e : Nat × PeerReq) =>
            (⟨0, tag, e.1, { e.2 with count := nlb, fn := src.fn, peerTag := mine }, 0, 0, false, [], none, 0⟩ : PeerOut)
          let used := s.dzl.outs.map (·.tag)
          let tags := (List.range outs.length).foldl (fun (acc : List Nat) _ => acc ++ [leastFree (used ++ acc) (used.length + acc.length) 0]) []
          let outs := (outs.zip tags).map fun (e : PeerOut × Nat) => { e.1 with tag := e.2 }
          { s with dzl := { s.dzl with outs := s.dzl.outs ++ outs } }.addCmd c

/-- Start a Reconstruct: its output item is placed, every peer read is sent at once, and local sources are read like a peer's, without the
link (R132, R309-R311). It waits in its queue while no pond has room for the item, or its slot gets its key. -/
def State.startReconstruct (s : State) (c : Cmd) (n : Ns) : State :=
  if s.slotWaits n then s
  else match s.outputKeyBad n c.fn c.keyTag with
  | some st => (s.noteKey n c.fn c.keyTag).finish c st 0 0 .none
  | none =>
    let s1 := s.placeCmd { c with items := 1 } [c.outItem]
    if !(s1.cmd c.tag).any Cmd.started then s
    else
      let here := (s1.sources c.tag).filter fun o => s1.member && o.req.dev = s1.selfId
      let s := { s1 with dzl := { s1.dzl with ins := s1.dzl.ins ++ here.map fun o => ⟨4, s1.selfId, o.tag, o.req, false⟩ } }
      let s := here.foldl (fun (s : State) o => s.modOut o.tag fun o => { o with sent := true }) s
      ((State.sendOuts 32 s).startPeers).concludeRecon

/-- Start a command by its kind (R94). A mode that has come meanwhile refuses it as it would a new one. -/
def State.startCmd (s : State) (c : Cmd) (n : Ns) : State :=
  match s.modeRefusal ⟨c.fn, c.qid, c.cid, 0, 0, 0, false⟩ c.kind.cls with
  | some st => s.finish c st 0 0 .none
  | none =>
    match c.kind with
    | .orderedWrite => if s.windowBroken c then s.finish c .fenceBroken 0 0 .none else s.startWrite c n
    | .write | .append | .locAppend | .vpw | .writeZeroes => s.startWrite c n
    | .reconstruct => s.startReconstruct c n
    | .peer => s
    | .deallocate => s.startDeallocate c n
    | .dsmNone => s.finish c .success 0 0 .none
    | .read | .compare | .verify => s.startRead c n
    | .readLoc => s.startReadLoc c n
    | .digest => s.startDigest c n
    | .flush =>
      -- with the hold-up failed, its PLACE records reach flash with it (R176)
      (if s.hlt.holdup = 1 then { s with xlt := { s.xlt with placed := s.xlt.nextRec } } else s).finish c .success 0 0 .none
    | .zoneOpen => s.startOpen c n
    | .zoneClose => s.startClose c n
    | .report => s.startReport c n
    | .zoneReset => s.startReset c n
    | .zoneFinish => s.startFinish c n

/-- A stand-in for the namespace of a Flush of all namespaces, which names none. -/
def Ns.none : Ns := ⟨0, true, 0, 1, 0, 0, 0, 0, false, false, Option.none, false, Option.none, false, 0, 0, Option.none⟩

/-- Items of a started command not yet placed, for want of a deque below 56 (R133), or a started Digest Range that a fence has left
without an eft (R160, R163). -/
def State.placeRest (s : State) (c : Cmd) (n : Ns) : State :=
  if c.kind = .digest then (if c.owner.isNone then s.startDigest c n else s)
  else if (c.kind.stores && c.kind ≠ .reconstruct) || c.kind.reads || c.kind = .peer then s.placeCmd c (c.itemList n)
  else s

/-- COMMAND_START: a queued command whose waits have cleared is handed to an eft; a started one has its further items
placed (R94, R133). -/
def execCommandStart (tag : Nat) (s : State) : Result :=
  onTag s tag fun c =>
    if c.started then .next (match s.ns c.nsid with | some n => s.placeRest c n | none => s)
    else if s.waits c then .next s
    else match s.ns c.nsid with
      | some n => .next (s.startCmd c n)
      | none => if c.kind = .flush then .next (s.startCmd c Ns.none) else .next (s.finish c .invalidNsOrFormat 0 0 .none)

end Sys2Proof.Machine
end

