-- ==== Sys2Proof/Machine/Modes.lean ====
section
/-! DEFINITION. QUIESCE and its actions: how one begins, commits, ends and is abandoned; the queue behind it; the
hold of an activation in PROVISION (R42, R45, R110-R112, R253, R254, R385, R389, R396-R398, R531). -/

namespace Sys2Proof.Machine

open Sys2Proof

/-! ## The running action and the queue -/

/-- QCAUSE of an action. -/
def qCause : QAct → Nat
  | .firmware _ => 1
  | .profile _ _ => 2
  | .relock _ => 3

/-- Complete the command of an action, if a command asked for it. -/
def State.settle (s : State) (r : QReq) (st : Status) (dw0 : Nat) : State :=
  match r.src with
  | some src => s.done src st dw0 0 .none
  | none => s

/-- Completion DW0 of an action: a Profile Select gives the profile in use (R389). -/
def State.actDw0 (s : State) : QAct → Nat
  | .profile _ false => s.rd Fd.TOP_PROFILE_ACTIVE
  | _ => 0

def State.setRunning (s : State) (r : Option QReq) (c : Bool) : State :=
  { s with quiesce := { s.quiesce with running := r, committed := c } }

/-- Steps 1 and 2 of a re-lock: STATE RELOCKING, erases suspended (R254). -/
def State.beginRelock (s : State) : State :=
  let s := (({ s with cho := { s.cho with relocking := true } }).suspendErases 4).setChoState sRELOCKING
  -- the root announces the jump to its domain (R302)
  if s.isRoot then { s with dzl := { s.dzl with epoch := (s.dzl.epoch + 1) % 65536, announce := 4 } } else s

/-- An action begins: a profile switch is committed at once, at its step 1 (R42, R389). Where the buffer grows, the
hold-up self-test runs before QUIESCE is left (R510). -/
def State.beginAct (s : State) (r : QReq) : State :=
  let s := (s.setRunning (some r) false).wr Fd.TOP_MODE_QCAUSE (qCause r.act)
  match r.act with
  | .firmware _ => s
  | .relock _ => s.beginRelock
  | .profile k _ =>
    let old := s.rd Fd.XLT_BUF_SIZE
    let s := (s.selectProfile k false).setRunning (some r) true
    if old < s.rd Fd.XLT_BUF_SIZE then { s with pwr := { s.pwr with huStep := 1 } } else s

/-- QUIESCE is left: for the mode it came from, or DEGRADED where a cause stands; then READONLY at end of life, and where PWRFAIL_N has been
found stuck (R396, R531). -/
def State.leaveQuiesce (s : State) : State :=
  let back := s.rd Fd.TOP_MODE_RETURN
  let goal := if s.rd Fd.TOP_MODE_DGCAUSE ≠ 0 then mDegraded else back
  let s := ((s.wr Fd.TOP_MODE_QCAUSE 0).setMode goal (goal = back)).startPeers
  if s.pwr.stuck then s.enterReadonly 3 else if s.xlt.eol then s.enterReadonly 2 else s

/-- The next queued action begins, within the same hold; with none left QUIESCE is left. While STOP is in force
nothing begins: the queue runs when HOLD is left (R42, R397). -/
def State.nextAct (s : State) : State :=
  if s.flag Fd.GK_THERM_STOP then s
  else match s.quiesce.queue with
    | [] => if s.mode = mQuiesce then s.leaveQuiesce else s
    | r :: q => ({ s with quiesce := { s.quiesce with queue := q } }).beginAct r

/-- The running action has ended or been abandoned. -/
def State.endAct (s : State) : State := (s.setRunning none false).nextAct

/-- The part enters QUIESCE from SERVE or DEGRADED; the queued actions run (R110, R396). -/
def State.enterQuiesce (s : State) : State :=
  match s.quiesce.queue with
  | [] => s
  | r :: q =>
    let back := s.mode
    let s := (s.wr Fd.TOP_MODE_QCAUSE (qCause r.act)).setMode mQuiesce false
    let s := s.wr Fd.TOP_MODE_RETURN back
    ({ s with quiesce := { s.quiesce with queue := q, since := s.now } }).beginAct r

/-- Actions queued outside QUIESCE run when the mode is SERVE or DEGRADED (R42, R398). -/
def State.resumeQueue (s : State) : State :=
  if (s.mode = mServe || s.mode = mDegraded) && !s.flag Fd.GK_THERM_STOP && !s.flag Fd.TOP_MODE_FLUSH && !s.pwr.pfHold then s.enterQuiesce else s

/-- Request an action. In QUIESCE, HOLD and SANITIZE it waits; in PROVISION and READONLY a re-lock runs at once, without
QUIESCE (R398), but never into a flush (R246). -/
def State.request (s : State) (r : QReq) : State :=
  let s := match r.src with
    | some src => s.keepTag src
    | none => s
  let s := { s with quiesce := { s.quiesce with queue := s.quiesce.queue ++ [r] } }
  match r.act with
  | .relock _ => if s.mode = mProvision || s.mode = mReadonly then (if s.choState = sFLUSH then s else s.beginRelock) else s.resumeQueue
  | _ => s.resumeQueue

/-! ## Re-locks -/

/-- A re-lock that no command asked for; one is enough (R397). -/
def State.needRelock (s : State) : State :=
  let own (r : QReq) : Bool := (match r.act with | .relock _ => true | _ => false) && r.src.isNone
  if s.quiesce.running.toList.any own || s.quiesce.queue.any own then s else s.request ⟨.relock false, none⟩

def QReq.isRelock (r : QReq) : Bool := match r.act with | .relock _ => true | _ => false

/-- The Group Joins that a test names stop waiting, with a status. -/
def State.endJoins (s : State) (p : JoinWait → Bool) (st : Status) : State :=
  let js := s.dzl.joins.filter p
  js.foldl (fun (s : State) j => s.err j.src st) { s with dzl := { s.dzl with joins := s.dzl.joins.filter fun (j : JoinWait) => !p j } }

def State.anyUp (s : State) : Bool := (List.range 4).any fun p => s.pst p = pUP

/-- A Group Join completes once a port is UP and its re-lock, if any, has switched (R288). -/
def State.joinSettle (s : State) : State := if s.anyUp then s.endJoins (fun j => !j.relock) .success else s

/-- Re-locks that one switch completes: Invalid Field for those whose staged values it discarded (R271, R397). -/
def State.settleRelock (s : State) (refused : Bool) (r : QReq) : State :=
  match r.act with
  | .relock true => s.settle r (if refused then .invalidField else .success) 0
  | _ => s.settle r .success 0

/-- The switch at a beat (R254, R397): it serves the running action and every re-lock queued behind it. -/
def State.relockSwitch (s : State) (beat : Nat) : State :=
  let r := s.choSwitch beat
  let s := r.2
  let queued := s.quiesce.queue.filter QReq.isRelock
  let s := { s with quiesce := { s.quiesce with queue := s.quiesce.queue.filter fun q => !q.isRelock } }
  let s := queued.foldl (fun s q => s.settleRelock r.1 q) s
  let s := ({ s with dzl := { s.dzl with joins := s.dzl.joins.map fun (j : JoinWait) => { j with relock := false } } }).joinSettle
  match s.quiesce.running with
  | some q => if q.isRelock then (s.settleRelock r.1 q).endAct else s
  | none => s

/-- A running re-lock stops. STATE is its caller's, and CHO_CTL.RELOCK stays for one that will start again. -/
def State.haltRelock (s : State) : State :=
  { s with cho := { s.cho with relocking := false }, dzl := { s.dzl with announce := 0, switchSoon := false, switchDue := false } }

/-- STATE after a re-lock that came to nothing (R246). -/
def State.dropRelock (s : State) : State :=
  let s := s.haltRelock
  if s.choState = sFLUSH then s else s.setChoState s.stateBySince

/-- A re-lock is abandoned: its Chorus Control completes with Command Sequence Error. A profile switch keeps its
staged values for a later switch and ends (R253). A Group Join goes on waiting: its staged values apply at the next switch (R288; DEDUCED,
assumption 143). -/
def State.abandonRelock (s : State) : State :=
  let s := s.dropRelock.wr Fd.CHO_CTL_RELOCK 0
  match s.quiesce.running with
  | some r => (if r.isRelock then s.settle r .commandSequence 0 else s.settle r .success (s.actDw0 r.act)).endAct
  | none =>
    -- without QUIESCE, in PROVISION and READONLY
    let l := s.quiesce.queue.filter QReq.isRelock
    l.foldl (fun (s : State) q => s.settle q .commandSequence 0)
      { s with quiesce := { s.quiesce with queue := s.quiesce.queue.filter fun q => !q.isRelock } }

/-! ## Thermal STOP and a stuck PWRFAIL_N (R42, R531) -/

/-- Status of an abandoned action. -/
def abandonStatus : QAct → Status
  | .firmware _ => .fwActivationProhibited
  | _ => .commandSequence

/-- Thermal STOP meets QUIESCE: an action not committed is abandoned; a re-lock goes back to the front of the queue,
its command still outstanding (R42, R253). -/
def State.stopQuiesce (s : State) : State :=
  match s.quiesce.running with
  | none => s
  | some r =>
    if s.quiesce.committed then s
    else if r.isRelock then
      let s := (s.dropRelock).setRunning none false
      { s with quiesce := { s.quiesce with queue := r :: s.quiesce.queue } }
    else
      let s := { s with boot := { s.boot with provHold := false } }
      (s.settle r (abandonStatus r.act) (s.actDw0 r.act)).setRunning none false

/-- The new image of an activation runs and leaves QUIESCE: its slot is confirmed, the commit completes (R112, R381,
R385). In PROVISION fetching resumes. -/
def State.finishActivation (s : State) (r : QReq) (k : Nat) : State :=
  let s := (s.runImage k).confirmSlot k
  let s := { s with boot := { s.boot with provHold := false, actAt := none, pendingSlot := none } }
  (s.settle r .success 0).endAct

/-- The queue behind QUIESCE is let go: each action's command completes as an abandoned one (R253, R531). -/
def State.abandonQueue (s : State) : State :=
  let q := s.quiesce.queue
  let s := { s with quiesce := { s.quiesce with queue := [] } }
  (q.foldl (fun (s : State) r => s.settle r (abandonStatus r.act) (s.actDw0 r.act)) s).wr Fd.CHO_CTL_RELOCK 0

/-- PWRFAIL_N is found stuck in QUIESCE: a committed action finishes, every other is abandoned. A profile switch with staged chorus settings
goes on to its switch (R389, R531). -/
def State.stuckQuiesce (s : State) : State :=
  let s := match s.quiesce.running with
    | none => s
    | some r =>
      match r.act, s.quiesce.committed with
      | .firmware k, true =>
        (({ (s.runImage k).confirmSlot k with boot := { s.boot with actAt := none, provHold := false, pendingSlot := none } }).settle r .success 0).setRunning none false
      | .profile _ _, true => if s.cho.staged.isEmpty then (s.settle r .success (s.actDw0 r.act)).setRunning none false else s.beginRelock
      | a, _ => (s.settle r (abandonStatus a) (s.actDw0 a)).setRunning none false
  let s := s.abandonQueue
  if s.quiesce.running.isSome then s else s.wr Fd.TOP_MODE_QCAUSE 0

/-! ## The commands -/

/-- An admin command that waits for the TRNG, for a signature or for a link is interrupted: it has no further effect. One that waits
for what QUIESCE itself runs, a Group Join with a staged phase among them, and an event request are not (R111, R112, R253; DEDUCED,
assumption 135). -/
def State.interruptHeld (s : State) (src : Src) : State :=
  let s := s.endJoins (fun j => j.src = src && !j.relock) .commandInterrupted
  let waits := s.sec.trngWaits.any (fun o => o.src = some src) || s.sec.attests.any fun a => a.held.contains src
  let s := { s with sec := { s.sec with
    trngWaits := s.sec.trngWaits.filter (fun o => o.src ≠ some src)
    attests := s.sec.attests.map fun (a : Attest) => { a with held := a.held.filter (· ≠ src) } } }
  if waits then s.err src .commandInterrupted else s

/-- QUIESCE_COMMAND_TIMEOUT: a started command, I/O or admin, still running completes with Command Interrupted and stores nothing
(R111). -/
def execQuiesceCommandTimeout (tag : Nat) (s : State) : Result :=
  match s.heldTags.find? (·.2 = tag) with
  | some e => .next (if s.mode = mQuiesce then s.interruptHeld e.1 else s)
  | none => onTag s tag fun c =>
    if s.mode = mQuiesce && c.started then .next ((s.cancelItems tag).finish c .commandInterrupted 0 0 .none).concludeRecon else .next s

/-- FIRMWARE_ACTIVATION: once every started command has completed, the part stops the running image and runs the new
one; `leaves` says whether the new image reaches the end of QUIESCE. An image that no longer passes its check is
refused (R42, R112). -/
def execFirmwareActivation (leaves : Bool) (s : State) : Result :=
  match s.quiesce.running with
  | some ⟨.firmware k, src⟩ =>
    let r : QReq := ⟨.firmware k, src⟩
    if s.flag Fd.TOP_MODE_FLUSH || s.pwr.pfHold || s.boot.fwHang then .next s
    else if s.quiesce.committed then (if leaves then .next (s.finishActivation r k) else .next s)
    else if s.cmds.any (·.started) then .next s
    else if !s.slotOk k then
      .next (({ s with boot := { s.boot with provHold := false } }).settle r .invalidFwImage 0).endAct
    else if leaves then .next ((s.setRunning (some r) true).finishActivation r k)
    else .next { s.setRunning (some r) true with boot := { s.boot with actAt := some s.now } }
  | _ => .next s

/-- ACTIVATION_TIMEOUT: the started image has not left QUIESCE 1 s after it started: CSTS.CFS sets and no further
command is accepted (R385). -/
def execActivationTimeout (s : State) : Result :=
  match s.boot.actAt with
  | none => .next s
  | some _ =>
    let s := { s with boot := { s.boot with fwHang := true } }
    .next (s.allFns.foldl (fun (s : State) n => s.modFn n fun f => { f with cfs := true }) s)

/-- PROFILE_SELECT (R389). -/
def execProfileSelect (src : Src) (profile : Nat) (s : State) : Result :=
  host s src .profile fun s =>
    let cur := s.rd Fd.TOP_PROFILE_ACTIVE
    if src.fn ≠ 0 then s.err src .invalidOpcode
    else if !(s.mode = mServe || s.mode = mDegraded || s.mode = mProvision) then s.err src .commandSequence
    else if 3 < profile then s.err src .invalidField
    else match s.profileOf profile with
      | none => s.err src .invalidField
      | some p =>
        if !s.canReserve (s.capBuffer p.buffer).1 then s.err src .invalidField
        else if profile = cur && s.rd Fd.TOP_PROFILE_SRC ≠ 4 && !s.flag Fd.TOP_PROFILE_MIXED then s.done src .success cur 0 .none
        else if s.mode = mProvision then
          let s := s.selectProfile profile true
          s.done src .success (s.rd Fd.TOP_PROFILE_ACTIVE) 0 .none
        else s.request ⟨.profile profile false, some src⟩

/-- PROFILE_SWITCH_COMPLETE: with the buffer reduced, the switch begins if staged settings differ; with the switch
done, and the hold-up test of a larger buffer ended, the part leaves QUIESCE (R389, R510). -/
def execProfileSwitchComplete (s : State) : Result :=
  match s.quiesce.running with
  | some ⟨.profile k c, src⟩ =>
    if s.bufRoom < s.bufBytes || s.flag Fd.TOP_MODE_FLUSH || s.pwr.pfHold then .next s
    else if s.cho.relocking then .next s
    else if !s.cho.staged.isEmpty then .next s.beginRelock
    else if s.pwr.huStep ≠ 0 then .next s
    else .next (s.settle ⟨.profile k c, src⟩ .success (s.actDw0 (.profile k c))).endAct
  | _ => .next s

end Sys2Proof.Machine
end

