-- ==== Sys2Proof/Machine/Chorus.lean ====
section
/-! DEFINITION. The chorus: beats and trains, acquisition and lock, the switch of a re-lock, Chorus Control, staged
window writes, and what the host sees of the schedule (R238-R257, R265-R271, R297, R302). -/

namespace Sys2Proof.Machine

open Sys2Proof

/-! ## Qualifying a beat (R241, R244) -/

/-- How a beat stands against the reference beat of its train. -/
inductive BeatKind where
  | early | late | qualified (good : Bool)
  deriving DecidableEq, Repr

def classify (period : Nat) (ref : Option Nat) (t : Nat) : BeatKind :=
  match ref with
  | none => .qualified false
  | some r =>
    let d := t - r
    if 2 * d < period then .early
    else if 2 * period < d then .late
    else .qualified (decide ((max d period - min d period) * 10000 ≤ period))

/-- Good beats of a train after a qualified beat: four complete an acquisition, which then stands (R244). -/
def nextGoods (goods : Nat) (good : Bool) : Nat := if 4 ≤ goods then 4 else if good then goods + 1 else 0

/-- A rejected beat counts; more than 64 within 1 s are noise (R241, R243). -/
def State.rejectBeat (s : State) (t : Nat) : State :=
  let l := (s.cho.rejects.filter fun r => decide (t < r + 1000000000)) ++ [t]
  let s := ({ s with cho := { s.cho with rejects := l } }).bump Fd.CHO_STATS_REJECTED 1
  if 64 < l.length && !s.flag Fd.CHO_STATE_NOISY then (s.wr Fd.CHO_STATE_NOISY 1).record 0x0602 [min 255 l.length] else s

/-- The train on CHB_IN, used or not: it decides whether this part's beat is present, and since when: an absence past 1.02 frames ends
its presence, a rejection its clean time (R297). -/
def State.trackPin (s : State) (k : BeatKind) (t : Nat) : State :=
  let s := if s.beatPresent then s else { s with dzl := { s.dzl with beatClean := t } }
  let c := s.cho
  match k with
  | .early => { s with cho := { c with pinGoods := if 4 ≤ c.pinGoods then c.pinGoods else 0 }, dzl := { s.dzl with beatClean := t } }
  | .late => { s with cho := { c with pinRef := some t, pinGoods := 0 }, dzl := { s.dzl with beatClean := t } }
  | .qualified g =>
    let n := nextGoods c.pinGoods g
    { s with cho := { c with pinRef := some t, pinLast := some t, pinGoods := n } }

/-! ## The source in use -/

/-- Offset of a beat: from the nearest start of a local call 0 (R242). -/
def State.beatOffset (s : State) (t : Nat) : Int :=
  let c0 := (s.cho.callStart : Int) - ((s.counter % 256 * s.callNs : Nat) : Int)
  let d := (t : Int) - c0
  if 2 * d ≤ (s.periodNs : Int) then d else d - (s.periodNs : Int)

def offPhase (o : Int) : Bool := decide (25000 < o) || decide (o < -25000)

/-- CHO_BEAT.OFFSET: units of 10 ns, saturating. -/
def State.showOffset (s : State) (o : Int) : State :=
  s.wr Fd.CHO_BEAT_OFFSET ((max (-32767) (min 32767 (o / 10)) % 65536).toNat)

/-- Local time is aligned to a beat and the rest is slewed (R245, R247). -/
def State.slewTo (s : State) (t : Nat) (o : Int) : State :=
  { s with cho := { s.cho with aligned := some t, slew := 8 * o, offphase := 0 } }

/-- A beat of the acquired train during a re-lock: the root announces, then the switch is made if no program runs. A member that has
been told of the switch makes it at the announced beat, not before (R254, R302). -/
def State.relockBeat (s : State) (t : Nat) : State :=
  if !s.cho.relocking || (s.dzl.switchSoon && s.rd Fd.CHO_STATE_SRC_USED = 2) then s
  else
    let more := decide (1 < s.dzl.announce) && s.isRoot
    let s := if s.isRoot then s.rootTime (s.since / 1000000) else s
    if more || s.programRuns then s else s.relockSwitch t

/-- Acquisition is complete, or stands, outside LOCKED (R246, R398). -/
def State.acquired (s : State) (t : Nat) (o : Int) : State :=
  -- during a start local time is adopted when stage 8 ends (R393)
  if s.boot.running && s.rd Fd.TOP_BOOT_STAGE < 9 then s
  else if !offPhase o then ((s.slewTo t o).setChoState sLOCKED)
  else if s.mode = mBoot || s.mode = mProvision || s.mode = mReadonly then s.adoptTime t
  else s.needRelock

/-- The beats of a root with another frame length are never good: the part cannot lock to them (R301). -/
def State.beatMismatch (s : State) : Bool := s.rd Fd.CHO_STATE_SRC_USED = 2 && s.flag Fd.DZL_TIME_FRMISM

/-- A qualified beat of the source in use moves the lock state (R246). -/
def State.lockBeat (s : State) (t : Nat) (good : Bool) (o : Int) : State :=
  let was := s.cho.goods
  let n := if s.beatMismatch then 0 else nextGoods was good
  let s := ({ s with cho := { s.cho with ref := some t, lastQual := some t, goods := n } }).setFlag Fd.CHO_STATE_ACQ (n < 4)
  if s.choState = sFLUSH then s
  else if s.choState = sRELOCKING then (if n = 4 || (s.dzl.switchDue && !s.beatMismatch) then s.relockBeat t else s)
  else if s.choState = sLOCKED then
    if !offPhase o then s.slewTo t o
    else if was < 4 then (if n = 4 then s.acquired t o else s)
    else
      let k := s.cho.offphase + 1
      let g := if k = 1 then 0 else if good then s.cho.offGoods + 1 else 0
      let s := { s with cho := { s.cho with offphase := k, offGoods := g } }
      if k < 3 then s else ({ s with cho := { s.cho with offphase := 0, goods := g } }).wr Fd.CHO_STATE_ACQ 1
  else if n = 4 then s.acquired t o else s

/-- A new train begins with the next beat (R244). -/
def State.newTrain (s : State) : State := { s with cho := { s.cho with ref := none, goods := 0, offphase := 0, offGoods := 0 } }

/-- A beat of the source in use: 1 CHB_IN, 2 Chroeg. Another source starts a new train; one that has only ceased to be used (R245) keeps
its reference beat. An early rejection restarts the count of the train that is being counted, the off-phase one while LOCKED included. -/
def State.useBeat (s : State) (src t : Nat) : State :=
  -- acquisition begins at stage 4 (R393)
  if s.boot.running && s.rd Fd.TOP_BOOT_STAGE < 4 then s else
  let s := if s.cho.refSrc = src then s else ({ s.newTrain with cho := { s.newTrain.cho with refSrc := src } })
  let s := s.wr Fd.CHO_STATE_SRC_USED src
  match classify s.framePeriod s.cho.ref t with
  | .early => ({ s with cho := { s.cho with goods := if 4 ≤ s.cho.goods then 4 else 0, offGoods := 0 } }).rejectBeat t
  | .late => (({ s with cho := { s.cho with ref := some t, goods := 0 } }).wr Fd.CHO_STATE_ACQ 1).rejectBeat t
  | .qualified good =>
    let o := s.beatOffset t
    let s := s.showOffset o
    let s := if offPhase o then
        ({ s with cho := { s.cho with offTotal := s.cho.offTotal + 1 } }).bump Fd.CHO_STATS_OFFPHASE 1
      else s
    let s := s.chbPulse 1 t
    s.lockBeat t good o

/-- The counter at a beat that starts a frame: of the frame whose call 0 lies nearest to it. The running call is the one sleep began in;
the counter never goes back. -/
def State.frameAt (s : State) (t : Nat) : Nat :=
  let into := s.counter % 256 * s.callNs + (t - s.cho.callStart)
  max s.counter ((s.counter / 256 + (2 * into + s.periodNs) / (2 * s.periodNs)) * 256)

/-- In SLEEP and DEEP the gecko counts beats into CHO_COUNTER: each qualified beat is the start of a frame. A locked train that
does not stay qualified keeps no good beats, so that the wake re-locks (R36). The number is recorded at least every
2^20 frames there too (DEDUCED, assumption 145). -/
def State.sleepBeat (s : State) (t : Nat) : State :=
  match classify s.framePeriod s.cho.ref t with
  | .early => ({ s with cho := { s.cho with goods := if 4 ≤ s.cho.goods then 4 else 0 } }).rejectBeat t
  | .late => ({ s with cho := { s.cho with ref := some t, goods := 0 } }).rejectBeat t
  | .qualified good =>
    let s := if s.counter = 0 then s else (s.setCounter (s.frameAt t)).recordFrame
    { s with cho := { s.cho with
      ref := some t
      lastQual := some t
      callStart := t
      callSub := 0
      aligned := if 4 ≤ s.cho.goods then some t else s.cho.aligned
      goods := if s.choState = sLOCKED && s.cho.goods = 0 then 0 else nextGoods s.cho.goods good } }

/-- CHB_IN_BEAT: a rising edge at time `t` that stays high for `width` ns; a pulse shorter than 100 ns is no beat
(R239). -/
def execChbInBeat (t width : Nat) (s : State) : Result :=
  if width < 100 || !s.pwr.on then .next s
  else
    let s := s.at t
    let present := s.beatPresent
    let k := classify s.framePeriod s.cho.pinRef t
    let s := s.trackPin k t
    let s := if s.asleep then s.sleepBeat t
      else if s.pinSource then s.useBeat 1 t
      else match k with
        | .early | .late => s.rejectBeat t
        | .qualified _ => s
    .next (if s.beatPresent ≠ present then s.elect else s)

/-- The train of the source in use is lost: no train is counted until its next beat, with which acquisition starts anew, ACQ reads 0 until then
(DEDUCED, assumption 144), LOCKED becomes HOLDOVER, and a re-lock between its steps 1 and 3 is abandoned (R246, R253, R254). One that still waits
for its first acquisition goes on waiting. -/
def State.loseTrain (s : State) : State :=
  let had := decide (4 ≤ s.cho.goods) || s.dzl.switchSoon || s.dzl.switchDue
  let s := ({ s with cho := { s.cho with goods := 0, offphase := 0, offGoods := 0 } }).wr Fd.CHO_STATE_ACQ 0
  if s.choState = sLOCKED then s.setChoState sHOLDOVER
  else if s.choState = sRELOCKING && had then s.abandonRelock
  else s

/-- BEAT_TIMEOUT: no qualified beat by 1.02 periods after the last one (R246, R297). While a switch is announced the train is the one that
the root's TIME frames announce, at another phase (R302, assumption 126). -/
def execBeatTimeout (t : Nat) (s : State) : Result :=
  let s := s.at t
  let s := if s.beatPresent then s else s.elect
  match s.cho.lastQual with
  | none => .next s
  | some q =>
    let last := if s.dzl.switchSoon then max q (s.dzl.timeAt.getD q) else q
    if (t - last) * 100 < s.framePeriod * 102 then .next s else .next s.loseTrain

/-- HOLDOVER_EXPIRY: SINCE reaches 10 s. -/
def execHoldoverExpiry (t : Nat) (s : State) : Result :=
  let s := s.at t
  if s.choState = sHOLDOVER && decide (10000000000 ≤ s.since) then .next (s.setChoState sDRIFTING) else .next s

/-- DRIFT_EXPIRY: SINCE reaches 60 s: no source is in use any more. -/
def execDriftExpiry (t : Nat) (s : State) : Result :=
  let s := s.at t
  if s.choState = sDRIFTING && decide (60000000000 ≤ s.since) then .next ((s.setChoState 0).wr Fd.CHO_STATE_SRC_USED 0) else .next s

/-- NOISY_CLEAR: 1 s without a rejection. -/
def execNoisyClear (t : Nat) (s : State) : Result :=
  let s := s.at t
  if s.cho.rejects.any fun r => decide (t < r + 1000000000) then .next s
  else .next (({ s with cho := { s.cho with rejects := [] } }).wr Fd.CHO_STATE_NOISY 0)

/-- RELOCK_ACQUISITION_TIMEOUT: a re-lock has waited 4 s without an acquired train (R253). -/
def execRelockAcquisitionTimeout (s : State) : Result :=
  if s.cho.relocking && decide (s.cho.goods < 4) && !s.dzl.switchDue then .next s.abandonRelock else .next s

/-! ## Starting a re-lock (R253, R268, R269, R271) -/

/-- Writing RELOCK starts a re-lock; it reads 1 until the re-lock ends. -/
def State.relockWrite (s : State) : State := (s.wr Fd.CHO_CTL_RELOCK 1).request ⟨.relock false, none⟩

/-- CHO_CTL_RELOCK: the register written back with RELOCK 1; under LOCK its RWL fields are ignored and the write noted (R523). -/
def execChoCtlRelock (requester : Nat) (s : State) : Result :=
  winWrite requester Reg.CHO_CTL (putBits (s.word Reg.CHO_CTL) Fd.CHO_CTL_RELOCK.msb Fd.CHO_CTL_RELOCK.lsb 1) s fun s =>
    (if s.flag Fd.TOP_LOCK_LOCK then s.noteErr requester Reg.CHO_CTL true eLOCKED else s).relockWrite

/-- The staged fields a word of a CHO register gives: key and value. -/
def stagedOf (off v : Nat) : List (Nat × Nat) :=
  if off = Reg.CHO_FRAME then [(0, v % 4)]
  else if off = Reg.CHO_PHASE then [(1, v % 256)]
  else if off = Reg.CHO_CTL then [(2, getBits v 2 2), (3, getBits v 1 0)]
  else (List.range 4).filterMap fun c =>
    if off = Reg.CHO_TURNMAP c then some (4 + c, getBits v 7 0 + 65536 * getBits v 23 16) else none

/-- The value in use of a staged field. -/
def State.stagedNow (s : State) (k : Nat) : Nat :=
  match k with
  | 0 => s.rd Fd.CHO_FRAME_FRAME
  | 1 => s.rd Fd.CHO_PHASE_PHASE
  | 2 => s.rd Fd.CHO_CTL_OVERLAP_EN
  | 3 => s.rd Fd.CHO_CTL_SRC
  | _ => s.turnWord (k - 4)

/-- Hold staged values: one that differs from the value its field would have waits for the next switch. -/
def State.holdStaged (s : State) (l : List (Nat × Nat)) : State :=
  l.foldl (fun (s : State) (e : Nat × Nat) => if s.stagedOr e.1 (s.stagedNow e.1) = e.2 then s else s.stage e.1 e.2) s

/-- A window write to a CHO register with staged fields: they are held and a re-lock starts if one changed; the other
fields follow their access codes. Under LOCK nothing but RELOCK is written (R253, R271, R523). -/
def State.stagedWrite (s : State) (r off v : Nat) : State :=
  if s.flag Fd.TOP_LOCK_LOCK then
    let s := s.noteErr r off true eLOCKED
    if off = Reg.CHO_CTL && v.testBit 30 then s.relockWrite else s
  else
    let old := s.word off
    let s := if off = Reg.CHO_CTL then s.setWord off (putBits (putBits old 9 8 (getBits v 9 8)) 5 4 (getBits v 5 4)) else s
    let before := s.cho.staged
    let s := s.holdStaged (stagedOf off v)
    let s := if s.cho.staged ≠ before then s.needRelock else s
    if off = Reg.CHO_CTL && v.testBit 30 then s.relockWrite else s

/-- STAGED_FIELD_WRITE (R271). -/
def execStagedFieldWrite (requester offset value : Nat) (s : State) : Result :=
  winWrite requester offset value s fun s =>
    if (stagedOf offset value).isEmpty then s else s.stagedWrite requester offset (value % 2 ^ 32)

/-- Chorus Control is refused in HOLD, SANITIZE and READONLY, and to a VF (R113, R269). -/
def chorusCmd (s : State) (src : Src) (k : State → State) : Result :=
  host s src .vendor fun s =>
    if s.mode = mHold || s.mode = mSanitize || s.mode = mReadonly then s.err src .commandSequence else k s

/-- The turns of a parameter block. -/
def blockTurns (b : Bytes) : List (Nat × Nat) := (List.range 4).map fun c => ((nth b (4 + 2 * c) 0).toNat, (nth b (5 + 2 * c) 0).toNat)

/-- A field of the block at an offset. -/
def blockField (b : Bytes) (off n : Nat) : Nat := leNat ((b.drop off).take n)

/-- A parameter block is valid: ranges, reserved fields, and the turn-map rule with the BASE and MARGIN it sets. -/
def State.chorusOk (s : State) (b : Bytes) : Bool :=
  let f := blockField b 2 1
  let margin := blockField b 14 1
  let base := blockField b 16 4
  let t := (s.wr Fd.CHO_GUARD_MARGIN margin).wr Fd.CHO_GUARD_BASE base
  b.length = 64 && blockField b 0 1 < 4 && f < 128 && blockField b 3 1 = 0 && blockField b 15 1 = 0 && (b.drop 20).all (· = 0) &&
    decide (64 ≤ blockField b 12 2) && decide (blockField b 12 2 ≤ 2048) && decide (margin ≤ 50) && decide (1000 ≤ base) &&
    decide (base ≤ 65535) && t.turnMapOk (blockField b 0 1) (f.testBit 0) (blockTurns b)

/-- The staged values of a block. -/
def blockStaged (b : Bytes) : List (Nat × Nat) :=
  let f := blockField b 2 1
  [(0, blockField b 0 1), (1, blockField b 1 1), (2, f % 2), (3, getBits f 2 1)] ++
    (List.range 4).map fun c => (4 + c, (nth b (4 + 2 * c) 0).toNat + 65536 * (nth b (5 + 2 * c) 0).toNat)

/-- The unstaged values wait for the frame boundary: CHBOUT (0), UNLOCKED_POL (1), TOKENS (2), MARGIN (3), BASE (4). -/
def blockUnstaged (b : Bytes) : List (Nat × Nat) :=
  let f := blockField b 2 1
  [(0, getBits f 4 3), (1, getBits f 6 5), (2, blockField b 12 2), (3, blockField b 14 1), (4, blockField b 16 4)]

/-- CHORUS_CONTROL_APPLY: the whole block is checked first; staged fields that differ run a re-lock, after which the
command completes (R268, R269). -/
def execChorusControlApply (src : Src) (block : Bytes) (s : State) : Result :=
  chorusCmd s src fun s =>
    if !s.chorusOk block then s.err src .invalidField
    else
      let diff := (blockStaged block).any fun (e : Nat × Nat) => s.stagedNow e.1 ≠ e.2
      let s := { s with cho := { s.cho with unstaged := blockUnstaged block } }
      let s := s.holdStaged (blockStaged block)
      if diff then s.request ⟨.relock true, some src⟩ else s.ok src

/-- CHORUS_CONTROL_RELOCK: action 01h, even within the slew window (R253). It carries no block: its length is 0 (R121). -/
def execChorusControlRelock (src : Src) (s : State) (len : Nat := 0) : Result :=
  chorusCmd s src fun s => if len ≠ 0 then s.err src .invalidField else s.request ⟨.relock false, some src⟩

/-! ## Reporting (R265-R267) -/

/-- The 128 bytes of log page 0xC1. -/
def State.chorusPage (s : State) : Bytes :=
  let pend := s.cho.relocking || s.quiesce.queue.any QReq.isRelock
  leBytes 8 s.counter ++ [byte s.choState, byte (s.rd Fd.CHO_STATE_SRC_USED), byte (s.rd Fd.CHO_FRAME_FRAME), byte (s.rd Fd.CHO_PHASE_PHASE)]
    ++ leBytes 4 s.callNs ++ leBytes 4 s.guardNs ++ leBytes 4 (min 0xFFFFFFFF (s.since / 1000000)) ++ leBytes 2 s.tokens
    ++ [byte (bitsOf [s.flag Fd.CHO_CTL_OVERLAP_EN, pend, s.flag Fd.CHO_CTL_PENDING, s.flag Fd.CHO_STATE_NOISY]), byte s.loudNow]
    ++ zeros 4
    ++ (List.range 4).flatMap (fun c =>
        [byte (s.rd (Fd.CHO_TURNMAP_START c)), byte (s.rd (Fd.CHO_TURNMAP_LEN c)), byte (s.usedChoirs.contains c).toNat] ++ zeros 5
        ++ leBytes 8 (s.nextTurn c))
    ++ leBytes 8 s.cho.lastSwitch ++ leBytes 4 s.cho.switches ++ leBytes 4 (min 0xFFFFFFFF s.cho.offTotal) ++ zeros 16

def execGetLogPageChorusSchedule (src : Src) (rae : Bool) (s : State) : Result :=
  host s src .logPage fun s => (s.logRead src.fn 0xC1 rae).done src .success 0 0 (.bytes s.chorusPage)

/-- Dies of a choir in service. -/
def State.diesOf (s : State) (c : Nat) : Nat := sumNat ((List.range 64).map fun ch => (s.lunsOf ch c).length)

/-- The window of a set: 0 not enabled, 1 deterministic, 2 non-deterministic. -/
def State.plmWindow (s : State) (c : Nat) : Nat :=
  if !s.usedChoirs.contains c then 0 else if s.inTurn c then 2 else 1

/-- ns to the next window change of a choir. -/
def State.windowLeft (s : State) (c : Nat) : Nat :=
  let into := (s.ecall + 256 - s.rd (Fd.CHO_TURNMAP_START c)) % 256
  let len := s.rd (Fd.CHO_TURNMAP_LEN c)
  let calls := if into < len then len - into else 256 - into
  calls * s.callNs - min (calls * s.callNs) (s.now - s.cho.callStart)

/-- The fields of R265 for a set: status, DTWIN Time Maximum, NDWIN Time Minimum High and Low, DTWIN Reads Typical,
DTWIN Writes Typical, and the time to the next change in ns. -/
def State.plmLog (s : State) (c : Nat) : List Nat :=
  let quiet := 256 - s.rd (Fd.CHO_TURNMAP_LEN c)
  let nd := ceilDiv (s.rd (Fd.CHO_TURNMAP_LEN c) * s.callNs) 1000000
  [s.plmWindow c, quiet * s.callNs / 1000000, nd, nd, s.diesOf c * (quiet * s.callNs / s.tReadTyp),
   s.tokTotal * s.frameMs / 16 * quiet / 256, s.windowLeft c]

/-- GET_LOG_PAGE_PREDICTABLE_LATENCY of a set, 1 to 4 (R265). Reporting is what Predictable Latency Mode Config enables: until the function
has enabled the set, its page says so and is 0 (R266, assumption 125). -/
def execGetLogPagePredictableLatency (src : Src) (set : Nat) (rae : Bool) (s : State) : Result :=
  host s src .logPage fun s =>
    if set = 0 || 4 < set then s.err src .invalidField
    else (s.logRead src.fn 0x0A rae).done src .success 0 0
      (.latency (if (s.fn src.fn).plmOn.contains set then s.plmLog (set - 1) else List.replicate 7 0))

def execGetLogPagePlmEventAggregate (src : Src) (rae : Bool) (s : State) : Result :=
  host s src .logPage fun s =>
    let l := (s.fn src.fn).plmPend
    let s := if rae then s else s.modFn src.fn fun f => { f with plmPend := [] }
    (s.logRead src.fn 0x0B rae).done src .success 0 0 (.setEvents l)

/-- SET_FEATURES_PLM_CONFIG of a set: reporting and events on or off (R266). -/
def execSetFeaturesPlmConfig (src : Src) (set : Nat) (enable : Bool) (s : State) : Result :=
  host s src .setFeat fun s =>
    if set = 0 || 4 < set then s.err src .invalidField
    else (s.modFn src.fn fun f => { f with plmOn := (f.plmOn.filter (· ≠ set)) ++ (if enable then [set] else []) }).ok src

def execSetFeaturesPlmWindow (src : Src) (s : State) : Result :=
  host s src .setFeat fun s => s.err src .featureNotChangeable

def execGetFeaturesPlmWindow (src : Src) (set : Nat) (s : State) : Result :=
  host s src .getFeat fun s =>
    if set = 0 || 4 < set then s.err src .invalidField else s.done src .success (s.plmWindow (set - 1)) 0 .none

/-- IDENTIFY_NVM_SET_LIST: four sets, set c + 1 for choir c (R265). -/
def execIdentifyNvmSetList (src : Src) (s : State) : Result :=
  host s src .identify fun s => s.done src .success 0 0 (.sets ((List.range 4).map fun c => (c + 1, c, s.usedChoirs.contains c)))

end Sys2Proof.Machine
end

