-- ==== Sys2Proof/Machine/Rounds.lean ====
section
/-! DEFINITION. What the firmware hands the channel engines: spawn segments and their units, rounds member by member with their parity
slices, folds, moves, merges, compactions and erases (R168, R169, R180-R188, R193, R195, R198). -/

namespace Sys2Proof.Machine

open Sys2Proof

/-! ## Spawn segments (R182-R185) -/

/-- The share grows by one segment's blocks while it stands below its target (R183, R185). -/
def State.growShare (s : State) (c : Nat) : State :=
  if nth s.xlt.spawnBlocks c 0 + 16 ≤ s.shareTarget then (s.addErased c 16).refreshXlt else s

/-- A new segment of 16 blocks on 16 distinct channels, from erased blocks of the share: those of lowest wear that SLC mode may still
use (R182, R185). -/
def State.newSeg (s : State) (c : Nat) : Option (Nat × State) :=
  let id := s.xlt.nextSeg
  let slot := leastFree (s.xlt.segs.map (·.slot)) s.xlt.segs.length 0
  let ms := s.members c false true (s.segChannels c id 16)
  if ms.length < 16 then none
  else
    let s := (s.journal .bind ([id, 0, 0, c] ++ ms.map Member.word)).takeBlocks c 4 slot ms
    let s := { s with xlt := { s.xlt with
      nextSeg := id + 1
      segs := s.xlt.segs ++ [(⟨id, c, ms, 0, false, false, slot⟩ : Segment)]
      spawnErased := setNth s.xlt.spawnErased c (nth s.xlt.spawnErased c 0 - 16) } }
    some (id, s.refreshXlt)

/-- The queued program of a segment's unit, while it can still take more. -/
def DieOp.opens (o : DieOp) (seg u purpose : Nat) : Bool :=
  o.kind = .program && o.slc && o.unit = seg && o.row = u && o.purpose = purpose && o.st = 0 && !o.carries.isEmpty

/-- Where the next clutch for a kind of program begins in a segment: behind the last one while the program of that unit has not
started; else at the next unit. -/
def State.segNext (s : State) (h : Segment) (purpose : Nat) : Nat :=
  if h.used % slcGranules = 0 || s.med.ops.any (·.opens h.id (h.used / slcGranules) purpose) then h.used
  else (h.used / slcGranules + 1) * slcGranules

/-- Programs that may use the blocks of the flush reserve: the flush, and the moves home of what it has written (R184, R198). -/
def usesReserve (purpose : Nat) : Bool := purpose = 4 || purpose = 12

/-- The segment a clutch of `g` granules is programmed into: the head of the share, else a new one. Staging and folds never use the
reserve's blocks, and staging keeps to the share's limit (R180, R184). -/
def State.segFor (s : State) (c g purpose : Nat) : Option (Nat × State) :=
  match s.headSeg c with
  | some h => if s.segNext h purpose + g ≤ s.segGranules then some (h.id, s) else fresh
  | none => fresh
where
  fresh : Option (Nat × State) :=
    let s := if usesReserve purpose || s.reserveShare + 16 ≤ nth s.xlt.spawnErased c 0 then s else s.growShare c
    let have' := if usesReserve purpose then nth s.xlt.spawnErased c 0
      else if purpose = 1 then s.stageBlocks c else nth s.xlt.spawnErased c 0 - s.reserveShare
    if 16 ≤ have' then s.newSeg c else none

/-- Queue the program of a segment's unit; with the last of 15 units that stand side by side goes the P unit over them (R182). -/
def State.queueUnit (s : State) (g : Segment) (u purpose : Nat) (carries : List (Nat × Nat)) : State :=
  let op (m : Member) : DieOp := s.progOp m.ch g.choir m.lun m.block u purpose g.id true
  let m := nth g.blocks (u % 15) ⟨0, 0, 0, 0, 0⟩
  let s := s.queueOp { op m with carries := carries }
  if u % 15 = 14 then s.queueOp (op (nth g.blocks 15 ⟨0, 0, 0, 0, 0⟩)) else s

/-- Queue the programs that carry a clutch into a segment, and, for a copy, the reads of its source (R186, R198). -/
def State.queueSpawn (s : State) (x : Clutch) (seg purpose : Nat) : State :=
  match s.seg seg with
  | none => s
  | some g =>
    let p := s.segNext g purpose
    let us := (List.range ((p + x.ngran - 1) / slcGranules + 1 - p / slcGranules)).map (p / slcGranules + ·)
    let s := us.foldl (fun (s : State) u =>
      match s.med.ops.find? (·.opens seg u purpose) with
      | some o => s.modOp o.id fun o => { o with carries := o.carries ++ [(x.id, p)] }
      | none => s.queueUnit g u purpose [(x.id, p)]) s
    let s := s.modSeg seg fun h => { h with used := p + x.ngran }
    if purpose = 3 || purpose = 12 then
      ({ s with xlt := { s.xlt with copies := s.xlt.copies ++ [(x.id, seg, p)] } }).queueReads x 256 15 (us.map fun u => (seg, u))
    else s

/-- Program a clutch into a choir's share, where that has room. -/
def State.putSpawn (s : State) (c : Nat) (x : Clutch) (purpose : Nat) : Option State :=
  (s.segFor c x.ngran purpose).map fun r => r.2.queueSpawn x r.1 purpose

/-! ## The share a clutch is flushed to (R196, R233) -/

/-- The channel of the next unit of a choir's share is free: in service, and its die idle. -/
def State.shareFree (s : State) (c : Nat) : Bool :=
  match s.headSeg c with
  | none => true
  | some h =>
    let m := nth h.blocks (s.segNext h 4 / slcGranules % 15) ⟨64, 0, 0, 0, 0⟩
    !(s.med.held.any fun (e : Nat × Nat) => e.1 = m.ch) &&
      !s.med.ops.any fun o => o.ch = m.ch && o.ce = c && o.lun = m.lun && (o.st = 1 || o.st = 2)

/-- Its own choir's share where that share's channels are free, any share otherwise; busy ones last. -/
def State.flushPut (s : State) (x : Clutch) : Option State :=
  let own := (s.homeChoir x).toList
  let all := own ++ s.usedChoirs.filter fun c => !own.contains c
  (all.filter s.shareFree ++ all.filter fun c => !s.shareFree c).findSome? fun c => s.putSpawn c x 4

/-- A program of a segment's unit is lost with its block: its clutches are programmed elsewhere. Those of a flush go to other segments
at once; staged, folded and homebound ones are still at their source and are handed over again (R227, R229, R233). -/
def State.reput (s : State) (o : DieOp) : State :=
  o.carries.foldl (fun (s : State) (e : Nat × Nat) =>
    let s := { s with
      med := { s.med with ops := s.med.ops.map fun (p : DieOp) =>
        if p.kind = DieKind.program && p.slc && p.purpose = o.purpose then { p with carries := p.carries.filter fun x => x.1 ≠ e.1 } else p }
      xlt := { s.xlt with
        copies := s.xlt.copies.filter fun x => x.1 ≠ e.1
        works := s.xlt.works.filter fun w => w ≠ Work.home o.ce e.1 } }
    if o.purpose = 4 then
      match s.clutches.find? (·.id = e.1) with
      | some x => (s.flushPut x).getD { s with xlt := { s.xlt with flushCut := true } }
      | none => s
    else s) s

/-! ## Rounds, member by member (R169, R180, R193) -/

/-- What a round reads from flash before it is programmed: clutches of it that lie in the spawn, those being copied to the stripe, and,
for a move, those of the source. Clutch and place in the stripe. -/
def State.roundSources (s : State) (t : Stripe) : List (Clutch × Nat) :=
  (if t.state = 6 then [] else (s.ownData t).filter fun e => match e.1.place with | .spawn _ => true | _ => false) ++ s.copiedData t

/-- A round begins: its parity slices, one for each row that carries data, and the reads of its sources (R154, R169). -/
def State.beginRound (s : State) (t : Stripe) (r : Nat) : State :=
  let rows := (List.range s.roundRows).map (r * s.roundRows + ·)
  let s := if s.computes t then
      { s with xlt := { s.xlt with slices := s.xlt.slices ++ (rows.filter fun w => decide (w < dataRows)).map fun w => (t.seq, w, false) } }
    else s
  let g := s.roundGranules
  ((s.roundSources t).filter fun e => decide (e.2 < (r + 1) * g) && decide (r * g < e.2 + e.1.ngran)).foldl
    (fun (s : State) e => s.queueReads e.1 256 15 [(t.seq, r)]) s

/-- A member waits for a new block: its rebuild, or the copy of its rows for a torn round's sake. -/
def State.awaits (s : State) (t : Stripe) (m : Member) : Bool :=
  m.status ≠ 0 || s.med.rebuilds.any fun (r : Rebuild) => r.kind ≠ 1 && r.id = t.seq && t.members[r.pos]? = some m

/-- Queue a member's program of a round, unless it holds that round already or waits for a new block. -/
def State.queueMember (s : State) (t : Stripe) (m : Member) (r purpose : Nat) : State :=
  if s.awaits t m || decide (r < m.units) then s
  else s.queueOp (s.progOp m.ch t.choir m.lun m.block r purpose t.seq false)

/-- The next member program of a stripe, in row order. P and Q follow once their slices are computed. -/
def State.handNext (s : State) (t : Stripe) (purpose : Nat) : State :=
  let r := t.handed / 32
  let k := t.handed % 32
  let s := s.modStripe t.seq fun t => { t with handed := t.handed + 1 }
  let s := if k = 0 then s.beginRound t r else s
  match t.members[k]? with
  | some m => if s.computes t && (k = parityPos t.seq || k = parityPos t.seq + 1) then s else s.queueMember t m r purpose
  | none => s

/-- Hand over `n` member programs of a stripe. -/
def State.handMany (q purpose : Nat) : Nat → State → State
  | 0, s => s
  | n + 1, s => match s.stripe q with
    | some t => State.handMany q purpose n (s.handNext t purpose)
    | none => s

/-- The P and Q programs of a stripe's next round whose slices are all computed (R154). -/
def State.handParity (s : State) (t : Stripe) : State :=
  if !s.computes t || t.handed ≤ 32 * t.pq || s.xlt.slices.any (fun e => e.1 = t.seq && e.2.1 / s.roundRows = t.pq) then s
  else
    let p := if t.state = 6 then 3 else 2
    let pq := [parityPos t.seq, parityPos t.seq + 1].filterMap fun k => t.members[k]?
    (pq.foldl (fun (s : State) m => s.queueMember t m t.pq p) s).modStripe t.seq fun t => { t with pq := t.pq + 1 }

/-- Queue an operation ahead of the queued programs of its stripe (R230). -/
def State.queueFirst (s : State) (o : DieOp) : State :=
  let early := s.med.ops.takeWhile fun (p : DieOp) => !(p.kind = .program && !p.slc && p.unit = o.unit && p.st = 0)
  { s with med := { s.med with
    ops := early ++ [{ o with id := s.med.nextOp }] ++ s.med.ops.drop early.length
    nextOp := s.med.nextOp + 1 } }

/-- A member is back in service: the programs its stripe has handed over and it lacks are queued for it, from the buffer, ahead of any other
program of that stripe (R227, R230). -/
def State.requeueMember (s : State) (q k : Nat) : State :=
  match s.stripe q with
  | none => s
  | some t => match t.members[k]? with
    | none => s
    | some m =>
      let par := s.computes t && (k = parityPos q || k = parityPos q + 1)
      let upTo := if par then t.pq else (t.handed + 31 - k) / 32
      if s.awaits t m then s
      else (List.range (upTo - m.units)).reverse.foldl (fun (s : State) i =>
        s.queueFirst (s.progOp m.ch t.choir m.lun m.block (m.units + i) (if t.state = 6 then 3 else 2) t.seq false)) s

/-- Parity slices that no eft has go to the unfenced eft with the fewest entries: of the pond of the stripe's number, or the next one
with room (assumption 97). -/
def State.placeSlices (s : State) : State :=
  (s.xlt.slices.filter fun e => !e.2.2).foldl (fun (s : State) (e : Nat × Nat × Bool) =>
    match (((List.range 8).map fun k => (e.1 + k) % 8).filter fun p => !s.gated p).findSome? fun p => (s.pickEft p false).map fun n => (p, n) with
    | some (p, n) =>
      ({ s with xlt := { s.xlt with slices := s.xlt.slices.map fun x => if x = e then (e.1, e.2.1, true) else x } }).pushItem p n
        ⟨.parity, .device, e.1, e.2.1, false, none, false⟩
    | none => s) s

/-! ## Erases (R177) -/

/-- Blocks of a released unit: a stripe, a segment, or a block of its own. -/
def State.unitBlocks (s : State) (unit : Nat) : List Member × Bool :=
  match s.stripe unit with
  | some t => (t.members, false)
  | none => match s.seg unit with
    | some g => (g.blocks, true)
    | none =>
      let k := (unit - 2 ^ 60) / 2
      if unit < 2 ^ 60 then ([], false) else ([⟨k / 8192 / 32, k / 8192 % 8, k % 8192, 0, 0⟩], unit % 2 = 1)

/-- A unit whose blocks are all erased leaves the release list; its stripe entry or segment is gone (R68, R177). -/
def State.unitErased (s : State) (unit : Nat) : State :=
  if s.med.ops.any fun x => x.kind = .erase && x.unit = unit then s
  else match s.xlt.released.find? fun (e : Nat × Nat × Nat × Nat) => e.2.1 = unit with
  | none => s
  | some e =>
    let s := s.journal .erased [unit]
    let s := { s with xlt := { s.xlt with
      released := s.xlt.released.filter (fun (x : Nat × Nat × Nat × Nat) => x ≠ e)
      stripes := s.xlt.stripes.filter (fun (t : Stripe) => t.seq ≠ unit)
      segs := s.xlt.segs.filter (fun (g : Segment) => g.id ≠ unit)
      works := s.xlt.works.filter fun w => w ≠ Work.erase e.1 unit } }
    s.refreshXlt

/-! ## Reclaim work (R186, R188, R193, R195, R198) -/

/-- A fold goes on by one program: a round that is complete and holds a clutch of the segment is programmed to its stripe, member by member
in row order; a clutch of a partial round is copied to the head of the same share (R186). -/
def State.foldNext (s : State) (c g : Nat) : Option State :=
  (s.segClutches g).findSome? fun x =>
    match s.stripeOf x with
    | none => none
    | some t =>
      let r := (x.posIn + x.ngran - 1) / s.roundGranules
      if r < s.completeRounds t then (if t.handed < 32 * (r + 1) then some (s.handNext t 14) else none)
      else if (s.copyOf x.id).isSome then none
      else s.putSpawn c x 3

/-- A copy destination of a choir with member programs still to be handed over. Wear levelling pauses at levels 2 and 3 (R189, R195). -/
def State.copyUnderway (s : State) (c : Nat) : Option Stripe :=
  s.xlt.stripes.find? fun t => t.choir = c && t.state = 6 && decide (t.handed < 32 * s.copyRounds t) &&
    (s.computes t || decide (s.rd (Fd.XLT_FREE_LEVEL c) < 2))

/-- A log stripe that takes the copies of a compaction, with complete rounds still to be handed over (R188). -/
def State.compactUnderway (s : State) (c : Nat) : Option Stripe :=
  s.xlt.stripes.find? fun t => t.choir = c && t.state = 4 && decide (t.handed < 32 * s.completeRounds t) &&
    s.xlt.copies.any fun e => e.2.1 = t.seq

/-- The next program of a copy that runs in a choir: of a fold, a move or merge, a compaction. -/
def State.copyNext (s : State) (c : Nat) : Option State :=
  match s.xlt.works.findSome? fun w => match w with | .fold d g => if d = c then s.foldNext c g else none | _ => none with
  | some s' => some s'
  | none => match s.copyUnderway c with
    | some t => some (s.handNext t 3)
    | none => (s.compactUnderway c).map fun t => s.handNext t 14

/-- A compaction begins: each live slot of the log stripe gets one at the log head. What is still in the buffer or the spawn only
changes its slot; what lies on the stripe is copied. The head's round is closed behind it. -/
def State.startCompact (s : State) (c q : Nat) : State :=
  let s := (s.clutches.filter (·.log = q)).foldl (fun (s : State) x =>
    let r := s.logSlot c
    if x.place = .log q then { r.2.2 with xlt := { r.2.2.xlt with copies := r.2.2.xlt.copies ++ [(x.id, r.1, r.2.1)] } }
    else { r.2.2 with clutches := r.2.2.clutches.map fun (y : Clutch) => if y.id = x.id then { y with log := r.1, slot := r.2.1 } else y }) s
  s.closeLogRound c

/-- Begin picked work. A move's destination takes the blocks of the highest wear and keeps the zone's lifetime class (R53, R195). -/
def State.giveWork (s : State) (w : Work) : State :=
  if s.xlt.works.contains w then s
  else
    let begun (s : State) : State := { s with xlt := { s.xlt with works := s.xlt.works ++ [w] } }
    match w with
    | .releaseErased c => (s.dropErased c 1).refreshXlt
    | .fold _ g => (begun s).modSeg g fun h => { h with folding := true }
    | .compact c q => (begun s).startCompact c q
    | .wlMove c q => match s.stripe q with
      | some t => begun (s.newStripe c t.cls true 6 t.nsid t.zone q).2
      | none => s
    | .merge c nsid k =>
      let old := (s.xlt.stripes.find? fun t => t.nsid = nsid && t.zone = k && t.state = 3).map (·.seq)
      let r := s.newStripe c 1 false 6 nsid k (old.getD 0)
      let xs := s.clutches.filter fun x => x.nsid = nsid && x.zone = k && x.place ≠ .lost
      begun { r.2 with xlt := { r.2.xlt with copies := r.2.xlt.copies ++ xs.map fun x => (x.id, r.1, x.gran) } }
    | .home c id => match s.clutches.find? (·.id = id) with
      | some x => match s.putSpawn c x 12 with | some s' => begun s' | none => s
      | none => s
    | .erase c u =>
      let b := s.unitBlocks u
      -- of a unit handed over before the last start, the blocks erased since are free
      let ms := b.1.filter fun m => s.dieUp m.ch c m.lun && (s.block (m.key c)).state = 1
      let s := ms.foldl (fun (s : State) m => s.queueOp (eraseOp m.ch c m.lun m.block u b.2)) (begun s)
      if ms.isEmpty then s.unitErased u else s

end Sys2Proof.Machine
end

