-- ==== Sys2Proof/Machine/Rebuild.lean ====
section
/-! DEFINITION. Spares, the Autotomy Record, the members of stripes and segments, lost rows, what a REMAP record commits, and the rebuild of
lost members (R88, R153, R175, R186, R188, R193, R198, R222, R227-R237). -/

namespace Sys2Proof.Machine

open Sys2Proof

/-! ## Spares (R232) -/

/-- Healthy blocks of a choir: on dies in service, and not bad. -/
def State.healthy (s : State) (c : Nat) : Nat :=
  s.diesOf c * s.med.blocksPerDie -
    (s.xlt.blocks.filter fun (e : Nat × Block) => e.1 / 8192 / 8 % 4 = c && e.2.state = 6 &&
      s.dieUp (e.1 / 8192 / 32) c (e.1 / 8192 % 8)).length

/-- Log stripes of each used choir (R88). -/
def logStripes : Nat := 64

def State.spareCalc (s : State) (c : Nat) : Nat :=
  if !s.usedChoirs.contains c then 0
  else s.healthy c - (32 * nth s.xlt.nc c 0 + 32 * logStripes + 4 * s.diesOf c + s.shareFloor)

/-- The spare counts and MED_SPARE follow. -/
def State.refreshSpares (s : State) : State :=
  let l := (List.range 4).map s.spareCalc
  (List.range 4).foldl (fun (s : State) c => s.wr (Fd.MED_SPARE_COUNT c) (nth l c 0)) { s with xlt := { s.xlt with spares := l } }

/-- The flush reserve cannot be held: end of life (R38, R184). -/
def State.checkReserve (s : State) : State :=
  if !s.xlt.restored || s.canReserve (s.rd Fd.XLT_BUF_SIZE) then s else s.endOfLife

/-! ## Autotomy Record (R234-R236) -/

/-- The event record of an entry: code and payload. -/
def autoRecord (e : AutoEntry) : Nat × List Nat :=
  match e.kind with
  | 1 => (0x0402, [e.ch, e.die, e.cause])
  | 2 => (0x0403, [e.ch, e.cause])
  | 3 => (0x0405, pay 4 e.countA)
  | 4 => (0x0407, pay 4 e.nsid ++ pay 3 e.zone ++ pay 4 e.countA)
  | _ => (0x0404, pay 4 e.nsid ++ pay 3 e.zone)

/-- Add an entry: newest first, 255 kept; its event record and its asynchronous event to PF0. -/
def State.addAuto (s : State) (e : AutoEntry) : State :=
  let e := { e with seq := s.med.autoTotal + 1, counter := s.counter }
  let s := { s with med := { s.med with auto := (e :: s.med.auto).take 255, autoTotal := s.med.autoTotal + 1 } }
  let s := s.record (autoRecord e).1 (autoRecord e).2
  let s := if e.kind = 1 || e.kind = 2 || e.kind = 5 then s.raise 0 .autotomy else if e.kind = 3 then s.raise 0 .rowsLost else s
  s.refreshCrit

/-- The sequence of the entry noted last. -/
def State.lastAuto (s : State) : Nat := s.med.autoTotal + s.med.autoLater.length

/-- An entry of what happens during a flush is written after the next start, and what follows it before then behind it (R233). -/
def State.noteAuto (s : State) (e : AutoEntry) : State :=
  if s.flag Fd.TOP_MODE_FLUSH || !s.med.autoLater.isEmpty then { s with med := { s.med with autoLater := s.med.autoLater ++ [e] } } else s.addAuto e

def State.spareSum (s : State) : Nat := sumNat s.xlt.spares

/-- Entry bytes. -/
def AutoEntry.bytes (e : AutoEntry) : Bytes :=
  let b := leBytes 8 e.seq ++ leBytes 8 e.counter ++ [byte e.kind, byte e.cause, byte e.ch, byte e.die] ++ leBytes 4 e.countA
    ++ leBytes 4 e.countB ++ leBytes 4 e.nsid ++ leBytes 4 (e.zone % 2 ^ 24) ++ leBytes 8 e.started ++ zeros 18
  b ++ leBytes 2 (crc16 b)

/-- Retired dies, cut-off channels included. -/
def State.retiredDies (s : State) : Nat :=
  sumNat ((List.range 64).map fun ch => ((List.range 32).filter (s.rd (Fd.MED_CH_RETIRED_MAP ch)).testBit).length)

def State.autoPage (s : State) : Bytes :=
  leBytes 4 s.med.auto.length ++ leBytes 4 (min 0xFFFFFFFF s.med.autoTotal) ++ leBytes 8 s.med.autoTotal
    ++ leBytes 4 (s.rd Fd.MED_AUTO_LO_MAP) ++ leBytes 4 (s.rd Fd.MED_AUTO_HI_MAP) ++ leBytes 4 s.retiredDies
    ++ leBytes 4 s.pendingUnits ++ (List.range 4).flatMap (fun c => leBytes 4 (nth s.xlt.spares c 0)) ++ zeros 16
    ++ s.med.auto.flatMap AutoEntry.bytes ++ zeros (64 * (255 - s.med.auto.length))

/-- GET_LOG_PAGE_AUTOTOMY_RECORD: PF0 only (R234). -/
def execGetLogPageAutotomyRecord (src : Src) (rae : Bool) (s : State) : Result :=
  host s src .logPage fun s =>
    if src.fn ≠ 0 then s.err src .invalidLogPage
    else (s.logRead 0 0xC2 rae).done src .success 0 0 (.bytes s.autoPage)

/-! ## Zones that spares no longer cover (R232) -/

/-- Choirs may be loud: not holding programs while UNLOCKED (R252), no re-lock running. -/
def State.gateOpen (s : State) : Bool :=
  s.choState ≠ sRELOCKING && !(s.choState = 0 && s.rd Fd.CHO_CTL_UNLOCKED_POL = 1)

/-- Zones of zoned namespaces that are not Offline, and conventional homes. -/
def State.zonesPromised (s : State) : Nat :=
  sumNat (s.nss.map fun n => if n.zoned then n.zones - (s.zonesIn n (· = .offline)).length else n.zones)

def State.emptyCount (s : State) (n : Ns) : Nat := n.zones - (s.zonesIn n (· ≠ .empty)).length

/-- Set Empty zones Offline until zone-usable stripes cover the zones again (`fuel` zones at most); answers those set. -/
def State.offlineZones (s : State) : Nat → List (Nat × Nat) × State
  | 0 => ([], s)
  | k + 1 =>
    if s.zonesPromised ≤ s.zoneUsable then ([], s)
    else match argMax s.emptyCount (s.nss.filter (·.zoned)) with
      | none => ([], s)
      | some n => match (List.range n.zones).reverse.find? fun z => (s.zone n z).state = .empty with
        | none => ([], s)
        | some z =>
          let s := (s.setZone n.nsid z { s.zone n z with state := .offline }).zoneNotice n z
          let r := State.offlineZones s k
          ((n.nsid, z) :: r.1, r.2)

/-- No spare is left in a choir: one zone-usable stripe fewer, DEGRADED, and Empty zones Offline (R232). -/
def State.sparesExhausted (s : State) (c : Nat) : State :=
  let s := ({ s with xlt := { s.xlt with nc := setNth s.xlt.nc c (nth s.xlt.nc c 0 - 1) } }).refreshSpares
  let s := s.refreshXlt.degrade 1
  let r := s.offlineZones s.zonesPromised
  match r.1 with
  | [] => r.2
  | (nsid, z) :: _ => r.2.noteAuto ⟨0, 0, 4, 0, 0xFF, 0xFF, r.1.length, 0, nsid, z, 0⟩

/-- A replacement is needed (R232). -/
def State.needSpare (s : State) (c : Nat) : State := if nth s.xlt.spares c 0 = 0 then s.sparesExhausted c else s

/-! ## Lost rows (R222) -/

/-- Rows of a stripe are lost: they are recorded, clutches in them fail from now on, its zone becomes Read Only, and a kind 05
entry is made (R222). -/
def State.loseRows (s : State) (seq : Nat) (rows : List Nat) : State :=
  let new := rows.filter fun r => !s.med.lostRows.contains (seq, r)
  if new.isEmpty then s
  else
    let hit (c : Clutch) : Bool := (c.place = .stripe seq || c.place = .log seq) &&
      new.any fun r => decide (c.posIn / rowGranules ≤ r) && decide (r ≤ (c.posIn + c.ngran - 1) / rowGranules)
    let first := s.clutches.find? hit
    let s := { s with
      med := { s.med with lostRows := s.med.lostRows ++ new.map fun r => (seq, r) }
      hlt := { s.hlt with rowsLost := s.hlt.rowsLost + new.length }
      clutches := s.clutches.map fun (c : Clutch) => if hit c then { c with place := .lost } else c }
    let s := match s.stripe seq with
      | some t => match s.ns t.nsid with
        | some n => if n.zoned && (t.state = 1 || t.state = 2) then
            let w := s.zone n t.zone
            ((s.setZone n.nsid t.zone { w with state := .readOnly }).settleFlags n.charge).zoneNotice n t.zone
          else s
        | none => s
      | none => s
    s.noteAuto ⟨0, 0, 5, 0, 0xFF, 0xFF, new.length, 0, (first.map (·.nsid)).getD 0, (first.map (·.zone)).getD 0, 0⟩

/-! ## Members (R227, R230) -/

/-- Stripes and segments with a member on any of some dies, those members that are not lost yet. -/
def State.unitsOn (s : State) (dies : List Nat) : List Rebuild :=
  let stripes := (s.xlt.stripes.filter fun t => t.state ≠ 5 && t.state ≠ 0).flatMap fun t =>
    (((List.range t.members.length).zip t.members).filter fun (e : Nat × Member) => dies.contains (dieKey e.2.ch t.choir e.2.lun) && e.2.status = 0).map
      fun e => (⟨t.choir, if t.state = 4 then 2 else 0, t.seq, e.1, 0, false, none⟩ : Rebuild)
  let segs := (s.xlt.segs.filter fun g => !g.released).flatMap fun g =>
    (((List.range g.blocks.length).zip g.blocks).filter fun (e : Nat × Member) => dies.contains (dieKey e.2.ch g.choir e.2.lun) && e.2.status = 0).map
      fun e => (⟨g.choir, 1, g.id, e.1, 0, false, none⟩ : Rebuild)
  stripes ++ segs

/-- How many stripes and segments have a member on any of some dies, lost before or not (R235, Count A). -/
def State.countOn (s : State) (dies : List Nat) : Nat :=
  let on (c : Nat) (m : Member) : Bool := dies.contains (dieKey m.ch c m.lun)
  (s.xlt.stripes.filter fun t => t.state ≠ 5 && t.state ≠ 0 && t.members.any (on t.choir)).length +
    (s.xlt.segs.filter fun g => !g.released && g.blocks.any (on g.choir)).length

/-- Members of a unit that are lost. -/
def State.membersOf (s : State) (kind id : Nat) : List Member :=
  if kind = 1 then ((s.seg id).map (·.blocks)).getD [] else ((s.stripe id).map (·.members)).getD []
def State.membersLost (s : State) (r : Rebuild) : Nat := ((s.membersOf r.kind r.id).filter fun m => m.status ≠ 0).length

/-- Change one member of a unit. -/
def State.modMember (s : State) (r : Rebuild) (g : Member → Member) : State :=
  let ch (l : List Member) : List Member := setNth l r.pos (g (nth l r.pos ⟨0, 0, 0, 0, 0⟩))
  if r.kind = 1 then
    { s with xlt := { s.xlt with segs := s.xlt.segs.map fun (x : Segment) => if x.id = r.id then { x with blocks := ch x.blocks } else x } }
  else s.modStripe r.id fun t => { t with members := ch t.members }

/-- Whether two entries of the rebuild list are of one member. -/
def Rebuild.same (a b : Rebuild) : Bool := decide ((a.kind = 1) = (b.kind = 1)) && a.id = b.id && a.pos = b.pos

/-- More members of a unit are lost than parity bears: two of a stripe, one of a segment (R153, R182). What is written in it is lost, and none
of them is rebuilt. A stripe without a whole round has its data in the buffer still. -/
def State.recordLoss (s : State) (r : Rebuild) : State :=
  let bears := if r.kind = 1 then 1 else 2
  let whole := if r.kind = 1 then 1 else ((s.stripe r.id).map (·.rounds)).getD 0
  if s.membersLost r ≤ bears || whole = 0 then s
  else
    let l := (List.range (s.membersOf r.kind r.id).length).map fun k => { r with pos := k }
    let s := l.foldl (fun (s : State) x => s.modMember x fun m => if m.status = 1 then { m with status := 2 } else m) s
    let s := { s with med := { s.med with
      rebuilds := s.med.rebuilds.filter fun (x : Rebuild) => !l.any x.same
      rows := s.med.rows.filter fun (o : RowOut) => o.unit ≠ r.id } }
    if r.kind = 1 then s else s.loseRows r.id (List.range (whole * s.roundRows))

/-- Queue rebuilds: the members' status becomes rebuilding. Of a round that is not whole, the data is in the buffer and not rebuilt. -/
def State.queueRebuilds (s : State) (l : List Rebuild) : State :=
  let s := l.foldl (fun (s : State) r =>
    let whole := if r.kind = 1 then s.slcUnits else ((s.stripe r.id).map (·.rounds)).getD 0
    s.modMember r fun m => { m with status := 1, units := min m.units whole }) s
  let s := { s with med := { s.med with rebuilds := (s.med.rebuilds.filter fun (x : Rebuild) => !l.any x.same) ++ l } }
  (l.foldl State.recordLoss s).refreshRebuild

/-- The member of a stripe or segment that a block is. -/
def State.memberOf (s : State) (ch ce lun block : Nat) : List Rebuild :=
  let here (m : Member) : Bool := m.ch = ch && m.lun = lun && m.block = block
  (s.unitsOn [dieKey ch ce lun]).filter fun r =>
    if r.kind = 1 then s.xlt.segs.any fun g => g.id = r.id && here (nth g.blocks r.pos ⟨64, 0, 0, 0, 0⟩)
    else s.xlt.stripes.any fun t => t.seq = r.id && here (nth t.members r.pos ⟨64, 0, 0, 0, 0⟩)

/-- Programs queued for blocks that take none any more are let go. What spawn programs carried is programmed elsewhere; a stripe's
member gets its programs again when it is rebuilt (R227, R229, R230). -/
def State.dropPrograms (s : State) (p : DieOp → Bool) : State :=
  let l := s.med.ops.filter fun o => o.kind = .program && p o
  l.foldl (fun (s : State) o => if o.slc then s.reput o else s)
    { s with med := { s.med with ops := s.med.ops.filter fun o => !(o.kind = .program && p o) } }

def Rebuild.mine (r : Rebuild) (o : RowOut) : Bool := o.unit = r.id && o.pos = r.pos

/-- A replacement block takes no more programs: the rebuild begins again with another one. -/
def State.rebuildAgain (s : State) (p : Rebuild → Member → Bool) : State :=
  let l := s.med.rebuilds.filter fun r => r.target.any (p r)
  { s with med := { s.med with
    rebuilds := s.med.rebuilds.map fun (r : Rebuild) => if r.target.any (p r) then { r with target := none } else r
    rows := s.med.rows.filter fun o => !l.any fun r => r.mine o } }

/-- Mark a block bad; rebuild the member it was, where data has to be saved (R227). The table of records names no kind for it: it is
written as a REMAP of the block (assumption 99). -/
def State.badBlock (s : State) (ch ce lun block : Nat) (rebuild : Bool) : State :=
  let k := blockKey ch ce lun block
  let s := (s.journal .remap [k]).modBlock k fun b => { b with state := 6 }
  let l := s.memberOf ch ce lun block
  let s := if rebuild then s.queueRebuilds l else s
  let s := s.rebuildAgain fun r m => r.choir = ce && m.ch = ch && m.lun = lun && m.block = block
  (s.dropPrograms fun o => o.onDie ch ce lun && o.block = block).refreshSpares.checkReserve

/-- A member that holds nothing yet, or whose written rows are written again, takes another free block on its channel, or on one its unit
does not use; its programs are queued for that block (R193, R218). -/
def State.replaceMember (s : State) (r : Rebuild) : State :=
  let s := s.needSpare r.choir
  let ms := s.membersOf r.kind r.id
  let ch := (nth ms r.pos ⟨64, 0, 0, 0, 0⟩).ch
  let others := (List.range 64).filter fun c => !ms.any fun (m : Member) => m.ch = c
  match (ch :: others).findSome? fun c => (s.lowBlock r.choir c (r.kind = 1)).map fun b => (c, b) with
  | none => s.queueRebuilds [r]
  | some (c, b) =>
    let m : Member := ⟨c, b.1, b.2, 0, 0⟩
    let slot := if r.kind = 1 then ((s.seg r.id).map (·.slot)).getD 0 else ((s.stripe r.id).map (·.slot)).getD 0
    -- a copy destination is in no record before its REMAP
    let s := if r.kind = 1 || (s.stripe r.id).any (·.state = 6) then s else s.journal .remap [r.id, r.pos, m.word]
    let s := (s.modMember r fun _ => m).takeBlocks r.choir (if r.kind = 1 then 4 else if r.kind = 2 then 3 else 2) slot [m]
    if r.kind = 1 then s else s.requeueMember r.id r.pos

/-- A replacement block: on a channel the unit does not use. -/
def State.replacement (s : State) (choir : Nat) (used : List Nat) (slc : Bool) : Option Member :=
  (((List.range 64).filter fun ch => !used.contains ch).findSome? fun ch => (s.lowBlock choir ch slc).map fun b => (⟨ch, b.1, b.2, 0, 0⟩ : Member))

/-- An entry none of whose members waits any longer is complete: kind 03 (R235). An entry all of whose stripes and segments were
released before their rebuild gets none (DESIGN CHOICE, assumption 98). -/
def State.settleRebuilds (s : State) : State :=
  s.med.rebuilt.foldl (fun (s : State) (e : Nat × Nat) =>
    if s.med.rebuilds.any (·.entry = e.1) then s
    else
      let from' := ((s.med.auto.find? fun a => a.seq = e.1).map (·.counter)).getD 0
      let s := { s with med := { s.med with rebuilt := s.med.rebuilt.filter (fun (x : Nat × Nat) => x ≠ e) } }
      s.noteAuto ⟨0, 0, 3, 0, 0xFF, 0xFF, e.2, s.spareSum, 0, 0, from'⟩) s

/-- A foreign segment whose clutches have all gone home is released for erase (R198). -/
def State.dropEmptySeg (s : State) (seg : Nat) : State :=
  match s.seg seg with
  | none => s
  | some g => if g.released || g.folding || s.segLive g ≠ 0 then s else s.releaseSeg seg

/-! ## What a REMAP record commits (R31, R175, R176, R186, R188, R193, R198) -/

/-- A copied slot stands in the log stripe it was copied to: the rounds that hold it are programmed. -/
def State.slotCopied (s : State) (d k : Nat) : Bool :=
  (s.stripe d).any fun t => decide ((k + 1) * convGranules ≤ t.rounds * s.roundGranules)

/-- The entry of the rebuild list for a member, and the program units of it to be written again: those it held. -/
def State.rebuildAt (s : State) (kind id pos : Nat) : Option Rebuild :=
  s.med.rebuilds.find? fun r => decide ((r.kind = 1) = (kind = 1)) && r.id = id && r.pos = pos
def State.goal (s : State) (r : Rebuild) : Nat := (nth (s.membersOf r.kind r.id) r.pos ⟨0, 0, 0, 0, 0⟩).units

/-- The live slots of a log stripe. -/
def State.slotsOf (s : State) (q : Nat) : List Clutch := s.clutches.filter fun x => x.log = q && x.place ≠ .lost

/-- Every program of the copy is done: a fold once no clutch has its newest copy in the segment but those whose copies stand at the head of
the share (R186); a compaction once every live slot stands at the log head (R188); a move, a merge or a rebuild once its destination is
written whole. -/
def State.copied (s : State) : Remap → Bool
  | .stripe q => (s.stripe q).any fun t => t.state = 6 && decide (s.copyRounds t ≤ t.programmed)
  | .fold g => (s.seg g).any fun h => h.folding && !h.released &&
      (s.segClutches g).all fun x => (s.copyOf x.id).isSome && !s.carried x.id (· = 3)
  | .compact c q => s.xlt.works.contains (Work.compact c q) &&
      (s.slotsOf q).all fun x => match s.copyOf x.id with | some (d, k) => s.slotCopied d k | none => false
  | .home c id g p => s.xlt.works.contains (Work.home c id) && s.copyOf id = some (g, p) && !s.carried id (· = 12)
  | .member k id pos => (s.rebuildAt k id pos).any fun r => r.target.any fun m => decide (s.goal r ≤ m.units)

/-- What the record names. -/
def State.remapArgs (s : State) : Remap → List Nat
  | .stripe q => [((s.stripe q).map (·.copyOf)).getD 0, q]
  | .fold g => g :: (s.segClutches g).map (·.id)
  | .compact _ q => [q]
  | .home _ id g _ => [id, g]
  | .member k id pos => [id, pos] ++ (((s.rebuildAt k id pos).bind Rebuild.target).map Member.word).toList

/-- The overlay points to the log head, and the log stripe is released; its blocks return to the pool of log stripes (R188). -/
def State.compactCommit (s : State) (c q : Nat) : State :=
  let live := s.slotsOf q
  let moved (x : Clutch) : Clutch := match s.copyOf x.id with | some (d, k) => { x with log := d, slot := k, place := .log d } | none => x
  let s := { s with
    clutches := s.clutches.map fun (x : Clutch) => if x.log = q then moved x else x
    xlt := { s.xlt with
      works := s.xlt.works.filter fun w => w ≠ Work.compact c q
      logFree := setNth s.xlt.logFree c (nth s.xlt.logFree c 0 + 1) } }
  (s.dropCopiesOf (live.map (·.id))).releaseStripe q

/-- The clutches copied to the destination lie there from now on, it takes its source's state and the source is released (R193). The
lifetime class is the zone's own. -/
def State.stripeCommit (s : State) (t : Stripe) : State :=
  let st := ((s.stripe t.copyOf).map (·.state)).getD 2
  let moved := (s.xlt.copies.filter fun e => e.2.1 = t.seq).map (·.1)
  let s := s.modStripe t.seq fun d => { d with state := st, copyOf := 0, rounds := t.programmed }
  let s : State := { s with
    zones := s.zones.map fun (e : Nat × Zone) => if e.2.stripe = some t.copyOf then (e.1, { e.2 with stripe := some t.seq }) else e
    clutches := s.clutches.map fun (c : Clutch) =>
      if (moved.contains c.id && c.place ≠ .lost) || c.place = .stripe t.copyOf then { c with place := .stripe t.seq, log := 0, slot := 0, onFlash := true } else c
    xlt := { s.xlt with works := s.xlt.works.filter fun w => w ≠ Work.wlMove t.choir t.copyOf && w ≠ .merge t.choir t.nsid t.zone } }
  (s.dropCopiesOf moved).releaseStripe t.copyOf

/-- The copies at the head of the share are the newest, and the segment is released (R186). -/
def State.foldCommit (s : State) (g : Nat) : State :=
  let live := s.segClutches g
  let moved (x : Clutch) : Clutch := match s.copyOf x.id with | some (h, p) => { x with place := .spawn h, pos := p } | none => x
  let s : State := { s with clutches := s.clutches.map fun x => if x.place = .spawn g then moved x else x }
  (s.dropCopiesOf (live.map (·.id))).releaseSeg g

/-- A clutch has moved home after a flush; the foreign segment it leaves goes once it is empty (R198). -/
def State.homeCommit (s : State) (c id g p : Nat) : State :=
  let old := (s.clutches.find? (·.id = id)).map Clutch.place
  let s := { s with
    clutches := s.clutches.map fun (x : Clutch) => if x.id = id then { x with place := .spawn g, pos := p } else x
    xlt := { s.xlt with works := s.xlt.works.filter fun w => w ≠ Work.home c id } }
  let s := s.dropCopiesOf [id]
  match old with | some (.spawn h) => s.dropEmptySeg h | _ => s

/-- The replacement block is the member from now on (R230): the block it replaces, where it is neither bad nor on a retired die, is released for
erase, and what its stripe has handed over since is programmed to it from the buffer. -/
def State.memberCommit (s : State) (r : Rebuild) (m : Member) : State :=
  let old := nth (s.membersOf r.kind r.id) r.pos ⟨64, 0, 0, 0, 0⟩
  let s := s.modMember r fun _ => { m with status := 0 }
  let s := { s with med := { s.med with
    rebuilds := s.med.rebuilds.filter fun (x : Rebuild) => !x.same r
    rebuilt := if r.entry = 0 then s.med.rebuilt
      else (s.med.rebuilt.filter fun (e : Nat × Nat) => e.1 ≠ r.entry) ++
        [(r.entry, ((s.med.rebuilt.find? fun (e : Nat × Nat) => e.1 = r.entry).map Prod.snd).getD 0 + 1)] } }
  let k := old.key r.choir
  let s := if (s.block k).state = 6 || (s.block k).state = 7 then s else s.releaseBlock k (r.kind = 1)
  let s := if r.kind = 1 then s else (s.requeueMember r.id r.pos).settleRounds r.id
  s.refreshRebuild.settleRebuilds.refreshSpares.checkReserve

def State.applyRemap (s : State) : Remap → State
  | .stripe q => match s.stripe q with | some t => s.stripeCommit t | none => s
  | .fold g => s.foldCommit g
  | .compact c q => s.compactCommit c q
  | .home c id g p => s.homeCommit c id g p
  | .member k id pos => match s.rebuildAt k id pos with
    | some r => match r.target with | some m => s.memberCommit r m | none => s
    | none => s

/-- Commits whose records are on flash take effect; one whose copy has been abandoned meanwhile takes none (R175, R193). -/
def State.commitRemaps (s : State) : State :=
  s.xlt.remaps.foldl (fun (s : State) (e : Nat × Remap) =>
    if s.xlt.unflashed.contains e.1 then s
    else
      let s := { s with xlt := { s.xlt with remaps := s.xlt.remaps.filter fun (x : Nat × Remap) => x.1 ≠ e.1 } }
      if s.copied e.2 then s.applyRemap e.2 else s) s

/-- A copy that is done writes its REMAP record; it is committed when that stands in the journal region, and with the hold-up failed when it
stands on flash. Only then do reads move to the destination, and the source is freed for erase (R31, R175, R193). -/
def State.remap (s : State) (m : Remap) : State :=
  if !s.copied m || s.xlt.remaps.any (fun (e : Nat × Remap) => e.2 = m) then s
  else
    let q := s.xlt.nextRec
    let s := s.journal .remap (s.remapArgs m)
    { s with xlt := { s.xlt with remaps := s.xlt.remaps ++ [(q, m)] } }.commitRemaps

/-- COPY_COMMIT: where the destination of a copy is written whole, REMAP and RELEASE commit. A fold names the segment by its number, a
compaction its log stripe. -/
def execCopyCommit (stripe : Nat) (s : State) : Result :=
  match s.stripe stripe with
  | some t => .next (s.remap (if s.xlt.works.contains (Work.compact t.choir stripe) then .compact t.choir stripe else .stripe stripe))
  | none => .next (s.remap (.fold stripe))

/-! ## Rebuild (R153, R230, R231) -/

/-- The place of a stripe's member in its parity: data member 0 to 29, 30 for P, 31 for Q (R153, R166). -/
def roleOf (seq pos : Nat) : Nat :=
  if pos = parityPos seq then 30 else if pos = parityPos seq + 1 then 31 else if pos < parityPos seq then pos else pos - 2

/-- The terms that give a lost place of a row, with the inverse coefficients, where `other` is lost too: data and Q not needed come in with no
term (R153, R221). -/
def termCoeffs (target : Nat) (other : Option Nat) : List (Nat × Nat) :=
  let data (f : Nat → Nat) : List (Nat × Nat) :=
    ((List.range 30).filter fun k => k ≠ target && some k ≠ other).map fun k => (k, f k)
  let oData := other.filter (· < 30)
  if target < 30 then
    match oData with
    | some i =>
      let v := gfInv (gfPow2 i ^^^ gfPow2 target)
      data (fun k => gfMul v (gfPow2 k ^^^ gfPow2 i)) ++ [(30, gfMul v (gfPow2 i)), (31, v)]
    | none =>
      if other = some 30 then
        let v := gfInv (gfPow2 target)
        data (fun k => gfMul v (gfPow2 k)) ++ [(31, v)]
      else data (fun _ => 1) ++ [(30, 1)]
  else if target = 30 then
    match oData with
    | some i => let v := gfInv (gfPow2 i); data (fun k => 1 ^^^ gfMul v (gfPow2 k)) ++ [(31, v)]
    | none => data fun _ => 1
  else
    match oData with
    | some i => data (fun k => gfPow2 k ^^^ gfPow2 i) ++ [(30, gfPow2 i)]
    | none => data gfPow2

/-- The terms of a member's pages: positions and coefficients. A segment's block is the sum of the 15 others; a copy for a torn round's sake is
the block itself (R182, R200). -/
def State.termsOf (s : State) (r : Rebuild) : List (Nat × Nat) :=
  if r.copy then [(r.pos, 1)]
  else if r.kind = 1 then ((List.range 16).filter (· ≠ r.pos)).map fun k => (k, 1)
  else
    let ms := s.membersOf r.kind r.id
    let other := (List.range 32).find? fun k => k ≠ r.pos && decide ((nth ms k ⟨0, 0, 0, 0, 0⟩).status ≠ 0)
    let at' (role : Nat) : Nat := ((List.range 32).find? fun k => roleOf r.id k = role).getD 0
    (termCoeffs (roleOf r.id r.pos) (other.map (roleOf r.id))).map fun e => (at' e.1, e.2)

/-- The pages of a member's program unit that carry data. -/
def State.unitRows (s : State) (r : Rebuild) (u : Nat) : List Nat :=
  if r.kind = 1 then (List.range 4).map (4 * u + ·)
  else ((List.range s.roundRows).map (s.roundRows * u + ·)).filter fun w => decide (w < dataRows)

/-- The unit's number as its program has it: a segment counts its units over the 15 data blocks, and P goes with the last of them. -/
def Rebuild.opRow (r : Rebuild) (u : Nat) : Nat := if r.kind = 1 then 15 * u + min r.pos 14 else u

/-- Change the entry of a member in the rebuild list. -/
def State.modRebuild (s : State) (r : Rebuild) (g : Rebuild → Rebuild) : State :=
  { s with med := { s.med with rebuilds := s.med.rebuilds.map fun (x : Rebuild) => if x.same r then g x else x } }

/-- A replacement block, from the choir's spares, on a channel that the stripe does not use; for a torn round's sake on the same channel, if it
has one (R200, R230). -/
def State.rebuildBlock (s : State) (r : Rebuild) : Option Member :=
  let ms := s.membersOf r.kind r.id
  let away := s.replacement r.choir (ms.map (·.ch)) (r.kind = 1)
  if r.copy then
    let ch := (nth ms r.pos ⟨64, 0, 0, 0, 0⟩).ch
    ((s.lowBlock r.choir ch false).map fun b => (⟨ch, b.1, b.2, 0, 0⟩ : Member)).or away
  else away

/-- A rebuild begins: its member takes a replacement block. One that can have none, since no channel is left that its stripe does not use, is
served by on-the-fly rebuild from then on (R206). -/
def State.beginRebuild (s : State) (r : Rebuild) : State :=
  let s := if r.copy then s else s.needSpare r.choir
  match s.rebuildBlock r with
  | some m =>
    let slot := if r.kind = 1 then ((s.seg r.id).map (·.slot)).getD 0 else ((s.stripe r.id).map (·.slot)).getD 0
    let s := s.takeBlocks r.choir (if r.kind = 1 then 4 else if r.kind = 2 then 3 else 2) slot [m]
    (s.modRebuild r fun x => { x with target := some { m with status := 1 } }).remap (.member r.kind r.id r.pos)
  | none =>
    if s.choirBinds r.choir || r.copy then s
    else
      let s := s.modMember r fun m => { m with status := 2 }
      { s with med := { s.med with rebuilds := s.med.rebuilds.filter fun (x : Rebuild) => !x.same r } }.refreshRebuild

/-- What comes next for a member: a replacement block; the pages of its next program unit, as repair terms; their issue; the program of the unit
once they are summed. None while it waits for one of them. -/
def State.rebuildNext (s : State) (r : Rebuild) : Option State :=
  match r.target with
  | none => let s' := s.beginRebuild r; if s'.med.rebuilds = s.med.rebuilds then none else some s'
  | some m =>
    if s.goal r ≤ m.units || s.med.ops.any fun o => o.purpose = 6 && o.unit = r.id && o.onBlock m then none
    else match s.med.rows.filter r.mine with
    | [] =>
      let new := (s.unitRows r m.units).map fun w =>
        (⟨r.id, r.pos, m.units, w, zeros sliceBytes, (s.termsOf r).map fun e => (e.1, e.2, 0)⟩ : RowOut)
      some (State.placeTerms (32 * new.length) { s with med := { s.med with rows := s.med.rows ++ new } })
    | l =>
      if l.all fun o => o.terms.all fun e => e.2.2 = 2 then
        let s := { s with med := { s.med with rows := s.med.rows.filter fun o => !r.mine o } }
        some (s.queueOp (s.progOp m.ch r.choir m.lun m.block (r.opRow m.units) 6 r.id (r.kind = 1)))
      else if l.any fun o => o.terms.any fun e => e.2.2 = 0 then
        let s' := State.placeTerms (32 * l.length) s
        if s'.med.rows = s.med.rows then none else some s'
      else none

/-- A program of a rebuild has ended well: its unit is written, and after the last one the member's REMAP commits (R193, R230). -/
def State.rebuildWritten (s : State) (o : DieOp) : State :=
  match s.med.rebuilds.find? fun r => r.id = o.unit && r.target.any fun m => o.onBlock m with
  | none => s
  | some r => (s.modRebuild r fun x => { x with target := x.target.map fun m => { m with units := m.units + 1 } }).remap (.member r.kind r.id r.pos)

/-- The members to rebuild, in the order of R230, of choirs in their loud turn. -/
def State.rebuildOrder (s : State) : List Rebuild :=
  let l := s.med.rebuilds.filter fun r => s.inTurn r.choir
  let twice (r : Rebuild) : Bool := r.kind ≠ 1 && decide (2 ≤ s.membersLost r)
  l.filter twice ++ l.filter (·.kind = 1) ++ l.filter (fun r => r.kind = 2 && !twice r) ++
    sortBy (fun a b => decide (a.id < b.id)) (l.filter fun r => r.kind = 0 && !twice r)

/-- REBUILD_MEMBER: the first member of that order with something to hand over goes on: its pages are computed by repair terms, and programmed
unit by unit, its written rows only, with rebuild's share of the die tokens (R230, R231). -/
def execRebuildMember (s : State) : Result :=
  if !s.gateOpen || s.choState = sFLUSH || s.flag Fd.GK_THERM_STOP then .next s
  else .next ((s.rebuildOrder.findSome? s.rebuildNext).getD s)

end Sys2Proof.Machine
end

