-- ==== Sys2Proof/Machine/Media.lean ====
section
/-! DEFINITION. The channel engines: launching die operations under the chorus, suspends, read recovery, transient
events and retraining, status failures, retirement, autotomy, rebuild and the Autotomy Record (R203-R236, R259-R263). -/

namespace Sys2Proof.Machine

open Sys2Proof

/-! ## Launching (R209, R259-R262) -/

/-- Order of a die's queue: host reads, other reads, clear records, programs, erases (R209, R216). What waits for its rebuild (purpose
10) is not read from its own die: STRIPE_REBUILD_READ stands for the rebuild reads that serve it, which rank between them. -/
def DieOp.rank (o : DieOp) : Nat :=
  match o.kind with
  | .read => if o.purpose = 0 then 0 else 2
  | .check => 2
  | .program => if o.purpose = 11 then 3 else 4
  | .erase => 5

/-- An operation that occupies its die. -/
def DieOp.busy (o : DieOp) : Bool := o.st = 1 || o.st = 2

/-- The head of a die's queue among the operations that may be looked at, oldest first within its class. -/
def headOp (l : List DieOp) : Option DieOp := argMin DieOp.rank (l.filter fun o => o.st = 0 || o.st = 5)

/-- Programs and erases of one kind of work that a choir has queued or running: what it can make use of. -/
def State.wantsShare (s : State) (c k : Nat) : Nat :=
  (s.med.ops.filter fun o => o.kind ≠ .read && o.kind ≠ .check && o.ce = c && o.share = k).length

/-- Tokens a kind of work may hold in a choir: its share, and the part of each other share that its owner leaves unused; at reclaim levels
2 and 3 the reclaim share stays closed to host work (R260). -/
def State.shareLimit (s : State) (c k : Nat) : Nat :=
  let sh := s.sharesOf c
  let of (j : Nat) : Nat := if j = 0 then sh.2.2 else if j = 1 then sh.1 else sh.2.1
  of k + sumNat (((List.range 3).filter fun j => j ≠ k && !(k = 0 && j = 1 && 2 ≤ s.rd (Fd.XLT_FREE_LEVEL c))).map
    fun j => of j - s.wantsShare c j)

/-- A die token is free for an operation (R259, R260). -/
def State.tokenFree (s : State) (o : DieOp) : Bool :=
  decide (s.tokensHeld < s.tokens) && decide (s.heldBy o.ce o.share < s.shareLimit o.ce o.share)

/-- Programs and erases running (R261). -/
def State.activePE (s : State) : Nat := (s.med.ops.filter fun o => (o.kind = .program || o.kind = .erase) && o.busy).length

/-- Every read that feeds a program has come back (R169, R193). -/
def State.sourced (s : State) (o : DieOp) : Bool :=
  !s.med.ops.any fun r => r.kind = .read && r.carries.contains (o.unit, o.row)

/-- A self-test reads a die only in its choir's quiet turn, with no host read queued on it, and not while it is suspended (R128, R129). -/
def State.testReads (s : State) (o : DieOp) : Bool :=
  !s.testSuspended && !s.inTurn o.ce && !s.med.ops.any fun r => r.onDie o.ch o.ce o.lun && r.kind = .read && r.purpose = 0

/-- A program's remaining typical time, with its margin, ends before the turn end less the guard (R262). -/
def State.fits (s : State) (o : DieOp) : Bool := decide (s.now + o.left * (100 + s.margin) / 100 + s.guardNs ≤ s.turnEnd o.ce)

/-- may_launch of R261. -/
def State.mayLaunch (s : State) (o : DieOp) : Bool :=
  if s.choState = sFLUSH then o.purpose = 4 && decide (s.activePE < max 64 (min 1024 (s.rd Fd.XLT_FLUSH_CFG_DIES)))
  else if o.kind = .read && o.purpose = 5 then s.testReads o
  else if o.kind = .read || o.kind = .check then true
  else if !s.gateOpen || !s.inTurn o.ce then false
  else
    let g := s.guardNs
    if s.now < s.turnStart o.ce + g || !s.tokenFree o || !o.checked then false
    else if o.kind = .erase then true
    else s.sourced o && s.fits o

/-- An operation suspended within its turn goes on: an erase at once, a program if what is left of it fits the turn (R213, R262). A program that
a flush or a re-lock waits for finishes in any case (R196, R254). It has its token already. -/
def State.mayResume (s : State) (p : DieOp) : Bool :=
  p.kind = .erase || s.choState = sFLUSH || s.choState = sRELOCKING ||
    (s.gateOpen && s.inTurn p.ce && decide (s.turnStart p.ce + s.guardNs ≤ s.now) && s.fits p)

/-! ## Erase-intent flag pages (R214-R216) -/

/-- The 64 B flag record (R215): kind 1 intent, 2 clear; mode 0 native, 1 SLC. -/
def nandFlag (kind mode target seq jseq counter : Nat) : Bytes :=
  let b := leBytes 2 0x4549 ++ [byte kind, byte mode] ++ leBytes 4 target ++ leBytes 8 seq ++ leBytes 8 jseq ++ leBytes 8 counter ++ zeros 30
  b ++ leBytes 2 (crc16 b)

def flagTarget (ch ce lun block : Nat) : Nat := ch * 2 ^ 26 + ce * 2 ^ 24 + lun * 2 ^ 21 + block * 2 ^ 8

/-- A record that verifies. Each stands in the four plane pages of its unit; one that fails in all of them is ignored (R216). -/
def flagGood (b : Bytes) : Bool := b.length = 64 && leNat (b.take 2) = 0x4549 && leNat (b.drop 62) = crc16 (b.take 62)
def flagKind (b : Bytes) : Nat := leNat ((b.drop 2).take 1)
def flagMode (b : Bytes) : Nat := leNat ((b.drop 3).take 1)
def flagBlock (b : Bytes) : Nat := leNat ((b.drop 4).take 4)
def flagSeqOf (b : Bytes) : Nat := leNat ((b.drop 8).take 8)
def flagJseq (b : Bytes) : Nat := leNat ((b.drop 16).take 8)

def Ring.init : Ring := ⟨2, 0, [], [], 0⟩
def State.ring (s : State) (d : Nat) : Ring := ((s.med.rings.find? (·.1 = d)).map (·.2)).getD Ring.init
def State.setRing (s : State) (d : Nat) (g : Ring) : State :=
  { s with med := { s.med with rings := (s.med.rings.filter fun e => e.1 ≠ d) ++ [(d, g)] } }

/-- The intents of a ring that no clear record matches by target and flag sequence (R216). -/
def Ring.open (g : Ring) : List Bytes :=
  let l := (g.prev ++ g.recs).filter flagGood
  l.filter fun b => flagKind b = 1 && !l.any fun c => flagKind c = 2 && flagBlock c = flagBlock b && flagSeqOf c = flagSeqOf b

/-- Program a record into a die's ring. When the active block has only its last two units left, they take the intent and the clear
record of the erase of the other ring block, which becomes the active one (R214). -/
def State.ringAppend (s : State) (d : Nat) (b : Bytes) : State :=
  let g := s.ring d
  let g := { g with used := g.used + 1, recs := g.recs ++ [b], seq := max g.seq (flagSeqOf b) }
  if g.used < s.slcUnits - 2 then s.setRing d g
  else
    let other := 5 - g.active
    let rec' (k : Nat) : Bytes := nandFlag k 1 (flagTarget (d / 32) (d / 8 % 4) (d % 8) other) (g.seq + 1) (s.xlt.nextRec - 1) s.counter
    (s.modBlock (d * 8192 + other) fun x => x.cycled true).setRing d
      { active := other, used := 0, recs := [], prev := g.recs ++ [rec' 1, rec' 2], seq := g.seq + 1 }

/-- A block's intent record is programmed just before its erase starts, within the same grant (R216). It stands throughout: an erase that
is retried has its intent already. -/
def State.intent (s : State) (o : DieOp) : State :=
  let d := dieKey o.ch o.ce o.lun
  let t := flagTarget o.ch o.ce o.lun o.block
  let jseq := ((s.xlt.released.find? fun e => e.2.1 = o.unit).map (·.2.2.2)).getD 0
  if (s.ring d).open.any (fun b => flagBlock b = t) then s
  else s.ringAppend d (nandFlag 1 o.slc.toNat t ((s.ring d).seq + 1) jseq s.counter)

/-- The clear record of a block's open intent repeats its flag sequence (R215). -/
def State.clearIntent (s : State) (k : Nat) : State :=
  let d := k / 8192
  let t := flagTarget (d / 32) (d / 8 % 4) (d % 8) (k % 8192)
  match (s.ring d).open.find? fun b => flagBlock b = t with
  | some b => s.ringAppend d (nandFlag 2 (flagMode b) t (flagSeqOf b) (flagJseq b) s.counter)
  | none => s

/-! ## The engines -/

/-- An operation runs. A program or erase of a scheduled turn remembers when that turn ends. -/
def State.setRun (s : State) (o : DieOp) : State :=
  let due := if (o.kind = .program || o.kind = .erase) && s.choState ≠ sFLUSH && s.inTurn o.ce then s.turnEnd o.ce else 0
  s.modOp o.id fun o => { o with st := 1, startedAt := s.now, due := due }

/-- A program or erase that ran past its turn's end less the guard counts once it ends, with the time it ran over (R251). -/
def State.overrun (s : State) (o : DieOp) : State :=
  let limit := o.due - s.guardNs
  if o.due = 0 || s.now ≤ limit then s
  else
    let s := { s.bump Fd.CHO_STATS_OVERRUNS 1 with hlt := { s.hlt with overruns := s.hlt.overruns + 1 } }
    s.record 0x0603 ([o.ce, o.ch] ++ pay 4 ((s.now - limit) / 1000))

/-- Work that thermal STOP keeps from starting: erases, and what is neither a read nor a program of the buffer or of the journal (R424). -/
def State.stopped (s : State) (o : DieOp) : Bool :=
  s.flag Fd.GK_THERM_STOP && (o.kind = .erase || (o.kind = .program && !(stages o.purpose || o.purpose = 2 || o.purpose = 8)))

/-- One die. An erase suspended at a turn's end resumes first (R213). With an operation suspended in its turn, up to four host reads
run, and while an erase is suspended other reads too (R211); then it resumes, or waits for a turn it fits while the reads go on. Else the
head is launched if it passes the test; one that fails it does not block the reads behind it (R262). A self-test read that may not start
is not looked at (R128). In state FLUSH nothing but the flush's programs is looked at, and programs suspended before it (R196). -/
def State.launchDie (s : State) (ch ce lun : Nat) : State :=
  let mine := s.med.ops.filter fun o => o.onDie ch ce lun && o.purpose ≠ 10
  let l := mine.filter fun o => !s.stopped o && (s.choState ≠ sFLUSH || o.purpose = 4 || (o.kind = .program && o.st = 3)) &&
    (o.kind ≠ .read || o.purpose ≠ 5 || s.testReads o)
  let resume (p : DieOp) : State := (s.modOp p.id fun p => { p with served := 0 }).setRun p
  if mine.any DieOp.busy then s
  else match l.find? fun o => o.st = 5 && s.mayLaunch o with
  | some p => s.setRun p
  | none => match l.find? fun o => o.st = 3 with
  | some p =>
    (match headOp (l.filter fun o => o.kind = .read && (o.purpose = 0 || p.kind = .erase)) with
     | some r =>
       if r.purpose ≠ 0 || !s.mayResume p then s.setRun r
       else if p.served < 4 then (s.modOp p.id fun p => { p with served := p.served + 1 }).setRun r
       else resume p
     | none => if s.mayResume p then resume p else s)
  | none => match headOp l with
    | none => s
    | some o =>
      if s.mayLaunch o then (if o.kind = .erase && o.st = 0 then (s.intent o).setRun o else s.setRun o)
      else match headOp (l.filter fun x => x.kind = .read) with
        | some r => if s.mayLaunch r then s.setRun r else s
        | none => s

/-- CHnn_WP_N: asserted where the channel is absent or cut off, and in power states from SLEEP down (R207, R229). -/
def State.writeProtect (s : State) (ch : Nat) : Bool :=
  s.rd (Fd.MED_CH_STATE_STATE ch) = 0 || s.rd (Fd.MED_CH_STATE_STATE ch) = 4 || s.asleep || s.rd Fd.GK_PSTATE_CUR = 4

/-- CHnn_CE_N[ce]: may be asserted only on a channel that is there and not cut off; the channel's PHY has power then (R229). -/
def State.chipEnable (s : State) (ch ce : Nat) : Bool :=
  !s.pwr.trip && s.rd (Fd.MED_CH_STATE_STATE ch) ≠ 0 && s.rd (Fd.MED_CH_STATE_STATE ch) ≠ 4 && s.med.ops.any fun o => o.ch = ch && o.ce = ce && o.busy
def State.phyPower (s : State) (ch : Nat) : Bool :=
  s.rd (Fd.MED_CH_STATE_STATE ch) ≠ 0 && s.rd (Fd.MED_CH_STATE_STATE ch) ≠ 4 && !s.asleep && s.rd Fd.GK_PSTATE_CUR ≠ 4

/-- A channel in service: not held, not cut off. -/
def State.chUp (s : State) (ch : Nat) : Bool :=
  !(s.med.held.any fun (e : Nat × Nat) => e.1 = ch) && s.rd (Fd.MED_CH_STATE_STATE ch) ≠ 4

/-- DIE_OP_LAUNCH: the engine of a channel looks at each of its die queues (R261). -/
def execDieOpLaunch (ch t : Nat) (s : State) : Result :=
  inRange ch 64 (
    let s := s.at t
    if !s.chUp ch || s.asleep || s.pwr.trip then .next s
    else .next ((List.range 32).foldl (fun (s : State) d => s.launchDie ch (d / 8) (d % 8)) s))

def onOp (s : State) (op : Nat) (k : DieOp → Result) : Result :=
  match s.op op with
  | some o => k o
  | none => .fault .noSuchInstance

/-! ## Suspends (R211-R213) -/

/-- A running program may be suspended for a host read (R212). -/
def State.progSuspends (s : State) (o : DieOp) : Bool :=
  decide (o.suspends < s.rd Fd.MED_CFG_PSUSP_MAX) && s.choState ≠ sFLUSH &&
    decide (s.now + (o.left - (s.now - o.startedAt)) + 60000 + s.guardNs ≤ s.turnEnd o.ce)

/-- HOST_READ_ON_BUSY_DIE: a queued host read meets its die busy (R211). -/
def execHostReadOnBusyDie (op t : Nat) (s : State) : Result :=
  onOp s op fun r =>
    let s := s.at t
    if r.kind ≠ .read || r.purpose ≠ 0 || r.st ≠ 0 || !s.chUp r.ch then .next s
    else match s.med.ops.find? fun o => o.onDie r.ch r.ce r.lun && o.st = 1 with
      | none => .next s
      | some o =>
        if (o.kind = .erase && s.flag Fd.MED_CFG_ESUSP_EN) || (o.kind = .program && s.progSuspends o)
        then .next (s.modOp o.id fun o => { o.paused s.now with st := 2 }) else .next s

/-- DIE_SUSPEND_COMPLETE: the die is free for up to four host reads (R213). -/
def execDieSuspendComplete (op t : Nat) (s : State) : Result :=
  onOp s op fun o =>
    let s := s.at t
    if o.st ≠ 2 then .next s
    else .next (s.modOp op fun o => { o with st := 3, suspends := o.suspends + 1, served := 0 })

/-- ERASED_CHECK_COMPLETE: at most ERASED_BITS bits not erased in any page pass; else NOT_ERASED: the program is not run, the block is
released for erase and the data placed elsewhere: what a spawn program carries in another segment, a stripe's member on another block,
its rows already written first rebuilt there (R172, R217, R218). -/
def execErasedCheckComplete (op bits : Nat) (s : State) : Result :=
  onOp s op fun o =>
    if o.kind ≠ .program || o.checked || o.st ≠ 0 then .next s
    else if bits ≤ s.rd Fd.MED_CFG_ERASED_BITS then .next (s.modOp op fun o => { o with checked := true })
    else
      let k := blockKey o.ch o.ce o.lun o.block
      let l := s.memberOf o.ch o.ce o.lun o.block
      let written := if o.slc then decide (15 ≤ o.row) else l.any fun r =>
        (s.stripe r.id).any fun t => (nth t.members r.pos ⟨0, 0, 0, 0, 0⟩).units ≠ 0
      if written then
        .next ((s.queueRebuilds l).dropPrograms fun x => x.onDie o.ch o.ce o.lun && x.block = o.block)
      else
        let s := (s.dropPrograms fun x => x.onDie o.ch o.ce o.lun && x.block = o.block).releaseBlock k o.slc
        let s := s.rebuildAgain fun r m => r.choir = o.ce && o.onBlock m
        .next (l.foldl (fun (s : State) r => s.replaceMember r) s)

/-- Reads that are served by on-the-fly rebuild from now on (R211, R229). -/
def State.rebuildReads (s : State) (p : DieOp → Bool) : State :=
  { s with med := { s.med with ops := s.med.ops.map fun (o : DieOp) => if o.kind = DieKind.read && p o then { o with purpose := 10, st := 0 } else o } }

/-- Dies leave service: their bits, their blocks, the reads and rebuilds of what lay on them, and one entry of the Autotomy Record
(R228, R229). -/
def State.retireDies (s : State) (dies : List (Nat × Nat × Nat)) (kind cause ch die : Nat) : State :=
  let keys := dies.map fun (d : Nat × Nat × Nat) => dieKey d.1 d.2.1 d.2.2
  let l := s.unitsOn keys
  let s := s.journal .remap keys
  let s := dies.foldl (fun (s : State) (d : Nat × Nat × Nat) =>
    let b := 2 ^ (d.2.1 * 8 + d.2.2)
    let up := s.dieUp d.1 d.2.1 d.2.2
    let s := s.wr (Fd.MED_CH_DIES_MAP d.1) (s.rd (Fd.MED_CH_DIES_MAP d.1) - (if up then b else 0))
    let s := s.wr (Fd.MED_CH_RETIRED_MAP d.1) (s.rd (Fd.MED_CH_RETIRED_MAP d.1) ||| b)
    s.wr (Fd.MED_CH_STATE_DIES d.1) (s.rd (Fd.MED_CH_STATE_DIES d.1) - up.toNat)) s
  let bs := s.xlt.blocks.map fun (e : Nat × Block) => if keys.contains (e.1 / 8192) then (e.1, { e.2 with state := 7 }) else e
  let s : State := { s with xlt := { s.xlt with blocks := bs } }
  let s := (s.dropPrograms fun o => keys.contains (dieKey o.ch o.ce o.lun)).rebuildReads fun o => keys.contains (dieKey o.ch o.ce o.lun)
  let erases := (s.med.ops.filter fun (o : DieOp) => o.kind = DieKind.erase && keys.contains (dieKey o.ch o.ce o.lun)).map (·.unit)
  let s := { s with med := { s.med with ops := s.med.ops.filter fun (o : DieOp) => !(o.kind = DieKind.erase && keys.contains (dieKey o.ch o.ce o.lun)) } }
  let s := erases.foldl (fun (s : State) u => s.unitErased u) s
  let s := { s with hlt := { s.hlt with diesRetired := s.hlt.diesRetired + dies.length, autotomized := s.hlt.autotomized + (decide (kind = 2)).toNat } }
  let s := s.refreshSpares
  let e : AutoEntry := ⟨0, 0, kind, cause, ch, die, s.countOn keys, s.spareSum, 0, 0, 0⟩
  let s := (s.noteAuto e).rebuildAgain fun r m => keys.contains (dieKey m.ch r.choir m.lun)
  -- members that lay on the dies and were lost before are counted in the entry, and belong to it
  let here (r : Rebuild) : Bool := r.entry = 0 && (s.membersOf r.kind r.id)[r.pos]?.any fun m => keys.contains (dieKey m.ch r.choir m.lun)
  let s := { s with med := { s.med with rebuilds := s.med.rebuilds.map fun (r : Rebuild) => if here r then { r with entry := s.lastAuto } else r } }
  (s.queueRebuilds (l.map fun r => { r with entry := s.lastAuto })).checkReserve

/-- Autotomy of a channel (R229): CAUSE 4 retraining failures, 5 transient rate, 7 training failed at start. -/
def State.autotomy (s : State) (ch cause : Nat) : State :=
  let s := if s.rd (Fd.MED_CH_STATE_STATE ch) = 2 || s.rd (Fd.MED_CH_STATE_STATE ch) = 3 then s.wr Fd.TOP_CONFIG_CHANNELS (s.rd Fd.TOP_CONFIG_CHANNELS - 1) else s
  let s := (s.wr (Fd.MED_CH_STATE_STATE ch) 4).wr (Fd.MED_CH_STATE_CAUSE ch) cause
  let s := if ch < 32 then s.wr Fd.MED_AUTO_LO_MAP (s.rd Fd.MED_AUTO_LO_MAP ||| 2 ^ ch)
    else s.wr Fd.MED_AUTO_HI_MAP (s.rd Fd.MED_AUTO_HI_MAP ||| 2 ^ (ch - 32))
  let s := ({ s with med := { s.med with held := s.med.held.filter (fun (e : Nat × Nat) => e.1 ≠ ch) } }).rebuildReads fun o => o.ch = ch
  let dies := ((List.range 32).filter (s.rd (Fd.MED_CH_DIES_MAP ch)).testBit).map fun d => (ch, d / 8, d % 8)
  s.retireDies dies 2 cause ch 0xFF

/-- A status failure of a die: kind 1 program, 2 erase, 3 timeout. Three within 1,024 frames retire it (R228). -/
def State.dieFail (s : State) (o : DieOp) (kind : Nat) : State :=
  let d := dieKey o.ch o.ce o.lun
  let f := s.rd Fd.CHO_COUNTER_FRAME
  let l := (s.med.fails.filter fun (e : Nat × Nat × Nat) => decide (f < e.2.1 + 1024)) ++ [(d, f, kind)]
  let s := { s with med := { s.med with fails := l }, hlt := { s.hlt with statusFail := s.hlt.statusFail + 1 } }
  if 3 ≤ (l.filter fun (e : Nat × Nat × Nat) => e.1 = d).length && s.dieUp o.ch o.ce o.lun then
    s.retireDies [(o.ch, o.ce, o.lun)] 1 kind o.ch (8 * o.ce + o.lun)
  else s

/-- A program or erase ends as a status failure (R193, R227): its block is bad. A copy's destination gets another block on its channel, and
the rows already written to it are written again; what a spawn program carried is programmed elsewhere; a member of a stripe is rebuilt,
and its round programmed from the buffer once it is. A clear record is programmed again on the die's other ring block, and records that wait for
their system-area page go to another block. -/
def State.statusFailure (s : State) (o : DieOp) : State :=
  let s := s.dropOp o.id
  let l := s.memberOf o.ch o.ce o.lun o.block
  let s : State := match o.kind with
    | .erase => (s.badBlock o.ch o.ce o.lun o.block false).unitErased o.unit
    | _ =>
      if o.purpose = 8 then s.badBlock o.ch o.ce o.lun o.block false
      else if o.purpose = 11 then
        let d := dieKey o.ch o.ce o.lun
        let s := (s.badBlock o.ch o.ce o.lun o.block false).setRing d { s.ring d with active := 5 - o.block, used := 0, recs := [], prev := (s.ring d).prev ++ (s.ring d).recs }
        s.queueOp { s.progOp o.ch o.ce o.lun (5 - o.block) 0 11 o.unit true with checked := true }
      else if o.slc then (s.badBlock o.ch o.ce o.lun o.block true).reput o
      else if o.purpose = 3 then l.foldl (fun (s : State) r => s.replaceMember r) (s.badBlock o.ch o.ce o.lun o.block false)
      else s.badBlock o.ch o.ce o.lun o.block true
  s.dieFail o (if o.kind = DieKind.erase then 2 else 1)

/-! ## Transient events and retraining (R224-R226) -/

/-- Transient events of a channel within the last 10 s. -/
def State.trans10 (s : State) (ch : Nat) : Nat :=
  (s.med.events.filter fun (e : Nat × Nat) => e.1 = ch && decide (s.now < e.2 + 10000000000)).length

/-- A transient event: its count, the channel is held for retraining, its operation waits for its retry. 64 within 10 s
are a permanent fault. -/
def State.transient (s : State) (ch : Nat) (count : Fld) (op : Option Nat) : State :=
  let s := s.bump count 1
  let s := { s with
    med := { s.med with events := (s.med.events.filter fun (e : Nat × Nat) => decide (s.now < e.2 + 10000000000)) ++ [(ch, s.now)] }
    hlt := { s.hlt with transient := s.hlt.transient + 1 } }
  let s := s.wr (Fd.MED_CH_STATE_TRANS10 ch) (min 64 (s.trans10 ch))
  if 64 ≤ s.trans10 ch then s.autotomy ch 5
  else
    let s := match op with
      | some i => s.modOp i fun o => { o with st := 4 }
      | none => s
    let s := if s.med.held.any fun (e : Nat × Nat) => e.1 = ch then s
      else { s with med := { s.med with held := s.med.held ++ [(ch, s.now)] } }
    s.wr (Fd.MED_CH_STATE_STATE ch) 3

/-- BUSCRC_EVENT: the read-back after a program's data-in does not match. -/
def execBuscrcEvent (op t : Nat) (s : State) : Result :=
  onOp s op fun o =>
    if o.kind ≠ .program || !o.busy then .next (s.at t)
    else .next ((s.at t).transient o.ch (Fd.MED_CH_XEVT_BUSCRC o.ch) (some op))

/-- The maximum time of an operation (R210): native ones from the parameter page, SLC ones from the die table, never above the native
maximum of their kind; none is below the typical time. -/
def State.maxTime (s : State) (o : DieOp) : Nat :=
  let k := match o.kind with | .read | .check => 0 | .program => 1 | .erase => 2
  let native := max (nth s.med.maxTimes k 0) (nth [s.tRead, s.tProg, tEraseNative] k 0)
  if o.slc then max (min native (Config.slcMaxTime k)) (nth [tSlcRead, tSlcProg, tEraseSlc] k 0) else native

/-- OPERATION_TIMEOUT: not ready at three times its maximum, time suspended apart. An operation that times out again on its retry counts
as a status failure of the die (R210, R227). -/
def execOperationTimeout (op t : Nat) (s : State) : Result :=
  onOp s op fun o =>
    let s := s.at t
    if !o.busy || decide (o.ran + (if o.st = 1 then s.now - o.startedAt else 0) < 3 * s.maxTime o) then .next s
    else
      let s := ((s.overrun o).transient o.ch (Fd.MED_CH_XEVT_TIMEOUT o.ch) (some op)).modOp op fun o => { o with timed := true }
      .next (if o.timed then s.dieFail o 3 else s)

/-- A channel's training check is due: MED_CFG.TCHK frames since the last one, 0 acting as 1 (R224, R237). -/
def State.checkDue (s : State) (ch : Nat) : Bool :=
  match s.med.tchecks.find? fun (e : Nat × Nat) => e.1 = ch with
  | none => true
  | some e => decide (max 1 (s.rd Fd.MED_CFG_TCHK) ≤ (s.rd Fd.CHO_COUNTER_FRAME + 2 ^ 56 - e.2) % 2 ^ 56)

/-- TRAINING_CHECK: run when it is due and no host read is queued on the channel; an eye below half its trained width is one TRAINLOSS
(R224). -/
def execTrainingCheck (ch : Nat) (eyeOk : Bool) (t : Nat) (s : State) : Result :=
  inRange ch 64 (
    let s := s.at t
    if !s.checkDue ch || s.rd (Fd.MED_CH_STATE_STATE ch) ≠ 2 || s.med.ops.any (fun o => o.ch = ch && o.kind = .read && o.purpose = 0 && o.st = 0) then .next s
    else
      let s := { s with med := { s.med with tchecks := (s.med.tchecks.filter fun (e : Nat × Nat) => e.1 ≠ ch) ++ [(ch, s.rd Fd.CHO_COUNTER_FRAME)] } }
      .next (if eyeOk then s else s.transient ch (Fd.MED_CH_XEVT_TRAINLOSS ch) none))

/-- After a good retraining an operation is retried from its beginning; a block whose erase is retried is suspect (R172). With its four
retries used up a read goes to rebuild, a program or erase becomes a status failure (R225). -/
def State.retryOp (s : State) (o : DieOp) : State :=
  if o.retries < 4 then
    let left := match o.kind with
      | .program => if o.slc then tSlcXfer + tSlcProg else s.tXfer + s.tProg
      | .erase => if o.slc then tEraseSlc else tEraseNative
      | _ => o.left
    let s := if o.kind = .erase then s.modBlock (blockKey o.ch o.ce o.lun o.block) fun b => { b with suspect := true } else s
    s.modOp o.id fun o => { o with st := 0, retries := o.retries + 1, left := left, ran := 0 }
  else if o.kind = .read then s.modOp o.id fun o => { o with st := 0, purpose := 10 }
  else s.statusFailure o

/-- RETRAINING_COMPLETE: usable if both eyes are at least 8 steps wide on every lane (R225, R226). -/
def execRetrainingComplete (ch reye weye t : Nat) (s : State) : Result :=
  inRange ch 64 (
    let s := s.at t
    if !s.med.held.any (fun (e : Nat × Nat) => e.1 = ch) then .next s
    else
      let s := (s.bump (Fd.MED_CH_XEVT_RETRAIN ch) 1).count (Fd.MED_CH_TRAIN_COUNT ch)
      let s := (s.wr (Fd.MED_CH_TRAIN_REYE ch) (min 255 reye)).wr (Fd.MED_CH_TRAIN_WEYE ch) (min 255 weye)
      if reye < 8 || weye < 8 then
        let n := s.rd (Fd.MED_CH_STATE_RTFAIL ch) + 1
        let s := s.wr (Fd.MED_CH_STATE_RTFAIL ch) n
        .next (if 3 ≤ n then s.autotomy ch 4 else s)
      else
        let s := (s.wr (Fd.MED_CH_STATE_RTFAIL ch) 0).wr (Fd.MED_CH_STATE_STATE ch) 2
        let s := { s with med := { s.med with held := s.med.held.filter fun (e : Nat × Nat) => e.1 ≠ ch } }
        .next ((s.med.ops.filter fun o => o.ch = ch && o.st = 4).foldl (fun (s : State) o => s.retryOp o) s))

/-- CHANNEL_HOLD_TIMEOUT: host reads held 500 µs go to on-the-fly rebuild (R211). -/
def execChannelHoldTimeout (ch t : Nat) (s : State) : Result :=
  inRange ch 64 (
    let s := s.at t
    if s.med.held.any (fun (e : Nat × Nat) => e.1 = ch && decide (e.2 + 500000 ≤ t)) then
      .next (s.rebuildReads fun o => o.ch = ch && o.purpose = 0 && (o.st = 0 || o.st = 4))
    else .next s)

/-! ## Polls and ends -/

/-- The first poll of an operation comes at 90% of its typical time (R210). -/
def State.pollDue (s : State) (o : DieOp) : Bool := decide (9 * o.left ≤ 10 * (s.now - o.startedAt))

/-- STATUS_POLL: a busy LUN is polled; a FAIL of a program or erase is a status failure (R210, R227). -/
def execStatusPoll (op : Nat) (ready fail : Bool) (t : Nat) (s : State) : Result :=
  onOp s op fun o =>
    let s := s.at t
    if o.st ≠ 1 || !s.pollDue o || !ready || !fail || o.kind = .read then .next s else .next ((s.overrun o).statusFailure o)

/-- The clutches a spawn program carries that no other program of its kind still carries: they are wholly on flash now. -/
def State.carriedHome (s : State) (o : DieOp) : List (Nat × Nat) := o.carries.filter fun e => !s.carried e.1 (· = o.purpose)

/-- Staged or flushed clutches have reached their segment: the STAGE record, and their buffer space is released (R176, R179). -/
def State.stagedDone (s : State) (o : DieOp) : State :=
  let l := s.carriedHome o
  let at' (id : Nat) : Option Nat := (l.find? (·.1 = id)).map (·.2)
  let names := l.flatMap fun e => match s.clutches.find? (·.id = e.1) with | some c => [c.id, c.gran, c.ngran] | none => []
  let s := if names.isEmpty then s else s.journal .stage (o.unit :: names)
  let s := { s with clutches := s.clutches.map fun (c : Clutch) => match at' c.id with
    | some p => if c.place = .buffer then { c with place := .spawn o.unit, pos := p, onFlash := true } else c
    | none => c }
  if o.purpose = 4 then
    { s with pwr := { s.pwr with flushQueue := s.pwr.flushQueue.filter fun i => (at' i).isNone, flushCount := s.pwr.flushCount + l.length } }
  else s

/-- Clutches have been moved home after a flush: their REMAP records (R198). -/
def State.homeDone (s : State) (o : DieOp) : State :=
  (s.carriedHome o).foldl (fun (s : State) (e : Nat × Nat) => s.remap (.home o.ce e.1 o.unit e.2)) s

/-- A program ends well. A system-area page commits the records it holds (R175). A native unit is one more on its member of the
stripe; a round is whole when every member has it. -/
def State.programDone (s : State) (o : DieOp) : State :=
  let s := s.dropOp o.id
  if o.slc then
    let s := if o.purpose = 6 then s else s.modSeg o.unit fun g => { g with blocks := g.blocks.map (fun (m : Member) =>
      if o.onBlock m then { m with units := max m.units (o.row / 15 + 1) } else m) }
    match o.purpose with
    | 1 | 4 | 13 => s.stagedDone o
    | 12 => s.homeDone o
    | 6 => s.rebuildWritten o
    | 8 => { s with xlt := { s.xlt with
        unflashed := s.xlt.unflashed.filter fun q => !o.carries.any (·.1 = q)
        flashed := max s.xlt.flashed (maxNat (o.carries.map fun (e : Nat × Nat) => e.1) + 1) } }.commitResets.commitRemaps
    | 11 => (s.clearIntent o.unit).modBlock o.unit fun b => { b with state := if b.state = 1 then 0 else b.state }
    | _ => s
  else if o.purpose = 6 then s.rebuildWritten o
  else
    (s.modStripe o.unit fun t => { t with members := t.members.map fun m => if o.onBlock m then { m with units := max m.units (o.row + 1) } else m }).settleRounds o.unit

/-- PROGRAM_COMPLETE (R179). -/
def execProgramComplete (op t : Nat) (s : State) : Result :=
  onOp s op fun o =>
    if o.kind ≠ .program || o.st ≠ 1 then .next (s.at t) else .next (((s.at t).overrun o).programDone o)

/-- ERASE_COMPLETE: the cycle is counted, SUSPECT clears, and the clear record is queued; the block is free once it is
programmed (R216, R217). -/
def execEraseComplete (op t : Nat) (s : State) : Result :=
  onOp s op fun o =>
    let s := s.at t
    if o.kind ≠ .erase || o.st ≠ 1 then .next s
    else
      let k := blockKey o.ch o.ce o.lun o.block
      let s := (s.overrun o).dropOp op
      let s := s.modBlock k fun b => { b.cycled o.slc with suspect := false }
      let g := s.ring (dieKey o.ch o.ce o.lun)
      let s := s.queueOp { s.progOp o.ch o.ce o.lun g.active g.used 11 k true with checked := true }
      .next (s.unitErased o.unit)

/-! ## Reads (R219-R223) -/

/-- The entry of the read-level list a die's first retry uses: the one that last succeeded there, else the first. Each further retry
uses the next one (R220). -/
def State.firstEntry (s : State) (d : Nat) : Nat := ((s.med.lastRetry.find? fun (e : Nat × Nat) => e.1 = d).map (·.2)).getD 1

/-- Where what a read reads lies: its clutch's place; a sample of the self-test names its stripe. -/
def State.placeOf (s : State) (o : DieOp) : Option Place :=
  if o.eft = sampleEft then some (.stripe o.unit) else (s.clutchOf o.unit).map Clutch.place

/-- A read marks its stripe or segment for refresh (R223). -/
def State.markRead (s : State) (o : DieOp) : State := match s.placeOf o with | some p => s.markPlace p | none => s

/-- The channel recovered a read: it is counted once, at the step that decoded it. The entry a retry found good is the die's first from then
on; how the list ends the spec does not say, and the entry's number is not bounded (DESIGN CHOICE, assumption 142). -/
def State.readRecovered (s : State) (o : DieOp) (retry : Nat) (soft : Bool) : State :=
  let d := dieKey o.ch o.ce o.lun
  let s := if soft then { s.bump (Fd.MED_CH_RDREC_SOFT o.ch) 1 with hlt := { s.hlt with soft := s.hlt.soft + 1 } }
    else if retry ≠ 0 then
      { s.bump (Fd.MED_CH_RDREC_RETRY o.ch) 1 with
        hlt := { s.hlt with retry := s.hlt.retry + 1 }
        med := { s.med with lastRetry := (s.med.lastRetry.filter fun (e : Nat × Nat) => e.1 ≠ d) ++ [(d, s.firstEntry d + retry - 1)] } }
    else s
  if soft || decide (max 1 (s.rd Fd.MED_CFG_REFRESH_AT) ≤ retry) then s.markRead o else s

/-- The read that waits for an operation ends with Unrecovered Read Error. -/
def State.failRead (s : State) (o : DieOp) : State :=
  let p := o.eft / 32
  let n := o.eft % 32
  match (s.eft p n).parked.find? fun i => i.ix = o.unit with
  | none => s
  | some i =>
    let s := s.modEft p n fun e => { e with parked := e.parked.erase i }
    (if i.cls = .digest then s.feedDone i.tag i.ix (.inl .unrecoveredRead) else s.readItemDone i.tag i.ix (.inl .unrecoveredRead)).concludeRecon

/-- A read ended in failure: its count and its record (R220). A sample of segment 5 fails the segment (R127); a clutch being copied, whose only
place this was, is lost. -/
def State.readFailed (s : State) (o : DieOp) : State :=
  let s := { s.bump (Fd.MED_CH_RDREC_FAILED o.ch) 1 with hlt := { s.hlt with readsFailed := s.hlt.readsFailed + 1 } }
  let s := if o.eft = sampleEft && s.test.segment = 5 then s.noteFailed 5 else s
  let s := match s.placeOf o with
    | some (.spawn _) => if o.carries.isEmpty then s
      else { s with clutches := s.clutches.map fun (x : Clutch) => if x.id = o.unit then { x with place := .lost } else x }
    | _ => s
  let c := if o.eft = sampleEft then none else s.clutchOf o.unit
  (s.record 0x0406 ([o.ch, 8 * o.ce + o.lun] ++ pay 4 ((c.map (·.nsid)).getD 0) ++ pay 8 ((c.map (·.lba)).getD 0))).failRead o

/-- DIE_READ_COMPLETE: the page is decoded: hard, at retry `retry` (0: no retry decoded it), or soft; what none of them
decodes goes to stripe rebuild (R220). -/
def execDieReadComplete (op : Nat) (hardOk : Bool) (retry : Nat) (softOk : Bool) (t : Nat) (s : State) : Result :=
  onOp s op fun o =>
    let s := s.at t
    if o.kind ≠ .read || o.st ≠ 1 || o.purpose = 10 then .next s
    else
      let most := max 1 (s.rd Fd.MED_CFG_RETRY_MAX)
      if hardOk then .next (s.dropOp op)
      else if retry ≠ 0 && retry ≤ most then .next ((s.dropOp op).readRecovered o retry false)
      else if softOk && s.flag Fd.MED_CFG_SOFT_EN then .next ((s.dropOp op).readRecovered o most true)
      else
        let s := if s.flag Fd.MED_CFG_SOFT_EN || decide (max 1 (s.rd Fd.MED_CFG_REFRESH_AT) ≤ most) then s.markRead o else s
        .next (s.modOp op fun o => { o with st := 0, purpose := 10 })

/-- Other members of a read's stripe or segment that are lost, or on a die out of service, by position. -/
def State.othersLost (s : State) (o : DieOp) : List Nat :=
  let gone (c : Nat) (l : List Member) : List Nat :=
    (((List.range l.length).zip l).filter fun (e : Nat × Member) => !o.onBlock e.2 && (e.2.status ≠ 0 || !s.dieUp e.2.ch c e.2.lun)).map (·.1)
  match s.placeOf o with
  | some (.spawn g) => ((s.seg g).map fun h => gone h.choir h.blocks).getD []
  | some (.stripe q) | some (.log q) => ((s.stripe q).map fun t => gone t.choir t.members).getD []
  | _ => []

/-- Bytes `lo` to `hi - 1` of a member's page of a stripe's row, from the other members: through P, through Q where P cannot be read, or
through both where another data member cannot (R153, R221). -/
def State.rebuildRow (s : State) (t : Stripe) (row role : Nat) (other : Option Nat) (lo hi : Nat) : Bytes :=
  let page (j : Nat) : Bytes := s.rowBytes t row j lo hi
  let all := (List.range 30).map page
  let p := parityP all (hi - lo)
  let q := parityQ all (hi - lo)
  let left := (List.range 30).map fun j => if j = role || some j = other then zeros (hi - lo) else page j
  match other with
  | some k =>
    if k = 30 then rebuildFromQ left role q
    else if k < 30 then
      (if k < role then (rebuildTwo left k role p q).2 else (rebuildTwo left role k p q).1)
    else rebuildFromP left p
  | none => rebuildFromP left p

/-- The bytes of its clutch that a read's page holds are rebuilt from the other members, and go with the read to the eft that waits for it
(R221). `missing`: another member that cannot be read. -/
def State.rebuildPiece (s : State) (o : DieOp) (missing : Option Nat) : State :=
  match s.clutchOf o.unit with
  | none => s
  | some x =>
    -- the page, the clutch's part of it, and its place in the clutch
    let put (base pg : Nat) (bytes : Nat → Nat → Bytes) : State :=
      let lo := max (16384 * pg) (64 * base)
      let hi := min (16384 * (pg + 1)) (64 * (base + x.ngran))
      if hi ≤ lo then s
      else { s with med := { s.med with
        pieces := s.med.pieces ++ [(x.id, lo - 64 * base, bytes (lo - 16384 * pg) (hi - 16384 * pg))] } }
    match x.place with
    | .stripe q | .log q => match s.stripe q with
      | none => s
      | some t => match (List.range 32).find? fun k => t.members[k]?.any o.onBlock with
        | none => s
        | some k =>
          let role := roleOf q k
          put x.posIn (30 * o.row + role) (s.rebuildRow t o.row role (missing.map (roleOf q)))
    | .spawn g => match s.seg g with
      | none => s
      | some h => match (List.range 15).find? fun k => h.blocks[k]?.any o.onBlock with
        | none => s
        | some k =>
          -- the units of a segment lie on its 15 data blocks in turn, four pages each
          let pg (j : Nat) : Nat := (o.row / 4 * 15 + j) * 4 + o.row % 4
          put x.pos (pg k) fun lo hi =>
            let all := (List.range 15).map fun j => s.segBytesOf g (pg j) lo hi
            rebuildFromP ((List.range 15).map fun j => if j = k then zeros (hi - lo) else s.segBytesOf g (pg j) lo hi) (parityP all (hi - lo))
    | _ => s

/-- STRIPE_REBUILD_READ: the row of a read is rebuilt from the others; `unreadable` of them cannot be read, no fewer than are lost.
A stripe bears two lost members, a spawn segment one (R220-R222). Where one of the others cannot be read that is not lost, P is taken for it
(assumption 132). -/
def execStripeRebuildRead (op unreadable : Nat) (s : State) : Result :=
  onOp s op fun o =>
    if o.purpose ≠ 10 then .next s
    else
      let place := s.placeOf o
      let gone := s.othersLost o
      let bears := match place with | some (.spawn _) => 0 | _ => 1
      if max unreadable gone.length ≤ bears then
        let missing := match gone, place with
          | k :: _, _ => some k
          | [], some (.stripe q) | [], some (.log q) => if unreadable = 0 then none else some (parityPos q)
          | [], _ => none
        let s := if o.eft < 256 then s.rebuildPiece o missing else s
        let s := s.dropOp op
        .next { s.bump (Fd.MED_CH_RDREC_REBUILD o.ch) 1 with hlt := { s.hlt with rebuilt := s.hlt.rebuilt + 1 } }
      else
        let s := (s.dropOp op).readFailed o
        .next (match place with
          | some (.stripe q) => s.loseRows q [o.row]
          | some (.log q) => s.loseRows q [o.row]
          | _ => s)

end Sys2Proof.Machine
end

