-- ==== Sys2Proof/Machine/Calls.lean ====
section
/-! DEFINITION. Call and frame boundaries: the counter, loud work handed to the channel engines, reclaim, grants, and
the closing of turns (R28, R180, R191, R192, R198, R247, R249, R251, R328). -/

namespace Sys2Proof.Machine

open Sys2Proof

/-! ## Host work of a loud call (R180) -/

/-- Programs and erases of a choir handed over and not ended, and of one share of them. -/
def State.handed (s : State) (c : Nat) : Nat :=
  (s.med.ops.filter fun o => o.ce = c && (o.kind = .program || o.kind = .erase)).length
def State.handedTo (s : State) (c k : Nat) : Nat :=
  (s.med.ops.filter fun o => o.ce = c && (o.kind = .program || o.kind = .erase) && o.share = k).length

/-- When the next round of a stripe became complete: the placement that crossed its end; of the last round of a zone gone Full, the first
placement after the zone's last one (R180). -/
def State.roundSince (s : State) (t : Stripe) : Nat :=
  let upTo := (t.handed / 32 + 1) * s.roundGranules
  let l := s.stripeClutches t
  match l.filter fun x => decide (upTo ≤ x.posIn + x.ngran) with
  | [] => t.full
  | r => minNat (r.map (·.id)) s.xlt.nextPlace * 2 ^ 64

/-- The stripe of a choir whose next member program comes first: a round begun goes on, else the round that became complete first; `full`:
only those whose zone has gone Full (R180). -/
def State.roundsReady (s : State) (c : Nat) (full : Bool) : Option Stripe :=
  let l := s.xlt.stripes.filter fun t => t.choir = c && (t.state = 2 || (!full && (t.state = 1 || t.state = 4))) &&
    decide (t.handed < 32 * s.completeRounds t)
  match l.find? fun t => t.handed % 32 ≠ 0 with
  | some t => some t
  | none => argMin s.roundSince l

/-- Round programs, while die tokens of the call remain (`fuel` of them). -/
def State.handRounds (c : Nat) (full : Bool) : Nat → State → State
  | 0, s => s
  | k + 1, s =>
    if s.tokens ≤ s.handed c then s
    else match s.roundsReady c full with
      | none => s
      | some t => State.handRounds c full k (s.handNext t 2)

/-- Buffered clutches of a choir with no program under way, oldest placement first. -/
def State.toStage (s : State) (c : Nat) : List Clutch :=
  s.clutches.filter fun x => x.place = .buffer && s.homeChoir x = some c && !s.carried x.id stages

/-- Stage clutches into the choir's share while tokens and room remain. -/
def State.stageAll (s : State) (c purpose : Nat) (l : List Clutch) : State :=
  l.foldl (fun (s : State) x => if s.tokens ≤ s.handed c then s else (s.putSpawn c x purpose).getD s) s

/-- A buffered clutch that a Flush waits for, with the hold-up failed, or a shutdown: it is programmed into the spawn at every reclaim level
(R104, R109). -/
def State.flushes (s : State) (x : Clutch) : Bool :=
  (s.fns.any fun (e : Nat × Fn) => e.2.shst = 1) ||
    (s.hlt.holdup = 1 && s.cmds.any fun (k : Cmd) => k.kind = .flush && k.targets.contains x.id)

/-- No staging: no room, or none that the next buffered clutch fits into (R180). -/
def State.stagingClosed (s : State) (c : Nat) : Bool :=
  s.stagingRoom c = 0 || match (s.toStage c).head? with
    | some x => (s.segFor c x.ngran 1).isNone
    | none => false

/-- The P and Q programs of a choir's rounds whose slices are computed. -/
def State.handParities (s : State) (c : Nat) : State :=
  (s.xlt.stripes.filter (·.choir = c)).foldl (fun (s : State) t => s.handParity t) s

/-- Host work of a choir's loud call, in the order of R180: with staging room buffered clutches are staged, without it complete rounds go
direct; then the rounds of Full zones. A share without room grows first, up to its target (R185). What a Flush or a shutdown waits for is
staged before. -/
def State.handHost (s : State) (c : Nat) : State :=
  let s := s.handParities c
  let s := if s.stagingRoom c = 0 && s.rd (Fd.XLT_FREE_LEVEL c) < 2 then s.growShare c else s
  let s := s.stageAll c 13 ((s.toStage c).filter s.flushes)
  let s := if s.stagingClosed c then State.handRounds c false (2 * s.tokens) s else s.stageAll c 1 (s.toStage c)
  (State.handRounds c true (2 * s.tokens) s).placeSlices

/-! ## Reclaim in a loud call (R189-R191, R198) -/

/-- Reclaim of a choir while die tokens for it remain in the call (`fuel` programs and picks): moves home, erases and the return of erased
blocks as they are picked; before other work begins, the copies that run go on, one program at a time (R191). -/
def State.reclaim (c : Nat) (limit : State → Bool) : Nat → State → State
  | 0, s => s
  | k + 1, s =>
    if limit s then s
    else
      let pick := s.pickReclaim c
      let first : Bool := match pick with
        | some (.home _ _) | some (.erase _ _) | some (.releaseErased _) => true
        | _ => false
      match (if first then none else s.copyNext c) with
      | some s' => State.reclaim c limit k s'
      | none => match pick with
        | none => s
        | some w =>
          let s' := s.giveWork w
          if s'.xlt.works = s.xlt.works && s'.xlt.spawnErased = s.xlt.spawnErased && s'.xlt.released = s.xlt.released then s
          else State.reclaim c limit k s'

/-- Picks and programs of a call at most: P and Q positions pass without a program. -/
def State.reclaimFuel (s : State) (c : Nat) : Nat := 2 * s.tokens + nth s.xlt.spawnBlocks c 0 + s.xlt.released.length

/-- The work of a loud call. At levels 2 and 3 reclaim has its share of the tokens ahead of host programs, and at every level what host work
leaves (R189, R190). -/
def State.loudWork (s : State) (c : Nat) : State :=
  if !s.gateOpen || s.choState = sFLUSH || !s.xlt.restored then s
  -- under thermal STOP, and on the way to SLEEP and DEEP, only the buffer is programmed (R403, R424)
  else if s.flag Fd.GK_THERM_STOP || 3 ≤ s.rd Fd.GK_PSTATE_NVME then s.handHost c
  else
    let left (s : State) : Bool := decide (s.tokens ≤ s.handed c)
    let s := s.updateWl c
    let s := if 2 ≤ s.rd (Fd.XLT_FREE_LEVEL c) then
        State.reclaim c (fun s => left s || decide ((s.sharesOf c).1 ≤ s.handedTo c 1)) (s.reclaimFuel c) s else s
    let s := s.handHost c
    State.reclaim c left (s.reclaimFuel c) s

/-! ## Boundaries -/

/-- Values of Chorus Control that wait for the frame boundary (R269). -/
def State.applyUnstaged (s : State) : State :=
  let s' := s.cho.unstaged.foldl (fun (s : State) (e : Nat × Nat) =>
    match e.1 with
    | 0 => s.wr Fd.CHO_CTL_CHBOUT e.2
    | 1 => s.wr Fd.CHO_CTL_UNLOCKED_POL e.2
    | 2 => s.wr Fd.CHO_POWER_TOKENS e.2
    | 3 => s.wr Fd.CHO_GUARD_MARGIN e.2
    | _ => s.wr Fd.CHO_GUARD_BASE e.2) s
  { s' with cho := { s'.cho with unstaged := [] } }

/-- Strikes older than 1,024 frames no longer count (R158). -/
def State.ageStrikes (s : State) : State :=
  let f := s.rd Fd.CHO_COUNTER_FRAME
  s.efts.foldl (fun (s : State) (e : Nat × Eft) =>
    let l := e.2.strikeAt.filter fun g => decide (f < g + 1024)
    if l = e.2.strikeAt then s
    else (s.setEft (e.1 / 32) (e.1 % 32) { e.2 with strikeAt := l }).wr (Fd.EFT_PD_E_STATE_STRIKES (e.1 / 32) (e.1 % 32)) (min 2 l.length)) s

/-- The carry into the frame number: levels and factors, write tokens, die tokens, settings, time for the domain, the
local-frame output (R189, R190, R240, R259, R269, R300, R328). -/
def State.frameBoundary (s : State) : State :=
  let s := s.applyUnstaged.setTokens.refreshXlt.setLevels.setFactors.refillAll.ageStrikes.recordFrame
  let s := if s.isRoot && !s.cho.relocking then s.rootTime (s.since / 1000000) else s
  let s := s.chbPulse 2 s.cho.callStart
  s.settleRebuilds.refreshHealth

/-- Slew of one call, in eighths of a ns: at most 100 ppm of its length, towards an offset of 0 (R247). -/
def slewStep (slew : Int) (call : Nat) : Int :=
  let m : Int := ((8 * call / 10000 : Nat) : Int)
  max (-m) (min m slew)

/-- While the hold-up self-test is failed, the structural records that wait for flash go into one system-area page, programmed on a die of
the choir that has the loud call (R175). -/
def State.flashRecords (s : State) : State :=
  if s.xlt.unflashed.isEmpty || s.med.ops.any (fun o => o.purpose = 8 && !o.carries.isEmpty) then s
  else match s.usedChoirs.find? s.inTurn with
    | none => s
    | some c => match (List.range 64).findSome? fun ch => ((s.lunsOf ch c).head?).map fun l => (ch, l) with
      | none => s
      | some d => s.queueOp { s.progOp d.1 c d.2 0 0 8 0 true with carries := s.xlt.unflashed.map fun q => (q, 0) }

/-- A shutdown notification is complete: no command of the function is outstanding, admin ones included, the buffer is on flash, and the
journal is committed: a checkpoint begun since then holds it, and with the hold-up failed its records are on flash (R109, R175, R178). -/
def State.settleShutdown (s : State) : State :=
  if s.clutches.any fun (x : Clutch) => x.place = .buffer then s
  else
    let quiet := (s.fns.filter fun (e : Nat × Fn) => e.2.shst = 1 &&
      !(s.cmds.any fun (c : Cmd) => c.fn = e.1) && !(s.heldSrcs.any fun (c : Src) => c.fn = e.1)).map fun (e : Nat × Fn) => e.1
    if quiet.isEmpty then s
    else
      -- the checkpoint of this shutdown must hold every record written so far
      let new := quiet.filter fun n => (s.fn n).shutFrom.isNone
      let s := new.foldl (fun (s : State) n => s.modFn n fun f => { f with shutFrom := some s.xlt.nextRec }) s
      let s := if quiet.any fun n => decide (s.xlt.ckptDone < ((s.fn n).shutFrom).getD 0) then s.startCheckpoint else s
      let due := quiet.filter fun n => !s.xlt.restored || (decide (((s.fn n).shutFrom).getD 0 ≤ s.xlt.ckptDone) && s.xlt.unflashed.isEmpty)
      let s := { s with boot := { s.boot with cleanStop := s.boot.cleanStop || due.contains 0 } }
      due.foldl (fun (s : State) n => s.modFn n fun f => { f with shst := 2, shutFrom := none }) s

/-- CALL_BOUNDARY: the next call begins (R249). The counter stands until stage 6 of a start has set it. -/
def execCallBoundary (s : State) : Result :=
  if !s.pwr.on || s.asleep || s.rd Fd.GK_PSTATE_CUR = 4 || s.pwr.trip then .next s
  else
    let d := slewStep s.cho.slew s.callNs
    let next := (8 * (s.cho.callStart + s.callNs) + s.cho.callSub + d : Int).toNat
    let start := next / 8
    let s := ({ s with cho := { s.cho with callStart := start, callSub := next % 8, slew := s.cho.slew - d } }).at start
    if s.counter = 0 then .next s
    else
      let was := s.loudNow
      let s := s.setCounter (s.counter + 1)
      let s := if s.counter % 256 = 0 then s.frameBoundary else s
      let s := s.plmTurns was
      let s := (s.usedChoirs.filter s.inTurn).foldl (fun (s : State) c => s.loudWork c) s
      .next (s.flashRecords.startPeers.settleShutdown)

/-- TURN_CLOSING: running erases of the choir are suspended; one that is suspended past the turn end minus the guard has overrun it
(R192, R250, R251, R261). Programs run on, and count as they end. -/
def execTurnClosing (choir t : Nat) (s : State) : Result :=
  inRange choir 4 (
    let s := s.at t
    let s := (s.med.ops.filter fun o => o.ce = choir && o.kind = .erase && o.busy).foldl (fun (s : State) o => s.overrun o) s
    .next (s.suspendErases choir))

end Sys2Proof.Machine
end

