-- ==== Sys2Proof/Machine/Keys.lean ====
section
/-! DEFINITION. What the security island computes: AES-256 CMAC, RFC 5649 key wrap, draws from the TRNG; the device's own
key slots and the record that keeps the host KEK and the membership (R277, R288, R289, R350-R356, R458). -/

namespace Sys2Proof.Machine

open Sys2Proof

/-! ## CMAC (SP 800-38B) -/

/-- Double a block in GF(2^128), most significant bit first. -/
def cmacDouble (b : Bytes) : Bytes :=
  let n := beNat b
  beBytes 16 (((n <<< 1) % 2 ^ 128) ^^^ (if n.testBit 127 then 0x87 else 0))

/-- Chain whole blocks under a cipher. -/
def cmacChain (enc : Bytes → Bytes) : Nat → Bytes → Bytes → Bytes
  | 0, x, _ => x
  | k + 1, x, m => cmacChain enc k (enc (xorBytes x (m.take 16))) (m.drop 16)

/-- The 16 B tag of a message. -/
def cmac (key msg : Bytes) : Bytes :=
  let enc := aesEncWith (aesRoundKeys key)
  let k1 := cmacDouble (enc (zeros 16))
  let n := (msg.length - 1) / 16
  let last := msg.drop (16 * n)
  let x := cmacChain enc n (zeros 16) msg
  let fin := if last.length = 16 then xorBytes last k1
    else xorBytes (last ++ [0x80] ++ zeros (15 - last.length)) (cmacDouble k1)
  enc (xorBytes x fin)

/-! ## Key wrap with padding (RFC 5649) -/

def kwpMark : Bytes := [0xA6, 0x59, 0x59, 0xA6]

/-- Step `t` of wrapping `n` blocks, from 1 to 6n. -/
def kwEncStep (enc : Bytes → Bytes) (n : Nat) (st : Bytes × List Bytes) (t : Nat) : Bytes × List Bytes :=
  let i := (t - 1) % n
  let b := enc (st.1 ++ nth st.2 i [])
  (xorBytes (b.take 8) (beBytes 8 t), setNth st.2 i (b.drop 8))

/-- Unwrap from step `t` down to step 1. -/
def kwDec (dec : Bytes → Bytes) (n : Nat) : Nat → Bytes × List Bytes → Bytes × List Bytes
  | 0, st => st
  | t + 1, st =>
    let i := t % n
    let b := dec (xorBytes st.1 (beBytes 8 (t + 1)) ++ nth st.2 i [])
    kwDec dec n t (b.take 8, setNth st.2 i (b.drop 8))

/-- Blocks of 8 bytes. -/
def blocks8 (b : Bytes) : List Bytes := (List.range (ceilDiv b.length 8)).map fun i => (b.drop (8 * i)).take 8

/-- Wrap a key. -/
def kwpWrap (kek key : Bytes) : Bytes :=
  let a := kwpMark ++ beBytes 4 key.length
  let n := ceilDiv key.length 8
  let p := key ++ zeros (8 * n - key.length)
  if n ≤ 1 then aesEnc kek (a ++ p)
  else
    let st := ((List.range (6 * n)).map (· + 1)).foldl (kwEncStep (aesEncWith (aesRoundKeys kek)) n) (a, blocks8 p)
    st.1 ++ st.2.flatMap id

/-- Unwrap a blob: its plaintext, if the integrity check passes. -/
def kwpUnwrap (kek blob : Bytes) : Option Bytes :=
  if blob.length < 16 || blob.length % 8 ≠ 0 then none
  else
    let n := blob.length / 8 - 1
    let st := if n = 1 then
        let b := aesDec kek blob
        (b.take 8, [b.drop 8])
      else kwDec (aesDecWith (aesRoundKeys kek)) n (6 * n) (blob.take 8, blocks8 (blob.drop 8))
    let p := st.2.flatMap id
    let m := beNat (st.1.drop 4)
    if st.1.take 4 = kwpMark && decide (8 * (n - 1) < m) && decide (m ≤ 8 * n) && (p.drop m).all (· = 0) then some (p.take m) else none

/-- A key of `need` bytes from a wrapped blob: bytes past the key are a label (R355). -/
def unwrapKey (kek blob : Bytes) (need : Nat) : Option Bytes :=
  match kwpUnwrap kek blob with
  | some p => if p.length < need then none else some (p.take need)
  | none => none

/-! ## Draws from the TRNG (R360) -/

/-- Words come while the health tests pass. -/
def State.trngOk (s : State) : Bool := s.flag Fd.SEC_TRNG_STAT_OK

/-- An operation of a command waits for the TRNG (R360). -/
def State.trngWait (s : State) (src : Src) (o : TrngOp) : State :=
  let s := s.keepTag src
  { s with sec := { s.sec with trngWaits := s.sec.trngWaits ++ [o] } }

/-- `n` fresh bytes. -/
def State.draw (s : State) (n : Nat) : Bytes × State :=
  ((Config.drawnKey s.sec.drawn ++ zeros n).take n, { s with sec := { s.sec with drawn := s.sec.drawn + 1 } })

/-! ## The device's slots (R350) -/

def slotHostKek : Nat := 16383
def slotMediaKek : Nat := 16382
def slotRecord : Nat := 16381
def slotGroup : Nat := 16380
def slotPrev : Nat := 16379
def ownDevice : Nat := 0x400
/-- Sources of SEC_KS_INFO. -/
def srcMedia : Nat := 1
def srcInjected : Nat := 2
def srcGroup : Nat := 3
def srcHostKek : Nat := 4
def srcDerived : Nat := 5
def srcGenerated : Nat := 6

def State.setAes (s : State) (k source : Nat) (key : Bytes) : State := s.setSlot k ⟨2, ownDevice, source, key⟩

/-- The AES-256 key of a slot, if it holds one. -/
def State.aesKey (s : State) (k : Nat) : Option Bytes := if (s.slot k).kind = 2 then some (s.slot k).key else none

def State.rootSecret (s : State) : Bytes := s.otpRead 0x60 32

/-- The keys derived from the root secret go into their slots. -/
def State.deriveKeys (s : State) : State :=
  (s.setAes slotMediaKek srcDerived (Config.derive 0 s.rootSecret)).setAes slotRecord srcDerived (Config.derive 1 s.rootSecret)

/-! ## The keys and membership record (R288, R353, R458; its layout is assumption 25) -/

/-- The record's content: the wrapped host KEK; group, device ID and join time; the join block and key blob. -/
structure KeyRec where
  kek : Bytes
  group : Nat
  dev : Nat
  joined : Nat
  block : Bytes
  blob : Bytes
  deriving DecidableEq, Repr

def KeyRec.empty : KeyRec := ⟨[], 0, 0, 0, [], []⟩

def State.keyRec (s : State) : KeyRec :=
  match s.newestRec aKeys 1024 0 with
  | none => KeyRec.empty
  | some b =>
    let k := field b 1 2
    let n := field b 3 2
    ⟨(b.drop 81).take k, field b 5 2, field b 7 2, field b 9 8, (b.drop 17).take 64, (b.drop (81 + k)).take n⟩

def KeyRec.bytes (r : KeyRec) : Bytes :=
  let b := [0xA5] ++ leBytes 2 r.kek.length ++ leBytes 2 r.blob.length ++ leBytes 2 r.group ++ leBytes 2 r.dev ++ leBytes 8 r.joined
    ++ (r.block ++ zeros 64).take 64 ++ r.kek ++ r.blob
  b ++ zeros (1024 - b.length)

/-- Write the record; where the new one leaves a membership out, the mark of the old is zeroed (R289, R465). -/
def State.writeKeys (s : State) (r : KeyRec) (retire : Bool) : State :=
  let a := s.activeSector aKeys 1024 0
  let old := (s.lastValid aKeys 1024 0 a).map fun i => aKeys + 4096 * a + 1024 * i
  let s := s.writeRec aKeys 1024 0 r.bytes
  match old with
  | some x => if retire && s.flashGet x = 0xA5 then s.flashAnd x [0] else s
  | none => s

/-- Reload the slots the firmware can: derived keys, the host KEK, the current group key (R351, R353, R360). A scrapped part has no root
secret left (R342). -/
def State.reloadDevice (s : State) : State :=
  if s.otpLifecycle = lSCRAPPED then s else
  let s := s.deriveKeys
  let r := s.keyRec
  let s := match unwrapKey (Config.derive 2 s.rootSecret) r.kek 32 with
    | some k => s.setAes slotHostKek srcHostKek k
    | none => s
  if r.blob.isEmpty then s
  else match (s.aesKey slotHostKek).bind fun k => unwrapKey k r.blob 32 with
    | some k => s.setAes slotGroup srcGroup k
    | none => s

end Sys2Proof.Machine
end

