-- ==== Sys2Proof/Machine/Signing.lean ====
section
/-! DEFINITION. Signing indices: reservation records, the generation they belong to, what a start reserves; and the translation
checkpoint, which carries a copy of the newest record (R178, R360, R367-R369, R477). -/

namespace Sys2Proof.Machine

open Sys2Proof

/-- TRNG words come: its health tests pass (R360, R373). -/
def State.trngResume (s : State) : State := (s.wr Fd.SEC_TRNG_STAT_OK 1).wr Fd.SEC_TRNG_STAT_AVAIL 1

/-! ## Reservation records (R367) -/

/-- The CRC16 over bytes 1 to 61 checks; the mark aside, the record can be read. -/
def rsvReadable (b : Bytes) : Bool := b.any (· ≠ 0xFF) && leNat ((b.drop 62).take 2) = crc16 ((b.take 62).drop 1)

/-- A valid record: its mark, its CRC16 and its tag under the record key. -/
def State.rsvOk (s : State) (b : Bytes) : Bool :=
  recValid 62 b && match s.aesKey slotRecord with
    | some k => cmac k ((b.take 24).drop 1) = (b.drop 24).take 16
    | none => false

def State.rsvArea (s : State) : List Bytes := (List.range 128).map fun i => s.flashRead (aSign + 64 * i) 64

def rsvSeq (b : Bytes) : Nat := field b 16 8
def rsvEnd (b : Bytes) : Nat := field b 4 8 + field b 12 4

/-- One above the highest sequence readable in the area. -/
def State.rsvNextSeq (s : State) : Nat := maxNat ((s.rsvArea.filter rsvReadable).map rsvSeq) + 1

/-- The largest end among the valid records of a generation, in the boot flash and in the checkpoint's copy (R368). -/
def State.rsvLargest (s : State) (g : Nat) : Nat :=
  maxNat (((s.rsvArea ++ [s.sec.ckptRsv]).filter fun (b : Bytes) => s.rsvOk b && field b 1 1 = g).map rsvEnd)

/-- The newest valid record of the area. -/
def State.rsvNewest (s : State) : Option Bytes := argMax rsvSeq (s.rsvArea.filter s.rsvOk)

/-- Indices of a generation. -/
def idxCount : Nat := 2 ^ 40

/-- Signing is refused until a reservation can be written (R369). -/
def State.exhaust (s : State) : State := (s.wr Fd.SEC_IDENT_READY 0).wr Fd.SEC_IDENT_EXHAUSTED 1

/-- The next index to sign and the end of its reservation. -/
def State.setIdx (s : State) (idx stop : Nat) : State := (s.wr Fd.SEC_IDX_INDEX idx).wr Fd.SEC_RSV_END_END stop

/-- Bytes of a record before its CRC16. -/
def rsvBody (key : Bytes) (g first count seq : Nat) : Bytes :=
  let b := [byte g, 0, 0] ++ leBytes 8 first ++ leBytes 4 count ++ leBytes 8 seq
  b ++ cmac key b ++ zeros 22

/-- Write a reservation from an index up; `ok`: the boot flash takes it. -/
def State.writeRsv (s : State) (first : Nat) (ok : Bool) : State :=
  match ok, s.identGen, s.aesKey slotRecord with
  | true, some g, some k =>
    let n := min 4096 (idxCount - first)
    let b := rsvBody k g first n s.rsvNextSeq
    let s := (s.writeRec aSign 64 62 ([0xA5] ++ b ++ leBytes 2 (crc16 b))).setIdx first (first + n)
    (s.wr Fd.SEC_IDENT_READY 1).wr Fd.SEC_IDENT_EXHAUSTED 0
  | _, _, _ => s.exhaust

/-! ## Generations (R346, R369) -/

/-- A switch of generation waits for VQPS_OTP. -/
def State.switchWaits (s : State) : Bool := s.sec.otpPend.any fun (e : Nat × Nat) => e.1 = 2

/-- The last index of the generation is used: the next one is activated and this one retired, and its own indices begin at 0. -/
def State.endGeneration (s : State) (ok : Bool) : State :=
  match s.identGen with
  | none => s.exhaust
  | some g =>
    let s := s.otpStep 2 g
    if s.pins.vqps then s.writeRsv 0 ok else s.exhaust

/-- A switch that waits goes through once VQPS_OTP is present. -/
def State.switchNow (s : State) : State :=
  let l := s.sec.otpPend.filter fun (e : Nat × Nat) => e.1 = 2
  let s := l.foldl (fun (s : State) (e : Nat × Nat) => s.otpProgram e.1 e.2) s
  ({ s with sec := { s.sec with otpPend := s.sec.otpPend.filter fun (e : Nat × Nat) => e.1 ≠ 2 } }).wr Fd.SEC_OTP_STAT_PEND
    (s.rd Fd.SEC_OTP_STAT_PEND % 4)

/-- A valid reservation covers the next index, written now if need be; READY tells whether one does. -/
def State.ensureRsv (s : State) (ok : Bool) : State :=
  if s.flag Fd.SEC_IDENT_READY then s
  else if s.switchWaits then (if s.pins.vqps then s.switchNow.writeRsv 0 ok else s.exhaust)
  else s.writeRsv (s.rd Fd.SEC_RSV_END_END) ok

/-- A start reserves from the largest end on: what was left of the last reservation is never signed (R368). -/
def State.startSigning (s : State) (ok : Bool) : State :=
  if !(s.lifecycle = lFIELD || s.lifecycle = lRMA) then s
  else if s.switchWaits then s.exhaust
  else match s.identGen with
    | none => s.exhaust
    | some g =>
      let e := s.rsvLargest g
      if idxCount ≤ e then s.endGeneration ok else (s.setIdx e e).writeRsv e ok

/-- An index is used. -/
def State.useIndex (s : State) (ok : Bool) : State :=
  let i := s.rd Fd.SEC_IDX_INDEX + 1
  if idxCount ≤ i then s.endGeneration ok
  else
    let s := s.wr Fd.SEC_IDX_INDEX i
    if i = s.rd Fd.SEC_RSV_END_END then s.wr Fd.SEC_IDENT_READY 0 else s

/-! ## The checkpoint (R178, R367, R477) -/

/-- The choir whose system area takes a quarter of a checkpoint: its own, counted round the used choirs. -/
def State.quarterChoir (s : State) : Option Nat := s.usedChoirs[s.xlt.ckptQuarters % s.usedChoirs.length]?

/-- The checkpoint is complete: the journal space older than it is reused, and the newest reservation record and the frame number go with it
(R178, R249). -/
def State.checkpointDone (s : State) : State :=
  let s := { s with
    xlt := { s.xlt with
      ckptRunning := false, ckptQuarters := 0, ckptMaps := noMaps, safe := s.xlt.ckptMaps, ckptDone := s.xlt.ckptFrom, ckpts := s.xlt.ckpts + 1
      flashed := max s.xlt.flashed s.xlt.ckptFrom, placed := max s.xlt.placed s.xlt.ckptFrom
      journal := s.xlt.journal.filter fun r => decide (s.xlt.ckptFrom ≤ r.seq) }
    sec := { s.sec with ckptRsv := s.rsvNewest.getD s.sec.ckptRsv }
    boot := { s.boot with safeCounts := s.boot.ckptCounts } }
  (s.noteFrame.wr Fd.XLT_JRNL_CKPTS (s.xlt.ckpts % 65536)).wr Fd.XLT_JRNL_FILL s.journalPct

/-- CHECKPOINT_COMPLETE: the next quarter is written, in its choir's loud turn; behind the last one stands the CHECKPOINT record, and the
checkpoint is complete when that commits: at once, or, with the hold-up failed, when its system-area page is programmed (R175, R178). -/
def execCheckpointComplete (s : State) : Result :=
  let waits (s : State) : Bool := s.xlt.journal.any fun r => r.kind = .checkpoint && s.xlt.unflashed.contains r.seq
  if !s.xlt.ckptRunning then .next s
  else if 4 ≤ s.xlt.ckptQuarters then .next (if waits s then s else s.checkpointDone)
  else if !s.quarterChoir.any s.inTurn then .next s
  else if s.xlt.ckptQuarters < 3 then
    .next { s with xlt := { s.xlt with ckptQuarters := s.xlt.ckptQuarters + 1 } }
  else
    let s := { s with xlt := { s.xlt with ckptQuarters := 4 } }.journal .checkpoint []
    .next (if waits s then s else s.checkpointDone)

end Sys2Proof.Machine
end

