-- ==== Sys2Proof/Machine/Druzinov.lean ====
section
/-! DEFINITION. The Druzinov Link as a protocol: bring-up of ports, authentication and re-keys, frames and replays,
link-state announcements, the time tree, routed frames and peer reads, group membership and its status (R272-R313). -/

namespace Sys2Proof.Machine

open Sys2Proof

/-! ## Announcements (R290) -/

def State.serial (s : State) : Bytes := s.otpRead 0x30 20

/-- The payload of this part's LSA (layout: assumption 24). -/
def lsaPayload (dev : Nat) (serial : Bytes) (up : Nat) (beat : Bool) (joined : Nat) : Bytes :=
  leBytes 2 dev ++ (serial ++ zeros 20).take 20 ++ [byte up, byte beat.toNat] ++ leBytes 8 joined

/-- Send an LSA on every UP port but one (4: on all). A conflicting device still carries LSAs (R291). -/
def State.flood (s : State) (except : Nat) (b : Bytes) : State :=
  ((List.range 4).filter fun p => p ≠ except && s.pst p = pUP).foldl
    (fun (s : State) p => s.sendFrame ⟨p, 0, 3, s.selfId, 0, 0, 0, b⟩) s

def State.floodOwn (s : State) : State :=
  if s.member then s.flood 4 (lsaPayload s.selfId s.serial s.selfUp s.beatPresent s.dzl.joined) else s

/-! ## Rerouting (R296) -/

/-- Every link of the path that direction flags name is still up. -/
def State.pathUp (s : State) (dest flags : Nat) : Bool :=
  let w := s.dimX
  let h := s.dimY
  let i := s.selfId
  let kx := if flags.testBit 3 then (i % w + w - dest % w) % w else (dest % w + w - i % w) % w
  let ky := if flags.testBit 4 then (i / w + h - dest / w) % h else (dest / w + h - i / w) % h
  s.arcUp (flags.testBit 3).toNat kx i && s.arcUp (2 + (flags.testBit 4).toNat) ky (i / w * w + dest % w)

/-- Peer reads whose path has lost a link are sent again, once, on the new path; without one they fail (R296), and what waited for a place
is sent (R308). -/
def State.reroute (s : State) : State :=
  let lost (o : PeerOut) : Bool := o.open && o.req.dev ≠ s.selfId && !s.pathUp o.req.dev o.path
  let s := (s.dzl.outs.filter lost).foldl (fun (s : State) o =>
    if (s.route o.req.dev).isNone then s.modOut o.tag fun o => { o with ended := some .peerUnreachable }
    else if o.tries < 2 then s.sendPread o else s) s
  (State.sendOuts s.dzl.outs.length s).concludeRecon

/-- The map or this part's ports have changed: root, routes and reads follow. -/
def State.linksChanged (s : State) : State := (s.elect).reroute

/-! ## Port states (R274-R276) -/

/-- A step or wait of a port begins again. -/
def State.restartStep (s : State) (p t : Nat) : State := s.modPort p fun q => { q with since := t }

/-- A port changes state: its record, this part's LSA, and what follows from a change of the up-mask. -/
def State.setPst (s : State) (p st t : Nat) : State :=
  let old := s.pst p
  if old = st then s
  else
    let s := s.restartStep p t
    let partner := if s.flag (Fd.DZL_P_STATE_PVALID p) then s.rd (Fd.DZL_P_STATE_PARTNER p) else 0xFFFF
    let s := s.wr (Fd.DZL_P_STATE_STATE p) st
    let s := s.record (if st = pMISWIRED then 0x0702 else 0x0701) ([p, old, st] ++ pay 2 partner)
    let s := s.floodOwn
    if old = pUP || st = pUP then (s.linksChanged).joinSettle else s

/-- What a port forgets when its session ends. -/
def State.dropSession (s : State) (p : Nat) : State :=
  (s.modPort p fun q => { q with session := false, rekey := false, unacked := [], wait := [], probes := [], nonceA := [], nonceB := [] }).wr
    (Fd.DZL_P_STATE_PVALID p) 0

/-- A port goes down from UP: bring-up is repeated at once (R276, R279, R283). -/
def State.portDown (s : State) (p t : Nat) : State :=
  ((s.dropSession p).modPort p fun q => { q with fromUp := true, fails := 0 }).setPst p pNOSIGNAL t

/-- A bring-up has failed: at once again for the first two failures after UP, else BACKOFF, doubling to 64 s (R276). -/
def State.portFail (s : State) (p t : Nat) : State :=
  let q := s.port p
  let s := (s.dropSession p).restartStep p t
  if q.fromUp && q.fails + 1 < 3 then (s.modPort p fun q => { q with fails := q.fails + 1 }).setPst p pNOSIGNAL t
  else
    (s.modPort p fun q => { q with fails := q.fails + 1, fromUp := false, backoff := if q.backoff = 0 then 1 else min 64 (2 * q.backoff) }).setPst
      p pBACKOFF t

/-- Ports that may be brought up leave DISABLED; the others are disabled (R272, R274). -/
def State.refreshPorts (s : State) (t : Nat) : State :=
  (List.range 4).foldl (fun (s : State) p =>
    if s.portUsed p then (if s.pst p = pDISABLED then s.setPst p pNOSIGNAL t else s)
    else if s.pst p = pDISABLED then s
    else ((s.dropSession p).modPort p fun q => { q with fromUp := false, fails := 0, backoff := 0 }).setPst p pDISABLED t) s

def onPort (p : Nat) (k : Result) : Result := inRange p 4 k

/-- The HELLO payload (layout: assumption 24). -/
def State.helloPayload (s : State) (p : Nat) : Bytes :=
  leBytes 2 (s.rd Fd.DZL_GROUP_GROUP) ++ leBytes 2 s.selfId ++ [byte p, byte (s.rd Fd.DZL_GEOM_DIMX), byte (s.rd Fd.DZL_GEOM_DIMY)]

/-- The link's clock domain runs: not in SLEEP, DEEP or OFF (R35, R292). -/
def State.linkRuns (s : State) : Bool := s.pwr.on && !s.pwr.trip && !s.asleep && s.rd Fd.GK_PSTATE_CUR ≠ 4

/-- PORT_SIGNAL_DETECT: signal on all four receive lanes (R274 step 1). -/
def execPortSignalDetect (port t : Nat) (s : State) : Result :=
  onPort port (if s.linkRuns && s.portUsed port && s.pst port = pNOSIGNAL then .next ((s.at t).setPst port pTRAINING t) else .next (s.at t))

/-- PORT_TRAINING_COMPLETE: HELLO begins (R274 steps 2 and 3). -/
def execPortTrainingComplete (port t : Nat) (s : State) : Result :=
  onPort port (
    if s.linkRuns && s.pst port = pTRAINING then
      let s := (s.at t).setPst port pHELLO t
      .next (s.sendRaw port 1 0 (s.helloPayload port))
    else .next (s.at t))

/-! ## Authentication (R278, R279) -/

/-- This part is the initiator on a port: the lower ID. -/
def State.initiator (s : State) (p : Nat) : Bool := decide (s.selfId < s.rd (Fd.DZL_P_STATE_PARTNER p))

/-- The tag of one role over the exchange's parties and nonces; none without the key. -/
def State.authTag (s : State) (p role : Nat) (prev : Bool) (a b : Bytes) : Option Bytes :=
  let them := s.rd (Fd.DZL_P_STATE_PARTNER p)
  let theirs := s.rd (Fd.DZL_P_STATE_PPORT p)
  let ids := if s.initiator p then leBytes 2 s.selfId ++ leBytes 2 them ++ [byte p, byte theirs]
    else leBytes 2 them ++ leBytes 2 s.selfId ++ [byte theirs, byte p]
  (s.aesKey (if prev then slotPrev else slotGroup)).map fun k =>
    cmac k ([0x4C, 0x59, 0x44, 0x5A] ++ leBytes 2 (s.rd Fd.DZL_GROUP_GROUP) ++ ids ++ a ++ b ++ [byte role])

/-- The initiator begins: fresh nonce A, key indicator. Without TRNG words it does not begin (R360). -/
def State.startAuth (s : State) (p : Nat) (prev : Bool) : State :=
  if !s.trngOk then s
  else
    let r := s.draw 16
    (r.2.modPort p fun q => { q with nonceA := r.1, nonceB := [], usePrev := prev }).sendRaw p 2 0 (r.1 ++ [byte prev.toNat])

/-- A delay probe (layout: assumption 24): reply flag and stamps, in units of 0.125 ns. A device in conflict sends none (R291). -/
def State.sendDelay (s : State) (p : Nat) (reply : Bool) (t1 t2 t3 : Nat) : State :=
  if s.flag Fd.DZL_DEVID_CONFLICT then s
  else s.sendFrame ⟨p, 0, 5, s.selfId, 0, 0, 0, [byte reply.toNat] ++ leBytes 8 t1 ++ leBytes 8 t2 ++ leBytes 8 t3⟩

/-- Authentication has succeeded: both counters start at 0. At bring-up eight delay probes follow, a step of their own (R274, R276); after a re-key
traffic goes on, what was not acknowledged first. -/
def State.authDone (s : State) (p t : Nat) : State :=
  let q := s.port p
  if s.pst p = pUP then
    let s := (s.bump (Fd.DZL_P_ERR_REKEY p) 1).modPort p fun q => { q with
      sendSeq := 0, recvSeq := 0, rekey := false, rekeys := q.rekeys + 1, unacked := [], wait := q.unacked.map (·.2) ++ q.wait }
    State.sendWaiting p (q.unacked.length + q.wait.length) s
  else
    ((s.modPort p fun q => { q with sendSeq := 0, recvSeq := 0, session := true, unacked := [], wait := [], probes := [] }).restartStep p t).sendDelay
      p false (8 * t) 0 0

/-- Authentication has failed (R276, R278, R279). -/
def State.authFail (s : State) (p t : Nat) : State :=
  let s := (s.bump (Fd.DZL_P_ERR_AUTHFAIL p) 1).modPort p fun q => { q with authFails := q.authFails + 1 }
  if s.pst p = pUP then s.portDown p t else s.portFail p t

/-- A port carries AUTH frames: while it authenticates, or UP, where they are a re-key. -/
def State.authOpen (s : State) (p : Nat) : Bool := (s.pst p = pAUTH && !(s.port p).session) || s.pst p = pUP

/-- HELLO: the partner's group, geometry, ID and port are checked (R275). -/
def execHello (port group dev dimx dimy pport t : Nat) (s : State) : Result :=
  onPort port (
    let s := s.at t
    if !(s.pst port = pHELLO || s.pst port = pMISWIRED) then .next s
    else
      let s := ((s.wr (Fd.DZL_P_STATE_PARTNER port) dev).wr (Fd.DZL_P_STATE_PVALID port) 1).wr (Fd.DZL_P_STATE_PPORT port) pport
      let good := group = s.rd Fd.DZL_GROUP_GROUP && dimx = s.rd Fd.DZL_GEOM_DIMX && dimy = s.rd Fd.DZL_GEOM_DIMY &&
        dev = s.neighbour s.selfId port && pport = partnerPort port && dev ≠ s.selfId
      if good then
        let s := s.setPst port pAUTH t
        .next (if s.initiator port then s.startAuth port false else s)
      else .next (s.setPst port pMISWIRED t))

/-- MISWIRED_HELLO_RETRY: every 1 s (R275). -/
def execMiswiredHelloRetry (port t : Nat) (s : State) : Result :=
  onPort port (
    let s := s.at t
    if s.pst port = pMISWIRED && decide ((s.port port).since + 1000000000 ≤ t) then
      .next ((s.modPort port fun q => { q with since := t }).sendRaw port 1 0 (s.helloPayload port))
    else .next s)

/-- AUTH1: the responder answers with nonce B and its tag under the named key; without the key, or TRNG words, with a
tag of zeros or not at all. On an UP port it begins a re-key. -/
def execAuth1 (port : Nat) (nonce : Bytes) (prev : Bool) (t : Nat) (s : State) : Result :=
  onPort port (
    let s := s.at t
    if !s.authOpen port || s.initiator port || !s.trngOk then .next s
    else
      let r := s.draw 16
      let up := s.pst port = pUP
      let s := r.2.modPort port fun q => { q with nonceA := nonce, nonceB := r.1, usePrev := prev, rekey := up, since := if up then t else q.since }
      .next (s.sendRaw port 2 0 (r.1 ++ (s.authTag port 0x52 prev nonce r.1).getD (zeros 16))))

/-- AUTH2: the initiator verifies the responder's tag; a failure under the current key leads to the previous one. -/
def execAuth2 (port : Nat) (nonce tag : Bytes) (t : Nat) (s : State) : Result :=
  onPort port (
    let s := s.at t
    let q := s.port port
    if !s.authOpen port || !s.initiator port || q.nonceA.isEmpty then .next s
    else if s.authTag port 0x52 q.usePrev q.nonceA nonce = some tag then
      let s := s.sendRaw port 2 0 ((s.authTag port 0x49 q.usePrev q.nonceA nonce).getD (zeros 16))
      .next ((s.modPort port fun q => { q with nonceA := [], nonceB := [] }).authDone port t)
    else if q.usePrev then .next (s.authFail port t)
    else .next (s.startAuth port true))

/-- AUTH3: the responder verifies the initiator's tag. A bad one under the current key leaves the exchange under the previous key to come
(R278). -/
def execAuth3 (port : Nat) (tag : Bytes) (t : Nat) (s : State) : Result :=
  onPort port (
    let s := s.at t
    let q := s.port port
    if !s.authOpen port || s.initiator port || q.nonceB.isEmpty then .next s
    else if s.authTag port 0x49 q.usePrev q.nonceA q.nonceB = some tag then
      .next ((s.modPort port fun q => { q with nonceA := [], nonceB := [] }).authDone port t)
    else if q.usePrev then .next (s.authFail port t)
    else .next (s.modPort port fun q => { q with nonceA := [], nonceB := [] }))

/-- A re-key begins: no traffic but AUTH frames (R279). -/
def State.beginRekey (s : State) (p t : Nat) : State :=
  if s.pst p ≠ pUP || (s.port p).rekey then s
  else
    let s := s.modPort p fun q => { q with rekey := true, since := t }
    if s.initiator p then s.startAuth p false else s

/-- SESSION_REKEY: either counter has reached 2^47. -/
def execSessionRekey (port t : Nat) (s : State) : Result :=
  onPort port (
    let q := s.port port
    if 2 ^ 47 ≤ q.sendSeq || 2 ^ 47 ≤ q.recvSeq then .next ((s.at t).beginRekey port t) else .next (s.at t))

/-- BRINGUP_TIMEOUT: a step has not finished within 200 ms; a re-key counts as a step. -/
def execBringupTimeout (port t : Nat) (s : State) : Result :=
  onPort port (
    let s := s.at t
    if t < (s.port port).since + 200000000 || !s.linkRuns then .next s
    else if s.pst port = pNOSIGNAL || s.pst port = pTRAINING || s.pst port = pHELLO || s.pst port = pAUTH then .next (s.portFail port t)
    else if s.pst port = pUP && (s.port port).rekey then .next (s.authFail port t)
    else .next s)

/-- BACKOFF_EXPIRY: bring-up is retried after the wait. -/
def execBackoffExpiry (port t : Nat) (s : State) : Result :=
  onPort port (
    let s := s.at t
    if s.linkRuns && s.pst port = pBACKOFF && decide ((s.port port).since + (s.port port).backoff * 1000000000 ≤ t) then .next (s.setPst port pNOSIGNAL t)
    else .next s)

/-- PORT_SIGNAL_LOSS: a lane fails, so the port does (R273, R296). A port in BACKOFF is not brought up until its wait ends (R276). -/
def execPortSignalLoss (port t : Nat) (s : State) : Result :=
  onPort port (
    let s := s.at t
    if s.pst port = pUP then .next (s.portDown port t)
    else if s.pst port = pDISABLED || s.pst port = pNOSIGNAL || s.pst port = pBACKOFF then .next s
    else .next ((s.dropSession port).setPst port pNOSIGNAL t))

/-! ## Frames (R279-R283) -/

/-- A numbered frame arrives: its acknowledgement is taken; a frame that is not the next one expected is discarded. -/
def received (rx : Rx) (s : State) (k : State → State) : Result :=
  onPort rx.port (
    if !(s.port rx.port).session then .next s
    else
      let s := s.acked rx.port rx.ack
      if rx.seq ≠ (s.port rx.port).recvSeq || (s.port rx.port).rekey then .next s
      else .next (k (s.modPort rx.port fun q => { q with recvSeq := q.recvSeq + 1 })))

/-- IDLE carries an acknowledgement alone and takes no number. -/
def execIdle (port ack : Nat) (s : State) : Result :=
  onPort port (if (s.port port).session then .next (s.acked port ack) else .next s)

/-- NAK names the sequence the partner expects: earlier frames are acknowledged, the others are resent; during a re-key they wait for its
end (R279). A frame already resent 8 times takes the port down (R283). -/
def execNak (port seq t : Nat) (s : State) : Result :=
  onPort port (
    let s := s.at t
    if !(s.port port).session then .next s
    else
      let s := s.acked port (seq % 2 ^ 32)
      if (s.port port).rekey then .next s
      else
      let l := (s.port port).unacked.filter fun (e : Nat × Frame) => decide (seq ≤ e.2.seq)
      if l.any (fun (e : Nat × Frame) => decide (8 ≤ e.1)) then
        .next (if s.pst port = pUP then s.portDown port t else s.portFail port t)
      else
        let s := (s.bump (Fd.DZL_P_ERR_REPLAY port) l.length).modPort port fun q => { q with
          replays := q.replays + l.length
          unacked := q.unacked.map fun (e : Nat × Frame) => if seq ≤ e.2.seq then (e.1 + 1, e.2) else e }
        .next { s with dzl := { s.dzl with frames := (l.map (·.2)).reverse ++ s.dzl.frames } })

/-- FRAME_CRC_ERROR: a bad frame is discarded and answered with a NAK that carries the sequence expected. The spec gives the NAK no
form: it is an IDLE frame with flag 4 and the sequence in 6 bytes (DESIGN CHOICE, assumption 106). Outside a session the sequence
expected is 0. A MISWIRED port and one that re-keys send none: they carry nothing but HELLO and AUTH (R275, R279). A frame of a reserved
type is dropped and counted; in a session it took its number (R281, R282). -/
def execFrameCrcError (port : Nat) (reserved : Bool) (s : State) : Result :=
  onPort port (
    let s := s.bump (Fd.DZL_P_ERR_CRC port) 1
    let q := s.port port
    if q.rekey || !(s.pst port = pHELLO || s.pst port = pAUTH || s.pst port = pUP) then .next s
    else if reserved then .next (if q.session then s.modPort port fun q => { q with recvSeq := q.recvSeq + 1 } else s)
    else .next (s.sendRaw port 0 4 (leBytes 6 (if q.session then q.recvSeq else 0))))

/-! ## Delay (R299) -/

/-- The median of at most 8 measurements: of an even number, the mean of the middle two. -/
def median (l : List Nat) : Nat :=
  let q := sortBy (fun a b => decide (a < b)) l
  let n := q.length
  if n % 2 = 1 then nth q (n / 2) 0 else (nth q (n / 2 - 1) 0 + nth q (n / 2) 0) / 2

/-- A finished measurement; the eighth of a bring-up makes the port UP (R274). -/
def State.measured (s : State) (p d t : Nat) : State :=
  let s := s.modPort p fun q => { q with probes := (d :: q.probes).take 8 }
  let s := s.wr (Fd.DZL_P_DELAY_DELAY p) (min (2 ^ 20 - 1) (median (s.port p).probes))
  if s.pst p = pAUTH then
    (if (s.port p).probes.length < 8 then s.sendDelay p false (8 * t) 0 0
     else (s.modPort p fun q => { q with fails := 0, fromUp := false, backoff := 0 }).setPst p pUP t)
  else s

/-- DELAY: a probe is answered with its stamps; a reply, received at `t4`, gives ((t4 − t1) − (t3 − t2)) / 2. -/
def execDelay (rx : Rx) (reply : Bool) (t1 t2 t3 t4 t : Nat) (s : State) : Result :=
  received rx (s.at t) fun s =>
    if s.flag Fd.DZL_DEVID_CONFLICT then s
    else if reply then s.measured rx.port (((t4 - t1) - (t3 - t2)) / 2) t
    else s.sendDelay rx.port true t1 t2 t3

/-- DELAY_PROBE_TIMER: a probe every 1 s on an UP port. -/
def execDelayProbeTimer (port t : Nat) (s : State) : Result :=
  onPort port (
    let s := s.at t
    if s.linkRuns && s.pst port = pUP then .next (s.sendDelay port false (8 * t) 0 0) else .next s)

/-! ## The map (R290, R291, R297) -/

/-- Numbers compared as text: the first differing byte decides. -/
def higherSerial : Bytes → Bytes → Bool
  | [], _ => false
  | _ :: _, [] => true
  | a :: x, b :: y => if a = b then higherSerial x y else decide (b.toNat < a.toNat)

/-- This part loses its ID: its ports leave routing; a Group Join still running fails and its membership is not stored. -/
def State.conflict (s : State) (serial : Bytes) : State :=
  if s.flag Fd.DZL_DEVID_CONFLICT then s
  else
    let s := (s.wr Fd.DZL_DEVID_CONFLICT 1).record 0x0703 (pay 2 s.selfId ++ serial.map (·.toNat))
    let s := s.linksChanged
    let s := if s.dzl.joins.isEmpty then s else s.writeKeys { s.keyRec with group := 0, dev := 0, joined := 0, block := [], blob := [] } true
    (s.endJoins (fun _ => true) .invalidField).floodOwn

/-- An announcement is news: it differs from the map's entry, or the entry's was not sent on in the last 500 ms
(assumption 26). -/
def MapEntry.news (e : MapEntry) (serial : Bytes) (up : Nat) (beat : Bool) (joined t : Nat) : Bool :=
  !(e.serial = serial && e.up = up && e.beat = beat && e.joined = joined) || decide (e.passed + 500000000 ≤ t)

/-- LSA (R290, R291): one that is no news still refreshes its entry. -/
def execLsa (rx : Rx) (dev : Nat) (serial : Bytes) (up : Nat) (beat : Bool) (joined t : Nat) (s : State) : Result :=
  received rx (s.at t) fun s =>
    if 1024 ≤ dev then s
    else if s.member && dev = s.selfId then
      if serial = s.serial then s
      else
        let s := s.flood rx.port (lsaPayload dev serial up beat joined)
        if joined < s.dzl.joined || (joined = s.dzl.joined && higherSerial s.serial serial) then s.conflict serial else s
    else
      let old := s.dzl.map.find? fun e => e.id = dev
      let fresh : Bool := match old with
        | some e => e.news serial up beat joined t
        | none => true
      if !fresh then { s with dzl := { s.dzl with map := s.dzl.map.map fun (e : MapEntry) => if e.id = dev then { e with heard := t } else e } }
      else
        let clash : Bool := match old with | some e => e.serial ≠ serial | none => false
        let since := match old with
          | some e => if e.beat then e.beatSince else t
          | none => t
        let e : MapEntry := ⟨dev, serial, up % 16, beat, joined, t, since, clash, t⟩
        let s := { s with dzl := { s.dzl with map := sortBy (fun (a b : MapEntry) => decide (a.id < b.id)) (e :: s.dzl.map.filter fun (x : MapEntry) => x.id ≠ dev) } }
        (s.flood rx.port (lsaPayload dev serial up beat joined)).linksChanged

/-- LSA_PERIODIC: every 1 s, while the link's clock runs (R292). -/
def execLsaPeriodic (t : Nat) (s : State) : Result := .next (if s.linkRuns then (s.at t).floodOwn else s.at t)

/-- LSA_EXPIRY: an entry not refreshed for 3 s is removed. -/
def execLsaExpiry (dev t : Nat) (s : State) : Result :=
  let s := s.at t
  if s.dzl.map.any fun (e : MapEntry) => e.id = dev && decide (e.heard + 3000000000 ≤ t) then
    .next ({ s with dzl := { s.dzl with map := s.dzl.map.filter fun (e : MapEntry) => e.id ≠ dev } }).linksChanged
  else .next s

/-- ROOT_DISPLACEMENT: a member below the root whose beat has been present for 10 s without a rejection is root (R297).
Another member's rejections show only as an announcement without its beat. -/
def execRootDisplacement (dev t : Nat) (s : State) : Result :=
  let s := s.at t
  let clean : Bool := if dev = s.selfId then s.beatPresent && decide (s.dzl.beatClean + 10000000000 ≤ t)
    else s.dzl.map.any fun (e : MapEntry) => e.id = dev && e.beat && decide (e.beatSince + 10000000000 ≤ t)
  if s.member && s.flag Fd.DZL_TIME_ROOTV && decide (dev < s.rd Fd.DZL_TIME_ROOT) && clean && s.beatMembers.contains dev then
    .next (s.setRoot (some dev))
  else .next s

/-! ## Chroeg time (R298-R302) -/

/-- Forward a TIME frame to the members that have chosen this part as parent; the residence time is free. -/
def State.forwardTime (s : State) (p root epoch frame switch hops sinceMs corr : Nat) : State :=
  let r := s.free (2 ^ 16)
  r.2.sendTime (timePayload root epoch frame switch (hops + 1) sinceMs (corr + s.rd (Fd.DZL_P_DELAY_DELAY p) + r.1))

/-- A re-lock that the root's announcement asks for. A start adopts its time at stage 8 instead (R393). -/
def State.epochRelock (s : State) : State := if s.mode = mBoot then s else s.needRelock

/-- The beat that begins the new train: at it, or at the next qualified beat without a program, a member that re-locks makes the switch
(R302). -/
def State.announcedBeat (s : State) (beat : Nat) : State :=
  let s := { s.newTrain with dzl := { s.newTrain.dzl with switchSoon := false, switchDue := s.cho.relocking } }
  s.useBeat 2 beat

/-- A TIME frame of the source in use is a beat, with its announcement: a new epoch is one that differs from the epoch of an earlier frame
(assumption 126). A member that first sees it with Switch 0 switches at its next qualified beat, not at this one (R302). -/
def State.timeBeat (s : State) (newEpoch : Bool) (switch beat : Nat) : State :=
  let fresh : Bool := newEpoch && s.dzl.timeAt.isSome
  let s := { s with dzl := { s.dzl with timeAt := some beat } }
  if fresh && 0 < switch then (({ s with dzl := { s.dzl with switchSoon := true } }).epochRelock).useBeat 2 beat
  else if s.dzl.switchSoon then (if switch = 0 then s.announcedBeat beat else s.useBeat 2 beat)
  else if fresh then
    let s := (s.newTrain.useBeat 2 beat).epochRelock
    { s with dzl := { s.dzl with switchDue := s.cho.relocking } }
  else s.useBeat 2 beat

/-- TIME: accepted only from the parent's port; root's call 0 lies at arrival less correction and link delay, and is a
beat (R298, R300-R302). -/
def execTime (rx : Rx) (root epoch frame switch hops sinceMs corr t : Nat) (s : State) : Result :=
  received rx (s.at t) fun s =>
    if !(s.rd Fd.DZL_TIME_ROLE = 1 && s.flag Fd.DZL_TIME_ROOTV && rx.port = s.rd Fd.DZL_TIME_PARENT) || s.flag Fd.DZL_DEVID_CONFLICT then s
    else
      let beat := t - (corr + s.rd (Fd.DZL_P_DELAY_DELAY rx.port)) / 8
      let newEpoch := epoch ≠ s.dzl.epoch
      let s := { s with dzl := { s.dzl with epoch := epoch, rootSince := sinceMs } }
      let s := s.forwardTime rx.port root epoch frame switch hops sinceMs corr
      let bad := frame ≠ s.rd Fd.CHO_FRAME_FRAME
      let was := s.flag Fd.DZL_TIME_FRMISM
      let s := s.setFlag Fd.DZL_TIME_FRMISM bad
      let s := if bad && !was then s.record 0x0704 [s.rd Fd.CHO_FRAME_FRAME, frame] else s
      if s.linkSource then s.timeBeat newEpoch switch beat else s

/-! ## Routed frames (R293, R294) -/

/-- ROUTED_FRAME_FORWARD: the router follows the direction flags, x first, and moves the frame between channels at wrap
links. A frame for this device is its own command's; one for a link that is not UP is lost. -/
def execRoutedFrameForward (rx : Rx) (type source dest flags tag : Nat) (payload : Bytes) (s : State) : Result :=
  received rx s fun s =>
    if dest = s.selfId || s.flag Fd.DZL_DEVID_CONFLICT || s.dimX * s.dimY ≤ dest then s
    else
      let w := s.dimX
      let i := s.selfId
      let p := if i % w ≠ dest % w then (flags.testBit 3).toNat else 2 + (flags.testBit 4).toNat
      let vc := s.vcBit i p (flags % 2) (if rx.port < 2 then 1 else 0)
      if s.pst p ≠ pUP then s else s.sendFrame ⟨p, 0, type, source, dest, flags - flags % 2 + vc, tag, payload⟩

/-! ## Peer reads (R295, R303-R308) -/

/-- PREAD: the mode's check, then the read is served, or waits (R305-R307). -/
def execPread (rx : Rx) (source tag : Nat) (req : PeerReq) (s : State) : Result :=
  received rx s fun s =>
    let i : PeerIn := ⟨rx.port, source, tag, req, false⟩
    if s.flag Fd.DZL_DEVID_CONFLICT then s
    else if s.dzl.ins.any fun j => j.port = i.port && j.source = i.source && j.tag = i.tag then s
    else
      let s := { s with dzl := { s.dzl with ins := s.dzl.ins ++ [i] } }
      if s.servesPeers then s.startPeers else s.peerAnswer i .nsNotReady []

/-- PDATA: read data lands in the space reserved for it, which holds the whole answer and no more (R295). A device in conflict takes no
routed frame (R291). -/
def execPdata (rx : Rx) (tag : Nat) (data : Bytes) (s : State) : Result :=
  received rx s fun s => if s.flag Fd.DZL_DEVID_CONFLICT then s else s.modOut tag fun o => if o.open then { o with data := (o.data ++ data).take (4096 * o.req.count) } else o

/-- PSTAT: the read ends. A success whose data has not all landed is left to the timeout. -/
def execPstat (rx : Rx) (tag code blocks : Nat) (s : State) : Result :=
  received rx s fun s =>
    if s.flag Fd.DZL_DEVID_CONFLICT then s
    else
    let st := pstatStatus code
    let s := s.modOut tag fun o =>
      if !o.open || (st = .success && o.data.length ≠ 4096 * blocks) then o else { o with ended := some st }
    (State.sendOuts 32 s).concludeRecon

/-- PEER_READ_TIMEOUT: no PSTAT within PEER_TMO: sent once more, then Peer Unreachable (R308). -/
def execPeerReadTimeout (tag t : Nat) (s : State) : Result :=
  let s := s.at t
  match s.dzl.outs.find? fun o => o.tag = tag && o.open with
  | none => .next s
  | some o =>
    if t < o.sentAt + max 10 (s.rd Fd.DZL_CFG_PEER_TMO) * 1000000 then .next s
    else
      let s := if o.tries < 2 then s.sendPread o else s.modOut tag fun o => { o with ended := some .peerUnreachable }
      .next (State.sendOuts 32 s).concludeRecon

/-! ## Membership (R285-R289) -/

/-- The membership takes effect: registers, ports, routes. -/
def State.setMember (s : State) (group dev dimx dimy t : Nat) : State :=
  let s := ((s.wr Fd.DZL_DEVID_MEMBER (decide (group ≠ 0)).toNat).wr Fd.DZL_DEVID_CONFLICT 0).wr Fd.DZL_DEVID_DEVID dev
  let s := ((s.wr Fd.DZL_GROUP_GROUP group).wr Fd.DZL_GEOM_DIMX dimx).wr Fd.DZL_GEOM_DIMY dimy
  (s.refreshPorts t).elect

/-- No membership. -/
def State.noMember (s : State) (t : Nat) : State := s.setMember 0 0 0 0 t

/-- Every port is disabled: before a leave or another identity takes effect. -/
def State.portsOff (s : State) (t : Nat) : State :=
  (List.range 4).foldl (fun (s : State) p =>
    ((s.dropSession p).modPort p fun q => { q with fromUp := false, fails := 0, backoff := 0 }).setPst p pDISABLED t) s

/-- The join block and command dwords are in form. -/
def joinOk (group dev len : Nat) (b : Bytes) : Bool :=
  let n := blockField b 8 2
  let f := blockField b 1 1
  let w := blockField b 2 1
  let h := blockField b 3 1
  blockField b 0 1 = 0 && f < 8 && blockField b 5 3 = 0 && ((b.drop 10).take 54).all (· = 0) && 1 ≤ group && group ≤ 0xFFFE && w < 32 && h < 32 &&
    decide ((w + 1) * (h + 1) ≤ 1024) && decide (dev < (w + 1) * (h + 1)) && 40 ≤ n && n ≤ 512 && len = 64 + (n + 3) / 4 * 4 && b.length = len &&
    (b.drop (64 + n)).all (· = 0)

/-- Install a group key: it becomes current, the old current key previous, unless that is dropped (R277). -/
def State.installGroupKey (s : State) (k : Bytes) (drop : Bool) (t : Nat) : State :=
  let old := s.aesKey slotGroup
  let s := match drop, old with
    | true, _ => s.zeroSlot slotPrev
    | false, some o => s.setAes slotPrev srcGroup o
    | false, none => s
  let s := s.setAes slotGroup srcGroup k
  if drop then (List.range 4).foldl (fun (s : State) p => s.beginRekey p t) s else s

/-- GROUP_JOIN (R286-R288): `len` is CDW12, `block` the data transferred. -/
def execGroupJoin (src : Src) (group dev len : Nat) (block : Bytes) (t : Nat) (s : State) : Result :=
  host s src .vendor fun s =>
    let s := s.at t
    let f := blockField block 1 1
    let w := blockField block 2 1
    let h := blockField block 3 1
    let blob := (block.drop 64).take (blockField block 8 2)
    let same := s.rd Fd.DZL_GROUP_GROUP = group && s.selfId = dev && s.rd Fd.DZL_GEOM_DIMX = w && s.rd Fd.DZL_GEOM_DIMY = h
    let moving := s.flag Fd.DZL_DEVID_CONFLICT && s.selfId ≠ dev
    if !(s.mode = mServe || s.mode = mDegraded || s.mode = mReadonly) then s.err src .commandSequence
    else if !joinOk group dev len block then s.err src .invalidField
    else if s.member && !same && !moving then s.err src .commandSequence
    else if s.sec.scrapped then s.err src .keySlotEmpty
    else match (s.aesKey slotHostKek).bind fun k => unwrapKey k blob 32 with
      | none => s.err src .invalidField
      | some key =>
        let s := s.installGroupKey key (f.testBit 2) t
        let rejoin := s.member && same
        let s := if rejoin then s
          else { (if moving then s.portsOff t else s) with dzl := { s.dzl with joined := t, map := [], epoch := 0 } }
        let s := s.writeKeys { s.keyRec with group := group, dev := dev, joined := s.dzl.joined, block := block.take 64, blob := blob } true
        let s := if rejoin then s else s.setMember group dev w h t
        let phase := f.testBit 0 && blockField block 4 1 ≠ s.rd Fd.CHO_PHASE_PHASE
        let s := if f.testBit 1 then s else { s.keepTag src with dzl := { s.dzl with joins := s.dzl.joins ++ [⟨src, t, phase⟩] } }
        let s := if phase then (s.stage 1 (blockField block 4 1)).needRelock else s
        if f.testBit 1 then s.ok src else s.joinSettle

/-- GROUP_JOIN_TIMEOUT: 5 s with no port UP: Peer Unreachable; the membership is kept (R288). -/
def execGroupJoinTimeout (t : Nat) (s : State) : Result :=
  let s := s.at t
  .next (if s.anyUp then s else s.endJoins (fun j => decide (j.since + 5000000000 ≤ t)) .peerUnreachable)

/-- Outstanding peer reads of other devices fail. -/
def State.failOuts (s : State) : State :=
  let fail (o : PeerOut) : PeerOut := if o.ended.isNone && o.req.dev ≠ s.selfId then { o with sent := true, ended := some .peerUnreachable } else o
  { s with dzl := { s.dzl with outs := s.dzl.outs.map fail } }

/-- Reads held for a peer are forgotten with the link; running ones end without one. -/
def State.dropHeldIns (s : State) : State :=
  { s with dzl := { s.dzl with ins := s.dzl.ins.filter fun (i : PeerIn) => i.port = 4 || i.running } }

/-- Ports down; keys and stored membership erased. -/
def State.eraseMember (s : State) (t : Nat) : State :=
  let s := ((s.portsOff t).zeroSlot slotGroup).zeroSlot slotPrev
  s.writeKeys { s.keyRec with group := 0, dev := 0, joined := 0, block := [], blob := [] } true

/-- What the link knew is forgotten. -/
def State.forgetDomain (s : State) : State :=
  { s with dzl := { s.dzl with map := [], joined := 0, epoch := 0, rootSince := 0, switchSoon := false, announce := 0, switchDue := false, timeAt := none } }

/-- The part leaves its group: ports down, membership and keys erased, peer reads failed; Chroeg time stops (R289). -/
def State.leaveGroup (s : State) (t : Nat) : State :=
  let s := (((s.eraseMember t).failOuts).dropHeldIns.forgetDomain).noMember t
  (if s.rd Fd.CHO_STATE_SRC_USED = 2 then s.loseTrain else s).concludeRecon

/-- GROUP_LEAVE (R289). A Group Join that still waits ends with Command Sequence Error: the spec does not say how it ends (DESIGN CHOICE,
assumption 127). -/
def execGroupLeave (src : Src) (group dev t : Nat) (s : State) : Result :=
  host s src .vendor fun s =>
    let s := s.at t
    if !(s.member && s.rd Fd.DZL_GROUP_GROUP = group && s.selfId = dev) then s.err src .commandSequence
    else ((s.endJoins (fun _ => true) .commandSequence).leaveGroup t).ok src

/-! ## Group Status (R312, R313) -/

def State.rootOr (s : State) (d : Nat) : Nat := if s.flag Fd.DZL_TIME_ROOTV then s.rd Fd.DZL_TIME_ROOT else d

/-- The 16 bytes of a port. Its delay is cut to whole ns: the spec gives no rounding (DESIGN CHOICE, assumption 128). -/
def State.portEntry (s : State) (p : Nat) : Bytes :=
  let q := s.port p
  [byte (s.pst p), 0] ++ leBytes 2 (if s.flag (Fd.DZL_P_STATE_PVALID p) then s.rd (Fd.DZL_P_STATE_PARTNER p) else 0xFFFF)
    ++ leBytes 4 (s.rd (Fd.DZL_P_DELAY_DELAY p) / 8) ++ leBytes 4 q.replays ++ leBytes 2 q.authFails ++ leBytes 2 q.rekeys

/-- A path of UP links joins this part to the root. -/
def State.onTree (s : State) : Bool := s.flag Fd.DZL_TIME_ROOTV && (hopOf (s.hopsFrom (s.rd Fd.DZL_TIME_ROOT)) s.selfId).isSome

/-- Selector 00h: 128 bytes. Without a path to the root there are no hops and no parent. -/
def State.groupDevice (s : State) : Bytes :=
  let m := s.member
  let role := if !m then 0 else if s.flag Fd.DZL_DEVID_CONFLICT then 3 else if s.isRoot then 2 else 1
  let parent := if s.rd Fd.DZL_TIME_ROLE = 1 && s.onTree then s.rd Fd.DZL_TIME_PARENT else 0xFF
  leBytes 2 (s.rd Fd.DZL_GROUP_GROUP) ++ leBytes 2 (if m then s.selfId else 0xFFFF) ++ [byte (s.rd Fd.DZL_GEOM_DIMX), byte (s.rd Fd.DZL_GEOM_DIMY), byte role,
    byte parent] ++ leBytes 2 (s.rootOr 0xFFFF) ++ [byte (if s.onTree then s.rd Fd.DZL_TIME_HOPS else 0xFF), 0]
    ++ leBytes 2 s.dzl.epoch ++ zeros 18 ++ (List.range 4).flatMap s.portEntry ++ leBytes 8 s.dzl.sent ++ leBytes 8 s.dzl.served
    ++ leBytes 4 ((List.range 1024).filter s.reachable).length ++ zeros 12

/-- The 8 bytes of a device. -/
def State.domainEntry (s : State) (i : Nat) : Bytes :=
  let e := s.dzl.map.find? fun e => e.id = i
  let me := i = s.selfId
  let flags := bitsOf [s.inMap i, s.reachable i, s.flag Fd.DZL_TIME_ROOTV && s.rd Fd.DZL_TIME_ROOT = i,
    if me then s.beatPresent else (e.map (·.beat)).getD false, if me then s.flag Fd.DZL_DEVID_CONFLICT else (e.map (·.conflict)).getD false]
  [byte flags, byte (s.upOf i), byte (if me then 0 else if s.reachable i then ((s.route i).map fun r => r.2.2).getD 0xFF else 0xFF)] ++ zeros 5

/-- Selector 01h: 8,256 bytes. -/
def State.groupDomain (s : State) : Bytes :=
  leBytes 2 (s.rd Fd.DZL_GROUP_GROUP) ++ leBytes 2 ((List.range 1024).filter s.inMap).length ++ leBytes 2 (s.rootOr 0xFFFF)
    ++ leBytes 2 s.dzl.epoch ++ zeros 56 ++ (List.range 1024).flatMap s.domainEntry

/-- NUMD + 1 dwords of a structure, cut or padded with zeros. -/
def numdOf (numd : Nat) (b : Bytes) : Bytes := (b ++ zeros (4 * (numd + 1))).take (4 * (numd + 1))

def execGroupStatusDevice (src : Src) (numd : Nat) (s : State) : Result :=
  host s src .vendor fun s => s.done src .success 0 0 (.bytes (numdOf numd s.groupDevice))

def execGroupStatusDomain (src : Src) (numd : Nat) (s : State) : Result :=
  host s src .vendor fun s =>
    if !s.member || !(List.range 4).any (fun p => s.pst p = pUP) then s.err src .peerUnreachable
    else s.done src .success 0 0 (.bytes (numdOf numd s.groupDomain))

end Sys2Proof.Machine
end

