-- ==== Sys2Proof/Machine/SelfTest.lean ====
section
/-! DEFINITION. The device self-test, its items and its log, and the hold-up self-test (R127-R129, R164, R508-R510). -/

namespace Sys2Proof.Machine

open Sys2Proof

/-! ## The running test and its log -/

/-- The running test ends with an NVMe result code: its result heads the log of the newest 20. -/
def State.endTest (s : State) (result segment : Nat) : State :=
  if s.test.code = 0 then s
  else
    let s := s.cancelItems testTag
    let s := { s with med := { s.med with ops := s.med.ops.filter fun o => o.purpose ≠ 5 && o.eft ≠ sampleEft } }
    s.setTest ⟨0, 0, 0, [], 0, [], 0, ((result, s.test.code, segment, s.hlt.onMinutes / 60) :: s.test.log).take 20⟩

/-- NVMe's results of an aborted test: 1 by the command, 2 by a controller reset, 4 by Format NVM, 8 by another cause,
9 by a sanitize (PRESUMED: R127 names the standard log and no codes). -/
def State.abortTest (s : State) (result : Nat) : State := s.endTest result 0

/-- The hold-up test begins with its wait for a steady reading; one that runs already serves (R510). While PWRFAIL_N has
asserted it waits. -/
def State.startHoldup (s : State) : State :=
  if s.pwr.huStep ≠ 0 then s
  else if s.pwr.pfHold then { s with pwr := { s.pwr with huPending := true } }
  else { s with pwr := { s.pwr with huStep := 1, huPending := false } }

/-- Start a test (R127): PF0 only, one in the device; in SANITIZE it is refused. Its segments run in order from the first. -/
def startTest (src : Src) (code : Nat) (s : State) : State :=
  if src.fn ≠ 0 then s.err src .invalidOpcode
  else if s.test.code ≠ 0 then s.err src .selfTestInProgress
  else if s.mode = mSanitize then s.err src .sanitizeInProgress
  else (s.setTest { s.test with code := code, segment := 1, failed := 0 }).ok src

def execDeviceSelfTestShort (src : Src) (s : State) : Result := host s src .selfTest (startTest src 1)
def execDeviceSelfTestExtended (src : Src) (s : State) : Result := host s src .selfTest (startTest src 2)

/-- DEVICE_SELF_TEST_ABORT, code Fh (R129). -/
def execDeviceSelfTestAbort (src : Src) (s : State) : Result :=
  host s src .selfTest fun s =>
    if src.fn ≠ 0 then s.err src .invalidOpcode else (s.abortTest 1).ok src

/-! ## Segments (R127) -/

/-- Efts whose item of segments 1 and 7 has not run. -/
def State.untried (s : State) : List Nat :=
  (List.range 256).filter fun k => !s.fenced (k / 32) (k % 32) && !s.gated (k / 32) && !s.test.tried.contains k

/-- The clutch segment 6 checks next, in placement order. -/
def State.nextToCheck (s : State) : Option Clutch := argMin (·.id) (s.clutches.filter fun x => decide (s.test.last < x.id) && x.place ≠ .lost)

/-- The item of segment 6 that some eft has, waiting, parked or running. -/
def State.testing (s : State) : Bool :=
  s.efts.any fun e => (e.2.run.toList ++ e.2.deque ++ e.2.parked).any fun i => i.isTest && i.cls = .read

/-- One sample stripe of each choir: the oldest Full one with a programmed round (R127). -/
def State.sampleStripes (s : State) : List Nat :=
  s.usedChoirs.filterMap fun c => (s.xlt.stripes.find? fun t => t.choir = c && t.state = 2 && decide (0 < t.rounds)).map (·.seq)

/-- Programmed rows of the sample stripes. -/
def State.sampleRows (s : State) : Nat :=
  maxNat (s.test.samples.map fun q => ((s.stripe q).map fun t => t.rounds * s.roundRows).getD 0)

/-- The next row of every sample stripe is read: the page of each of its members. -/
def State.queueSamples (s : State) : State :=
  let row := s.test.row
  s.test.samples.foldl (fun (s : State) q =>
    match s.stripe q with
    | none => s
    | some t =>
      if t.rounds * s.roundRows ≤ row then s
      else (t.members.filter fun m => m.status = 0 && s.dieUp m.ch t.choir m.lun).foldl (fun (s : State) m => s.queueOp
        { s.progOp m.ch t.choir m.lun m.block row 5 q false with kind := .read, words := [0, 1, 2, 3], left := 0, checked := true, eft := sampleEft }) s)
    (s.setTest { s.test with row := row + 1 })

/-- The running segment has nothing left to do: 1 and 7 when every eft has had its item, 3 when the hold-up test has ended, 5 when every row of
its samples has been read, 6 when every clutch has been checked. 2 and 4 are checks of the firmware itself. -/
def State.segmentDone (s : State) : Bool :=
  match s.test.segment with
  | 1 | 7 => s.untried.isEmpty
  | 3 => s.pwr.huStep = 0 && !s.pwr.huPending
  | 5 => decide (s.sampleRows ≤ s.test.row) && !s.med.ops.any (·.eft = sampleEft)
  | 6 => s.nextToCheck.isNone && !s.testing
  | 8 => false
  | _ => true

/-- Segment 5 goes on to the next row once the reads of one have come back. -/
def State.nextSamples (s : State) : State :=
  if s.test.segment = 5 && decide (s.test.row < s.sampleRows) && !s.med.ops.any (·.eft = sampleEft) then s.queueSamples else s

/-- What segment 8 sees of the chorus and the links: a train in use that has qualified, and no port that has trained and yet cannot come up
(DESIGN CHOICE, assumption 122: R127 names no criterion). -/
def State.linksBad (s : State) : Bool :=
  (s.rd Fd.CHO_STATE_SRC_USED ≠ 0 && decide (s.cho.goods < 4)) || (List.range 4).any fun p => s.pst p = pMISWIRED

/-- The next segment begins: 2 compares the health counters with their critical thresholds, 3 starts the hold-up test, 5 reads its samples;
6 belongs to the extended test. -/
def State.nextSegment (s : State) : State :=
  let s := if s.test.segment = 3 && s.hlt.holdup = 1 then s.noteFailed 3 else s
  let k := if s.test.segment = 5 && s.test.code = 1 then 7 else s.test.segment + 1
  let s := s.setTest { s.test with segment := k, tried := [] }
  match k with
  | 2 => if s.rd Fd.HLT_CRIT_CW ≠ 0 then s.noteFailed 2 else s
  | 3 => s.startHoldup
  | 5 => s.setTest { s.test with samples := s.sampleStripes, row := 0 }
  | _ => s

/-- The test goes on to the first segment that still has something to do (`fuel` segments at most). -/
def State.settleTest : Nat → State → State
  | 0, s => s
  | k + 1, s =>
    let s := s.nextSamples
    if s.test.code = 0 || s.test.segment = 0 || !s.segmentDone then s else State.settleTest k s.nextSegment

/-! ## Items (R128) -/

/-- The item of a known-answer vector or of a RAM pattern, of a segment. -/
def vectorItem (segment : Nat) : Item := ⟨.selfTest, .device, testTag, segment, false, none, false⟩

/-- The read item of segment 6: of the function in its clutch's tenant tag, or of the device under Key Per I/O (R127, R132). -/
def State.testItem (s : State) (x : Clutch) : Item :=
  let kpio := match s.ns x.nsid with | some m => m.kpio | none => true
  ⟨.read, if kpio then .device else .fn x.stored.hdr.tag, testTag, x.id, false, none, false⟩

/-- An eft whose deque is empty gets an item of the running segment: 1 and 7 once for each eft, 6 the next clutch, one at a time (R127, R128). -/
def State.giveTest (s : State) (p n clutch : Nat) : State :=
  if s.test.code = 0 || s.testSuspended then s
  else
    let s := State.settleTest 8 s
    if s.test.segment = 1 || s.test.segment = 7 then
      (if s.test.tried.contains (eftKey p n) then s else s.pushItem p n (vectorItem s.test.segment))
    else if s.test.segment = 6 then
      (match s.nextToCheck with
       | some x => if x.id = clutch && !s.testing then s.pushItem p n (s.testItem x) else s
       | none => s)
    else s

/-- A vector ends on its eft: one of the segment that runs counts for the eft, and one that failed in segment 7 fences it (R127, R129). -/
def State.endVector (s : State) (p n : Nat) (i : Item) (faulty : Bool) : State :=
  let s := s.endItem p n
  if !i.isTest || s.test.code = 0 || i.ix ≠ s.test.segment then s
  else
    let s := s.setTest { s.test with tried := s.test.tried ++ [eftKey p n] }
    if !faulty then s else if i.ix = 7 then (s.noteFailed 7).fenceEft p n 3 else s.noteFailed i.ix

/-- SELF_TEST_ITEM: an eft with an empty deque gets an item of the segment that runs, 6 for the clutch named; one that has nothing but a
vector in its deque runs it, and one that runs it ends it. The read items of segment 6 run as read items do (R127, R128, R132). -/
def execSelfTestItem (pond n clutch : Nat) (faulty : Bool) (s : State) : Result :=
  onEft pond n (
    if s.fenced pond n || s.gated pond then .next s
    else match (s.eft pond n).run, (s.eft pond n).deque with
    | some i, _ => .next (if i.cls = .selfTest then s.endVector pond n i faulty else s)
    | none, [] => .next (s.giveTest pond n clutch)
    | none, [i] =>
      if i.cls ≠ .selfTest || s.testSuspended then .next s
      else match s.takeNear pond n fun k => k = ItemCls.selfTest with
        | some (j, s) => .next (s.startItem pond n j)
        | none => .next s
    | none, _ => .next s)

/-- DEVICE_SELF_TEST_COMPLETE: the last segment, 8, ends. `failed` names the first segment whose check, of those the model does not
compute, has failed: 1 (its pattern in free DRAM), 4, 5 or 8, 0 for none (assumption 122). The first failed segment is the result; a failed hold-up test puts the part in DEGRADED
(R127, R129). -/
def execDeviceSelfTestComplete (failed : Nat) (s : State) : Result :=
  if s.test.code = 0 || s.testSuspended then .next s
  else
    let s := State.settleTest 8 s
    if s.test.segment ≠ 8 then .next s
    else
      let s := if s.linksBad then s.noteFailed 8 else s
      let f := if s.test.failed = 0 then failed else if failed = 0 then s.test.failed else min failed s.test.failed
      let s := s.endTest (if f = 0 then 0 else 7) f
      .next (if s.hlt.holdup = 1 then s.degrade 2 else s)

/-- GET_LOG_PAGE_DEVICE_SELF_TEST: the running test's code, its completion in percent, which the spec does not give
(assumption 3), and the results. A VF has no self-test and no such page. -/
def execGetLogPageDeviceSelfTest (src : Src) (rae : Bool) (s : State) : Result :=
  host s src .logPage fun s =>
    if src.fn ≠ 0 then s.err src .invalidLogPage
    else
      let s := s.logRead 0 0x06 rae
      let r := if s.test.code = 0 then (0, s) else s.free 101
      r.2.done src .success 0 0 (.selfTest ([s.test.code, r.1] ++ s.test.log.flatMap fun (e : Nat × Nat × Nat × Nat) => [e.1, e.2.1, e.2.2.1, e.2.2.2]))

/-! ## The hold-up self-test (R508-R510) -/

/-- HOLDUP_SELF_TEST_DUE: 24 h after the last run a new one starts; while PWRFAIL_N has asserted it is put off. -/
def execHoldupSelfTestDue (t : Nat) (s : State) : Result :=
  let s := s.at t
  if s.now < s.pwr.huAt + 86400000000000 || s.asleep || s.rd Fd.GK_PSTATE_CUR = 4 then .next s else .next s.startHoldup

/-- HOLDUP_SELF_TEST_START: the bank has been steady for 10 ms at `volt` mV: HU_TEST_N is asserted. -/
def execHoldupSelfTestStart (volt t : Nat) (s : State) : Result :=
  let s := s.at t
  if s.pwr.huStep = 1 && !s.pwr.pfHold then
    .next { s with pwr := { s.pwr with huStep := 2, huVolt := volt }, pins := { s.pins with huTest := true } }
  else .next s

/-- The usable energy suffices: 0.375 C V² is at least 1.25 × (1 J + 2 J × B), where C is 1 A × 20 ms / ΔV, V and ΔV are in
mV and B is the buffer size in GiB. -/
def holdupPasses (volt dv quarters : Nat) : Bool := decide (1000000 * (2 + quarters) * dv ≤ 12 * volt * volt)

/-- A result is in: Critical Warning bit 4 and the commit rule of the journal follow it; a failure is a DEGRADED cause
(R37, R175, R473). -/
def State.holdupResult (s : State) (pass : Bool) : State :=
  let s := ({ s with hlt := { s.hlt with holdup := if pass then 0 else 1 } }).setFlag Fd.XLT_JRNL_FLASH (!pass)
  -- with the hold-up good again a record is committed when it stands in the journal region
  let s := if pass then { s with xlt := { s.xlt with unflashed := [] } }.commitResets.commitRemaps else s
  (if pass then s else s.degrade 2).refreshCrit

/-- HOLDUP_SELF_TEST_END: after 20 ms the load is released, with a fall of `dv` mV measured. -/
def execHoldupSelfTestEnd (dv t : Nat) (s : State) : Result :=
  let s := s.at t
  if s.pwr.huStep ≠ 2 then .next s
  else
    let s := { s with pwr := { s.pwr with huStep := 0, huAt := s.now }, pins := { s.pins with huTest := false } }
    .next (s.holdupResult (holdupPasses s.pwr.huVolt dv (s.rd Fd.XLT_BUF_SIZE)))

/-- PWRFAIL_N asserts: a loaded bank is released at once and the result discarded; the test runs again (R510). -/
def State.dropHoldup (s : State) : State :=
  if s.pwr.huStep = 2 then { s with pwr := { s.pwr with huStep := 0, huPending := true }, pins := { s.pins with huTest := false } } else s

/-! ## The fence command (R159, R165) -/

/-- A write of EFT_FENCE_CMD with GO set fences the eft it names. -/
def fenceCmd (value : Nat) (s : State) : State :=
  if value.testBit 31 && !s.fenced (getBits value 7 5) (getBits value 4 0) then s.fenceEft (getBits value 7 5) (getBits value 4 0) 3 else s

def execEftFenceCmd (requester value : Nat) (s : State) : Result :=
  winWrite requester Reg.EFT_FENCE_CMD value s (fenceCmd value)

end Sys2Proof.Machine
end

