-- ==== Sys2Proof/Machine/Namespaces.lean ====
section
/-! DEFINITION. Namespaces: creation, deletion, attachment, Format NVM, Identify (R46-R50, R66, R86, R87, R317, R318, R351,
R372, R532, R533). -/

namespace Sys2Proof.Machine

open Sys2Proof

/-! ## Dropping data -/

/-- Commands outstanding on a namespace that goes away, or loses its data, end. -/
def State.endNsCmds (s : State) (nsid : Nat) (st : Status) : State :=
  ((s.cmds.filter fun c => c.nsid = nsid && c.kind ≠ .flush).foldl (fun (s : State) c => (s.cancelItems c.tag).finish c st 0 0 .none) s).concludeRecon

/-- Reclaim work for clutches and conventional zones that no longer exist ends. -/
def State.dropWorks (s : State) (nsid : Nat) : State :=
  { s with xlt := { s.xlt with works := s.xlt.works.filter fun (w : Work) => match w with
      | .merge _ n _ => n ≠ nsid
      | .home _ id => s.clutches.any (·.id = id)
      | _ => true } }

/-- Spawn segments that hold no live data are released. -/
def State.dropEmptySegs (s : State) : State := (s.xlt.segs.map (·.id)).foldl (fun (s : State) g => s.dropEmptySeg g) s

/-- A conventional namespace's clutches, homes and merges go. -/
def State.dropConv (s : State) (nsid : Nat) : State :=
  let s := s.removeClutches (·.nsid = nsid)
  let own := s.xlt.stripes.filter fun t => t.nsid = nsid && (t.state = 3 || t.state = 6)
  let s := own.foldl (fun (s : State) t => s.releaseStripe t.seq) s
  { s with xlt := { s.xlt with unread := s.xlt.unread.filter (·.1 ≠ nsid) } }

/-- A conventional namespace binds a home stripe for each of its conventional zones, in the choir R85 gives it (R187). One whose choir has
become too narrow to bind stays without, until a merge can bind one (R206; DESIGN CHOICE, assumption 107). -/
def State.bindHomes (s : State) (n : Ns) : State :=
  if n.zoned then s
  else (((List.range n.zones).filter fun k => s.choirBinds (s.convChoir k)).foldl (fun (s : State) k =>
    (s.bindStripe (s.convChoir k) 1 false 3 n.nsid k).2) s).refreshXlt.setLevels

/-- All data of a namespace goes. Zones that were not Empty take generation `g`, that of the event; Offline zones stay
Offline (R66, R68, R232). -/
def State.dropData (s : State) (g : Nat) (n : Ns) : State :=
  let s := if n.zoned then
      let off := s.zonesIn n (· = .offline)
      let s := s.emptyZones n g (s.zonesIn n (· ≠ .empty))
      off.foldl (fun (s : State) z => s.setZone n.nsid z { s.zone n z with state := .offline }) s
    else s.dropConv n.nsid
  let s := (s.modNs n.nsid fun m => { m with formattedFor := true }).dropWorks n.nsid
  s.dropEmptySegs.refreshXlt

/-! ## Creation (R46, R47, R50, R86, R87, R317, R532, R533) -/

/-- The LBA format rules of R532. -/
def formatBad (fmt dps : Nat) : Bool := decide (2 < fmt) || (fmt = 0 && dps ≠ 0) || (fmt ≠ 0 && dps ≠ 1)

/-- Level select: bit 7 chooses bits [3:0]. -/
def levelBad (x : Nat) : Bool := if x.testBit 7 then decide (0x80 + 9 < x) else x ≠ 0
def nsLevel (x : Nat) : Nat := if x.testBit 7 then x % 16 else 3

/-- Blocks of a clutch: codes 0 to 4. -/
def clutchBlocks (code : Nat) : Nat := nth [16, 4, 8, 16, 32] code 16

/-- The vendor bytes, the command set and the size (R46, R47). A zoned namespace of more than 1,048,576 zones, and one of size 0, get
Invalid Field in Command (DESIGN CHOICE, assumption 100: the spec names no status for them). -/
def createBad (n : NsArgs) : Bool :=
  n.other ≠ 0 ||
  (if n.csi = 2 then
    decide (4 < n.clutchCode) || levelBad n.levelSel || n.nsze % zoneBlocks ≠ 0 || n.nsze = 0 || decide (2 ^ 20 * zoneBlocks < n.nsze)
  else n.csi ≠ 0 || n.clutchCode ≠ 0 || n.levelSel ≠ 0 || n.nsze = 0)

/-- Zones and home stripes of the namespaces there are. -/
def State.zonesTaken (s : State) : Nat := sumNat (s.nss.map Ns.zones)
def State.convTaken (s : State) : Nat := sumNat ((s.nss.filter fun n => !n.zoned).map Ns.zones)
/-- Zone-usable stripes of the used choirs. -/
def State.zoneStripes (s : State) : Nat := sumNat (s.usedChoirs.map fun c => nth s.xlt.nc c 0)

/-- Stripes or zones a creation takes. -/
def argZones (n : NsArgs) : Nat := if n.csi = 2 then n.nsze / zoneBlocks else ceilDiv n.nsze convBlocks

/-- A creation takes no more than the zone-usable stripes, and a conventional one no more than 2 % of the stripes XLT_STRIPES reports
(R86, R173). -/
def State.capacityBad (s : State) (n : NsArgs) : Bool :=
  decide (s.zoneStripes < s.zonesTaken + argZones n) || (n.csi = 0 && decide (s.stripeSlots * 2 / 100 < s.convTaken + argZones n))

/-- The charge would take a function past a quota; a quota of 0 is none, and a charge of nothing takes it past none (R317). -/
def State.pastQuota (s : State) (f nss stripes : Nat) : Bool :=
  let q := s.rd (Fd.VFM_FN_NS_QUOTA f)
  let t := s.rd (Fd.VFM_FN_STRIPEQ_COUNT f)
  (q ≠ 0 && decide (q < (s.nssOf f).length + nss)) || (t ≠ 0 && stripes ≠ 0 && decide (t < s.stripesOf f + stripes))

/-- Put a namespace among the others, by identifier. -/
def insertNs (n : Ns) (l : List Ns) : List Ns := insertBy (fun (a b : Ns) => decide (a.nsid < b.nsid)) n l

/-- Make the namespace: a new generation for its zones, a media key drawn, the homes of a conventional one bound. -/
def State.makeNs (s : State) (nsid : Nat) (n : NsArgs) : State :=
  let g := s.xlt.genCounter + 1
  let m : Ns :=
    { nsid := nsid, zoned := n.csi = 2, nsze := n.nsze, clutch := if n.csi = 2 then clutchBlocks n.clutchCode else 1,
      clutchCode := n.clutchCode, levelSel := n.levelSel, level := if n.csi = 2 then nsLevel n.levelSel else 0, fmt := n.fmt,
      extended := n.extended, kpio := n.kpio, attached := none, formattedFor := true, slot := none, slotReady := false,
      key := s.sec.drawn, gen0 := g, lastFn := none }
  State.bindHomes { s with nss := insertNs m s.nss, xlt := { s.xlt with genCounter := g }, sec := { s.sec with drawn := s.sec.drawn + 1 } } m

/-- The checks and the effect of a creation; it waits while the TRNG withholds words (R360). -/
def createNs (src : Src) (n : NsArgs) (s : State) : State :=
  if src.fn ≠ 0 then s.err src .invalidOpcode
  else if createBad n then s.err src .invalidField
  else if formatBad n.fmt n.dps then s.err src .invalidFormat
  else
    let id := leastFree (s.nss.map (·.nsid)) 1024 1
    if 1024 < id then s.err src .nsIdUnavailable
    else if s.capacityBad n then s.err src .nsInsufficientCapacity
    else if s.pastQuota 0 1 (if n.csi = 2 then 0 else argZones n) then s.err src .quotaExceeded
    else if !s.trngOk then s.trngWait src (.create src n)
    else (s.makeNs id n).done src .success id 0 .none

def execNamespaceManagementCreate (src : Src) (n : NsArgs) (s : State) : Result := host s src .admin (createNs src n)

/-! ## Attachment (R49, R317, R318) -/

/-- The last function's data: another function may not have the namespace (R49). -/
def State.othersData (s : State) (n : Ns) (f : Nat) : Bool := s.holdsData n && n.lastFn ≠ none && n.lastFn ≠ some f

/-- Attach: the charge moves to the function, and the namespace takes its media slot. -/
def State.attachTo (s : State) (nsid f slot : Nat) : State :=
  ((s.modNs nsid fun m => { m with attached := some f, slot := some slot, slotReady := false, lastFn := some f }).settleFlags 0).settleFlags f

def attachNs (src : Src) (nsid f : Nat) (s : State) : State :=
  if src.fn ≠ 0 then s.err src .invalidOpcode
  else match s.ns nsid with
    | none => s.err src .invalidNsOrFormat
    | some n =>
      if fnCount ≤ f then s.err src .invalidField
      else if n.attached = some f then s.err src .nsAlreadyAttached
      else if n.attached.isSome || s.othersData n f then s.err src .nsIsPrivate
      else if !s.assigned f || (f ≠ 0 && s.pastQuota f 1 (if n.zoned then ((s.zonesOf nsid).filter (·.2.counts)).length else n.zones))
        then s.err src .nsAttachLimit
      else match s.attachSlot f with
        | none => s.err src .nsAttachLimit
        | some k => (s.attachTo nsid f k).ok src

def execNamespaceAttach (src : Src) (nsid fn : Nat) (s : State) : Result := host s src .admin (attachNs src nsid fn)

/-- Take a namespace from its function: its media slot is zeroed and returns to the range, and the others move up. -/
def State.unattach (s : State) (n : Ns) : State :=
  match n.attached with
  | none => s
  | some f =>
    let s := match n.slot with | some k => s.zeroSlot k | none => s
    let s := s.modNs n.nsid fun m => { m with attached := none, slot := none, slotReady := false }
    let s := s.moveMedia f (s.rd (Fd.VFM_FN_KEYS_BASE f) + s.rd (Fd.VFM_FN_KEYS_SLOTS f))
    (s.settleFlags f).retryShrink f

def detachNs (src : Src) (nsid f : Nat) (s : State) : State :=
  if src.fn ≠ 0 then s.err src .invalidOpcode
  else match s.ns nsid with
    | none => s.err src .invalidNsOrFormat
    | some n =>
      if n.attached ≠ some f then s.err src .nsNotAttached
      else (((s.endNsCmds nsid .invalidNsOrFormat).unattach n).chargePf0).ok src

def execNamespaceDetach (src : Src) (nsid fn : Nat) (s : State) : Result := host s src .admin (detachNs src nsid fn)

/-! ## Deletion -/

/-- The namespaces an identifier names: FFFF_FFFFh names every one, as in NVMe. -/
def State.named (s : State) (nsid : Nat) : List Ns := if nsid = 0xFFFFFFFF then s.nss else (s.ns nsid).toList

/-- Delete one: its data, its zones and its media slot go. It is no event of R66: the generation counter stands. -/
def State.deleteNs (s : State) (n : Ns) : State :=
  let s := (((s.endNsCmds n.nsid .invalidNsOrFormat).dropData s.xlt.genCounter n).unattach n)
  let s := { s with nss := s.nss.filter (·.nsid ≠ n.nsid), zones := s.zones.filter fun e => e.1 / 2 ^ 20 ≠ n.nsid }
  (s.settleFlags 0).refreshXlt

def execNamespaceManagementDelete (src : Src) (nsid : Nat) (s : State) : Result :=
  host s src .admin fun s =>
    if src.fn ≠ 0 then s.err src .invalidOpcode
    else if (s.named nsid).isEmpty then s.err src .invalidNsOrFormat
    else ((s.named nsid).foldl (fun (s : State) n => s.deleteNs n) s).ok src

/-! ## Format NVM (R48, R66, R129, R372, R532) -/

/-- A new media key: it is drawn, and the slot of the old one zeroed until its reload (R371, R372). -/
def State.newKey (s : State) (nsid : Nat) : State :=
  let k := s.sec.drawn
  let s := match (s.ns nsid).bind (·.slot) with | some x => s.zeroSlot x | none => s
  ({ s with sec := { s.sec with drawn := k + 1 } }).modNs nsid fun m => { m with key := k, slotReady := false }

/-- Format one namespace; commands outstanding on it end, as aborted. -/
def State.formatNs (s : State) (g : Nat) (n : Ns) (fmt : Nat) (extended newKey : Bool) : State :=
  let s := ((s.endNsCmds n.nsid .abortRequested).dropData g n).bindHomes n
  let s := s.modNs n.nsid fun m => { m with fmt := fmt, extended := extended }
  if newKey then s.newKey n.nsid else s

/-- The namespaces a Format names: PF0 may name any, a VF its own. -/
def State.formatSet (s : State) (fn nsid : Nat) : List Ns := (s.named nsid).filter fun n => fn = 0 || n.attached = some fn

/-- One Format is one event of the generation counter (R66). -/
def formatAll (src : Src) (nsid fmt : Nat) (extended newKey : Bool) (s : State) : State :=
  ((s.formatSet src.fn nsid).foldl (fun (s : State) n => s.formatNs s.xlt.genCounter n fmt extended newKey) (s.abortTest 4).nextGen).ok src

def formatCmd (src : Src) (nsid fmt dps : Nat) (extended : Bool) (ses : Nat) (s : State) : State :=
  if (s.formatSet src.fn nsid).isEmpty then s.err src .invalidNsOrFormat
  else if 2 < ses then s.err src .invalidField
  else if formatBad fmt dps then s.err src .invalidFormat
  else if s.mode = mReadonly then s.err src .nsWriteProtected
  else if s.mode = mSanitize then s.err src .sanitizeInProgress
  else if ses ≠ 0 && !s.trngOk then s.trngWait src (.format src nsid fmt dps extended)
  else formatAll src nsid fmt extended (ses ≠ 0) s

def execFormatNvm (src : Src) (nsid fmt dps : Nat) (extended : Bool) (ses : Nat) (s : State) : Result :=
  host s src .admin (formatCmd src nsid fmt dps extended ses)

/-! ## Media slots (R318, R335, R351) -/

/-- MEDIA_SLOT_RELOAD: the firmware unwraps the media key into the namespace's slot; what waited for it goes on. Without
the media KEK in its slot nothing can be unwrapped. -/
def execMediaSlotReload (nsid : Nat) (s : State) : Result :=
  match s.ns nsid with
  | none => .next s
  | some n =>
    match n.attached, n.slot with
    | some f, some k =>
      if n.slotReady || (s.aesKey slotMediaKek).isNone then .next s
      else .next ((s.setSlot k ⟨1, f, srcMedia, Config.drawnKey n.key⟩).modNs nsid fun m => { m with slotReady := true })
    | _, _ => .next s

/-! ## Identify (R47, R56, R89, R98, R109, R128, R380, R402, R532, R533) -/

/-- ENLAT of the five power states in µs: a frame and 4 or 9 ms for PS3 and PS4. -/
def State.enlat (s : State) : List Nat := [0, 0, 0, 1000 * (s.frameMs + 4), 1000 * (s.frameMs + 9)]

/-- Identify Controller. Device Self-test is PF0's only (R127); FRMW: three slots, slot 1 writable, activation without
reset (R380). -/
def State.idCtrl (s : State) (fn : Nat) : IdCtrl :=
  { nn := 1024, mnan := 1024, npss := 4, enlat := s.enlat, frmw := 0x16, awun := 0, awupf := 0, edstt := 720, rtd3e := 200000,
    selfTest := fn = 0 }

def execIdentifyController (src : Src) (s : State) : Result :=
  host s src .identify fun s => s.done src .success 0 0 (.ctrl (s.idCtrl src.fn))

/-- Identify Namespace. NUSE the spec does not give (assumption 3). -/
def nsId (n : Ns) (nuse : Nat) : IdNs :=
  { nsze := n.nsze, ncap := n.nsze, nuse := nuse, nlbaf := 2, flbas := n.fmt + if n.extended then 16 else 0, dps := if n.fmt = 0 then 0 else 1,
    nawun := 0, nawupf := 0, nabsn := 0, nvmSet := 0,
    clutchCode := if n.zoned then (if n.clutchCode = 0 then 3 else n.clutchCode) else 0,
    levelSel := if n.zoned then 0x80 + n.level else 0, blocksPerConvZone := if n.zoned then 0 else convBlocks,
    zsze := if n.zoned then zoneBlocks else 0, mor := if n.zoned then 4095 else 0, mar := if n.zoned then 8191 else 0 }

/-- A namespace not attached to the function is inactive for it; PF0, which manages namespaces, sees every one. -/
def execIdentifyNamespace (src : Src) (nsid : Nat) (s : State) : Result :=
  host s src .identify fun s =>
    match (s.ns nsid).filter fun n => src.fn = 0 || n.attached = some src.fn with
    | none => s.err src .invalidNsOrFormat
    | some n =>
      let r := s.free (n.nsze + 1)
      r.2.done src .success 0 0 (.ns (nsId n r.1))

end Sys2Proof.Machine
end

