-- ==== Sys2Proof/Machine/Restart.lean ====
section
/-! DEFINITION. What resets and starts share: commands abandoned, a function's resources let go, and how a start begins
(R16, R106-R108, R157, R335, R374-R376, R483, R525). -/

namespace Sys2Proof.Machine

open Sys2Proof

/-! ## Commands are abandoned (R106, R307, R311) -/

/-- A command is abandoned: no completion, its tag free, its items and peer reads cancelled, its buffer space let go. Of a conventional
write none of the blocks lands whose placement had not come; R107 allows any subset of whole blocks (DESIGN CHOICE, assumption
102). -/
def State.abandonCmd (s : State) (c : Cmd) : State := ((s.dropOuts c.tag).cancelItems c.tag).dropCmd c.tag

/-- A request of a function's QUIESCE action: the running one goes on without a command, a queued one goes with it. -/
def QReq.of (f : Nat) (r : QReq) : Bool := match r.src with | some src => src.fn = f | none => false

/-- The commands of a function that wait in other places than the list of outstanding ones. -/
def State.forgetWaiting (s : State) (f : Nat) : State :=
  let q := s.quiesce
  let mine (o : TrngOp) : Bool := o.src.any fun (x : Src) => x.fn = f
  { s with
    quiesce := { q with
      running := q.running.map fun (r : QReq) => if r.of f then { r with src := none } else r
      queue := q.queue.filter fun (r : QReq) => !r.of f }
    dzl := { s.dzl with joins := s.dzl.joins.filter fun (j : JoinWait) => j.src.fn ≠ f }
    sec := { s.sec with
      trngWaits := s.sec.trngWaits.filter fun (o : TrngOp) => !mine o
      attests := s.sec.attests.map fun (a : Attest) => { a with held := a.held.filter fun (x : Src) => x.fn ≠ f } } }

/-- A function's commands are abandoned; a peer read served from its namespaces ends with Command Interrupted (R307). -/
def State.abandonFn (s : State) (f : Nat) : State :=
  let mine := s.cmds.filter fun (c : Cmd) => c.fn = f
  (mine.foldl (fun (s : State) (c : Cmd) =>
    if c.kind = .peer then (s.cancelItems c.tag).finish c .commandInterrupted 0 0 .none else s.abandonCmd c) s).forgetWaiting f

/-! ## A function's reset (R107, R157, R335) -/

/-- The lifetime counts of a function. -/
def Fn.counted (g f : Fn) : Fn :=
  { g with unitsRead := f.unitsRead, unitsWritten := f.unitsWritten, readCmds := f.readCmds, writeCmds := f.writeCmds,
           busyMinutes := f.busyMinutes, mediaErrors := f.mediaErrors, errors := f.errors, keyShrink := f.keyShrink, ioSeen := f.ioSeen }

/-- A function after a controller reset: its controller state as at power-on; its notices, zone list, tokens and counts
stay (R530, R335). -/
def Fn.reset (f : Fn) : Fn :=
  { Fn.init.counted f with events := f.events, changed := f.changed, weightKept := f.weightKept, bal := f.bal, extra := f.extra, refill := f.refill,
                           charged := f.charged, chargedLast := f.chargedLast, waited := f.waited }

/-- A function at a start. An internal restart keeps what the host has set in the front end: the enable and the queues,
their fetched entries gone (R377). -/
def Fn.restart (internal : Bool) (f : Fn) : Fn :=
  let g := Fn.init.counted f
  if internal then
    { g with en := f.en, cqs := f.cqs, grant := f.grant,
             sqs := f.sqs.map fun (q : Sq) => { Sq.new q.qid q.size q.cqid with waiting := q.waiting } }
  else g

/-- The item belongs to a function. -/
def Item.ofFn (i : Item) (f : Nat) : Bool := i.owner = Owner.fn f

/-- The efts running an item of a function stop and scrub (R157). -/
def State.stopEfts (s : State) (f : Nat) : State :=
  (s.efts.filter fun (e : Nat × Eft) => e.2.run.any fun (i : Item) => i.ofFn f).foldl (fun (s : State) (e : Nat × Eft) =>
    (s.modEft (e.1 / 32) (e.1 % 32) fun (x : Eft) => { x.letGo.scrub with noProgress := 0 }).bump (Fd.EFT_PD_SCRUBS_COUNT (e.1 / 32)) 1) s

/-- Every key slot of a function's range is zeroed, media slots included; those wait for their reload (R335, R351). -/
def State.evictKeys (s : State) (f : Nat) : State :=
  let b := s.rd (Fd.VFM_FN_KEYS_BASE f)
  let n := s.rd (Fd.VFM_FN_KEYS_SLOTS f)
  { s with
    sec := { s.sec with slots := s.sec.slots.filter fun (e : Nat × KeySlot) => !(decide (b ≤ e.1) && decide (e.1 < b + n)) }
    nss := s.nss.map fun (m : Ns) => if m.slot.any fun (k : Nat) => decide (b ≤ k) && decide (k < b + n) then { m with slotReady := false } else m }

/-- Open zones come back Closed (R82, R107). -/
def Zone.close (w : Zone) : Zone := if w.state.isOpen then { w with state := .closed } else w

def State.closeZones (s : State) (p : Ns → Bool) : State :=
  (s.nss.filter p).foldl (fun (s : State) (n : Ns) =>
    (s.zonesOf n.nsid).foldl (fun (s : State) (z : Nat × Zone) => s.setZone n.nsid z.1 z.2.close) s) s

/-- A controller reset of one function: it stops being fetched for, its commands go, its zones close. -/
def State.resetFn (s : State) (f : Nat) : State :=
  ((s.abandonFn f).modFn f Fn.reset).closeZones fun n => n.attached = some f

/-! ## A start begins (R16, R374-R376, R525) -/

/-- Register words a start finds again: the assignments of the VFs and the record of retired dies and cut-off channels, which
the firmware keeps with the translation maps. They read 0 until BOOT has loaded them (R237, R339). -/
def keptWord (off : Nat) : Bool :=
  (decide (Reg.VFM_FN_STATE 1 ≤ off) && decide (off < Reg.VFM_POOL_QP)) ||
  (decide (Reg.MED_CH_STATE 0 ≤ off) && decide (off < Reg.MED_CFG) && (off % 0x4000 = 0 || off % 0x4000 = 8)) ||
  off = Reg.MED_AUTO_LO || off = Reg.MED_AUTO_HI

/-- What is kept of such a word: a VF's reset and token wait end with the start; of a channel, that it is cut off. -/
def keptValue (off : Nat) (w : Word) : Word :=
  if Reg.VFM_FN_STATE 0 ≤ off then (if off % 0x400 = 0 then w &&& 0xB7FFFFFF#32 else w)
  else if off < Reg.MED_CFG && off % 0x4000 = 0 then (if getBits w.toNat 31 28 = 4 then w &&& 0xFF000000#32 else 0)
  else w

/-- The registers at a start: all at their Reset values (R16) but for the kept words, LOGMEM, which only a start that finds the ring
writable clears (R489), and TOP_LOCK at an internal restart. -/
def State.startRegs (s : State) (internal : Bool) : State :=
  let old := s.regs
  let s := { s with regs := [] }
  old.foldl (fun (s : State) (e : Nat × Word) =>
    if keptWord e.1 then s.setWord e.1 (keptValue e.1 e.2).toNat
    else if e.1 = Reg.TOP_ERR then (s.setWord e.1 (e.2 &&& 0x80000000#32).toNat)
    else if internal && e.1 = Reg.TOP_LOCK then s.setWord e.1 e.2.toNat else s) s

/-- The efts are idle and empty; the boot flash record of their fences stands beside them (R163). -/
def State.startEfts (s : State) : State :=
  s.efts.foldl (fun (s : State) (e : Nat × Eft) =>
    s.setEft (e.1 / 32) (e.1 % 32) { Eft.init with runs := e.2.runs, fencedThisRun := e.2.fencedThisRun }) s

/-- The highest sequence in any home plus 4,097 (R483). -/
def State.firstSeq (s : State) : Nat :=
  maxNat ((s.evr.ring.map fun (e : Nat × Rec) => e.2.seq) ++ s.evr.nand.map Rec.seq ++ s.evr.aon.map Rec.seq) + 4097

/-- A running boot flash operation is cut off: its bytes hold free values (R461, R468). -/
def State.cutSnc (s : State) : State :=
  let s := match s.snc.running with
    | some o => if o.code = 4 then s else s.flashFree o.addr (sncSpan o.code o.len)
    | none => s
  { s with snc := { s.snc with running := none, queue := [] } }

/-! ## What of the maps survives (R82, R83, R199-R201) -/

/-- A PLACE record names a clutch: by zone and granule, or by conventional block. -/
def JRec.places (r : JRec) (zoned : Bool) (x : Clutch) : Bool :=
  r.kind = .place && nth r.args 0 0 = x.nsid &&
    (if zoned then nth r.args 1 0 = x.zone && decide (nth r.args 4 0 ≤ x.gran) && decide (x.gran < nth r.args 4 0 + nth r.args 5 0)
     else decide (nth r.args 1 0 ≤ x.lba) && decide (x.lba < nth r.args 1 0 + nth r.args 2 0))

/-- A unit whose content flash no longer has whole: it is gone, or one of its blocks is erased or has an erase begun (R216). -/
def State.damaged (s : State) (u : Nat) : Bool :=
  let b := s.unitBlocks u
  b.1.isEmpty || b.1.any fun m =>
    let k := m.key (((s.stripe u).map (·.choir)).getD (((s.seg u).map (·.choir)).getD 0))
    (s.block k).state = 0 || (s.ring (k / 8192)).open.any fun r => flagBlock r / 256 % 8192 = k % 8192

def Place.units : Place → List Nat
  | .stripe q | .log q => [q]
  | .spawn g => [g]
  | _ => []

/-- A zone that has data placed beyond the maps a start has: it stands as it stood, with the stripe those maps give it. -/
def zoneBeyond (zs : List (Nat × Zone)) (now : List (Nat × Zone)) (k : Nat) : List (Nat × Zone) :=
  tblSet zoneDefault zs k { tblGet zoneDefault now k with stripe := (tblGet zoneDefault zs k).stripe }

/-- A block that the maps call free and that has been taken since. -/
def blockSince (now : List (Nat × Block)) (e : Nat × Block) : Bool :=
  (e.2.state = 2 || e.2.state = 3 || e.2.state = 4) && (tblGet blockDefault now e.1).state = 0

/-- The rebuild list follows the members: each one that is lost has its entry, and one on a bad block or on a die out of service is lost. -/
def State.relistRebuilds (s : State) : State :=
  let all := (s.xlt.stripes.filter fun t => t.state ≠ 5 && t.state ≠ 0).flatMap (fun t =>
      ((List.range t.members.length).zip t.members).map fun (e : Nat × Member) => (e.2, (⟨t.choir, if t.state = 4 then 2 else 0, t.seq, e.1, 0, false, none⟩ : Rebuild))) ++
    (s.xlt.segs.filter fun g => !g.released).flatMap fun g =>
      ((List.range g.blocks.length).zip g.blocks).map fun (e : Nat × Member) => (e.2, (⟨g.choir, 1, g.id, e.1, 0, false, none⟩ : Rebuild))
  let has (r : Rebuild) : Bool := s.med.rebuilds.any r.same
  let keep := s.med.rebuilds.filter fun r => all.any fun e => r.same e.2 && (r.copy || e.1.status = 1)
  let old := (all.filter fun e => e.1.status = 1 && !has e.2).map (·.2)
  let new := (all.filter fun e => e.1.status = 0 && !has e.2 &&
    ((s.block (e.1.key e.2.choir)).state = 6 || !s.dieUp e.1.ch e.2.choir e.1.lun)).map (·.2)
  { s with med := { s.med with rebuilds := keep ++ old } }.queueRebuilds new

/-- The maps go back to what they were before a record that is gone; answers the clutches whose data goes beyond them, or lay in the buffer
then, or in a unit whose erase has begun (R199, R216). -/
def State.rollBack (s : State) (m : Maps) : List Nat × State :=
  let known (x : Clutch) : Bool := m.clutches.any fun y => y.id = x.id
  let gen (zs : List (Nat × Zone)) (x : Clutch) : Nat := (tblGet zoneDefault zs (zoneKey x.nsid x.zone)).gen
  let zoned (x : Clutch) : Bool := (s.ns x.nsid).any (·.zoned)
  -- of a zone that was reset since, the older data is back, and what was placed after the reset is gone with it
  let over' := (s.clutches.filter fun x => !known x && (!zoned x || gen s.zones x = gen m.zones x)).map fun x => { x with place := .buffer }
  let back := m.clutches.map fun x => if s.clutches.any fun y => y.id = x.id && y.place = .lost then { x with place := Place.lost } else x
  let gone := back.filter fun x => x.place.units.any s.damaged ||
    (x.place = .buffer && s.clutches.any fun y => y.id = x.id && y.place ≠ .buffer)
  let keys := ((over'.filter zoned).map fun x => zoneKey x.nsid x.zone).eraseDups
  let s' := { s with
    zones := keys.foldl (fun zs k => zoneBeyond zs s.zones k) m.zones
    clutches := sortBy (fun (a b : Clutch) => decide (a.id < b.id)) (back ++ over')
    xlt := { s.xlt with
      stripes := m.stripes, segs := m.segs, unread := m.unread, released := m.released, logFree := m.logFree, logFill := m.logFill
      spawnErased := m.spawnErased, spawnBlocks := m.spawnBlocks, works := [], copies := [], remaps := []
      blocks := (s.xlt.blocks.filter (blockSince m.blocks)).foldl (fun bs (e : Nat × Block) =>
        tblSet blockDefault bs e.1 { tblGet blockDefault bs e.1 with suspect := true }) m.blocks } }
  ((over' ++ gone).map (·.id), s'.relistRebuilds)

/-- Records from `seq` on are gone, and, with the hold-up failed, PLACE records that no Flush and no checkpoint has brought to flash: the maps go
back to where the first of them began. Answers the clutches that are lost (R176, R199). -/
def State.dropRecords (s : State) (seq : Nat) : List Nat × State :=
  let gone (r : JRec) : Bool := decide (seq ≤ r.seq)
  let odd := s.xlt.journal.filter fun r => !gone r && s.hlt.holdup = 1 && r.kind = .place && decide (s.xlt.placed ≤ r.seq)
  let ids := (s.clutches.filter fun x => odd.any fun r => r.places ((s.ns x.nsid).any (·.zoned)) x).map (·.id)
  match argMin JRec.seq (s.xlt.journal.filter gone) with
  | none => (ids, s)
  | some r =>
    let b := s.rollBack r.before
    (ids.filter (fun i => !b.1.contains i) ++ b.1,
     { b.2 with xlt := { b.2.xlt with journal := b.2.xlt.journal.filter fun x => !gone x } })

/-! ## Programs at a start (R169, R200) -/

/-- Round programs not yet run are handed over again, round by round from the first that is not whole; what a member holds is not
programmed again. -/
def State.rewindRounds (s : State) : State :=
  { s with
    xlt := { s.xlt with
      slices := []
      stripes := s.xlt.stripes.map fun (t : Stripe) => if t.state = 6 then t else { t with handed := 32 * t.rounds, pq := t.rounds } }
    med := { s.med with parity := [] } }

/-- Die operations end where a start begins. A native program that runs ends in its die (DESIGN CHOICE, assumption 101), or, where power goes,
is cut off: its round is torn. -/
def State.stopOps (s : State) (cut : Bool) : State :=
  let run := s.med.ops.filter fun o => o.kind = .program && !o.slc && o.st ≠ 0
  let here (o : DieOp) (m : Member) : Bool := m.ch = o.ch && m.lun = o.lun && m.block = o.block
  (run.foldl (fun (s : State) o => s.modStripe o.unit fun t =>
    { t with torn := t.torn || cut, members := t.members.map fun m => if here o m then { m with units := max m.units (o.row + 1) } else m })
    { s with med := { s.med with ops := [] } }).rewindRounds

/-- Engines, queues and tables that do not outlive a start. -/
def State.startTables (s : State) (internal : Bool) : State :=
  let s := s.stopOps false
  { s with
    cmds := []
    kept := []
    landing := []
    nss := s.nss.map fun (n : Ns) => { n with slotReady := false }
    fns := (s.fns.map fun (e : Nat × Fn) => (e.1, e.2.restart internal)).filter fun (e : Nat × Fn) => e.2 ≠ Fn.init
    latch := []
    quiesce := ⟨none, [], false, 0⟩
    evr := { s.evr with nextSeq := s.firstSeq, ringFails := 0, buckets := [], fetching := [] }
    xlt := { s.xlt with
      useFrom := s.xlt.nextPlace, restored := false, works := [], copies := [], remaps := [], wlOn := [], ckptRunning := false, ckptQuarters := 0, ckptMaps := noMaps, spareGiven := 0
      segs := s.xlt.segs.map fun (g : Segment) => { g with folding := false } }
    med := { s.med with held := [], events := [], fails := [], lastRetry := [], rows := [], pieces := [] }
    dzl := { s.dzl with -- replays, and the reads sent and served, count since power-on (R312)
      ports := s.dzl.ports.map fun p => { Port.init with replays := p.replays }, map := [], joins := [], outs := [], ins := []
      nextTag := 0, epoch := 0, rootSince := 0, switchSoon := false, beatClean := 0, announce := 0, switchDue := false, timeAt := none }
    sec := { s.sec with
      slots := [], engines := [], sessions := [], ke := none, challenge := none, attests := []
      trngWaits := [], scrapped := false }
    dram := ⟨List.replicate 4 DramCtl.init, s.dram.errors, s.dram.retired⟩ }

/-- The chorus does not carry on through a start; the record of frame numbers and the counts since power-on stay (R249). -/
def State.startChorus (s : State) : State :=
  let c := s.cho
  { s with cho := ⟨none, none, none, 0, 0, 0, [], s.now, 0, [], [], false, c.lastSwitch, c.switches, c.offTotal, c.recorded,
    c.everRecorded, none, none, 0, c.outPulses, c.outAt, 0, 0⟩ }

/-- What the start itself counts and remembers (R400, R473). -/
def State.startBoot (s : State) (kind : Nat) (internal : Bool) : State :=
  let b := s.boot
  let cold : Bool := kind ≠ 1
  { s with
    boot := { b with
      limited := false, provHold := false, running := true, startAt := s.now, stageAt := s.now
      named := 0, sanPaused := false, download := none, pendingSlot := none, actAt := none, fwHang := false
      cfgReady := internal && b.cfgReady, vfEnable := internal && b.vfEnable, memSpace := internal && b.memSpace
      bar2 := if internal then b.bar2 else 0, cleanStop := false, aonKept := !cold
      unclean := (b.unclean && b.running) || !b.cleanStop }
    hlt := { s.hlt with
      powerCycles := s.hlt.powerCycles + cold.toNat
      unsafeStops := s.hlt.unsafeStops + (!b.cleanStop).toNat
      trips := s.hlt.trips + s.pwr.tripSeen.toNat
      dramCritical := false }
    pwr := { s.pwr with
      tripSeen := false, flushQueue := [], lastOp := 0, goodConv := [], goodAgree := [], coolSince := none
      levelAt := s.now, tmt1 := 0, tmt2 := 0, climbing := none, avsHeld := none, avsNow := 810, gating := [], clkOp := 4, avsFault := false, waking := none, held := []
      huStep := 0, huPending := false, current := 0, flushed := false }
    -- retired regions are forgotten at a cold start (R454)
    dram := if cold then { s.dram with errors := [], retired := [] } else s.dram
    pins := { s.pins with huTest := false } }

/-- A start begins: kind 0 cold, 1 warm, 2 cold after a flush (R374, R375). A power-on is at stage 0 first. An internal restart leaves the link as it is. -/
def State.beginStart (s : State) (kind : Nat) (internal : Bool) : State :=
  let s := (s.cutSnc.abortTest 8).startEfts
  let s := ((s.startRegs internal).startTables internal).startChorus
  let s := s.wr Fd.EVR_STAT_HOME s.logHomeNow
  let s := (s.startBoot kind internal).wr Fd.TOP_BOOT_KIND kind
  s.wr Fd.TOP_BOOT_STAGE 1

/-- A start of a part that is on: the change of the mode to BOOT is recorded as any other (R39). -/
def State.restart (s : State) (kind : Nat) (internal : Bool) : State :=
  let old := s.mode
  let s := s.beginStart kind internal
  if old = mBoot then s
  else s.record 0x0001 [old, mBoot, getBits (s.word Reg.TOP_MODE) 23 16, getBits (s.word Reg.TOP_MODE) 31 24]

/-- The running boot flash operation ends well, and the queue is discarded: a PERST_N assertion (R468). -/
def State.endSnc (s : State) : State :=
  let s := { s with snc := { s.snc with queue := [] } }
  match s.snc.running with
  | some o => s.sncFinish o 0
  | none => s

/-- A warm internal restart (R375, R383, R384, R452). -/
def State.internalRestart (s : State) : State := s.restart 1 true

end Sys2Proof.Machine
end

