-- ==== Sys2Proof/Machine/Firmware.lean ====
section
/-! DEFINITION. Firmware Image Download and Firmware Commit on the firmware slots and the Peuth banks, and how an activation
begins (R45, R112, R347-R349, R380, R381, R384, R386, R470, R471). -/

namespace Sys2Proof.Machine

open Sys2Proof

/-! ## Download (R470) -/

/-- Where a download goes: a firmware slot's number, or 2 and the spare Peuth bank. In recovery no slot runs, and the next
slot of the record is taken. -/
def State.fwTarget (s : State) : Nat := if s.flag Fd.TOP_BOOT_RECOVERY then s.slotRec.next else 1 - s.runningSlot

/-- The record that marks the target empty (step 3). -/
def State.markEmpty (s : State) (type : Nat) : State :=
  if type = 1 then s.writeSlot (s.slotRec.setState s.fwTarget sEMPTY) else s.writePeuth (1 - s.peuthSpare) false

/-- A piece at offset 0 begins a download: the type it shows decides the target (steps 1 to 3). -/
def State.beginDownload (s : State) (data : Bytes) : Option (Download × State) :=
  let type := if data.length < 7 then 0 else field data 6 1
  if type = 1 then some (⟨s.slotBase s.fwTarget, s.slotLen, 1, [], [], []⟩, s.markEmpty 1)
  else if type = 2 then some (⟨peuthBase s.peuthSpare, peuthLen, 2, [], [], []⟩, s.markEmpty 2)
  else none

/-- 64 KiB blocks a piece reaches. -/
def pieceBlocks (off len : Nat) : List Nat :=
  (List.range ((off + len - 1) / 65536 + 1)).filter fun b => decide (off / 65536 ≤ b) && len ≠ 0

/-- Store a piece: blocks met for the first time are erased; the header bytes are held, the rest programmed (steps 4, 5). -/
def State.putPiece (s : State) (d : Download) (off : Nat) (data : Bytes) : State :=
  let fresh := (pieceBlocks off data.length).filter fun b => !d.erased.contains b
  let s := fresh.foldl (fun (s : State) b => s.eraseWhole 1 (d.base + 65536 * b)) s
  let h := imgHeader - off
  let held := if off < imgHeader then
      (d.header ++ zeros imgHeader).take off ++ data.take h ++ ((d.header ++ zeros imgHeader).take imgHeader).drop (off + (data.take h).length)
    else d.header
  let s := s.flashAnd (d.base + max off imgHeader) (data.drop h)
  { s with boot := { s.boot with download := some { d with
      erased := d.erased ++ fresh, done := d.done ++ [(off, data.length)], header := held } } }

/-- Accept or refuse a piece of a running download. One whose read-back differs fails with Internal Error (R469). -/
def State.takePiece (s : State) (src : Src) (d : Download) (off : Nat) (data : Bytes) (verified : Bool) : State :=
  if d.len < off + data.length then s.err src .invalidField
  else if d.done.any fun e => meets off data.length e.1 e.2 then s.err src .notErased
  else if verified then (s.putPiece d off data).ok src
  else ((s.putPiece d off data).flashFree (d.base + max off imgHeader) (data.drop (imgHeader - off)).length).err src .internalError

def downloadCmd (src : Src) (off : Nat) (data : Bytes) (verified : Bool) (s : State) : State :=
  if src.fn ≠ 0 then s.err src .invalidOpcode
  else if off = 0 then
    match s.beginDownload data with
    | none => s.err src .invalidFwImage
    | some (d, t) => if d.len < data.length then s.err src .invalidField else t.takePiece src d off data verified
  else match s.boot.download with
    | none => s.err src .invalidField
    | some d => s.takePiece src d off data verified

def execFirmwareImageDownload (src : Src) (off : Nat) (data : Bytes) (s : State) (verified : Bool := true) : Result :=
  host s src .fw (downloadCmd src off data verified)

/-! ## Commit (R381, R471) -/

/-- The slot a commit names: 1 and 2 are firmware slots A and B, 3 the Peuth image; 0 leaves the choice to the part, which
takes the download's target. -/
def State.commitSlot (s : State) (slot : Nat) : Nat :=
  if slot = 0 then
    match s.boot.download with
    | some d => if d.type = 2 then 3 else if d.base = s.slotBase 0 then 1 else 2
    | none => 0
  else slot

/-- Store the downloaded image in the region it lies in: the check, then the header page. The held header stays, so that a further commit of
the same download finds its page identical (R348, R471). -/
def State.storeImage (s : State) (base type : Nat) : Status ⊕ State :=
  match s.boot.download with
  | none => .inl .invalidFwImage
  | some d =>
    if d.type ≠ type || d.base ≠ base then .inl .invalidFwImage
    else if !s.imageOk d.header d.base d.len type then .inl .invalidFwImage
    else
      let page := s.flashRead d.base imgHeader
      if s.flashBlank d.base imgHeader then .inr (s.flashAnd d.base d.header)
      else if page = d.header then .inr s else .inl .notErased

/-- The image activates through QUIESCE; in PROVISION fetching is held instead (R112, R381). -/
def State.activate (s : State) (k : Nat) (src : Option Src) : State :=
  let r := s.slotRec
  let s := s.writeSlot { r.setState k sTRIAL with next := k, tries := 1 }
  let s := s.raiseIf 0 9 .fwStarting
  if s.mode = mProvision then
    { s.setRunning (some ⟨.firmware k, src⟩) false with boot := { s.boot with provHold := true } }
  else s.request ⟨.firmware k, src⟩

/-- A commit in recovery makes the slot the next one, on trial (R384). -/
def State.recoverySlot (s : State) (k : Nat) : State :=
  s.writeSlot { s.slotRec.setState k sTRIAL with next := k, tries := 0 }

/-- The commit completes, and then the part restarts itself from that slot (R384). -/
def State.recoveryRestart (s : State) (src : Src) (k : Nat) : State := ((s.recoverySlot k).ok src).internalRestart

/-- An activation waits for a reset, unless the slot is the running one (R381). -/
def State.setPendingSlot (s : State) (k : Nat) : State :=
  { s with boot := { s.boot with pendingSlot := if k = s.runningSlot && !s.flag Fd.TOP_BOOT_RECOVERY then none else some k } }

/-- Modes that refuse an activation (R45). -/
def State.noActivation (s : State) : Bool := s.mode = mHold || s.mode = mSanitize || s.mode = mReadonly

/-- Actions 000b and 001b on a firmware slot. -/
def storeFirmware (src : Src) (k : Nat) (setNext : Bool) (s : State) : State :=
  if k = s.runningSlot && !s.flag Fd.TOP_BOOT_RECOVERY then s.err src .invalidFwSlot
  else match s.storeImage (s.slotBase k) 1 with
    | .inl st => s.err src st
    | .inr s =>
      if s.flag Fd.TOP_BOOT_RECOVERY then s.recoveryRestart src k
      else
        let r := s.slotRec.setState k sTRIAL
        if setNext then ((s.writeSlot { r with next := k, tries := 0 }).setPendingSlot k).ok src else (s.writeSlot r).ok src

/-- The bank the download lies in, or else the one a download would go to. -/
def State.downBank (s : State) : Nat :=
  match s.boot.download with
  | some d => if d.base = peuthBase 1 then 1 else if d.base = peuthBase 0 then 0 else s.peuthSpare
  | none => s.peuthSpare

/-- The image in a bank becomes current, and the old current one previous (R386); one that a commit has made current already stays so. -/
def State.makeCurrent (s : State) (bank : Nat) : State :=
  if s.peuthRec.any fun (r : Nat × Nat × Bool) => r.2.1 = bank then s else s.writePeuth bank s.peuthRec.isSome

/-- Actions 000b and 001b on slot 3: the new image becomes current at the next start, the old one previous (R386). -/
def storePeuth (src : Src) (s : State) : State :=
  let bank := s.downBank
  match s.storeImage (peuthBase bank) 2 with
  | .inl st => s.err src st
  | .inr s => (s.makeCurrent bank).ok src

/-- The checks all commits share, and the choice between the two kinds of slot. In recovery only slots 1 and 2 take a
commit (R384). -/
def commitTo (src : Src) (slot : Nat) (fw : Nat → State → State) (peuth : State → State) (s : State) : State :=
  let n := s.commitSlot slot
  if src.fn ≠ 0 then s.err src .invalidOpcode
  else if n = 0 || 3 < n then s.err src .invalidFwSlot
  else if n = 3 then (if s.flag Fd.TOP_BOOT_RECOVERY then s.err src .commandSequence else peuth s)
  else fw (n - 1) s

def execFirmwareCommitStore (src : Src) (slot : Nat) (s : State) : Result :=
  host s src .fw (commitTo src slot (fun k s => storeFirmware src k false s) (storePeuth src))

def execFirmwareCommitStoreAndSetNext (src : Src) (slot : Nat) (s : State) : Result :=
  host s src .fw (commitTo src slot (fun k s => storeFirmware src k true s) (storePeuth src))

/-- Action 010b: the existing image becomes next; in recovery the part then restarts from it (R384). -/
def nextExisting (src : Src) (k : Nat) (s : State) : State :=
  let r := s.slotRec
  if r.state k = sEMPTY || !s.slotOk k then s.err src .invalidFwImage
  else
    let r := if r.state k = sCONFIRMED then { r with next := k } else { r.setState k sTRIAL with next := k, tries := 0 }
    let s := s.writeSlot r
    if s.flag Fd.TOP_BOOT_RECOVERY then (s.ok src).internalRestart else (s.setPendingSlot k).ok src

def execFirmwareCommitActivateExisting (src : Src) (slot : Nat) (s : State) : Result :=
  host s src .fw (commitTo src slot (fun k s => nextExisting src k s) fun s => s.err src .invalidFwSlot)

/-- Action 011b on a firmware slot: a downloaded image is stored first; else the image the slot holds is taken. -/
def activateNow (src : Src) (k : Nat) (s : State) : State :=
  if s.noActivation then s.err src .fwActivationProhibited
  else if s.boot.download.any fun (d : Download) => d.base = s.slotBase k then
    (if k = s.runningSlot && !s.flag Fd.TOP_BOOT_RECOVERY then s.err src .invalidFwSlot
    else match s.storeImage (s.slotBase k) 1 with
      | .inl st => s.err src st
      | .inr s => if s.flag Fd.TOP_BOOT_RECOVERY then s.recoveryRestart src k else s.activate k (some src))
  else if s.slotRec.state k = sEMPTY || !s.slotOk k then s.err src .invalidFwImage
  else if s.flag Fd.TOP_BOOT_RECOVERY then s.recoveryRestart src k
  else s.activate k (some src)

/-- Action 011b on slot 3: as 001b, and the active profile is applied from the new image, as a Profile Select of it; a
profile that is not valid there stores nothing (R386, R389). -/
def applyPeuth (src : Src) (s : State) : State :=
  let bank := s.downBank
  let k := s.rd Fd.TOP_PROFILE_ACTIVE
  if s.noActivation then s.err src .commandSequence
  else match s.storeImage (peuthBase bank) 2 with
    | .inl st => s.err src st
    | .inr t =>
      match t.profileIn bank k with
      | none => s.err src .invalidFwImage
      | some p =>
        if !t.canReserve (t.capBuffer p.buffer).1 then s.err src .invalidField
        else
          let t := ((t.makeCurrent bank).wr Fd.TOP_PROFILE_PEUTH 0)
          let t := { t with boot := { t.boot with peuthBank := bank } }
          if t.mode = mProvision then (t.selectProfile k true).ok src else t.request ⟨.profile k true, some src⟩

def execFirmwareCommitActivateNow (src : Src) (slot : Nat) (s : State) : Result :=
  host s src .activate (commitTo src slot (fun k s => activateNow src k s) (applyPeuth src))

end Sys2Proof.Machine
end

