-- ==== Sys2Proof/Machine/Startup.lean ====
section
/-! DEFINITION. The stages of a start, from power-on or PERST_N to the decision (R83, R163, R201, R204-R206, R249, R374-R379,
R382-R395, R431-R437, R456, R459, R461, R462, R489, R502, R503). -/

namespace Sys2Proof.Machine

open Sys2Proof

/-! ## Between stages -/

/-- The next stage begins. While thermal STOP is in force the start is held there (R392). -/
def State.enterStage (s : State) (k : Nat) : State :=
  let s := ({ s with boot := { s.boot with stageAt := s.now } }).wr Fd.TOP_BOOT_STAGE k
  if s.flag Fd.GK_THERM_STOP then s.wr Fd.TOP_BOOT_THERM 1 else s

/-- The start stops with a FAIL code: limited service, in which PF0 becomes ready (R378, R395). Before stage 3 has
ended no profile is in use but the built-in one. -/
def State.limit (s : State) (fail : Nat) : State :=
  let early : Bool := s.rd Fd.TOP_BOOT_STAGE < 4 || s.rd Fd.TOP_BOOT_STAGE = 15
  let s := ({ s with boot := { s.boot with
    limited := true, running := false, cfgReady := true
    profile := if early then Profile.builtIn else s.boot.profile } }).wr Fd.TOP_BOOT_FAIL fail
  (s.modFn 0 fun f => { f with rdy := f.en }).refreshHealth

/-! ## Stage 1: OTP (R373, R379) -/

def State.stageOtp (s : State) (x : Found) : State :=
  if !x.otpOk then (s.alarm Fd.SEC_ALARM_OTPECC).limit 2
  else
    let s := (if x.otpFixed then s.wr Fd.SEC_OTP_STAT_ECCCOR 1 else s).refreshOtp.otpPending
    let life := s.otpLifecycle
    let s := (s.wr Fd.SEC_LIFECYCLE_STATE life).wr Fd.TOP_CONFIG_MEDIA (s.otpGet 0x10).toNat
    let s := (List.range 4).foldl (fun (s : State) k => s.wr (Fd.TOP_UID_UID k) (leNat (s.otpRead (0x20 + 4 * k) 4))) s
    let s := if life = lBLANK || life = lPROVISION then s.setMode mProvision false else s
    let s := (s.setFlag Fd.SEC_LIFECYCLE_DEBUG (life = lBLANK)).trngResume
    s.enterStage 2

/-! ## Stage 2: boot ROM (R382, R456, R459, R461) -/

/-- Intents without a clear record: sequence, target and size. -/
def State.openIntents (s : State) : List (Nat × Nat × Nat) :=
  let recs := (List.range 256).filterMap fun i =>
    let b := s.flashRead (aFlags + 32 * i) 32
    if recValid 30 b then some b else none
  (recs.filter fun (b : Bytes) => field b 1 1 = 1 && !recs.any fun (c : Bytes) =>
    field c 1 1 = 2 && field c 8 8 = field b 8 8 && field c 4 4 = field b 4 4).map fun (b : Bytes) => (field b 8 8, field b 4 4, field b 2 1)

/-- A target is erased again, and its clear record written, with its intent's sequence. -/
def State.eraseAgain (s : State) (e : Nat × Nat × Nat) : State :=
  (s.flashErase e.2.1 (if e.2.2 = 0 then 4096 else 65536)).flagAppend (flagRec 2 e.2.2 e.2.1 e.1)

/-- Slots of the paired record areas that are neither blank nor valid. -/
def State.skippedSlots (s : State) : Nat :=
  let areas : List (Nat × Nat × Nat) := [(aFlags, 32, 30), (aSlots, 32, 30), (aPeuth, 32, 30), (aSign, 64, 62), (aKeys, 1024, 0), (aFences, 512, 510)]
  sumNat (areas.map fun (a : Nat × Nat × Nat) => ((List.range (8192 / a.2.1)).filter fun i =>
    let b := s.flashRead (a.1 + a.2.1 * i) a.2.1
    !recValid a.2.2 b && b.any (· ≠ 0xFF)).length)

def State.stageRom (s : State) (x : Found) : State :=
  if !x.flashOk then s.limit 1
  else
    let s := ((s.wr Fd.SNC_CFG_PRESENT 1).wr Fd.SNC_CFG_SIZE (min 2 x.flashSize)).wr Fd.SNC_CFG_CLK (min 100 x.flashClk)
    let s := s.setFlag Fd.SNC_CFG_MARGIN x.margin
    let l := s.openIntents
    let s := (l.foldl State.eraseAgain s).wr Fd.SNC_START_REERASE (min 0xFFFF l.length)
    let s := s.wr Fd.SNC_START_SKIPPED (min 0xFFFF s.skippedSlots)
    -- no image can verify in BLANK: the part waits for the vendor test
    if s.lifecycle = lBLANK then { s with boot := { s.boot with running := false } }
    else
      let s := { s with boot := { s.boot with named := s.slotRec.next } }
      s.takeTry.enterStage 3

/-! ## Stage 3: images and profile (R382, R384, R386, R387) -/

/-- The Peuth image used: the current one, else the previous, else none. -/
def State.pickPeuth (s : State) : State :=
  let set (s : State) (code bank : Nat) : State := ({ s with boot := { s.boot with peuthBank := bank } }).wr Fd.TOP_PROFILE_PEUTH code
  match s.peuthRec with
  | none => set s 2 0
  | some (_, bank, prev) =>
    if s.peuthOk bank then set s 0 bank else if prev && s.peuthOk (1 - bank) then set s 1 (1 - bank) else set s 2 0

/-- The start profile: the code for TOP_PROFILE.SRC, its number, its settings, and whether a later step than the first
decided. -/
def State.pickProfile (s : State) : Nat × Nat × Profile × Bool :=
  let dflt := s.defaultProfile
  let pinned := s.controls.testBit 0
  let first := if pinned then s.pins.prf else if dflt = 0xFF then 0 else dflt
  match s.profileOf first with
  | some p => (if pinned then 0 else 1, first, p, false)
  | none =>
    match (if dflt = 0xFF then none else s.profileOf dflt) with
    | some p => (1, dflt, p, true)
    | none =>
      match (List.range 4).findSome? fun k => (s.profileOf k).map fun (p : Profile) => (k, p) with
      | some (k, p) => (2, k, p, true)
      | none => (4, 0, Profile.builtIn, true)

/-- The management window needs the profile and the settings block (R345, R388). -/
def State.allowed (s : State) (p : Profile) : Profile := { p with window := p.window && s.controls.testBit 2 }

def State.startProfile (s : State) : State :=
  let c := s.pickProfile
  let p := s.allowed c.2.2.1
  let s := (s.wr Fd.TOP_PROFILE_SRC c.1).wr Fd.TOP_PROFILE_START c.2.1
  let s := s.wr Fd.TOP_PROFILE_ACTIVE c.2.1
  let s := s.wr Fd.TOP_PROFILE_VALID (bitsOf ((List.range 4).map fun k => (s.profileOf k).isSome))
  let s := if c.2.2.2 then s.record 0x0003 (pay 4 (s.word Reg.TOP_PROFILE)) else s
  let s := { s with boot := { s.boot with profile := p, cfgReady := true } }
  (s.applySelect p true).setFlag Fd.TOP_CONFIG_PORTMODE p.twoPorts |>.wr Fd.TOP_CONFIG_TOTALVFS p.totalVfs

def State.stageImages (s : State) : State :=
  let r := s.pickSlot
  match r.1 with
  | none => ((r.2.wr Fd.TOP_BOOT_STAGE 15).wr Fd.TOP_BOOT_RECOVERY 1).limit 1
  | some k =>
    let s := (r.2.runImage k).setFlag Fd.TOP_BOOT_FALLBACK (k ≠ s.boot.named)
    -- core 0 enters the image's XIP segment
    let s := s.wr Fd.SNC_XIP_DETACH_DETACH (s.rd Fd.SNC_XIP_DETACH_DETACH &&& 0x1FFFE)
    let s := s.pickPeuth.startProfile
    (s.reloadDevice.startHoldup).enterStage 4

/-! ## Stage 4: DRAM (R390, R431-R437, R455) -/

/-- A configuration of R431, and its channel's size in MiB. -/
def dimmKnown (d : Dimm) : Bool := d.pop && ((d.width = 1 && decide (d.dens ≤ 3)) || (d.width = 0 && decide (d.dens ≤ 1)))
def dimmSize (d : Dimm) : Nat := (if d.width = 1 then 4096 else 8192) * (d.dens + 1)
def dimmWide (d : Dimm) : Bool := d.lanes.length = 10 && d.lanes.all fun (l : Nat × Nat × Nat × Nat) => decide (12 ≤ l.2.2.1) && decide (12 ≤ l.2.2.2)

/-- Registers of a controller after its training: full or, at a warm start, step 6 alone. -/
def State.loadDmc (s : State) (warm : Bool) (c : Nat) (d : Dimm) : State :=
  let s := ((s.setFlag (Fd.DMC_C_CFG_POP c) d.pop).wr (Fd.DMC_C_CFG_WIDTH c) (min 3 d.width)).wr (Fd.DMC_C_CFG_DENS c) (min 7 d.dens)
  if !d.pop then s
  else
    let s := s.wr (Fd.DMC_C_CFG_SIZE c) (dimmSize d)
    -- the drift of R438 counts from here on
    let s := { s with dram := { s.dram with ctls := s.dram.ctls.modify c fun (k : DramCtl) => { k with drift := List.replicate 10 0, lanes := [] } } }
    let s := (List.range 10).foldl (fun (s : State) k =>
      let l := nth d.lanes k (0, 0, 0, 0)
      (((s.wr (Fd.DMC_C_LANE_RDLY c k) l.1).wr (Fd.DMC_C_LANE_WDLY c k) l.2.1).wr (Fd.DMC_C_LANE_REYE c k) l.2.2.1).wr (Fd.DMC_C_LANE_WEYE c k) l.2.2.2) s
    let narrow := argMin (fun k => let l := nth d.lanes k (0, 0, 0, 0); min l.2.2.1 l.2.2.2) (List.range 10)
    let s := (s.wr (Fd.DMC_C_TRAIN_LANE c) (narrow.getD 0)).wr (Fd.DMC_C_TRAIN_REYE c) (minNat (d.lanes.map fun (l : Nat × Nat × Nat × Nat) => l.2.2.1) 255)
    let s := s.wr (Fd.DMC_C_TRAIN_WEYE c) (minNat (d.lanes.map fun (l : Nat × Nat × Nat × Nat) => l.2.2.2) 255)
    let short : Bool := warm && d.tries = 0
    let s := s.wr (Fd.DMC_C_TRAIN_TRIES c) (if short then 0 else if dimmWide d then max 1 (min 3 d.tries) else 3)
    (s.wr (Fd.DMC_C_TRAIN_RESULT c) (if !dimmWide d then 3 else if short then 2 else 1)).wr (Fd.DMC_C_STATE_STATE c) (if dimmWide d then 2 else 7)

/-- Installed DRAM caps the profile's buffer, and PF0's quota with it (R388). -/
def State.settleBuffer (s : State) : State :=
  let p := s.boot.profile
  let r := s.capBuffer p.buffer
  if r.1 = s.rd Fd.XLT_BUF_SIZE then r.2 else (r.2.wr Fd.XLT_BUF_SIZE r.1).loadPf0 { p with buffer := r.1 }

def State.stageDram (s : State) (x : Found) : State :=
  let warm : Bool := s.rd Fd.TOP_BOOT_KIND = 1
  let d (c : Nat) : Dimm := nth x.dimms c ⟨false, 0, 0, 0, []⟩
  let s := (List.range 4).foldl (fun (s : State) c => s.loadDmc warm c (d c)) s
  let s := (List.range 4).foldl (fun (s : State) c => s.loadReg s.boot.profile (Reg.DMC_C_SCHED c)) s
  let s := s.loadReg s.boot.profile Reg.DMC_SCRUB
  let same := (List.range 4).all fun c => dimmKnown (d c) && (d c).width = (d 0).width && (d c).dens = (d 0).dens
  if !same || !(List.range 4).all fun c => dimmWide (d c) then s.limit 3
  else
    let s := (s.wr Fd.TOP_CONFIG_DRAM (4 * dimmSize (d 0) / 1024)).wr Fd.DMC_RETIRED_COUNT s.dram.retired.length
    s.settleBuffer.enterStage 5

/-! ## Stage 5: media, membership (R204-R206, R288, R393) -/

/-- The model of a die is named in the die table of the media firmware: PLC or QLC (R4, R204). -/
def State.inTable (s : State) (m : Nat) : Bool := if s.plc then m = 1 else m = 2 || m = 3

/-- The model most of the part's dies carry, named in the die table or not; ties to the lowest code (assumption 31). Where it is not
named, or no die answers, no die is used. -/
def State.majority (s : State) (x : Found) : Option Nat :=
  let n (m : Nat) : Nat := (x.dies.filter fun (d : Nat × Nat × Nat) => d.2.2 = m).length
  (argMax n ((x.dies.map fun (d : Nat × Nat × Nat) => d.2.2).filter (· ≠ 0))).filter s.inTable

/-- Erase blocks of 96 MiB on a die (R173). -/
def dieBlocks (m : Nat) : Nat := if m = 3 then 2730 else 5461

/-- A channel whose eyes stayed below 8 steps in training (R226, R235). -/
def untrained (x : Found) (ch : Nat) : Bool :=
  x.eyes.any fun (e : Nat × Nat × Nat) => e.1 = ch && (decide (e.2.1 < 8) || decide (e.2.2 < 8))

def State.cutOff (s : State) (ch : Nat) : Bool := (s.rd (if ch < 32 then Fd.MED_AUTO_LO_MAP else Fd.MED_AUTO_HI_MAP)).testBit (ch % 32)

/-- What a channel's registers show after stage 5. -/
def State.loadChannel (s : State) (x : Found) (model : Option Nat) (ch : Nat) : State :=
  if s.cutOff ch then s
  else
    let found := sumNat ((List.range 32).map fun d => if x.dies.any fun (e : Nat × Nat × Nat) => e.1 = ch && e.2.1 = d && some e.2.2 = model then 2 ^ d else 0)
    let old := ((s.med.known.find? fun (e : Nat × Nat) => e.1 = ch).map fun (e : Nat × Nat) => e.2).getD 0
    let gone := s.rd (Fd.MED_CH_RETIRED_MAP ch)
    -- the dies of a channel that failed its training are named by the cut that follows
    let map := ((if untrained x ch then found ||| old else found) ||| gone) ^^^ gone
    let eye := (x.eyes.find? fun (e : Nat × Nat × Nat) => e.1 = ch).getD (ch, 0, 0)
    if map = 0 then s
    else
      let s := (s.wr (Fd.MED_CH_DIES_MAP ch) map).wr (Fd.MED_CH_STATE_DIES ch) ((List.range 32).filter map.testBit).length
      let s := s.wr (Fd.MED_CH_STATE_STATE ch) (if untrained x ch then 1 else 2)
      ((s.count (Fd.MED_CH_TRAIN_COUNT ch)).wr (Fd.MED_CH_TRAIN_REYE ch) (min 255 eye.2.1)).wr (Fd.MED_CH_TRAIN_WEYE ch) (min 255 eye.2.2)

/-- The record of a die that is not used. -/
def State.idleDies (s : State) (x : Found) (model : Option Nat) : State :=
  (x.dies.filter fun (d : Nat × Nat × Nat) => some d.2.2 ≠ model).foldl (fun (s : State) (d : Nat × Nat × Nat) => s.record 0x0401 [d.1, d.2.1]) s

/-- A parameter page that fails its CRC is a BUSCRC event of its channel, which retrains (R204, R224). -/
def State.badPages (s : State) (x : Found) : State :=
  x.badPages.foldl (fun (s : State) (d : Nat × Nat) => if s.rd (Fd.MED_CH_STATE_STATE d.1) = 2 || s.rd (Fd.MED_CH_STATE_STATE d.1) = 3
    then s.transient d.1 (Fd.MED_CH_XEVT_BUSCRC d.1) none else s) s

/-- The first start in FIELD decides the used choirs, and their slots: 3/32 of them, rounded up, are the reserve (R173, R205, R206). -/
def State.decideChoirs (s : State) : State :=
  if s.med.usable.isSome || s.lifecycle = lPROVISION then s
  else
    let used := (List.range 4).filter fun c => decide (33 ≤ s.choirChannels c)
    let inst := (List.range 4).map fun c => if used.contains c then s.diesOf c * s.med.blocksPerDie else 0
    { s with
      med := { s.med with usable := some used }
      xlt := { s.xlt with installed := inst, nc := inst.map fun b => b / 32 - ceilDiv (3 * (b / 32)) 32 } }

/-- A stored Group Join, or else the profile's membership: its ports begin their bring-up. -/
def State.startMember (s : State) : State :=
  let r := s.keyRec
  if r.group ≠ 0 then
    let s := { s with dzl := { s.dzl with joined := r.joined } }
    let s := if (blockField r.block 1 1).testBit 0 then s.wr Fd.CHO_PHASE_PHASE (blockField r.block 4 1) else s
    s.setMember r.group r.dev (blockField r.block 2 1) (blockField r.block 3 1) s.now
  else match s.boot.profile.member with
    | some m =>
      let s := ({ s with dzl := { s.dzl with joined := s.now } }).wr Fd.CHO_PHASE_PHASE (nth m 4 0)
      s.setMember (nth m 0 0) (nth m 1 0) (nth m 2 0) (nth m 3 0) s.now
    | none => s

def State.stageMedia (s : State) (x : Found) : State :=
  let model := s.majority x
  let s := (List.range 64).foldl (fun (s : State) ch => s.loadChannel x model ch) (s.idleDies x model)
  let s := s.wr Fd.TOP_CONFIG_CHANNELS ((List.range 64).filter fun ch => s.rd (Fd.MED_CH_STATE_STATE ch) = 2).length
  let s := { s.wr Fd.XLT_WL_CFG_RATED (max 1 x.rated) with med := { s.med with maxTimes := x.times } }.badPages x
  let s := if s.med.usable.isSome then s else { s with med := { s.med with blocksPerDie := (model.map dieBlocks).getD 0 } }
  let s := s.decideChoirs
  let s := if s.lifecycle = lPROVISION then s else s.settleTurnMap
  let s := s.startMember
  -- the firmware has copied itself to SRAM
  (s.wr Fd.SNC_XIP_DETACH_DETACH (s.rd Fd.SNC_XIP_DETACH_DETACH ||| 1)).enterStage 6

/-! ## Acknowledged data that is lost (R83, R376) -/

/-- A zone is cut at its first lost clutch in placement order: what stands behind it is dropped, the zone becomes Full. -/
def State.truncateZone (s : State) (n : Ns) (z : Nat) (ids : List Nat) : State :=
  let mine (c : Clutch) : Bool := c.nsid = n.nsid && c.zone = z
  match argMin (fun (c : Clutch) => c.gran) (s.clutches.filter fun (c : Clutch) => mine c && ids.contains c.id) with
  | none => s
  | some x =>
    let w := s.zone n z
    let s := { s with clutches := s.clutches.filter fun (c : Clutch) => !(mine c && decide (x.gran ≤ c.gran)) }
    let s := s.setZone n.nsid z { w with fill := x.gran, wp := x.lba - z * zoneBlocks }
    (s.fillZone n z true true).record 0x0501 (pay 4 n.nsid ++ pay 3 z ++ pay 4 (w.fill - x.gran))

/-- Runs of consecutive numbers in a rising list: first and length. -/
def runsOf : List Nat → List (Nat × Nat)
  | [] => []
  | a :: r => match runsOf r with
    | (b, k) :: q => if a + 1 = b then (a, k + 1) :: q else (a, 1) :: (b, k) :: q
    | [] => [(a, 1)]

/-- Blocks of a conventional namespace whose newest write is lost return Unrecovered Read Error until written again. -/
def State.loseBlocks (s : State) (n : Ns) (ids : List Nat) : State :=
  let lost (c : Clutch) : Bool := c.nsid = n.nsid && ids.contains c.id
  let lbas := sortBy (fun a b => decide (a < b)) ((s.clutches.filter lost).map fun (c : Clutch) => c.lba)
  let s := { s with
    clutches := s.clutches.filter fun (c : Clutch) => !lost c
    xlt := { s.xlt with unread := s.xlt.unread ++ lbas.map fun a => (n.nsid, a) } }
  (runsOf lbas).foldl (fun (s : State) (r : Nat × Nat) => s.record 0x0502 (pay 4 n.nsid ++ pay 8 r.1 ++ pay 4 r.2)) s

def State.loseClutches (s : State) (ids : List Nat) : State :=
  if ids.isEmpty then s
  else s.nss.foldl (fun (s : State) (n : Ns) =>
    if n.zoned then
      let zs := ((s.clutches.filter fun (c : Clutch) => c.nsid = n.nsid && ids.contains c.id).map fun (c : Clutch) => c.zone).eraseDups
      zs.foldl (fun (s : State) z => s.truncateZone n z ids) s
    else s.loseBlocks n ids) s

/-! ## Stage 6: translation and the event recorder (R201, R249, R390, R391, R489) -/

/-- The counter starts above any value it has held: the next multiple of 2^24 frames above the largest recorded
frame plus 2^20, which is recorded (R249). -/
def State.startCounter (s : State) : State :=
  let f := ((if s.cho.everRecorded then s.cho.recorded else 0) + 2 ^ 20) / 2 ^ 24 * 2 ^ 24 + 2 ^ 24
  { s.setCounter (256 * f) with cho := { s.cho with callStart := s.now, recorded := f, everRecorded := true } }

/-- The first start in FIELD builds empty maps: the shares stand at their target, the log pool and spares are whole. -/
def State.buildMaps (s : State) : State :=
  let used (v : Nat) : List Nat := (List.range 4).map fun c => if s.usedChoirs.contains c then v else 0
  let s := { s with
    xlt := { s.xlt with spawnBlocks := used s.shareTarget, spawnErased := used s.shareTarget, logFree := used logStripes, logFill := used 0 }
    boot := { s.boot with fieldStarted := true } }
  let s := s.refreshSpares
  { s with xlt := { s.xlt with sparesRef := s.xlt.spares } }

/-- Steps 1 to 3: the newest marker fills XLT_FLUSH_LAST; the maps are read, as far as checkpoint and records go, and what was placed beyond
them or lost with the buffer is settled (R83, R199, R201). -/
def State.restoreMaps (s : State) (x : Found) : State :=
  let us := (s.pwr.flushEnd - s.pwr.flushAt) / 1000
  let s := (s.wr Fd.XLT_FLUSH_LAST_RESULT s.pwr.flushRes).wr Fd.XLT_FLUSH_LAST_TIME (if s.pwr.flushRes = 0 then 0 else min 0xFFFFF us)
  let bad := x.clutches.filter fun id => s.clutches.any fun (c : Clutch) => c.id = id && c.place = .buffer
  let s := { s with pwr := { s.pwr with flushRes := 0 } }
  let cut := match x.journalEnd with
    | some e => s.dropRecords (e + 1)
    | none => ([], s)
  let ids := s.boot.lost ++ bad ++ cut.1
  let s := { cut.2 with boot := { cut.2.boot with lost := [] } }
  (s.loseClutches ids).setFlag Fd.XLT_JRNL_FLASH (s.hlt.holdup = 1)

/-- Blocks with an intent that no clear record matches, and the mode of the record. Bad blocks, and records of dies out of service, are left
alone (R216). -/
def State.intentBlocks (s : State) : List (Nat × Nat) :=
  let dies := s.med.rings.filter fun (e : Nat × Ring) => s.dieUp (e.1 / 32) (e.1 / 8 % 4) (e.1 % 8)
  (dies.flatMap fun (e : Nat × Ring) => e.2.open.map fun b => (e.1 * 8192 + flagBlock b / 256 % 8192, flagMode b)).filter
    fun (e : Nat × Nat) => (s.block e.1).state ≠ 6

/-- Step 4: they are erased again, and their clear records written (R216). -/
def State.eraseIntents (s : State) : State :=
  let l := s.intentBlocks
  let s := l.foldl (fun (s : State) (e : Nat × Nat) =>
    (s.modBlock e.1 fun b => { b.cycled (e.2 = 1) with state := if b.state = 5 then 5 else 0, suspect := false }).clearIntent e.1) s
  s.wr Fd.XLT_START_REERASE (min 0xFFFF l.length)

/-- Step 5: orphans are released: copy destinations that never committed, and replacement blocks of rebuilds that did not, which begin again from
row 0 (R200, R233). -/
def State.releaseOrphans (s : State) : State :=
  let l := s.xlt.stripes.filter fun (t : Stripe) => t.state = 6
  let ms := s.med.rebuilds.filterMap fun (r : Rebuild) => r.target.map fun m => (m.key r.choir, decide (r.kind = 1))
  let n := sumNat (l.map fun (t : Stripe) => t.members.length) + ms.length
  let s := { s with med := { s.med with rebuilds := s.med.rebuilds.map fun (r : Rebuild) => { r with target := none } } }
  let s := ms.foldl (fun (s : State) (e : Nat × Bool) => s.releaseBlock e.1 e.2) s
  (l.foldl (fun (s : State) (t : Stripe) => s.releaseStripe t.seq) s).wr Fd.XLT_START_ORPHANS (min 0xFFFF n)

/-- Step 6: after an unclean stop every block that was open for programming or being erased is suspect: of stripes that have rounds left, copy
destinations, segments with units left, and those with an open intent, which step 4 has erased again (R172). -/
def State.markSuspect (s : State) (erasing : List Nat) : State :=
  if !s.boot.unclean then s
  else
    let opens (t : Stripe) : Bool := t.state = 1 || t.state = 4 || (t.state = 2 && decide (t.rounds < s.completeRounds t)) || (t.state = 5 && t.copyOf ≠ 0)
    let blocks := ((s.xlt.stripes.filter opens).flatMap fun (t : Stripe) => t.members.map fun (m : Member) => m.key t.choir) ++
      ((s.xlt.segs.filter fun (g : Segment) => !g.released).flatMap fun (g : Segment) =>
        (g.blocks.filter fun (m : Member) => decide (m.units < s.slcUnits)).map fun (m : Member) => m.key g.choir)
    (blocks ++ erasing).foldl (fun (s : State) k => s.modBlock k fun b => { b with suspect := true }) s

/-- A torn round: of each member that was being programmed the valid rows are copied to a new block, and the round is programmed again. Rounds
that turn out whole are settled (R200). -/
def State.mendRounds (s : State) : State :=
  s.xlt.stripes.foldl (fun (s : State) (t : Stripe) =>
    if t.state = 5 || t.state = 6 || t.state = 0 then s
    else if !t.torn then (s.settleRounds t.seq).rewindRounds
    else
      let bad := ((List.range t.members.length).zip t.members).filter fun (e : Nat × Member) => e.2.status = 0 && decide (t.rounds < e.2.units)
      let rs := bad.map fun (e : Nat × Member) => (⟨t.choir, if t.state = 4 then 2 else 0, t.seq, e.1, 0, true, none⟩ : Rebuild)
      let s := rs.foldl (fun (s : State) r => s.modMember r fun m => { m with units := t.rounds }) s
      { s with med := { s.med with rebuilds := (s.med.rebuilds.filter fun (x : Rebuild) => !rs.any x.same) ++ rs } }.refreshRebuild) s

/-- Dies in service before that are not found now are retired; a channel that failed its training is cut off (R235). -/
def State.missingDies (s : State) (x : Found) : State :=
  let s := (List.range 64).foldl (fun (s : State) ch =>
    if untrained x ch && s.rd (Fd.MED_CH_STATE_STATE ch) = 1 then s.autotomy ch 7 else s) s
  s.med.known.foldl (fun (s : State) (e : Nat × Nat) => (List.range 32).foldl (fun (s : State) d =>
    if e.2.testBit d && !(s.rd (Fd.MED_CH_DIES_MAP e.1)).testBit d && !(s.rd (Fd.MED_CH_RETIRED_MAP e.1)).testBit d
    then s.retireDies [(e.1, d / 8, d % 8)] 1 6 e.1 d else s) s) s

/-- Entries of the Autotomy Record that waited for this start (R233). -/
def State.writeLater (s : State) : State :=
  s.med.autoLater.foldl State.addAuto { s with med := { s.med with autoLater := [] } }

/-- Steps 4 to 6. The registers of the translation layer show its state from here on, once stage 6 has ended (R202). -/
def State.settleMaps (s : State) (x : Found) : State :=
  let erasing := s.intentBlocks.map (·.1)
  let s := (s.eraseIntents.releaseOrphans.markSuspect erasing).mendRounds.writeLater
  let s := (s.closeZones fun _ => true).missingDies x
  let s := (s.wr Fd.XLT_JRNL_FILL s.journalPct).refreshSpares.refreshRebuild
  let s := { s with xlt := { s.xlt with restored := true } }
  let s := (s.wr Fd.XLT_STRIPES_COUNT s.stripeSlots).wr Fd.XLT_ZONE_STRIPES_COUNT s.zoneUsable
  (s.wr Fd.XLT_JRNL_CKPTS (s.xlt.ckpts % 65536)).refreshXlt.setLevels.setFactors

/-- Step 7 is done: no flushed clutch lies in a foreign share any more (R28). -/
def State.allHome (s : State) : Bool := s.clutches.all fun x => !s.foreign x

/-- Step 8: the counts once more, and whether the reserve can be held. -/
def State.recount (s : State) : State := s.refreshXlt.setLevels.setFactors.checkReserve

/-- The recorder at a start: records the ring lacks are copied to it; the loss of staged records is recorded (R489). -/
def State.startRecorder (s : State) (x : Found) : State :=
  let s := if x.ringOk then (s.wr Fd.TOP_ERR_LOGMEM 0).settleHome else s.ringUnwritable
  let kept := (s.evr.ring.map fun (e : Nat × Rec) => e.2.seq) ++ s.evr.staging.map Rec.seq
  let miss := (s.evr.nand ++ s.evr.aon.reverse).filter fun (r : Rec) => !kept.contains r.seq
  let once := miss.foldl (fun (l : List Rec) (r : Rec) => if l.any fun (q : Rec) => q.seq = r.seq then l else l ++ [r]) []
  let s := { s with evr := { s.evr with staging := sortBy (fun (a b : Rec) => decide (a.seq < b.seq)) (once ++ s.evr.staging) } }
  let s := s.wr Fd.EVR_NEWEST_SEQ (maxNat (kept ++ (once.map Rec.seq)))
  if s.evr.lost ≤ s.evr.lostTold then s
  else
    let n := s.evr.lost - s.evr.lostTold
    ({ s with evr := { s.evr with lostTold := s.evr.lost } }).record 0x0C02 (pay 4 (min n 0xFFFFFFFF))

/-- An entry of the zone map that passes its CRC16: the firmware checks it on every load from a checkpoint (R170). -/
def entryGood (b : Bytes) : Bool := b.length = 128 && leNat (b.drop 126) = crc16 (b.take 126)

/-- Stage 6. A checkpoint with an entry that fails its CRC16 does not verify, and the model keeps no older one (DESIGN CHOICE, assumption 133).
Where flushed clutches lie in foreign shares it lasts until the home choirs' loud turns have moved them; a start with
PWRFAIL_N stuck takes steps 1 to 3 only (R201, R391). -/
def State.stageMaps (s : State) (x : Found) : State :=
  let ends (s : State) : State := ((s.startRecorder x).startSigning x.flashOk).refreshHealth.enterStage 7
  if s.xlt.restored then (if s.allHome then ends s.recount else s)
  else
  let s := s.startCounter
  if s.lifecycle = lPROVISION then (s.startRecorder x).enterStage 7
  else if s.boot.fieldStarted && (!x.sysOk || x.entries.any fun e => !entryGood e.2) then s.limit 5
  else if s.usedChoirs.isEmpty then s.limit 6
  else
    let s := if s.boot.fieldStarted then s else s.buildMaps
    let s := s.restoreMaps x
    if s.pwr.stuck then ends (s.closeZones fun _ => true)
    else
      let s := s.settleMaps x
      if s.allHome then ends s.recount else s

/-! ## Stage 7: efts (R163) -/

/-- The boot flash record of the runs in which each eft was fenced (R458). -/
def State.writeFences (s : State) : State :=
  let b := ((List.range 256).map fun k => byte (min 3 (s.eft (k / 32) (k % 32)).runs)) ++ zeros 253
  if (s.newestRec aFences 512 510).map (fun (r : Bytes) => r.drop 1 |>.take 509) = some b || (b.all (· = 0) && (s.newestRec aFences 512 510).isNone) then s
  else s.writeRec aFences 512 510 ([0xA5] ++ b ++ leBytes 2 (crc16 b))

/-- The vectors of every eft. One that fails them is fenced; CAUSE shows 3, the self-test's (DESIGN CHOICE, assumption 55: R159 names no
code for it). -/
def State.stageEfts (s : State) (x : Found) : State :=
  let s := (s.writeFences)
  let s := s.efts.foldl (fun (s : State) (e : Nat × Eft) => s.modEft (e.1 / 32) (e.1 % 32) fun (f : Eft) => { f with fencedThisRun := false }) s
  let s := (List.range 256).foldl (fun (s : State) k =>
    -- after its third run an eft stays fenced for good
    if 3 ≤ (s.eft (k / 32) (k % 32)).runs then (s.wr (Fd.EFT_PD_E_STATE_FENCED (k / 32) (k % 32)) 1).wr (Fd.EFT_PD_E_STATE_CAUSE (k / 32) (k % 32)) 3
    else if x.efts.contains (k / 32, k % 32) then s.fenceEft (k / 32) (k % 32) 3 else s) s
  (s.writeFences.refreshHomes).enterStage 8

/-! ## Stages and their ends -/

/-- The stage that runs ends with what it found. -/
def stageDone (x : Found) (s : State) : State :=
  match s.rd Fd.TOP_BOOT_STAGE with
  | 0 => s.enterStage 1
  | 1 => s.stageOtp x
  | 2 => s.stageRom x
  | 3 => s.stageImages
  | 4 => s.stageDram x
  | 5 => s.stageMedia x
  | 6 => s.stageMaps x
  | 7 => s.stageEfts x
  | _ => s

/-- The start goes on: the rails are up, XIN is there, nothing holds it (R391, R392, R426, R502, R503). -/
def State.startsOn (s : State) : Bool :=
  s.boot.running && s.pwr.on && s.pins.xin && !s.pwr.trip && !s.flag Fd.TOP_BOOT_THERM && (!s.pwr.pfHold || s.pwr.stuck) &&
  (!s.boot.perstLow || s.rd Fd.TOP_BOOT_STAGE = 0)

def execStartStageComplete (found : Found) (t : Nat) (s : State) : Result :=
  let s := s.at t
  if s.startsOn then .next (stageDone found s) else .next s

/-- CHORUS_WAIT_END: acquisition is complete, and local time is adopted, or the profile's lock wait has passed (R393). -/
def execChorusWaitEnd (t : Nat) (s : State) : Result :=
  let s := s.at t
  if !s.startsOn || s.rd Fd.TOP_BOOT_STAGE ≠ 8 then .next s
  else if s.cho.goods = 4 then .next ((s.adoptTime (s.cho.lastQual.getD s.now)).enterStage 9)
  else if s.boot.stageAt + s.boot.profile.lockWait * s.periodNs ≤ s.now then .next (s.enterStage 9)
  else .next s

/-! ## Stage 9: the decision (R382, R388, R394) -/

/-- The mode a start ends in, SCRAPPED and the other causes of limited service apart. -/
def State.pickMode (s : State) : State :=
  let dg := (if 32 < s.fencedCount || !s.anyPond then 1 else 0) +
    (if s.xlt.restored && s.usedChoirs.any (fun c => nth s.xlt.spares c 0 = 0) then 2 else 0) + (if s.hlt.holdup = 1 then 4 else 0)
  if s.lifecycle = lPROVISION then s
  else
    let s := s.wr Fd.TOP_MODE_DGCAUSE (s.rd Fd.TOP_MODE_DGCAUSE ||| dg)
    if s.boot.sanitize ≠ 0 then s.setMode mSanitize false
    else if s.lifecycle = lRMA then s.enterReadonly 1
    else if s.xlt.eol then s.enterReadonly 2
    else if s.pwr.stuck then s.enterReadonly 3
    else if s.rd Fd.TOP_MODE_DGCAUSE ≠ 0 then s.setMode mDegraded false
    else s.setMode mServe false

/-- BOOT is left: TIME stops, the start is summarised, the lock is set where the profile asks, functions that wait
become ready, and the dies in service are remembered. -/
def State.leaveBoot (s : State) : State :=
  let s := s.wr Fd.TOP_BOOT_TIME (min 0xFFFF ((s.now - s.boot.startAt) / 1000000))
  let s := s.record 0x0002 (pay 4 (s.word Reg.TOP_BOOT) ++ pay 4 (s.word Reg.SNC_START) ++ pay 4 (s.word Reg.XLT_START))
  let s := if s.boot.profile.lockAtStart then s.wr Fd.TOP_LOCK_LOCK 1 else s
  let prov : Bool := s.mode = mProvision
  let s := s.fns.foldl (fun (s : State) (e : Nat × Fn) => if prov && e.1 ≠ 0 then s else s.modFn e.1 fun f => { f with rdy := f.en }) s
  let maps := (List.range 64).map fun ch => (ch, s.rd (Fd.MED_CH_DIES_MAP ch))
  let s := { s with
    boot := { s.boot with running := false, unclean := false }
    med := { s.med with known := maps.filter fun (e : Nat × Nat) => e.2 ≠ 0 } }
  s.refreshHealth.resumeQueue

/-- START_DECISION: the hold-up self-test has ended; the running slot is confirmed and the mode picked. -/
def execStartDecision (t : Nat) (s : State) : Result :=
  let s := s.at t
  if !s.startsOn || s.rd Fd.TOP_BOOT_STAGE ≠ 9 || ((s.pwr.huStep ≠ 0 || s.pwr.huPending) && !s.pwr.stuck) then .next s
  else
    let s := s.confirmSlot s.runningSlot
    if s.lifecycle = lSCRAPPED then .next (s.limit 4) else .next s.pickMode.leaveBoot

/-- START_WATCHDOG: 25 s without stage progress: a record and a warm internal restart (R383). -/
def execStartWatchdog (t : Nat) (s : State) : Result :=
  let s := s.at t
  if !s.startsOn || s.rd Fd.TOP_BOOT_STAGE = 0 || s.now < s.boot.stageAt + 25000000000 then .next s
  else .next (s.record 0x0004 [s.rd Fd.TOP_BOOT_STAGE, s.runningSlot]).internalRestart

/-! ## Power and PERST_N (R374-R377, R387, R502, R503) -/

/-- Counts since power-on begin again. -/
def State.freshCounts (s : State) : State :=
  { s with
    cho := { s.cho with switches := 0, offTotal := 0, lastSwitch := 0 }
    evr := { s.evr with lostOn := s.evr.lost, suppOn := s.evr.suppressed }
    xlt := { s.xlt with ckpts := 0 }
    dram := { s.dram with errors := [], retired := [] } }

/-- POWER_ON: the rails come up in their groups with PERST_N asserted; `xin`: XIN runs within 1% of 38.4 MHz; `vqps`: VQPS_OTP
is in range. On a part that is on, the inputs are as named. -/
def execPowerOn (xin vqps : Bool) (t : Nat) (s : State) : Result :=
  let s := s.at t
  if s.pwr.on then .next (({ s with pins := { s.pins with xin := xin, vqps := vqps } }).setFlag Fd.SEC_OTP_STAT_VQPS vqps)
  else
    let s := { s with
      pwr := { s.pwr with on := true, onAt := s.now, trip := false, pfLow := false, pfHold := false, stuck := false }
      boot := { s.boot with perstLow := true }
      pins := { s.pins with pwrEn := true, xin := xin, vqps := vqps } }
    let s := s.freshCounts.beginStart (if s.pwr.flushed then 2 else 0) false
    -- storms seen in OFF are recorded now (R407)
    let s := if s.pwr.offStorms = 0 then s
      else (s.bump Fd.GK_WAKECFG_STORMS s.pwr.offStorms).record 0x0102 [min 255 s.pwr.offStorms]
    let s := { s with pwr := { s.pwr with offStorms := 0 } }
    .next (s.wr Fd.TOP_BOOT_STAGE 0)

/-- PERST_N_ASSERT: commands are abandoned, DRAM goes into self-refresh; a running start stops; a part asleep wakes
(R106, R376, R406). -/
def State.perstAssert (s : State) : State :=
  let s := if s.asleep then (s.wakeSource 2).leaveSleep 2 else s
  let stage0 : Bool := s.boot.running && s.rd Fd.TOP_BOOT_STAGE = 0
  if stage0 then { s with boot := { s.boot with perstLow := true } }
  else
    -- a flush that runs goes on (R376)
    let was := s
    let s := ((s.endSnc.abortTest 8).startEfts).startTables false
    let s := if was.flag Fd.TOP_MODE_FLUSH then { s with med := { s.med with ops := was.med.ops }, xlt := { s.xlt with stripes := was.xlt.stripes } } else s
    let s := (List.range 4).foldl (fun (s : State) c =>
      if s.rd (Fd.DMC_C_STATE_STATE c) = 2 || s.rd (Fd.DMC_C_STATE_STATE c) = 3 then s.wr (Fd.DMC_C_STATE_STATE c) 5 else s) s
    { s with boot := { s.boot with perstLow := true, running := false, cfgReady := false, limited := false } }

def execPerstNAssert (t : Nat) (s : State) : Result :=
  let s := s.at t
  if !s.pwr.on || s.boot.perstLow then .next { s with boot := { s.boot with startWait := none } } else .next s.perstAssert

/-- Each PRF bit takes the majority of its three samples. -/
def majorityPins (l : List Nat) : Nat := bitsOf ((List.range 2).map fun i => decide (2 ≤ (l.filter fun v => v.testBit i).length))

/-- PERST_N_DEASSERT: PRF is sampled 1, 2 and 3 µs later. A power-on's start goes on; otherwise a start begins: warm,
or cold after the flush that ran while PERST_N was asserted; it waits for the end of one that still runs (R376). The registers take
their Reset values here and not at the assertion (DESIGN CHOICE, assumption 104). -/
def State.perstRelease (s : State) (prf : Nat) : State :=
  let s := if s.boot.running then s else s.restart (if s.pwr.flushed then 2 else 1) false
  let s := { s with
    boot := { s.boot with perstLow := false, stageAt := s.now, startWait := none }
    pins := { s.pins with prf := prf } }
  (s.wr Fd.TOP_PROFILE_PINS prf).setFlag Fd.TOP_BOOT_PFHELD s.pwr.pfHold

def execPerstNDeassert (samples : List Nat) (t : Nat) (s : State) : Result :=
  let s := s.at t
  if !s.pwr.on || !s.boot.perstLow then .next s
  else
    let prf := majorityPins (samples.take 3)
    if s.flag Fd.TOP_MODE_FLUSH && s.pwr.flushRes = 0 then .next { s with boot := { s.boot with startWait := some prf } }
    else .next (s.perstRelease prf)

/-- PRF_CHANGE: an edge on PRF after sampling is ignored but for PINCHG and a record (R387). -/
def execPrfChange (t : Nat) (s : State) : Result :=
  let s := s.at t
  if !s.pwr.on || s.boot.perstLow then .next s
  else
    let s := s.wr Fd.TOP_PROFILE_PINCHG 1
    .next (s.record 0x0003 (pay 4 (s.word Reg.TOP_PROFILE)))

/-- What BAR2 and BAR3 hold after a write of `v`: a base aligned to 64 MiB, or 0 where PF0 has no window (R514). -/
def State.bar2Of (s : State) (v : Nat) : Nat := if s.boot.profile.window then v % 2 ^ 64 / 2 ^ 26 * 2 ^ 26 else 0

/-- CONFIGURATION_REQUEST: Request Retry Status until the start's profile is applied; then the write takes effect, and BAR2 and BAR3 read as a
64-bit, non-prefetchable memory BAR, or 0 where PF0 has no window (R514). Of any other read PCIe's configuration space gives a value that
the spec does not (assumption 3). In BLANK the link is not trained (R377, R379). -/
def execConfigurationRequest (s : State) (req : ConfigReq := .other) : Result :=
  if !s.pwr.on || s.boot.perstLow || (!s.boot.running && s.lifecycle = lBLANK && !s.boot.limited) then .next s
  else if s.boot.cfgReady then
    match req with
    | .vfEnable b => .next (({ s with boot := { s.boot with vfEnable := b } }).reply reqPcie 0 false .none)
    | .memSpace b => .next (({ s with boot := { s.boot with memSpace := b } }).reply reqPcie 0 false .none)
    | .bar2 v => .next (({ s with boot := { s.boot with bar2 := s.bar2Of v } }).reply reqPcie 0 false .none)
    | .readBar2 => .next (s.reply reqPcie (if s.boot.profile.window then s.boot.bar2 + 4 else 0) false .none)
    | .other =>
      let r := s.free (2 ^ 32)
      .next (r.2.reply reqPcie r.1 false .none)
  else .next (s.reply reqPcie 0 true .none)

end Sys2Proof.Machine
end

