-- ==== Sys2Proof/Machine/Power.lean ====
section
/-! DEFINITION. Power states and their entry, DEV_WAKE_N and the other wake events, operating points, the AVSBus and pond gating
(R401-R417, R448, R468). -/

namespace Sys2Proof.Machine

open Sys2Proof

/-! ## NVMe power states (R402) -/

/-- An NVMe power state comes into force: the ceiling at once, the die-token cap at the next frame boundary. -/
def State.setPs (s : State) (ps : Nat) : State :=
  let s := if ps < 3 then { s with pwr := { s.pwr with lastOp := ps } } else s
  (s.wr Fd.GK_PSTATE_NVME ps).settleCeil

/-- SET_FEATURES_POWER_MANAGEMENT: PS0 to PS4. -/
def execSetFeaturesPowerManagement (src : Src) (ps : Nat) (s : State) : Result :=
  host s src .setFeat fun s => if 4 < ps then s.err src .invalidField else (s.setPs ps).ok src

/-- AUTONOMOUS_POWER_STATE_TRANSITION: to PS3 or PS4 only, from an operational state with no command outstanding. -/
def execAutonomousPowerStateTransition (ps : Nat) (s : State) : Result :=
  if (ps = 3 || ps = 4) && s.rd Fd.GK_PSTATE_NVME < 3 && s.cmds.isEmpty then .next (s.setPs ps) else .next s

/-! ## Entry (R403-R405, R409, R410) -/

/-- Nothing is in the way of SLEEP and DEEP. -/
def State.sleepReady (s : State) : Bool :=
  (s.mode = mServe || s.mode = mDegraded || s.mode = mReadonly) && !s.boot.running &&
  s.cmds.isEmpty && s.heldSrcs.isEmpty && s.fns.all (fun (e : Nat × Fn) => e.2.sqs.all fun (q : Sq) => q.waiting = 0 && q.fetched.isEmpty) &&
  s.clutches.all (fun (x : Clutch) => x.place ≠ Place.buffer) && s.xlt.unflashed.isEmpty &&
  s.med.ops.all (fun (o : DieOp) => o.kind ≠ DieKind.program || o.st = 0) && s.med.rebuilds.isEmpty &&
  s.usedChoirs.all (fun c => decide (s.rd (Fd.XLT_FREE_LEVEL c) ≤ 1)) &&
  s.dzl.outs.isEmpty && s.dzl.ins.isEmpty && (List.range 8).all (fun n => !s.flag (Fd.SEC_HE_CTL_OWNED n)) &&
  s.quiesce.running.isNone && s.quiesce.queue.isEmpty && s.snc.running.isNone

/-- OFF may be entered: the profile enables it, a shutdown notification is complete, PERST_N is asserted (R405). -/
def State.offReady (s : State) : Bool := s.boot.profile.offEnable && s.boot.cleanStop && s.boot.perstLow

/-- DRAM goes into self-refresh; the Druzinov ports lose their signal (R292). -/
def State.sleepDomains (s : State) (st : Nat) : State :=
  let s := (List.range 4).foldl (fun (s : State) c =>
    if 2 ≤ s.rd (Fd.DMC_C_STATE_STATE c) && s.rd (Fd.DMC_C_STATE_STATE c) ≤ 4 then s.wr (Fd.DMC_C_STATE_STATE c) 5 else s) s
  let s := (List.range 4).foldl (fun (s : State) p =>
    if s.pst p = pDISABLED then s else ((s.dropSession p).modPort p fun q => { q with fromUp := false }).setPst p pNOSIGNAL s.now) s
  (s.wr Fd.GK_PSTATE_CUR st).wr Fd.GK_PSTATE_LAST st

/-- The CRC of each selected bank; what a bank holds the spec does not give, so the value is free (assumption 3). -/
def State.bankCrcs (s : State) : State :=
  (List.range 16).foldl (fun (s : State) b =>
    if (s.rd Fd.GK_RETSEL_SEL).testBit b then
      let r := s.free (2 ^ 32)
      r.2.wr (Fd.GK_RETCRC_CRC b) r.1
    else s.wr (Fd.GK_RETCRC_CRC b) 0) s

/-- Key slots of a bank are empty: bank 4 keeps slots 0 to 8191, bank 5 the others (assumption 41). Media slots there wait
for their reload. -/
def State.loseBank (s : State) (b : Nat) : State :=
  let gone (k : Nat) : Bool := decide (k / 8192 + 4 = b)
  { s with
    sec := { s.sec with slots := s.sec.slots.filter fun (e : Nat × KeySlot) => !gone e.1 }
    nss := s.nss.map fun (n : Ns) => if n.slot.any gone then { n with slotReady := false } else n }

/-- The link without power: every port is as at power-on, and the counts since then begin again (R292, R312). -/
def State.linkOff (s : State) : State :=
  let s := { s with dzl := { s.dzl with ports := List.replicate 4 Port.init, sent := 0, served := 0 } }
  (List.range 4).foldl (fun (s : State) p => (s.wr (Fd.DZL_P_STATE_STATE p) pDISABLED).wr (Fd.DZL_P_STATE_PVALID p) 0) s

/-- All rails go: what VDD_AON, the DRAM and the SRAM kept is lost; buffered data that is not on flash with it (R83, R405,
R502). -/
def State.railsOff (s : State) : State :=
  let r := ((s.linkOff).stopOps true).dropRecords s.xlt.flashed
  let s := r.2
  let lost := r.1 ++ (s.clutches.filter fun (x : Clutch) => x.place = .buffer && !r.1.contains x.id).map fun (x : Clutch) => x.id
  { s with
    xlt := { s.xlt with unflashed := [], remaps := [] }
    evr := { s.evr with aon := [], aonOnly := [], staging := [], lost := s.evr.lost + s.evr.staging.length }
    hlt := { s.hlt with held := none }
    boot := { s.boot with lost := s.boot.lost ++ lost, perstLow := true, running := false, limited := false, cfgReady := false, aonKept := false }
    pwr := { s.pwr with on := false, trip := false, pfHold := false, pfLow := false, waking := none, held := [] } }

/-- OFF: PWR_EN is deasserted, and only the VDD_WAKE logic lives on. -/
def State.enterOff (s : State) : State :=
  let s := s.railsOff
  ({ s with pins := { s.pins with pwrEn := false } }).wr Fd.GK_PSTATE_CUR 4

/-- The entry of a requested state. SLEEP and DEEP commit the journal to the system area first (R403). A request of OFF that the profile does
not enable acts as DEEP; one that it enables waits for the other conditions (R405). -/
def State.enterState (s : State) (st : Nat) : State :=
  if st = 1 then (if s.rd Fd.GK_PSTATE_CUR = 0 then (s.wr Fd.GK_PSTATE_CUR 1).wr Fd.GK_PSTATE_LAST 1 else s)
  else if st = 4 && s.boot.profile.offEnable then (if s.offReady then s.enterOff else s)
  else if !s.sleepReady then s
  else if st = 2 then s.journalOnFlash.commitResets.commitRemaps.sleepDomains 2
  else
    let s := s.journalOnFlash.commitResets.commitRemaps.bankCrcs
    let s := (List.range 2).foldl (fun (s : State) i => if (s.rd Fd.GK_RETSEL_SEL).testBit (4 + i) then s else s.loseBank (4 + i)) s
    s.sleepDomains 3

/-- POWER_STATE_ENTRY: the last core executes WAIT. `woken`: a wake source that occurs before the last clock has stopped;
the entry is then unwound, unless the source is disabled (R406). -/
def execPowerStateEntry (woken : Option Nat) (s : State) : Result :=
  let st := s.rd Fd.GK_PSTATE_REQ_STATE
  if st = 0 || 4 < st || s.asleep || s.rd Fd.GK_PSTATE_CUR = 4 || !s.pwr.on then .next s
  else match woken with
    | none => .next (s.enterState st)
    | some k => inRange k 7 (if !(s.rd Fd.GK_WAKECFG_EN).testBit k then .next ((s.wakeSource k).enterState st) else .next ((((s.wakeSource k).bump Fd.GK_PSTATE_UNWOUND 1).wr Fd.GK_PSTATE_REQ_STATE 0).wr Fd.GK_PSTATE_CUR 0))

/-! ## Wakes (R36, R406, R408, R410, R437) -/

/-- Failed and deselected banks after DEEP: each failed one is recorded; key slots of banks 4 and 5 are lost with them. -/
def State.checkBanks (s : State) (fails : Nat) : State :=
  let bad := (List.range 16).filter fun b => fails.testBit b && (s.rd Fd.GK_RETSEL_SEL).testBit b
  let s := bad.foldl (fun (s : State) b =>
    let s := s.wr Fd.GK_RETFAIL_MAP (s.rd Fd.GK_RETFAIL_MAP ||| 2 ^ b)
    let s := s.record 0x0103 (pay 2 (s.rd Fd.GK_RETFAIL_MAP))
    if b = 4 || b = 5 then s.loseBank b else s) s
  if (s.slot slotMediaKek).kind = 0 then s.reloadDevice else s

/-- The chorus resumes: the gecko has counted beats, and the calls since the last one are counted on. A part that has been aligned and whose
beat did not stay qualified re-locks (R36). -/
def State.wakeChorus (s : State) : State :=
  let held : Bool := s.choState = sLOCKED && s.cho.goods ≠ 0
  let d := (s.now - s.cho.callStart) / s.callNs
  let d := if held then min 255 d else d
  let s := if s.counter = 0 then s else
    (({ s with cho := { s.cho with callStart := s.cho.callStart + d * s.callNs } }).setCounter (s.counter + d)).recordFrame
  if held || s.cho.aligned.isNone then s
  else (if s.choState = sLOCKED then s.setChoState sHOLDOVER else s).needRelock

/-- The part is in RUN: its retention banks are checked; DRAM leaves self-refresh with
step 6 of its training, or a full one; the chorus re-locks where its beat did not stay qualified. -/
def State.wakeNow (s : State) (k fails : Nat) (dimms : List Dimm) : State :=
  let left := s.rd Fd.GK_PSTATE_CUR
  let s := s.leaveSleep k
  let s := if left = 3 then s.checkBanks fails else s
  let s := (List.range 4).foldl (fun (s : State) p => s.restartStep p s.now) s
  let full : Bool := left = 3 && fails.testBit 2
  let s := (dimms.take 4).zipIdx.foldl (fun (s : State) (e : Dimm × Nat) => s.loadDmc (!full) e.2 e.1) s
  let s := (List.range 4).foldl (fun (s : State) c => if s.rd (Fd.DMC_C_STATE_STATE c) = 2 then s.wr (Fd.DMC_C_STATE_STATE c) 6 else
    if s.rd (Fd.DMC_C_STATE_STATE c) = 5 then s.wr (Fd.DMC_C_STATE_STATE c) 6 else s) s
  let s := if k = 5 || s.rd Fd.GK_WAKECFG_TIMER = 0 then s.startHoldup else s
  s.wakeChorus.settleCeil.sncNext

/-- TIMER_WAKE: the timer of GK_WAKECFG.TIMER hours runs out; 0 is off. -/
def execTimerWake (s : State) : Result :=
  if s.asleep && s.rd Fd.GK_WAKECFG_TIMER ≠ 0 then .next (s.wakeSource 5) else .next s

/-- CLKREQ_N_WAKE: the host leaves L1.2. -/
def execClkreqNWake (s : State) : Result := if s.asleep then .next (s.wakeSource 1) else .next s

/-! ## DEV_WAKE_N (R405, R407) -/

def State.storm (s : State) : Bool := match s.pwr.storms with | t :: _ => decide (s.now < t + 1000000000) | [] => false

/-- A storm is latched: in OFF it is recorded at the next start. -/
def State.latchStorm (s : State) : State :=
  let l := s.now :: s.pwr.storms.filter fun t => decide (s.now < t + 3600000000000)
  let s := { s with pwr := { s.pwr with storms := l, edges := [] } }
  if s.rd Fd.GK_PSTATE_CUR = 4 then { s with pwr := { s.pwr with offStorms := s.pwr.offStorms + 1 } }
  else ((s.wr Fd.GK_WAKECFG_STORM 1).bump Fd.GK_WAKECFG_STORMS 1).record 0x0102 [min 255 l.length]

/-- An accepted falling edge: a wake source; in OFF it asserts PWR_EN. More than 16 within 1 s are a storm. -/
def State.acceptEdge (s : State) : State :=
  let l := (s.pwr.edges.filter fun t => decide (s.now < t + 1000000000)) ++ [s.now]
  let s := { s with pwr := { s.pwr with edges := l, highSince := none } }
  let s := if s.rd Fd.GK_PSTATE_CUR = 4 then { s with pins := { s.pins with pwrEn := true } }
    else if s.pwr.on then s.wakeSource 0 else s
  if 16 < l.length then s.latchStorm else s

/-- DEV_WAKE_N_EDGE: the pin rises, or falls and stays low for `width` ns. A fall counts once the pin has been high for 1 ms;
one shorter than 10 µs is ignored and does not disarm the pin. -/
def execDevWakeNEdge (rising : Bool) (width t : Nat) (s : State) : Result :=
  let s := s.at t
  if rising then .next (if s.pwr.highSince.isSome then s else { s with pwr := { s.pwr with highSince := some s.now } })
  else if width < 10000 then .next s
  else match s.pwr.highSince with
    | none => .next s
    | some h =>
      if s.storm || s.now < h + 1000000 then .next { s with pwr := { s.pwr with highSince := none } } else .next s.acceptEdge

/-- DEV_WAKE_STORM_END: 1 s after the storm the pin arms again under the 1 ms rule. -/
def execDevWakeStormEnd (t : Nat) (s : State) : Result :=
  let s := s.at t
  if s.storm then .next s
  else .next (({ s with pwr := { s.pwr with highSince := s.pwr.highSince.map fun h => max h s.now } }).wr Fd.GK_WAKECFG_STORM 0)

/-! ## Operating points (R412-R415) -/

/-- CLK_OP is written: REQ by the cores, MAX as an RWL field; the ceiling follows MAX. -/
def State.opWrite (s : State) (r v : Nat) : State :=
  let s := (s.plainWrite r Reg.CLK_OP v).settleCeil
  s.setFlag Fd.CLK_OP_BUSY (s.opTarget ≠ s.rd Fd.CLK_OP_CUR)

def execClkOpReqWrite (requester value : Nat) (s : State) : Result :=
  winWrite requester Reg.CLK_OP value s fun s => s.opWrite requester value

/-- DVFS_STEP: the sequencer begins a move towards the requested point: up by its voltage, down by its clocks. -/
def execDvfsStep (s : State) : Result :=
  let k := s.opTarget
  if s.asleep || !s.pwr.on || s.pwr.avsFault then .next s
  else if s.pwr.clkOp < k then .next (if s.pwr.climbing = some k then s else s.opUp k)
  else if k < s.pwr.clkOp then .next (s.opDown k)
  else .next s.voltDown

/-- DVFS_RAIL_SETTLED: the rail is in regulation and 2 µs have passed: the clocks of a climb rise. -/
def execDvfsRailSettled (s : State) : Result :=
  if s.pwr.avsFault then .next s
  else
    let s := s.wr Fd.CLK_AVS_STAT_BUSY 0
    match s.pwr.climbing with
    | none => .next s
    | some k =>
      let s := { s with pwr := { s.pwr with climbing := none, clkOp := k } }
      .next ((s.wr Fd.CLK_OP_CUR k).settleCeil)

/-- AVSBus command 0: a target voltage (PRESUMED, assumption 42). -/
def avsTarget : Nat := 0

/-- A write of CLK_AVS_CMD: a read's answer goes to DATA; a target voltage below what the clocks need is held, and replaces a
held one. -/
def State.avsWrite (s : State) (v answer : Nat) : State :=
  if !v.testBit 31 then s
  else if v.testBit 30 then s.wr Fd.CLK_AVS_STAT_DATA (answer % 65536)
  else if getBits v 27 24 ≠ avsTarget then s
  else
    let mv := getBits v 15 0
    if mv < opVolt s.pwr.clkOp then ({ s with pwr := { s.pwr with avsHeld := some mv } }).wr Fd.CLK_AVS_STAT_HELD 1
    else (({ s with pwr := { s.pwr with avsHeld := none, avsNow := mv } }).wr Fd.CLK_AVS_STAT_HELD 0).wr Fd.CLK_AVS_STAT_BUSY 1

def execClkAvsCmd (requester value answer : Nat) (s : State) : Result :=
  winWrite requester Reg.CLK_AVS_CMD value s fun s => s.avsWrite value answer

/-- Maximum power of the NVMe power state in force, mW. -/
def State.maxPower (s : State) : Nat := nth [48000, 30000, 18000] s.nvmeOp 48000

/-- AVS_CURRENT_READ: every 1 ms; while the power estimate exceeds 95% of MP the firmware lowers its request, by one point
(assumption 43). How it estimates power is its own. -/
def execAvsCurrentRead (current : Nat) (s : State) : Result :=
  if s.asleep || !s.pwr.on then .next s
  else
    let s := ({ s with pwr := { s.pwr with current := current } }).wr Fd.CLK_AVS_STAT_DATA (current % 65536)
    if 95 * s.maxPower < 100 * Config.powerEstimate current && 0 < s.opTarget
    then .next ((s.wr Fd.CLK_OP_REQ (s.opTarget - 1)).settleCeil) else .next s

/-- The regulator's error: ERR and its record. -/
def State.avsError (s : State) : State :=
  let s := s.wr Fd.CLK_AVS_STAT_ERR 1
  s.record 0x0201 (pay 4 (s.word Reg.CLK_AVS_STAT))

/-- AVS_REGULATOR_FAULT: the operating point stays. -/
def execAvsRegulatorFault (s : State) : Result :=
  if s.asleep || !s.pwr.on then .next s else .next ({ s with pwr := { s.pwr with avsFault := true, climbing := none } }).avsError

/-- AVS_RETRY: every 100 ms the firmware tries the regulator again. -/
def execAvsRetry (answers : Bool) (s : State) : Result :=
  if !s.pwr.avsFault then .next s
  else if answers then .next ({ s with pwr := { s.pwr with avsFault := false } }).settleCeil else .next s.avsError

/-- VDD_CORE_SAG: more than 30 mV below what the clocks need: they go to OP0 at once; the voltage stays. -/
def execVddCoreSag (s : State) : Result :=
  if !s.pwr.on then .next s
  else
    let s := ({ s with pwr := { s.pwr with clkOp := 0, climbing := none } }).wr Fd.CLK_OP_CUR 0
    .next (s.setFlag Fd.CLK_OP_BUSY (s.opTarget ≠ 0)).releaseHeld.avsError

/-! ## Pond gating (R162, R416, R417) -/

/-- Usable ponds, lowest first. -/
def State.openPonds (s : State) : List Nat := (List.range 8).filter s.usable

/-- POND_GATE: of the usable ponds the highest goes first, and at least 2 stay; its homes are redirected. -/
def execPondGate (pond : Nat) (s : State) : Result :=
  inRange pond 8 (
    let may : Bool := if s.usable pond then decide (2 < s.openPonds.length) && s.openPonds.getLast? = some pond
      else decide (2 ≤ s.openPonds.length)
    if s.gated pond || s.pwr.gating.contains pond || !may then .next s
    else .next ({ s with pwr := { s.pwr with gating := s.pwr.gating ++ [pond] } }).refreshHomes)

/-- The pond's deques are empty, nothing is parked or running. -/
def State.drained (s : State) (p : Nat) : Bool :=
  (List.range 32).all fun n => (s.eft p n).deque.isEmpty && (s.eft p n).parked.isEmpty && (s.eft p n).run.isNone

/-- POND_GATE_DRAINED: the pond clock stops; a voltage that waited for it follows the clocks down. -/
def execPondGateDrained (pond : Nat) (s : State) : Result :=
  inRange pond 8 (
    if !s.pwr.gating.contains pond || !s.drained pond then .next s
    else
      let s := { s with pwr := { s.pwr with gating := s.pwr.gating.filter fun p => p ≠ pond } }
      .next ((s.wr Fd.EFT_POND_MAP_GATED (s.rd Fd.EFT_POND_MAP_GATED ||| 2 ^ pond)).refreshHomes.voltDown))

/-- POND_UNGATE: within the ponds the operating point allows, lowest first. -/
def execPondUngate (pond : Nat) (s : State) : Result :=
  inRange pond 8 (
    if s.pwr.gating.contains pond then .next ({ s with pwr := { s.pwr with gating := s.pwr.gating.filter fun p => p ≠ pond } }).refreshHomes
    else if !s.gated pond || opPonds (min s.pwr.clkOp (s.rd Fd.CLK_OP_CUR)) ≤ s.ungated || (List.range pond).any (fun p => s.gated p && 4 ≤ s.unfenced p) then .next s
    else .next (s.wr Fd.EFT_POND_MAP_GATED (s.rd Fd.EFT_POND_MAP_GATED - 2 ^ pond)).refreshHomes)

end Sys2Proof.Machine
end

