-- ==== Sys2Proof/Machine/Thermal.lean ====
section
/-! DEFINITION. Temperature: samples and their cross-check, the throttle level, host thresholds, STOP, HOLD and TRIP (R37, R39-R43,
R392, R396, R398, R418-R427). -/

namespace Sys2Proof.Machine

open Sys2Proof

/-! ## Readings and neighbours (R418, R429) -/

/-- A temperature in 8 bits of a register or payload. -/
def tempBits (c : Int) : Nat := (c % 256).toNat

/-- A reading in use. -/
def State.present (s : State) (n : Nat) : Bool := decide (n < 16) || s.tdUsed (n - 16)

def State.tempRaw (s : State) (n : Nat) : Int := signed 8 (s.rd (Fd.GK_TEMP_RAW n))

/-- Neighbours in the 4 × 4 grid. -/
def gridNeighbours (n : Nat) : List Nat :=
  (if n / 4 = 0 then [] else [n - 4]) ++ (if n / 4 = 3 then [] else [n + 4]) ++
  (if n % 4 = 0 then [] else [n - 1]) ++ (if n % 4 = 3 then [] else [n + 1])

/-- A reading's neighbours; those of a TD input as configured. An unused input is nobody's neighbour. -/
def State.neighbours (s : State) (n : Nat) : List Nat :=
  if n < 16 then gridNeighbours n
  else [s.rd (Fd.GK_TDCFG_NB0 (n - 16)), s.rd (Fd.GK_TDCFG_NB1 (n - 16))].filter fun m => decide (m < 24) && m ≠ n && s.present m

/-- Limits of a TD input: outside 40 to 100 °C the nearest limit, STOP at least 3 above THROTTLE. -/
def clampLim (v : Nat) : Nat := max 40 (min 100 v)
def State.tdThrottle (s : State) (k : Nat) : Nat := clampLim (s.rd (Fd.GK_TDCFG_THROTTLE k))
def State.tdStop (s : State) (k : Nat) : Nat := max (clampLim (s.rd (Fd.GK_TDCFG_STOPLIM k))) (s.tdThrottle k + 3)

/-! ## The checks of a sample (R419, R420) -/

def State.soundReading (s : State) (n : Nat) : Bool := !s.flag (Fd.GK_TEMP_FAULT n) && !s.flag (Fd.GK_TEMP_SUSPECT n)

/-- Two neighbours agree. -/
def State.agree (s : State) (a b : Nat) : Bool :=
  a ≠ b && s.soundReading a && s.soundReading b && decide ((s.tempUsed a - s.tempUsed b).natAbs ≤ 5)

/-- Some pair of agreeing neighbours of reading `n` meets a test. -/
def State.anyPair (s : State) (n : Nat) (p : Nat → Bool) : Bool :=
  let l := s.neighbours n
  l.any fun a => p a && l.any fun b => p b && s.agree a b

/-- How often a key has been counted. -/
def countOf (l : List (Nat × Nat)) (n : Nat) : Nat := ((l.find? fun (e : Nat × Nat) => e.1 = n).map fun (e : Nat × Nat) => e.2).getD 0
def setCount (l : List (Nat × Nat)) (n v : Nat) : List (Nat × Nat) :=
  (l.filter fun (e : Nat × Nat) => e.1 ≠ n) ++ (if v = 0 then [] else [(n, v)])

/-- The conversion: FAULT for an input open, shorted or out of range, RAW 127 while it stands; it clears after 10 good
conversions in a row. A value RAW has no room for is free (assumption 3). -/
def State.convert (s : State) (n : Nat) (raw : Int) (bad : Bool) : State :=
  let good : Bool := !bad && decide (-40 ≤ raw) && decide (raw ≤ 150)
  if !good then
    (({ s with pwr := { s.pwr with goodConv := setCount s.pwr.goodConv n 0 } }).wr (Fd.GK_TEMP_FAULT n) 1).wr (Fd.GK_TEMP_RAW n) 127
  else
    let k := countOf s.pwr.goodConv n + 1
    if s.flag (Fd.GK_TEMP_FAULT n) && k < 10 then { s with pwr := { s.pwr with goodConv := setCount s.pwr.goodConv n k } }
    else
      let s := ({ s with pwr := { s.pwr with goodConv := setCount s.pwr.goodConv n 0 } }).wr (Fd.GK_TEMP_FAULT n) 0
      if 127 < raw then
        let r := s.free 256
        r.2.wr (Fd.GK_TEMP_RAW n) r.1
      else s.wr (Fd.GK_TEMP_RAW n) (tempBits raw)

/-- The cross-check. A SUSPECT reading that no agreeing pair judges stays SUSPECT, and its count begins again (DEDUCED,
assumption 44). -/
def State.crossCheck (s : State) (n : Nat) : State :=
  let r := s.tempRaw n
  let far := s.anyPair n fun a => decide (10 < (r - s.tempUsed a).natAbs)
  let near := s.anyPair n fun a => decide ((r - s.tempUsed a).natAbs ≤ 10)
  let was := s.flag (Fd.GK_TEMP_SUSPECT n)
  let k := if was && near && !far then countOf s.pwr.goodAgree n + 1 else 0
  let suspect : Bool := if was then decide (k < 10) else far
  let s := ({ s with pwr := { s.pwr with goodAgree := setCount s.pwr.goodAgree n (if suspect then k else 0) } }).setFlag (Fd.GK_TEMP_SUSPECT n) suspect
  let used := if suspect then (s.neighbours n).foldl (fun (m : Int) a => max m (s.tempUsed a)) (-128) else r
  s.wr (Fd.GK_TEMP_USED n) (tempBits used)

/-- The sampling rate, by the distance from the nearest limit (R421). -/
def State.sampleRate (s : State) (n : Nat) : Nat :=
  let v := if n < 16 then max (s.tempRaw n) (s.tempUsed n) else s.tempUsed n
  let lims : List Nat := if n < 16 then [95, 102, 110] else [s.tdThrottle (n - 16), s.tdStop (n - 16)]
  let d := minNat (lims.map fun (l : Nat) => (v - (l : Int)).natAbs) 1000
  if 5 < d then 0 else if 2 ≤ d then 1 else 2

/-! ## Composite, host thresholds, limits (R422) -/

def State.compositeNow (s : State) : Int := (List.range 16).foldl (fun (m : Int) n => max m (s.tempUsed n)) (-128)

/-- The level a host threshold asks for: 0, 1 or 3. -/
def State.hctmFloor (s : State) : Nat :=
  let k := s.composite + 273
  if s.pwr.tmt2 ≠ 0 && decide ((s.pwr.tmt2 : Int) ≤ k) then 3
  else if s.pwr.tmt1 ≠ 0 && decide ((s.pwr.tmt1 : Int) ≤ k) then 1 else 0

/-- GK_THERM.FLOOR codes. -/
def floorCode (f : Nat) : Nat := if f = 3 then 2 else f
def State.floorNow (s : State) : Nat := if s.rd Fd.GK_THERM_FLOOR = 2 then 3 else s.rd Fd.GK_THERM_FLOOR

/-- The floor follows; rising through TMT1 and TMT2 counts as a transition of each. -/
def State.settleFloor (s : State) : State :=
  let old := s.floorNow
  let new := s.hctmFloor
  let up (i : Nat) (b : Bool) (l : List Nat) : List Nat := if b then setNth l i (nth l i 0 + 1) else l
  let l := up 1 (old < 3 && new = 3) (up 0 (old = 0 && new ≠ 0) s.hlt.tmt)
  ({ s with hlt := { s.hlt with tmt := l } }).wr Fd.GK_THERM_FLOOR (floorCode new)

/-- What GK_THERM shows of the readings. -/
def State.refreshTherm (s : State) : State :=
  let bits (lim : Nat → Nat) : Nat := bitsOf ((List.range 8).map fun k => s.tdUsed k && decide ((lim k : Int) ≤ s.tempUsed (16 + k)))
  let s := (s.wr Fd.GK_THERM_TDHOT (bits s.tdThrottle)).wr Fd.GK_THERM_TDSTOP (bits s.tdStop)
  let s := s.wr Fd.GK_THERM_COMPOSITE (tempBits s.compositeNow)
  ({ s with hlt := { s.hlt with tmax := max s.hlt.tmax s.composite, tmin := min s.hlt.tmin s.composite } }).settleFloor

/-- Everything is cool: below 90 °C, and every used TD input 5 °C below its throttle limit. -/
def State.cool (s : State) : Bool :=
  decide (s.composite < 90) && (List.range 8).all fun k => !s.tdUsed k || decide (s.tempUsed (16 + k) < (s.tdThrottle k : Int) - 5)

/-- SET_FEATURES_HCTM. -/
def execSetFeaturesHctm (src : Src) (tmt1 tmt2 : Nat) (s : State) : Result :=
  let ok (v : Nat) : Bool := v = 0 || (decide (323 ≤ v) && decide (v ≤ 367))
  host s src .setFeat fun s =>
    if !ok tmt1 || !ok tmt2 || (tmt1 ≠ 0 && tmt2 ≠ 0 && decide (tmt2 ≤ tmt1)) then s.err src .invalidField
    else (({ s with pwr := { s.pwr with tmt1 := tmt1, tmt2 := tmt2 } }).settleFloor).ok src

/-! ## The throttle level (R423) -/

/-- A change of the level: its record, the spacing, the ceiling. In SLEEP and DEEP it applies at wake. -/
def State.setLevel (s : State) (l : Nat) : State :=
  let old := s.rd Fd.GK_THERM_LEVEL
  if old = l then s
  else
    let s := ({ s with pwr := { s.pwr with levelAt := s.now } }).wr Fd.GK_THERM_LEVEL l
    let s := s.record 0x0105 [old, l, tempBits s.composite]
    if s.asleep then s else s.settleCeil

/-- The level 100 ms later. -/
def State.nextLevel (s : State) : Nat :=
  let level := s.rd Fd.GK_THERM_LEVEL
  let hot : Bool := decide (95 ≤ s.composite) || s.rd Fd.GK_THERM_TDHOT ≠ 0
  let l := if hot && level < 4 then level + 1
    else if s.cool && s.floorNow < level && s.pwr.levelAt + 1000000000 ≤ s.now then level - 1 else level
  max l s.floorNow

/-- Times under host thresholds, in steps of 100 ms. -/
def State.countTmt (s : State) : State :=
  let add (i : Nat) : State := { s with hlt := { s.hlt with tmt := setNth s.hlt.tmt i (nth s.hlt.tmt i 0 + 1) } }
  if s.floorNow = 1 then add 2 else if s.floorNow = 3 then add 3 else s

/-- THERMAL_STEP: every 100 ms, in every power state in which the gecko runs. While STOP is in force the level stays 4. -/
def execThermalStep (t : Nat) (s : State) : Result :=
  let s := s.at t
  if !s.pwr.on then .next s
  else
    let s := s.countTmt
    if s.flag Fd.GK_THERM_STOP then .next (s.setLevel 4) else .next (s.setLevel s.nextLevel)

/-! ## STOP (R42, R43, R392, R424) -/

/-- STOP takes effect. In a start and in PROVISION it only stands; elsewhere QUIESCE is settled, a sanitize pauses, and a part
asleep wakes. -/
def State.thermalStop (s : State) : State :=
  let s := ((s.setFlag Fd.GK_THERM_STOP true).setLevel 4)
  let s := { s with hlt := { s.hlt with stops := s.hlt.stops + 1 }, pwr := { s.pwr with coolSince := none } }
  let s := s.record 0x0106 [tempBits s.composite, s.rd Fd.GK_THERM_TDSTOP]
  if s.boot.running || s.mode = mProvision || s.mode = mBoot then s
  else
    let s := if s.asleep then s.wakeSource 4 else s
    let s := if s.mode = mQuiesce then s.stopQuiesce else s
    if s.mode = mSanitize then { s with boot := { s.boot with sanPaused := true } } else s

/-- The clearing condition holds since; it is broken by any sample that does not meet it (R425). -/
def State.trackCool (s : State) : State :=
  let c := if s.flag Fd.GK_THERM_STOP && s.cool then some (s.pwr.coolSince.getD s.now) else none
  { s with pwr := { s.pwr with coolSince := c } }

/-- The oscillator is trimmed again when the nearest sensor's value has moved 2 °C (R427). -/
def State.retrim (s : State) (n : Nat) : State :=
  if n = Config.oscillatorSensor % 16 && decide (2 ≤ (s.tempUsed n - s.pwr.trimAt).natAbs)
  then { s with pwr := { s.pwr with trimAt := s.tempUsed n } } else s

/-- TEMP_SAMPLE: one conversion of reading `n`; `bad`: its input is open or shorted. Each change of FAULT or SUSPECT is
recorded. -/
def execTempSample (n : Nat) (raw : Int) (bad : Bool) (t : Nat) (s : State) : Result :=
  inRange n 24 (
    let s := s.at t
    if !s.pwr.on || s.rd Fd.GK_PSTATE_CUR = 4 || !s.present n then .next s
    else
      let was := getBits (s.word (Reg.GK_TEMP n)) 31 30
      let s := (s.convert n raw bad).crossCheck n
      let s := (s.wr (Fd.GK_TEMP_RATE n) (s.sampleRate n)).retrim n
      let fs := getBits (s.word (Reg.GK_TEMP n)) 31 30
      let s := if fs = was then s else s.record 0x0104 [n, fs / 2 + fs % 2 * 2, s.rd (Fd.GK_TEMP_RAW n), s.rd (Fd.GK_TEMP_USED n)]
      let s := s.refreshTherm.refreshCrit
      let hit : Bool := decide (102 ≤ s.composite) || s.rd Fd.GK_THERM_TDSTOP ≠ 0
      let s := if hit && !s.flag Fd.GK_THERM_STOP && !s.pwr.trip then s.thermalStop else s
      .next s.trackCool)

/-! ## HOLD (R37, R42, R396, R424) -/

/-- Steps 3 and 4 have ended: the buffer is on flash, the records that wait for their page are, and no program or erase runs. -/
def State.drainedForHold (s : State) : Bool :=
  s.clutches.all (fun (x : Clutch) => x.place ≠ Place.buffer) && s.xlt.unflashed.isEmpty &&
  s.med.ops.all fun (o : DieOp) => !o.busy || o.kind = DieKind.read || o.kind = DieKind.check

/-- Writes that wait as queued commands complete with Namespace Not Ready. -/
def State.failQueuedWrites (s : State) : State :=
  ((s.cmds.filter fun (c : Cmd) => c.kind.stores).foldl (fun (s : State) (c : Cmd) => (s.cancelItems c.tag).finish c .nsNotReady 0 0 .none) s).concludeRecon

/-- HOLD_ENTRY: step 5, from SERVE, DEGRADED, SANITIZE, READONLY, or QUIESCE with its action settled. -/
def execHoldEntry (s : State) : Result :=
  let m := s.mode
  if !s.flag Fd.GK_THERM_STOP || s.boot.running || s.asleep || s.flag Fd.TOP_MODE_FLUSH || s.pwr.pfHold || !s.drainedForHold then .next s
  else if !(m = mServe || m = mDegraded || m = mSanitize || m = mReadonly || (m = mQuiesce && s.quiesce.running.isNone)) then .next s
  else
    let s := s.journalOnFlash.commitResets
    let s := (s.wr Fd.TOP_MODE_QCAUSE 0).setMode mHold false
    let s := if m = mQuiesce then s else s.wr Fd.TOP_MODE_RETURN m
    .next s.failQueuedWrites

/-- HOLD is left for the mode it interrupted, or for DEGRADED where a cause arose meanwhile; READONLY follows at end of life;
a sanitize goes on; queued QUIESCE actions run. -/
def State.leaveHold (s : State) : State :=
  let back := s.rd Fd.TOP_MODE_RETURN
  let goal := if (back = mServe || back = mDegraded) && s.rd Fd.TOP_MODE_DGCAUSE ≠ 0 then mDegraded else back
  let s := s.setMode goal (goal = back)
  let s := if s.xlt.eol && (goal = mServe || goal = mDegraded) then (s.enterReadonly 2).abandonQueue else s
  s.startPeers.resumeQueue

/-- STOP_CLEAR: the condition has held for the dwell. A start held by STOP goes on. -/
def execStopClear (t : Nat) (s : State) : Result :=
  let s := s.at t
  match s.pwr.coolSince with
  | none => .next s
  | some c =>
    if !s.flag Fd.GK_THERM_STOP || s.now < c + max 1 (s.rd Fd.GK_THCFG_DWELL) * 1000000000 then .next s
    else
      let s := ({ s with pwr := { s.pwr with coolSince := none, levelAt := s.now } }).setFlag Fd.GK_THERM_STOP false
      let s := { s with boot := { s.boot with sanPaused := false } }
      if s.boot.running then .next (({ s with boot := { s.boot with stageAt := s.now } }).wr Fd.TOP_BOOT_THERM 0)
      else if s.mode = mHold then .next s.leaveHold
      else if s.mode = mQuiesce && s.quiesce.running.isNone then .next s.nextAct
      else .next s.resumeQueue

/-! ## TRIP (R41, R426) -/

/-- The hottest RAW of the on-die sensors without FAULT, and how many are FAULT. -/
def State.hottest (s : State) : Int :=
  (List.range 16).foldl (fun (m : Int) n => if s.flag (Fd.GK_TEMP_FAULT n) then m else max m (s.tempRaw n)) (-128)
def State.faultCount (s : State) : Nat := ((List.range 16).filter fun n => s.flag (Fd.GK_TEMP_FAULT n)).length

/-- THERMAL_TRIP: hardware asserts THERMTRIP_N, stops every clock but the gecko's and deasserts every CHnn_CE_N. What ran then runs no more,
since only the loss of VDD_AON ends a trip; programs that ran are cut off. The board removes power (R41, R426). -/
def execThermalTrip (s : State) : Result :=
  if s.pwr.trip || !s.pwr.on || s.rd Fd.GK_PSTATE_CUR = 4 || (s.hottest < 110 && s.faultCount < 9) then .next s
  else
    let s := { s with pwr := { s.pwr with trip := true, tripSeen := true } }
    let s := { (s.startEfts).stopOps true with cmds := [] }
    .next (s.record 0x0107 [tempBits s.hottest, s.faultCount])

end Sys2Proof.Machine
end

