-- ==== Sys2Proof/Machine/PowerLoss.lean ====
section
/-! DEFINITION. Power failure: PWRFAIL_N, the flush, recovery, a stuck input, and the loss of the rails (R22, R40, R82, R196-R199, R376,
R391, R408, R450, R488, R502, R531). -/

namespace Sys2Proof.Machine

open Sys2Proof

/-! ## What the flush drops (R196, steps 1 and 2) -/

/-- A command whose items are dropped is queued again: it starts anew if the part recovers (DEDUCED, assumption 45). -/
def Cmd.requeue (c : Cmd) : Cmd :=
  if c.started && (c.kind.stores || c.items ≠ 0 || c.kind = .digest) then
    { c with started := false, items := 0, placed := 0, parts := [], targets := [], out := [], fail := none, owner := none, terms := [] }
  else c

/-- Every item is dropped; reads this part serves to peers wait again. -/
def State.dropItems (s : State) : State :=
  let s := s.efts.foldl (fun (s : State) (e : Nat × Eft) => s.modEft (e.1 / 32) (e.1 % 32) fun (x : Eft) =>
    { x.letGo.scrub with deque := [], parked := [], ctx := [], outs := [], noProgress := 0 }) s
  { s with
    cmds := (s.cmds.filter fun (c : Cmd) => c.kind ≠ Kind.peer).map Cmd.requeue
    dzl := { s.dzl with ins := s.dzl.ins.map fun (i : PeerIn) => { i with running := false } } }

/-- An operation the flush leaves: programs that have started, erases, which are suspended; clear records and system-area pages stay queued. -/
def DieOp.keptInFlush (o : DieOp) : Bool :=
  match o.kind with
  | .read | .check => false
  | .erase => true
  | .program => o.busy || o.st = 3 || o.purpose = 11 || o.purpose = 8

/-- Reads and copies are abandoned, erases suspended, programs not started let go: rounds are handed over again when the part recovers
(R196). -/
def State.dropOps (s : State) : State :=
  let s := s.suspendErases 4
  -- what a staging program that had not started carried is programmed anew, all of it
  let cut := ((s.med.ops.filter fun o => !o.keptInFlush && stages o.purpose).flatMap (·.carries)).map fun (e : Nat × Nat) => e.1
  let pend := s.xlt.remaps.map fun (e : Nat × Remap) => e.1
  ({ s with
    med := { s.med with
      ops := (s.med.ops.filter DieOp.keptInFlush).map fun (o : DieOp) =>
        if stages o.purpose then { o with carries := o.carries.filter fun (e : Nat × Nat) => !cut.contains e.1 } else o
      rows := [] }
    xlt := { s.xlt with
      -- a copy whose record was not committed yet is abandoned with it
      remaps := []
      unflashed := s.xlt.unflashed.filter fun q => !pend.contains q
      journal := s.xlt.journal.filter fun (r : JRec) => !pend.contains r.seq
      works := s.xlt.works.filter fun (w : Work) => match w with | .erase _ _ => true | _ => false
      copies := []
      segs := s.xlt.segs.map fun (g : Segment) => { g with folding := false } } }).rewindRounds

/-- An interrupted re-lock starts again after recovery: one that runs goes back to the front of the queue (R253). -/
def State.pauseRelock (s : State) : State :=
  if !s.cho.relocking then s
  else
    let s := s.haltRelock
    match s.quiesce.running with
    | some r => if r.isRelock then { s.setRunning none false with quiesce := { (s.setRunning none false).quiesce with queue := r :: s.quiesce.queue } } else s
    | none => s

/-! ## The flush (R196, step 3) -/

/-- Hand over every clutch that is not yet on flash, oldest placement first; what a running program carries is on its way. One that finds no
room cuts the flush short. -/
def State.flushBuffer (s : State) : State :=
  let l := s.clutches.filter fun (x : Clutch) => x.place = .buffer && !s.carried x.id stages
  let s := { s with pwr := { s.pwr with flushQueue := l.map fun (x : Clutch) => x.id, flushCount := 0 } }
  l.foldl (fun (s : State) (x : Clutch) =>
    (s.flushPut x).getD { s with xlt := { s.xlt with flushCut := true }, pwr := { s.pwr with flushQueue := s.pwr.flushQueue.filter fun i => i ≠ x.id } }) s

/-- DRAM leaves self-refresh for the flush; an entry before its commit point is cancelled (R376, R450). -/
def State.wakeDram (s : State) : State :=
  (List.range 4).foldl (fun (s : State) c =>
    if s.rd (Fd.DMC_C_STATE_STATE c) = 4 then (s.bump (Fd.DMC_C_STATE_CANCELS c) 1).wr (Fd.DMC_C_STATE_STATE c) 2
    else if s.rd (Fd.DMC_C_STATE_STATE c) = 5 then s.wr (Fd.DMC_C_STATE_STATE c) 2 else s) s

/-- The flush starts. A device self-test that runs is aborted (R129). -/
def State.startFlush (s : State) : State :=
  let s := s.dropHoldup.abortTest 8
  let s := { s with
    pwr := { s.pwr with pfHold := true, flushAt := s.now, flushed := false, flushRes := 0 }
    xlt := { s.xlt with flushCut := false } }
  let s := (s.setFlag Fd.TOP_MODE_FLUSH true).pauseRelock.setChoState sFLUSH
  s.dropItems.dropOps.wakeDram.flushBuffer

/-- PWRFAIL_N_ASSERT: the pin goes low for `width` ns; from 0.5 to 1 µs it may or may not be recognised (R507). In PROVISION
no flush runs; a hold-up test that runs is let go and its result discarded (R510). In SLEEP and DEEP the part wakes; in a cold start it holds; after a flush nothing new runs; else the flush
starts. -/
def State.pwrfail (s : State) : State :=
  let s := { s with pwr := { s.pwr with pfLow := true, pfSince := s.now } }
  if s.pwr.pfHold || s.pwr.stuck then s
  else if s.mode = mProvision && !s.boot.running then { s.dropHoldup with pwr := { s.dropHoldup.pwr with huPending := false } }
  else if s.asleep then ({ s with pwr := { s.pwr with pfHold := true } }).wakeSource 3
  else
    let s := if s.boot.running then s.wr Fd.TOP_BOOT_PFHELD 1 else s
    if s.boot.running && (s.rd Fd.TOP_BOOT_KIND ≠ 1 || s.mode = mProvision) then { s.dropHoldup with pwr := { s.dropHoldup.pwr with pfHold := true } }
    else s.startFlush

def execPwrfailNAssert (width t : Nat) (s : State) : Result :=
  let s := s.at t
  if !s.pwr.on || s.pwr.pfLow || s.rd Fd.GK_PSTATE_CUR = 4 || width < 500 then .next s
  else if 1000 ≤ width then .next s.pwrfail
  else
    let r := s.free 2
    .next (if r.1 = 1 then r.2.pwrfail else r.2)

/-! ## Its end (R196, steps 4 and 5; R199, R488) -/

/-- Staged records go to the NAND event area, if it is writable. -/
def State.stagedToNand (s : State) : State :=
  if !s.evr.nandOk || s.mode = mReadonly then s
  else
    let l := s.evr.staging.filter fun (r : Rec) => !s.evr.nand.any fun (q : Rec) => q.seq = r.seq
    { s with evr := { s.evr with nand := s.evr.nand ++ l } }

/-- FLUSH_COMPLETE: the journal region and the marker are programmed last; `room`: the system area has room for the tail. -/
def execFlushComplete (room : Bool) (t : Nat) (s : State) : Result :=
  let s := s.at t
  if !s.flag Fd.TOP_MODE_FLUSH || s.pwr.flushRes ≠ 0 || !s.pwr.flushQueue.isEmpty || s.programRuns then .next s
  else
    let ok : Bool := room && !s.xlt.flushCut
    let s := if room then ({ s.journalOnFlash with xlt := { s.journalOnFlash.xlt with marker := some (s.xlt.nextRec - 1, s.pwr.flushCount) } }).commitResets.commitRemaps.noteFrame else s
    let s := s.stagedToNand
    let s := { s with
      xlt := { s.xlt with flushCut := !ok }
      pwr := { s.pwr with flushed := ok, flushRes := if ok then 1 else 2, flushEnd := s.now }
      hlt := { s.hlt with flushes := s.hlt.flushes + 1, flushesCut := s.hlt.flushesCut + (!ok).toNat } }
    let s := if ok then { s with boot := { s.boot with safeCounts := s.counts } } else s
    let s := (s.wr Fd.XLT_FLUSH_LAST_RESULT s.pwr.flushRes).wr Fd.XLT_FLUSH_LAST_TIME (min 0xFFFFF ((s.now - s.pwr.flushAt) / 1000))
    let s := s.record 0x0108 (pay 4 (s.word Reg.XLT_FLUSH_LAST))
    match s.boot.startWait with
    | some prf => .next (s.perstRelease prf)
    | none => .next s

/-! ## Recovery (R40, R198, R246, R391) -/

/-- PWRFAIL_N_DEASSERT: the 100 ms begin. A part that woke for it and flushed nothing goes back to the state in force. -/
def execPwrfailNDeassert (t : Nat) (s : State) : Result :=
  let s := s.at t
  if !s.pwr.pfLow then .next s
  else
    let s := { s with pwr := { s.pwr with pfLow := false, pfHigh := s.now } }
    if s.pwr.pfHold && !s.boot.running && !s.flag Fd.TOP_MODE_FLUSH && s.now < s.pwr.pfSince + 100000000
    then .next ({ s with pwr := { s.pwr with pfHold := false } }).sncNext else .next s

/-- Copy destinations that never committed are released. -/
def State.dropCopies (s : State) : State :=
  (s.xlt.stripes.filter fun (t : Stripe) => t.state = 6).foldl (fun (s : State) (t : Stripe) => s.releaseStripe t.seq) s

/-- A held start begins again at stage 4: cold, or cold after the flush that ran. Before stage 4 it goes on where it stood. -/
def State.resumeStart (s : State) : State :=
  let flushed := s.pwr.flushed
  let s := { s with pwr := { s.pwr with flushed := false }, boot := { s.boot with stageAt := s.now } }
  let s := ((s.wr Fd.TOP_BOOT_PFHELD 0).wr Fd.TOP_MODE_FLUSH 0).wr Fd.TOP_BOOT_KIND (if flushed then 2 else 0)
  let s := s.setChoState 0
  if s.rd Fd.TOP_BOOT_STAGE < 4 then s
  else
    let s := ({ s with xlt := { s.xlt with restored := false } }).startChorus.wr Fd.CHO_STATE_ACQ 0
    (if s.pwr.huPending then s.startHoldup else s).enterStage 4

/-- The part returns to the mode it was in, and re-locks through QUIESCE; in HOLD and SANITIZE the re-lock waits, in READONLY the time
is adopted at acquisition. -/
def State.recover (s : State) : State :=
  let s := ({ s with pwr := { s.pwr with pfHold := false } }).sncNext
  if s.boot.running then s.resumeStart
  else if !s.flag Fd.TOP_MODE_FLUSH then s
  else
    let s := (({ s with pwr := { s.pwr with flushed := s.pwr.flushed && s.boot.perstLow } }).setFlag Fd.TOP_MODE_FLUSH false).dropCopies.refreshXlt
    if s.boot.perstLow then s
    else
      let s := match s.quiesce.running with
        | some ⟨.profile _ _, _⟩ => if s.pwr.huPending then s.startHoldup else s
        | _ => s
      let s := if s.mode = mReadonly || s.mode = mBoot then
          (if s.quiesce.queue.any QReq.isRelock then s.beginRelock else s)
        else s.needRelock
      let s := if s.mode = mQuiesce && s.quiesce.running.isNone then s.nextAct else s.resumeQueue
      -- no re-lock has begun: STATE follows SINCE (R246, R398)
      let s := if s.choState = sFLUSH then s.setChoState s.stateBySince else s
      s.startPeers.concludeRecon

/-- PWRFAIL_N_RECOVERY: 100 ms high, with the flush finished. -/
def execPwrfailNRecovery (t : Nat) (s : State) : Result :=
  let s := s.at t
  if !s.pwr.on || !s.pwr.pfHold || s.pwr.pfLow || s.now < s.pwr.pfHigh + 100000000 || (s.flag Fd.TOP_MODE_FLUSH && s.pwr.flushRes = 0) then .next s
  else .next s.recover

/-! ## A stuck input (R40, R391, R531) -/

/-- PWRFAIL_N_STUCK: low for 1 s after the flush has ended. A start goes on to READONLY; elsewhere the part enters it now. -/
def State.pwrfailStuck (s : State) : State :=
  let s := if s.flag Fd.TOP_MODE_FLUSH then
      { s with pwr := { s.pwr with flushRes := 3 } }.wr Fd.XLT_FLUSH_LAST_RESULT 3 else s
  let s := (({ s with pwr := { s.pwr with stuck := true, pfHold := false, flushed := false } }).setFlag Fd.TOP_MODE_FLUSH false).sncNext
  let s := s.record 0x0109 []
  if s.boot.running then ({ s with boot := { s.boot with stageAt := s.now } }).wr Fd.TOP_BOOT_PFHELD 0
  else if s.boot.perstLow then s
  else
    let s := if s.choState = sFLUSH then s.setChoState s.stateBySince else s
    let s := s.stuckQuiesce
    -- a committed profile switch still makes its switch; READONLY follows when QUIESCE is left (R531)
    if s.quiesce.running.isSome then s else (s.enterReadonly 3).startPeers.concludeRecon

def execPwrfailNStuck (t : Nat) (s : State) : Result :=
  let s := s.at t
  let ended : Bool := !s.flag Fd.TOP_MODE_FLUSH || s.pwr.flushRes ≠ 0
  let since := if s.flag Fd.TOP_MODE_FLUSH then max s.pwr.flushEnd s.pwr.pfSince else s.pwr.pfSince
  if !s.pwr.on || !s.pwr.pfHold || !s.pwr.pfLow || !ended || s.asleep || s.now < since + 1000000000 || s.mode = mProvision then .next s
  else .next s.pwrfailStuck

/-! ## The rails go (R199, R502) -/

/-- VDD_AON_LOSS: the gecko resets; the next start is a power-on. A flush without its marker was cut short, and with a cut flush go the
counts made since the newest checkpoint (R477); the cut flush itself is then counted. -/
def execVddAonLoss (t : Nat) (s : State) : Result :=
  let s := s.at t
  if !s.pwr.on then .next s
  else
    let cut : Bool := s.flag Fd.TOP_MODE_FLUSH && s.pwr.flushRes ≠ 1
    let s := if cut then
        let s := s.loseCounts
        { s with
          pwr := { s.pwr with flushRes := 2, flushEnd := s.now }
          xlt := { s.xlt with flushCut := true }
          hlt := { s.hlt with flushes := s.hlt.flushes + 1, flushesCut := s.hlt.flushesCut + 1 } }
      else s
    .next s.railsOff

end Sys2Proof.Machine
end

