-- ==== Sys2Proof/Machine/Dram.lean ====
section
/-! DEFINITION. The DRAM controllers: scheduling and hazards, refresh, drift and retraining, power-down and self-refresh, ECC, the patrol
scrub and retired regions (R433-R455). -/

namespace Sys2Proof.Machine

open Sys2Proof

def State.dctl (s : State) (ch : Nat) : DramCtl := nth s.dram.ctls ch DramCtl.init
def State.modDctl (s : State) (ch : Nat) (g : DramCtl → DramCtl) : State :=
  { s with dram := { s.dram with ctls := setNth s.dram.ctls ch (g (s.dctl ch)) } }

/-! ## Addresses (R433) -/

/-- The sub-channel of a system address, 0 to 7: 256 B units are interleaved. -/
def subChannel (a : Nat) : Nat := getBits a 10 8 ^^^ getBits a 13 11 ^^^ getBits a 16 14

/-- Its controller and the sub-channel there: controller `x` has sub-channels 2x and 2x + 1 (log entry 111). -/
def chOf (a : Nat) : Nat := subChannel a / 2
def subOf (a : Nat) : Nat := subChannel a % 2

/-- Its line within the channel: every 2 KiB of system addresses put one 256 B unit on each sub-channel, and the units of a channel's two
sub-channels alternate (log entry 111). -/
def lineOf (a : Nat) : Nat := a / 2048 * 8 + subOf a * 4 + a % 256 / 64

/-! ## ECC (R451-R454) -/

/-- The code corrects up to 8 erroneous bytes of a codeword, and reports every other error: 0 good, 1 corrected, 2 uncorrectable (R451). -/
def eccOf (bad : Nat) : Nat := if bad = 0 then 0 else if bad ≤ 8 then 1 else 2

/-- Zones a journal record names. -/
def JRec.zone (r : JRec) : Option (Nat × Nat) :=
  match r.kind, r.args with
  | .bind, _ :: n :: z :: _ => some (n, z)
  | .place, [n, z, _, _, _, _] => some (n, z)
  | .finish, n :: z :: _ => some (n, z)
  | .reset, n :: z :: _ => some (n, z)
  | _, _ => none

/-- Clutches that go with a record not yet on flash: those a PLACE record names; of a zone that another record names, those that only the buffer
holds (R83, R452). -/
def JRec.loses (r : JRec) (zoned : Bool) (x : Clutch) : Bool :=
  if r.kind = .place then r.places zoned x
  else r.zone.any fun z => x.nsid = z.1 && x.zone = z.2 && x.place = .buffer && !x.onFlash

/-- A region key: 2 MiB regions of a channel. -/
def regionOf (ch line : Nat) : Nat := ch * 2 ^ 16 + line / 32768

/-- Retire a region, up to 256 of them. -/
def State.retireRegion (s : State) (ch line : Nat) : State :=
  let r := regionOf ch line
  if s.dram.retired.contains r || 256 ≤ s.dram.retired.length then s
  else
    let s := { s with dram := { s.dram with retired := s.dram.retired ++ [r], errors := s.dram.errors.filter fun (e : Nat × Nat) => e.1 ≠ r } }
    (s.wr Fd.DMC_RETIRED_COUNT s.dram.retired.length).record 0x0A02 (ch :: pay 4 (line / 32768))

/-- A corrected error: more than 16 of a region within 24 h retire it. -/
def State.corrected (s : State) (ch line : Nat) : State :=
  let r := regionOf ch line
  let l := (s.dram.errors.filter fun (e : Nat × Nat) => decide (s.now < e.2 + 86400000000000)) ++ [(r, s.now)]
  let s := { s with dram := { s.dram with errors := l }, hlt := { s.hlt with dramCe := s.hlt.dramCe + 1 } }
  let s := s.bump (Fd.DMC_C_ECC_CE ch) 1
  if 16 < (l.filter fun (e : Nat × Nat) => e.1 = r).length then s.retireRegion ch line else s

/-- The regions of R452 in its table's order. A landed clutch is dropped, and its item reads the die again. -/
def State.lostLine (s : State) (region unit : Nat) : State :=
  let critical (s : State) : State := ({ s with hlt := { s.hlt with dramCritical := true } }).refreshCrit
  match region with
  | 0 => critical (if s.clutches.any fun (x : Clutch) => x.id = unit && x.place = .buffer && !x.onFlash then s.loseClutches [unit] else s)
  | 2 => { s with landing := s.landing.filter fun e => e.2.1 ≠ unit }
  | 5 => critical (match s.xlt.journal.find? fun (r : JRec) => r.seq = unit with
    | none => s
    | some r => s.loseClutches ((s.clutches.filter (r.loses (s.nss.any fun n => n.nsid = nth r.args 0 0 && n.zoned))).map fun (x : Clutch) => x.id))
  | 6 => s.internalRestart
  | _ => s

/-- What ECC finds on a line, its counts and records, and what follows. -/
def State.ecc (s : State) (ch line : Nat) (e : EccSeen) : State :=
  if eccOf e.bad = 0 then s
  else
    let s := ((s.wr (Fd.DMC_C_ECCADDR_VALID ch) 1).setFlag (Fd.DMC_C_ECCADDR_UE ch) (eccOf e.bad ≠ 1)).wr (Fd.DMC_C_ECCADDR_LINE ch) line
    if eccOf e.bad = 1 then s.corrected ch line
    else
      let s := { s.bump (Fd.DMC_C_ECC_UE ch) 1 with hlt := { s.hlt with dramUe := s.hlt.dramUe + 1 } }
      let s := s.record 0x0A01 (ch :: pay 4 line ++ [e.region])
      (s.retireRegion ch line).lostLine e.region e.unit

/-! ## Scheduling (R441-R446) -/

/-- The policy of a port: the cores and the gecko look up, the others stream (R441). -/
def portLooksUp : DramPort → Bool
  | .core | .gecko => true
  | .pond | .channel | .link | .boot => false

def DramReq.key (r : DramReq) : Nat := (r.sub * 256 + r.group) * 256 + r.bank

/-- Limits in force. -/
def State.wlo (s : State) (ch : Nat) : Nat := min 55 (s.rd (Fd.DMC_C_SCHED_WLO ch))
def State.whi (s : State) (ch : Nat) : Nat := max (s.wlo ch + 8) (s.rd (Fd.DMC_C_SCHED_WHI ch))

def DramCtl.writes (c : DramCtl) (sub : Nat) : Nat := (c.queue.filter fun (r : DramReq) => r.write && r.sub = sub).length
def DramCtl.hit (c : DramCtl) (r : DramReq) : Bool := c.rows.contains (r.key, r.row)

/-- A request that may be issued: a read not before a queued write of its line, a write not before an older read of it. -/
def DramCtl.ready (c : DramCtl) (r : DramReq) : Bool :=
  !(c.queue.takeWhile fun (x : DramReq) => x ≠ r).any fun (x : DramReq) => x.sub = r.sub && x.line = r.line && x.write ≠ r.write

/-- Row hits that went before a waiting miss to the bank of a request, in a row. -/
def DramCtl.hitsOf (c : DramCtl) (r : DramReq) : Nat := ((c.hits.find? fun (e : Nat × Nat) => e.1 = r.key).map (·.2)).getD 0

/-- An older request of `l` misses in the bank of `r`. -/
def DramCtl.missWaits (c : DramCtl) (older : List DramReq) (r : DramReq) : Bool := older.any fun (y : DramReq) => y.key = r.key && !c.hit y

/-- The oldest hit that may go: while an older miss to its bank waits, at most `cap` hits in a row have gone to that bank. -/
def DramCtl.readyHit (c : DramCtl) (cap : Nat) (older : List DramReq) : List DramReq → Option DramReq
  | [] => none
  | x :: l =>
    if c.hit x && (!c.missWaits older x || decide (c.hitsOf x < cap)) then some x else DramCtl.readyHit c cap (older ++ [x]) l

/-- First-ready, first-come (R442): a hit goes before an older miss; without one the oldest goes. -/
def DramCtl.firstReady (c : DramCtl) (cap : Nat) (l : List DramReq) : Option DramReq :=
  match c.readyHit cap [] l with
  | some x => some x
  | none => l.head?

/-- The next request of a sub-channel: a write a waiting read needs; lookups, oldest first; stream reads, or writes while the
write queue drains or no read waits. -/
def DramCtl.next (c : DramCtl) (cap sub : Nat) : Option DramReq :=
  let l := c.queue.filter fun (r : DramReq) => r.sub = sub && c.ready r
  let blocks (w : DramReq) : Bool := w.write && c.queue.any fun (r : DramReq) => !r.write && r.sub = sub && r.line = w.line && !c.ready r
  match l.find? blocks with
  | some w => some w
  | none => match l.find? fun (r : DramReq) => r.lookup with
    | some r => some r
    | none =>
      let reads := l.filter fun (r : DramReq) => !r.write
      let writes := l.filter fun (r : DramReq) => r.write
      if c.draining.contains sub || reads.isEmpty then c.firstReady cap writes else c.firstReady cap reads

/-- A request is issued: its row stays open, but for a lookup's that no other lookup hits; the drain of writes goes on or ends. -/
def DramCtl.issue (c : DramCtl) (wlo : Nat) (r : DramReq) : DramCtl :=
  let n := if c.hit r && c.missWaits (c.queue.takeWhile fun (x : DramReq) => x ≠ r) r then c.hitsOf r + 1 else 0
  let q := c.queue.erase r
  let keep : Bool := !r.lookup || q.any fun (x : DramReq) => x.lookup && x.key = r.key && x.row = r.row
  let rows := c.rows.filter (fun (e : Nat × Nat) => e.1 ≠ r.key) ++ (if keep then [(r.key, r.row)] else [])
  let c := { c with queue := q, rows := rows, hits := c.hits.filter (fun (e : Nat × Nat) => e.1 ≠ r.key) ++ [(r.key, n)] }
  if r.write && c.writes r.sub ≤ wlo then { c with draining := c.draining.filter fun k => k ≠ r.sub } else c

/-- A drain begins at the high mark, or when no read waits. -/
def DramCtl.drain (c : DramCtl) (whi wlo sub : Nat) : DramCtl :=
  let noRead := !c.queue.any fun (r : DramReq) => !r.write && r.sub = sub
  if !c.draining.contains sub && (decide (whi ≤ c.writes sub) || (noRead && decide (wlo < c.writes sub))) then { c with draining := c.draining ++ [sub] } else c

/-- The controller issues up to `n` requests of a sub-channel. -/
def DramCtl.run (cap whi wlo sub : Nat) : Nat → DramCtl → DramCtl
  | 0, c => c
  | n + 1, c =>
    let c := c.drain whi wlo sub
    match c.next cap sub with
    | some r => DramCtl.run cap whi wlo sub n (c.issue wlo r)
    | none => c

def State.runDram (s : State) (ch sub n : Nat) : State :=
  s.modDctl ch (DramCtl.run (max 1 (s.rd (Fd.DMC_C_SCHED_HITCAP ch))) (s.whi ch) (s.wlo ch) sub n)

/-- Issue requests of a sub-channel until its write queue has room: it holds 64 lines (R442). -/
def State.makeRoom (ch sub : Nat) : Nat → State → State
  | 0, s => s
  | n + 1, s => if 64 ≤ (s.dctl ch).writes sub then State.makeRoom ch sub n (s.runDram ch sub 1) else s

/-- A request joins the queue: hazards are counted; a write to a line with a queued write replaces it, but where a queued read of the line
waits for the older write: it then waits until that read has been issued (R445, R446). -/
def State.enqueue (s : State) (ch : Nat) (r : DramReq) (partly : Bool) : State :=
  let s := if r.write then State.makeRoom ch r.sub (s.dctl ch).queue.length s else s
  let same (x : DramReq) : Bool := x.write && x.sub = r.sub && x.line = r.line
  let s := if !r.write && (s.dctl ch).queue.any same then s.bump (Fd.DMC_C_HAZ_RAW ch) 1 else s
  let s := if r.write && partly then s.bump (Fd.DMC_C_HAZ_RMW ch) 1 else s
  let read := (s.dctl ch).queue.any fun (x : DramReq) => !x.write && x.sub = r.sub && x.line = r.line
  if r.write && !read && (s.dctl ch).queue.any same then s else s.modDctl ch fun (c : DramCtl) => { c with queue := c.queue ++ [r] }

/-- Leave power-down: the sub-channel that gets a request (R447). -/
def State.powerUp (s : State) (ch sub : Nat) : State :=
  let s := s.modDctl ch fun (c : DramCtl) => { c with down := c.down.filter (fun k => k ≠ sub), lastReq := setNth c.lastReq sub s.now }
  if s.rd (Fd.DMC_C_STATE_STATE ch) = 3 then s.wr (Fd.DMC_C_STATE_STATE ch) 2 else s

/-- The gecko unwinds an entry that a request met (R404, R449). -/
def State.unwindEntry (s : State) : State :=
  if s.asleep || s.boot.perstLow then s else (s.bump Fd.GK_PSTATE_UNWOUND 1).wr Fd.GK_PSTATE_REQ_STATE 0 |>.wr Fd.GK_PSTATE_CUR 0

/-- DRAM_REQUEST: a request arrives, and the controller has `slots` issue slots. Before the commit point of self-refresh it
cancels the entry; after it, it waits for the exit. -/
def execDramRequest (r : DramArgs) (ecc : EccSeen) (slots t : Nat) (s : State) : Result :=
  let ch := chOf r.addr
  let sub := subOf r.addr
  let line := lineOf r.addr
  inRange ch 4 (
    let s := s.at t
    let q : DramReq := ⟨sub, line, r.group, r.bank, r.row, r.write, portLooksUp r.port, s.now⟩
    match s.rd (Fd.DMC_C_STATE_STATE ch) with
    | 0 | 1 | 7 => .next s
    | 5 | 6 => .next ((s.modDctl ch fun (c : DramCtl) => { c with parked := c.parked ++ [q] }).unwindEntry)
    | st =>
      let s := if st = 4 then ((s.bump (Fd.DMC_C_STATE_CANCELS ch) 1).wr (Fd.DMC_C_STATE_STATE ch) 2).unwindEntry else s
      let s := ((s.powerUp ch sub).enqueue ch q r.partly).runDram ch sub slots
      .next (if r.write && !r.partly then s else s.ecc ch line ecc))

/-- STREAM_STARVE_TIMEOUT: a stream request that has waited longer than STARVE is served as a lookup. -/
def execStreamStarveTimeout (ch t : Nat) (s : State) : Result :=
  inRange ch 4 (
    let s := s.at t
    let w := 10 * max 1 (s.rd (Fd.DMC_C_SCHED_STARVE ch))
    .next (s.modDctl ch fun (c : DramCtl) => { c with queue := c.queue.map fun (r : DramReq) => if r.since + w < s.now then { r with lookup := true } else r }))

/-! ## Refresh and drift (R438-R440) -/

/-- REFRESH_DUE: the refresh of a bank index falls due. With no request queued for it, all it owes is done; else it is postponed, and
after 4 tREFI forced. -/
def execRefreshDue (ch sub bank : Nat) (s : State) : Result :=
  inRange ch 4 (inRange sub 2 (
    let st := s.rd (Fd.DMC_C_STATE_STATE ch)
    if !(st = 2 || st = 3 || st = 4) then .next s
    else
      let key := sub * 256 + bank
      let c := s.dctl ch
      let owed := ((c.postponed.find? fun (e : Nat × Nat) => e.1 = key).map (·.2)).getD 0
      let rest := c.postponed.filter fun (e : Nat × Nat) => e.1 ≠ key
      let close (c : DramCtl) : DramCtl := { c with rows := c.rows.filter fun (e : Nat × Nat) => !(e.1 / 65536 = sub && e.1 % 256 = bank) }
      if !c.queue.any (fun (r : DramReq) => r.sub = sub && r.bank = bank) then .next (s.modDctl ch fun _ => close { c with postponed := rest })
      else if owed < 4 then
        .next ((s.modDctl ch fun _ => { c with postponed := rest ++ [(key, owed + 1)] }).wr (Fd.DMC_C_REFRESH_MAXPOST ch) (max (owed + 1) (s.rd (Fd.DMC_C_REFRESH_MAXPOST ch))))
      else .next ((s.modDctl ch fun _ => close { c with postponed := rest }).bump (Fd.DMC_C_REFRESH_FORCED ch) 1)))

/-- MR4_READ: every 16 ms; `fast`: a device of the sub-channel asks for a higher rate. -/
def execMr4Read (ch sub : Nat) (fast : Bool) (s : State) : Result :=
  inRange ch 4 (inRange sub 2 (
    if s.rd (Fd.DMC_C_STATE_STATE ch) = 0 || 4 < s.rd (Fd.DMC_C_STATE_STATE ch) then .next s
    else
      let s := s.modDctl ch fun (c : DramCtl) => { c with fast := c.fast.filter (fun k => k ≠ sub) ++ (if fast then [sub] else []) }
      .next (s.setFlag (Fd.DMC_C_REFRESH_RATE2X ch) (!(s.dctl ch).fast.isEmpty))))

/-- DQS_OSCILLATOR_READ: every 64 ms the write delays move by the measured drift; a lane that has drifted by more than 4 steps
since its training is due for retraining. -/
def execDqsOscillatorRead (ch : Nat) (drifts : List Int) (s : State) : Result :=
  inRange ch 4 (
    if s.rd (Fd.DMC_C_STATE_STATE ch) = 0 || 3 < s.rd (Fd.DMC_C_STATE_STATE ch) then .next s
    else .next ((List.range 10).foldl (fun (s : State) l =>
      let d := nth drifts l 0
      let all := nth (s.dctl ch).drift l 0 + d
      let s := s.wr (Fd.DMC_C_LANE_WDLY ch l) (((s.rd (Fd.DMC_C_LANE_WDLY ch l) : Int) + d) % 256).toNat
      s.modDctl ch fun (c : DramCtl) => { c with
        drift := setNth c.drift l all
        lanes := if 4 < all.natAbs && !c.lanes.contains l then c.lanes ++ [l] else c.lanes }) s))

/-- LANE_RETRAIN_SLICE: 2 µs of steps 4 and 5 of a drifted lane; a refresh at its deadline goes first. `done`: the last slice, with the
values found. -/
def execLaneRetrainSlice (ch lane : Nat) (done : Bool) (rdly wdly reye weye : Nat) (s : State) : Result :=
  inRange ch 4 (
    let c := s.dctl ch
    if !c.lanes.contains lane || !done || c.postponed.any (fun (e : Nat × Nat) => 4 ≤ e.2) then .next s
    else
      let s := s.modDctl ch fun (c : DramCtl) => { c with lanes := c.lanes.filter (fun k => k ≠ lane), drift := setNth c.drift lane 0 }
      let s := (s.wr (Fd.DMC_C_LANE_RDLY ch lane) (min 255 rdly)).wr (Fd.DMC_C_LANE_WDLY ch lane) (min 255 wdly)
      .next ((s.wr (Fd.DMC_C_LANE_REYE ch lane) (min 255 reye)).wr (Fd.DMC_C_LANE_WEYE ch lane) (min 255 weye)))

/-! ## Power-down and self-refresh (R447-R450) -/

/-- DRAM_POWER_DOWN_ENTRY: no request for 200 ns. The controller shows power-down once both sub-channels are in it. -/
def execDramPowerDownEntry (ch sub t : Nat) (s : State) : Result :=
  inRange ch 4 (inRange sub 2 (
    let s := s.at t
    let c := s.dctl ch
    if s.rd (Fd.DMC_C_STATE_STATE ch) ≠ 2 || c.down.contains sub || c.queue.any (fun (r : DramReq) => r.sub = sub) || s.now < nth c.lastReq sub 0 + 200 then .next s
    else
      let s := s.modDctl ch fun (c : DramCtl) => { c with down := c.down ++ [sub] }
      .next (if (s.dctl ch).down.length = 2 then s.wr (Fd.DMC_C_STATE_STATE ch) 3 else s)))

/-- SELF_REFRESH_ENTRY: at the gecko's request or on PERST_N. First no new write is accepted; then (`sre`) the queue is drained, every
bank is precharged and SRE issued: the commit point. -/
def execSelfRefreshEntry (ch : Nat) (sre : Bool) (s : State) : Result :=
  inRange ch 4 (
    let st := s.rd (Fd.DMC_C_STATE_STATE ch)
    let asked : Bool := s.rd Fd.GK_PSTATE_REQ_STATE = 2 || s.rd Fd.GK_PSTATE_REQ_STATE = 3 || s.boot.perstLow
    if !asked || s.flag Fd.TOP_MODE_FLUSH then .next s
    else if !sre then .next (if st = 2 || st = 3 then s.wr (Fd.DMC_C_STATE_STATE ch) 4 else s)
    else if st ≠ 4 then .next s
    else .next ((s.modDctl ch fun (c : DramCtl) => { c with queue := [], rows := [], hits := [], draining := [], down := [] }).wr (Fd.DMC_C_STATE_STATE ch) 5))

/-- SELF_REFRESH_EXIT: a request after the commit point, or a wake: SRX; with the re-arm ended (`armed`) the requests that waited are
served. -/
def execSelfRefreshExit (ch : Nat) (armed : Bool) (t : Nat) (s : State) : Result :=
  inRange ch 4 (
    let s := s.at t
    let st := s.rd (Fd.DMC_C_STATE_STATE ch)
    if !armed then .next (if st = 5 && !(s.dctl ch).parked.isEmpty then s.wr (Fd.DMC_C_STATE_STATE ch) 6 else s)
    else if st ≠ 6 then .next s
    else
      let l := (s.dctl ch).parked
      let s := (s.modDctl ch fun (c : DramCtl) => { c with parked := [], lastReq := [s.now, s.now] }).wr (Fd.DMC_C_STATE_STATE ch) 2
      .next (l.foldl (fun (s : State) (r : DramReq) => (s.enqueue ch r false).runDram ch r.sub 1) s))

/-! ## Patrol scrub (R453) -/

/-- PATROL_SCRUB: one line is read and corrected; `last`: it ends a pass. Period 0 is off. -/
def execPatrolScrub (ch line : Nat) (ecc : EccSeen) (last : Bool) (t : Nat) (s : State) : Result :=
  inRange ch 4 (
    let s := s.at t
    let st := s.rd (Fd.DMC_C_STATE_STATE ch)
    if s.rd Fd.DMC_SCRUB_PERIOD = 0 || !(st = 2 || st = 3) then .next s
    else
      let s := if last then s.count Fd.DMC_SCRUB_PASSES else s
      .next (s.ecc ch line ecc))

end Sys2Proof.Machine
end

