-- ==== Sys2Proof/Machine/Island.lean ====
section
/-! DEFINITION. The security island behind its registers: hash engines, the key engine, key slots, the TRNG's words, and alarms
(R350, R354-R360, R373). -/

namespace Sys2Proof.Machine

open Sys2Proof

/-! ## Hash engines (R357-R359) -/

def heDefault (_ : Nat) : HashEngine := ⟨[], []⟩
def State.he (s : State) (n : Nat) : HashEngine := tblGet heDefault s.sec.engines n
def State.setHe (s : State) (n : Nat) (e : HashEngine) : State :=
  { s with sec := { s.sec with engines := tblSet heDefault s.sec.engines n e } }

/-- The engine belongs to a requester. -/
def State.heOwns (s : State) (n r : Nat) : Bool := s.flag (Fd.SEC_HE_CTL_OWNED n) && s.rd (Fd.SEC_HE_CTL_OWNER n) = r
def State.heBusy (s : State) (n : Nat) : Bool := s.flag (Fd.SEC_HE_STATUS_BUSY n)
def State.heReady (s : State) (n : Nat) : Bool := s.flag (Fd.SEC_HE_STATUS_DONE n)

/-- Engine state and ownership go, a session on it with them (R358). -/
def State.heClear (s : State) (n : Nat) : State :=
  let s := ((s.wr (Fd.SEC_HE_CTL_OWNER n) 0).wr (Fd.SEC_HE_CTL_OWNED n) 0).wr (Fd.SEC_HE_CTL_OUTLEN n) 0
  let s := ((s.wr (Fd.SEC_HE_CTL_ALG n) 0).wr (Fd.SEC_HE_STATUS_BUSY n) 0).wr (Fd.SEC_HE_STATUS_DONE n) 0
  { s.setHe n (heDefault n) with sec := { (s.setHe n (heDefault n)).sec with sessions := s.sec.sessions.filter fun (e : Nat × Nat × Nat) => e.2.1 ≠ n } }

/-- Cleared by an alarm or a bus error (R359). -/
def State.heKill (s : State) (n : Nat) : State := (s.heClear n).wr (Fd.SEC_HE_STATUS_CLEARED n) 1

/-- The engine goes to an owner, with its algorithm and output length. -/
def State.heTake (s : State) (n r alg outlen : Nat) : State :=
  let s := ((s.heClear n).wr (Fd.SEC_HE_CTL_OWNER n) r).wr (Fd.SEC_HE_CTL_OWNED n) 1
  (s.wr (Fd.SEC_HE_CTL_ALG n) alg).wr (Fd.SEC_HE_CTL_OUTLEN n) outlen

/-- Bytes of the digest, by algorithm and OUTLEN: codes 10 and 11 act as 00. -/
def heOut (alg outlen : Nat) : Nat := if alg = 2 || (alg = 3 && outlen = 1) then 64 else 32

/-- ALG 0 SHA-256, 1 SHA3-256, 2 SHA-512, 3 SHAKE256. -/
def heHash (alg outlen : Nat) (msg : Bytes) : Bytes :=
  if alg = 0 then sha256 msg else if alg = 1 then sha3of256 msg else if alg = 2 then sha512 msg
  else shake256 (heOut alg outlen) msg

/-- The digest of an engine's message. -/
def State.heDigest (s : State) (n : Nat) : Bytes := heHash (s.rd (Fd.SEC_HE_CTL_ALG n)) (s.rd (Fd.SEC_HE_CTL_OUTLEN n)) (s.he n).msg

/-- A write dropped because its requester is no owner. -/
def State.heIntrude (s : State) (n : Nat) : State := s.wr (Fd.SEC_HE_STATUS_INTRUDE n) 1

/-- FINAL: TAILB bytes of the last word are valid, 0 meaning all four. -/
def State.heFinal (s : State) (n tailb : Nat) : State :=
  if s.heBusy n || s.heReady n then s
  else
    let m := (s.he n).msg
    let cut := if tailb = 0 then m else m.take (m.length + tailb - 4)
    (s.setHe n ⟨cut, []⟩).wr (Fd.SEC_HE_STATUS_BUSY n) 1

/-- A write of SEC_HE[n]_CTL: CLAIM, FINAL and RELEASE in this order. -/
def State.heCtl (s : State) (r n v : Nat) : State :=
  let s := if !s.flag (Fd.SEC_HE_CTL_OWNED n) && v.testBit 1 then s.heTake n r (getBits v 9 8) (getBits v 11 10) else s
  if !s.heOwns n r then s.heIntrude n
  else
    let s := if v.testBit 2 then s.heFinal n (getBits v 5 4) else s
    if v.testBit 3 then s.heClear n else s

/-- A message word. After FINAL the message takes no more. -/
def State.heData (s : State) (r n v : Nat) : State :=
  if !s.heOwns n r then s.heIntrude n
  else if s.heBusy n || s.heReady n then s
  else s.setHe n { s.he n with msg := (s.he n).msg ++ leBytes 4 v }

/-- A word of the digest as a requester sees it: 0 for a non-owner. -/
def State.heWord (s : State) (r n k : Nat) : Nat := if s.heOwns n r then field (s.he n).digest (4 * k) 4 else 0

/-- Index of the last digest word. -/
def State.heLast (s : State) (n : Nat) : Nat := heOut (s.rd (Fd.SEC_HE_CTL_ALG n)) (s.rd (Fd.SEC_HE_CTL_OUTLEN n)) / 4 - 1

/-- A read of SEC_HE[n]_DIGEST[k]: the owner's read of the last word of a digest that is ready releases the engine. -/
def State.heRead (s : State) (r n k : Nat) : Nat × State :=
  (s.heWord r n k, if s.heOwns n r && s.heReady n && k = s.heLast n then s.heClear n else s)

def onHe (n : Nat) (k : Result) : Result := inRange n 8 k

/-- SEC_HE_CLAIM. -/
def execSecHeClaim (requester n alg outlen : Nat) (s : State) : Result :=
  let v := 2 + (alg % 4) * 256 + (outlen % 4) * 1024
  onHe n (winWrite requester (Reg.SEC_HE_CTL n) v s fun s => s.heCtl requester n v)

/-- SEC_HE_DATA_WRITE. -/
def execSecHeDataWrite (requester n value : Nat) (s : State) : Result :=
  onHe n (winWrite requester (Reg.SEC_HE_DATA n) value s fun s => s.heData requester n value)

/-- SEC_HE_FINAL. -/
def execSecHeFinal (requester n tailb : Nat) (s : State) : Result :=
  let v := 4 + (tailb % 4) * 16
  onHe n (winWrite requester (Reg.SEC_HE_CTL n) v s fun s => s.heCtl requester n v)

/-- SEC_HE_RELEASE. -/
def execSecHeRelease (requester n : Nat) (s : State) : Result :=
  onHe n (winWrite requester (Reg.SEC_HE_CTL n) 8 s fun s => s.heCtl requester n 8)

/-- HASH_ENGINE_DONE: the digest is ready. -/
def execHashEngineDone (n : Nat) (s : State) : Result :=
  onHe n (
    if !s.heBusy n then .next s
    else .next (((s.setHe n ⟨(s.he n).msg, s.heDigest n⟩).wr (Fd.SEC_HE_STATUS_BUSY n) 0).wr (Fd.SEC_HE_STATUS_DONE n) 1))

/-- SEC_HE_DIGEST_LAST_READ: word 7 of a 32 B output, word 15 of 64 B. -/
def execSecHeDigestLastRead (requester n : Nat) (s : State) : Result :=
  onHe n (winRead requester (Reg.SEC_HE_DIGEST n (s.heLast n)) s fun s => s.heRead requester n (s.heLast n))

/-! ## The key engine (R354-R356) -/

def State.keOwns (s : State) (r : Nat) : Bool := s.flag Fd.SEC_KE_CTL_OWNED && s.rd Fd.SEC_KE_CTL_OWNER = r

/-- TAG reads 0 unless a CMAC is done. -/
def State.keNoTag (s : State) : State := (List.range 4).foldl (fun (s : State) k => s.wr (Fd.SEC_KE_TAG_TAG k) 0) s

/-- The operation goes, the owner stays. -/
def State.keDrop (s : State) : State :=
  let s := ({ s with sec := { s.sec with ke := none } }).wr Fd.SEC_KE_STATUS_BUSY 0
  (s.wr Fd.SEC_KE_STATUS_DONE 0).keNoTag

/-- An operation ends with an error: 1 LENGTH, 2 INTEGRITY, 3 SLOTKIND, 4 WEAK, 5 an alarm. -/
def State.keFail (s : State) (code : Nat) : State := s.keDrop.wr Fd.SEC_KE_STATUS_ERR code

/-- Ownership ends. -/
def State.keRelease (s : State) : State :=
  let s := (s.keDrop.wr Fd.SEC_KE_STATUS_ERR 0).wr Fd.SEC_KE_CTL_OP 0
  (s.wr Fd.SEC_KE_CTL_OWNER 0).wr Fd.SEC_KE_CTL_OWNED 0

/-- LEN at START: at most 1 MiB for a CMAC; for an unwrap 16 to 512 in steps of 8. -/
def keLenBad (op len : Nat) : Bool := if op = 0 then decide (0x100000 < len) else decide (len < 16 || 512 < len || len % 8 ≠ 0)

/-- START (R355): LENGTH is checked before SLOTKIND. -/
def State.keStart (s : State) (op : Nat) : State :=
  let s := s.keDrop.wr Fd.SEC_KE_STATUS_ERR 0
  let len := s.rd Fd.SEC_KE_LEN_LEN
  if op = 3 then s.keFail 3
  else if keLenBad op len then s.keFail 1
  else match s.aesKey (s.rd Fd.SEC_KE_SLOTS_KEY) with
    | none => s.keFail 3
    | some k => ({ s with sec := { s.sec with ke := some ⟨op, len, k, s.rd Fd.SEC_KE_SLOTS_DEST, []⟩ } }).wr Fd.SEC_KE_STATUS_BUSY 1

/-- A write of SEC_KE_CTL: claimed, used and released like a hash engine. START does nothing while an operation runs. -/
def State.keCtl (s : State) (r v : Nat) : State :=
  let s := if !s.flag Fd.SEC_KE_CTL_OWNED && v.testBit 1 then ((s.keRelease).wr Fd.SEC_KE_CTL_OWNER r).wr Fd.SEC_KE_CTL_OWNED 1 else s
  if !s.keOwns r then s
  else
    let op := getBits v 7 6
    let s := s.wr Fd.SEC_KE_CTL_OP op
    let s := if v.testBit 3 then s.keDrop else s
    let s := if v.testBit 2 && !s.flag Fd.SEC_KE_STATUS_BUSY then s.keStart op else s
    if v.testBit 4 then s.keRelease else s

/-- An input word: one beyond LEN ends the operation; the high bytes of a partial last word are ignored. -/
def State.keData (s : State) (r v : Nat) : State :=
  match s.keOwns r, s.sec.ke with
  | true, some e =>
    if e.len ≤ e.data.length then s.keFail 1
    else { s with sec := { s.sec with ke := some { e with data := (e.data ++ leBytes 4 v).take e.len } } }
  | _, _ => s

/-- The operation is finished without error. -/
def State.keDone (s : State) : State :=
  ({ s with sec := { s.sec with ke := none } }.wr Fd.SEC_KE_STATUS_BUSY 0).wr Fd.SEC_KE_STATUS_DONE 1

/-- The end of a whole input: the tag, or the key in its slot in one step, with the owner and source the firmware has named. -/
def State.keEnd (s : State) (e : KeyRun) (owner source : Nat) : State :=
  if e.op = 0 then
    let tag := cmac e.key e.data
    (List.range 4).foldl (fun (s : State) k => s.wr (Fd.SEC_KE_TAG_TAG k) (field tag (4 * k) 4)) s.keDone
  else
    let need := if e.op = 1 then 64 else 32
    match kwpUnwrap e.key e.data with
    | none => s.keFail 2
    | some p =>
      let k := p.take need
      if p.length < need then s.keFail 1
      else if e.op = 1 && k.take 32 = k.drop 32 then s.keFail 4
      else (s.setSlot e.dest ⟨e.op, owner, source, k⟩).keDone

/-- SEC_KE_CLAIM. -/
def execSecKeClaim (requester : Nat) (s : State) : Result :=
  winWrite requester Reg.SEC_KE_CTL 2 s fun s => s.keCtl requester 2

/-- A START of an operation code. -/
def keStartCmd (r op : Nat) (s : State) : Result :=
  winWrite r Reg.SEC_KE_CTL (4 + 64 * op) s fun s => s.keCtl r (4 + 64 * op)

def execKeStartCmac (requester : Nat) (s : State) : Result := keStartCmd requester 0 s
def execKeStartUnwrapXts (requester : Nat) (s : State) : Result := keStartCmd requester 1 s
def execKeStartUnwrapAes (requester : Nat) (s : State) : Result := keStartCmd requester 2 s

/-- SEC_KE_DATA_WRITE. -/
def execSecKeDataWrite (requester value : Nat) (s : State) : Result :=
  winWrite requester Reg.SEC_KE_DATA value s fun s => s.keData requester value

/-- KE_OPERATION_COMPLETE: once the whole input is there. -/
def execKeOperationComplete (owner source : Nat) (s : State) : Result :=
  match s.sec.ke with
  | none => .next s
  | some e => if e.data.length < e.len then .next s else .next (s.keEnd e owner source)

/-- SEC_KE_ABORT: OP keeps its value. -/
def execSecKeAbort (requester : Nat) (s : State) : Result :=
  let v := 8 + 64 * s.rd Fd.SEC_KE_CTL_OP
  winWrite requester Reg.SEC_KE_CTL v s fun s => s.keCtl requester v

/-- SEC_KE_RELEASE. -/
def execSecKeRelease (requester : Nat) (s : State) : Result :=
  winWrite requester Reg.SEC_KE_CTL 16 s fun s => s.keCtl requester 16

/-! ## Key slots and the TRNG (R360, R373) -/

/-- Fill a slot from the TRNG as a device-owned AES-256 key. -/
def State.fillSlot (s : State) (k : Nat) : State :=
  let r := s.draw 32
  r.2.setAes k srcGenerated r.1

/-- A write of SEC_KS_CMD acts on the slot SEC_KS_SEL selects: 001 zero, 010 fill, which waits while the TRNG is failing. -/
def State.ksCmd (s : State) (op : Nat) : State :=
  let k := s.rd Fd.SEC_KS_SEL_SLOT
  if op = 1 then s.zeroSlot k
  else if op = 2 then
    (if s.trngOk then s.fillSlot k else { s with sec := { s.sec with trngWaits := s.sec.trngWaits ++ [.fill k] } })
  else s

def execSecKsZero (requester : Nat) (s : State) : Result := winWrite requester Reg.SEC_KS_CMD 1 s fun s => s.ksCmd 1
def execSecKsFill (requester : Nat) (s : State) : Result := winWrite requester Reg.SEC_KS_CMD 2 s fun s => s.ksCmd 2

/-- A read of SEC_TRNG_DATA: a fresh word, or 0 while OK or AVAIL is 0. -/
def State.trngRead (s : State) : Nat × State :=
  if s.trngOk && s.flag Fd.SEC_TRNG_STAT_AVAIL then
    let r := s.draw 4
    (leNat r.1, r.2)
  else (0, s)

def execSecTrngDataRead (requester : Nat) (s : State) : Result := winRead requester Reg.SEC_TRNG_DATA s State.trngRead

/-! ## Alarms (R359, R360) -/

/-- Every engine is cleared, every slot zeroed, and the firmware reloads what it can; media slots wait for their reload. -/
def State.islandLost (s : State) : State :=
  let s := (List.range 8).foldl (fun (s : State) n => s.heKill n) s
  let s := (s.keRelease).wr Fd.SEC_KE_STATUS_ERR 5
  let s := { s with
    sec := { s.sec with slots := [] }
    nss := s.nss.map fun (n : Ns) => { n with slotReady := false } }
  s.reloadDevice

/-- SECURITY_ALARM: 0 GLITCH, 1 TEMP, 2 OTPECC, 3 TRNG, 4 BUS with the engine it struck, 8 the key engine. From SLEEP down the island's
clock is off, and without power there is none. In service an uncorrectable OTP word fails its user's operation, whatever that is; one
met by a start is found by its stage 1. -/
def execSecurityAlarm (kind engine : Nat) (s : State) : Result :=
  inRange kind 5 (
    if !s.pwr.on || s.asleep then .next s
    else match kind with
      | 0 => .next (s.alarm Fd.SEC_ALARM_GLITCH).islandLost
      | 1 => .next (s.alarm Fd.SEC_ALARM_TEMP).islandLost
      | 2 => .next (s.alarm Fd.SEC_ALARM_OTPECC)
      | 3 =>
        let s := (s.alarm Fd.SEC_ALARM_TRNG).bump Fd.SEC_TRNG_STAT_FAILS 1
        .next ((s.wr Fd.SEC_TRNG_STAT_OK 0).wr Fd.SEC_TRNG_STAT_AVAIL 0)
      | _ => inRange engine 9 (
        let s := s.alarm Fd.SEC_ALARM_BUS
        .next (if engine = 8 then (s.keRelease).wr Fd.SEC_KE_STATUS_ERR 5 else s.heKill engine)))

end Sys2Proof.Machine
end

