-- ==== Sys2Proof/Machine/Protocol.lean ====
section
/-! DEFINITION. Security Send and Receive: the operations of security protocol 0xF4, the list of protocols, and Key Per I/O (R341, R342,
R345, R352, R353, R361-R366, R368, R369). -/

namespace Sys2Proof.Machine

open Sys2Proof

/-! ## The checks of R362 -/

/-- SPSP and length, PF0 only, lifecycle; then the operation's own. -/
def secOp (src : Src) (lenOk pf0 : Bool) (lives : List Nat) (k : State → State) (s : State) : State :=
  if !lenOk then s.err src .invalidField
  else if pf0 && src.fn ≠ 0 then s.err src .accessDenied
  else if !lives.contains s.lifecycle then s.err src .commandSequence
  else k s

def inField : List Nat := [lFIELD, lRMA]
def notBlank : List Nat := [lPROVISION, lFIELD, lRMA, lSCRAPPED]
def beforeRma : List Nat := [lPROVISION, lFIELD]

/-- Device UID (R343). -/
def State.uid (s : State) : Bytes := s.otpRead 0x20 16

/-- SECURITY_PROTOCOL_LIST: protocols 0x00, 0x01, 0x02 and 0xF4 (R361), behind a head of six reserved bytes and the list's length
(PRESUMED, assumption 113). -/
def execSecurityProtocolList (src : Src) (s : State) : Result :=
  host s src .security fun s => s.done src .success 0 0 (.bytes (zeros 6 ++ leBytes 2 4 ++ [0x00, 0x01, 0x02, 0xF4]))

/-! ## Identity (R362) -/

/-- The statement of a generation; zeros where there is none. -/
def State.statement (s : State) (g : Nat) : Bytes :=
  let b := s.flashRead (aIdent g) 3076
  if b.take 4 = [0x4C, 0x59, 0x49, 0x44] then b else zeros 3076

def State.identity (s : State) : Bytes :=
  let mask (i : Nat) : Nat := bitsOf ((List.range 4).map fun g => (s.identByte g).testBit i)
  [byte (s.identGen.getD 0), byte (mask 0), byte (mask 1)] ++ zeros 13 ++ (List.range 4).flatMap s.statement

def execIdentity (src : Src) (len : Nat) (s : State) : Result :=
  host s src .security (secOp src (len = 12320) false inField fun s => s.done src .success 0 0 (.bytes s.identity))

/-! ## Attestation (R363, R364) -/

def State.setAttests (s : State) (l : List Attest) : State := { s with sec := { s.sec with attests := l } }
def State.attest (s : State) (f : Nat) : Option Attest := s.sec.attests.find? fun (a : Attest) => a.fn = f
def State.signing (s : State) : Bool := s.sec.attests.any fun (a : Attest) => a.st = 1

/-- SHAKE256 of a stored image, header and signature included. -/
def State.imageDigest (s : State) (base : Nat) : Bytes :=
  let n := field (s.flashRead base imgHeader) 24 4
  shake256 32 (s.flashRead base (imgHeader + n + imgSignature))

/-- Bytes 0 to 255 of a report. -/
def State.reportBody (s : State) (a : Attest) (index : Nat) : Bytes :=
  let run := s.runningSlot
  let b := [0x4C, 0x59, 0x41, 0x54] ++ leBytes 2 1 ++ leBytes 2 10152 ++
    [byte (s.identGen.getD 0), byte s.lifecycle, byte s.mode, byte (s.rd Fd.TOP_PROFILE_ACTIVE)] ++ leBytes 8 index ++ a.nonce ++
    leBytes 2 a.fn ++ zeros 2 ++ leBytes 8 s.counter ++ s.uid ++ s.serial ++
    [byte s.secFloor, byte (s.rd Fd.SEC_FWKEY_GEN), byte (bitsOf ((List.range 4).map s.revoked)), byte (s.settingsGen.getD 0)] ++
    s.imageDigest (s.slotBase run) ++ (if s.slotRec.state (1 - run) = sEMPTY then zeros 32 else s.imageDigest (s.slotBase (1 - run))) ++
    (match s.peuthInUse with | some k => s.imageDigest (peuthBase k) | none => zeros 32) ++ [byte run]
  b ++ zeros (256 - b.length)

/-- A whole report: its body, the signature, padding. -/
def State.report (s : State) (a : Attest) (index : Nat) : Bytes :=
  let b := s.reportBody a index
  let seeds := s.otpRead (0xC00 + 256 * s.identGen.getD 0) 64
  b ++ (Config.xmssSign seeds index b ++ zeros 9893).take 9893 ++ zeros 3

/-- Every request that waits is refused, and its held Receives with it (R369). -/
def State.refuseWaiting (s : State) : State :=
  let l := s.sec.attests.filter fun (a : Attest) => a.st = 0
  let s := s.setAttests (s.sec.attests.filter fun (a : Attest) => a.st ≠ 0)
  l.foldl (fun (s : State) (a : Attest) => a.held.foldl (fun (s : State) (x : Src) => s.err x .indexExhausted) s) s

/-- The oldest request that waits is signed next, under a valid reservation. -/
def State.signNext (s : State) (ok : Bool) : State :=
  if s.signing then s
  else match s.sec.attests.find? fun (a : Attest) => a.st = 0 with
    | none => s
    | some a =>
      let s := s.ensureRsv ok
      if !s.flag Fd.SEC_IDENT_READY then s.refuseWaiting
      else s.setAttests (s.sec.attests.map fun (b : Attest) => if b.fn = a.fn then { b with st := 1 } else b)

/-- Record the nonce: a request not begun takes the new one and keeps its turn. -/
def State.addAttest (s : State) (f : Nat) (nonce : Bytes) : State :=
  match s.attest f with
  | some _ => s.setAttests (s.sec.attests.map fun (a : Attest) => if a.fn = f then { a with nonce := nonce } else a)
  | none => s.setAttests (s.sec.attests ++ [⟨f, nonce, 0, 0, 0, [], []⟩])

/-- ATTEST_REQUEST; `rsvOk`: the boot flash takes a reservation record, where one is written. -/
def attestRequest (src : Src) (data : Bytes) (rsvOk : Bool) (s : State) : State :=
  if (data.drop 32).any (· ≠ 0) then s.err src .invalidField
  else if (s.attest src.fn).any fun (a : Attest) => a.st ≠ 0 then s.err src .commandSequence
  else
    let s := if s.signing then s else s.ensureRsv rsvOk
    if !s.signing && !s.flag Fd.SEC_IDENT_READY then s.refuseWaiting.err src .indexExhausted
    else ((s.addAttest src.fn (data.take 32)).signNext rsvOk).ok src

def execAttestRequest (src : Src) (data : Bytes) (rsvOk : Bool) (s : State) : Result :=
  host s src .security (secOp src (data.length = 64) false inField (attestRequest src data rsvOk))

/-- REPORT_SIGNATURE_COMPLETE: the report is signed under SEC_IDX, and the index is used. Receives held for it complete, which reads
it; the next request's signature begins. -/
def execReportSignatureComplete (rsvOk : Bool) (t : Nat) (s : State) : Result :=
  let s := s.at t
  match s.sec.attests.find? fun (a : Attest) => a.st = 1 with
  | none => .next s
  | some a =>
    let i := s.rd Fd.SEC_IDX_INDEX
    let r := s.report a i
    let others := s.sec.attests.filter fun (b : Attest) => b.fn ≠ a.fn
    let s := s.setAttests (if a.held.isEmpty then others ++ [{ a with st := 2, index := i, signedAt := s.now, report := r }] else others)
    let s := a.held.foldl (fun (s : State) (x : Src) => s.done x .success 0 0 (.bytes r)) s
    .next ((s.useIndex rsvOk).signNext rsvOk)

/-- ATTEST_REPORT: held until the signature is complete. -/
def attestReport (src : Src) (s : State) : State :=
  match s.attest src.fn with
  | none => s.err src .commandSequence
  | some a =>
    if a.st = 2 then (s.setAttests (s.sec.attests.filter fun (b : Attest) => b.fn ≠ src.fn)).done src .success 0 0 (.bytes a.report)
    else (s.keepTag src).setAttests (s.sec.attests.map fun (b : Attest) => if b.fn = src.fn then { b with held := b.held ++ [src] } else b)

def execAttestReport (src : Src) (len : Nat) (s : State) : Result :=
  host s src .security (secOp src (len = 10152) false inField (attestReport src))

/-- ATTEST_REPORT_DISCARD: not read within 10 s of its signature. -/
def execAttestReportDiscard (fn t : Nat) (s : State) : Result :=
  onFn fn (
    let s := s.at t
    .next (s.setAttests (s.sec.attests.filter fun (a : Attest) => !(a.fn = fn && a.st = 2 && decide (a.signedAt + 10000000000 ≤ s.now)))))

/-! ## Hash sessions (R365) -/

/-- Owner ID of a function's session. -/
def sessOwner (f : Nat) : Nat := 0x400 + f

/-- The engine of a function's session. -/
def State.sessionOf (s : State) (f : Nat) : Option Nat := (s.sec.sessions.find? fun (e : Nat × Nat × Nat) => e.1 = f).map fun (e : Nat × Nat × Nat) => e.2.1

/-- The session's time limit runs from its latest feed. -/
def State.feedAt (s : State) (f n : Nat) : State :=
  { s with sec := { s.sec with sessions := (s.sec.sessions.filter fun (e : Nat × Nat × Nat) => e.1 ≠ f) ++ [(f, n, s.now)] } }

/-- A free engine for 0xFF: the lowest of 4 to 7. -/
def State.freeHe (s : State) : Option Nat := [4, 5, 6, 7].find? fun n => !s.flag (Fd.SEC_HE_CTL_OWNED n)

/-- HASH_OPEN: engine, ALG, OUTLEN, 0. A function holds one session. -/
def hashOpen (src : Src) (data : Bytes) (s : State) : State :=
  let e := field data 0 1
  if field data 3 1 ≠ 0 || 3 < field data 1 1 || 3 < field data 2 1 || !(e = 0xFF || (decide (4 ≤ e) && decide (e ≤ 7))) then s.err src .invalidField
  else if (s.sessionOf src.fn).isSome then s.err src .commandSequence
  else match (if e = 0xFF then s.freeHe else if s.flag (Fd.SEC_HE_CTL_OWNED e) then none else some e) with
    | none => s.err src .engineOwned
    | some n => ((s.heTake n (sessOwner src.fn) (field data 1 1) (field data 2 1)).feedAt src.fn n).ok src

def execHashOpen (src : Src) (data : Bytes) (t : Nat) (s : State) : Result :=
  host s src .security (secOp src (data.length = 4) false notBlank fun s => hashOpen src data (s.at t))

/-- An operation of a function's session. -/
def onSession (src : Src) (k : Nat → State → State) (s : State) : State :=
  match s.sessionOf src.fn with
  | none => s.err src .commandSequence
  | some n => k n s

/-- HASH_FEED: 1 B to 1 MiB. -/
def execHashFeed (src : Src) (data : Bytes) (t : Nat) (s : State) : Result :=
  host s src .security (secOp src (decide (1 ≤ data.length) && decide (data.length ≤ 2 ^ 20)) false notBlank fun s =>
    onSession src (fun n s => ((s.setHe n { s.he n with msg := (s.he n).msg ++ data }).feedAt src.fn n).ok src) (s.at t))

/-- HASH_FINISH: the digest, padded to 64 B; the session ends. -/
def execHashFinish (src : Src) (len : Nat) (s : State) : Result :=
  host s src .security (secOp src (len = 64) false notBlank (onSession src fun n s =>
    let d := s.heDigest n
    (s.heClear n).done src .success 0 0 (.bytes (d ++ zeros (64 - d.length)))))

/-- HASH_RELEASE: no data. -/
def execHashRelease (src : Src) (len : Nat) (s : State) : Result :=
  host s src .security (secOp src (len = 0) false notBlank (onSession src fun n s => (s.heClear n).ok src))

/-- A function's session ends, with its reset or its time limit. -/
def State.endSession (s : State) (f : Nat) : State :=
  match s.sessionOf f with
  | some n => s.heClear n
  | none => s

/-- HASH_SESSION_TIMEOUT: 10 s without a feed. -/
def execHashSessionTimeout (fn t : Nat) (s : State) : Result :=
  onFn fn (
    let s := s.at t
    .next (if s.sec.sessions.any fun (e : Nat × Nat × Nat) => e.1 = fn && decide (e.2.2 + 10000000000 ≤ s.now) then s.endSession fn else s))

/-! ## Lifecycle (R340-R342, R366) -/

/-- The challenge's answer: UID, state, a fresh nonce. -/
def challengeNow (src : Src) (s : State) : State :=
  let r := s.draw 16
  let s := { r.2 with sec := { r.2.sec with challenge := some r.1 } }
  s.done src .success 0 0 (.bytes (s.uid ++ [byte s.lifecycle] ++ zeros 15 ++ r.1))

/-- LIFECYCLE_CHALLENGE: its nonce comes from the TRNG. -/
def execLifecycleChallenge (src : Src) (len : Nat) (s : State) : Result :=
  host s src .security (secOp src (len = 48) true notBlank fun s =>
    if s.trngOk then challengeNow src s else s.trngWait src (.challenge src))

/-- The transitions PF0 may ask for, from the state in OTP. -/
def lifeStep (a b : Nat) : Bool :=
  (a = lPROVISION && b = lFIELD) || (a = lFIELD && b = lRMA) || ((a = lPROVISION || a = lFIELD || a = lRMA) && b = lSCRAPPED)

/-- Program a lifecycle flag word; PENDING shows the new state. -/
def State.setLife (s : State) (k : Nat) : State := (s.otpSet (4 * (k - 1)) [0xFF, 0xFF, 0xFF, 0xFF]).refreshOtp

/-- SCRAPPED, at once: the root secret destroyed, every slot zeroed, the buffer discarded. -/
def State.scrap (s : State) : State :=
  let s := (s.setLife lSCRAPPED).otpSet 0x60 (List.replicate 32 0xFF)
  let s := { s with
    sec := { s.sec with slots := [], scrapped := true }
    clutches := s.clutches.map fun (c : Clutch) => if c.place = Place.buffer then { c with place := Place.lost } else c }
  s.wr Fd.SEC_LIFECYCLE_STATE lSCRAPPED

/-- The public key of the current vendor key generation: the running image carries it, and the check of R348 held it against the digest in
OTP (DEDUCED, log entry 110). -/
def State.vendorKey (s : State) : Bytes := s.flashRead (s.slotBase (s.rd Fd.TOP_BOOT_SLOT) + 64) 68

/-- An advance, its nonce already used up. -/
def advanceLife (src : Src) (data : Bytes) (nonce : Option Bytes) (s : State) : State :=
  let k := field data 0 1
  let was := s.otpLifecycle
  let body := data.take 64
  if ((data.drop 1).take 15).any (· ≠ 0) || ((data.drop 48).take 16).any (· ≠ 0) then s.err src .invalidField
  else if (data.drop 16).take 16 ≠ s.uid || nonce ≠ some ((data.drop 32).take 16) then s.err src .invalidField
  else if !lifeStep was k then s.err src .invalidField
  else if k = lRMA && !xmssVerify s.vendorKey body (data.drop 64) then s.err src .invalidField
  else if k = lFIELD && ((s.aesKey slotHostKek).isNone || (s.statement 0).all (· = 0)) then s.err src .commandSequence
  else if k = lRMA && s.boot.sanitize ≠ 0 then s.err src .commandSequence
  else if !s.pins.vqps then s.err src .operationDenied
  else (if k = lSCRAPPED then s.scrap else s.setLife k).ok src

/-- LIFECYCLE_ADVANCE: any advance uses the nonce up. -/
def execLifecycleAdvance (src : Src) (data : Bytes) (s : State) : Result :=
  host s src .security fun s =>
    let nonce := s.sec.challenge
    let s := { s with sec := { s.sec with challenge := none } }
    secOp src (data.length = if field data 0 1 = lRMA then 2884 else 64) true notBlank (advanceLife src data nonce) s

/-- A settings generation image with its state byte and CRC16 filled in (R345). -/
def settingsImage (dflt controls floor : Nat) : Bytes :=
  let b := [1, byte dflt, byte controls, byte floor] ++ zeros 250
  b ++ leBytes 2 (crc16 b)

/-- An identity generation is drawn: seeds, public root and public seed. -/
def State.drawIdentity (s : State) (g : Nat) : State :=
  let r := s.draw 64
  r.2.otpSet (0xC00 + 256 * g) (r.1 ++ (Config.xmssRoot r.1 ++ zeros 64).take 64)

/-- LIFECYCLE_PROVISION: the vendor test over JTAG, in BLANK only; identity, settings generation 0, the root secret and the four
identity generations are programmed. The state follows at the next reset. -/
def execLifecycleProvision (uid serial : Bytes) (media : Nat) (digests : List Bytes) (dflt controls floor : Nat) (s : State) : Result :=
  if !s.pwr.on || s.otpLifecycle ≠ lBLANK || !s.pins.vqps || !s.trngOk then .next s
  else
    let s := ((s.otpSet 0x10 [byte media]).otpSet 0x20 (uid.take 16)).otpSet 0x30 (serial.take 20)
    let s := s.otpSet 0x400 ((digests.take 4).flatMap fun (d : Bytes) => (d ++ zeros 32).take 32)
    let s := s.otpSet 0x800 (settingsImage dflt controls floor)
    let r := s.draw 32
    let s := (List.range 4).foldl (fun (s : State) g => s.drawIdentity g) (r.2.otpSet 0x60 r.1)
    .next ((s.otpSet (0xC00 + 0x80) [1]).setLife lPROVISION)

/-! ## Host KEK and settings (R345, R353) -/

/-- The host KEK is in its slot and, wrapped, in the boot flash; a stored group key is wrapped under it anew. -/
def State.installKek (s : State) (k : Bytes) : State :=
  let r := s.keyRec
  let old := (s.aesKey slotHostKek).bind fun o => unwrapKey o r.blob 32
  let blob := match old with | some g => kwpWrap k g | none => r.blob
  (s.writeKeys { r with kek := kwpWrap (Config.derive 2 s.rootSecret) k, blob := blob } false).setAes slotHostKek srcHostKek k

def hostKek (src : Src) (data : Bytes) (s : State) : State :=
  if s.lifecycle = lPROVISION then (s.installKek data).ok src
  else match s.aesKey slotHostKek with
    | none => s.err src .keySlotEmpty
    | some k => match unwrapKey k data 32 with
      | none => s.err src .invalidField
      | some n => (s.installKek n).ok src

/-- The length R361 lists for a host KEK: 32 B in PROVISION, a wrapped blob in FIELD; in a lifecycle that takes none, either. -/
def State.kekLength (s : State) (n : Nat) : Bool :=
  (n = 32 && s.lifecycle ≠ lFIELD) || (decide (40 ≤ n) && decide (n ≤ 512) && s.lifecycle ≠ lPROVISION)

/-- HOST_KEK: 32 B in clear in PROVISION, wrapped under the current one in FIELD. -/
def execHostKek (src : Src) (data : Bytes) (s : State) : Result :=
  host s src .security fun s => secOp src (s.kekLength data.length) true beforeRma (hostKek src data) s

/-- Fields of a generation image out of range. -/
def settingsBad (b : Bytes) : Bool :=
  let d := field b 1 1
  !(decide (d ≤ 3) || d = 0xFF) || decide (8 ≤ field b 2 1) || decide (4 ≤ field b 3 1) || ((b.drop 4).take 250).any (· ≠ 0)

/-- The next spare generation is written, and only then the one in use retired. -/
def State.advanceSettings (s : State) (g : Nat) (b : Bytes) : State :=
  let old := s.settingsGen
  let s := s.otpSet (0x800 + 256 * g) (settingsImage (field b 1 1) (field b 2 1) (field b 3 1))
  let s := match old with | some k => s.otpSet (0x800 + 256 * k) [2] | none => s
  s.refreshOtp

/-- SETTINGS_ADVANCE: Operation Denied without VQPS_OTP, and for good once no generation is left. -/
def execSettingsAdvance (src : Src) (data : Bytes) (s : State) : Result :=
  host s src .security (secOp src (data.length = 256) true beforeRma fun s =>
    if settingsBad data then s.err src .invalidField
    else match (List.range 4).find? fun g => !(s.otpGet (0x800 + 256 * g)).toNat.testBit 0 with
      | none =>
        let t := s.err src .operationDenied
        { t with cqes := match t.cqes with
            | c :: r => { c with dnr := true } :: r
            | [] => [] }
      | some g => if s.pins.vqps then (s.advanceSettings g data).ok src else s.err src .operationDenied)

/-! ## Key Per I/O (R352) -/

/-- A tag of the function, and its slot. -/
def State.kpioSlot (s : State) (f tag : Nat) : Option Nat := if tag < s.keyCount f then some (s.rd (Fd.VFM_FN_KEYS_BASE f) + tag) else none

/-- KEY_INJECTION: an XTS pair wrapped under the host KEK replaces what the slot holds. -/
def execKeyInjection (src : Src) (tag : Nat) (blob : Bytes) (s : State) : Result :=
  host s src .security fun s =>
    match s.kpioSlot src.fn tag with
    | none => s.err src .sscInvalidParameter
    | some k => match s.aesKey slotHostKek with
      | none => s.err src .keySlotEmpty
      | some kek => match unwrapKey kek blob 64 with
        | none => s.err src .sscInvalidParameter
        | some p =>
          if p.take 32 = p.drop 32 then s.err src .sscInvalidParameter
          else ((s.setSlot k ⟨1, src.fn, srcInjected, p⟩).settleFlags src.fn).ok src

/-- KEY_CLEAR: the slot is zeroed; a smaller range that waited for it may go through (R332). -/
def execKeyClear (src : Src) (tag : Nat) (s : State) : Result :=
  host s src .security fun s =>
    match s.kpioSlot src.fn tag with
    | none => s.err src .sscInvalidParameter
    | some k => ((s.zeroSlot k).retryShrink src.fn).ok src

end Sys2Proof.Machine
end

