-- ==== Sys2Proof/Machine/Sanitize.lean ====
section
/-! DEFINITION. Sanitize, and what waits for the TRNG (R37, R44, R66, R129, R316, R360, R370, R371, R394, R396). -/

namespace Sys2Proof.Machine

open Sys2Proof

/-! ## Crypto Erase (R371) -/

/-- The functions' key slots are zeroed, media and Key Per I/O alike; the device's stay. -/
def State.zeroFnSlots (s : State) : State :=
  { s with
    sec := { s.sec with slots := s.sec.slots.filter fun (e : Nat × KeySlot) => decide (keySlotsForFns ≤ e.1) }
    nss := s.nss.map fun (n : Ns) => { n with slotReady := false } }

/-- The buffer goes: commands in it, and every clutch not on flash. Outstanding I/O ends with Sanitize In Progress. -/
def State.endAllIo (s : State) : State :=
  (s.cmds.foldl (fun (s : State) (c : Cmd) => (s.cancelItems c.tag).finish c .sanitizeInProgress 0 0 .none) s).concludeRecon

/-- Every zone and conventional block is emptied, as one event of the generation counter (R66). -/
def State.dropAllData (s : State) : State :=
  s.nss.foldl (fun (s : State) (n : Ns) => s.dropData s.xlt.genCounter n) s.nextGen

/-- Every stripe, spawn segment and log stripe is released; reclaim work for them ends. -/
def State.releaseAll (s : State) : State :=
  let s := { s with
    clutches := []
    kept := []
    landing := []
    xlt := { s.xlt with
      works := s.xlt.works.filter fun (w : Work) => match w with | .erase _ _ => true | _ => false
      copies := []
      remaps := []
      slices := [] }
    med := { s.med with
      rebuilds := []
      rows := []
      ops := s.med.ops.filter fun (o : DieOp) => !(o.st = 0 && o.kind = DieKind.program && o.purpose ≠ 11 && o.purpose ≠ 8) } }
  let s := (s.xlt.stripes.filter fun (t : Stripe) => t.state ≠ 5).foldl (fun (s : State) (t : Stripe) => s.releaseStripe t.seq) s
  let s := (s.xlt.segs.filter fun (g : Segment) => !g.released).foldl (fun (s : State) (g : Segment) => s.releaseSeg g.id) s
  { s with xlt := { s.xlt with
    logFree := (List.range 4).map fun c => if s.usedChoirs.contains c then logStripes else 0
    logFill := [0, 0, 0, 0] } }

/-- Every VF is unassigned (R316). -/
def State.unassignAll (s : State) : State :=
  ((List.range fnCount).filter fun f => f ≠ 0 && s.assigned f).foldl (fun (s : State) f => s.unassign f) s

/-- Every namespace's media key is drawn anew. -/
def State.newKeys (s : State) : State := s.nss.foldl (fun (s : State) (n : Ns) => s.newKey n.nsid) s

def State.cryptoErase (s : State) : State :=
  let s := (s.endAllIo.zeroFnSlots.newKeys).dropAllData
  let s := s.releaseAll
  let s := s.nss.foldl (fun (s : State) (n : Ns) => s.bindHomes n) s
  s.unassignAll.refreshXlt

/-! ## The command (R370) -/

/-- A sanitize begins: the mode, the record that a start finds, the running self-test aborted, Crypto Erase done. -/
def sanitizeNow (src : Src) (block ause : Bool) (s : State) : State :=
  let s := s.abortTest 9
  let s := { s with boot := { s.boot with sanitize := 1, sanKind := if block then 2 else 1, sanAuse := ause, sanPaused := false } }
  (s.setMode mSanitize false).cryptoErase.ok src

/-- The checks of a Sanitize, which is PF0's; it waits for the TRNG (R360). -/
def sanitizeCmd (src : Src) (block ause ndas : Bool) (s : State) : State :=
  if src.fn ≠ 0 then s.err src .invalidOpcode
  else if ndas then s.err src .invalidField
  else if s.boot.sanitize = 1 then s.err src .sanitizeInProgress
  else if !(s.mode = mServe || s.mode = mDegraded || s.mode = mSanitize) then s.err src .commandSequence
  else if s.sec.scrapped then s.err src .keySlotEmpty
  else if !s.trngOk then s.trngWait src (.sanitize src block ause)
  else sanitizeNow src block ause s

def execSanitizeCryptoErase (src : Src) (ause ndas : Bool) (s : State) : Result := host s src .sanitize (sanitizeCmd src false ause ndas)
def execSanitizeBlockErase (src : Src) (ause ndas : Bool) (s : State) : Result := host s src .sanitize (sanitizeCmd src true ause ndas)

/-- SANITIZE_OVERWRITE: not supported. -/
def execSanitizeOverwrite (src : Src) (s : State) : Result :=
  host s src .sanitize fun s => if src.fn ≠ 0 then s.err src .invalidOpcode else s.err src .invalidField

/-! ## Its end (R37, R396) -/

/-- SANITIZE is left: for SERVE, or DEGRADED where a cause remains; at end of life READONLY follows at once. -/
def State.leaveSanitize (s : State) : State :=
  let s := s.setMode (if s.rd Fd.TOP_MODE_DGCAUSE ≠ 0 then mDegraded else mServe) false
  (if s.xlt.eol then s.enterReadonly 2 else s).resumeQueue

/-- SANITIZE_EXIT_FAILURE_MODE: as NVMe defines: a failed sanitize that allowed it is left; one that did not stays failed; without
a failed one nothing changes. -/
def execSanitizeExitFailureMode (src : Src) (s : State) : Result :=
  host s src .sanitize fun s =>
    if src.fn ≠ 0 then s.err src .invalidOpcode
    else if s.boot.sanitize = 1 then s.err src .sanitizeInProgress
    else if s.boot.sanitize = 0 then s.ok src
    else if !s.boot.sanAuse then s.err src .sanitizeFailed
    else (({ s with boot := { s.boot with sanitize := 0 } }).leaveSanitize).ok src

/-- SANITIZE_COMPLETE: it succeeds or fails; either is reported (NVMe). A Block Erase has succeeded once every released block is erased, by the
channel engines, in its choir's loud calls (R370). A failed one keeps the part in SANITIZE. -/
def execSanitizeComplete (ok : Bool) (s : State) : Result :=
  if s.mode ≠ mSanitize || s.boot.sanitize ≠ 1 || s.boot.sanPaused || s.flag Fd.TOP_MODE_FLUSH || s.pwr.pfHold then .next s
  else if !ok then .next (({ s with boot := { s.boot with sanitize := 2 } }).raise 0 .sanitizeDone)
  else if s.boot.sanKind = 2 && !s.xlt.released.isEmpty then .next s
  else
    let s := { s with boot := { s.boot with sanitize := 0, sanRuns := s.boot.sanRuns + 1 } }
    .next ((s.raise 0 .sanitizeDone).leaveSanitize)

/-! ## Operations that wait for the TRNG (R360) -/

/-- An operation goes on with the words it waited for. A format or sanitize is judged by the mode again. -/
def goOn (o : TrngOp) (s : State) : State :=
  match o with
  | .create src n => createNs src n s
  | .format src nsid fmt dps ext => formatCmd src nsid fmt dps ext 1 s
  | .sanitize src block ause => sanitizeCmd src block ause false s
  | .challenge src => challengeNow src s
  | .fill k => s.fillSlot k

/-- TRNG_RECOVERY: after 1,024 passing samples words come again, and what waited goes on, oldest first. -/
def execTrngRecovery (s : State) : Result :=
  if !s.pwr.on || s.trngOk || s.rd Fd.TOP_BOOT_STAGE = 0 then .next s
  else
    let l := s.sec.trngWaits
    let s := ({ s with sec := { s.sec with trngWaits := [] } }).trngResume
    .next (l.foldl (fun (s : State) (o : TrngOp) => goOn o s) s)

/-- TRNG_WAIT_TIMEOUT: the oldest operation has waited 100 ms: Internal Error. A slot fill has no command to fail. -/
def execTrngWaitTimeout (s : State) : Result :=
  match s.sec.trngWaits with
  | [] => .next s
  | o :: r =>
    let s := { s with sec := { s.sec with trngWaits := r } }
    .next (match o.src with
      | some src => s.err src .internalError
      | none => s)

end Sys2Proof.Machine
end

