-- ==== Sys2Proof/Machine/Resets.lean ====
section
/-! DEFINITION. Controller enable, resets of functions, shutdown notifications, and the end of a wake (R36, R89, R106-R109, R129, R157,
R335, R365, R378, R381, R385, R408, R521). -/

namespace Sys2Proof.Machine

open Sys2Proof

/-- The host reaches the functions' registers: the link is up and configuration requests complete. -/
def State.hostReaches (s : State) : Bool := s.pwr.on && !s.boot.perstLow && s.boot.cfgReady

/-- CSTS.RDY may be 1 for a function: not in BOOT but for PF0 in limited service, not for a VF in PROVISION (R37, R378, R395). -/
def State.mayReady (s : State) (f : Nat) : Bool :=
  (s.boot.limited && f = 0) || (!s.boot.running && s.mode ≠ mBoot && (f = 0 || s.mode ≠ mProvision))

/-- A register access from the host brings the link out of L1.2 (R406). -/
def State.hostTouch (s : State) : State := if s.asleep then s.wakeSource 1 else s

/-- The host reaches a function: a VF only while VF Enable is set. -/
def State.reaches (s : State) (fn : Nat) : Bool := s.hostReaches && (fn = 0 || s.boot.vfEnable)

/-- CC_EN_SET: the controller is enabled, with the arbitration of CC.AMS; CSTS.RDY follows the mode, once a reset of the function is
complete. -/
def execCcEnSet (fn : Nat) (s : State) (ams : Nat := 0) : Result :=
  onFn fn (
    if !s.reaches fn || (s.fn fn).en then .next s
    else
      let s := s.hostTouch
      let ready := s.mayReady fn && !(s.fn fn).resetting && !(s.fn fn).cfs
      .next ({ s with boot := { s.boot with cleanStop := s.boot.cleanStop && fn ≠ 0 } }.modFn fn fun f => { f with en := true, rdy := ready, ams := if ams = 1 then 1 else 0 }))

/-- A pending activation runs now, as action 011b does (R381). -/
def State.runPending (s : State) : State :=
  match s.boot.pendingSlot with
  | some k => ({ s with boot := { s.boot with pendingSlot := none } }).activate k none
  | none => s

/-- CC_EN_CLEAR_PF0: PF0's commands are abandoned; VF queues carry on. -/
def execCcEnClearPf0 (s : State) : Result :=
  if !s.hostReaches || !(s.fn 0).en then .next s
  else .next ((((s.hostTouch.resetFn 0).stopEfts 0).abortTest 2).runPending)

/-- Steps 1 to 6 of a function's reset (R335). -/
def State.beginReset (s : State) (f : Nat) : State :=
  let s := ((s.resetFn f).modFn f fun g => { g with resetting := true }).wr (Fd.VFM_FN_STATE_RESET f) 1
  (s.evictKeys f).endSession f

/-- VF_RESET: an FLR of a VF, or CC.EN cleared on it. -/
def execVfReset (fn : Nat) (s : State) : Result :=
  onFn fn (
    if fn = 0 then .fault .noSuchFunction
    else if !s.reaches fn then .next s
    else .next (s.hostTouch.beginReset fn))

/-- PF0_FLR: every function is reset at once, VF Enable clears (R106), BAR2 and Memory Space Enable go back to their reset values (R525). A part whose activated image has not left QUIESCE starts anew (R385). -/
def execPf0Flr (s : State) : Result :=
  if !s.hostReaches then .next s
  else
    let hung := s.boot.fwHang
    let s := s.hostTouch
    let s := (s.allFns.foldl (fun (s : State) f => s.beginReset f) s).abortTest 2
    let s := { s with boot := { s.boot with vfEnable := false, memSpace := false, bar2 := 0 } }
    .next (if hung then s.internalRestart else s.runPending)

/-- FUNCTION_RESET_COMPLETE: every eft that ran work of the function has stopped and scrubbed. -/
def execFunctionResetComplete (fn : Nat) (s : State) : Result :=
  onFn fn (
    if !(s.fn fn).resetting then .next s
    else
      let s := (s.stopEfts fn).wr (Fd.VFM_FN_STATE_RESET fn) 0
      let ready := s.mayReady fn
      .next (s.modFn fn fun f => { f with resetting := false, bal := 0, rdy := f.en && ready && !f.cfs }))

/-- SHUTDOWN_NOTIFICATION: fetching stops, queued commands are abandoned, those for QUIESCE included; started ones go on; SHST is complete when the buffer is
programmed and the journal committed (R109). -/
def execShutdownNotification (fn : Nat) (s : State) : Result :=
  onFn fn (
    let f := s.fn fn
    if !s.hostReaches || !f.en || !f.rdy || f.shst ≠ 0 then .next s
    else
      let s := s.hostTouch
      let queued := s.cmds.filter fun (c : Cmd) => c.fn = fn && !c.started && c.kind ≠ .peer
      let s := queued.foldl (fun (s : State) (c : Cmd) => s.abandonCmd c) s
      let s := { s with quiesce := { s.quiesce with queue := s.quiesce.queue.filter fun (r : QReq) => !r.of fn } }
      let s := s.modFn fn fun f => { f with shst := 1, shutFrom := none, sqs := f.sqs.map fun (q : Sq) => { q with fetched := [], waiting := 0 } }
      .next s.settleShutdown)

end Sys2Proof.Machine
end

