-- ==== Sys2Proof/Machine/Window.lean ====
section
/-! DEFINITION. The management window: what each register shows and does, reads and writes of every kind, lock, error capture, latch,
accesses in low power, and the end of a wake (R14-R17, R373, R408, R514-R528). -/

namespace Sys2Proof.Machine

open Sys2Proof

/-! ## What registers show -/

/-- Put a value into a field's bits of a word. -/
def Fld.put (f : Fld) (w v : Nat) : Nat := putBits w f.msb f.lsb v
def sat (f : Fld) (v : Nat) : Nat := min v (2 ^ (f.msb + 1 - f.lsb) - 1)

/-- A word with its RO fields 0. -/
def hideRo (w : Nat) (off : Nat) : Nat :=
  match regFind (off % bankStep) regTable with
  | some (d, _) => d.fields.foldl (fun w f => if f.access = .ro || f.access = .rc then putBits w (f.lsb + f.len - 1) f.lsb 0 else w) w
  | none => w

/-- EFT pond registers (R165). -/
def State.viewPond (s : State) (off w : Nat) : Nat :=
  let p := (off - 0x400000) / 0x8000
  let o := off % 0x8000
  if o = 0 then (Fd.EFT_PD_STATUS_USABLE p).put w (s.unfenced p)
  else if 0x100 ≤ o && o < 0x300 && o % 16 = 0 then
    (Fd.EFT_PD_E_STATE_DEPTH p ((o - 0x100) / 16)).put w (s.eft p ((o - 0x100) / 16)).deque.length
  else w

/-- A function's registers (R339): uses beside limits. -/
def State.viewFn (s : State) (off w : Nat) : Nat :=
  let n := (off - 0x1800000) / 0x400
  let f := s.fn n
  match off % 0x400 with
  | 0x00 => (Fd.VFM_FN_STATE_WAITTOK n).put ((Fd.VFM_FN_STATE_ASSIGNED n).put ((Fd.VFM_FN_STATE_OVERQ n).put w (s.overNow n))
      (s.assigned n).toNat) (s.waitsTokens n).toNat
  | 0x04 => (Fd.VFM_FN_QP_CREATED n).put w f.created
  | 0x08 => (Fd.VFM_FN_INFLIGHT_CUR n).put w (s.inflight n)
  | 0x10 => (Fd.VFM_FN_NS_CUR n).put ((Fd.VFM_FN_NS_MEDIA n).put w (s.mediaOf n)) (s.nssOf n).length
  | 0x14 => (Fd.VFM_FN_OPEN_CUR n).put w (s.openOf n)
  | 0x18 => (Fd.VFM_FN_ACTIVE_CUR n).put w (s.activeOf n)
  | 0x1C => (Fd.VFM_FN_BUF_CUR n).put w (s.bufOf n)
  | 0x20 => (Fd.VFM_FN_STRIPES_COUNT n).put w (s.stripesOf n)
  | 0x34 => (f.bal % (2 ^ 32 : Int)).toNat
  | _ => w

/-- The pools. -/
def State.viewPool (s : State) (off w : Nat) : Nat :=
  if off = Reg.VFM_POOL_QP then Fd.VFM_POOL_QP_FREE.put w (poolQueuePairs - s.qpSumBut fnCount)
  else if off = Reg.VFM_POOL_KEYS then
    let l := s.runs.map fun (e : Nat × Nat) => e.2
    Fd.VFM_POOL_KEYS_LARGEST.put (Fd.VFM_POOL_KEYS_FREE.put w (sumNat l)) (maxNat l)
  else if off = Reg.VFM_POOL_GSUM then Fd.VFM_POOL_GSUM_SUM.put w (s.gSumBut fnCount)
  else if off = Reg.VFM_POOL_STATUS then
    let l := s.assignedFns
    Fd.VFM_POOL_STATUS_OVERQ.put (Fd.VFM_POOL_STATUS_ASSIGNED.put w l.length) (l.filter fun f => s.overNow f ≠ 0).length
  else w

/-- A secret OTP byte reads 0 (R343). -/
def otpSecret (a : Nat) : Bool := (decide (0x60 ≤ a) && decide (a < 0x80)) || (decide (0xC00 ≤ a) && decide (a % 256 < 64))

/-- SEC_OTP_DATA and SEC_KS_INFO (R373). -/
def State.viewSec (s : State) (off w : Nat) : Nat :=
  if off = Reg.SEC_OTP_DATA then
    let a := 4 * s.rd Fd.SEC_OTP_ADDR_ADDR
    if otpSecret a then 0 else leNat (s.otpRead a 4)
  else if off = Reg.SEC_KS_INFO then
    let k := s.slot (s.rd Fd.SEC_KS_SEL_SLOT)
    if k.kind = 0 then 0
    else Fd.SEC_KS_INFO_VALID.put (Fd.SEC_KS_INFO_KIND.put (Fd.SEC_KS_INFO_SOURCE.put (Fd.SEC_KS_INFO_OWNER.put w k.owner) k.source) k.kind) 1
  else w

/-- CHO_STATE and CHO_BEAT (R270). Until stage 6 of a start sets the counter no schedule runs, and what follows it is at its Reset value
(R16, R249). -/
def State.viewCho (s : State) (off w : Nat) : Nat :=
  if s.counter = 0 then w
  else if off = Reg.CHO_STATE then
    let w := Fd.CHO_STATE_LOUD.put (Fd.CHO_STATE_ECALL.put w s.ecall) s.loudNow
    Fd.CHO_STATE_SINCE.put w (sat Fd.CHO_STATE_SINCE (s.since / 100000000))
  else if off = Reg.CHO_BEAT then Fd.CHO_BEAT_GUARD_NOW.put w (sat Fd.CHO_BEAT_GUARD_NOW (s.guardNs / 100))
  else w

/-- Stage 6 of the latest start has ended: what BOOT loads there stands in the registers (R16, R202). -/
def State.loaded (s : State) : Bool := decide (7 ≤ s.rd Fd.TOP_BOOT_STAGE) && s.rd Fd.TOP_BOOT_STAGE ≠ 15

/-- EVR_STAT, EVR_LOST (R493): the home and the queue are the same in every bank. At every start they take their Reset values, and show the
home, the queue and the counts since power-on again once the recorder runs (DEDUCED, assumption 103). -/
def State.viewEvr (s : State) (off w : Nat) : Nat :=
  if off = Reg.EVR_STAT then
    if !s.loaded then Fd.EVR_STAT_HOME.put w 0 else
    Fd.EVR_STAT_HOME.put (Fd.EVR_STAT_STAGED.put w s.evr.staging.length) (s.rd Fd.EVR_STAT_HOME)
  else if off = Reg.EVR_LOST then
    if !s.loaded then 0 else
    Fd.EVR_LOST_LOST.put (Fd.EVR_LOST_SUPPRESSED.put w (sat Fd.EVR_LOST_SUPPRESSED (s.evr.suppressed - s.evr.suppOn)))
      (sat Fd.EVR_LOST_LOST (s.evr.lost - s.evr.lostOn))
  else w

/-- Time since a start began, while BOOT is not left (R400). -/
def State.viewBoot (s : State) (w : Nat) : Nat :=
  if s.boot.running || s.boot.limited then Fd.TOP_BOOT_TIME.put w (sat Fd.TOP_BOOT_TIME ((s.now - s.boot.startAt) / 1000000)) else w

/-- An unused TD input: ABSENT, not sampled (R429), once the start's profile has said which are used (R16). -/
def State.viewTemp (s : State) (n w : Nat) : Nat :=
  if 16 ≤ n && decide (4 ≤ s.rd Fd.TOP_BOOT_STAGE) && !s.tdUsed (n - 16) then (Fd.GK_TEMP_ABSENT n).put ((Fd.GK_TEMP_RATE n).put 0 3) 1 else w

/-- XLT (R202). -/
def State.viewXlt (s : State) (off w : Nat) : Nat :=
  if !s.xlt.restored || !s.loaded then hideRo w off
  else if off = Reg.XLT_WL_SPREAD then
    Fd.XLT_WL_SPREAD_TRIGGER.put (Fd.XLT_WL_SPREAD_SPREAD.put w (maxNat ((List.range 4).map s.spread))) s.wlTrigger
  else if off = Reg.XLT_BUF then Fd.XLT_BUF_USED.put w (ceilDiv s.bufBytes (2 ^ 20))
  else w

/-- The other registers whose value follows other state. -/
def State.viewRest (s : State) (off w : Nat) : Nat :=
  if off = Reg.TOP_BOOT then s.viewBoot w
  else if off = Reg.EFT_FENCE_SUM then s.fencedCount
  else if Reg.EFT_FENCED 0 ≤ off && off ≤ Reg.EFT_FENCED 7 then
    bitsOf ((List.range 32).map fun n => s.fenced ((off - Reg.EFT_FENCED 0) / 4) n)
  else if Reg.GK_TEMP 0 ≤ off && off ≤ Reg.GK_TEMP 23 then s.viewTemp ((off - Reg.GK_TEMP 0) / 4) w
  else if off = Reg.DZL_PEER then
    Fd.DZL_PEER_OUT.put (Fd.DZL_PEER_SERVING.put w (s.dzl.ins.filter fun (i : PeerIn) => i.running && i.port < 4).length)
      (min 4096 (s.dzl.outs.filter fun (o : PeerOut) => o.open && o.req.dev ≠ s.selfId).length)
  else if off = Reg.HLT_ALERT then
    Fd.HLT_ALERT_LOGMEM.put (Fd.HLT_ALERT_CW.put (Fd.HLT_ALERT_THERM.put w s.thermCause.toNat) (decide (s.rd Fd.HLT_CRIT_CW ≠ 0)).toNat) (s.rd Fd.TOP_ERR_LOGMEM)
  else w

/-- The MED block (R237): what BOOT loads there shows from stage 6 on; TRANS10 counts the last 10 s. -/
def State.viewMed (s : State) (off w : Nat) : Nat :=
  if s.rd Fd.TOP_BOOT_STAGE < 6 || s.rd Fd.TOP_BOOT_STAGE = 15 then hideRo w off
  else if off % 0x4000 = 0 && off < 0x900000 then
    let ch := (off - 0x800000) / 0x4000
    (Fd.MED_CH_STATE_TRANS10 ch).put w (min 64 (s.trans10 ch))
  else w

/-- The word a requester sees at an offset, read side effects apart. -/
def State.view (s : State) (r off : Nat) : Nat :=
  let w := s.word (homeOf r off)
  if 0x400000 ≤ off && off < 0x440000 then s.viewPond off w
  else if 0x800000 ≤ off && off < 0x1000000 then s.viewMed off w
  else if 0x1000000 ≤ off && off < 0x1200000 then s.viewXlt off w
  else if 0x1200000 ≤ off && off < 0x1400000 then s.viewCho off w
  else if 0x1800000 ≤ off && off < 0x2000000 then
    (if !s.xlt.restored then hideRo w off
     else if (regFind off regTable).isNone then 0
     else if off < Reg.VFM_POOL_QP then s.viewFn off w else s.viewPool off w)
  else if 0x2000000 ≤ off && off < 0x2400000 then s.viewSec off w
  else if 0x2800000 ≤ off && off < 0x2A00000 then s.viewEvr off w
  else s.viewRest off w

/-! ## Reads -/

/-- The high word of a 64-bit register (R14). -/
def highWord (off : Nat) : Bool := 4 ≤ off && lowWords.contains (off - 4)
def latchKey (r off : Nat) : Nat := r * 2 ^ 28 + off

/-- The high word's value for a requester: the latched one, once; else the current one. -/
def State.readHigh (s : State) (r off : Nat) : Nat × State :=
  match s.latch.find? fun (e : Nat × Word) => e.1 = latchKey r off with
  | some e => (e.2.toNat, { s with latch := s.latch.filter fun (x : Nat × Word) => x.1 ≠ latchKey r off })
  | none => (s.view r off, s)

/-- A read of a low word latches the high word for its requester. -/
def State.latchHigh (s : State) (r off : Nat) : State :=
  { s with latch := (s.latch.filter fun (x : Nat × Word) => x.1 ≠ latchKey r (off + 4)) ++ [(latchKey r (off + 4), BitVec.ofNat 32 (s.view r (off + 4)))] }

/-- A read by the access codes: WO bits read 0, RC fields clear (R15). -/
def State.readPlain (s : State) (r off : Nat) : Nat × State :=
  match regFind off regTable with
  | none => (0, s)
  | some (d, _) => (codeShow (s.view r off) d.fields, s.setWord (homeOf r off) (codeRead (s.word (homeOf r off)) d.fields))

/-- The engine and word of a digest register. -/
def digestAt (off : Nat) : Option (Nat × Nat) :=
  if Reg.SEC_HE_CTL 0 ≤ off && off < Reg.SEC_HE_CTL 8 && 0x40 ≤ off % 0x100 && off % 0x100 < 0x80 && off % 4 = 0
  then some ((off - Reg.SEC_HE_CTL 0) / 0x100, (off % 0x100 - 0x40) / 4) else none

/-- A read that reaches its register. -/
def State.regRead (s : State) (r off : Nat) : Nat × State :=
  match digestAt off with
  | some (n, k) => s.heRead r n k
  | none =>
    if off = Reg.SEC_TRNG_DATA then s.trngRead
    else if highWord off then s.readHigh r off
    else if lowWords.contains off then ((s.readPlain r off).1, s.latchHigh r off)
    else s.readPlain r off

/-- Consecutive words: their values, whether one was an error response. -/
def State.readWords (s : State) (r : Nat) : Nat → Nat → List Nat × Bool × State
  | _, 0 => ([], false, s)
  | off, n + 1 =>
    let a := s.readAt r off fun s => s.regRead r off
    let b := a.2.2.readWords r (off + 4) n
    (a.1 :: b.1, a.2.1 || b.2.1, b.2.2)

/-- The answer to a read of `n` words: the first as the value, all as the data. -/
def State.readReply (s : State) (r off n : Nat) : State :=
  let a := s.readWords r off n
  a.2.2.reply r (a.1.headD 0) a.2.1 (if n = 1 then .none else .nums a.1)

def windowSize : Nat := 2 ^ 26

/-- A read of a kind no word answers: an error response and ALIGN (R516). PCIe reads at most 16 DW within 64 B; an internal
requester one whole aligned word. -/
def readBad (r off n : Nat) (full : Bool) : Bool :=
  if r = reqPcie then n = 0 || decide (64 < off / 4 * 4 % 64 + 4 * n) else n ≠ 1 || !full || off % 4 ≠ 0

/-- REGISTER_READ: `dwords` words from an offset; `full`: with all byte enables. A partial PCIe read reads the whole word and
sets ALIGN. -/
def execRegisterRead (requester offset dwords : Nat) (full : Bool) (s : State) : Result :=
  inRange offset windowSize (winReach requester (offset / 4 * 4) dwords s fun s =>
    let off := offset / 4 * 4
    if readBad requester offset dwords full then (s.noteErr requester off false eALIGN).reply requester 0 true .none
    else (if full && offset % 4 = 0 then s else s.noteErr requester off false eALIGN).readReply requester off dwords)

/-- LOW_WORD_READ_LATCH (R14). -/
def execLowWordReadLatch (requester offset : Nat) (s : State) : Result :=
  if lowWords.contains offset then winRead requester offset s fun s => s.regRead requester offset else .fault .noSuchInstance

/-- The register has an RC field. -/
def hasRc (off : Nat) : Bool := match regFind off regTable with | some (d, _) => d.fields.any (·.access = .rc) | none => false

/-- RC_REGISTER_READ (R15). -/
def execRcRegisterRead (requester offset : Nat) (s : State) : Result :=
  if hasRc offset then winRead requester offset s fun s => s.regRead requester offset else .fault .noSuchInstance

/-! ## Writes -/

/-- GK_TDCFG: the input's reading begins anew under its settings. -/
def State.tdWrite (s : State) (r off v : Nat) : State :=
  let k := (off - Reg.GK_TDCFG 0) / 4
  let old := s.word off
  let s := s.plainWrite r off v
  if s.word off = old then s else s.setWord (Reg.GK_TEMP (16 + k)) 0

/-- SNC_OP: GO starts the operation its other fields name. -/
def State.opGo (s : State) (r v : Nat) : State :=
  if v.testBit Fd.SNC_OP_GO.lsb
  then s.sncGo r (getBits v Fd.SNC_OP_CODE.msb Fd.SNC_OP_CODE.lsb) (v.testBit Fd.SNC_OP_ANDOW.lsb)
  else s.plainWrite r Reg.SNC_OP v

/-- A hash engine's register. -/
def heAt (off : Nat) : Option (Nat × Nat) :=
  if Reg.SEC_HE_CTL 0 ≤ off && off < Reg.SEC_HE_CTL 8 then some ((off - Reg.SEC_HE_CTL 0) / 0x100, off % 0x100) else none

/-- Writes to SEC registers. -/
def State.secWrite (s : State) (r off v : Nat) : State :=
  if off = Reg.SEC_KE_CTL then s.keCtl r v
  else if off = Reg.SEC_KE_DATA then s.keData r v
  else if off = Reg.SEC_KS_CMD then s.ksCmd (v % 8)
  else match heAt off with
    | some (n, 0) => s.heCtl r n v
    | some (n, 8) => s.heData r n v
    | _ => s.plainWrite r off v

/-- Writes that act otherwise than by the access codes alone. -/
def State.regWrite (s : State) (r off v : Nat) : State :=
  let v := v % 2 ^ 32
  if off = Reg.TOP_ERRADDR then (if v.testBit 31 then s.setWord Reg.TOP_ERRADDR 0 else s)
  else if Reg.GK_TDCFG 0 ≤ off && off ≤ Reg.GK_TDCFG 7 then s.tdWrite r off v
  else if off = Reg.GK_THCFG then (s.plainWrite r off v).refreshCrit
  else if off = Reg.CLK_OP then s.opWrite r v
  else if off = Reg.CLK_AVS_CMD then
    let a := s.free (2 ^ 16)
    a.2.avsWrite v a.1
  else if off = Reg.EFT_FENCE_CMD then fenceCmd v s
  else if !(stagedOf off v).isEmpty then s.stagedWrite r off v
  else if off = Reg.DZL_CFG then (s.plainWrite r off v).refreshPorts s.now
  else if 0x2000000 ≤ off && off < 0x2400000 then s.secWrite r off v
  else if off = Reg.SNC_OP then s.opGo r v
  else if off = Reg.EVR_CMD then s.cursorCmd (bankOf r) v
  else if off = Reg.EVR_CURSOR + 4 then s.cursorHigh r v
  else s.plainWrite r off v

/-- REGISTER_WRITE: `dwords` words from an offset, the first being `value`; `full`: with all byte enables (R516). -/
def execRegisterWrite (requester offset dwords : Nat) (full : Bool) (value : Nat) (s : State) : Result :=
  let off := offset / 4 * 4
  inRange offset windowSize (
    if dwords = 1 && full && offset % 4 = 0 then winWrite requester off value s fun s => s.regWrite requester off value
    else if !requesterOk requester then .fault .noSuchInstance
    else if !s.pwr.on || (requester = reqPcie && !s.hasWindow) then .next s
    else
      let s := s.noteErr requester off true (if dwords ≠ 1 then eWSIZE else eALIGN)
      .next (if requester = reqPcie then s.hostTouch else s.reply requester 0 true .none))

/-- TOP_LOCK_LOCK, TOP_LOCK_WINRO (R523): W1S bits. -/
def execTopLockLock (requester : Nat) (s : State) : Result :=
  winWrite requester Reg.TOP_LOCK 1 s fun s => s.regWrite requester Reg.TOP_LOCK 1
def execTopLockWinro (requester : Nat) (s : State) : Result :=
  winWrite requester Reg.TOP_LOCK 2 s fun s => s.regWrite requester Reg.TOP_LOCK 2

/-- TOP_ERRADDR_VALID_CLEAR (R528). -/
def execTopErraddrValidClear (requester : Nat) (s : State) : Result :=
  winWrite requester Reg.TOP_ERRADDR (2 ^ 31) s fun s => s.regWrite requester Reg.TOP_ERRADDR (2 ^ 31)

/-! ## Low power (R408, R521) -/

/-- WINDOW_ACCESS_IN_LOW_POWER: a PF0 read of one word that meets SLEEP or DEEP raises wake source 1 and is held. -/
def execWindowAccessInLowPower (offset : Nat) (s : State) : Result :=
  inRange offset windowSize (
    if s.asleep && s.pwr.on && s.hasWindow then .next (s.lowPowerAccess false (offset / 4 * 4) 1) else .next s)

/-- The state an answer leaves. -/
def stateOf (r : Result) (s : State) : State := match r with | .next t => t | _ => s

/-- A held access is forwarded. -/
def State.forward (s : State) (a : Bool × Nat × Nat) : State :=
  stateOf (if a.1 then winWrite reqPcie a.2.1 a.2.2 s fun s => s.regWrite reqPcie a.2.1 a.2.2
    else execRegisterRead reqPcie a.2.1 a.2.2 true s) s

/-- WAKE_EVENT: the part is in RUN: `fails` names the retention banks whose CRC differs, `dimms` what DRAM training found; held
accesses go on in order. -/
def execWakeEvent (fails : Nat) (dimms : List Dimm) (t : Nat) (s : State) : Result :=
  let s := s.at t
  match s.pwr.waking with
  | none => .next s
  | some k =>
    let s := s.wakeNow k fails dimms
    let l := s.pwr.held
    .next (l.foldl State.forward { s with pwr := { s.pwr with held := [] } })

end Sys2Proof.Machine
end

