-- ==== Sys2Proof/Machine/Dispatch.lean ====
section
/-! DEFINITION. The effect of each command: one arm per command of the table, each one call of its meaning. -/

namespace Sys2Proof.Machine

open Sys2Proof

def exec (i : Instr) (s : State) : Host.Outcome State Fault Refusal :=
  match i with
  | .write src w => Sys2Proof.Machine.execWrite src w s
  | .read src r => Sys2Proof.Machine.execRead src r s
  | .compare src r host => Sys2Proof.Machine.execCompare src r host s
  | .verify src r => Sys2Proof.Machine.execVerify src r s
  | .writeZeroes src w => Sys2Proof.Machine.execWriteZeroes src w s
  | .datasetManagement src nsid deallocate ranges => Sys2Proof.Machine.execDatasetManagement src nsid deallocate ranges s
  | .zoneAppend src w => Sys2Proof.Machine.execZoneAppend src w s
  | .zoneOpen src nsid slba all => Sys2Proof.Machine.execZoneOpen src nsid slba all s
  | .zoneClose src nsid slba all => Sys2Proof.Machine.execZoneClose src nsid slba all s
  | .zoneFinish src nsid slba all => Sys2Proof.Machine.execZoneFinish src nsid slba all s
  | .zoneReset src nsid slba all => Sys2Proof.Machine.execZoneReset src nsid slba all s
  | .reportZones src nsid slba count => Sys2Proof.Machine.execReportZones src nsid slba count s
  | .flush src nsid => Sys2Proof.Machine.execFlush src nsid s
  | .abort src sqid target => Sys2Proof.Machine.execAbort src sqid target s
  | .orderedWrite src w => Sys2Proof.Machine.execOrderedWrite src w s
  | .locatorAppend src w => Sys2Proof.Machine.execLocatorAppend src w s
  | .readByLocator src nsid loc gen off count keyTag prinfo => Sys2Proof.Machine.execReadByLocator src nsid loc gen off count keyTag prinfo s
  | .verifiedPrecompressedWrite src v => Sys2Proof.Machine.execVerifiedPrecompressedWrite src v s
  | .reconstruct src nsid zslba nlb dtype dspec keyTag listLen sources => Sys2Proof.Machine.execReconstruct src nsid zslba nlb dtype dspec keyTag listLen sources s
  | .digestRange src nsid slba count alg keyTag => Sys2Proof.Machine.execDigestRange src nsid slba count alg keyTag s
  | .namespaceManagementCreate src n => Sys2Proof.Machine.execNamespaceManagementCreate src n s
  | .namespaceManagementDelete src nsid => Sys2Proof.Machine.execNamespaceManagementDelete src nsid s
  | .namespaceAttach src nsid fn => Sys2Proof.Machine.execNamespaceAttach src nsid fn s
  | .namespaceDetach src nsid fn => Sys2Proof.Machine.execNamespaceDetach src nsid fn s
  | .formatNvm src nsid fmt dps extended ses => Sys2Proof.Machine.execFormatNvm src nsid fmt dps extended ses s
  | .sanitizeCryptoErase src ause ndas => Sys2Proof.Machine.execSanitizeCryptoErase src ause ndas s
  | .sanitizeBlockErase src ause ndas => Sys2Proof.Machine.execSanitizeBlockErase src ause ndas s
  | .sanitizeExitFailureMode src => Sys2Proof.Machine.execSanitizeExitFailureMode src s
  | .sanitizeOverwrite src => Sys2Proof.Machine.execSanitizeOverwrite src s
  | .sanitizeComplete ok => Sys2Proof.Machine.execSanitizeComplete ok s
  | .setFeaturesNumberOfQueues src nsq ncq => Sys2Proof.Machine.execSetFeaturesNumberOfQueues src nsq ncq s
  | .setFeaturesPlmConfig src set enable => Sys2Proof.Machine.execSetFeaturesPlmConfig src set enable s
  | .setFeaturesPlmWindow src => Sys2Proof.Machine.execSetFeaturesPlmWindow src s
  | .setFeaturesHctm src tmt1 tmt2 => Sys2Proof.Machine.execSetFeaturesHctm src tmt1 tmt2 s
  | .setFeaturesPowerManagement src ps => Sys2Proof.Machine.execSetFeaturesPowerManagement src ps s
  | .setFeaturesZonePhysicalStatus src => Sys2Proof.Machine.execSetFeaturesZonePhysicalStatus src s
  | .getFeaturesZonePhysicalStatus src nsid zone => Sys2Proof.Machine.execGetFeaturesZonePhysicalStatus src nsid zone s
  | .getFeaturesPlmWindow src set => Sys2Proof.Machine.execGetFeaturesPlmWindow src set s
  | .getLogPageSmart src rae => Sys2Proof.Machine.execGetLogPageSmart src rae s
  | .getLogPageLyskinHealth src rae => Sys2Proof.Machine.execGetLogPageLyskinHealth src rae s
  | .getLogPageChorusSchedule src rae => Sys2Proof.Machine.execGetLogPageChorusSchedule src rae s
  | .getLogPageAutotomyRecord src rae => Sys2Proof.Machine.execGetLogPageAutotomyRecord src rae s
  | .getLogPagePoolUsage src rae => Sys2Proof.Machine.execGetLogPagePoolUsage src rae s
  | .getLogPageEventRecords src rae offset length => Sys2Proof.Machine.execGetLogPageEventRecords src rae offset length s
  | .getLogPagePredictableLatency src set rae => Sys2Proof.Machine.execGetLogPagePredictableLatency src set rae s
  | .getLogPagePlmEventAggregate src rae => Sys2Proof.Machine.execGetLogPagePlmEventAggregate src rae s
  | .getLogPageChangedZoneList src rae nsid => Sys2Proof.Machine.execGetLogPageChangedZoneList src rae s nsid
  | .getLogPageDeviceSelfTest src rae => Sys2Proof.Machine.execGetLogPageDeviceSelfTest src rae s
  | .identifyController src => Sys2Proof.Machine.execIdentifyController src s
  | .identifyNamespace src nsid => Sys2Proof.Machine.execIdentifyNamespace src nsid s
  | .identifyNvmSetList src => Sys2Proof.Machine.execIdentifyNvmSetList src s
  | .createIoSubmissionQueue src qid size cqid prio => Sys2Proof.Machine.execCreateIoSubmissionQueue src qid size cqid s prio
  | .createIoCompletionQueue src qid size => Sys2Proof.Machine.execCreateIoCompletionQueue src qid size s
  | .deviceSelfTestShort src => Sys2Proof.Machine.execDeviceSelfTestShort src s
  | .deviceSelfTestExtended src => Sys2Proof.Machine.execDeviceSelfTestExtended src s
  | .deviceSelfTestAbort src => Sys2Proof.Machine.execDeviceSelfTestAbort src s
  | .selfTestItem pond n clutch faulty => Sys2Proof.Machine.execSelfTestItem pond n clutch faulty s
  | .deviceSelfTestComplete failed => Sys2Proof.Machine.execDeviceSelfTestComplete failed s
  | .firmwareImageDownload src off data verified => Sys2Proof.Machine.execFirmwareImageDownload src off data s verified
  | .firmwareCommitStore src slot => Sys2Proof.Machine.execFirmwareCommitStore src slot s
  | .firmwareCommitStoreAndSetNext src slot => Sys2Proof.Machine.execFirmwareCommitStoreAndSetNext src slot s
  | .firmwareCommitActivateExisting src slot => Sys2Proof.Machine.execFirmwareCommitActivateExisting src slot s
  | .firmwareCommitActivateNow src slot => Sys2Proof.Machine.execFirmwareCommitActivateNow src slot s
  | .firmwareActivation leaves => Sys2Proof.Machine.execFirmwareActivation leaves s
  | .activationTimeout => Sys2Proof.Machine.execActivationTimeout s
  | .asynchronousEventRequest src => Sys2Proof.Machine.execAsynchronousEventRequest src s
  | .securityProtocolList src => Sys2Proof.Machine.execSecurityProtocolList src s
  | .keyInjection src tag blob => Sys2Proof.Machine.execKeyInjection src tag blob s
  | .keyClear src tag => Sys2Proof.Machine.execKeyClear src tag s
  | .identity src len => Sys2Proof.Machine.execIdentity src len s
  | .attestRequest src data rsvOk => Sys2Proof.Machine.execAttestRequest src data rsvOk s
  | .attestReport src len => Sys2Proof.Machine.execAttestReport src len s
  | .reportSignatureComplete rsvOk t => Sys2Proof.Machine.execReportSignatureComplete rsvOk t s
  | .attestReportDiscard fn t => Sys2Proof.Machine.execAttestReportDiscard fn t s
  | .hashOpen src data t => Sys2Proof.Machine.execHashOpen src data t s
  | .hashFeed src data t => Sys2Proof.Machine.execHashFeed src data t s
  | .hashFinish src len => Sys2Proof.Machine.execHashFinish src len s
  | .hashRelease src len => Sys2Proof.Machine.execHashRelease src len s
  | .hashSessionTimeout fn t => Sys2Proof.Machine.execHashSessionTimeout fn t s
  | .lifecycleChallenge src len => Sys2Proof.Machine.execLifecycleChallenge src len s
  | .lifecycleAdvance src data => Sys2Proof.Machine.execLifecycleAdvance src data s
  | .lifecycleProvision uid serial media digests dflt controls floor => Sys2Proof.Machine.execLifecycleProvision uid serial media digests dflt controls floor s
  | .hostKek src data => Sys2Proof.Machine.execHostKek src data s
  | .settingsAdvance src data => Sys2Proof.Machine.execSettingsAdvance src data s
  | .poolManageAssign src fn len d => Sys2Proof.Machine.execPoolManageAssign src fn len d s
  | .poolManageChange src fn len d => Sys2Proof.Machine.execPoolManageChange src fn len d s
  | .poolManageRelease src fn len => Sys2Proof.Machine.execPoolManageRelease src fn len s
  | .profileSelect src profile => Sys2Proof.Machine.execProfileSelect src profile s
  | .profileSwitchComplete => Sys2Proof.Machine.execProfileSwitchComplete s
  | .chorusControlApply src block => Sys2Proof.Machine.execChorusControlApply src block s
  | .chorusControlRelock src len => Sys2Proof.Machine.execChorusControlRelock src s len
  | .groupJoin src group dev len block t => Sys2Proof.Machine.execGroupJoin src group dev len block t s
  | .groupJoinTimeout t => Sys2Proof.Machine.execGroupJoinTimeout t s
  | .groupLeave src group dev t => Sys2Proof.Machine.execGroupLeave src group dev t s
  | .groupStatusDevice src numd => Sys2Proof.Machine.execGroupStatusDevice src numd s
  | .groupStatusDomain src numd => Sys2Proof.Machine.execGroupStatusDomain src numd s
  | .subsystemHealthStatusPoll => Sys2Proof.Machine.execSubsystemHealthStatusPoll s
  | .controllerHealthStatusPoll => Sys2Proof.Machine.execControllerHealthStatusPoll s
  | .readNvmeMiDataStructure => Sys2Proof.Machine.execReadNvmeMiDataStructure s
  | .readEventRing nmd0 => Sys2Proof.Machine.execReadEventRing nmd0 s
  | .nvmeMiOtherCommand => Sys2Proof.Machine.execNvmeMiOtherCommand s
  | .sqDoorbellWrite fn qid entries => Sys2Proof.Machine.execSqDoorbellWrite fn qid entries s
  | .commandFetch => Sys2Proof.Machine.execCommandFetch s
  | .commandStart tag => Sys2Proof.Machine.execCommandStart tag s
  | .writeAdmission tag => Sys2Proof.Machine.execWriteAdmission tag s
  | .placementPoint tag => Sys2Proof.Machine.execPlacementPoint tag s
  | .ccEnSet fn ams => Sys2Proof.Machine.execCcEnSet fn s ams
  | .ccEnClearPf0 => Sys2Proof.Machine.execCcEnClearPf0 s
  | .vfReset fn => Sys2Proof.Machine.execVfReset fn s
  | .pf0Flr => Sys2Proof.Machine.execPf0Flr s
  | .functionResetComplete fn => Sys2Proof.Machine.execFunctionResetComplete fn s
  | .mediaSlotReload nsid => Sys2Proof.Machine.execMediaSlotReload nsid s
  | .shutdownNotification fn => Sys2Proof.Machine.execShutdownNotification fn s
  | .configurationRequest req => Sys2Proof.Machine.execConfigurationRequest s req
  | .powerOn xin vqps t => Sys2Proof.Machine.execPowerOn xin vqps t s
  | .perstNAssert t => Sys2Proof.Machine.execPerstNAssert t s
  | .perstNDeassert samples t => Sys2Proof.Machine.execPerstNDeassert samples t s
  | .startStageComplete found t => Sys2Proof.Machine.execStartStageComplete found t s
  | .chorusWaitEnd t => Sys2Proof.Machine.execChorusWaitEnd t s
  | .startDecision t => Sys2Proof.Machine.execStartDecision t s
  | .startWatchdog t => Sys2Proof.Machine.execStartWatchdog t s
  | .holdupSelfTestStart volt t => Sys2Proof.Machine.execHoldupSelfTestStart volt t s
  | .holdupSelfTestEnd dv t => Sys2Proof.Machine.execHoldupSelfTestEnd dv t s
  | .pwrfailNAssert width t => Sys2Proof.Machine.execPwrfailNAssert width t s
  | .flushComplete room t => Sys2Proof.Machine.execFlushComplete room t s
  | .pwrfailNRecovery t => Sys2Proof.Machine.execPwrfailNRecovery t s
  | .pwrfailNStuck t => Sys2Proof.Machine.execPwrfailNStuck t s
  | .vddAonLoss t => Sys2Proof.Machine.execVddAonLoss t s
  | .tempSample n raw bad t => Sys2Proof.Machine.execTempSample n raw bad t s
  | .thermalStep t => Sys2Proof.Machine.execThermalStep t s
  | .holdEntry => Sys2Proof.Machine.execHoldEntry s
  | .stopClear t => Sys2Proof.Machine.execStopClear t s
  | .thermalTrip => Sys2Proof.Machine.execThermalTrip s
  | .powerStateEntry woken => Sys2Proof.Machine.execPowerStateEntry woken s
  | .autonomousPowerStateTransition ps => Sys2Proof.Machine.execAutonomousPowerStateTransition ps s
  | .wakeEvent fails dimms t => Sys2Proof.Machine.execWakeEvent fails dimms t s
  | .timerWake => Sys2Proof.Machine.execTimerWake s
  | .devWakeNEdge rising width t => Sys2Proof.Machine.execDevWakeNEdge rising width t s
  | .devWakeStormEnd t => Sys2Proof.Machine.execDevWakeStormEnd t s
  | .clkreqNWake => Sys2Proof.Machine.execClkreqNWake s
  | .prfChange t => Sys2Proof.Machine.execPrfChange t s
  | .clkOpReqWrite requester value => Sys2Proof.Machine.execClkOpReqWrite requester value s
  | .dvfsStep => Sys2Proof.Machine.execDvfsStep s
  | .dvfsRailSettled => Sys2Proof.Machine.execDvfsRailSettled s
  | .clkAvsCmd requester value answer => Sys2Proof.Machine.execClkAvsCmd requester value answer s
  | .avsCurrentRead current => Sys2Proof.Machine.execAvsCurrentRead current s
  | .avsRegulatorFault => Sys2Proof.Machine.execAvsRegulatorFault s
  | .avsRetry answers => Sys2Proof.Machine.execAvsRetry answers s
  | .vddCoreSag => Sys2Proof.Machine.execVddCoreSag s
  | .pondGate pond => Sys2Proof.Machine.execPondGate pond s
  | .pondGateDrained pond => Sys2Proof.Machine.execPondGateDrained pond s
  | .pondUngate pond => Sys2Proof.Machine.execPondUngate pond s
  | .eftStealPoll pond n => Sys2Proof.Machine.execEftStealPoll pond n s
  | .writeClutchItem pond n faulty => Sys2Proof.Machine.execWriteClutchItem pond n faulty s
  | .hostReadCompletion pond n off data => Sys2Proof.Machine.execHostReadCompletion pond n off data s
  | .readClutchItem pond n faulty => Sys2Proof.Machine.execReadClutchItem pond n faulty s
  | .dieDataLanding pond n clutch => Sys2Proof.Machine.execDieDataLanding pond n clutch s
  | .overflowBufferReturn pond n => Sys2Proof.Machine.execOverflowBufferReturn pond n s
  | .digestFeed pond n faulty => Sys2Proof.Machine.execDigestFeed pond n faulty s
  | .digestAbsorb tag => Sys2Proof.Machine.execDigestAbsorb tag s
  | .paritySlice pond n ends => Sys2Proof.Machine.execParitySlice pond n ends s
  | .repairTerm pond n coeff data => Sys2Proof.Machine.execRepairTerm pond n coeff data s
  | .eftWatchdogExpiry pond n => Sys2Proof.Machine.execEftWatchdogExpiry pond n s
  | .eftFenceCmd requester value => Sys2Proof.Machine.execEftFenceCmd requester value s
  | .dieOpLaunch ch t => Sys2Proof.Machine.execDieOpLaunch ch t s
  | .erasedCheckComplete op bits => Sys2Proof.Machine.execErasedCheckComplete op bits s
  | .statusPoll op ready fail t => Sys2Proof.Machine.execStatusPoll op ready fail t s
  | .dieReadComplete op hardOk retry softOk t => Sys2Proof.Machine.execDieReadComplete op hardOk retry softOk t s
  | .programComplete op t => Sys2Proof.Machine.execProgramComplete op t s
  | .eraseComplete op t => Sys2Proof.Machine.execEraseComplete op t s
  | .operationTimeout op t => Sys2Proof.Machine.execOperationTimeout op t s
  | .hostReadOnBusyDie op t => Sys2Proof.Machine.execHostReadOnBusyDie op t s
  | .dieSuspendComplete op t => Sys2Proof.Machine.execDieSuspendComplete op t s
  | .channelHoldTimeout ch t => Sys2Proof.Machine.execChannelHoldTimeout ch t s
  | .stripeRebuildRead op unreadable => Sys2Proof.Machine.execStripeRebuildRead op unreadable s
  | .buscrcEvent op t => Sys2Proof.Machine.execBuscrcEvent op t s
  | .trainingCheck ch eyeOk t => Sys2Proof.Machine.execTrainingCheck ch eyeOk t s
  | .retrainingComplete ch reye weye t => Sys2Proof.Machine.execRetrainingComplete ch reye weye t s
  | .rebuildMember => Sys2Proof.Machine.execRebuildMember s
  | .callBoundary => Sys2Proof.Machine.execCallBoundary s
  | .turnClosing choir t => Sys2Proof.Machine.execTurnClosing choir t s
  | .chbInBeat t width => Sys2Proof.Machine.execChbInBeat t width s
  | .beatTimeout t => Sys2Proof.Machine.execBeatTimeout t s
  | .holdoverExpiry t => Sys2Proof.Machine.execHoldoverExpiry t s
  | .driftExpiry t => Sys2Proof.Machine.execDriftExpiry t s
  | .noisyClear t => Sys2Proof.Machine.execNoisyClear t s
  | .relockAcquisitionTimeout => Sys2Proof.Machine.execRelockAcquisitionTimeout s
  | .choCtlRelock requester => Sys2Proof.Machine.execChoCtlRelock requester s
  | .stagedFieldWrite requester offset value => Sys2Proof.Machine.execStagedFieldWrite requester offset value s
  | .quiesceCommandTimeout tag => Sys2Proof.Machine.execQuiesceCommandTimeout tag s
  | .copyCommit stripe => Sys2Proof.Machine.execCopyCommit stripe s
  | .checkpointComplete => Sys2Proof.Machine.execCheckpointComplete s
  | .refreshDue ch sub bank => Sys2Proof.Machine.execRefreshDue ch sub bank s
  | .mr4Read ch sub fast => Sys2Proof.Machine.execMr4Read ch sub fast s
  | .dqsOscillatorRead ch drifts => Sys2Proof.Machine.execDqsOscillatorRead ch drifts s
  | .laneRetrainSlice ch lane done rdly wdly reye weye => Sys2Proof.Machine.execLaneRetrainSlice ch lane done rdly wdly reye weye s
  | .dramRequest r ecc slots t => Sys2Proof.Machine.execDramRequest r ecc slots t s
  | .streamStarveTimeout ch t => Sys2Proof.Machine.execStreamStarveTimeout ch t s
  | .dramPowerDownEntry ch sub t => Sys2Proof.Machine.execDramPowerDownEntry ch sub t s
  | .selfRefreshEntry ch sre => Sys2Proof.Machine.execSelfRefreshEntry ch sre s
  | .selfRefreshExit ch armed t => Sys2Proof.Machine.execSelfRefreshExit ch armed t s
  | .patrolScrub ch line ecc last t => Sys2Proof.Machine.execPatrolScrub ch line ecc last t s
  | .sncProgram requester andow => Sys2Proof.Machine.execSncProgram requester andow s
  | .sncSectorErase requester => Sys2Proof.Machine.execSncSectorErase requester s
  | .sncBlockErase requester => Sys2Proof.Machine.execSncBlockErase requester s
  | .sncBlankCheck requester => Sys2Proof.Machine.execSncBlankCheck requester s
  | .sncOperationComplete verified => Sys2Proof.Machine.execSncOperationComplete verified s
  | .sncDeviceTimeout => Sys2Proof.Machine.execSncDeviceTimeout s
  | .sncXipDetachWrite requester value => Sys2Proof.Machine.execSncXipDetachWrite requester value s
  | .bootFlashInstructionFetch requester addr => Sys2Proof.Machine.execBootFlashInstructionFetch requester addr s
  | .bootFlashDataRead requester addr len => Sys2Proof.Machine.execBootFlashDataRead requester addr len s
  | .eventRingProgram => Sys2Proof.Machine.execEventRingProgram s
  | .tokenBucketRefill code => Sys2Proof.Machine.execTokenBucketRefill code s
  | .evrCursorHighWrite requester value => Sys2Proof.Machine.execEvrCursorHighWrite requester value s
  | .evrCmdNewest requester => Sys2Proof.Machine.execEvrCmdNewest requester s
  | .evrCmdOldest requester => Sys2Proof.Machine.execEvrCmdOldest requester s
  | .evrCmdNext requester => Sys2Proof.Machine.execEvrCmdNext requester s
  | .evrFetchComplete requester => Sys2Proof.Machine.execEvrFetchComplete requester s
  | .healthCopyToGecko => Sys2Proof.Machine.execHealthCopyToGecko s
  | .healthMinuteTick => Sys2Proof.Machine.execHealthMinuteTick s
  | .portSignalDetect port t => Sys2Proof.Machine.execPortSignalDetect port t s
  | .portTrainingComplete port t => Sys2Proof.Machine.execPortTrainingComplete port t s
  | .hello port group dev dimx dimy pport t => Sys2Proof.Machine.execHello port group dev dimx dimy pport t s
  | .miswiredHelloRetry port t => Sys2Proof.Machine.execMiswiredHelloRetry port t s
  | .auth1 port nonce prev t => Sys2Proof.Machine.execAuth1 port nonce prev t s
  | .auth2 port nonce tag t => Sys2Proof.Machine.execAuth2 port nonce tag t s
  | .auth3 port tag t => Sys2Proof.Machine.execAuth3 port tag t s
  | .delay rx reply t1 t2 t3 t4 t => Sys2Proof.Machine.execDelay rx reply t1 t2 t3 t4 t s
  | .delayProbeTimer port t => Sys2Proof.Machine.execDelayProbeTimer port t s
  | .bringupTimeout port t => Sys2Proof.Machine.execBringupTimeout port t s
  | .backoffExpiry port t => Sys2Proof.Machine.execBackoffExpiry port t s
  | .portSignalLoss port t => Sys2Proof.Machine.execPortSignalLoss port t s
  | .idle port ack => Sys2Proof.Machine.execIdle port ack s
  | .nak port seq t => Sys2Proof.Machine.execNak port seq t s
  | .frameCrcError port reserved => Sys2Proof.Machine.execFrameCrcError port reserved s
  | .sessionRekey port t => Sys2Proof.Machine.execSessionRekey port t s
  | .lsa rx dev serial up beat joined t => Sys2Proof.Machine.execLsa rx dev serial up beat joined t s
  | .lsaPeriodic t => Sys2Proof.Machine.execLsaPeriodic t s
  | .lsaExpiry dev t => Sys2Proof.Machine.execLsaExpiry dev t s
  | .rootDisplacement dev t => Sys2Proof.Machine.execRootDisplacement dev t s
  | .time rx root epoch frame switch hops sinceMs corr t => Sys2Proof.Machine.execTime rx root epoch frame switch hops sinceMs corr t s
  | .routedFrameForward rx type source dest flags tag payload => Sys2Proof.Machine.execRoutedFrameForward rx type source dest flags tag payload s
  | .pread rx source tag req => Sys2Proof.Machine.execPread rx source tag req s
  | .pdata rx tag data => Sys2Proof.Machine.execPdata rx tag data s
  | .pstat rx tag code blocks => Sys2Proof.Machine.execPstat rx tag code blocks s
  | .peerReadTimeout tag t => Sys2Proof.Machine.execPeerReadTimeout tag t s
  | .secHeClaim requester n alg outlen => Sys2Proof.Machine.execSecHeClaim requester n alg outlen s
  | .secHeDataWrite requester n value => Sys2Proof.Machine.execSecHeDataWrite requester n value s
  | .secHeFinal requester n tailb => Sys2Proof.Machine.execSecHeFinal requester n tailb s
  | .hashEngineDone n => Sys2Proof.Machine.execHashEngineDone n s
  | .secHeRelease requester n => Sys2Proof.Machine.execSecHeRelease requester n s
  | .secHeDigestLastRead requester n => Sys2Proof.Machine.execSecHeDigestLastRead requester n s
  | .secKeClaim requester => Sys2Proof.Machine.execSecKeClaim requester s
  | .keStartCmac requester => Sys2Proof.Machine.execKeStartCmac requester s
  | .keStartUnwrapXts requester => Sys2Proof.Machine.execKeStartUnwrapXts requester s
  | .keStartUnwrapAes requester => Sys2Proof.Machine.execKeStartUnwrapAes requester s
  | .secKeDataWrite requester value => Sys2Proof.Machine.execSecKeDataWrite requester value s
  | .keOperationComplete owner source => Sys2Proof.Machine.execKeOperationComplete owner source s
  | .secKeAbort requester => Sys2Proof.Machine.execSecKeAbort requester s
  | .secKeRelease requester => Sys2Proof.Machine.execSecKeRelease requester s
  | .secKsZero requester => Sys2Proof.Machine.execSecKsZero requester s
  | .secKsFill requester => Sys2Proof.Machine.execSecKsFill requester s
  | .secTrngDataRead requester => Sys2Proof.Machine.execSecTrngDataRead requester s
  | .securityAlarm kind engine => Sys2Proof.Machine.execSecurityAlarm kind engine s
  | .trngRecovery => Sys2Proof.Machine.execTrngRecovery s
  | .trngWaitTimeout => Sys2Proof.Machine.execTrngWaitTimeout s
  | .topLockLock requester => Sys2Proof.Machine.execTopLockLock requester s
  | .topLockWinro requester => Sys2Proof.Machine.execTopLockWinro requester s
  | .topErraddrValidClear requester => Sys2Proof.Machine.execTopErraddrValidClear requester s
  | .lowWordReadLatch requester offset => Sys2Proof.Machine.execLowWordReadLatch requester offset s
  | .rcRegisterRead requester offset => Sys2Proof.Machine.execRcRegisterRead requester offset s
  | .windowAccessInLowPower offset => Sys2Proof.Machine.execWindowAccessInLowPower offset s
  | .registerWrite requester offset dwords full value => Sys2Proof.Machine.execRegisterWrite requester offset dwords full value s
  | .pwrfailNDeassert t => Sys2Proof.Machine.execPwrfailNDeassert t s
  | .registerRead requester offset dwords full => Sys2Proof.Machine.execRegisterRead requester offset dwords full s
  | .holdupSelfTestDue t => Sys2Proof.Machine.execHoldupSelfTestDue t s
  | .setFeaturesAsynchronousEventConfig src mask => Sys2Proof.Machine.execSetFeaturesAsynchronousEventConfig src mask s
  | .setFeaturesTemperatureThreshold src sensor under kelvin => Sys2Proof.Machine.execSetFeaturesTemperatureThreshold src sensor under kelvin s
  | .deleteIoSubmissionQueue src qid => Sys2Proof.Machine.execDeleteIoSubmissionQueue src qid s
  | .deleteIoCompletionQueue src qid => Sys2Proof.Machine.execDeleteIoCompletionQueue src qid s

end Sys2Proof.Machine
end

