-- ==== Sys2Proof/Machine/Wire.lean ====
section
/-! DEFINITION. The standard structures a completion carries, as the bytes that go over the host link: multi-byte fields little-endian (R11).
Where a field stands is NVMe's layout, which the spec takes as given (PRESUMED, assumption 113). -/

namespace Sys2Proof.Machine

open Sys2Proof

/-- A structure of `size` bytes, from offset `at_` on: each field at its offset, in rising order, zeros between. -/
def lay (at_ : Nat) : List (Nat × Bytes) → Nat → Bytes
  | [], size => zeros (size - at_)
  | (o, b) :: r, size => zeros (o - at_) ++ b ++ lay (o + b.length) r size

/-- Fields of one width, one after the other from an offset on. -/
def fieldsFrom (o k : Nat) (l : List Nat) : Nat × Bytes := (o, l.flatMap (leBytes k))

/-- SMART / Health Information, 512 bytes. -/
def SmartLog.wire (l : SmartLog) : Bytes :=
  lay 0
    [(0, [byte l.critical]), (1, leBytes 2 l.composite), (3, [byte l.spare, byte l.threshold, byte l.used]),
     fieldsFrom 32 16 [l.unitsRead, l.unitsWritten, l.readCmds, l.writeCmds, l.busyMinutes, l.powerCycles, l.powerOnHours, l.unsafeShutdowns,
       l.mediaErrors, l.errorEntries],
     fieldsFrom 192 4 [l.warnMinutes, l.critMinutes], fieldsFrom 200 2 l.sensors, fieldsFrom 216 4 l.thermal] 512

/-- One zone descriptor, 64 bytes: a zone that needs sequential writes. -/
def ZoneDesc.wire (d : ZoneDesc) : Bytes :=
  lay 0 [(0, [2, byte (d.state * 16), byte d.attrs]), fieldsFrom 8 8 [d.zcap, d.zslba, d.wp]] 64

/-- Identify Namespace, 4,096 bytes, with the vendor bytes of R47. -/
def IdNs.wire (i : IdNs) : Bytes :=
  lay 0
    [fieldsFrom 0 8 [i.nsze, i.ncap, i.nuse], (25, [byte i.nlbaf, byte i.flbas]), (29, [byte i.dps]), fieldsFrom 34 2 [i.nawun, i.nawupf],
     (40, leBytes 2 i.nabsn), (100, leBytes 2 i.nvmSet), (3072, [byte i.clutchCode, byte i.levelSel]), (3076, leBytes 4 i.blocksPerConvZone)] 4096

/-- Identify Controller, 4,096 bytes: the fields the model holds. -/
def IdCtrl.wire (i : IdCtrl) : Bytes :=
  lay 0
    ([(88, leBytes 4 i.rtd3e), (256, leBytes 2 (if i.selfTest then 16 else 0)), (260, [byte i.frmw]), (263, [byte i.npss]),
      (316, leBytes 2 i.edstt), (516, leBytes 4 i.nn), fieldsFrom 526 2 [i.awun, i.awupf], (540, leBytes 4 i.mnan)]
      ++ (List.range i.enlat.length).map fun k => (2052 + 32 * k, leBytes 4 (i.enlat.getD k 0))) 4096

/-- The result list of the Device Self-test log, `n` entries of 28 bytes, from results of four numbers each: result, code, segment,
power-on hours. An entry not used has result Fh. -/
def testEntries : Nat → List Nat → Bytes
  | 0, _ => []
  | n + 1, res :: code :: seg :: hours :: r => lay 0 [(0, [byte (code * 16 + res), byte seg]), (4, leBytes 8 hours)] 28 ++ testEntries n r
  | n + 1, _ => lay 0 [(0, [0x0F])] 28 ++ testEntries n []

/-- The Device Self-test log, 564 bytes, from the numbers its completion carries: the running test's code, its completion in percent
and the results. -/
def selfTestWire (l : List Nat) : Bytes :=
  lay 0 [(0, [byte (l.getD 0 0), byte (l.getD 1 0)])] 4 ++ testEntries 20 (l.drop 2)

/-- Predictable Latency Per NVM Set, 512 bytes, from the numbers of `State.plmLog`. Of the estimates only the time has a value, in ms (R265);
those of reads and writes are 0. -/
def latencyWire (l : List Nat) : Bytes :=
  let g := fun i => l.getD i 0
  lay 0 [(0, [byte (g 0)]), fieldsFrom 32 8 [g 4, g 5, g 1, g 2, g 3], (144, leBytes 8 (g 6 / 1000000))] 512

/-- Predictable Latency Event Aggregate: the number of entries, then the sets. -/
def setEventsWire (l : List Nat) : Bytes := leBytes 8 l.length ++ l.flatMap (leBytes 2)

/-- NVM Set List, 4,096 bytes: the number of sets, then from byte 128 on an entry of 128 bytes each. The entry of a set not in use is all
zero. -/
def setsWire (l : List (Nat × Nat × Bool)) : Bytes :=
  lay 0 [(0, [byte l.length]), (128, l.flatMap fun e => lay 0 [(0, leBytes 2 (if e.2.2 then e.1 else 0))] 128)] 4096

/-- A health poll's answer from Critical Warning, Composite Temperature in kelvin, Available Spare, Percentage Drive Life Used and CSTS.RDY:
NVMe-MI's Controller Health Data Structure, 16 bytes, or its NVM Subsystem Health Data Structure, 8 bytes, whose warnings are inverted
and whose temperature is one byte in °C. -/
def healthWire (ctrl : Bool) (l : List Nat) : Bytes :=
  let g := fun i => l.getD i 0
  if ctrl then lay 0 [(2, leBytes 2 (g 4)), (4, leBytes 2 (g 1)), (6, [byte (g 3), byte (g 2), byte (g 0)])] 16
  else lay 0 [(1, [byte (255 - g 0), byteI ((g 1 : Int) - 273), byte (g 3)]), (4, leBytes 2 (g 4))] 8

/-- What goes over the link: data, then the tuples that MPTR takes, whose fields are big-endian as they stand in the clutch (R11, R75). -/
def Payload.wire : Payload → Bytes
  | .none => []
  | .bytes b => b
  | .dataMeta b m => b ++ m
  | .smart l => l.wire
  | .zones total l => lay 0 [(0, leBytes 8 total)] 64 ++ l.flatMap ZoneDesc.wire
  | .changedZones l => lay 0 [(0, leBytes 2 l.length), fieldsFrom 8 8 (l.take 511)] 4096
  | .ctrl i => i.wire
  | .ns i => i.wire
  | .sets l => setsWire l
  | .latency l => latencyWire l
  | .setEvents l => setEventsWire l
  | .selfTest l => selfTestWire l
  | .health c l => healthWire c l
  | .nums l => l.flatMap (leBytes 4)

end Sys2Proof.Machine
end

