-- ==== Sys2Proof/WellFormed.lean ====
section
/-! DEFINITION. Well-formed commands: every operand lies in the range its field or its place in the hardware has
(R11, R89, R114, R130, R203, R280, R315). The effect of a command does not use this check; ranges the spec makes the
part refuse are refused there. -/

namespace Sys2Proof

/-- Device command tags (R91). -/
def deviceTagCount : Nat := 2 ^ 18

/-- Requesters of the register fabric (R514, R518): cores 0 to 15, 0x20 the gecko, 0x30 the sideband, 0x40 PF0's window. -/
def busRequester (r : Nat) : Bool := decide (r < 16) || r == 0x20 || r == 0x30 || r == 0x40

def Src.wf (a : Src) : Bool :=
  decide (a.fn < 1024) && decide (a.qid < 2 ^ 16) && decide (a.cid < 2 ^ 16) && decide (a.fuse < 4) && decide (a.mptr < 2 ^ 64)

/-- The block count of a write is one-based here: 1 to 65,536. -/
def WriteArgs.wf (a : WriteArgs) : Bool :=
  decide (a.nsid < 2 ^ 32) && decide (a.slba < 2 ^ 64) && decide (1 ≤ a.nlb) && decide (a.nlb ≤ 2 ^ 16)
    && decide (a.dtype < 16) && decide (a.dspec < 2 ^ 16) && decide (a.keyTag < 2 ^ 16) && decide (a.prinfo < 16)
    && decide (a.appTag < 2 ^ 16) && decide (a.appMask < 2 ^ 16)

def ReadArgs.wf (a : ReadArgs) : Bool :=
  decide (a.nsid < 2 ^ 32) && decide (a.slba < 2 ^ 64) && decide (1 ≤ a.nlb) && decide (a.nlb ≤ 2 ^ 16)
    && decide (a.keyTag < 2 ^ 16) && decide (a.prinfo < 16) && decide (a.appTag < 2 ^ 16) && decide (a.appMask < 2 ^ 16)

def VpwArgs.wf (a : VpwArgs) : Bool :=
  decide (a.nsid < 2 ^ 32) && decide (a.zslba < 2 ^ 64) && decide (a.llen < 2 ^ 32) && decide (a.slen < 2 ^ 32)
    && decide (a.fmt < 16) && decide (a.check < 2 ^ 32) && decide (a.dtype < 16) && decide (a.dspec < 2 ^ 16)
    && decide (a.keyTag < 2 ^ 16) && decide (a.prinfo < 16)

def NsArgs.wf (a : NsArgs) : Bool :=
  decide (a.csi < 256) && decide (a.nsze < 2 ^ 64) && decide (a.fmt < 64) && decide (a.dps < 256)
    && decide (a.clutchCode < 256) && decide (a.levelSel < 256)

def PoolDesc.wf (a : PoolDesc) : Bool :=
  decide (a.qp < 2 ^ 16) && decide (a.inflight < 2 ^ 32) && decide (a.keys < 2 ^ 16) && decide (a.cls < 256)
    && decide (a.flags < 256) && decide (a.openq < 2 ^ 16) && decide (a.activeq < 2 ^ 16) && decide (a.nsq < 2 ^ 16)
    && decide (a.buf < 2 ^ 32) && decide (a.stripes < 2 ^ 32) && decide (a.g < 2 ^ 32) && decide (a.c < 2 ^ 32)
    && decide (a.weight < 2 ^ 16) && decide (a.burst < 2 ^ 32) && decide (a.peerTag < 2 ^ 32) && decide (a.mask < 2 ^ 32)

def PeerReq.wf (a : PeerReq) : Bool :=
  decide (a.dev < 1024) && decide (a.kind < 256) && decide (a.coeff < 256) && decide (a.nsid < 2 ^ 32)
    && decide (a.addr < 2 ^ 64) && decide (a.gen < 2 ^ 64) && decide (a.off < 2 ^ 16) && decide (a.count < 2 ^ 16)
    && decide (a.keyTag < 2 ^ 16) && decide (a.fn < 2 ^ 16) && decide (a.peerTag < 2 ^ 32)

def Rx.wf (a : Rx) : Bool := decide (a.port < 4) && decide (a.seq < 2 ^ 48) && decide (a.ack < 2 ^ 32)

def Dimm.wf (a : Dimm) : Bool := decide (a.width < 2) && decide (a.dens < 8) && decide (a.lanes.length ≤ 10)

def Found.wf (a : Found) : Bool :=
  a.dimms.all Dimm.wf && a.dies.all (fun d : Nat × Nat × Nat => decide (d.1 < 64) && decide (d.2.2 < 4))
    && a.efts.all (fun e : Nat × Nat => decide (e.1 < 8) && decide (e.2 < 32))
    && a.badPages.all (fun e : Nat × Nat => decide (e.1 < 64) && decide (e.2 < 32))

def DramArgs.wf (a : DramArgs) : Bool :=
  decide (a.addr < 2 ^ 36) && decide (a.group < 8) && decide (a.bank < 4)

def EccSeen.wf (a : EccSeen) : Bool := decide (a.bad ≤ 80) && decide (a.region < 7)

/-- Every operand of a command is in its range. -/
def Instr.wf : Instr → Bool
  | .write src w => src.wf && w.wf
  | .read src r => src.wf && r.wf
  | .compare src r _ => src.wf && r.wf
  | .verify src r => src.wf && r.wf
  | .writeZeroes src w => src.wf && w.wf
  | .datasetManagement src nsid _ _ => src.wf && decide (nsid < 2 ^ 32)
  | .zoneAppend src w => src.wf && w.wf
  | .zoneOpen src nsid slba _ => src.wf && decide (nsid < 2 ^ 32) && decide (slba < 2 ^ 64)
  | .zoneClose src nsid slba _ => src.wf && decide (nsid < 2 ^ 32) && decide (slba < 2 ^ 64)
  | .zoneFinish src nsid slba _ => src.wf && decide (nsid < 2 ^ 32) && decide (slba < 2 ^ 64)
  | .zoneReset src nsid slba _ => src.wf && decide (nsid < 2 ^ 32) && decide (slba < 2 ^ 64)
  | .reportZones src nsid slba count => src.wf && decide (nsid < 2 ^ 32) && decide (slba < 2 ^ 64) && decide (count < 2 ^ 32)
  | .flush src nsid => src.wf && decide (nsid < 2 ^ 32)
  | .abort src sqid target => src.wf && decide (sqid < 2 ^ 16) && decide (target < 2 ^ 16)
  | .orderedWrite src w => src.wf && w.wf
  | .locatorAppend src w => src.wf && w.wf
  | .readByLocator src nsid loc gen off count keyTag prinfo => src.wf && decide (nsid < 2 ^ 32) && decide (loc < 2 ^ 64) && decide (gen < 2 ^ 64) && decide (off < 2 ^ 32) && decide (count < 2 ^ 32) && decide (keyTag < 2 ^ 16) && decide (prinfo < 16)
  | .verifiedPrecompressedWrite src v => src.wf && v.wf
  | .reconstruct src nsid zslba nlb dtype dspec keyTag listLen sources => src.wf && decide (nsid < 2 ^ 32) && decide (zslba < 2 ^ 64) && decide (nlb < 2 ^ 32) && decide (dtype < 16) && decide (dspec < 2 ^ 16) && decide (keyTag < 2 ^ 16) && decide (listLen < 2 ^ 16) && sources.all PeerReq.wf
  | .digestRange src nsid slba count alg keyTag => src.wf && decide (nsid < 2 ^ 32) && decide (slba < 2 ^ 64) && decide (count < 2 ^ 32) && decide (alg < 256) && decide (keyTag < 2 ^ 16)
  | .namespaceManagementCreate src n => src.wf && n.wf
  | .namespaceManagementDelete src nsid => src.wf && decide (nsid < 2 ^ 32)
  | .namespaceAttach src nsid fn => src.wf && decide (nsid < 2 ^ 32) && decide (fn < 1024)
  | .namespaceDetach src nsid fn => src.wf && decide (nsid < 2 ^ 32) && decide (fn < 1024)
  | .formatNvm src nsid fmt dps _ ses => src.wf && decide (nsid < 2 ^ 32) && decide (fmt < 16) && decide (dps < 256) && decide (ses < 8)
  | .sanitizeCryptoErase src _ _ => src.wf
  | .sanitizeBlockErase src _ _ => src.wf
  | .sanitizeExitFailureMode src => src.wf
  | .sanitizeOverwrite src => src.wf
  | .sanitizeComplete _ => true
  | .setFeaturesNumberOfQueues src nsq ncq => src.wf && decide (nsq < 2 ^ 16 + 1) && decide (ncq < 2 ^ 16 + 1)
  | .setFeaturesPlmConfig src set _ => src.wf && decide (set < 2 ^ 16)
  | .setFeaturesPlmWindow src => src.wf
  | .setFeaturesHctm src tmt1 tmt2 => src.wf && decide (tmt1 < 2 ^ 16) && decide (tmt2 < 2 ^ 16)
  | .setFeaturesPowerManagement src ps => src.wf && decide (ps < 32)
  | .setFeaturesZonePhysicalStatus src => src.wf
  | .getFeaturesZonePhysicalStatus src nsid zone => src.wf && decide (nsid < 2 ^ 32) && decide (zone < 2 ^ 32)
  | .getFeaturesPlmWindow src set => src.wf && decide (set < 2 ^ 16)
  | .getLogPageSmart src _ => src.wf
  | .getLogPageLyskinHealth src _ => src.wf
  | .getLogPageChorusSchedule src _ => src.wf
  | .getLogPageAutotomyRecord src _ => src.wf
  | .getLogPagePoolUsage src _ => src.wf
  | .getLogPageEventRecords src _ offset length => src.wf && decide (offset < 2 ^ 64) && decide (length < 2 ^ 32)
  | .getLogPagePredictableLatency src set _ => src.wf && decide (set < 2 ^ 16)
  | .getLogPagePlmEventAggregate src _ => src.wf
  | .getLogPageChangedZoneList src _ nsid => src.wf && decide (nsid < 2 ^ 32)
  | .getLogPageDeviceSelfTest src _ => src.wf
  | .identifyController src => src.wf
  | .identifyNamespace src nsid => src.wf && decide (nsid < 2 ^ 32)
  | .identifyNvmSetList src => src.wf
  | .createIoSubmissionQueue src qid size cqid prio => src.wf && decide (prio < 4) && decide (qid < 2 ^ 16) && decide (1 ≤ size) && decide (size < 65537) && decide (cqid < 2 ^ 16)
  | .createIoCompletionQueue src qid size => src.wf && decide (qid < 2 ^ 16) && decide (1 ≤ size) && decide (size < 65537)
  | .deviceSelfTestShort src => src.wf
  | .deviceSelfTestExtended src => src.wf
  | .deviceSelfTestAbort src => src.wf
  | .selfTestItem pond n _ _ => decide (pond < 8) && decide (n < 32)
  | .deviceSelfTestComplete failed => decide (failed < 16)
  | .firmwareImageDownload src off _ _ => src.wf && decide (off < 2 ^ 32)
  | .firmwareCommitStore src slot => src.wf && decide (slot < 8)
  | .firmwareCommitStoreAndSetNext src slot => src.wf && decide (slot < 8)
  | .firmwareCommitActivateExisting src slot => src.wf && decide (slot < 8)
  | .firmwareCommitActivateNow src slot => src.wf && decide (slot < 8)
  | .firmwareActivation _ => true
  | .activationTimeout => true
  | .asynchronousEventRequest src => src.wf
  | .securityProtocolList src => src.wf
  | .keyInjection src tag _ => src.wf && decide (tag < 2 ^ 16)
  | .keyClear src tag => src.wf && decide (tag < 2 ^ 16)
  | .identity src len => src.wf && decide (len < 2 ^ 32)
  | .attestRequest src _ _ => src.wf
  | .attestReport src len => src.wf && decide (len < 2 ^ 32)
  | .reportSignatureComplete _ _ => true
  | .attestReportDiscard fn _ => decide (fn < 1024)
  | .hashOpen src _ _ => src.wf
  | .hashFeed src _ _ => src.wf
  | .hashFinish src len => src.wf && decide (len < 2 ^ 32)
  | .hashRelease src len => src.wf && decide (len < 2 ^ 32)
  | .hashSessionTimeout fn _ => decide (fn < 1024)
  | .lifecycleChallenge src len => src.wf && decide (len < 2 ^ 32)
  | .lifecycleAdvance src _ => src.wf
  | .lifecycleProvision _ _ media _ _ _ _ => decide (media < 256)
  | .hostKek src _ => src.wf
  | .settingsAdvance src _ => src.wf
  | .poolManageAssign src fn len d => src.wf && decide (fn < 1024) && decide (len < 2 ^ 32) && d.wf
  | .poolManageChange src fn len d => src.wf && decide (fn < 1024) && decide (len < 2 ^ 32) && d.wf
  | .poolManageRelease src fn len => src.wf && decide (fn < 1024) && decide (len < 2 ^ 32)
  | .profileSelect src profile => src.wf && decide (profile < 256)
  | .profileSwitchComplete => true
  | .chorusControlApply src _ => src.wf
  | .chorusControlRelock src len => src.wf && decide (len < 2 ^ 32)
  | .groupJoin src group dev len _ _ => src.wf && decide (group < 2 ^ 16) && decide (dev < 1024) && decide (len < 2 ^ 32)
  | .groupJoinTimeout _ => true
  | .groupLeave src group dev _ => src.wf && decide (group < 2 ^ 16) && decide (dev < 1024)
  | .groupStatusDevice src numd => src.wf && decide (numd < 2 ^ 32)
  | .groupStatusDomain src numd => src.wf && decide (numd < 2 ^ 32)
  | .subsystemHealthStatusPoll => true
  | .controllerHealthStatusPoll => true
  | .readNvmeMiDataStructure => true
  | .readEventRing nmd0 => decide (nmd0 < 2 ^ 32)
  | .nvmeMiOtherCommand => true
  | .sqDoorbellWrite fn qid entries => decide (fn < 1024) && decide (qid < 2 ^ 16) && decide (entries < 2 ^ 16)
  | .commandFetch => true
  | .commandStart tag => decide (tag < deviceTagCount)
  | .writeAdmission tag => decide (tag < deviceTagCount)
  | .placementPoint tag => decide (tag < deviceTagCount)
  | .ccEnSet fn ams => decide (fn < 1024) && decide (ams < 8)
  | .ccEnClearPf0 => true
  | .vfReset fn => decide (fn < 1024)
  | .pf0Flr => true
  | .functionResetComplete fn => decide (fn < 1024)
  | .mediaSlotReload nsid => decide (nsid < 2 ^ 32)
  | .shutdownNotification fn => decide (fn < 1024)
  | .configurationRequest _ => true
  | .powerOn _ _ _ => true
  | .perstNAssert _ => true
  | .perstNDeassert _ _ => true
  | .startStageComplete found _ => found.wf
  | .chorusWaitEnd _ => true
  | .startDecision _ => true
  | .startWatchdog _ => true
  | .holdupSelfTestStart _ _ => true
  | .holdupSelfTestEnd _ _ => true
  | .pwrfailNAssert _ _ => true
  | .flushComplete _ _ => true
  | .pwrfailNRecovery _ => true
  | .pwrfailNStuck _ => true
  | .vddAonLoss _ => true
  | .tempSample n _ _ _ => decide (n < 24)
  | .thermalStep _ => true
  | .holdEntry => true
  | .stopClear _ => true
  | .thermalTrip => true
  | .powerStateEntry woken => woken.all fun k => decide (k < 7)
  | .autonomousPowerStateTransition ps => decide (ps < 32)
  | .wakeEvent _ _ _ => true
  | .timerWake => true
  | .devWakeNEdge _ _ _ => true
  | .devWakeStormEnd _ => true
  | .clkreqNWake => true
  | .prfChange _ => true
  | .clkOpReqWrite requester value => busRequester requester && decide (value < 2 ^ 32)
  | .dvfsStep => true
  | .dvfsRailSettled => true
  | .clkAvsCmd requester value _ => busRequester requester && decide (value < 2 ^ 32)
  | .avsCurrentRead current => decide (current < 2 ^ 16)
  | .avsRegulatorFault => true
  | .avsRetry _ => true
  | .vddCoreSag => true
  | .pondGate pond => decide (pond < 8)
  | .pondGateDrained pond => decide (pond < 8)
  | .pondUngate pond => decide (pond < 8)
  | .eftStealPoll pond n => decide (pond < 8) && decide (n < 32)
  | .writeClutchItem pond n _ => decide (pond < 8) && decide (n < 32)
  | .hostReadCompletion pond n off _ => decide (pond < 8) && decide (n < 32) && decide (off < 2 ^ 32)
  | .readClutchItem pond n _ => decide (pond < 8) && decide (n < 32)
  | .dieDataLanding pond n _ => decide (pond < 8) && decide (n < 32)
  | .overflowBufferReturn pond n => decide (pond < 8) && decide (n < 32)
  | .digestFeed pond n _ => decide (pond < 8) && decide (n < 32)
  | .digestAbsorb tag => decide (tag < deviceTagCount)
  | .paritySlice pond n _ => decide (pond < 8) && decide (n < 32)
  | .repairTerm pond n coeff _ => decide (pond < 8) && decide (n < 32) && decide (coeff < 256)
  | .eftWatchdogExpiry pond n => decide (pond < 8) && decide (n < 32)
  | .eftFenceCmd requester value => busRequester requester && decide (value < 2 ^ 32)
  | .dieOpLaunch ch _ => decide (ch < 64)
  | .erasedCheckComplete _ bits => decide (bits < 2 ^ 17)
  | .statusPoll _ _ _ _ => true
  | .dieReadComplete _ _ _ _ _ => true
  | .programComplete _ _ => true
  | .eraseComplete _ _ => true
  | .operationTimeout _ _ => true
  | .hostReadOnBusyDie _ _ => true
  | .dieSuspendComplete _ _ => true
  | .channelHoldTimeout ch _ => decide (ch < 64)
  | .stripeRebuildRead _ _ => true
  | .buscrcEvent _ _ => true
  | .trainingCheck ch _ _ => decide (ch < 64)
  | .retrainingComplete ch _ _ _ => decide (ch < 64)
  | .rebuildMember => true
  | .callBoundary => true
  | .turnClosing choir _ => decide (choir < 4)
  | .chbInBeat _ _ => true
  | .beatTimeout _ => true
  | .holdoverExpiry _ => true
  | .driftExpiry _ => true
  | .noisyClear _ => true
  | .relockAcquisitionTimeout => true
  | .choCtlRelock requester => busRequester requester
  | .stagedFieldWrite requester offset value => busRequester requester && decide (offset < 2 ^ 26) && decide (value < 2 ^ 32)
  | .quiesceCommandTimeout tag => decide (tag < deviceTagCount)
  | .copyCommit _ => true
  | .checkpointComplete => true
  | .refreshDue ch sub bank => decide (ch < 4) && decide (sub < 2) && decide (bank < 4)
  | .mr4Read ch sub _ => decide (ch < 4) && decide (sub < 2)
  | .dqsOscillatorRead ch _ => decide (ch < 4)
  | .laneRetrainSlice ch lane _ _ _ _ _ => decide (ch < 4) && decide (lane < 10)
  | .dramRequest r ecc _ _ => r.wf && ecc.wf
  | .streamStarveTimeout ch _ => decide (ch < 4)
  | .dramPowerDownEntry ch sub _ => decide (ch < 4) && decide (sub < 2)
  | .selfRefreshEntry ch _ => decide (ch < 4)
  | .selfRefreshExit ch _ _ => decide (ch < 4)
  | .patrolScrub ch line ecc _ _ => decide (ch < 4) && decide (line < 2 ^ 32) && ecc.wf
  | .sncProgram requester _ => busRequester requester
  | .sncSectorErase requester => busRequester requester
  | .sncBlockErase requester => busRequester requester
  | .sncBlankCheck requester => busRequester requester
  | .sncOperationComplete _ => true
  | .sncDeviceTimeout => true
  | .sncXipDetachWrite requester value => busRequester requester && decide (value < 2 ^ 32)
  | .bootFlashInstructionFetch requester addr => busRequester requester && decide (addr < 2 ^ 28)
  | .bootFlashDataRead requester addr len => busRequester requester && decide (addr < 2 ^ 28) && decide (len < 2 ^ 32)
  | .eventRingProgram => true
  | .tokenBucketRefill code => decide (code < 2 ^ 16)
  | .evrCursorHighWrite requester value => busRequester requester && decide (value < 2 ^ 32)
  | .evrCmdNewest requester => busRequester requester
  | .evrCmdOldest requester => busRequester requester
  | .evrCmdNext requester => busRequester requester
  | .evrFetchComplete requester => busRequester requester
  | .healthCopyToGecko => true
  | .healthMinuteTick => true
  | .portSignalDetect port _ => decide (port < 4)
  | .portTrainingComplete port _ => decide (port < 4)
  | .hello port group dev dimx dimy pport _ => decide (port < 4) && decide (group < 2 ^ 16) && decide (dev < 1024) && decide (dimx < 33) && decide (dimy < 33) && decide (pport < 4)
  | .miswiredHelloRetry port _ => decide (port < 4)
  | .auth1 port _ _ _ => decide (port < 4)
  | .auth2 port _ _ _ => decide (port < 4)
  | .auth3 port _ _ => decide (port < 4)
  | .delay rx _ _ _ _ _ _ => rx.wf
  | .delayProbeTimer port _ => decide (port < 4)
  | .bringupTimeout port _ => decide (port < 4)
  | .backoffExpiry port _ => decide (port < 4)
  | .portSignalLoss port _ => decide (port < 4)
  | .idle port ack => decide (port < 4) && decide (ack < 2 ^ 32)
  | .nak port seq _ => decide (port < 4) && decide (seq < 2 ^ 48)
  | .frameCrcError port _ => decide (port < 4)
  | .sessionRekey port _ => decide (port < 4)
  | .lsa rx dev _ up _ _ _ => rx.wf && decide (dev < 1024) && decide (up < 16)
  | .lsaPeriodic _ => true
  | .lsaExpiry dev _ => decide (dev < 1024)
  | .rootDisplacement dev _ => decide (dev < 1024)
  | .time rx root epoch frame switch hops _ _ _ => rx.wf && decide (root < 1024) && decide (epoch < 2 ^ 64) && decide (frame < 2 ^ 64) && decide (switch < 2 ^ 32) && decide (hops < 256)
  | .routedFrameForward rx type source dest flags tag _ => rx.wf && decide (type < 256) && decide (source < 1024) && decide (dest < 1024) && decide (flags < 256) && decide (tag < 2 ^ 16)
  | .pread rx source tag req => rx.wf && decide (source < 1024) && decide (tag < 2 ^ 16) && req.wf
  | .pdata rx tag _ => rx.wf && decide (tag < 2 ^ 16)
  | .pstat rx tag code blocks => rx.wf && decide (tag < 2 ^ 16) && decide (code < 2 ^ 16) && decide (blocks < 2 ^ 16)
  | .peerReadTimeout tag _ => decide (tag < 2 ^ 16)
  | .secHeClaim requester n alg outlen => busRequester requester && decide (n < 8) && decide (alg < 256) && decide (outlen < 2 ^ 32)
  | .secHeDataWrite requester n value => busRequester requester && decide (n < 8) && decide (value < 2 ^ 32)
  | .secHeFinal requester n tailb => busRequester requester && decide (n < 8) && decide (tailb < 4)
  | .hashEngineDone n => decide (n < 8)
  | .secHeRelease requester n => busRequester requester && decide (n < 8)
  | .secHeDigestLastRead requester n => busRequester requester && decide (n < 8)
  | .secKeClaim requester => busRequester requester
  | .keStartCmac requester => busRequester requester
  | .keStartUnwrapXts requester => busRequester requester
  | .keStartUnwrapAes requester => busRequester requester
  | .secKeDataWrite requester value => busRequester requester && decide (value < 2 ^ 32)
  | .keOperationComplete owner source => decide (owner < 2 ^ 16) && decide (source < 256)
  | .secKeAbort requester => busRequester requester
  | .secKeRelease requester => busRequester requester
  | .secKsZero requester => busRequester requester
  | .secKsFill requester => busRequester requester
  | .secTrngDataRead requester => busRequester requester
  | .securityAlarm kind engine => decide (kind < 5) && decide (engine < 9)
  | .trngRecovery => true
  | .trngWaitTimeout => true
  | .topLockLock requester => busRequester requester
  | .topLockWinro requester => busRequester requester
  | .topErraddrValidClear requester => busRequester requester
  | .lowWordReadLatch requester offset => busRequester requester && decide (offset < 2 ^ 26)
  | .rcRegisterRead requester offset => busRequester requester && decide (offset < 2 ^ 26)
  | .windowAccessInLowPower offset => decide (offset < 2 ^ 26)
  | .registerWrite requester offset dwords _ value => busRequester requester && decide (offset < 2 ^ 26) && decide (dwords < 2 ^ 10) && decide (value < 2 ^ 64)
  | .pwrfailNDeassert _ => true
  | .registerRead requester offset dwords _ => busRequester requester && decide (offset < 2 ^ 26) && decide (dwords < 2 ^ 10)
  | .holdupSelfTestDue _ => true
  | .setFeaturesAsynchronousEventConfig src mask => src.wf && decide (mask < 2 ^ 32)
  | .setFeaturesTemperatureThreshold src sensor _ kelvin => src.wf && decide (sensor < 16) && decide (kelvin < 2 ^ 16)
  | .deleteIoSubmissionQueue src qid => src.wf && decide (qid < 2 ^ 16)
  | .deleteIoCompletionQueue src qid => src.wf && decide (qid < 2 ^ 16)

end Sys2Proof
end

