-- ==== Sys2Proof/Safety.lean ====
section
/-! DEFINITION. The terms claims are stated in: what a result answers, when the front end takes a host command, and the canonical
form of the state's tables. -/

namespace Sys2Proof.Machine

open Sys2Proof

/-! ## Results -/

/-- A result is a next state, and that state has a property. -/
def Next (r : Result) (P : State → Prop) : Prop := ∃ t, r = .next t ∧ P t

/-- A safe run: every step answers a next state, `n` steps long. -/
def State.safeFor : Nat → State → Prop
  | 0, _ => True
  | n + 1, s => Next (step s) (State.safeFor n)

/-! ## Host commands the front end takes -/

/-- The front end takes the command: its function and queue exist, nothing holds or refuses it, and FUSE and every reserved field are 0
(R89, R92, R114). -/
def State.takes (s : State) (src : Src) (cls : Class) : Bool :=
  decide (src.fn < fnCount) &&
  match (s.fn src.fn).sq src.qid with
  | none => false
  | some q => decide (s.gate src q cls = .take) && (srcBad src cls).isNone

/-- The state with the command's entry taken. -/
def State.entered (s : State) (src : Src) : State :=
  match (s.fn src.fn).sq src.qid with
  | none => s
  | some q => (s.takeEntry src q).2

/-- The tag and the queue position the command takes. -/
def State.entryTag (s : State) (src : Src) : Nat :=
  match (s.fn src.fn).sq src.qid with
  | none => 0
  | some q => (s.takeEntry src q).1
def State.entryPos (s : State) (src : Src) : Nat := (((s.fn src.fn).sq src.qid).map (·.nextPos)).getD 0

/-- The queue of the command, as it stood. -/
def State.entryQueue (s : State) (src : Src) : Sq := ((s.fn src.fn).sq src.qid).getD (Sq.new 0 0 0)

/-- The completion of a command. -/
def cqeOf (src : Src) (st : Status) (dw0 dw1 : Nat) (data : Payload) : Cqe :=
  ⟨src.fn, src.qid, src.cid, st, dw0, dw1, data, st.dnr⟩

/-- The command of a state completed in this step, and nothing else completed. -/
def State.completes (t s : State) (src : Src) (st : Status) (dw0 dw1 : Nat) (data : Payload) : Prop :=
  t.cqes = cqeOf src st dw0 dw1 data :: s.cqes

/-! ## Accesses that reach their register -/

/-- The requester and the power let an access through: for the host, a window, and the part not asleep (R514, R515, R521). -/
def State.winOpen (s : State) (r : Nat) : Bool :=
  requesterOk r && s.pwr.on && (r ≠ reqPcie || (s.hasWindow && !s.asleep))

/-- A read reaches its register: the offset is mapped and its block not dark (R17, R518). -/
def State.readable (s : State) (r off : Nat) : Bool := s.winOpen r && !unmapped off && !s.dark off

/-- A write reaches its register: besides, the requester may write it, and the window is not read-only (R522, R523). -/
def State.writable (s : State) (r off : Nat) : Bool :=
  s.readable r off && !deniedTo r off &&
  !(r = reqPcie && s.flag Fd.TOP_LOCK_WINRO && off ≠ Reg.TOP_ERR && off ≠ Reg.TOP_ERRADDR)

/-! ## What stays -/

/-- Every byte of the boot flash and of the OTP, the two addressed memories the commands reach. -/
def State.sameBytes (s t : State) : Prop := (∀ a, t.flashGet a = s.flashGet a) ∧ ∀ a, t.otpGet a = s.otpGet a

/-- Every register word is as before, but for those an address test names. -/
def State.sameWords (s t : State) (but : Nat → Prop) : Prop := ∀ a, ¬ but a → t.word a = s.word a

/-! ## Canonical tables -/

/-- The register file, the boot flash and the OTP stand in canonical form. -/
def State.canonical (s : State) : Prop :=
  tblWf regReset s.regs = true ∧ tblWf blankByte s.snc.flash = true ∧ tblWf otpBlank s.sec.otp = true

end Sys2Proof.Machine
end

