-- ==== Sys2Proof/Certificates/Slice0/Obligations.lean ====
section
/-! DEFINITION. The statements for the provers. -/

open Sys2Proof Sys2Proof.Machine

namespace Sys2Proof.Machine

/-- A command was queued: it is the last of the outstanding commands, not started, and nothing completed. -/
def State.queues (t s : State) (src : Src) (k : Kind) (nsid slba nlb : Nat) : Prop :=
  t.cqes = s.cqes ∧ ∃ c, t.cmds = s.cmds ++ [c] ∧ c.tag = s.entryTag src ∧ c.pos = s.entryPos src ∧ c.fn = src.fn ∧
    c.qid = src.qid ∧ c.cid = src.cid ∧ c.kind = k ∧ c.nsid = nsid ∧ c.slba = slba ∧ c.nlb = nlb ∧ c.started = false ∧
    c.admitted = false

/-- MPTR as a vendor command on the namespace may have it: 0 unless its tuples travel in a separate buffer (R114). -/
def mptrFits (src : Src) (n : Ns) : Prop := src.mptr = 0 ∨ (n.fmt ≠ 0 ∧ n.extended = false)

/-- A command that takes effect in its own step: nothing holds it back once it stands among the outstanding ones (R94). -/
def State.startsNow (s : State) (src : Src) (k : Kind) (nsid slba nlb : Nat) : Prop :=
  let c := Cmd.new (s.entryTag src) (s.entryPos src) src k nsid slba nlb
  ((s.entered src).addCmd c).waits c = false


/-- Registers whose writes do more than their access codes say. -/
def actsOnWrite (off : Nat) : Bool :=
  off = Reg.TOP_ERRADDR || (decide (Reg.GK_TDCFG 0 ≤ off) && decide (off ≤ Reg.GK_TDCFG 7)) || off = Reg.GK_THCFG || off = Reg.CLK_OP ||
  off = Reg.CLK_AVS_CMD || off = Reg.EFT_FENCE_CMD || !(stagedOf off 0).isEmpty || off = Reg.DZL_CFG || (decide (0x2000000 ≤ off) && decide (off < 0x2400000)) ||
  off = Reg.SNC_OP || off = Reg.EVR_CMD || off = Reg.EVR_CURSOR + 4 || stuckBits off ≠ 0

/-- The bits of a field in a word. -/
def FieldDesc.get (f : FieldDesc) (w : Nat) : Nat := getBits w (f.lsb + f.len - 1) f.lsb

/-- The words a noted access error changes. -/
def errorWord (a : Nat) : Prop := a = Reg.TOP_ERR ∨ a = Reg.TOP_ERRADDR ∨ a = Reg.TOP_ERRCNT


end Sys2Proof.Machine

/-! ## I/O commands -/

/-- R58, R79, R96, R100: a write-class command that passes its checks is queued as its own kind, with its range; an append's, Ordered
Write's and Locator Append's too. Nothing completes yet. R81, R118: a Verified Precompressed Write that passes the checks that need no
decoding is queued with the body's first SLEN bytes; each of those checks, in their order, completes with its own status. -/
def Obligations.WriteCommandsAreQueued : Prop :=
  (∀ (s : State) (src : Src) (w : WriteArgs) (n : Ns),
    s.takes src .ioWrite = true → (s.entered src).nsFor src.fn w.nsid = some n →
    (s.entered src).writeBad n src.fn w = none → mptrFits src n →
    Next (exec (.write src w) s) (fun t => t.queues s src .write w.nsid w.slba w.nlb) ∧
    Next (exec (.writeZeroes src w) s) (fun t => t.queues s src .writeZeroes w.nsid w.slba w.nlb) ∧
    Next (exec (.orderedWrite src w) s) (fun t => t.queues s src .orderedWrite w.nsid w.slba w.nlb ∧
      ∃ q, (t.fn src.fn).sq src.qid = some q ∧ q.winFrom = s.entryPos src + 1) ∧
    (n.zoned = true → w.slba % zoneBlocks = 0 →
      Next (exec (.zoneAppend src w) s) (fun t => t.queues s src .append w.nsid w.slba w.nlb) ∧
      (w.nlb ≤ n.clutch → Next (exec (.locatorAppend src w) s) (fun t => t.queues s src .locAppend w.nsid w.slba w.nlb)))) ∧
  (∀ (s : State) (src : Src) (v : VpwArgs) (n : Ns),
    s.takes src .ioWrite = true → (s.entered src).nsFor src.fn v.nsid = some n → n.zoned = true →
    hintBad v.dtype v.dspec = false → v.zslba % zoneBlocks = 0 → v.zslba < n.nsze → (s.entered src).keyTagBad n src.fn v.keyTag = false →
    mptrFits src n →
    (v.llen = 0 ∨ n.clutch < v.llen ∨ v.slen = 0 ∨ n.clutch * 4096 < v.slen ∨ 1 < v.fmt →
      Next (exec (.verifiedPrecompressedWrite src v) s) (fun t => t.completes s src .invalidField 0 0 .none)) ∧
    (0 < v.llen → v.llen ≤ n.clutch → 0 < v.slen → v.slen ≤ n.clutch * 4096 → v.fmt ≤ 1 →
      if v.fmt = 1 ∧ v.slen ≠ v.llen * 4096 then
        Next (exec (.verifiedPrecompressedWrite src v) s) (fun t => t.completes s src .lengthMismatch 0 0 .none)
      else if v.listed < v.slen then
        Next (exec (.verifiedPrecompressedWrite src v) s) (fun t => t.completes s src .dataSglLengthInvalid 0 0 .none)
      else
        Next (exec (.verifiedPrecompressedWrite src v) s) (fun t => t.queues s src .vpw v.nsid v.zslba v.llen ∧
          ∃ c ∈ t.cmds, c.tag = s.entryTag src ∧ c.data = v.body.take v.slen ∧ c.slen = v.slen ∧ c.fmt = v.fmt)))

/-- R80, R99, R122, R124: the read class. A Read, Compare or Verify that passes its checks is queued as itself; a Read by Locator whose zone
has taken another generation completes with Locator Stale, else, its other checks passed, is queued on the locator's zone; a Digest Range of
1 to 2^24 blocks inside the namespace is queued. R46, R103, R310: Dataset Management is queued, as a Deallocate only in a conventional
namespace; a Flush of a namespace the function has, or of all of them, is queued with the clutches of its function that are still in the
buffer; a Reconstruct whose sources and target pass their checks is queued with one peer read for each source. -/
def Obligations.ReadsAndOtherIoAreQueued : Prop :=
  (∀ (s : State) (src : Src) (n : Ns) (nsid : Nat),
    s.takes src .ioRead = true → (s.entered src).nsFor src.fn nsid = some n → mptrFits src n →
    (∀ (r : ReadArgs) (host : Bytes), r.nsid = nsid → (s.entered src).readBad n src.fn r.slba r.nlb r.keyTag = none →
      Next (exec (.read src r) s) (fun t => t.queues s src .read nsid r.slba r.nlb) ∧
      Next (exec (.verify src r) s) (fun t => t.queues s src .verify nsid r.slba r.nlb) ∧
      Next (exec (.compare src r host) s) (fun t => t.queues s src .compare nsid r.slba r.nlb ∧
        ∃ c ∈ t.cmds, c.tag = s.entryTag src ∧ c.data = host)) ∧
    (∀ loc gen off count keyTag prinfo, prinfo.testBit 1 = false → (s.entered src).keyTagBad n src.fn keyTag = false →
      n.zoned = true → locZone loc < n.zones →
      (((s.entered src).zone n (locZone loc)).gen ≠ gen →
        Next (exec (.readByLocator src nsid loc gen off count keyTag prinfo) s) (fun t => t.completes s src .locatorStale 0 0 .none)) ∧
      ((s.entered src).locBad n loc gen = none →
        Next (exec (.readByLocator src nsid loc gen off count keyTag prinfo) s)
          (fun t => t.queues s src .readLoc nsid (locZone loc * zoneBlocks) count))) ∧
    (∀ slba count alg keyTag, alg ≤ 1 → 0 < count → count ≤ 2 ^ 24 → slba + count ≤ n.nsze →
      (s.entered src).keyTagBad n src.fn keyTag = false →
      Next (exec (.digestRange src nsid slba count alg keyTag) s) (fun t => t.queues s src .digest nsid slba count))) ∧
  ((∀ (s : State) (src : Src) (nsid : Nat) (n : Ns) (d : Bool) (ranges : List (Nat × Nat)),
    s.takes src (if d then .ioWrite else .ioOther) = true → (s.entered src).nsFor src.fn nsid = some n →
    (∀ r ∈ ranges, r.1 + r.2 ≤ n.nsze) →
    Next (exec (.datasetManagement src nsid d ranges) s)
      (fun t => t.queues s src (if d = true ∧ n.zoned = false then .deallocate else .dsmNone) nsid 0 0)) ∧
  (∀ (s : State) (src : Src) (nsid : Nat), s.takes src .ioOther = true →
    (nsid = 0xFFFFFFFF ∨ ((s.entered src).nsFor src.fn nsid).isSome = true) →
    Next (exec (.flush src nsid) s) (fun t => t.queues s src .flush nsid 0 0 ∧
      ∃ c ∈ t.cmds, c.tag = s.entryTag src ∧ ∀ x ∈ s.clutches, x.fn = src.fn → x.place = .buffer →
        (nsid = 0xFFFFFFFF ∨ x.nsid = nsid) → x.id ∈ c.targets)) ∧
  (∀ (s : State) (src : Src) (nsid zslba nlb dtype dspec keyTag : Nat) (n : Ns) (sources : List PeerReq),
    s.takes src .ioWrite = true → (s.entered src).nsFor src.fn nsid = some n → n.zoned = true →
    0 < nlb → nlb ≤ n.clutch → 0 < sources.length → sources.length ≤ 32 → (∀ r ∈ sources, sourceBad r = false) →
    zslba % zoneBlocks = 0 → zslba < n.nsze → hintBad dtype dspec = false → (s.entered src).keyTagBad n src.fn keyTag = false →
    (s.entered src).outputKeyBad n src.fn keyTag = none →
    mptrFits src n → (s.entered src).member = true → (s.entered src).rd (Fd.VFM_FN_PEERTAG_VALUE src.fn) ≠ 0 →
    Next (exec (.reconstruct src nsid zslba nlb dtype dspec keyTag (32 * sources.length) sources) s)
      (fun t => t.queues s src .reconstruct nsid zslba nlb ∧ t.dzl.outs.length = s.dzl.outs.length + sources.length)))

/-- R56, R63, R64, R66: zone management of one zone, that nothing queued before holds back. An open or Closed zone is closed; an Empty, open
or Closed zone is finished: it is Full; a Zone Reset of a zone in a state that may be reset leaves it Empty, with the write pointer and the
fill point at 0, under the next generation, its clutches gone, while the hold-up is not failed. R55, R56, R59: an explicit open of one
Closed zone, with room under the open limits, opens it explicitly and keeps its write pointer; of an implicitly opened one too; a Full, Read
Only or Offline one is refused. Report Zones answers one descriptor for each zone from the first on, at most as many as asked. Nothing
queued before holds them back. R78: zone physical status is read as 256 entries of 16 B and cannot be set; the Changed Zone List of a
namespace is answered and, with RAE clear, emptied. -/
def Obligations.ZoneManagement : Prop :=
  (∀ (s : State) (src : Src) (nsid z : Nat) (n : Ns),
    (s.entered src).nsFor src.fn nsid = some n → n.zoned = true → z * zoneBlocks < n.nsze → z < 2 ^ 20 →
    (s.takes src .ioOther = true → s.startsNow src .zoneClose nsid (z * zoneBlocks) 1 → (s.zone n z).state.isActive = true →
      Next (exec (.zoneClose src nsid (z * zoneBlocks) false) s) (fun t => (t.zone n z).state = .closed ∧
        (t.zone n z).wp = (s.zone n z).wp ∧ t.completes s src .success 0 0 .none)) ∧
    (s.takes src .ioOther = true → s.startsNow src .zoneFinish nsid (z * zoneBlocks) 1 →
      (s.zone n z).state.isActive = true ∨ (s.zone n z).state = .empty →
      Next (exec (.zoneFinish src nsid (z * zoneBlocks) false) s) (fun t => (t.zone n z).state = .full ∧
        (t.zone n z).wp = (s.zone n z).wp ∧ t.completes s src .success 0 0 .none)) ∧
    (s.takes src .ioReset = true → s.startsNow src .zoneReset nsid (z * zoneBlocks) 1 → s.hlt.holdup ≠ 1 →
      (s.zone n z).state.isActive = true ∨ (s.zone n z).state = .full →
      Next (exec (.zoneReset src nsid (z * zoneBlocks) false) s) (fun t => (t.zone n z).state = .empty ∧ (t.zone n z).wp = 0 ∧
        (t.zone n z).fill = 0 ∧ (t.zone n z).gen = s.xlt.genCounter + 1 ∧ t.xlt.genCounter = s.xlt.genCounter + 1 ∧
        (∀ c ∈ t.clutches, ¬ (c.nsid = nsid ∧ c.zone = z)) ∧ t.completes s src .success 0 0 .none))) ∧
  ((∀ (s : State) (src : Src) (nsid z : Nat) (n : Ns),
    s.takes src .ioOther = true → (s.entered src).nsFor src.fn nsid = some n → n.zoned = true → z * zoneBlocks < n.nsze →
    z < 2 ^ 20 → s.startsNow src .zoneOpen nsid (z * zoneBlocks) 1 →
    ((s.zone n z).state = .implicitOpen ∨ ((s.zone n z).state = .closed ∧
        s.nsOpenFull n = false ∧ (s.entered src).fnOpenFull n.charge = false) →
      Next (exec (.zoneOpen src nsid (z * zoneBlocks) false) s) (fun t => (t.zone n z).state = .explicitOpen ∧
        (t.zone n z).wp = (s.zone n z).wp ∧ t.completes s src .success 0 0 .none)) ∧
    ((s.zone n z).state = .full ∨ (s.zone n z).state = .readOnly ∨ (s.zone n z).state = .offline →
      Next (exec (.zoneOpen src nsid (z * zoneBlocks) false) s) (fun t => t.completes s src .invalidZoneState 0 0 .none ∧
        t.zones = s.zones))) ∧
  (∀ (s : State) (src : Src) (nsid z count : Nat) (n : Ns),
    s.takes src .ioOther = true → (s.entered src).nsFor src.fn nsid = some n → n.zoned = true → z * zoneBlocks < n.nsze →
    s.startsNow src .report nsid (z * zoneBlocks) 1 →
    Next (exec (.reportZones src nsid (z * zoneBlocks) count) s) (fun t => t.zones = s.zones ∧
      t.completes s src .success 0 0 (.zones (n.zones - z) ((List.range (min count (n.zones - z))).map fun i => s.zoneDesc n (z + i)))))) ∧
  ((∀ (s : State) (src : Src) (nsid zone : Nat) (n : Ns),
    s.takes src .getFeat = true → (s.entered src).nsFor src.fn nsid = some n → n.zoned = true →
    Next (exec (.getFeaturesZonePhysicalStatus src nsid zone) s) (fun t =>
      ∃ b, b.length = 4096 ∧ t.completes s src .success 0 0 (.bytes b) ∧
        (zone < n.zones → b.take 8 = leBytes 8 (s.zone n zone).gen))) ∧
  (∀ (s : State) (src : Src), s.takes src .setFeat = true →
    Next (exec (.setFeaturesZonePhysicalStatus src) s) (fun t => t.completes s src .featureNotChangeable 0 0 .none ∧ t.zones = s.zones)) ∧
  (∀ (s : State) (src : Src) (nsid : Nat) (rae : Bool), s.takes src .logPage = true →
    Next (exec (.getLogPageChangedZoneList src rae nsid) s) (fun t =>
      cqeOf src .success 0 0 (.changedZones (((s.fn src.fn).changed.filter (·.1 = nsid)).map (·.2))) ∈ t.cqes ∧
      (t.fn src.fn).changed = if rae then (s.fn src.fn).changed else (s.fn src.fn).changed.filter (·.1 ≠ nsid))))

/-- R110, R331, R94: a doorbell makes entries pending, at most the queue's size less one; a fetch turn gives entries of the next function's
next queue tags and moves the round on; a queued Write whose waits have cleared is started, with one item for each clutch on its home pond,
as many as find room. R325, R329: a waiting write is admitted once buffer room, quota, tokens and log room allow; while its function has no
tokens, WAITTOK shows that, and nothing is admitted. R58, R59, R61: the placement point of a Write in a zone that holds a stripe and has
room: the blocks take the zone's write pointer and the granules its fill point, consecutively; without room it fails with its status and
nothing is placed. -/
def Obligations.FetchAdmissionAndPlacement : Prop :=
  ((∀ (s : State) (fn qid entries : Nat) (q : Sq), fn < fnCount → (s.fn fn).sq qid = some q →
    Next (exec (.sqDoorbellWrite fn qid entries) s) (fun t => ∃ p, (t.fn fn).sq qid = some p ∧
      p.waiting = min (q.waiting + entries) (q.size - 1) ∧ p.fetched = q.fetched)) ∧
  (∀ (s : State) (n : Nat) (q : Sq), s.nextFn = some n → (s.fn n).nextQueue = some q → (s.fn n).sq q.qid = some q →
    Next (exec .commandFetch s) (fun t => t.rr = (n + 1) % fnCount ∧ t.cmds = s.cmds ∧ t.cqes = s.cqes ∧
      ∃ p, (t.fn n).sq q.qid = some p ∧ q.fetched.length < p.fetched.length)) ∧
  (∀ (s : State) (tag : Nat) (c : Cmd) (n : Ns), s.cmd tag = some c → s.ns c.nsid = some n → c.started = false → s.waits c = false →
    c.kind = .write → s.modeRefusal ⟨c.fn, c.qid, c.cid, 0, 0, 0, false⟩ .ioWrite = none → s.anyPond = true → c.placed = 0 →
    let a := s.placeItems (s.homePond c.fn c.qid)
      ((List.range (n.clutchesOf c.nlb)).map fun i => ⟨.write, .fn c.fn, tag, i, false, none, false⟩)
    0 < a.1 →
    Next (exec (.commandStart tag) s) (fun t => t.efts = a.2.efts ∧
      ∃ d ∈ t.cmds, d.tag = tag ∧ d.started = true ∧ d.items = n.clutchesOf c.nlb ∧ d.placed = a.1))) ∧
  (∀ (s : State) (tag : Nat) (c : Cmd) (n : Ns), s.cmd tag = some c → s.ns c.nsid = some n → c.kind.stores = true → c.admitted = false →
    c.fn < fnCount → s.mode ≠ mReadonly →
    (s.admits c n = true → Next (exec (.writeAdmission tag) s) (fun t => ∃ d ∈ t.cmds, d.tag = tag ∧ d.admitted = true)) ∧
    ((s.fn c.fn).bal ≤ 0 → Next (exec (.writeAdmission tag) s) (fun t => t = s ∧
      ∀ w, getBits (t.viewFn (Reg.VFM_FN_STATE c.fn) w) 27 27 = 1))) ∧
  (∀ (s : State) (tag : Nat) (c : Cmd) (n : Ns), s.cmd tag = some c → s.ns c.nsid = some n → n.zoned = true →
    c.atPlacement n = true → s.placeWaits c = false → c.kind = .write → c.slba / zoneBlocks < 2 ^ 20 →
    let w := s.zone n (c.slba / zoneBlocks)
    let gran := sumNat (c.stored.map Stored.gran)
    (w.state.isOpen = true → w.stripe.isSome = true → c.slba % zoneBlocks = w.wp → w.wp + c.nlb < zoneBlocks →
      w.fill + gran < zoneGranules →
      Next (exec (.placementPoint tag) s) (fun t => (t.zone n (c.slba / zoneBlocks)).wp = w.wp + c.nlb ∧
        (t.zone n (c.slba / zoneBlocks)).fill = w.fill + gran ∧ t.clutches.length = s.clutches.length + c.stored.length)) ∧
    (w.state.isActive = true → c.slba % zoneBlocks ≠ w.wp →
      Next (exec (.placementPoint tag) s) (fun t => t.clutches = s.clutches ∧
        ∃ e ∈ t.cqes, e.fn = c.fn ∧ e.qid = c.qid ∧ e.cid = c.cid ∧ e.status = .zoneInvalidWrite)))

/-- R105: Abort of a command still queued completes it as aborted and reports 0; of one that has started, or of none, it reports 1. R89,
R90: a queue is created under an identifier the function may use, of 1 to 65,536 entries, a submission queue with a completion queue that
exists; above 65,536 entries creation fails with Invalid Queue Size. Deleting a submission queue takes it away. R90, R63, R530, R473: Number
of Queues grants the smaller of the request and the allocation, reported less one in each half of DW0; the event configuration and the
composite's over-temperature threshold are kept as given; an event request with nothing to report waits. -/
def Obligations.AbortQueuesAndFeatures : Prop :=
  (∀ (s : State) (src : Src) (sqid target : Nat), s.takes src .admin = true →
    (∀ c, s.cmds.find? (fun c => c.fn = src.fn && c.qid = sqid && c.cid = target) = some c → c.started = false → c.kind ≠ .peer →
      Next (exec (.abort src sqid target) s) (fun t => t.cqes.head? = some (cqeOf src .success 0 0 .none) ∧
        (∃ e ∈ t.cqes, e.fn = c.fn ∧ e.qid = sqid ∧ e.cid = target ∧ e.status = .abortRequested) ∧ ∀ d ∈ t.cmds, d.tag ≠ c.tag)) ∧
    ((∀ c ∈ s.cmds, c.fn = src.fn → c.qid = sqid → c.cid = target → c.started = true) →
      Next (exec (.abort src sqid target) s) (fun t => t.completes s src .success 1 0 .none ∧ t.cmds = s.cmds))) ∧
  ((∀ (s : State) (src : Src) (qid size cqid : Nat), s.takes src .admin = true → (s.entered src).qidBad src.fn qid = false →
    (((s.entered src).fn src.fn).cqs.any (·.1 = qid) = false →
      (0 < size → size ≤ 65536 → Next (exec (.createIoCompletionQueue src qid size) s) (fun t =>
        t.completes s src .success 0 0 .none ∧ (qid, size) ∈ (t.fn src.fn).cqs)) ∧
      (65536 < size → Next (exec (.createIoCompletionQueue src qid size) s) (fun t => t.completes s src .invalidQueueSize 0 0 .none))) ∧
    (((s.entered src).fn src.fn).sq qid = none →
      (0 < size → size ≤ 65536 → ((s.entered src).fn src.fn).cqs.any (·.1 = cqid) = true →
        ∀ prio, Next (exec (.createIoSubmissionQueue src qid size cqid prio) s) (fun t => t.completes s src .success 0 0 .none ∧
          ∃ p, (t.fn src.fn).sq qid = some { Sq.new qid size cqid with prio := prio % 4, start := p, nextPos := p, winFrom := p } ∧
            ∀ c ∈ t.cmds, c.fn = src.fn → c.qid = qid → c.pos < p)) ∧
      (65536 < size → ∀ prio, Next (exec (.createIoSubmissionQueue src qid size cqid prio) s) (fun t => t.completes s src .invalidQueueSize 0 0 .none)))) ∧
  (∀ (s : State) (src : Src) (qid : Nat), s.takes src .admin = true → qid ≠ 0 →
    (((s.entered src).fn src.fn).sq qid).isSome = true →
    Next (exec (.deleteIoSubmissionQueue src qid) s) (fun t => (t.fn src.fn).sq qid = none ∧
      t.cqes.head? = some (cqeOf src .success 0 0 .none))) ∧
  (∀ (s : State) (src : Src) (qid : Nat), s.takes src .admin = true → qid ≠ 0 →
    ((s.entered src).fn src.fn).cqs.any (·.1 = qid) = true →
    if ((s.entered src).fn src.fn).sqs.any (fun q => q.qid ≠ 0 && q.cqid = qid) then
      Next (exec (.deleteIoCompletionQueue src qid) s) (fun t => t.completes s src .invalidQueueDeletion 0 0 .none)
    else Next (exec (.deleteIoCompletionQueue src qid) s) (fun t => t.completes s src .success 0 0 .none ∧
      ∀ e ∈ (t.fn src.fn).cqs, e.1 ≠ qid))) ∧
  (∀ (s : State) (src : Src),
    (s.takes src .setFeat = true → ∀ nsq ncq, 0 < min (min nsq ncq) ((s.entered src).qpLimit src.fn) →
      let g := min (min nsq ncq) ((s.entered src).qpLimit src.fn)
      Next (exec (.setFeaturesNumberOfQueues src nsq ncq) s) (fun t => (t.fn src.fn).grant = g ∧
        t.completes s src .success ((g - 1) + (g - 1) * 65536) 0 .none)) ∧
    (s.takes src .setFeat = true → ∀ mask, Next (exec (.setFeaturesAsynchronousEventConfig src mask) s) (fun t =>
      (t.fn src.fn).aec = mask % 2 ^ 32 ∧ t.completes s src .success 0 0 .none)) ∧
    (s.takes src .setFeat = true → ∀ kelvin, Next (exec (.setFeaturesTemperatureThreshold src 0 false kelvin) s) (fun t =>
      (t.fn src.fn).tmtOver = kelvin ∧ cqeOf src .success 0 0 .none ∈ t.cqes)) ∧
    (s.takes src .admin = true → (s.fn src.fn).events = [] → Next (exec (.asynchronousEventRequest src) s) (fun t =>
      (t.fn src.fn).aers = (s.fn src.fn).aers ++ [src.cid] ∧ t.cqes = s.cqes)))

/-! ## Namespaces, pools, sanitize -/

/-- R46, R47, R66, R532: creation. Vendor bytes, a command set or a size outside the rules fail with Invalid Field in Command, a format
outside R532 with Invalid Format; a creation with an identifier, the capacity, the quota and TRNG words for it completes with its identifier
in DW0 and makes the namespace: not attached, its clutch size by its code, its generation the next one. From a VF it is Invalid Command
Opcode. The status for size 0 and for more than 2^20 zones is the model's choice (assumption 100), the key drawn a free value (assumption
3). R48, R66, R372: deletion takes the namespace and its zones away; Format NVM gives it the new format, with a new media key where a secure
erase is asked for, and a conventional one's old clutches are gone. That their outstanding commands end, and how, is the model's choice
(assumption 58). -/
def Obligations.NamespacesCreatedDeletedFormatted : Prop :=
  (∀ (s : State) (src : Src) (n : NsArgs), s.takes src .admin = true →
    let e := s.entered src
    let id := leastFree (e.nss.map (·.nsid)) 1024 1
    (src.fn ≠ 0 → Next (exec (.namespaceManagementCreate src n) s) (fun t => t.completes s src .invalidOpcode 0 0 .none ∧ t.nss = s.nss)) ∧
    (src.fn = 0 → createBad n = true →
      Next (exec (.namespaceManagementCreate src n) s) (fun t => t.completes s src .invalidField 0 0 .none ∧ t.nss = s.nss)) ∧
    (src.fn = 0 → createBad n = false → formatBad n.fmt n.dps = true →
      Next (exec (.namespaceManagementCreate src n) s) (fun t => t.completes s src .invalidFormat 0 0 .none ∧ t.nss = s.nss)) ∧
    (src.fn = 0 → createBad n = false → formatBad n.fmt n.dps = false → id ≤ 1024 → e.capacityBad n = false →
      e.pastQuota 0 1 (if n.csi = 2 then 0 else argZones n) = false → e.trngOk = true →
      Next (exec (.namespaceManagementCreate src n) s) (fun t => t.completes s src .success id 0 .none ∧
        t.xlt.genCounter = s.xlt.genCounter + 1 ∧
        ∃ m ∈ t.nss, m.nsid = id ∧ m.nsze = n.nsze ∧ m.fmt = n.fmt ∧ m.attached = none ∧ m.gen0 = s.xlt.genCounter + 1 ∧
          (n.csi = 2 → m.zoned = true ∧ m.clutch = clutchBlocks n.clutchCode) ∧ (n.csi = 0 → m.zoned = false ∧ m.clutch = 1)))) ∧
  (∀ (s : State) (src : Src) (nsid : Nat) (n : Ns), s.takes src .admin = true → nsid < 0xFFFFFFFF → s.ns nsid = some n →
    (src.fn = 0 → Next (exec (.namespaceManagementDelete src nsid) s) (fun t => t.cqes.head? = some (cqeOf src .success 0 0 .none) ∧
      t.ns nsid = none ∧ ∀ e ∈ t.zones, e.1 / 2 ^ 20 ≠ nsid)) ∧
    (∀ fmt dps extended ses, src.fn = 0 ∨ n.attached = some src.fn → ses ≤ 2 → formatBad fmt dps = false →
      (s.entered src).mode ≠ mReadonly → (s.entered src).mode ≠ mSanitize → ses = 0 ∨ (s.entered src).trngOk = true →
      Next (exec (.formatNvm src nsid fmt dps extended ses) s) (fun t => t.cqes.head? = some (cqeOf src .success 0 0 .none) ∧
        (∃ m, t.ns nsid = some m ∧ m.fmt = fmt ∧ m.extended = extended ∧ m.nsze = n.nsze) ∧
        (n.zoned = false → ∀ c ∈ t.clutches, c.nsid ≠ nsid))))

/-- R49, R317, R318: attachment moves the charge to the function and gives the namespace the slot below the function's media slots, to be
reloaded; detachment takes both back. A namespace attached elsewhere is private. R351, R47, R533: a reload puts the namespace's key into its
media slot; Identify Controller and Identify Namespace answer the fields the rules state; NUSE is a free value (assumption 3). -/
def Obligations.NamespacesAttachedAndIdentified : Prop :=
  (∀ (s : State) (src : Src) (nsid f : Nat) (n : Ns), s.takes src .admin = true → src.fn = 0 → s.ns nsid = some n →
    f < fnCount →
    (n.attached = none → (s.entered src).othersData n f = false → (s.entered src).assigned f = true →
      (f = 0 ∨ (s.entered src).pastQuota f 1 (if n.zoned then (((s.entered src).zonesOf nsid).filter (·.2.counts)).length else n.zones) = false) →
      ∀ k, (s.entered src).attachSlot f = some k →
        Next (exec (.namespaceAttach src nsid f) s) (fun t => t.completes s src .success 0 0 .none ∧
          ∃ m, t.ns nsid = some m ∧ m.attached = some f ∧ m.slot = some k ∧ m.slotReady = false ∧ m.lastFn = some f)) ∧
    (∀ g, n.attached = some g → g ≠ f →
      Next (exec (.namespaceAttach src nsid f) s) (fun t => t.completes s src .nsIsPrivate 0 0 .none ∧ t.nss = s.nss)) ∧
    (n.attached = some f →
      Next (exec (.namespaceDetach src nsid f) s) (fun t => t.cqes.head? = some (cqeOf src .success 0 0 .none) ∧
        ∃ m, t.ns nsid = some m ∧ m.attached = none ∧ m.slot = none)) ∧
    (n.attached ≠ some f →
      Next (exec (.namespaceDetach src nsid f) s) (fun t => t.completes s src .nsNotAttached 0 0 .none ∧ t.nss = s.nss))) ∧
  ((∀ (s : State) (nsid f k : Nat) (n : Ns), s.ns nsid = some n → n.attached = some f → n.slot = some k → n.slotReady = false →
    (s.aesKey slotMediaKek).isSome = true →
    Next (exec (.mediaSlotReload nsid) s) (fun t => t.slot k = ⟨1, f, srcMedia, Config.drawnKey n.key⟩ ∧
      ∃ m, t.ns nsid = some m ∧ m.slotReady = true)) ∧
  (∀ (s : State) (src : Src), s.takes src .identify = true →
    Next (exec (.identifyController src) s) (fun t => ∃ i : IdCtrl, t.completes s src .success 0 0 (.ctrl i) ∧ i.nn = 1024 ∧
      i.mnan = 1024 ∧ i.npss = 4 ∧ i.selfTest = decide (src.fn = 0))) ∧
  (∀ (s : State) (src : Src) (nsid : Nat) (n : Ns), s.takes src .identify = true → s.ns nsid = some n →
    src.fn = 0 ∨ n.attached = some src.fn →
    Next (exec (.identifyNamespace src nsid) s) (fun t => ∃ i : IdNs, t.completes s src .success 0 0 (.ns i) ∧ i.nsze = n.nsze ∧
      i.ncap = n.nsze ∧ (n.zoned = true → i.zsze = 2 ^ 21 ∧ i.levelSel = 128 + n.level) ∧ i.nuse ≤ n.nsze)))

/-- R319-R321: an assignment within the ranges and the pools gives the VF its range at the base it completes with, and every limit of the
descriptor; one outside the ranges is Invalid Field in Command and changes nothing. Which base the part chooses is the model's choice
(assumption 20). R321, R332: a change that keeps the key range takes every masked value and leaves the others; a release of a VF whose
namespaces hold no data and which is not enabled unassigns it. -/
def Obligations.PoolManage : Prop :=
  (∀ (s : State) (src : Src) (f : Nat) (d : PoolDesc), s.takes src .vendor = true → (s.fn f).resetting = false →
    0 < f → f < fnCount → (s.entered src).assigned f = false →
    (poolBad d = true → Next (exec (.poolManageAssign src f 64 d) s) (fun t => t.completes s src .invalidField 0 0 .none ∧
      t.regs = (s.entered src).regs)) ∧
    (poolBad d = false → d.mask = 0 → (s.entered src).qpSumBut f + d.qp ≤ poolQueuePairs →
      (s.entered src).gSumBut f + d.g ≤ (s.entered src).rd Fd.VFM_POOL_WTOK_TOTAL → ∀ b, (s.entered src).pickBase d.keys = some b →
      Next (exec (.poolManageAssign src f 64 d) s) (fun t => t.completes s src .success b 0 .none ∧ t.assigned f = true ∧
        t.rd (Fd.VFM_FN_QP_LIMIT f) = d.qp ∧ t.rd (Fd.VFM_FN_INFLIGHT_LIMIT f) = d.inflight ∧ t.rd (Fd.VFM_FN_STATE_CLASS f) = d.cls ∧
        t.rd (Fd.VFM_FN_NS_QUOTA f) = d.nsq ∧ t.rd (Fd.VFM_FN_BUF_QUOTA f) = d.buf ∧ t.rd (Fd.VFM_FN_STRIPEQ_COUNT f) = d.stripes ∧
        t.rd (Fd.VFM_FN_GTOK_TOKENS f) = d.g ∧ t.rd (Fd.VFM_FN_CTOK_TOKENS f) = d.c ∧
        t.rd (Fd.VFM_FN_TOKCFG_WEIGHT f) = d.weight ∧ t.rd (Fd.VFM_FN_KEYS_BASE f) = b ∧ t.rd (Fd.VFM_FN_KEYS_SLOTS f) = d.keys))) ∧
  (∀ (s : State) (src : Src) (f : Nat), s.takes src .vendor = true → (s.fn f).resetting = false → 0 < f → f < fnCount →
    (s.entered src).assigned f = true →
    (∀ d, let now := (s.entered src).poolNow f
      let v := poolOver d now
      poolBad v = false → d.mask ≤ 32767 → v.keys = now.keys → v.qp ≤ now.qp → v.g ≤ now.g → v.flags = 0 →
      Next (exec (.poolManageChange src f 64 d) s) (fun t => t.completes s src .success ((s.entered src).rd (Fd.VFM_FN_KEYS_BASE f)) 0 .none ∧
        t.rd (Fd.VFM_FN_QP_LIMIT f) = (if d.mask.testBit 0 then d.qp else now.qp) ∧
        t.rd (Fd.VFM_FN_GTOK_TOKENS f) = (if d.mask.testBit 10 then d.g else now.g) ∧
        t.rd (Fd.VFM_FN_TOKCFG_WEIGHT f) = (if d.mask.testBit 12 then d.weight else now.weight))) ∧
    (((s.entered src).nssOf f).any (s.entered src).holdsData = false → (s.fn f).en = false →
      Next (exec (.poolManageRelease src f 0) s) (fun t => t.completes s src .success 0 0 .none ∧ t.assigned f = false ∧
        ∀ n ∈ t.nss, n.attached ≠ some f)))

/-- R37, R370, R371: a Crypto Erase or Block Erase of PF0 puts the part into SANITIZE with the operation in progress, and takes the clutches
and the functions' key slots away at once; Overwrite and a VF's sanitize are refused. R37, R370, R396: a sanitize that succeeds leaves
SANITIZE for SERVE, for DEGRADED where a cause remains, a Block Erase only once no released block waits for its erase; one that fails stays
in SANITIZE as failed; Exit Failure Mode leaves a failed sanitize that allowed it. How a failed sanitize ends is NVMe's (PRESUMED,
assumption 77). R360: while the TRNG withholds words an operation that needs one waits; recovery brings words again; an operation that has
waited 100 ms completes with Internal Error. That the oldest goes first is the model's choice (assumption 78). -/
def Obligations.SanitizeAndTrngWaits : Prop :=
  (∀ (s : State) (src : Src) (ause : Bool), s.takes src .sanitize = true →
    (src.fn = 0 → s.boot.sanitize ≠ 1 → (s.entered src).mode = mServe ∨ (s.entered src).mode = mDegraded ∨ (s.entered src).mode = mSanitize →
      s.sec.scrapped = false → (s.entered src).trngOk = true →
      Next (exec (.sanitizeCryptoErase src ause false) s) (fun t => t.mode = mSanitize ∧ t.boot.sanitize = 1 ∧ t.boot.sanKind = 1 ∧
        t.clutches = [] ∧ ∀ k, k < keySlotsForFns → (t.slot k).kind = 0) ∧
      Next (exec (.sanitizeBlockErase src ause false) s) (fun t => t.mode = mSanitize ∧ t.boot.sanitize = 1 ∧ t.boot.sanKind = 2 ∧
        t.clutches = [] ∧ ∀ k, k < keySlotsForFns → (t.slot k).kind = 0)) ∧
    (src.fn ≠ 0 → Next (exec (.sanitizeCryptoErase src ause false) s) (fun t => t.completes s src .invalidOpcode 0 0 .none)) ∧
    (src.fn = 0 → Next (exec (.sanitizeOverwrite src) s) (fun t => t.completes s src .invalidField 0 0 .none ∧ t.clutches = s.clutches))) ∧
  ((∀ s : State, s.mode = mSanitize → s.boot.sanitize = 1 → s.boot.sanPaused = false → s.flag Fd.TOP_MODE_FLUSH = false →
    s.pwr.pfHold = false →
    Next (exec (.sanitizeComplete false) s) (fun t => t.boot.sanitize = 2 ∧ t.mode = mSanitize) ∧
    (s.boot.sanKind = 2 → s.xlt.released ≠ [] → Next (exec (.sanitizeComplete true) s) (fun t => t = s)) ∧
    (s.xlt.eol = false → s.quiesce.queue = [] → s.boot.sanKind ≠ 2 ∨ s.xlt.released = [] →
      Next (exec (.sanitizeComplete true) s) (fun t => t.boot.sanitize = 0 ∧ t.boot.sanRuns = s.boot.sanRuns + 1 ∧
        t.mode = if s.rd Fd.TOP_MODE_DGCAUSE = 0 then mServe else mDegraded))) ∧
  (∀ (s : State) (src : Src), s.takes src .sanitize = true → src.fn = 0 → s.boot.sanitize = 2 →
    (s.boot.sanAuse = false → Next (exec (.sanitizeExitFailureMode src) s) (fun t => t.completes s src .sanitizeFailed 0 0 .none)) ∧
    (s.boot.sanAuse = true → s.quiesce.queue = [] → Next (exec (.sanitizeExitFailureMode src) s) (fun t => t.boot.sanitize = 0 ∧
      t.cqes.head? = some (cqeOf src .success 0 0 .none))))) ∧
  ((∀ s : State, s.pwr.on = true → s.trngOk = false → s.rd Fd.TOP_BOOT_STAGE ≠ 0 → s.sec.trngWaits = [] →
    Next (exec .trngRecovery s) (fun t => t.trngOk = true)) ∧
  (∀ (s : State) (src : Src) (n : NsArgs) (r : List TrngOp), s.sec.trngWaits = .create src n :: r →
    Next (exec .trngWaitTimeout s) (fun t => t.completes s src .internalError 0 0 .none ∧ t.sec.trngWaits = r ∧ t.nss = s.nss)) ∧
  (∀ (s : State) (src : Src), s.takes src .sanitize = true → src.fn = 0 → s.boot.sanitize ≠ 1 →
    (s.entered src).mode = mServe ∨ (s.entered src).mode = mDegraded → s.sec.scrapped = false → (s.entered src).trngOk = false →
    Next (exec (.sanitizeCryptoErase src false false) s) (fun t => t.cqes = s.cqes ∧ t.clutches = s.clutches ∧
      t.sec.trngWaits = s.sec.trngWaits ++ [.sanitize src false false])))

/-! ## Firmware, modes and starts -/

/-- R127, R129: a self-test starts in segment 1 where none runs, and is refused while one does; code Fh ends it, and its result heads the
log. The code 1 of that result is the model's reading of NVMe (assumption 66). R127-R129, R132: an idle eft with an empty deque that segment
7 has not reached yet gets a vector in its deque; it runs it where the deque holds nothing else; its end counts as the eft's item, and a
wrong answer fails the segment and fences the eft. The end of segment 8 logs the result of the first failed segment, 8 itself where the
chorus and link check fails; the log page answers the running code and the results to PF0. The result codes, the free value of the
completion percentage and the criterion of segment 8 are the model's (assumptions 66, 3, 122). R37, R127, R508-R510: the hold-up self-test:
due 24 h after the last run, it waits for a steady reading, then loads the bank, and its end releases the load and judges the usable energy;
a failure makes structural records wait for flash. -/
def Obligations.DeviceAndHoldupSelfTests : Prop :=
  (∀ (s : State) (src : Src), s.takes src .selfTest = true → src.fn = 0 →
    (s.boot.selfTest.code = 0 → (s.entered src).mode ≠ mSanitize →
      Next (exec (.deviceSelfTestShort src) s) (fun t => t.completes s src .success 0 0 .none ∧ t.boot.selfTest.code = 1 ∧
        t.boot.selfTest.segment = 1) ∧
      Next (exec (.deviceSelfTestExtended src) s) (fun t => t.completes s src .success 0 0 .none ∧ t.boot.selfTest.code = 2 ∧
        t.boot.selfTest.segment = 1)) ∧
    (s.boot.selfTest.code ≠ 0 →
      Next (exec (.deviceSelfTestShort src) s) (fun t => t.completes s src .selfTestInProgress 0 0 .none ∧ t.boot = s.boot) ∧
      Next (exec (.deviceSelfTestExtended src) s) (fun t => t.completes s src .selfTestInProgress 0 0 .none ∧ t.boot = s.boot) ∧
      Next (exec (.deviceSelfTestAbort src) s) (fun t => t.completes s src .success 0 0 .none ∧ t.boot.selfTest.code = 0 ∧
        t.boot.selfTest.log.head? = some (1, s.boot.selfTest.code, 0, s.hlt.onMinutes / 60)))) ∧
  ((∀ (s : State) (p n : Nat), p < 8 → n < 32 → s.boot.selfTest.code ≠ 0 → s.boot.selfTest.segment = 7 → s.testSuspended = false →
    s.fenced p n = false → s.gated p = false → ∀ clutch,
    ((s.eft p n).run = none → (s.eft p n).deque = [] → s.boot.selfTest.tried.contains (eftKey p n) = false → ∀ faulty,
      Next (exec (.selfTestItem p n clutch faulty) s) (fun t => (t.eft p n).deque = [vectorItem 7] ∧ (t.eft p n).run = none ∧ t.boot = s.boot)) ∧
    ((s.eft p n).run = none → (s.eft p n).deque = [vectorItem 7] → ∀ faulty,
      Next (exec (.selfTestItem p n clutch faulty) s) (fun t => (t.eft p n).deque = [] ∧ (t.eft p n).run = some (vectorItem 7) ∧ t.boot = s.boot)) ∧
    ((s.eft p n).run = some (vectorItem 7) →
      Next (exec (.selfTestItem p n clutch false) s) (fun t => (t.eft p n).run = none ∧ t.fenced p n = false ∧
        t.boot.selfTest = { s.boot.selfTest with tried := s.boot.selfTest.tried ++ [eftKey p n] }) ∧
      Next (exec (.selfTestItem p n clutch true) s) (fun t => t.fenced p n = true ∧
        t.boot.selfTest.failed = (if s.boot.selfTest.failed = 0 then 7 else s.boot.selfTest.failed)))) ∧
  (∀ (s : State) (failed : Nat), s.boot.selfTest.code ≠ 0 → s.boot.selfTest.segment = 8 → s.testSuspended = false → s.hlt.holdup ≠ 1 →
    s.boot.selfTest.failed = 0 →
    let f := if s.linksBad = false then failed else if failed = 0 then 8 else min failed 8
    Next (exec (.deviceSelfTestComplete failed) s) (fun t => t.boot.selfTest.code = 0 ∧
      t.boot.selfTest.log.head? = some (if f = 0 then 0 else 7, s.boot.selfTest.code, f, s.hlt.onMinutes / 60) ∧
      t.mode = s.mode)) ∧
  (∀ (s : State) (src : Src) (rae : Bool), s.takes src .logPage = true → src.fn = 0 →
    Next (exec (.getLogPageDeviceSelfTest src rae) s) (fun t => ∃ l pct, l.head? = some s.boot.selfTest.code ∧ pct < 101 ∧
      l[1]? = some pct ∧ t.cqes.head? = some (cqeOf src .success 0 0 (.selfTest l))))) ∧
  ((∀ (s : State) (t : Nat), s.pwr.huAt + 86400000000000 ≤ t → s.asleep = false → s.rd Fd.GK_PSTATE_CUR ≠ 4 → s.pwr.huStep = 0 →
    s.pwr.pfHold = false → Next (exec (.holdupSelfTestDue t) s) (fun u => u.pwr.huStep = 1 ∧ u.regs = s.regs)) ∧
  (∀ (s : State) (volt t : Nat), s.pwr.huStep = 1 → s.pwr.pfHold = false →
    Next (exec (.holdupSelfTestStart volt t) s) (fun u => u.pwr.huStep = 2 ∧ u.pwr.huVolt = volt ∧ u.pins.huTest = true ∧ u.regs = s.regs)) ∧
  (∀ (s : State) (dv t : Nat), s.pwr.huStep = 2 →
    Next (exec (.holdupSelfTestEnd dv t) s) (fun u => u.pwr.huStep = 0 ∧ u.pins.huTest = false ∧ u.pwr.huAt = max s.now t ∧
      u.hlt.holdup = (if 1000000 * (2 + s.rd Fd.XLT_BUF_SIZE) * dv ≤ 12 * s.pwr.huVolt * s.pwr.huVolt then 0 else 1) ∧
      u.flag Fd.XLT_JRNL_FLASH = (u.hlt.holdup == 1))))

/-- R470: a further piece of a download that lies in its region and meets no earlier piece is stored and noted; one that meets an earlier
piece is refused as Not Erased, one past the region as Invalid Field, one whose read-back differs fails with Internal Error (R469), and a
VF's is no command. R381, R384: storing into the running slot is refused, outside recovery; a download that passes the image check is stored
in the other slot as a trial, and with 001b that slot is to be activated by a reset; 010b of an image that passes its check makes its slot
next. -/
def Obligations.FirmwareDownloadAndCommit : Prop :=
  (∀ (s : State) (src : Src) (off : Nat) (data : Bytes) (d : Download), s.takes src .fw = true → off ≠ 0 →
    s.boot.download = some d →
    (src.fn ≠ 0 → Next (exec (.firmwareImageDownload src off data true) s) (fun t => t.completes s src .invalidOpcode 0 0 .none ∧ t.snc = s.snc)) ∧
    (src.fn = 0 → d.len < off + data.length →
      Next (exec (.firmwareImageDownload src off data true) s) (fun t => t.completes s src .invalidField 0 0 .none ∧ t.snc = s.snc)) ∧
    (src.fn = 0 → off + data.length ≤ d.len → (d.done.any fun e => meets off data.length e.1 e.2) = true →
      Next (exec (.firmwareImageDownload src off data true) s) (fun t => t.completes s src .notErased 0 0 .none ∧ t.snc = s.snc)) ∧
    (src.fn = 0 → off + data.length ≤ d.len → (d.done.any fun e => meets off data.length e.1 e.2) = false →
      Next (exec (.firmwareImageDownload src off data true) s) (fun t => t.completes s src .success 0 0 .none ∧
        ∃ e, t.boot.download = some e ∧ e.base = d.base ∧ e.done = d.done ++ [(off, data.length)]) ∧
      Next (exec (.firmwareImageDownload src off data false) s) (fun t => t.completes s src .internalError 0 0 .none))) ∧
  (∀ (s : State) (src : Src) (k : Nat), s.takes src .fw = true → src.fn = 0 → k < 2 →
    (s.entered src).flag Fd.TOP_BOOT_RECOVERY = false →
    (k = (s.entered src).runningSlot →
      Next (exec (.firmwareCommitStore src (k + 1)) s) (fun t => t.completes s src .invalidFwSlot 0 0 .none ∧ t.snc = s.snc) ∧
      Next (exec (.firmwareCommitStoreAndSetNext src (k + 1)) s) (fun t => t.completes s src .invalidFwSlot 0 0 .none ∧ t.snc = s.snc)) ∧
    (k ≠ (s.entered src).runningSlot → ∀ u, (s.entered src).storeImage ((s.entered src).slotBase k) 1 = .inr u →
      u.flag Fd.TOP_BOOT_RECOVERY = false → k ≠ u.runningSlot →
      Next (exec (.firmwareCommitStore src (k + 1)) s) (fun t => t.completes s src .success 0 0 .none ∧
        t.snc.flash = (u.writeSlot (u.slotRec.setState k sTRIAL)).snc.flash) ∧
      Next (exec (.firmwareCommitStoreAndSetNext src (k + 1)) s) (fun t => t.completes s src .success 0 0 .none ∧
        t.boot.pendingSlot = some k)) ∧
    ((s.entered src).slotRec.state k ≠ sEMPTY → (s.entered src).slotOk k = true →
      k ≠ (s.entered src).runningSlot →
      Next (exec (.firmwareCommitActivateExisting src (k + 1)) s) (fun t => t.completes s src .success 0 0 .none ∧
        t.boot.pendingSlot = some k)))

/-- R42, R45, R110, R112, R381: an activation without reset of a slot's image enters QUIESCE with cause 1 from SERVE or DEGRADED and does
not complete yet; HOLD, SANITIZE and READONLY prohibit it; a Profile Select of another valid profile enters QUIESCE with cause 2. R42, R111,
R112, R385, R389: with no started command left, an activation whose image passes its check runs it and, the queue empty, leaves QUIESCE for
the mode it came from; a profile switch with nothing staged ends likewise and answers the profile in use; 1 s without an end sets CFS of
every function; a command still running after 1 s is interrupted, one that waits for the TRNG too. -/
def Obligations.QuiesceEntryAndEnd : Prop :=
  ((∀ (s : State) (src : Src) (k : Nat), s.takes src .activate = true → src.fn = 0 → k < 2 → s.boot.download = none →
    ((s.entered src).mode = mHold ∨ (s.entered src).mode = mSanitize ∨ (s.entered src).mode = mReadonly →
      Next (exec (.firmwareCommitActivateNow src (k + 1)) s) (fun t => t.completes s src .fwActivationProhibited 0 0 .none ∧
        t.snc = s.snc)) ∧
    ((s.entered src).mode = mServe ∨ (s.entered src).mode = mDegraded → (s.entered src).flag Fd.TOP_BOOT_RECOVERY = false →
      (s.entered src).slotRec.state k ≠ sEMPTY → (s.entered src).slotOk k = true → s.quiesce.queue = [] →
      (s.entered src).flag Fd.GK_THERM_STOP = false → (s.entered src).flag Fd.TOP_MODE_FLUSH = false → s.pwr.pfHold = false →
      Next (exec (.firmwareCommitActivateNow src (k + 1)) s) (fun t => t.mode = mQuiesce ∧ t.rd Fd.TOP_MODE_QCAUSE = 1 ∧
        t.rd Fd.TOP_MODE_RETURN = (s.entered src).mode ∧ t.quiesce.running = some ⟨.firmware k, some src⟩))) ∧
  (∀ (s : State) (src : Src) (k : Nat) (p : Profile), s.takes src .profile = true → src.fn = 0 →
    ((s.entered src).mode = mServe ∨ (s.entered src).mode = mDegraded) →
    (3 < k → Next (exec (.profileSelect src k) s) (fun t => t.completes s src .invalidField 0 0 .none ∧ t.regs = (s.entered src).regs)) ∧
    (k ≤ 3 → (s.entered src).profileOf k = some p → (s.entered src).canReserve ((s.entered src).capBuffer p.buffer).1 = true →
      k ≠ (s.entered src).rd Fd.TOP_PROFILE_ACTIVE → s.quiesce.queue = [] → (s.entered src).flag Fd.GK_THERM_STOP = false →
      (s.entered src).flag Fd.TOP_MODE_FLUSH = false → s.pwr.pfHold = false →
      Next (exec (.profileSelect src k) s) (fun t => t.mode = mQuiesce ∧ t.rd Fd.TOP_MODE_QCAUSE = 2 ∧
        t.quiesce.running = some ⟨.profile k false, some src⟩ ∧ t.quiesce.committed = true)))) ∧
  ((∀ (s : State) (src : Src), s.mode = mQuiesce → s.flag Fd.TOP_MODE_FLUSH = false → s.pwr.pfHold = false →
    s.flag Fd.GK_THERM_STOP = false → s.quiesce.queue = [] → s.xlt.eol = false → s.rd Fd.TOP_MODE_DGCAUSE = 0 →
    s.rd Fd.TOP_MODE_RETURN = mServe → s.pwr.stuck = false →
    (∀ k, k < 2 → s.quiesce.running = some ⟨.firmware k, some src⟩ → s.boot.fwHang = false → s.quiesce.committed = false →
      s.cmds.any (·.started) = false → s.slotOk k = true →
      Next (exec (.firmwareActivation true) s) (fun t => t.mode = mServe ∧ t.rd Fd.TOP_BOOT_SLOT = k ∧ t.quiesce.running = none ∧
        cqeOf src .success 0 0 .none ∈ t.cqes)) ∧
    (∀ k, s.quiesce.running = some ⟨.profile k false, some src⟩ → s.bufBytes ≤ s.bufRoom → s.cho.relocking = false → s.cho.staged = [] →
      s.pwr.huStep = 0 →
      Next (exec .profileSwitchComplete s) (fun t => t.mode = mServe ∧ t.quiesce.running = none ∧
        cqeOf src .success (s.rd Fd.TOP_PROFILE_ACTIVE) 0 .none ∈ t.cqes))) ∧
  (∀ s : State, s.boot.actAt.isSome = true → Next (exec .activationTimeout s) (fun t => t.boot.fwHang = true ∧ ∀ n ∈ s.allFns, (t.fn n).cfs = true)) ∧
  (∀ (s : State) (tag : Nat) (c : Cmd), s.cmd tag = some c → s.heldTags.find? (·.2 = tag) = none → c.started = true → c.kind ≠ .peer →
    s.mode = mQuiesce →
    Next (exec (.quiesceCommandTimeout tag) s) (fun t => (∀ d ∈ t.cmds, d.tag ≠ tag) ∧
      ∃ e ∈ t.cqes, e.fn = c.fn ∧ e.qid = c.qid ∧ e.cid = c.cid ∧ e.status = .commandInterrupted)) ∧
  (∀ (s : State) (tag : Nat) (src : Src), s.heldTags.find? (·.2 = tag) = some (src, tag) → s.mode = mQuiesce →
    (s.sec.trngWaits.any fun o => o.src = some src) = true →
    Next (exec (.quiesceCommandTimeout tag) s) (fun t => (t.sec.trngWaits.any fun o => o.src = some src) = false ∧
      cqeOf src .commandInterrupted 0 0 .none ∈ t.cqes)))

/-- R89, R106, R107, R335, R525: enabling a controller the host reaches makes it ready where its mode allows, with the arbitration CC.AMS
names; clearing CC.EN of PF0 abandons PF0's commands; a VF's reset begins with its state gone, its keys zeroed and its reset bit set; PF0's
FLR resets every function (which ones exist: assumption 82), VF Enable, Memory Space Enable and BAR2; the end of a reset lets an enabled
function be ready again. R109, R178: a shutdown notification abandons the function's queued commands and reports in progress; once nothing
is left in the buffer and no command of the function is outstanding a checkpoint runs, and where there are no maps the notification is
complete at once. R377, R514: a configuration request is answered with Request Retry Status until the profile is applied; then VF Enable,
Memory Space Enable and BAR2 take what is written, BAR2 to 64 MiB, and any other read gives a free value. That a base of 0 counts as not
programmed is the model's choice (assumption 114). -/
def Obligations.FunctionsEnabledResetShutDown : Prop :=
  (∀ (s : State) (f : Nat), f < fnCount →
    (s.reaches f = true → s.asleep = false →
      (∀ ams, (s.fn f).en = false → (s.fn f).resetting = false → (s.fn f).cfs = false →
        Next (exec (.ccEnSet f ams) s) (fun t => (t.fn f).en = true ∧ (t.fn f).rdy = s.mayReady f ∧ (t.fn f).ams = (if ams = 1 then 1 else 0) ∧
          ∀ g, g ≠ f → t.fn g = s.fn g)) ∧
      ((s.fn 0).en = true → s.boot.pendingSlot = none →
        Next (exec .ccEnClearPf0 s) (fun t => (t.fn 0).en = false ∧ (t.fn 0).rdy = false ∧ ∀ c ∈ t.cmds, c.fn = 0 → c.kind = .peer)) ∧
      (f ≠ 0 →
        Next (exec (.vfReset f) s) (fun t => (t.fn f).en = false ∧ (t.fn f).rdy = false ∧ (t.fn f).resetting = true ∧
          t.rd (Fd.VFM_FN_STATE_RESET f) = 1 ∧ (t.fn f).sqs = Fn.init.sqs ∧ (∀ c ∈ t.cmds, c.fn = f → c.kind = .peer) ∧
          ∀ k, s.rd (Fd.VFM_FN_KEYS_BASE f) ≤ k → k < s.rd (Fd.VFM_FN_KEYS_BASE f) + s.rd (Fd.VFM_FN_KEYS_SLOTS f) → (t.slot k).kind = 0)) ∧
      (s.boot.fwHang = false → s.boot.pendingSlot = none → f ∈ s.allFns →
        Next (exec .pf0Flr s) (fun t => (t.fn f).en = false ∧ (t.fn f).resetting = true ∧ t.boot.vfEnable = false ∧ t.boot.memSpace = false ∧
          t.boot.bar2 = 0))) ∧
    ((s.fn f).resetting = true →
      Next (exec (.functionResetComplete f) s) (fun t => (t.fn f).resetting = false ∧ (t.fn f).en = (s.fn f).en ∧ (t.fn f).bal = 0 ∧
        t.rd (Fd.VFM_FN_STATE_RESET f) = 0))) ∧
  ((∀ (s : State) (f : Nat), f < fnCount → s.hostReaches = true → s.asleep = false → (s.fn f).en = true → (s.fn f).rdy = true → (s.fn f).shst = 0 →
    Next (exec (.shutdownNotification f) s) (fun t => t.cqes = s.cqes ∧ (∀ c ∈ t.cmds, c.fn = f → c.kind ≠ .peer → c.started = true) ∧
      ((s.clutches.any fun x => x.place = .buffer) = true → (t.fn f).shst = 1) ∧
      ((s.clutches.any fun x => x.place = .buffer) = false → (s.cmds.any fun c => c.fn = f) = false → (s.heldSrcs.any fun c => c.fn = f) = false →
        (s.xlt.restored = false → (t.fn f).shst = 2) ∧
        (s.xlt.restored = true → s.xlt.ckptDone < s.xlt.nextRec → (t.fn f).shst = 1 ∧ t.xlt.ckptRunning = true)))) ∧
  (∀ s : State, s.pwr.on = true → s.boot.perstLow = false → s.boot.running = true →
    (∀ q, s.boot.cfgReady = false → Next (exec (.configurationRequest q) s) (fun t => t = s.reply reqPcie 0 true .none)) ∧
    (s.boot.cfgReady = true →
      (∀ b, Next (exec (.configurationRequest (.vfEnable b)) s) (fun t => t = { s with boot := { s.boot with vfEnable := b } }.reply reqPcie 0 false .none)) ∧
      (∀ b, Next (exec (.configurationRequest (.memSpace b)) s) (fun t => t = { s with boot := { s.boot with memSpace := b } }.reply reqPcie 0 false .none)) ∧
      (∀ v, s.boot.profile.window = true → v < 2 ^ 64 →
        Next (exec (.configurationRequest (.bar2 v)) s) (fun t => t.boot.bar2 ≤ v ∧ v < t.boot.bar2 + 2 ^ 26 ∧ t.boot.bar2 % 2 ^ 26 = 0)) ∧
      (s.boot.profile.window = false → Next (exec (.configurationRequest .readBar2) s) (fun t => t = s.reply reqPcie 0 false .none)) ∧
      Next (exec (.configurationRequest .other) s) (fun t => ∃ v, t.replies = ⟨reqPcie, v, false, .none⟩ :: s.replies))))

/-- R374, R376, R502: power-on waits at stage 0 with PERST_N asserted; its assertion abandons every command and sends trained DRAM into
self-refresh; its release samples PRF by majority and begins a start at stage 1, warm or cold after a flush. -/
def Obligations.PowerOnAndPerst : Prop :=
  ∀ (s : State) (t : Nat),
    (∀ xin vqps, s.pwr.on = false →
      Next (exec (.powerOn xin vqps t) s) (fun u => u.pwr.on = true ∧ u.boot.perstLow = true ∧ u.boot.running = true ∧ u.cmds = [] ∧
        u.rd Fd.TOP_BOOT_STAGE = 0 ∧ u.rd Fd.TOP_BOOT_KIND = (if s.pwr.flushed then 2 else 0) ∧ u.pins.xin = xin ∧
        u.hlt.powerCycles = s.hlt.powerCycles + 1)) ∧
    (s.pwr.on = true → s.boot.perstLow = false → s.asleep = false → s.boot.running = false →
      Next (exec (.perstNAssert t) s) (fun u => u.boot.perstLow = true ∧ u.boot.running = false ∧ u.boot.cfgReady = false ∧ u.cmds = [] ∧
        u.cqes = s.cqes ∧ ∀ c, c < 4 → s.rd (Fd.DMC_C_STATE_STATE c) = 2 → s.snc.running = none → u.rd (Fd.DMC_C_STATE_STATE c) = 5)) ∧
    (∀ samples, s.pwr.on = true → s.boot.perstLow = true → s.flag Fd.TOP_MODE_FLUSH = false →
      Next (exec (.perstNDeassert samples t) s) (fun u => u.boot.perstLow = false ∧ u.boot.running = true ∧
        u.pins.prf = majorityPins (samples.take 3) ∧ u.rd Fd.TOP_PROFILE_PINS = majorityPins (samples.take 3) ∧
        (s.boot.running = false → u.rd Fd.TOP_BOOT_STAGE = 1 ∧ u.rd Fd.TOP_BOOT_KIND = (if s.pwr.flushed then 2 else 1)) ∧
        (s.boot.running = true → u.rd Fd.TOP_BOOT_STAGE = s.rd Fd.TOP_BOOT_STAGE)))

/-- R16, R525: a power-on leaves every register at its Reset value, but for the ones a start writes itself (TOP_BOOT, EVR_STAT, EVR_NEWEST,
HLT_ALERT, GK_WAKECFG, TOP_ERR) and the words the firmware finds again with its maps (R237, R339). -/
def Obligations.PowerOnResetsTheRegisters : Prop :=
  ∀ (s : State) (xin vqps : Bool) (t : Nat), s.pwr.on = false →
    Next (exec (.powerOn xin vqps t) s) (fun u => ∀ a, keptWord a = false → a ≠ Reg.TOP_BOOT → a ≠ Reg.EVR_STAT → a ≠ Reg.EVR_NEWEST →
      a ≠ Reg.HLT_ALERT → a ≠ Reg.GK_WAKECFG → a ≠ Reg.TOP_ERR → u.word a = (regReset a).toNat)

/-- R373-R375, R378, R379, R390, R456: the end of stage 0 and of a stage 1 that could read the OTP leads on, the life-cycle state read;
unreadable OTP, unusable flash and DRAM that differs stop the start in limited service with FAIL 2, 1 and 3. R382, R383, R387, R393, R394:
stage 8 ends with the chorus locked or the profile's wait over; the decision picks SERVE where nothing stands against it, where the maps are
there no choir having run out of spares, and makes enabled functions ready; 25 s without progress restart the part warm; a change of PRF is
only noted. -/
def Obligations.StartsEndInAModeOrStop : Prop :=
  (∀ (s : State) (x : Found) (t : Nat), s.startsOn = true → s.flag Fd.GK_THERM_STOP = false →
    (s.rd Fd.TOP_BOOT_STAGE = 0 → Next (exec (.startStageComplete x t) s) (fun u => u.rd Fd.TOP_BOOT_STAGE = 1 ∧ u.boot.stageAt = max s.now t)) ∧
    (s.rd Fd.TOP_BOOT_STAGE = 1 → x.otpOk = true → s.sec.trngWaits = [] →
      Next (exec (.startStageComplete x t) s) (fun u => u.rd Fd.TOP_BOOT_STAGE = 2 ∧ u.boot.limited = s.boot.limited)) ∧
    (s.rd Fd.TOP_BOOT_STAGE = 1 → x.otpOk = false →
      Next (exec (.startStageComplete x t) s) (fun u => u.boot.limited = true ∧ u.boot.running = false ∧ u.rd Fd.TOP_BOOT_FAIL = 2 ∧
        (u.fn 0).rdy = (s.fn 0).en)) ∧
    (s.rd Fd.TOP_BOOT_STAGE = 2 → x.flashOk = false →
      Next (exec (.startStageComplete x t) s) (fun u => u.boot.limited = true ∧ u.boot.running = false ∧ u.rd Fd.TOP_BOOT_FAIL = 1)) ∧
    (s.rd Fd.TOP_BOOT_STAGE = 4 → x.dimms = [] →
      Next (exec (.startStageComplete x t) s) (fun u => u.boot.limited = true ∧ u.boot.running = false ∧ u.rd Fd.TOP_BOOT_FAIL = 3))) ∧
  (∀ (s : State) (t : Nat),
    (s.startsOn = true → s.rd Fd.TOP_BOOT_STAGE = 8 → s.flag Fd.GK_THERM_STOP = false → s.cho.goods ≠ 4 →
      s.boot.stageAt + s.boot.profile.lockWait * s.periodNs ≤ max s.now t →
      Next (exec (.chorusWaitEnd t) s) (fun u => u.rd Fd.TOP_BOOT_STAGE = 9 ∧ u.boot.stageAt = max s.now t)) ∧
    (s.startsOn = true → s.rd Fd.TOP_BOOT_STAGE = 9 → s.pwr.huStep = 0 → s.pwr.huPending = false → s.lifecycle = lFIELD →
      s.otpLifecycle = lFIELD → s.boot.sanitize = 0 → s.xlt.eol = false → s.pwr.stuck = false →
      (s.xlt.restored = true → ∀ c ∈ s.usedChoirs, nth s.xlt.spares c 0 ≠ 0) → s.rd Fd.TOP_MODE_DGCAUSE = 0 → s.fencedCount ≤ 32 → s.anyPond = true → s.hlt.holdup ≠ 1 → s.quiesce.queue = [] →
      Next (exec (.startDecision t) s) (fun u => u.mode = mServe ∧ u.boot.running = false ∧ ∀ f, (u.fn f).rdy = (s.fn f).en)) ∧
    (s.startsOn = true → s.rd Fd.TOP_BOOT_STAGE ≠ 0 → s.boot.stageAt + 25000000000 ≤ max s.now t →
      Next (exec (.startWatchdog t) s) (fun u => u.boot.running = true ∧ u.rd Fd.TOP_BOOT_STAGE = 1 ∧ u.rd Fd.TOP_BOOT_KIND = 1 ∧ u.cmds = [])) ∧
    (s.pwr.on = true → s.boot.perstLow = false →
      Next (exec (.prfChange t) s) (fun u => u.rd Fd.TOP_PROFILE_PINCHG = 1 ∧ u.pins = s.pins ∧
        u.rd Fd.TOP_PROFILE_ACTIVE = s.rd Fd.TOP_PROFILE_ACTIVE)))

/-! ## Power, clocks and temperature -/

/-- R194-R196, R507: PWRFAIL_N held low for 1 µs starts the flush: fetching stops and STATE is FLUSH; a pulse below 0.5 µs does nothing;
when everything in the buffer is programmed the flush is complete, cut short where the system area has no room; loss of VDD_AON turns the
part off and loses what is staged. R40, R198, R391, R531: the pin going high starts the 100 ms; with them over, a part under PERST_N drops
the hold and the flush state, one in SERVE re-locks through QUIESCE; a pin stuck low puts the part into READONLY with cause 3, a start goes
on. -/
def Obligations.PowerFailFlushAndRecovery : Prop :=
  (∀ (s : State) (t : Nat), s.pwr.on = true →
    (∀ width, s.pwr.pfLow = false → s.rd Fd.GK_PSTATE_CUR = 0 →
      (width < 500 → Next (exec (.pwrfailNAssert width t) s) (fun u => u = s.at t)) ∧
      (1000 ≤ width → s.mode ≠ mProvision → s.pwr.pfHold = false → s.pwr.stuck = false → s.boot.running = false →
        Next (exec (.pwrfailNAssert width t) s) (fun u => u.pwr.pfLow = true ∧ u.pwr.pfHold = true ∧ u.flag Fd.TOP_MODE_FLUSH = true ∧
          u.pwr.flushAt = max s.now t ∧ u.pwr.flushRes = 0 ∧ ∀ f, u.fetches f = false))) ∧
    (∀ room, s.flag Fd.TOP_MODE_FLUSH = true → s.pwr.flushRes = 0 → s.pwr.flushQueue = [] → s.programRuns = false → s.boot.startWait = none →
      Next (exec (.flushComplete room t) s) (fun u => u.pwr.flushRes = (if room && !s.xlt.flushCut then 1 else 2) ∧
        u.pwr.flushed = (room && !s.xlt.flushCut) ∧ u.hlt.flushes = s.hlt.flushes + 1 ∧
        u.rd Fd.XLT_FLUSH_LAST_RESULT = (if room && !s.xlt.flushCut then 1 else 2))) ∧
    Next (exec (.vddAonLoss t) s) (fun u => u.pwr.on = false ∧ u.boot.perstLow = true ∧ u.evr.staging = [] ∧ u.evr.aon = [] ∧
      u.evr.lost = s.evr.lost + s.evr.staging.length)) ∧
  (∀ (s : State) (t : Nat), s.pwr.on = true → s.pwr.pfHold = true → s.flag Fd.TOP_MODE_FLUSH = true → s.pwr.flushRes ≠ 0 →
    (s.pwr.pfLow = true → Next (exec (.pwrfailNDeassert t) s) (fun u => u.pwr.pfLow = false ∧ u.pwr.pfHigh = max s.now t ∧ u.regs = s.regs)) ∧
    (s.pwr.pfLow = false → s.boot.running = false → s.pwr.pfHigh + 100000000 ≤ max s.now t →
      (s.boot.perstLow = true → Next (exec (.pwrfailNRecovery t) s) (fun u => u.pwr.pfHold = false ∧ u.flag Fd.TOP_MODE_FLUSH = false)) ∧
      (s.boot.perstLow = false → s.mode = mServe → s.quiesce.queue = [] → s.quiesce.running = none → s.dzl.outs = [] → s.dzl.ins = [] →
        s.flag Fd.GK_THERM_STOP = false →
        Next (exec (.pwrfailNRecovery t) s) (fun u => u.pwr.pfHold = false ∧ u.flag Fd.TOP_MODE_FLUSH = false ∧ u.mode = mQuiesce ∧
          u.rd Fd.TOP_MODE_QCAUSE = 3 ∧ u.rd Fd.TOP_MODE_RETURN = mServe ∧ u.quiesce.running = some ⟨.relock false, none⟩))) ∧
    (s.pwr.pfLow = true → s.asleep = false → max s.pwr.flushEnd s.pwr.pfSince + 1000000000 ≤ max s.now t →
      (s.mode ≠ mProvision → s.boot.running = true →
        Next (exec (.pwrfailNStuck t) s) (fun u => u.pwr.stuck = true ∧ u.pwr.pfHold = false ∧ u.rd Fd.XLT_FLUSH_LAST_RESULT = 3 ∧
          u.rd Fd.TOP_BOOT_PFHELD = 0)) ∧
      (s.mode = mServe → s.boot.running = false → s.boot.perstLow = false → s.quiesce.queue = [] → s.quiesce.running = none →
        s.cmds = [] → s.dzl.outs = [] → s.dzl.ins = [] →
        Next (exec (.pwrfailNStuck t) s) (fun u => u.pwr.stuck = true ∧ u.mode = mReadonly ∧ u.rd Fd.TOP_MODE_ROCAUSE = 3))))

/-- R402, R403: Set Features of a power state completes with it in force, one past PS4 is Invalid Field in Command; the autonomous
transition takes an idle part to PS3 or PS4. R401-R406, R409, R410: the entry of IDLE, SLEEP, DEEP and OFF; an enabled wake source that
comes first unwinds it; a wake source is latched, begins a wake where it is enabled, and its end is RUN. R407: DEV_WAKE_N arms by being high
for 1 ms; a fall then is a wake source, in OFF it asserts PWR_EN; one shorter than 10 µs is ignored; 1 s after a storm the pin is armed
again. -/
def Obligations.PowerStatesAndWakes : Prop :=
  ((∀ (s : State) (src : Src) (ps : Nat), s.takes src .setFeat = true →
    (ps ≤ 4 → Next (exec (.setFeaturesPowerManagement src ps) s) (fun t => t.completes s src .success 0 0 .none ∧
      t.rd Fd.GK_PSTATE_NVME = ps ∧ t.rd Fd.CLK_OP_CEIL = t.ceiling)) ∧
    (4 < ps → Next (exec (.setFeaturesPowerManagement src ps) s) (fun t => t.completes s src .invalidField 0 0 .none ∧
      t.regs = (s.entered src).regs)) ∧
    (∀ tmt1 tmt2,
      (323 ≤ tmt1 → tmt1 < tmt2 → tmt2 ≤ 367 →
        Next (exec (.setFeaturesHctm src tmt1 tmt2) s) (fun t => t.completes s src .success 0 0 .none ∧ t.pwr.tmt1 = tmt1 ∧ t.pwr.tmt2 = tmt2)) ∧
      (tmt1 ≠ 0 → tmt1 < 323 → Next (exec (.setFeaturesHctm src tmt1 tmt2) s) (fun t => t.completes s src .invalidField 0 0 .none ∧
        t.pwr = (s.entered src).pwr)))) ∧
  (∀ (s : State) (ps : Nat), ps = 3 ∨ ps = 4 → s.rd Fd.GK_PSTATE_NVME < 3 → s.cmds = [] →
    Next (exec (.autonomousPowerStateTransition ps) s) (fun t => t.rd Fd.GK_PSTATE_NVME = ps ∧ t.cqes = s.cqes))) ∧
  (∀ (s : State), s.pwr.on = true →
    (s.rd Fd.GK_PSTATE_CUR = 0 →
      (s.rd Fd.GK_PSTATE_REQ_STATE = 1 → Next (exec (.powerStateEntry none) s) (fun t => t.rd Fd.GK_PSTATE_CUR = 1)) ∧
      (s.rd Fd.GK_PSTATE_REQ_STATE = 2 → s.sleepReady = true → Next (exec (.powerStateEntry none) s) (fun t => t.rd Fd.GK_PSTATE_CUR = 2 ∧ t.sec = s.sec)) ∧
      (s.rd Fd.GK_PSTATE_REQ_STATE = 3 → s.sleepReady = true → Next (exec (.powerStateEntry none) s) (fun t => t.rd Fd.GK_PSTATE_CUR = 3)) ∧
      (s.rd Fd.GK_PSTATE_REQ_STATE = 4 → s.offReady = true →
        Next (exec (.powerStateEntry none) s) (fun t => t.rd Fd.GK_PSTATE_CUR = 4 ∧ t.pwr.on = false ∧ t.pins.pwrEn = false)) ∧
      (∀ k, 0 < s.rd Fd.GK_PSTATE_REQ_STATE → s.rd Fd.GK_PSTATE_REQ_STATE ≤ 4 → k < 7 → (s.rd Fd.GK_WAKECFG_EN).testBit k = true →
        Next (exec (.powerStateEntry (some k)) s) (fun t => t.rd Fd.GK_PSTATE_CUR = 0 ∧ t.rd Fd.GK_PSTATE_REQ_STATE = 0 ∧
          (t.rd Fd.GK_WAKESRC_PEND).testBit k = true))) ∧
    (s.asleep = true →
      (s.rd Fd.GK_WAKECFG_TIMER ≠ 0 → Next (exec .timerWake s) (fun t => (t.rd Fd.GK_WAKESRC_PEND).testBit 5 = true ∧
        ((s.rd Fd.GK_WAKECFG_EN).testBit 5 = true → s.pwr.waking = none → t.pwr.waking = some 5))) ∧
      Next (exec .clkreqNWake s) (fun t => (t.rd Fd.GK_WAKESRC_PEND).testBit 1 = true ∧
        ((s.rd Fd.GK_WAKECFG_EN).testBit 1 = true → s.pwr.waking = none → t.pwr.waking = some 1)) ∧
      (∀ off, off < windowSize → s.hasWindow = true → Next (exec (.windowAccessInLowPower off) s) (fun t =>
        t.pwr.held = s.pwr.held ++ [(false, off / 4 * 4, 1)] ∧ t.replies = s.replies ∧ (t.rd Fd.GK_WAKESRC_PEND).testBit 1 = true)) ∧
      (∀ k fails dimms t, s.pwr.waking = some k → s.pwr.held = [] →
        Next (exec (.wakeEvent fails dimms t) s) (fun u => u.asleep = false ∧ u.pwr.waking = none)))) ∧
  (∀ (s : State) (t : Nat),
    (∀ width, s.pwr.highSince = none → Next (exec (.devWakeNEdge true width t) s) (fun u => u.pwr.highSince = some (max s.now t))) ∧
    (∀ width, width < 10000 → Next (exec (.devWakeNEdge false width t) s) (fun u => u = s.at t)) ∧
    (∀ width h, 10000 ≤ width → s.pwr.highSince = some h → h + 1000000 ≤ max s.now t → (s.at t).storm = false →
      Next (exec (.devWakeNEdge false width t) s) (fun u => u.pwr.highSince = none ∧
        (s.rd Fd.GK_PSTATE_CUR = 4 → u.pins.pwrEn = true) ∧
        (s.rd Fd.GK_PSTATE_CUR ≠ 4 → s.pwr.on = true → (u.rd Fd.GK_WAKESRC_PEND).testBit 0 = true))) ∧
    ((s.at t).storm = false → Next (exec (.devWakeStormEnd t) s) (fun u => u.rd Fd.GK_WAKECFG_STORM = 0)))

/-- R411-R413, R415, R423: the request of an operating point is bound by the ceiling, and the clocks never stay above it; a climb raises the
voltage first and the clocks when the rail has settled; a descent lowers the clocks at once; a sag brings OP0. R413, R414, R417: a target
voltage below what the clocks need is held, another is sent; the current reading lands in DATA; a regulator fault leaves the operating
point, and each failed retry sets ERR again. The command number of a target voltage is the model's (PRESUMED, assumption 42). -/
def Obligations.OperatingPointsAndRegulator : Prop :=
  (∀ (s : State),
    (∀ r v, s.writable r Reg.CLK_OP = true → v < 2 ^ 32 →
      Next (exec (.clkOpReqWrite r v) s) (fun t => t.rd Fd.CLK_OP_REQ = getBits v Fd.CLK_OP_REQ.msb Fd.CLK_OP_REQ.lsb ∧
        t.rd Fd.CLK_OP_CEIL = t.ceiling ∧ (s.pwr.avsFault = false → t.pwr.clkOp ≤ t.rd Fd.CLK_OP_CEIL) ∧
        (s.pwr.avsFault = true → t.pwr.clkOp = s.pwr.clkOp))) ∧
    (s.asleep = false → s.pwr.on = true → s.pwr.avsFault = false →
      (s.pwr.clkOp < s.opTarget → s.pwr.climbing ≠ some s.opTarget →
        Next (exec .dvfsStep s) (fun t => t.pwr.climbing = some s.opTarget ∧ t.pwr.avsNow = opVolt s.opTarget ∧
          t.pwr.clkOp = s.pwr.clkOp ∧ t.rd Fd.CLK_AVS_STAT_BUSY = 1)) ∧
      (s.opTarget < s.pwr.clkOp → Next (exec .dvfsStep s) (fun t => t.pwr.clkOp = s.opTarget ∧ t.pwr.climbing = none))) ∧
    (∀ k, s.pwr.avsFault = false → s.pwr.climbing = some k →
      Next (exec .dvfsRailSettled s) (fun t => t.rd Fd.CLK_AVS_STAT_BUSY = 0 ∧ t.pwr.climbing = none ∧ t.pwr.clkOp ≤ t.rd Fd.CLK_OP_CEIL ∧
        (k ≤ s.ceiling → t.pwr.clkOp = k))) ∧
    (s.pwr.on = true → Next (exec .vddCoreSag s) (fun t => t.pwr.clkOp = 0 ∧ t.rd Fd.CLK_OP_CUR = 0 ∧ t.rd Fd.CLK_AVS_STAT_ERR = 1 ∧
      (s.pwr.avsHeld = none → t.pwr.avsNow = s.pwr.avsNow) ∧
      ∀ v, s.pwr.avsHeld = some v → opVolt 0 ≤ v → t.pwr.avsNow = v ∧ t.pwr.avsHeld = none))) ∧
  (∀ (s : State),
    (∀ r v answer, s.writable r Reg.CLK_AVS_CMD = true → v.testBit 31 = true →
      (v.testBit 30 = true → Next (exec (.clkAvsCmd r v answer) s) (fun t => t.rd Fd.CLK_AVS_STAT_DATA = answer % 65536)) ∧
      (v.testBit 30 = false → getBits v 27 24 = avsTarget →
        (getBits v 15 0 < opVolt s.pwr.clkOp → Next (exec (.clkAvsCmd r v answer) s) (fun t =>
          t.pwr.avsHeld = some (getBits v 15 0) ∧ t.pwr.avsNow = s.pwr.avsNow ∧ t.rd Fd.CLK_AVS_STAT_HELD = 1)) ∧
        (opVolt s.pwr.clkOp ≤ getBits v 15 0 → Next (exec (.clkAvsCmd r v answer) s) (fun t =>
          t.pwr.avsHeld = none ∧ t.pwr.avsNow = getBits v 15 0 ∧ t.rd Fd.CLK_AVS_STAT_HELD = 0 ∧ t.rd Fd.CLK_AVS_STAT_BUSY = 1)))) ∧
    (s.asleep = false → s.pwr.on = true →
      (∀ c, Next (exec (.avsCurrentRead c) s) (fun t => t.pwr.current = c ∧ t.rd Fd.CLK_AVS_STAT_DATA = c % 65536)) ∧
      Next (exec .avsRegulatorFault s) (fun t => t.pwr.avsFault = true ∧ t.rd Fd.CLK_AVS_STAT_ERR = 1 ∧ t.pwr.clkOp = s.pwr.clkOp ∧
        t.rd Fd.CLK_OP_CUR = s.rd Fd.CLK_OP_CUR)) ∧
    (s.pwr.avsFault = true →
      Next (exec (.avsRetry true) s) (fun t => t.pwr.avsFault = false ∧ t.rd Fd.CLK_AVS_STAT_ERR = s.rd Fd.CLK_AVS_STAT_ERR ∧
        t.pwr.clkOp ≤ t.rd Fd.CLK_OP_CEIL) ∧
      Next (exec (.avsRetry false) s) (fun t => t.pwr.avsFault = true ∧ t.rd Fd.CLK_AVS_STAT_ERR = 1)))

/-- R162, R416, R417: the highest usable pond is gated while more than two are open: it begins to drain; drained, its clock stops; it is
ungated within the ponds the operating point allows, lowest first. -/
def Obligations.PondGating : Prop :=
  ∀ (s : State) (p : Nat), p < 8 →
    (s.usable p = true → 2 < s.openPonds.length → s.openPonds.getLast? = some p → s.gated p = false → s.pwr.gating.contains p = false →
      Next (exec (.pondGate p) s) (fun t => t.pwr.gating = s.pwr.gating ++ [p] ∧ t.gated p = false)) ∧
    (s.pwr.gating.contains p = true → s.drained p = true →
      Next (exec (.pondGateDrained p) s) (fun t => t.gated p = true ∧ t.pwr.gating.contains p = false)) ∧
    (s.pwr.gating.contains p = false → s.gated p = true → s.ungated < opPonds (s.rd Fd.CLK_OP_CUR) →
      ((List.range p).any fun q => s.gated q && decide (4 ≤ s.unfenced q)) = false →
      Next (exec (.pondUngate p) s) (fun t => t.gated p = false))

/-- R418, R419, R423, R424: a bad conversion shows FAULT and RAW 127, a good one its value; a composite of 102 °C or a TD input at its limit
puts STOP in force; every 100 ms the level moves by the rule, 4 while STOP is in force. R37, R42, R396, R424-R426: with everything
programmed, STOP takes SERVE to HOLD and remembers where from; cleared after its dwell, HOLD goes back, and a held start goes on; at 110 °C
or with 9 readings FAULT the part trips. -/
def Obligations.TemperaturesLevelsAndTrip : Prop :=
  (∀ (s : State) (t : Nat), s.pwr.on = true →
    (∀ n raw bad, n < 16 → s.rd Fd.GK_PSTATE_CUR ≠ 4 →
      Next (exec (.tempSample n raw bad t) s) (fun u =>
        (bad = true → u.flag (Fd.GK_TEMP_FAULT n) = true ∧ u.rd (Fd.GK_TEMP_RAW n) = 127) ∧
        (bad = false → -40 ≤ raw → raw ≤ 127 → s.flag (Fd.GK_TEMP_FAULT n) = false →
          u.flag (Fd.GK_TEMP_FAULT n) = false ∧ u.rd (Fd.GK_TEMP_RAW n) = tempBits raw) ∧
        (s.pwr.trip = false → 102 ≤ u.composite ∨ u.rd Fd.GK_THERM_TDSTOP ≠ 0 → u.flag Fd.GK_THERM_STOP = true))) ∧
    (s.flag Fd.GK_THERM_STOP = true → Next (exec (.thermalStep t) s) (fun u => u.rd Fd.GK_THERM_LEVEL = 4)) ∧
    (s.flag Fd.GK_THERM_STOP = false → Next (exec (.thermalStep t) s) (fun u => u.rd Fd.GK_THERM_LEVEL = (s.at t).nextLevel))) ∧
  (∀ (s : State),
    (s.flag Fd.GK_THERM_STOP = true → s.boot.running = false → s.asleep = false → s.flag Fd.TOP_MODE_FLUSH = false → s.pwr.pfHold = false →
      s.drainedForHold = true → s.mode = mServe →
      Next (exec .holdEntry s) (fun t => t.mode = mHold ∧ t.rd Fd.TOP_MODE_RETURN = mServe)) ∧
    (∀ t c, s.flag Fd.GK_THERM_STOP = true → s.pwr.coolSince = some c → c + max 1 (s.rd Fd.GK_THCFG_DWELL) * 1000000000 ≤ max s.now t →
      (s.boot.running = true → Next (exec (.stopClear t) s) (fun u => u.flag Fd.GK_THERM_STOP = false ∧ u.rd Fd.TOP_BOOT_THERM = 0)) ∧
      (s.boot.running = false → s.mode = mHold → s.rd Fd.TOP_MODE_RETURN = mServe → s.rd Fd.TOP_MODE_DGCAUSE = 0 → s.xlt.eol = false →
        s.quiesce.queue = [] → s.dzl.ins = [] →
        Next (exec (.stopClear t) s) (fun u => u.flag Fd.GK_THERM_STOP = false ∧ u.mode = mServe))) ∧
    (s.pwr.trip = false → s.pwr.on = true → s.rd Fd.GK_PSTATE_CUR ≠ 4 → 110 ≤ s.hottest ∨ 9 ≤ s.faultCount →
      Next (exec .thermalTrip s) (fun t => t.pwr.trip = true ∧ t.pwr.tripSeen = true ∧ ∀ f, t.fetches f = false)))

/-! ## Logs, health and events -/

/-- R234, R265-R267, R473, R478, R491: what each log page answers: the SMART log's live rows, the heads of Lyskin Health, Chorus Schedule
and Pool Usage, the autotomy and event pages to PF0 alone, 64-byte offsets for events. R265, R266: sets 1 to 4 alone have a predictable
latency log, events and a window; the log of a set begins with its window once the function has enabled the set, and is 0 before (the
model's choice, assumption 125); the window cannot be set; reading the aggregate with RAE clear empties it; the set list names a set for
each choir and says which choirs are used (R206). -/
def Obligations.LogPagesAndLatencyWindows : Prop :=
  (∀ (s : State) (src : Src) (rae : Bool), s.takes src .logPage = true →
    Next (exec (.getLogPageSmart src rae) s) (fun t => ∃ l, t.cqes.head? = some (cqeOf src .success 0 0 (.smart l)) ∧
      l.critical = s.rd Fd.HLT_CRIT_CW ∧ l.composite = kelvin s.composite ∧ l.threshold = 10 ∧ l.spare = s.rd Fd.HLT_LIFE_SPARE ∧
      l.used = s.rd Fd.HLT_LIFE_USED ∧ l.powerCycles = s.hlt.powerCycles ∧ l.sensors.length = 8) ∧
    Next (exec (.getLogPageLyskinHealth src rae) s) (fun t => ∃ b, t.cqes.head? = some (cqeOf src .success 0 0 (.bytes b)) ∧
      b.take 2 = [1, 0] ∧ b[3]? = some (byte s.mode)) ∧
    Next (exec (.getLogPageChorusSchedule src rae) s) (fun t => ∃ b, t.cqes.head? = some (cqeOf src .success 0 0 (.bytes b)) ∧
      b.length = 128 ∧ b.take 8 = leBytes 8 s.counter) ∧
    Next (exec (.getLogPagePoolUsage src rae) s) (fun t => ∃ b, t.cqes.head? = some (cqeOf src .success 0 0 (.bytes b)) ∧
      (src.fn = 0 → b.take 4 = leBytes 4 s.assignedFns.length) ∧ (src.fn ≠ 0 → b.take 40 = zeros 40)) ∧
    (src.fn ≠ 0 →
      Next (exec (.getLogPageAutotomyRecord src rae) s) (fun t => t.completes s src .invalidLogPage 0 0 .none) ∧
      ∀ o n, Next (exec (.getLogPageEventRecords src rae o n) s) (fun t => t.completes s src .invalidLogPage 0 0 .none)) ∧
    (src.fn = 0 →
      Next (exec (.getLogPageAutotomyRecord src rae) s) (fun t => ∃ b, t.cqes.head? = some (cqeOf src .success 0 0 (.bytes b)) ∧
        b.take 4 = leBytes 4 s.med.auto.length) ∧
      (∀ o n, o % 64 ≠ 0 → Next (exec (.getLogPageEventRecords src rae o n) s) (fun t => t.completes s src .invalidField 0 0 .none)) ∧
      ∀ n, Next (exec (.getLogPageEventRecords src rae 0 n) s) (fun t => ∃ b, t.cqes.head? = some (cqeOf src .success 0 0 (.bytes b)) ∧
        b.length ≤ n ∧ (t.fn 0).fixedEvents = some (s.retained.map (·.seq))))) ∧
  (∀ (s : State) (src : Src) (set : Nat),
    (s.takes src .logPage = true → ∀ rae,
      (set = 0 ∨ 4 < set → Next (exec (.getLogPagePredictableLatency src set rae) s) (fun t => t.completes s src .invalidField 0 0 .none)) ∧
      (0 < set → set ≤ 4 → Next (exec (.getLogPagePredictableLatency src set rae) s) (fun t => ∃ l, l.length = 7 ∧
        ((s.fn src.fn).plmOn.contains set = true → l.head? = some (s.plmWindow (set - 1))) ∧
        ((s.fn src.fn).plmOn.contains set = false → ∀ x ∈ l, x = 0) ∧ t.cqes.head? = some (cqeOf src .success 0 0 (.latency l)))) ∧
      Next (exec (.getLogPagePlmEventAggregate src rae) s) (fun t =>
        t.cqes.head? = some (cqeOf src .success 0 0 (.setEvents (s.fn src.fn).plmPend)) ∧
        (t.fn src.fn).plmPend = if rae then (s.fn src.fn).plmPend else [])) ∧
    (s.takes src .setFeat = true →
      (∀ en, set = 0 ∨ 4 < set → Next (exec (.setFeaturesPlmConfig src set en) s) (fun t => t.completes s src .invalidField 0 0 .none)) ∧
      (∀ en, 0 < set → set ≤ 4 → Next (exec (.setFeaturesPlmConfig src set en) s) (fun t => t.completes s src .success 0 0 .none ∧
        (t.fn src.fn).plmOn.contains set = en ∧ ∀ k, k ≠ set → ((t.fn src.fn).plmOn.contains k = (s.fn src.fn).plmOn.contains k))) ∧
      Next (exec (.setFeaturesPlmWindow src) s) (fun t => t.completes s src .featureNotChangeable 0 0 .none)) ∧
    (s.takes src .getFeat = true → 0 < set → set ≤ 4 →
      Next (exec (.getFeaturesPlmWindow src set) s) (fun t => t.completes s src .success (s.plmWindow (set - 1)) 0 .none)) ∧
    (s.takes src .identify = true →
      Next (exec (.identifyNvmSetList src) s) (fun t => t.completes s src .success 0 0 (.sets ((List.range 4).map fun c => (c + 1, c, s.usedChoirs.contains c))))))

/-- R406, R473, R478, R479, R492, R503: the sideband is answered from the gecko's copies, its live temperature and PF0's readiness; other
commands wake a sleeping part; Read Event Ring answers 1 to 64 records of the AON ring; the copies follow the registers; every minute
counts. The data the spec does not lay out is a free value (assumption 3); which bytes of NVMe-MI's structures the polls answer is the
model's (assumption 113). -/
def Obligations.ManagementEndpointAndHealth : Prop :=
  ∀ (s : State), s.pwr.on = true → s.rd Fd.GK_PSTATE_CUR ≠ 4 →
    Next (exec .subsystemHealthStatusPoll s) (fun t =>
      t = s.reply reqSideband 0 false (.health false [nth s.hlt.gecko 0 0, kelvin s.composite, nth s.hlt.gecko 1 0, nth s.hlt.gecko 2 0,
        (s.fn 0).rdy.toNat])) ∧
    Next (exec .controllerHealthStatusPoll s) (fun t =>
      t = s.reply reqSideband 0 false (.health true [nth s.hlt.gecko 0 0, kelvin s.composite, nth s.hlt.gecko 1 0, nth s.hlt.gecko 2 0,
        (s.fn 0).rdy.toNat])) ∧
    Next (exec .readNvmeMiDataStructure s) (fun t => ∃ v, t.replies = ⟨reqSideband, v, false, .none⟩ :: s.replies ∧ t.regs = s.regs) ∧
    (s.asleep = true → Next (exec .nvmeMiOtherCommand s) (fun t => t.replies = s.replies ∧ (t.rd Fd.GK_WAKESRC_PEND).testBit 6 = true)) ∧
    (s.asleep = false → Next (exec .nvmeMiOtherCommand s) (fun t => ∃ v, t.replies = ⟨reqSideband, v, false, .none⟩ :: s.replies)) ∧
    (∀ n, 0 < n → n ≤ 64 → Next (exec (.readEventRing n) s) (fun t =>
      t.replies = ⟨reqSideband, 0, false, .bytes ((s.evr.aon.take n).flatMap Rec.bytes)⟩ :: s.replies)) ∧
    Next (exec (.readEventRing 65) s) (fun t => t.replies = ⟨reqSideband, 0, true, .none⟩ :: s.replies) ∧
    Next (exec .healthCopyToGecko s) (fun t => t.hlt.gecko =
      [s.rd Fd.HLT_CRIT_CW, s.rd Fd.HLT_LIFE_SPARE, s.rd Fd.HLT_LIFE_USED, s.rd Fd.HLT_LIFE_SRC] ∧ t.regs = s.regs) ∧
    Next (exec .healthMinuteTick s) (fun t => t.hlt.onMinutes = s.hlt.onMinutes + 1 ∧ t.hlt.tmax = max s.hlt.tmax s.composite ∧
      t.hlt.warnMinutes = s.hlt.warnMinutes + (if 95 ≤ s.composite then 1 else 0) ∧
      t.hlt.critMinutes = s.hlt.critMinutes + (if 102 ≤ s.composite then 1 else 0) ∧ t.regs = s.regs)

/-- R464, R485, R486: staged records go to the ring, up to the rest of a page, in order, or a whole unit to the NAND event area; a code's
bucket gains a token up to its capacity, and one with suppressed events writes their summary instead. The size of the NAND area's
replacement is the model's (assumption 22). R490, R493: the cursor commands set the requester's cursor to the newest, oldest or next
retained record and start its fetch, as a write of the cursor's high word does; the fetch ends with FOUND, and FETCH reads 0. -/
def Obligations.EventRecordsAndCursor : Prop :=
  ((∀ s : State, s.logHomeNow = s.rd Fd.EVR_STAT_HOME → s.asleep = false → s.evr.staging ≠ [] →
    (s.rd Fd.EVR_STAT_HOME = 0 → s.snc.running = none → s.rd Fd.SNC_XIP_DETACH_DETACH = 0x1FFFF → s.flag Fd.SNC_CFG_PRESENT = true →
      Next (exec .eventRingProgram s) (fun t => t.evr.staging = s.evr.staging.drop (4 - s.evr.ringPos % 4) ∧
        t.evr.ringPos = (s.evr.ringPos + min (4 - s.evr.ringPos % 4) s.evr.staging.length) % (ringBlocks * ringPer) ∧
        ∀ r ∈ s.evr.staging.take (4 - s.evr.ringPos % 4), ∃ k, (k, r) ∈ t.evr.ring)) ∧
    (s.rd Fd.EVR_STAT_HOME = 1 → 1024 ≤ s.evr.staging.length → s.anyLoud = true →
      Next (exec .eventRingProgram s) (fun t => t.evr.staging = s.evr.staging.drop 1024 ∧ ∀ r ∈ s.evr.staging.take 1024, r ∈ t.evr.nand))) ∧
  (∀ (s : State) (code : Nat), evCodes.contains code = true → evSeverity code ≠ 4 →
    ((s.evr.bucket code).supp = 0 → Next (exec (.tokenBucketRefill code) s) (fun t => t.evr.nextSeq = s.evr.nextSeq ∧
      (t.evr.bucket code).tokens = min ((s.evr.bucket code).tokens + 1) (evCapacity (evSeverity code)))) ∧
    ((s.evr.bucket code).supp ≠ 0 → Next (exec (.tokenBucketRefill code) s) (fun t => t.evr.nextSeq = s.evr.nextSeq + 1 ∧
      (t.evr.bucket code).supp = 0 ∧ ∃ r, t.evr.aon.head? = some r ∧ r.code = code ∧ r.seq = s.evr.nextSeq ∧
        r.payload = (s.evr.bucket code).last)))) ∧
  (∀ (s : State) (r : Nat),
    (s.writable r Reg.EVR_CMD = true →
      Next (exec (.evrCmdNewest r) s) (fun t => t.flag (Fd.EVR_STAT_FETCH.inBank (bankOf r)) = true ∧
        ∀ q, s.retained.getLast? = some q → q.seq < 2 ^ 48 → t.rd (Fd.EVR_CURSOR_SEQ.inBank (bankOf r)) = q.seq) ∧
      Next (exec (.evrCmdOldest r) s) (fun t => t.flag (Fd.EVR_STAT_FETCH.inBank (bankOf r)) = true ∧
        ∀ q, s.retained.head? = some q → q.seq < 2 ^ 48 → t.rd (Fd.EVR_CURSOR_SEQ.inBank (bankOf r)) = q.seq) ∧
      Next (exec (.evrCmdNext r) s) (fun t => t.flag (Fd.EVR_STAT_FETCH.inBank (bankOf r)) = true ∧
        ∀ q, (s.retained.find? fun x => decide (s.rd (Fd.EVR_CURSOR_SEQ.inBank (bankOf r)) < x.seq)) = some q → q.seq < 2 ^ 48 →
          t.rd (Fd.EVR_CURSOR_SEQ.inBank (bankOf r)) = q.seq)) ∧
    (s.writable r (Reg.EVR_CURSOR + 4) = true → ∀ v,
      Next (exec (.evrCursorHighWrite r v) s) (fun t => t.flag (Fd.EVR_STAT_FETCH.inBank (bankOf r)) = true ∧
        (t.evr.fetching.any fun e => e.1 = bankOf r) = true)) ∧
    (requesterOk r = true → ∀ n, (s.evr.fetching.find? fun e => e.1 = bankOf r) = some (bankOf r, n, true) →
      Next (exec (.evrFetchComplete r) s) (fun t => t.flag (Fd.EVR_STAT_FETCH.inBank (bankOf r)) = false ∧
        t.flag (Fd.EVR_STAT_FOUND.inBank (bankOf r)) = (s.evr.aon[n]?).isSome ∧
        (t.evr.fetching.any fun e => e.1 = bankOf r) = false)))

/-! ## Chorus and link -/

/-- R238, R239, R241, R244-R247: a call boundary advances the counter by one and the call start by a call; a pulse under 100 ns is no beat;
an early beat is rejected; a qualified beat in phase aligns a locked part. R243, R246, R253: without a beat for 1.02 periods LOCKED becomes
HOLDOVER; 10 s later DRIFTING, at 60 s UNLOCKED; a second without rejections ends NOISY; a re-lock that gets no train is abandoned, its
command with Command Sequence Error. -/
def Obligations.CallsBeatsAndLockStates : Prop :=
  (∀ (s : State), s.pwr.on = true → s.asleep = false →
    (s.rd Fd.GK_PSTATE_CUR ≠ 4 → s.pwr.trip = false →
      Next (exec .callBoundary s) (fun t => t.counter = (if s.counter = 0 then 0 else (s.counter + 1) % 2 ^ 64) ∧
        (s.cho.slew = 0 → s.cho.callSub < 8 → t.cho.callStart = s.cho.callStart + s.callNs))) ∧
    (∀ c t, c < 4 → Next (exec (.turnClosing c t) s) (fun u => ∀ o ∈ u.med.ops, o.kind = .erase → o.ce = c → o.st ≠ 1 ∧ o.st ≠ 2 ∧ o.st ≠ 3)) ∧
    (∀ t w, w < 100 → Next (exec (.chbInBeat t w) s) (fun u => u = s)) ∧
    (∀ t w, 100 ≤ w → s.pinSource = true → s.boot.running = false → s.rd Fd.CHO_STATE_SRC_USED = 1 → s.cho.refSrc = 1 →
      s.choState = sLOCKED →
      (classify s.framePeriod s.cho.ref t = .early →
        Next (exec (.chbInBeat t w) s) (fun u => t ∈ u.cho.rejects ∧ u.cho.lastQual = s.cho.lastQual ∧ u.choState = sLOCKED)) ∧
      (∀ g, classify s.framePeriod s.cho.ref t = .qualified g → offPhase (s.beatOffset t) = false →
        Next (exec (.chbInBeat t w) s) (fun u => u.cho.aligned = some t ∧ u.cho.lastQual = some t ∧ u.cho.slew = 8 * s.beatOffset t ∧
          u.cho.goods = nextGoods s.cho.goods g ∧ u.choState = sLOCKED)))) ∧
  (∀ (s : State) (t : Nat),
    (∀ q, s.cho.lastQual = some q → s.dzl.switchSoon = false → s.framePeriod * 102 ≤ (t - q) * 100 → s.choState = sLOCKED →
      Next (exec (.beatTimeout t) s) (fun u => u.choState = sHOLDOVER ∧ u.cho.goods = 0)) ∧
    (s.choState = sHOLDOVER → 10000000000 ≤ (s.at t).since → Next (exec (.holdoverExpiry t) s) (fun u => u.choState = sDRIFTING)) ∧
    (s.choState = sDRIFTING → 60000000000 ≤ (s.at t).since →
      Next (exec (.driftExpiry t) s) (fun u => u.choState = 0 ∧ u.rd Fd.CHO_STATE_SRC_USED = 0)) ∧
    ((s.cho.rejects.any fun r => decide (t < r + 1000000000)) = false →
      Next (exec (.noisyClear t) s) (fun u => u.flag Fd.CHO_STATE_NOISY = false ∧ u.cho.rejects = [])) ∧
    (∀ src, s.cho.relocking = true → s.cho.goods < 4 → s.dzl.switchDue = false → s.quiesce.running = some ⟨.relock false, some src⟩ → s.quiesce.queue = [] →
      s.flag Fd.GK_THERM_STOP = false →
      Next (exec .relockAcquisitionTimeout s) (fun u => u.cho.relocking = false ∧ u.quiesce.running = none ∧
        cqeOf src .commandSequence 0 0 .none ∈ u.cqes)))

/-- R253, R268-R271, R523: RELOCK starts a re-lock through QUIESCE and reads 1; a staged field that differs waits for the next switch, under
LOCK nothing is staged; Chorus Control refuses a bad block, and a length with action 01h (R121), completes at once where nothing differs,
and else waits for its re-lock. -/
def Obligations.RelocksAndChorusControl : Prop :=
  ∀ (s : State), s.mode = mServe → s.quiesce.queue = [] → s.flag Fd.GK_THERM_STOP = false → s.flag Fd.TOP_MODE_FLUSH = false → s.pwr.pfHold = false →
    (∀ r, s.writable r Reg.CHO_CTL = true → s.quiesce.running = none →
      Next (exec (.choCtlRelock r) s) (fun t => t.flag Fd.CHO_CTL_RELOCK = true ∧ t.cho.relocking = true ∧ t.mode = mQuiesce)) ∧
    (∀ r v, s.writable r Reg.CHO_PHASE = true → v < 256 →
      (s.flag Fd.TOP_LOCK_LOCK = true → Next (exec (.stagedFieldWrite r Reg.CHO_PHASE v) s) (fun t => t.cho.staged = s.cho.staged ∧
        (t.word Reg.TOP_ERR).testBit 5 = true)) ∧
      (s.flag Fd.TOP_LOCK_LOCK = false → s.cho.staged = [] → v ≠ s.rd Fd.CHO_PHASE_PHASE →
        Next (exec (.stagedFieldWrite r Reg.CHO_PHASE v) s) (fun t => t.cho.staged = [(1, v)] ∧ t.flag Fd.CHO_CTL_PENDING = true ∧
          t.rd Fd.CHO_PHASE_PHASE = s.rd Fd.CHO_PHASE_PHASE))) ∧
    (∀ src block, s.takes src .vendor = true →
      ((s.entered src).chorusOk block = false →
        Next (exec (.chorusControlApply src block) s) (fun t => t.completes s src .invalidField 0 0 .none ∧ t.cho = s.cho)) ∧
      ((s.entered src).chorusOk block = true → s.quiesce.running = none →
        Next (exec (.chorusControlApply src block) s) (fun t => t.cho.unstaged = blockUnstaged block ∧
          (if (blockStaged block).any (fun e => s.stagedNow e.1 ≠ e.2)
           then t.mode = mQuiesce ∧ t.quiesce.running = some ⟨.relock true, some src⟩
           else t.completes s src .success 0 0 .none))) ∧
      (∀ len, len ≠ 0 → Next (exec (.chorusControlRelock src len) s) (fun t => t.completes s src .invalidField 0 0 .none ∧ t.cho = s.cho)) ∧
      (s.quiesce.running = none → Next (exec (.chorusControlRelock src 0) s) (fun t => t.mode = mQuiesce ∧ t.cho.relocking = true ∧
        t.quiesce.running = some ⟨.relock false, some src⟩)))

/-- R272, R274-R276: bring-up step by step, while the link's clock runs: signal, training, HELLO, a partner that does not fit is MISWIRED
and tried again every second; a step that takes 200 ms fails the bring-up, to BACKOFF where it did not come from UP; signal loss takes the
port down. R278, R279, R299, R360: the responder answers AUTH1 with a frame, each side checks the other's tag, a good one opens the session
with its counters at 0, a bad one under the previous key counts and takes the port out of AUTH, under the current key leaves the exchange
under the previous one to come; a probe's reply gives the delay, the eighth makes the port UP; a counter at 2^47 re-keys. -/
def Obligations.PortBringUpAndAuthentication : Prop :=
  (∀ (s : State) (p t : Nat), p < 4 → s.dzl.ports.length = 4 → s.linkRuns = true →
    (s.portUsed p = true → s.pst p = pNOSIGNAL → Next (exec (.portSignalDetect p t) s) (fun u => u.pst p = pTRAINING)) ∧
    (s.pst p = pTRAINING → Next (exec (.portTrainingComplete p t) s) (fun u => u.pst p = pHELLO ∧
      ∃ f, u.dzl.frames.head? = some f ∧ f.port = p ∧ f.type = 1)) ∧
    (∀ g dev x y pp, s.pst p = pHELLO → dev < 1024 →
      (g ≠ s.rd Fd.DZL_GROUP_GROUP ∨ dev ≠ s.neighbour s.selfId p ∨ pp ≠ partnerPort p →
        Next (exec (.hello p g dev x y pp t) s) (fun u => u.pst p = pMISWIRED)) ∧
      (g = s.rd Fd.DZL_GROUP_GROUP → x = s.rd Fd.DZL_GEOM_DIMX → y = s.rd Fd.DZL_GEOM_DIMY → dev = s.neighbour s.selfId p →
        pp = partnerPort p → dev ≠ s.selfId →
        Next (exec (.hello p g dev x y pp t) s) (fun u => u.pst p = pAUTH ∧ u.rd (Fd.DZL_P_STATE_PARTNER p) = dev))) ∧
    (s.pst p = pMISWIRED → (s.port p).since + 1000000000 ≤ t → Next (exec (.miswiredHelloRetry p t) s) (fun u => u.pst p = pMISWIRED ∧
      ∃ f, u.dzl.frames.head? = some f ∧ f.port = p ∧ f.type = 1)) ∧
    (s.pst p = pTRAINING → (s.port p).since + 200000000 ≤ t → Next (exec (.bringupTimeout p t) s) (fun u =>
      u.pst p = if (s.port p).fromUp && decide ((s.port p).fails + 1 < 3) then pNOSIGNAL else pBACKOFF)) ∧
    (s.pst p = pBACKOFF → (s.port p).since + (s.port p).backoff * 1000000000 ≤ t →
      Next (exec (.backoffExpiry p t) s) (fun u => u.pst p = pNOSIGNAL)) ∧
    (s.pst p = pUP → Next (exec (.portSignalLoss p t) s) (fun u => u.pst p = pNOSIGNAL ∧ (u.port p).session = false)) ∧
    (s.pst p = pBACKOFF → Next (exec (.portSignalLoss p t) s) (fun u => u.pst p = pBACKOFF ∧ u.dzl = s.dzl))) ∧
  (∀ (s : State) (p t : Nat), p < 4 → s.dzl.ports.length = 4 →
    (∀ nonce prev, s.authOpen p = true → s.initiator p = false → s.trngOk = true →
      Next (exec (.auth1 p nonce prev t) s) (fun u => (u.port p).nonceA = nonce ∧ (u.port p).usePrev = prev ∧
        ∃ f, u.dzl.frames.head? = some f ∧ f.port = p ∧ f.type = 2)) ∧
    (∀ nonce tag, s.pst p = pAUTH → (s.port p).session = false → s.initiator p = true → (s.port p).nonceA ≠ [] →
      (s.authTag p 0x52 (s.port p).usePrev (s.port p).nonceA nonce = some tag →
        Next (exec (.auth2 p nonce tag t) s) (fun u => (u.port p).session = true ∧ (u.port p).recvSeq = 0 ∧ u.pst p = pAUTH)) ∧
      (s.authTag p 0x52 (s.port p).usePrev (s.port p).nonceA nonce ≠ some tag → (s.port p).usePrev = true →
        Next (exec (.auth2 p nonce tag t) s) (fun u => (u.port p).session = false ∧ u.pst p ≠ pAUTH ∧
          (u.port p).authFails = (s.port p).authFails + 1))) ∧
    (∀ tag, s.pst p = pAUTH → (s.port p).session = false → s.initiator p = false → (s.port p).nonceB ≠ [] →
      (s.authTag p 0x49 (s.port p).usePrev (s.port p).nonceA (s.port p).nonceB = some tag →
        Next (exec (.auth3 p tag t) s) (fun u => (u.port p).session = true ∧ (u.port p).recvSeq = 0 ∧ u.pst p = pAUTH)) ∧
      (s.authTag p 0x49 (s.port p).usePrev (s.port p).nonceA (s.port p).nonceB ≠ some tag →
        Next (exec (.auth3 p tag t) s) (fun u => (u.port p).session = false ∧
          (if (s.port p).usePrev then u.pst p ≠ pAUTH else u.pst p = pAUTH ∧ (u.port p).nonceB = [])))) ∧
    (∀ rx t1 t2 t3 t4, rx.port = p → (s.port p).session = true → rx.seq = (s.port p).recvSeq → (s.port p).rekey = false →
      s.flag Fd.DZL_DEVID_CONFLICT = false → s.pst p = pAUTH → (s.port p).probes.length = 7 →
      Next (exec (.delay rx true t1 t2 t3 t4 t) s) (fun u => u.pst p = pUP ∧ (u.port p).recvSeq = (s.port p).recvSeq + 1)) ∧
    (s.linkRuns = true → s.pst p = pUP → s.flag Fd.DZL_DEVID_CONFLICT = false → (s.port p).unacked = [] → (s.port p).rekey = false →
      Next (exec (.delayProbeTimer p t) s) (fun u => ∃ f, u.dzl.frames = f :: s.dzl.frames ∧ f.port = p ∧ f.type = 5 ∧
        f.seq = (s.port p).sendSeq)) ∧
    (2 ^ 47 ≤ (s.port p).sendSeq → s.pst p = pUP → Next (exec (.sessionRekey p t) s) (fun u => (u.port p).rekey = true)))

/-- R280-R283: an acknowledgement releases the frames before its sequence; a NAK resends the others, each at most 8 times; a bad frame is
counted and answered with a NAK, one of a reserved type takes its number and is dropped; a routed frame goes on unchanged but for its
channel bit. The form of the NAK, an IDLE frame with flag 4, is the model's choice (assumption 106). R295, R303, R305-R308: in QUIESCE a
peer's read waits, in HOLD it is answered Not Ready; data lands behind what has come, within the space reserved for it; PSTAT ends a read
with its status; a second timeout ends it with Peer Unreachable. -/
def Obligations.FramesReplayAndPeerReads : Prop :=
  (∀ (s : State) (p : Nat), p < 4 → s.dzl.ports.length = 4 → (s.port p).session = true → (s.port p).wait = [] →
    (∀ ack, Next (exec (.idle p ack) s) (fun t => t.regs = s.regs ∧ t.dzl.frames = s.dzl.frames ∧
      (t.port p).unacked = (s.port p).unacked.filter fun e =>
        !(decide (1 ≤ (ack + 2 ^ 32 - e.2.seq % 2 ^ 32) % 2 ^ 32) && decide ((ack + 2 ^ 32 - e.2.seq % 2 ^ 32) % 2 ^ 32 ≤ 2 ^ 31)))) ∧
    (∀ seq t, (s.port p).rekey = false → (∀ e ∈ (s.port p).unacked, e.1 < 8) →
      Next (exec (.nak p seq t) s) (fun u => u.pst p = s.pst p ∧ u.dzl.frames =
        ((((s.acked p (seq % 2 ^ 32)).port p).unacked.filter fun e => decide (seq ≤ e.2.seq)).map (·.2)).reverse ++ s.dzl.frames)) ∧
    ((s.port p).rekey = false → s.pst p = pAUTH ∨ s.pst p = pUP →
      Next (exec (.frameCrcError p true) s) (fun t => (t.port p).recvSeq = (s.port p).recvSeq + 1 ∧ t.dzl.frames = s.dzl.frames)) ∧
    ((s.port p).rekey = false → s.pst p = pAUTH ∨ s.pst p = pUP → Next (exec (.frameCrcError p false) s) (fun t => t.rd (Fd.DZL_P_ERR_CRC p) = min (s.rd (Fd.DZL_P_ERR_CRC p) + 1)
        (2 ^ ((Fd.DZL_P_ERR_CRC p).msb + 1 - (Fd.DZL_P_ERR_CRC p).lsb) - 1) ∧ (t.port p).recvSeq = (s.port p).recvSeq ∧
      ∃ f, t.dzl.frames = f :: s.dzl.frames ∧ f.type = 0 ∧ f.flags = 4)) ∧
    (∀ rx q type source dest flags tag payload, rx.port = p → rx.seq = (s.port p).recvSeq → (s.port p).rekey = false → dest ≠ s.selfId →
      s.flag Fd.DZL_DEVID_CONFLICT = false → dest < s.dimX * s.dimY → s.pst q = pUP → (s.port q).rekey = false →
      (s.port q).unacked.length < 128 →
      q = (if s.selfId % s.dimX ≠ dest % s.dimX then (flags.testBit 3).toNat else 2 + (flags.testBit 4).toNat) →
      Next (exec (.routedFrameForward rx type source dest flags tag payload) s) (fun t => ∃ f, t.dzl.frames = f :: s.dzl.frames ∧
        f.port = q ∧ f.type = type ∧ f.source = source ∧ f.dest = dest ∧ f.tag = tag ∧ f.payload = payload ∧ f.flags / 2 = flags / 2))) ∧
  (∀ (s : State),
    (∀ rx, rx.port < 4 → (s.port rx.port).session = true → rx.seq = (s.port rx.port).recvSeq → (s.port rx.port).rekey = false →
      (∀ source tag req, s.flag Fd.DZL_DEVID_CONFLICT = false →
        (s.dzl.ins.any fun j => j.port = rx.port && j.source = source && j.tag = tag) = false →
        (s.mode = mQuiesce → Next (exec (.pread rx source tag req) s) (fun t => t.dzl.ins = s.dzl.ins ++ [⟨rx.port, source, tag, req, false⟩])) ∧
        (s.mode = mHold → Next (exec (.pread rx source tag req) s) (fun t => t.dzl.ins = s.dzl.ins ∧ t.dzl.served = s.dzl.served + 1))) ∧
      (∀ tag data, s.flag Fd.DZL_DEVID_CONFLICT = false → Next (exec (.pdata rx tag data) s) (fun t => t.dzl.outs = s.dzl.outs.map fun o =>
        if o.tag = tag ∧ o.open = true then { o with data := (o.data ++ data).take (4096 * o.req.count) } else o)) ∧
      (∀ tag code blocks, s.flag Fd.DZL_DEVID_CONFLICT = false → pstatStatus code ≠ .success → (∀ o ∈ s.dzl.outs, o.tag = tag → o.open = true) →
        Next (exec (.pstat rx tag code blocks) s) (fun t => ∀ o ∈ t.dzl.outs, o.tag = tag → o.ended = some (pstatStatus code)))) ∧
    (∀ tag t, (s.dzl.outs.any fun o => o.tag = tag && o.open) = true →
      (∀ o ∈ s.dzl.outs, o.tag = tag → o.open = true ∧ 2 ≤ o.tries ∧ o.sentAt + max 10 (s.rd Fd.DZL_CFG_PEER_TMO) * 1000000 ≤ t) →
      Next (exec (.peerReadTimeout tag t) s) (fun u => ∀ o ∈ u.dzl.outs, o.tag = tag → o.ended = some .peerUnreachable)))

/-- R290, R291, R297, R300: an announcement of a new device joins the map, one not refreshed for 3 s leaves it; a member sends its own every
second; a lower ID whose beat has been clean for 10 s displaces the root; TIME from the parent is taken. How announcements are passed on is
partly the model's (assumption 26). -/
def Obligations.MapAndTimeTree : Prop :=
  ∀ (s : State) (t : Nat),
    (∀ rx dev serial up beat joined, rx.port < 4 → (s.port rx.port).session = true → rx.seq = (s.port rx.port).recvSeq →
      (s.port rx.port).rekey = false → dev < 1024 → dev ≠ s.selfId → (∀ e ∈ s.dzl.map, e.id ≠ dev) →
      Next (exec (.lsa rx dev serial up beat joined t) s) (fun u => ∃ e ∈ u.dzl.map, e.id = dev ∧ e.serial = serial ∧ e.up = up % 16 ∧
        e.beat = beat ∧ e.joined = joined ∧ e.heard = t)) ∧
    (∀ p, p < 4 → s.dzl.ports.length = 4 → s.linkRuns = true → s.member = true → s.pst p = pUP → (s.port p).rekey = false → (s.port p).unacked.length < 128 →
      Next (exec (.lsaPeriodic t) s) (fun u => ∃ f ∈ u.dzl.frames, f.port = p ∧ f.type = 3 ∧ f.source = s.selfId)) ∧
    (∀ dev, (s.dzl.map.any fun e => e.id = dev && decide (e.heard + 3000000000 ≤ max s.now t)) = false →
      Next (exec (.lsaExpiry dev t) s) (fun u => u = s.at t)) ∧
    (∀ dev e, e ∈ s.dzl.map → e.id = dev → e.heard + 3000000000 ≤ t →
      Next (exec (.lsaExpiry dev t) s) (fun u => ∀ e ∈ u.dzl.map, e.id ≠ dev)) ∧
    (∀ dev e, s.member = true → s.flag Fd.DZL_TIME_ROOTV = true → dev < s.rd Fd.DZL_TIME_ROOT → dev ≠ s.selfId → e ∈ s.dzl.map → e.id = dev →
      e.beat = true → e.beatSince + 10000000000 ≤ t →
      Next (exec (.rootDisplacement dev t) s) (fun u => u.rd Fd.DZL_TIME_ROOT = dev ∧ u.flag Fd.DZL_TIME_ROOTV = true)) ∧
    (∀ rx root epoch frame switch hops since corr, rx.port < 4 → (s.port rx.port).session = true → rx.seq = (s.port rx.port).recvSeq →
      (s.port rx.port).rekey = false → s.rd Fd.DZL_TIME_ROLE = 1 → s.flag Fd.DZL_TIME_ROOTV = true → rx.port = s.rd Fd.DZL_TIME_PARENT →
      s.flag Fd.DZL_DEVID_CONFLICT = false → s.linkSource = false →
      Next (exec (.time rx root epoch frame switch hops since corr t) s) (fun u => u.dzl.epoch = epoch ∧ u.dzl.rootSince = since ∧
        u.flag Fd.DZL_TIME_FRMISM = decide (frame ≠ s.rd Fd.CHO_FRAME_FRAME)))

/-- R285-R289, R312, R313: a Group Join with a good block that does not wait makes the part a member at once; one that waits ends after 5 s
without a port UP; leaving ends the membership and erases its keys; Group Status answers NUMD + 1 dwords, the domain only with a port UP. -/
def Obligations.GroupMembership : Prop :=
  (∀ (s : State) (src : Src), s.takes src .vendor = true →
    (∀ g d n b t, s.mode = mServe →
      (joinOk g d n b = false → Next (exec (.groupJoin src g d n b t) s) (fun u => u.completes s src .invalidField 0 0 .none ∧ u.dzl = s.dzl)) ∧
      (∀ kek key, joinOk g d n b = true → s.member = false → s.sec.scrapped = false →
        s.aesKey slotHostKek = some kek → unwrapKey kek ((b.drop 64).take (blockField b 8 2)) 32 = some key →
        (blockField b 1 1).testBit 0 = false → (blockField b 1 1).testBit 1 = true →
        Next (exec (.groupJoin src g d n b t) s) (fun u => u.cqes.head? = some (cqeOf src .success 0 0 .none) ∧ u.member = true ∧
          u.rd Fd.DZL_GROUP_GROUP = g ∧ u.selfId = d))) ∧
    (∀ g d t,
      (s.member = false → Next (exec (.groupLeave src g d t) s) (fun u => u.completes s src .commandSequence 0 0 .none)) ∧
      (s.member = true → s.rd Fd.DZL_GROUP_GROUP = g → s.selfId = d →
        Next (exec (.groupLeave src g d t) s) (fun u => u.cqes.head? = some (cqeOf src .success 0 0 .none) ∧ u.member = false ∧
          (u.slot slotGroup).kind = 0 ∧ (u.slot slotPrev).kind = 0 ∧ u.dzl.map = []))) ∧
    (∀ numd,
      Next (exec (.groupStatusDevice src numd) s) (fun t => ∃ b, b.length = 4 * (numd + 1) ∧ t.completes s src .success 0 0 (.bytes b)) ∧
      (s.member = false → Next (exec (.groupStatusDomain src numd) s) (fun t => t.completes s src .peerUnreachable 0 0 .none)) ∧
      (∀ p, p < 4 → s.member = true → s.pst p = pUP →
        Next (exec (.groupStatusDomain src numd) s) (fun t => ∃ b, b.length = 4 * (numd + 1) ∧ t.completes s src .success 0 0 (.bytes b))))) ∧
  (∀ (s : State) (j : JoinWait) (t : Nat), s.dzl.joins = [j] → j.since + 5000000000 ≤ t → (∀ p, p < 4 → s.pst p ≠ pUP) →
    Next (exec (.groupJoinTimeout t) s) (fun u => u.dzl.joins = [] ∧ u.completes s j.src .peerUnreachable 0 0 .none ∧ u.member = s.member))

/-! ## Efts and media -/

/-- R131, R132, R135, R136, R142, R152-R156: an idle eft steals the far end of its pond's longest deque; a parity slice, once an eft has
taken it, accumulates P and Q over the 30 pages of its row and hands both to the channel engines; a repair term of the firmware's rebuild
goes into its page's accumulator, one of a Reconstruct into the sum on the output's eft, and is marked; host data that answers a request
joins the contiguous prefix, or waits beyond it; the overflow buffers of ended items return to their pool. R136, R144, R145, R149, R150: a
write item of a namespace without compression, its data complete, becomes a stored clutch of format 1; a read item whose clutch is in hand
and passes its checks adds its data to its command; one on flash is parked with its die reads queued; a digest's data goes to the owner's
context. -/
def Obligations.EftsStealAndRunItems : Prop :=
  (∀ (s : State) (p n : Nat), p < 8 → n < 32 →
    (s.fenced p n = false → s.gated p = false →
      (∀ v x, (s.eft p n).deque = [] → s.flag Fd.EFT_CTL_STEAL_EN = true → s.leftBehind p = [] → s.longest p = some v → v ≠ n →
        (s.eft p v).deque.getLast? = some x →
        Next (exec (.eftStealPoll p n) s) (fun t => (t.eft p n).deque = [x] ∧ (t.eft p v).deque = (s.eft p v).deque.dropLast)) ∧
      (∀ i r ends, (s.eft p n).run = none → (s.eft p n).deque = i :: r → i.isTest = false → i.cls = .parity →
        Next (exec (.paritySlice p n ends) s) (fun t => (t.eft p n).run = some i ∧ (t.eft p n).deque = r)) ∧
      (∀ i, (s.eft p n).run = some i → i.cls = .parity → (s.xlt.slices.any fun e => e.1 = i.tag && e.2.1 = i.ix) = true →
        let ins := s.sliceInputs i.tag i.ix
        Next (exec (.paritySlice p n true) s) (fun t => (t.eft p n).run = none ∧
          t.med.parity = s.med.parity ++ [(i.tag, i.ix, parityP ins sliceBytes, parityQ ins sliceBytes)] ∧
          ∀ e ∈ t.xlt.slices, ¬ (e.1 = i.tag ∧ e.2.1 = i.ix))) ∧
      (∀ i r k b, (s.eft p n).run = none → (s.eft p n).deque = i :: r → i.isTest = false → i.cls = .repair → i.owner = .device →
        s.termCoeff i = some k → b.length = sliceBytes →
        Next (exec (.repairTerm p n k b) s) (fun t => (t.eft p n).run = none ∧ (t.eft p n).deque = r ∧
          ∀ o ∈ s.med.rows, o.unit = i.tag → (o.terms.any fun x => termIx o.row o.pos x.1 = i.ix) = true →
            ∃ u ∈ t.med.rows, u.unit = o.unit ∧ u.row = o.row ∧ u.pos = o.pos ∧ u.acc = gfAcc k o.acc b)) ∧
      (∀ i r f c k o coeff b, (s.eft p n).run = none → (s.eft p n).deque = i :: r → i.isTest = false → i.cls = .repair → i.owner = .fn f →
        s.cmd i.tag = some c → c.owner = some k → (∀ d ∈ s.cmds, d.kind = .reconstruct → d.tag = i.tag) →
        (s.eft (k / 32) (k % 32)).outputs c.tag = true → (∀ j ∈ (s.eft (k / 32) (k % 32)).parked, j.tag ≠ c.tag) →
        (∃ x, (i.ix, x) ∈ c.terms) → ((s.sources c.tag).find? fun o => o.src = i.ix % 32) = some o →
        segBytes * (i.ix / 32) + c.segLen (i.ix / 32) ≤ o.data.length → (∀ o ∈ s.sources c.tag, o.ended = some .success) →
        ((c.terms.filter fun x => x.1 / 32 = i.ix / 32 && (x.2 || x.1 = i.ix)).length < (s.sources c.tag).length) →
        Next (exec (.repairTerm p n coeff b) s) (fun t => (∃ d, t.cmd i.tag = some d ∧ (i.ix, true) ∈ d.terms) ∧
          (t.eft (k / 32) (k % 32)).acc = gfAcc o.req.coeff
            (if (s.eft (k / 32) (k % 32)).acc.isEmpty then zeros (c.segLen (i.ix / 32)) else (s.eft (k / 32) (k % 32)).acc)
            ((o.data.drop (segBytes * (i.ix / 32))).take (c.segLen (i.ix / 32)))))) ∧
    (∀ i c ns off b, (s.eft p n).run = some i → s.cmd i.tag = some c → s.ns c.nsid = some ns → s.fenced p n = false → off < tailArea → b ≠ [] →
      ((s.eft p n).reqs.any fun r => r.2.1 = off && decide (b.length ≤ r.2.2)) = true → (s.eft p n).pieces = [] →
      (off = (s.eft p n).regA.length → Next (exec (.hostReadCompletion p n off b) s) (fun t =>
        (t.eft p n).regA = (s.eft p n).regA ++ b ∧ (t.eft p n).pieces = [])) ∧
      ((s.eft p n).regA.length < off → Next (exec (.hostReadCompletion p n off b) s) (fun t =>
        (t.eft p n).regA = (s.eft p n).regA ∧ (t.eft p n).pieces = [(off, b)]))) ∧
    Next (exec (.overflowBufferReturn p n) s) (fun t => (t.eft p n).back = [] ∧
      t.rd (Fd.EFT_PD_OVF_FREE p) = min 64 (s.rd (Fd.EFT_PD_OVF_FREE p) + (s.eft p n).back.length))) ∧
  (∀ (s : State) (p n : Nat), p < 8 → n < 32 → s.fenced p n = false → s.gated p = false →
    (∀ i c ns key, (s.eft p n).run = some i → i.cls = .write → s.cmd i.tag = some c → s.ns c.nsid = some ns → s.slotWaits ns = false →
      c.kind = .write → ns.fmt = 0 → ns.level = 0 → (s.eft p n).reqs = [] → (c.requests ns i.ix).length ≤ (s.eft p n).nextReq →
      s.selectKey ns c.fn c.keyTag = .inl key → c.fail = none →
      Next (exec (.writeClutchItem p n false) s) (fun t => (t.eft p n).run = none ∧ ∃ d, t.cmd i.tag = some d ∧
        let data := (s.eft p n).regA
        d.parts = c.parts ++ [(i.ix, buildStored ns c.fn 0 1 (c.slba + i.ix * ns.clutch) key data data [])])) ∧
    (∀ i r c ns x, (s.eft p n).run = none → (s.eft p n).deque = i :: r → i.isTest = false → s.cmd i.tag = some c → s.clutchOf i.ix = some x → x.place ≠ .lost →
      s.ns c.nsid = some ns → i.redo = none → (∀ d ∈ s.cmds, d.kind ≠ .reconstruct) →
      (i.cls = .read → s.inHand p n i x = none → (s.dieReads x).isEmpty = false → (s.eft p n).parked.length < 8 →
        Next (exec (.readClutchItem p n false) s) (fun t => (t.eft p n).parked = (s.eft p n).parked ++ [i] ∧ (t.eft p n).deque = r ∧
          ∃ o ∈ t.med.ops, o.kind = .read ∧ o.unit = x.id ∧ o.eft = eftKey p n)) ∧
      (∀ st die b, s.inHand p n i x = some (st, die) → ovfNeed (32 + x.stored.region.length) ≤ s.rd (Fd.EFT_PD_OVF_FREE p) →
        s.slotWaits ns = false → s.readClutch c ns st x.ngran false = .data b →
        (i.cls = .read → 2 ≤ c.items →
          Next (exec (.readClutchItem p n false) s) (fun t => (t.eft p n).run = none ∧ (t.eft p n).deque = r ∧
            ∃ d, t.cmd i.tag = some d ∧ d.out = c.out ++ [(i.ix, b)] ∧ d.items = c.items - 1)) ∧
        (∀ k, i.cls = .digest → c.owner = some k →
          Next (exec (.digestFeed p n false) s) (fun t => (t.eft p n).deque = r ∧ ∀ d ∈ (s.eft (k / 32) (k % 32)).ctx, d.tag = c.tag →
            ∃ e ∈ (t.eft (k / 32) (k % 32)).ctx, e.tag = c.tag ∧ e.feeds = d.feeds ++ [(i.ix, .inr b)])))))

/-- R138, R139, R143, R147: whatever the level, and whatever compressed blocks the match search finds, the decompressor under its guard
decodes the frame of a clutch of at most 128 KiB back to the clutch's data. That the encoder emits only blocks that decode to their input is
the model's (assumption 4). -/
def Obligations.FramesDecodeToTheirData : Prop :=
  ∀ (level clutch : Nat) (data : Bytes), data.length % 4096 = 0 → 4096 ≤ data.length → data.length ≤ 131072 →
    data.length ≤ clutch * 4096 →
    Machine.guard clutch 0 data.length (encode level data).length (encode level data) = .ok data

/-- R123, R124, R134, R150, R158-R160: data read from a die goes to an idle eft at once, else a resume entry joins its deque; a Digest Range
whose last block is at hand completes with its digest, and one that meets a lost block with its failure; a watchdog or EFT_FENCE_CMD fences
the eft with its cause. -/
def Obligations.LandingsDigestsAndFences : Prop :=
  ∀ (s : State),
    (∀ p n k i x, p < 8 → n < 32 → ((s.eft p n).parked.find? fun j => j.ix = k) = some i → s.clutchOf k = some x →
      (s.med.ops.any fun o => o.kind = .read && o.unit = k && o.eft = eftKey p n) = false →
      ((s.eft p n).run = none → (s.eft p n).deque = [] → Next (exec (.dieDataLanding p n k) s) (fun t => (t.eft p n).run = some i ∧
        (t.eft p n).regB = some (s.landed x) ∧ (t.eft p n).parked = (s.eft p n).parked.erase i)) ∧
      ((s.eft p n).deque ≠ [] → Next (exec (.dieDataLanding p n k) s) (fun t =>
        (t.eft p n).deque = (s.eft p n).deque ++ [{ i with resume := true }] ∧ (t.eft p n).run = (s.eft p n).run))) ∧
    (∀ tag c k d, s.cmd tag = some c → c.owner = some k → c.kind = .digest → ((s.eft (k / 32) (k % 32)).ctx.find? fun e => e.tag = tag) = some d →
      let e := absorb (s.known.filter fun x => c.targets.contains x.id) (fun lba => s.xlt.unread.contains (c.nsid, lba)) c.slba (c.nlb - d.next) d
      (e.fail = none → c.nlb ≤ e.next → Next (exec (.digestAbsorb tag) s) (fun t => t.cmd tag = none ∧
        t.cqes.head? = some ⟨c.fn, c.qid, c.cid, .success, 0, 0, .bytes (digestResult c.off c.nlb e.unwritten e.msg), false⟩)) ∧
      (∀ st, e.fail = some st → Next (exec (.digestAbsorb tag) s) (fun t => t.cmd tag = none ∧
        t.cqes.head? = some ⟨c.fn, c.qid, c.cid, st, 0, 0, .none, st.dnr⟩))) ∧
    (∀ p n, p < 8 → n < 32 → s.fenced p n = false →
      ((s.eft p n).run.isSome = true → Next (exec (.eftWatchdogExpiry p n) s) (fun t => t.fenced p n = true ∧
        t.rd (Fd.EFT_PD_E_STATE_CAUSE p n) = 2 ∧ (t.eft p n).run = none ∧ t.hlt.fences = s.hlt.fences + 1)) ∧
      (∀ r, s.writable r Reg.EFT_FENCE_CMD = true → Next (exec (.eftFenceCmd r (2 ^ 31 + 32 * p + n)) s) (fun t => t.fenced p n = true ∧
        t.rd (Fd.EFT_PD_E_STATE_CAUSE p n) = 3 ∧ (t.eft p n).run = none)))

/-- R172, R209-R213, R217, R218, R261: a queued read on a free die is launched; a program passes its erased check within ERASED_BITS, else
it is not run: the member its block was is rebuilt elsewhere where rows of it are written, and a block that was no member's is released for
erase; a host read has a running erase suspended, and the suspended die is free. R171, R176, R179, R210, R216, R220-R222, R227: polls and
ends: a FAIL at a poll that is due is a status failure; a page that decodes ends its read, a retry or soft decode counts as a recovery, else
it goes to rebuild; what no other program of its kind still carries lies on its segment, and a member of a stripe holds one unit more; an
erase counts a cycle (a 16-bit count, which saturates in the model: assumption 93) and queues its clear record; a row rebuilt for a read
counts, one with too many members lost is a failed read and a lost row; a host clutch's part of a rebuilt page goes with its read (R221;
which member an unreadable one is taken to be: assumption 132). -/
def Obligations.DieOperations : Prop :=
  (∀ (s : State),
    (∀ o t, s.med.ops = [o] → o.kind = .read → o.purpose ≠ 10 → o.purpose ≠ 5 → o.st = 0 → o.ch < 64 → o.ce < 4 → o.lun < 8 →
      s.chUp o.ch = true → s.asleep = false → s.pwr.trip = false → s.choState ≠ sFLUSH →
      Next (exec (.dieOpLaunch o.ch t) s) (fun u => u.med.ops = [{ o with st := 1, startedAt := max s.now t, due := 0 }])) ∧
    (∀ k o, s.op k = some o →
      (∀ bits, o.kind = .program → o.checked = false → o.st = 0 →
        (bits ≤ s.rd Fd.MED_CFG_ERASED_BITS → Next (exec (.erasedCheckComplete k bits) s) (fun t => ∃ q, t.op k = some q ∧ q.checked = true)) ∧
        (s.rd Fd.MED_CFG_ERASED_BITS < bits → o.slc = false → (∀ q ∈ s.med.ops, q.purpose ≠ 4) →
          let l := s.memberOf o.ch o.ce o.lun o.block
          let b := blockKey o.ch o.ce o.lun o.block
          (∀ r d, l = [r] → r.kind ≠ 1 → s.stripe r.id = some d → (nth d.members r.pos ⟨0, 0, 0, 0, 0⟩).units ≠ 0 → s.membersLost r ≤ 1 →
            Next (exec (.erasedCheckComplete k bits) s) (fun t => t.med.rebuilds = s.med.rebuilds.filter (fun x => !r.same x) ++ [r] ∧
              ∀ q ∈ t.med.ops, q.kind = .program → q.onDie o.ch o.ce o.lun = true → q.block ≠ o.block)) ∧
          (l = [] → (s.block b).state ≠ 6 → (s.block b).state ≠ 7 → Next (exec (.erasedCheckComplete k bits) s) (fun t =>
            (t.block b).state = 1 ∧ (∃ e ∈ t.xlt.released, e.2.1 = blockUnit b false) ∧
              ∀ q ∈ t.med.ops, q.kind = .program → q.onDie o.ch o.ce o.lun = true → q.block ≠ o.block)))) ∧
      (∀ t b, o.kind = .read → o.purpose = 0 → o.st = 0 → s.chUp o.ch = true →
        (s.med.ops.find? fun x => x.onDie o.ch o.ce o.lun && x.st = 1) = some b → b.kind = .erase → s.flag Fd.MED_CFG_ESUSP_EN = true →
        Next (exec (.hostReadOnBusyDie k t) s) (fun u => ∃ q, u.op b.id = some q ∧ q.st = 2)) ∧
      (∀ t, o.st = 2 → Next (exec (.dieSuspendComplete k t) s) (fun u => ∃ q, u.op k = some q ∧ q.st = 3 ∧ q.suspends = o.suspends + 1 ∧ q.served = 0)))) ∧
  (∀ (s : State) (k : Nat) (o : DieOp), s.op k = some o →
    (∀ t, o.st = 1 → o.kind ≠ .read → (s.at t).pollDue o = true →
      Next (exec (.statusPoll k true true t) s) (fun u => u.hlt.statusFail = s.hlt.statusFail + 1)) ∧
    (∀ t, Next (exec (.statusPoll k true false t) s) (fun u => u = s.at t)) ∧
    (∀ t, o.kind = .read → o.st = 1 → o.purpose ≠ 10 →
      (∀ r so, Next (exec (.dieReadComplete k true r so t) s) (fun u => u.med.ops = s.med.ops.filter (fun x => x.id ≠ k) ∧ u.hlt = s.hlt)) ∧
      (∀ r so, 0 < r → r ≤ max 1 (s.rd Fd.MED_CFG_RETRY_MAX) →
        Next (exec (.dieReadComplete k false r so t) s) (fun u => u.hlt.retry = s.hlt.retry + 1 ∧ u.med.ops = s.med.ops.filter (fun x => x.id ≠ k))) ∧
      (s.flag Fd.MED_CFG_SOFT_EN = true → Next (exec (.dieReadComplete k false 0 true t) s) (fun u => u.hlt.soft = s.hlt.soft + 1)) ∧
      Next (exec (.dieReadComplete k false 0 false t) s) (fun u => ∃ q, u.op k = some q ∧ q.purpose = 10 ∧ q.st = 0)) ∧
    (∀ t, o.kind = .program → o.st = 1 →
      (o.slc = true → o.purpose = 1 → Next (exec (.programComplete k t) s) (fun u =>
        u.clutches = s.clutches.map fun c =>
          match (((s.dropOp k).carriedHome o).find? (·.1 = c.id)).map (·.2) with
          | some p => if c.place = .buffer then { c with place := .spawn o.unit, pos := p, onFlash := true } else c
          | none => c)) ∧
      (o.slc = false → o.purpose ≠ 6 → ∀ d, s.stripe o.unit = some d → Next (exec (.programComplete k t) s) (fun u => ∃ e, u.stripe o.unit = some e ∧
        e.members = d.members.map fun m =>
          if (m.ch = o.ch && m.lun = o.lun && m.block = o.block) = true then { m with units := max m.units (o.row + 1) } else m))) ∧
    (∀ t, o.kind = .erase → o.st = 1 → Next (exec (.eraseComplete k t) s) (fun u =>
      let b := blockKey o.ch o.ce o.lun o.block
      (u.block b).suspect = false ∧
      (u.block b).slc = (if o.slc = true then min 65535 ((s.block b).slc + 1) else (s.block b).slc) ∧
      (u.block b).native = (if o.slc = true then (s.block b).native else min 65535 ((s.block b).native + 1)) ∧
      ∃ q ∈ u.med.ops, q.kind = .program ∧ q.purpose = 11 ∧ q.unit = b)) ∧
    (o.purpose = 10 → ∀ n,
      let place := s.placeOf o
      let lost := max n (s.othersLost o).length
      (lost = 0 ∨ (lost = 1 ∧ ∀ g, place ≠ some (.spawn g)) → Next (exec (.stripeRebuildRead k n) s) (fun t =>
        t.hlt.rebuilt = s.hlt.rebuilt + 1 ∧ t.med.ops = s.med.ops.filter (fun x => x.id ≠ k))) ∧
      (2 ≤ lost → Next (exec (.stripeRebuildRead k n) s) (fun t => t.hlt.readsFailed = s.hlt.readsFailed + 1 ∧
        ∀ q, place = some (.stripe q) ∨ place = some (.log q) → (q, o.row) ∈ t.med.lostRows)) ∧
      -- a clutch in a stripe, its page and the part of that which is the clutch's
      (∀ x d m, o.eft < 256 → s.clutchOf o.unit = some x → x.place = .stripe d.seq → s.stripe d.seq = some d → d.members.length = 32 →
        m < 32 → m ≠ parityPos d.seq → m ≠ parityPos d.seq + 1 →
        ((List.range 32).find? fun j => d.members[j]?.any o.onBlock) = some m → n = 0 → s.othersLost o = [] →
        let role := roleOf d.seq m
        let pg := 30 * o.row + role
        let lo := max (16384 * pg) (64 * x.posIn)
        let hi := min (16384 * (pg + 1)) (64 * (x.posIn + x.ngran))
        lo < hi → Next (exec (.stripeRebuildRead k n) s) (fun t =>
          t.med.pieces = s.med.pieces ++ [(x.id, lo - 64 * x.posIn, s.rowBytes d o.row role (lo - 16384 * pg) (hi - 16384 * pg))]))))

/-- R210, R211, R224-R227, R229: a transient event of a channel counts and holds it for retraining, 64 within 10 s cut it off; an operation
not ready at three times its maximum time is such an event, and on its retry a status failure of the die; a training check that is due and
fails is one; retraining with both eyes wide puts the channel back in service, a third failure cuts it off; host reads held 500 µs go to
rebuild. -/
def Obligations.ChannelsTrainAndHold : Prop :=
  ∀ (s : State) (t : Nat),
    (∀ k o, s.op k = some o →
      (o.kind = .program → o.busy = true → Next (exec (.buscrcEvent k t) s) (fun u => u.hlt.transient = s.hlt.transient + 1)) ∧
      (o.busy = true → o.ch < 64 → 3 * s.maxTime o ≤ o.ran + (if o.st = 1 then max s.now t - o.startedAt else 0) →
        Next (exec (.operationTimeout k t) s) (fun u => u.hlt.transient = s.hlt.transient + 1 ∧
          (u.rd (Fd.MED_CH_STATE_STATE o.ch) = 3 ∨ u.rd (Fd.MED_CH_STATE_STATE o.ch) = 4) ∧
          u.hlt.statusFail = s.hlt.statusFail + o.timed.toNat))) ∧
    (∀ ch, ch < 64 →
      (s.rd (Fd.MED_CH_STATE_STATE ch) = 2 → (s.at t).checkDue ch = true →
        (s.med.ops.any fun o => o.ch = ch && o.kind = .read && o.purpose = 0 && o.st = 0) = false →
        Next (exec (.trainingCheck ch false t) s) (fun u => u.hlt.transient = s.hlt.transient + 1 ∧
          ((s.at t).trans10 ch + 1 < 64 → u.rd (Fd.MED_CH_STATE_STATE ch) = 3 ∧ (u.med.held.any fun e => e.1 = ch) = true))) ∧
      ((s.med.held.any fun e => e.1 = ch) = true →
        (∀ r w, 8 ≤ r → 8 ≤ w → (∀ o ∈ s.med.ops, o.st ≠ 4) → Next (exec (.retrainingComplete ch r w t) s) (fun u =>
          u.rd (Fd.MED_CH_STATE_STATE ch) = 2 ∧ u.rd (Fd.MED_CH_STATE_RTFAIL ch) = 0 ∧ (u.med.held.any fun e => e.1 = ch) = false)) ∧
        (∀ r w, r < 8 → s.rd (Fd.MED_CH_STATE_RTFAIL ch) < 2 → Next (exec (.retrainingComplete ch r w t) s) (fun u =>
          u.rd (Fd.MED_CH_STATE_RTFAIL ch) = s.rd (Fd.MED_CH_STATE_RTFAIL ch) + 1 ∧ u.med.held = s.med.held))) ∧
      ((s.med.held.any fun e => e.1 = ch && decide (e.2 + 500000 ≤ t)) = true →
        Next (exec (.channelHoldTimeout ch t) s) (fun u => ∀ o ∈ u.med.ops, o.ch = ch → o.kind = .read → o.st = 0 → o.purpose ≠ 0)))

/-- R153, R178, R186, R193, R230: the first member to rebuild takes a block on a channel its stripe does not use; its written rows are
summed from repair terms and programmed there unit by unit; after the last unit it is the stripe's member and leaves the rebuild list. With
no unit in a loud turn nothing is rebuilt. R175, R176, R178, R186, R193: a copy that is written whole writes its REMAP record; once that is
committed it takes its source's place, state and zones, and only then is the source released; with the hold-up failed that waits for the
record to reach flash. A folded segment is released once every clutch of it stands at the head of the share. A checkpoint is written in
quarters; its CHECKPOINT record, once committed, clears the journal behind it. -/
def Obligations.CopiesRebuildsAndCheckpoints : Prop :=
  (∀ (s : State),
    (s.rebuildOrder = [] → Next (exec .rebuildMember s) (fun t => t = s)) ∧
    (∀ r l, s.gateOpen = true → s.choState ≠ sFLUSH → s.flag Fd.GK_THERM_STOP = false → s.rebuildOrder = r :: l →
      (∀ d m, r.target = none → r.kind ≠ 1 → r.copy = false → nth s.xlt.spares r.choir 0 ≠ 0 → s.stripe r.id = some d → 0 < s.goal r →
        s.replacement r.choir (d.members.map (·.ch)) false = some m →
        Next (exec .rebuildMember s) (fun t => (∃ x ∈ t.med.rebuilds, x.same r = true ∧ x.target = some { m with status := 1 }) ∧
          (∀ e ∈ d.members, e.ch ≠ m.ch) ∧ (t.block (m.key r.choir)).state = (if r.kind = 2 then 3 else 2) ∧ t.xlt.stripes = s.xlt.stripes)) ∧
      (∀ m, r.target = some m → m.units < s.goal r →
        (∀ o ∈ s.med.ops, ¬ (o.purpose = 6 ∧ o.unit = r.id ∧ o.onBlock m = true)) →
        (s.med.rows.filter r.mine = [] → s.unitRows r m.units ≠ [] →
          Next (exec .rebuildMember s) (fun t => (t.med.rows.filter r.mine).map (·.row) = s.unitRows r m.units ∧
            ∀ o ∈ t.med.rows.filter r.mine, o.acc = zeros sliceBytes ∧ o.terms.map (fun e => (e.1, e.2.1)) = s.termsOf r)) ∧
        (s.med.rows.filter r.mine ≠ [] → (∀ o ∈ s.med.rows.filter r.mine, ∀ e ∈ o.terms, e.2.2 = 2) →
          Next (exec .rebuildMember s) (fun t => t.med.rows.filter r.mine = [] ∧
            ∃ o ∈ t.med.ops, o.kind = .program ∧ o.purpose = 6 ∧ o.unit = r.id ∧ o.onBlock m = true ∧ o.row = r.opRow m.units)))) ∧
    (∀ k o r m d t, s.op k = some o → o.kind = .program → o.purpose = 6 → o.st = 1 → o.slc = false → r.kind ≠ 1 →
      (s.med.rebuilds.find? fun x => x.id = o.unit && x.target.any fun y => o.onBlock y) = some r → r.target = some m → s.stripe r.id = some d →
      r.pos < d.members.length → (∀ x ∈ s.med.rebuilds, x.same r = true → x = r) →
      s.goal r ≤ m.units + 1 → s.hlt.holdup ≠ 1 → s.xlt.unflashed = [] → s.xlt.remaps = [] →
      Next (exec (.programComplete k t) s) (fun u => (∀ x ∈ u.med.rebuilds, x.same r = false) ∧
        ∃ e, u.stripe r.id = some e ∧ e.members = setNth d.members r.pos { m with units := m.units + 1, status := 0 }))) ∧
  (∀ (s : State),
    (∀ q d, s.stripe q = some d → d.state = 6 → d.copyOf ≠ q → s.copyRounds d ≤ d.programmed →
      s.xlt.works.contains (.compact d.choir q) = false → s.xlt.remaps = [] →
      (s.hlt.holdup ≠ 1 → s.xlt.unflashed = [] →
        Next (exec (.copyCommit q) s) (fun t => (∃ e, t.stripe q = some e ∧ e.state = ((s.stripe d.copyOf).map (·.state)).getD 2 ∧ e.copyOf = 0) ∧
          (∀ e, t.stripe d.copyOf = some e → e.state = 5) ∧ (∀ z ∈ t.zones, z.2.stripe ≠ some d.copyOf) ∧
          ∀ c ∈ t.clutches, c.place ≠ .stripe d.copyOf)) ∧
      (s.hlt.holdup = 1 → Next (exec (.copyCommit q) s) (fun t => t.xlt.remaps = [(s.xlt.nextRec, .stripe q)] ∧
        t.xlt.unflashed = s.xlt.unflashed ++ [s.xlt.nextRec] ∧ t.xlt.stripes = s.xlt.stripes ∧ t.clutches = s.clutches ∧ t.zones = s.zones))) ∧
    (∀ i g, s.stripe i = none → s.seg i = some g → g.folding = true → g.released = false → s.xlt.remaps = [] →
      (∀ x ∈ s.segClutches i, (s.copyOf x.id).isSome = true ∧ s.carried x.id (· = 3) = false) → s.hlt.holdup ≠ 1 → s.xlt.unflashed = [] →
      Next (exec (.copyCommit i) s) (fun t => ∃ h, t.seg i = some h ∧ h.released = true)) ∧
    (s.xlt.ckptRunning = true →
      (s.xlt.ckptQuarters < 4 → s.quarterChoir.any s.inTurn = false → Next (exec .checkpointComplete s) (fun t => t = s)) ∧
      (s.xlt.ckptQuarters < 3 → s.quarterChoir.any s.inTurn = true →
        Next (exec .checkpointComplete s) (fun t => t.xlt.ckptQuarters = s.xlt.ckptQuarters + 1 ∧ t.xlt.journal = s.xlt.journal)) ∧
      (s.xlt.ckptQuarters = 3 → s.quarterChoir.any s.inTurn = true →
        let rec' : JRec := ⟨s.xlt.nextRec, .checkpoint, [], s.maps⟩
        (s.hlt.holdup ≠ 1 → s.xlt.unflashed = [] → Next (exec .checkpointComplete s) (fun t => t.xlt.ckptRunning = false ∧
          t.xlt.ckptQuarters = 0 ∧ t.xlt.safe = s.xlt.ckptMaps ∧ t.xlt.nextRec = s.xlt.nextRec + 1 ∧
          t.xlt.journal = (rec' :: s.xlt.journal).filter (fun r => decide (s.xlt.ckptFrom ≤ r.seq)))) ∧
        (s.hlt.holdup = 1 → Next (exec .checkpointComplete s) (fun t => t.xlt.ckptRunning = true ∧ t.xlt.ckptQuarters = 4 ∧
          t.xlt.journal = rec' :: s.xlt.journal ∧ t.xlt.unflashed = s.xlt.unflashed ++ [s.xlt.nextRec]))) ∧
      (s.xlt.ckptQuarters = 4 → s.xlt.unflashed = [] → Next (exec .checkpointComplete s) (fun t => t.xlt.ckptRunning = false ∧
        t.xlt.safe = s.xlt.ckptMaps ∧ t.xlt.journal = s.xlt.journal.filter (fun r => decide (s.xlt.ckptFrom ≤ r.seq))))))

/-! ## DRAM, boot flash, security -/

/-- R438-R440: a due refresh of a bank without requests pays all it owes, else it is postponed, at most four times, then forced; MR4 reads
set the refresh rate; drift moves every lane's write delay; a retrained lane holds the values found. R441-R446, R449: a request joins its
controller's queue, a write over a queued write of its line merges, a read of such a line counts a hazard; one that meets self-refresh
waits, one before the commit point cancels the entry; starved stream reads become lookups. -/
def Obligations.DramRefreshAndRequests : Prop :=
  (∀ (s : State) (ch : Nat), ch < 4 → s.dram.ctls.length = 4 →
    (∀ sub bank, sub < 2 → (s.rd (Fd.DMC_C_STATE_STATE ch) = 2 ∨ s.rd (Fd.DMC_C_STATE_STATE ch) = 3 ∨ s.rd (Fd.DMC_C_STATE_STATE ch) = 4) →
      let owed := (((s.dctl ch).postponed.find? fun e => e.1 = sub * 256 + bank).map (·.2)).getD 0
      ((∀ r ∈ (s.dctl ch).queue, ¬ (r.sub = sub ∧ r.bank = bank)) → Next (exec (.refreshDue ch sub bank) s) (fun t =>
        (∀ e ∈ (t.dctl ch).postponed, e.1 ≠ sub * 256 + bank) ∧ t.regs = s.regs)) ∧
      ((∃ r ∈ (s.dctl ch).queue, r.sub = sub ∧ r.bank = bank) →
        (owed < 4 → Next (exec (.refreshDue ch sub bank) s) (fun t => (sub * 256 + bank, owed + 1) ∈ (t.dctl ch).postponed ∧
          t.rd (Fd.DMC_C_REFRESH_MAXPOST ch) = max (owed + 1) (s.rd (Fd.DMC_C_REFRESH_MAXPOST ch)))) ∧
        (4 ≤ owed → Next (exec (.refreshDue ch sub bank) s) (fun t => (∀ e ∈ (t.dctl ch).postponed, e.1 ≠ sub * 256 + bank) ∧
          t.rd (Fd.DMC_C_REFRESH_FORCED ch) = min (s.rd (Fd.DMC_C_REFRESH_FORCED ch) + 1) 255)))) ∧
    (∀ sub fast, sub < 2 → 1 ≤ s.rd (Fd.DMC_C_STATE_STATE ch) → s.rd (Fd.DMC_C_STATE_STATE ch) ≤ 4 → Next (exec (.mr4Read ch sub fast) s) (fun t =>
      (t.rd (Fd.DMC_C_REFRESH_RATE2X ch) = 1 ↔ fast = true ∨ ∃ k ∈ (s.dctl ch).fast, k ≠ sub))) ∧
    (∀ drifts : List Int, 1 ≤ s.rd (Fd.DMC_C_STATE_STATE ch) → s.rd (Fd.DMC_C_STATE_STATE ch) ≤ 3 →
      Next (exec (.dqsOscillatorRead ch drifts) s) (fun t => ∀ l, l < 10 →
        t.rd (Fd.DMC_C_LANE_WDLY ch l) = (((s.rd (Fd.DMC_C_LANE_WDLY ch l) : Int) + nth drifts l 0) % 256).toNat)) ∧
    (∀ lane r w re we, lane < 10 → lane ∈ (s.dctl ch).lanes → (∀ e ∈ (s.dctl ch).postponed, e.2 < 4) →
      Next (exec (.laneRetrainSlice ch lane true r w re we) s) (fun t => lane ∉ (t.dctl ch).lanes ∧
        t.rd (Fd.DMC_C_LANE_RDLY ch lane) = min 255 r ∧ t.rd (Fd.DMC_C_LANE_WDLY ch lane) = min 255 w ∧
        t.rd (Fd.DMC_C_LANE_REYE ch lane) = min 255 re ∧ t.rd (Fd.DMC_C_LANE_WEYE ch lane) = min 255 we))) ∧
  (∀ (s : State) (ch t : Nat), ch < 4 → s.dram.ctls.length = 4 →
    (∀ (r : DramArgs) (e : EccSeen), chOf r.addr = ch → e.bad = 0 →
      let sub := subOf r.addr
      let line := lineOf r.addr
      let q : DramReq := ⟨sub, line, r.group, r.bank, r.row, r.write, portLooksUp r.port, max s.now t⟩
      ((s.rd (Fd.DMC_C_STATE_STATE ch) = 2 ∨ s.rd (Fd.DMC_C_STATE_STATE ch) = 3) → (s.dctl ch).writes sub < 64 →
        Next (exec (.dramRequest r e 0 t) s) (fun u => u.rd (Fd.DMC_C_STATE_STATE ch) = 2 ∧
          ((∀ x ∈ (s.dctl ch).queue, ¬ (x.write = true ∧ x.sub = sub ∧ x.line = line)) → (u.dctl ch).queue = (s.dctl ch).queue ++ [q]) ∧
          ((∃ x ∈ (s.dctl ch).queue, x.write = true ∧ x.sub = sub ∧ x.line = line) →
            (r.write = true → (u.dctl ch).queue = (if (s.dctl ch).queue.any (fun x => !x.write && x.sub = sub && x.line = line)
              then (s.dctl ch).queue ++ [q] else (s.dctl ch).queue)) ∧
            (r.write = false → (u.dctl ch).queue = (s.dctl ch).queue ++ [q] ∧
              u.rd (Fd.DMC_C_HAZ_RAW ch) = min (s.rd (Fd.DMC_C_HAZ_RAW ch) + 1) 0xFFFF)))) ∧
      (s.rd (Fd.DMC_C_STATE_STATE ch) = 4 → Next (exec (.dramRequest r e 0 t) s) (fun u => u.rd (Fd.DMC_C_STATE_STATE ch) = 2 ∧
        u.rd (Fd.DMC_C_STATE_CANCELS ch) = min (s.rd (Fd.DMC_C_STATE_CANCELS ch) + 1) 255)) ∧
      ((s.rd (Fd.DMC_C_STATE_STATE ch) = 5 ∨ s.rd (Fd.DMC_C_STATE_STATE ch) = 6) → Next (exec (.dramRequest r e 0 t) s) (fun u =>
        (u.dctl ch).parked = (s.dctl ch).parked ++ [q] ∧ (u.dctl ch).queue = (s.dctl ch).queue))) ∧
    Next (exec (.streamStarveTimeout ch t) s) (fun u => (u.dctl ch).queue.length = (s.dctl ch).queue.length ∧
      ∀ x ∈ (u.dctl ch).queue, x.since + 10 * max 1 (s.rd (Fd.DMC_C_SCHED_STARVE ch)) < u.now → x.lookup = true))

/-- R447-R450, R453, R454: power-down after 200 ns without a request; self-refresh first takes no writes, then commits with its queue
drained, and a parked request or wake brings it back; the patrol scrub counts what it corrects and retires what it cannot. -/
def Obligations.DramPowerDownAndScrub : Prop :=
  ∀ (s : State) (ch t : Nat), ch < 4 → s.dram.ctls.length = 4 →
    (∀ sub, sub < 2 → s.rd (Fd.DMC_C_STATE_STATE ch) = 2 → sub ∉ (s.dctl ch).down → (∀ x ∈ (s.dctl ch).queue, x.sub ≠ sub) →
      nth (s.dctl ch).lastReq sub 0 + 200 ≤ t → Next (exec (.dramPowerDownEntry ch sub t) s) (fun u =>
        (u.dctl ch).down = (s.dctl ch).down ++ [sub] ∧ u.rd (Fd.DMC_C_STATE_STATE ch) = (if (s.dctl ch).down.length = 1 then 3 else 2))) ∧
    ((s.rd Fd.GK_PSTATE_REQ_STATE = 2 ∨ s.rd Fd.GK_PSTATE_REQ_STATE = 3 ∨ s.boot.perstLow = true) → s.flag Fd.TOP_MODE_FLUSH = false →
      ((s.rd (Fd.DMC_C_STATE_STATE ch) = 2 ∨ s.rd (Fd.DMC_C_STATE_STATE ch) = 3) →
        Next (exec (.selfRefreshEntry ch false) s) (fun u => u.rd (Fd.DMC_C_STATE_STATE ch) = 4 ∧ u.dram = s.dram)) ∧
      (s.rd (Fd.DMC_C_STATE_STATE ch) = 4 → Next (exec (.selfRefreshEntry ch true) s) (fun u => u.rd (Fd.DMC_C_STATE_STATE ch) = 5 ∧
        (u.dctl ch).queue = [] ∧ (u.dctl ch).rows = []))) ∧
    (s.rd (Fd.DMC_C_STATE_STATE ch) = 5 → (s.dctl ch).parked ≠ [] →
      Next (exec (.selfRefreshExit ch false t) s) (fun u => u.rd (Fd.DMC_C_STATE_STATE ch) = 6 ∧ u.dram = s.dram)) ∧
    (s.rd (Fd.DMC_C_STATE_STATE ch) = 6 → Next (exec (.selfRefreshExit ch true t) s) (fun u =>
      u.rd (Fd.DMC_C_STATE_STATE ch) = 2 ∧ (u.dctl ch).parked = [])) ∧
    (∀ line e last, s.rd Fd.DMC_SCRUB_PERIOD ≠ 0 → (s.rd (Fd.DMC_C_STATE_STATE ch) = 2 ∨ s.rd (Fd.DMC_C_STATE_STATE ch) = 3) →
      (e.bad = 0 → Next (exec (.patrolScrub ch line e last t) s) (fun u => u.hlt = s.hlt ∧ u.dram = s.dram ∧
        u.rd Fd.DMC_SCRUB_PASSES = (if last then (s.rd Fd.DMC_SCRUB_PASSES + 1) % 65536 else s.rd Fd.DMC_SCRUB_PASSES))) ∧
      (1 ≤ e.bad → e.bad ≤ 8 → Next (exec (.patrolScrub ch line e last t) s) (fun u => u.hlt.dramCe = s.hlt.dramCe + 1 ∧
        u.rd (Fd.DMC_C_ECC_CE ch) = min (s.rd (Fd.DMC_C_ECC_CE ch) + 1) 0xFFFFFF)) ∧
      (8 < e.bad → e.region = 3 → s.dram.retired.length < 256 → Next (exec (.patrolScrub ch line e last t) s) (fun u =>
        u.hlt.dramUe = s.hlt.dramUe + 1 ∧ regionOf ch line ∈ u.dram.retired ∧
        u.rd (Fd.DMC_C_ECC_UE ch) = min (s.rd (Fd.DMC_C_ECC_UE ch) + 1) 255)))

/-- R463-R466: a core or the gecko starts an operation of its bank: a misaligned erase, a program over a 256 B line, a target beyond the
flash or an unset DETACH bit ends it at once with RANGE or SELF_BUSY and nothing changed; else it runs when the device is free, or is
queued. R461, R465, R466, R469: a program over blank bytes, or with ANDOW, ands its data in and nothing else; over others it ends
NOT_ERASED; a verified erase leaves its span blank and every byte above the flag sectors as it was; what does not verify ends VERIFY, a
timeout DEVICE. -/
def Obligations.SncOperations : Prop :=
  (∀ (s : State) (r : Nat), s.writable r Reg.SNC_OP = true →
    let b := bankOf r
    let a := s.rd (Fd.SNC_ADDR_ADDR.inBank b)
    let len := s.rd (Fd.SNC_LEN_LEN.inBank b)
    let ends (x : Nat) (t : State) : Prop := t.rd (Fd.SNC_OP_DONE.inBank b) = 1 ∧ t.rd (Fd.SNC_OP_RESULT.inBank b) = x ∧ t.snc = s.snc
    let goes (code : Nat) (aw : Bool) (run : Result) : Prop :=
      (∀ x, s.sncRefusal code a len aw = some x → Next run (ends x)) ∧
      (((code = 2 ∧ a % 4096 ≠ 0) ∨ (code = 3 ∧ a % 65536 ≠ 0) ∨ (code = 1 ∧ 256 < a % 256 + len) ∨ s.flashSize < a + sncSpan code len) →
        Next run (ends 4)) ∧
      (s.sncRefusal code a len aw = none →
        Next run (fun t => t.rd (Fd.SNC_OP_DONE.inBank b) = 0 ∧ t.rd (Fd.SNC_OP_CODE.inBank b) = code ∧
          (s.snc.running.isSome = true → t.snc.running = s.snc.running ∧
            ∃ o, t.snc.queue = s.snc.queue ++ [o] ∧ o.bank = b ∧ o.code = code ∧ o.addr = a ∧ o.len = len) ∧
          (s.snc.running = none → s.snc.queue = [] → s.pwr.pfHold = false → s.asleep = false → t.snc.queue = [] ∧
            (∃ o, t.snc.running = some o ∧ o.bank = b ∧ o.code = code ∧ o.addr = a ∧ o.len = len) ∧
            t.rd Fd.SNC_STATUS_BUSY = (decide (code ≠ 4)).toNat))) ∧
      (code ≠ 4 → s.rd Fd.SNC_XIP_DETACH_DETACH ≠ 0x1FFFF → ∃ x, s.sncRefusal code a len aw = some x)
    (∀ aw, goes 1 aw (exec (.sncProgram r aw) s)) ∧ goes 2 false (exec (.sncSectorErase r) s) ∧
      goes 3 false (exec (.sncBlockErase r) s) ∧ goes 4 false (exec (.sncBlankCheck r) s)) ∧
  (∀ (s : State) (o : SncOp), s.snc.running = some o → s.snc.queue = [] →
    let n := sncSpan o.code o.len
    let inside (x : Nat) : Prop := o.addr ≤ x ∧ x < o.addr + n
    let result (t : State) : Nat := t.rd (Fd.SNC_OP_RESULT.inBank o.bank)
    (o.code = 1 → o.data.length = o.len → (o.andow = true ∨ s.flashBlank o.addr n = true) →
      Next (exec (.sncOperationComplete true) s) (fun t => result t = 0 ∧ t.snc.running = none ∧
        (∀ x, inside x → t.flashGet x = s.flashGet x &&& nth o.data (x - o.addr) 0) ∧ ∀ x, ¬ inside x → t.flashGet x = s.flashGet x)) ∧
    (o.code = 1 → o.andow = false → s.flashBlank o.addr n = false → ∀ v,
      Next (exec (.sncOperationComplete v) s) (fun t => result t = 2 ∧ t.snc.running = none ∧ ∀ x, t.flashGet x = s.flashGet x)) ∧
    ((o.code = 2 ∨ o.code = 3) → 0x2000 ≤ o.addr →
      Next (exec (.sncOperationComplete true) s) (fun t => result t = 0 ∧ t.snc.running = none ∧
        (∀ x, inside x → t.flashGet x = 0xFF) ∧ ∀ x, 0x2000 ≤ x → ¬ inside x → t.flashGet x = s.flashGet x)) ∧
    ((o.code = 2 ∨ o.code = 3) →
      Next (exec (.sncOperationComplete false) s) (fun t => result t = 3 ∧ ∀ x, ¬ inside x → t.flashGet x = s.flashGet x)) ∧
    (o.code = 4 → ∀ v,
      Next (exec (.sncOperationComplete v) s) (fun t => result t = (if s.flashBlank o.addr n then 0 else 2) ∧ ∀ x, t.flashGet x = s.flashGet x)) ∧
    Next (exec .sncDeviceTimeout s) (fun t => result t = 5 ∧ t.snc.running = none ∧ ∀ x, ¬ inside x → t.flashGet x = s.flashGet x))

/-- R462, R467: DETACH bits are set by writing 1; a fetch by a detached requester, or while a program or erase runs, is a fetch fault; a
data read then gives the status word in every word, and the flash's bytes otherwise. -/
def Obligations.BootFlashReadsAndFetches : Prop :=
  ∀ (s : State) (r : Nat),
    (∀ v, s.writable r Reg.SNC_XIP_DETACH = true →
      Next (exec (.sncXipDetachWrite r v) s) (fun t => t.rd Fd.SNC_XIP_DETACH_DETACH = s.rd Fd.SNC_XIP_DETACH_DETACH ||| v % 2 ^ 17 ∧
        s.sameWords t (fun a => a = Reg.SNC_XIP_DETACH))) ∧
    ((r < 16 ∨ r = reqGecko) →
      (∀ a, ((s.rd Fd.SNC_XIP_DETACH_DETACH).testBit (bankOf r) = true ∨ s.sncBusy = true) →
        Next (exec (.bootFlashInstructionFetch r a) s) (fun t => t.snc.faults = s.snc.faults + 1 ∧ t.replies = ⟨r, 0, true, .none⟩ :: s.replies)) ∧
      (∀ a, (s.rd Fd.SNC_XIP_DETACH_DETACH).testBit (bankOf r) = false → s.sncBusy = false →
        Next (exec (.bootFlashInstructionFetch r a) s) (fun t => t = s.reply r (leNat (s.flashRead a 4)) false .none)) ∧
      (∀ a n, s.sncBusy = false → Next (exec (.bootFlashDataRead r a n) s) (fun t => t = s.reply r 0 false (.bytes (s.flashRead a n)))) ∧
      (∀ a n o, s.snc.running = some o → o.code ≠ 4 → o.addr < 2 ^ 32 → Next (exec (.bootFlashDataRead r a n) s) (fun t =>
        ∃ d, t = s.reply r 0 false (.bytes d) ∧ d.length = n ∧ ∀ i, i < n →
          nth d i 0 = nth [0x5B, byte (o.addr / 65536), byte (o.addr / 65536 / 256), byte (0xA0 + o.code)] ((a + i) % 4) 0)))

/-- R357-R359: a free hash engine goes to the claimant; its owner feeds words, finishes with TAILB, reads the digest and releases it, by
RELEASE or by reading the last word; everyone else's writes are dropped with INTRUDE set, and their digest reads give 0. -/
def Obligations.HashEnginesServeTheirOwner : Prop :=
  ∀ (s : State) (n r : Nat), n < 8 →
    (s.writable r (Reg.SEC_HE_CTL n) = true →
      (∀ alg outlen, s.flag (Fd.SEC_HE_CTL_OWNED n) = false → Next (exec (.secHeClaim r n alg outlen) s) (fun t =>
        t.heOwns n r = true ∧ t.rd (Fd.SEC_HE_CTL_ALG n) = alg % 4 ∧ t.rd (Fd.SEC_HE_CTL_OUTLEN n) = outlen % 4 ∧ (t.he n).msg = [] ∧
        t.heBusy n = false ∧ t.heReady n = false)) ∧
      (∀ alg outlen, s.flag (Fd.SEC_HE_CTL_OWNED n) = true → s.heOwns n r = false →
        Next (exec (.secHeClaim r n alg outlen) s) (fun t => t = s.heIntrude n) ∧
        (∀ tailb, Next (exec (.secHeFinal r n tailb) s) (fun t => t = s.heIntrude n)) ∧
        Next (exec (.secHeRelease r n) s) (fun t => t = s.heIntrude n)) ∧
      (s.heOwns n r = true → s.heBusy n = false → s.heReady n = false → ∀ tailb, Next (exec (.secHeFinal r n tailb) s) (fun t =>
        t.heBusy n = true ∧ (t.he n).msg = (if tailb % 4 = 0 then (s.he n).msg else (s.he n).msg.take ((s.he n).msg.length + tailb % 4 - 4)))) ∧
      (s.heOwns n r = true → Next (exec (.secHeRelease r n) s) (fun t => t.flag (Fd.SEC_HE_CTL_OWNED n) = false ∧ t.he n = heDefault n))) ∧
    (s.writable r (Reg.SEC_HE_DATA n) = true → ∀ v,
      (s.heOwns n r = true → s.heBusy n = false → s.heReady n = false →
        Next (exec (.secHeDataWrite r n v) s) (fun t => (t.he n).msg = (s.he n).msg ++ leBytes 4 v ∧ t.regs = s.regs)) ∧
      (s.heOwns n r = false → Next (exec (.secHeDataWrite r n v) s) (fun t => t = s.heIntrude n))) ∧
    (s.heBusy n = true → Next (exec (.hashEngineDone n) s) (fun t => t.heBusy n = false ∧ t.heReady n = true ∧
      (t.he n).digest = heHash (s.rd (Fd.SEC_HE_CTL_ALG n)) (s.rd (Fd.SEC_HE_CTL_OUTLEN n)) (s.he n).msg)) ∧
    (s.readable r (Reg.SEC_HE_DIGEST n (s.heLast n)) = true →
      (s.heOwns n r = true → s.heReady n = true → Next (exec (.secHeDigestLastRead r n) s) (fun t =>
        t.replies = ⟨r, field (s.he n).digest (4 * s.heLast n) 4, false, .none⟩ :: s.replies ∧ t.flag (Fd.SEC_HE_CTL_OWNED n) = false ∧
        t.he n = heDefault n)) ∧
      (s.heOwns n r = false → Next (exec (.secHeDigestLastRead r n) s) (fun t => t = s.reply r 0 false .none)))

/-- R354-R356, R358: the key engine's owner starts a CMAC or an unwrap: a bad length or an unsuited key slot ends it at once; words up to
LEN are taken; a whole CMAC shows its tag, an unwrap writes its slot in one step or nothing; abort keeps the owner, release ends it. -/
def Obligations.KeyEngineRuns : Prop :=
  ∀ (s : State) (r : Nat),
    let fails (code : Nat) (t : State) : Prop :=
      t.rd Fd.SEC_KE_STATUS_ERR = code ∧ t.sec.ke = none ∧ t.rd Fd.SEC_KE_STATUS_BUSY = 0 ∧ t.sec.slots = s.sec.slots ∧ ∀ x, t.keOwns x = s.keOwns x
    let starts (op : Nat) (run : Result) : Prop :=
      (keLenBad op (s.rd Fd.SEC_KE_LEN_LEN) = true → Next run (fails 1)) ∧
      (keLenBad op (s.rd Fd.SEC_KE_LEN_LEN) = false → s.aesKey (s.rd Fd.SEC_KE_SLOTS_KEY) = none → Next run (fails 3)) ∧
      (∀ k, keLenBad op (s.rd Fd.SEC_KE_LEN_LEN) = false → s.aesKey (s.rd Fd.SEC_KE_SLOTS_KEY) = some k →
        Next run (fun t => t.sec.ke = some ⟨op, s.rd Fd.SEC_KE_LEN_LEN, k, s.rd Fd.SEC_KE_SLOTS_DEST, []⟩ ∧
          t.rd Fd.SEC_KE_STATUS_BUSY = 1 ∧ t.rd Fd.SEC_KE_STATUS_ERR = 0))
    (s.writable r Reg.SEC_KE_CTL = true →
      (s.flag Fd.SEC_KE_CTL_OWNED = false → Next (exec (.secKeClaim r) s) (fun t => t.keOwns r = true ∧ t.sec.ke = none ∧
        t.rd Fd.SEC_KE_STATUS_ERR = 0)) ∧
      (s.keOwns r = true →
        (s.flag Fd.SEC_KE_STATUS_BUSY = false → starts 0 (exec (.keStartCmac r) s) ∧ starts 1 (exec (.keStartUnwrapXts r) s) ∧
          starts 2 (exec (.keStartUnwrapAes r) s)) ∧
        Next (exec (.secKeAbort r) s) (fun t => t.sec.ke = none ∧ t.rd Fd.SEC_KE_STATUS_BUSY = 0 ∧ t.keOwns r = true ∧ t.sec.slots = s.sec.slots) ∧
        Next (exec (.secKeRelease r) s) (fun t => t.sec.ke = none ∧ t.flag Fd.SEC_KE_CTL_OWNED = false ∧ t.sec.slots = s.sec.slots))) ∧
    (∀ e, s.sec.ke = some e →
      (s.writable r Reg.SEC_KE_DATA = true → s.keOwns r = true → ∀ v,
        (e.data.length < e.len → Next (exec (.secKeDataWrite r v) s) (fun t =>
          t.sec.ke = some { e with data := (e.data ++ leBytes 4 v).take e.len } ∧ t.regs = s.regs)) ∧
        (e.len ≤ e.data.length → Next (exec (.secKeDataWrite r v) s) (fails 1))) ∧
      (e.len ≤ e.data.length → ∀ owner source,
        (e.op = 0 → Next (exec (.keOperationComplete owner source) s) (fun t => t.sec.slots = s.sec.slots ∧ t.rd Fd.SEC_KE_STATUS_DONE = 1 ∧
          ∀ k, k < 4 → t.rd (Fd.SEC_KE_TAG_TAG k) = field (cmac e.key e.data) (4 * k) 4)) ∧
        (e.op ≠ 0 → kwpUnwrap e.key e.data = none → Next (exec (.keOperationComplete owner source) s) (fails 2)) ∧
        (∀ p, e.op ≠ 0 → kwpUnwrap e.key e.data = some p →
          let need := if e.op = 1 then 64 else 32
          (p.length < need → Next (exec (.keOperationComplete owner source) s) (fails 1)) ∧
          (need ≤ p.length → e.op = 1 → (p.take 64).take 32 = (p.take 64).drop 32 →
            Next (exec (.keOperationComplete owner source) s) (fails 4)) ∧
          (need ≤ p.length → ¬ (e.op = 1 ∧ (p.take 64).take 32 = (p.take 64).drop 32) →
            Next (exec (.keOperationComplete owner source) s) (fun t => t.slot e.dest = ⟨e.op, owner, source, p.take need⟩ ∧
              t.rd Fd.SEC_KE_STATUS_DONE = 1 ∧ ∀ k, k ≠ e.dest → t.slot k = s.slot k)))))

/-- R350, R359, R360, R373: the selected slot is zeroed, or filled from the TRNG; TRNG words come fresh, 0 while it fails; a GLITCH or TEMP
alarm clears every engine and slot, a TRNG alarm withholds words, a BUS alarm clears the engine it struck. -/
def Obligations.SlotsTrngAndAlarms : Prop :=
  ∀ (s : State) (r : Nat),
    (s.writable r Reg.SEC_KS_CMD = true →
      Next (exec (.secKsZero r) s) (fun t => (t.slot (s.rd Fd.SEC_KS_SEL_SLOT)).kind = 0 ∧ ∀ k, k ≠ s.rd Fd.SEC_KS_SEL_SLOT → t.slot k = s.slot k) ∧
      (s.trngOk = true → Next (exec (.secKsFill r) s) (fun t =>
        t.slot (s.rd Fd.SEC_KS_SEL_SLOT) = ⟨2, ownDevice, srcGenerated, (Config.drawnKey s.sec.drawn ++ zeros 32).take 32⟩ ∧ t.sec.drawn = s.sec.drawn + 1)) ∧
      (s.trngOk = false → Next (exec (.secKsFill r) s) (fun t => t.sec.slots = s.sec.slots ∧
        t.sec.trngWaits = s.sec.trngWaits ++ [.fill (s.rd Fd.SEC_KS_SEL_SLOT)]))) ∧
    (s.readable r Reg.SEC_TRNG_DATA = true →
      (s.trngOk = true → s.flag Fd.SEC_TRNG_STAT_AVAIL = true → Next (exec (.secTrngDataRead r) s) (fun t => t.sec.drawn = s.sec.drawn + 1 ∧
        t.replies = ⟨r, leNat ((Config.drawnKey s.sec.drawn ++ zeros 4).take 4), false, .none⟩ :: s.replies)) ∧
      ((s.trngOk = false ∨ s.flag Fd.SEC_TRNG_STAT_AVAIL = false) → Next (exec (.secTrngDataRead r) s) (fun t => t = s.reply r 0 false .none))) ∧
    (s.pwr.on = true → s.asleep = false → ∀ e,
      (∀ k, k < 2 → Next (exec (.securityAlarm k e) s) (fun t => t.rd (if k = 0 then Fd.SEC_ALARM_GLITCH else Fd.SEC_ALARM_TEMP) = 1 ∧
        t.rd Fd.SEC_ALARM_COUNT = min (s.rd Fd.SEC_ALARM_COUNT + 1) 255 ∧ (∀ j, j < slotPrev → (t.slot j).kind = 0) ∧ t.rd Fd.SEC_KE_STATUS_ERR = 5 ∧
        ∀ n, n < 8 → t.he n = heDefault n ∧ t.flag (Fd.SEC_HE_CTL_OWNED n) = false ∧ t.rd (Fd.SEC_HE_STATUS_CLEARED n) = 1)) ∧
      Next (exec (.securityAlarm 2 e) s) (fun t => t.rd Fd.SEC_ALARM_OTPECC = 1 ∧ t.sec = s.sec) ∧
      Next (exec (.securityAlarm 3 e) s) (fun t => t.rd Fd.SEC_ALARM_TRNG = 1 ∧ t.trngOk = false ∧ t.rd Fd.SEC_TRNG_STAT_AVAIL = 0) ∧
      (e < 8 → Next (exec (.securityAlarm 4 e) s) (fun t => t.rd Fd.SEC_ALARM_BUS = 1 ∧ t.he e = heDefault e ∧ t.rd (Fd.SEC_HE_STATUS_CLEARED e) = 1 ∧
        ∀ n, n ≠ e → t.he n = s.he n)))

/-- R361-R363: the list names protocols 00h, 01h, 02h and F4h (its eight bytes of head are the model's, assumption 113); every operation
checks its length, PF0 and the life cycle in this order; Identity returns 12,320 bytes that begin with the generation. R365: Hash open takes
a free engine 4 to 7 for a session; feeds add to its message; finish returns the digest padded to 64 bytes and, like release and 10 s
without a feed, ends the session; without one, feed, finish and release fail. -/
def Obligations.SecurityChecksAndHashSessions : Prop :=
  (∀ (s : State) (src : Src), s.takes src .security = true →
    let e := s.entered src
    Next (exec (.securityProtocolList src) s) (fun t => t.completes s src .success 0 0 (.bytes (zeros 6 ++ leBytes 2 4 ++ [0, 1, 2, 0xF4]))) ∧
    (∀ (c : Instr) (len : Bool) (pf0 : Bool) (lives : List Nat) (data : Bytes) (n k : Nat) (ok : Bool),
      (c, len, pf0, lives) ∈ [(Instr.identity src n, decide (n = 12320), false, [lFIELD, lRMA]),
        (.attestRequest src data ok, decide (data.length = 64), false, [lFIELD, lRMA]), (.attestReport src n, decide (n = 10152), false, [lFIELD, lRMA]),
        (.hashOpen src data k, decide (data.length = 4), false, notBlank),
        (.hashFeed src data k, decide (1 ≤ data.length ∧ data.length ≤ 2 ^ 20), false, notBlank),
        (.hashFinish src n, decide (n = 64), false, notBlank), (.hashRelease src n, decide (n = 0), false, notBlank),
        (.lifecycleChallenge src n, decide (n = 48), true, notBlank), (.lifecycleAdvance src data, decide (data.length = if field data 0 1 = lRMA then 2884 else 64), true, notBlank),
        (.hostKek src data, e.kekLength data.length, true, [lPROVISION, lFIELD]),
        (.settingsAdvance src data, decide (data.length = 256), true, [lPROVISION, lFIELD])] →
      (len = false → Next (exec c s) (fun t => t.completes s src .invalidField 0 0 .none)) ∧
      (len = true → pf0 = true → src.fn ≠ 0 → Next (exec c s) (fun t => t.completes s src .accessDenied 0 0 .none)) ∧
      (len = true → (pf0 = false ∨ src.fn = 0) → e.lifecycle ∉ lives → Next (exec c s) (fun t => t.completes s src .commandSequence 0 0 .none))) ∧
    (e.lifecycle = lFIELD ∨ e.lifecycle = lRMA → Next (exec (.identity src 12320) s) (fun t =>
      t.completes s src .success 0 0 (.bytes e.identity) ∧ e.identity.length = 12320 ∧ e.identity.head? = some (byte (e.identGen.getD 0))))) ∧
  ((∀ (s : State) (src : Src) (t : Nat), s.takes src .security = true →
    let e := s.entered src
    e.lifecycle ∈ notBlank →
    (∀ k alg outlen, 4 ≤ k → k ≤ 7 → alg ≤ 3 → outlen ≤ 3 → e.sessionOf src.fn = none →
      (e.flag (Fd.SEC_HE_CTL_OWNED k) = false → Next (exec (.hashOpen src [byte k, byte alg, byte outlen, 0] t) s) (fun u =>
        u.completes s src .success 0 0 .none ∧ u.sessionOf src.fn = some k ∧ u.heOwns k (0x400 + src.fn) = true ∧ (u.he k).msg = [] ∧
        u.rd (Fd.SEC_HE_CTL_ALG k) = alg)) ∧
      (e.flag (Fd.SEC_HE_CTL_OWNED k) = true → Next (exec (.hashOpen src [byte k, byte alg, byte outlen, 0] t) s) (fun u =>
        u.completes s src .engineOwned 0 0 .none ∧ u.sec = e.sec)) ∧
      ((∀ n, 4 ≤ n → n ≤ 7 → e.flag (Fd.SEC_HE_CTL_OWNED n) = true) → Next (exec (.hashOpen src [0xFF, byte alg, byte outlen, 0] t) s) (fun u =>
        u.completes s src .engineOwned 0 0 .none ∧ u.sec = e.sec))) ∧
    (∀ n, e.sessionOf src.fn = some n →
      (∀ data : Bytes, 1 ≤ data.length → data.length ≤ 2 ^ 20 → Next (exec (.hashFeed src data t) s) (fun u =>
        u.completes s src .success 0 0 .none ∧ (u.he n).msg = (e.he n).msg ++ data ∧ (src.fn, n, max e.now t) ∈ u.sec.sessions)) ∧
      Next (exec (.hashFinish src 64) s) (fun u => u.completes s src .success 0 0 (.bytes (e.heDigest n ++ zeros (64 - (e.heDigest n).length))) ∧
        u.flag (Fd.SEC_HE_CTL_OWNED n) = false ∧ ∀ x ∈ u.sec.sessions, x.2.1 ≠ n) ∧
      Next (exec (.hashRelease src 0) s) (fun u => u.completes s src .success 0 0 .none ∧ u.flag (Fd.SEC_HE_CTL_OWNED n) = false ∧
        ∀ x ∈ u.sec.sessions, x.2.1 ≠ n)) ∧
    (e.sessionOf src.fn = none →
      (∀ data : Bytes, 1 ≤ data.length → data.length ≤ 2 ^ 20 → Next (exec (.hashFeed src data t) s) (fun u => u.completes s src .commandSequence 0 0 .none)) ∧
      Next (exec (.hashFinish src 64) s) (fun u => u.completes s src .commandSequence 0 0 .none) ∧
      Next (exec (.hashRelease src 0) s) (fun u => u.completes s src .commandSequence 0 0 .none))) ∧
  (∀ (s : State) (f n t : Nat), f < fnCount → s.sessionOf f = some n →
    ((s.sec.sessions.any fun x => x.1 = f && decide (x.2.2 + 10000000000 ≤ max s.now t)) = true →
      Next (exec (.hashSessionTimeout f t) s) (fun u => u.flag (Fd.SEC_HE_CTL_OWNED n) = false ∧ ∀ x ∈ u.sec.sessions, x.2.1 ≠ n)) ∧
    ((s.sec.sessions.any fun x => x.1 = f && decide (x.2.2 + 10000000000 ≤ max s.now t)) = false →
      Next (exec (.hashSessionTimeout f t) s) (fun u => u = s.at t))))

/-- R345, R352, R353: a pair unwrapped under the host KEK goes into its tag's slot, equal halves and bad tags are refused, a clear zeroes
it; the host KEK is taken in clear in PROVISION, wrapped under the current one in FIELD; a settings advance writes the next spare generation
and retires the old. -/
def Obligations.KeysAndSettingsAreInstalled : Prop :=
  ∀ (s : State) (src : Src), s.takes src .security = true →
    let e := s.entered src
    (∀ tag blob, e.keyCount src.fn ≤ tag →
      Next (exec (.keyInjection src tag blob) s) (fun t => t.completes s src .sscInvalidParameter 0 0 .none ∧ t.sec = e.sec) ∧
      Next (exec (.keyClear src tag) s) (fun t => t.completes s src .sscInvalidParameter 0 0 .none ∧ t.sec = e.sec)) ∧
    (∀ tag, tag < e.keyCount src.fn →
      let k := e.rd (Fd.VFM_FN_KEYS_BASE src.fn) + tag
      (∀ blob kek p, e.aesKey slotHostKek = some kek → unwrapKey kek blob 64 = some p →
        (p.take 32 ≠ p.drop 32 → Next (exec (.keyInjection src tag blob) s) (fun t => t.completes s src .success 0 0 .none ∧
          t.slot k = ⟨1, src.fn, srcInjected, p⟩ ∧ ∀ j, j ≠ k → t.slot j = e.slot j)) ∧
        (p.take 32 = p.drop 32 → Next (exec (.keyInjection src tag blob) s) (fun t => t.completes s src .sscInvalidParameter 0 0 .none ∧ t.sec = e.sec))) ∧
      (∀ blob, e.aesKey slotHostKek = none → Next (exec (.keyInjection src tag blob) s) (fun t => t.completes s src .keySlotEmpty 0 0 .none ∧ t.sec = e.sec)) ∧
      ((e.fn src.fn).keyShrink = none → Next (exec (.keyClear src tag) s) (fun t => t.completes s src .success 0 0 .none ∧ (t.slot k).kind = 0))) ∧
    (src.fn = 0 → ∀ data : Bytes,
      (e.lifecycle = lPROVISION → data.length = 32 → Next (exec (.hostKek src data) s) (fun t => t.completes s src .success 0 0 .none ∧
        t.aesKey slotHostKek = some data)) ∧
      (∀ k n, e.lifecycle = lFIELD → 40 ≤ data.length → data.length ≤ 512 → e.aesKey slotHostKek = some k → unwrapKey k data 32 = some n →
        Next (exec (.hostKek src data) s) (fun t => t.completes s src .success 0 0 .none ∧ t.aesKey slotHostKek = some n)) ∧
      (data.length = 256 → settingsBad data = false → (e.lifecycle = lPROVISION ∨ e.lifecycle = lFIELD) →
        (∀ g, g < 4 → (e.otpGet (0x800 + 256 * g)).toNat.testBit 0 = false → (∀ h, h < g → (e.otpGet (0x800 + 256 * h)).toNat.testBit 0 = true) →
          (e.pins.vqps = true → Next (exec (.settingsAdvance src data) s) (fun t => t.completes s src .success 0 0 .none ∧
            (t.otpGet (0x800 + 256 * g)).toNat.testBit 0 = true ∧ ∀ old, e.settingsGen = some old → (t.otpGet (0x800 + 256 * old)).toNat.testBit 1 = true)) ∧
          (e.pins.vqps = false → Next (exec (.settingsAdvance src data) s) (fun t => t.completes s src .operationDenied 0 0 .none ∧ t.sec = e.sec))) ∧
        ((∀ g, g < 4 → (e.otpGet (0x800 + 256 * g)).toNat.testBit 0 = true) →
          Next (exec (.settingsAdvance src data) s) (fun t => t.sec = e.sec ∧ t.cqes = { cqeOf src .operationDenied 0 0 .none with dnr := true } :: s.cqes))))

/-- R363, R364, R369: one request per function: it begins signing when none is signed, fails once its signing has begun, or where no index
can be reserved; the signature uses the index up; the report is read once, held Receives get it, and after 10 s it is discarded. -/
def Obligations.AttestationReports : Prop :=
  (∀ (s : State) (src : Src) (data : Bytes) (ok : Bool), s.takes src .security = true →
    let e := s.entered src
    (e.lifecycle = lFIELD ∨ e.lifecycle = lRMA) →
    (data.length = 64 → (data.drop 32).any (· ≠ 0) = false →
      (e.sec.attests = [] → e.flag Fd.SEC_IDENT_READY = true → Next (exec (.attestRequest src data ok) s) (fun t =>
        t.completes s src .success 0 0 .none ∧ t.sec.attests = [⟨src.fn, data.take 32, 1, 0, 0, [], []⟩])) ∧
      (e.sec.attests = [] → e.flag Fd.SEC_IDENT_READY = false → Next (exec (.attestRequest src data false) s) (fun t =>
        t.completes s src .indexExhausted 0 0 .none ∧ t.rd Fd.SEC_IDENT_EXHAUSTED = 1 ∧ t.rd Fd.SEC_IDENT_READY = 0)) ∧
      (∀ a, e.attest src.fn = some a → a.st ≠ 0 → Next (exec (.attestRequest src data ok) s) (fun t =>
        t.completes s src .commandSequence 0 0 .none ∧ t.sec = e.sec)) ∧
      (∀ a, e.attest src.fn = some a → a.st = 0 → e.signing = true → Next (exec (.attestRequest src data ok) s) (fun t =>
        t.completes s src .success 0 0 .none ∧ t.attest src.fn = some { a with nonce := data.take 32 }))) ∧
    (e.attest src.fn = none → Next (exec (.attestReport src 10152) s) (fun t => t.completes s src .commandSequence 0 0 .none)) ∧
    (∀ a, e.attest src.fn = some a → a.st = 2 → Next (exec (.attestReport src 10152) s) (fun t =>
      t.completes s src .success 0 0 (.bytes a.report) ∧ t.attest src.fn = none)) ∧
    (∀ a, e.attest src.fn = some a → a.st ≠ 2 → Next (exec (.attestReport src 10152) s) (fun t =>
      t.cqes = s.cqes ∧ t.attest src.fn = some { a with held := a.held ++ [src] }))) ∧
  (∀ (s : State) (a : Attest) (ok : Bool) (t : Nat), s.sec.attests = [a] → a.st = 1 → s.rd Fd.SEC_IDX_INDEX + 1 < 2 ^ 40 →
    Next (exec (.reportSignatureComplete ok t) s) (fun u => u.rd Fd.SEC_IDX_INDEX = s.rd Fd.SEC_IDX_INDEX + 1 ∧
      (a.held = [] → u.cqes = s.cqes ∧ ∃ r, u.sec.attests = [{ a with st := 2, index := s.rd Fd.SEC_IDX_INDEX, signedAt := max s.now t, report := r }]) ∧
      (∀ x, a.held = [x] → u.sec.attests = [] ∧ ∃ r, u.completes s x .success 0 0 (.bytes r)))) ∧
  (∀ (s : State) (f t : Nat), f < fnCount →
    Next (exec (.attestReportDiscard f t) s) (fun u => ∀ a, a ∈ u.sec.attests ↔
      a ∈ s.sec.attests ∧ ¬ (a.fn = f ∧ a.st = 2 ∧ a.signedAt + 10000000000 ≤ max s.now t)))

/-- R340-R342, R360, R366: a challenge answers UID, state and a fresh nonce, or waits for the TRNG; an advance uses the nonce up, and with
the right UID, nonce and step programs the flag word (SCRAPPED at once destroys the root secret and empties every slot); without VQPS it is
denied; provisioning programs a BLANK part. -/
def Obligations.LifecycleAdvances : Prop :=
  (∀ (s : State) (src : Src), s.takes src .security = true → src.fn = 0 →
    let e := s.entered src
    e.lifecycle ∈ notBlank →
    (let n := (Config.drawnKey e.sec.drawn ++ zeros 16).take 16
     (e.trngOk = true → Next (exec (.lifecycleChallenge src 48) s) (fun t =>
       t.completes s src .success 0 0 (.bytes (e.uid ++ [byte e.lifecycle] ++ zeros 15 ++ n)) ∧ t.sec.challenge = some n)) ∧
     (e.trngOk = false → Next (exec (.lifecycleChallenge src 48) s) (fun t => t.cqes = s.cqes ∧
       t.sec.trngWaits = e.sec.trngWaits ++ [.challenge src]))) ∧
    (∀ data : Bytes, Next (exec (.lifecycleAdvance src data) s) (fun t => t.sec.challenge = none)) ∧
    (∀ (k : Nat) (nonce : Bytes), nonce.length = 16 →
      let data := [byte k] ++ zeros 15 ++ e.uid ++ nonce ++ zeros 16
      ((e.sec.challenge ≠ some nonce ∨ lifeStep e.otpLifecycle k = false) → k ≤ 4 → k ≠ lRMA →
        Next (exec (.lifecycleAdvance src data) s) (fun t => t.completes s src .invalidField 0 0 .none ∧ t.sec.otp = s.sec.otp)) ∧
      (e.sec.challenge = some nonce → lifeStep e.otpLifecycle k = true → k ≠ lRMA →
        (k = lFIELD → (e.aesKey slotHostKek).isSome = true ∧ (e.statement 0).all (· = 0) = false) →
        (e.pins.vqps = false → Next (exec (.lifecycleAdvance src data) s) (fun t => t.completes s src .operationDenied 0 0 .none ∧ t.sec.otp = s.sec.otp)) ∧
        (e.pins.vqps = true → Next (exec (.lifecycleAdvance src data) s) (fun t => t.completes s src .success 0 0 .none ∧ t.otpLifecycle = k ∧
          (k = lFIELD → t.lifecycle = e.lifecycle ∧ t.sec.slots = e.sec.slots) ∧
          (k = lSCRAPPED → t.lifecycle = lSCRAPPED ∧ t.sec.slots = [] ∧ t.rootSecret = List.replicate 32 0xFF)))))) ∧
  (∀ (s : State) (uid serial : Bytes) (media : Nat) (digests : List Bytes) (dflt controls floor : Nat),
    (s.pwr.on = true → s.otpLifecycle = lBLANK → s.pins.vqps = true → s.trngOk = true →
      Next (exec (.lifecycleProvision uid serial media digests dflt controls floor) s) (fun t => t.otpLifecycle = lPROVISION ∧ t.lifecycle = s.lifecycle ∧ ∀ i, i < 16 → t.otpGet (0x20 + i) = s.otpGet (0x20 + i) ||| nth uid i 0)) ∧
    ((s.pwr.on = false ∨ s.otpLifecycle ≠ lBLANK ∨ s.pins.vqps = false) → Next (exec (.lifecycleProvision uid serial media digests dflt controls floor) s) (fun t => t = s)))

/-! ## Management window -/

/-- R15, R516, R523: a whole-word write that reaches a register whose writes do nothing else writes each field by its access code: RW takes
the value, RWL unless LOCK, W1C clears, W1S sets, the others stay; no other register changes but for the note of a locked write. LOCK and
WINRO are set by 1. -/
def Obligations.RegisterWritesByAccessCode : Prop :=
  ∀ (s : State) (r off v : Nat), s.writable r off = true →
    (∀ d i f, off % 4 = 0 → off < 2 ^ 26 → actsOnWrite off = false → regFind off regTable = some (d, i) → f ∈ d.fields →
      Next (exec (.registerWrite r off 1 true v) s) (fun t =>
        let old := f.get (s.word (homeOf r off))
        let new := f.get (t.word (homeOf r off))
        s.sameWords t (fun a => a = homeOf r off ∨ (s.rd Fd.TOP_LOCK_LOCK = 1 ∧ errorWord a)) ∧
        (f.access = .rw → new = f.get v) ∧ (f.access = .rwl → new = if s.rd Fd.TOP_LOCK_LOCK = 1 then old else f.get v) ∧
        (f.access = .w1s → new = old ||| f.get v) ∧ (f.access = .w1c → ∀ j, new.testBit j = (old.testBit j && !(f.get v).testBit j)) ∧
        ((f.access = .ro ∨ f.access = .rc ∨ f.access = .wo) → new = old))) ∧
    (off = Reg.TOP_LOCK →
      Next (exec (.topLockLock r) s) (fun t => t.rd Fd.TOP_LOCK_LOCK = 1 ∧ t.rd Fd.TOP_LOCK_WINRO = s.rd Fd.TOP_LOCK_WINRO ∧ s.sameWords t (· = Reg.TOP_LOCK)) ∧
      Next (exec (.topLockWinro r) s) (fun t => t.rd Fd.TOP_LOCK_WINRO = 1 ∧ t.rd Fd.TOP_LOCK_LOCK = s.rd Fd.TOP_LOCK_LOCK ∧ s.sameWords t (· = Reg.TOP_LOCK)))

/-- R14, R15, R516: a read of a word answers each field as shown, WO fields as 0, and clears RC fields; a read of a low word latches the
high word for its requester, whose next read of the high word gets the latched value, once. -/
def Obligations.RegisterReadsAndTheLatch : Prop :=
  ∀ (s : State) (r off : Nat), s.readable r off = true →
    (∀ d i, off % 4 = 0 → digestAt off = none → off ≠ Reg.SEC_TRNG_DATA → highWord off = false → lowWords.contains off = false →
      regFind off regTable = some (d, i) →
      let shown (t : State) : Prop := ∃ v, t.replies = ⟨r, v, false, .none⟩ :: s.replies ∧ s.sameWords t (· = homeOf r off) ∧
        ∀ f ∈ d.fields, f.get v = (if f.access = .wo then 0 else f.get (s.view r off)) ∧
          f.get (t.word (homeOf r off)) = (if f.access = .rc then 0 else f.get (s.word (homeOf r off)))
      Next (exec (.registerRead r off 1 true) s) shown ∧ (hasRc off = true → Next (exec (.rcRegisterRead r off) s) shown)) ∧
    (lowWords.contains off = true → Next (exec (.lowWordReadLatch r off) s) (fun t => t.regs = s.regs ∧
      t.latch.filter (fun x => x.1 = latchKey r (off + 4)) = [(latchKey r (off + 4), BitVec.ofNat 32 (s.view r (off + 4)))] ∧
      ∀ x, x.1 ≠ latchKey r (off + 4) → (x ∈ t.latch ↔ x ∈ s.latch))) ∧
    (highWord off = true → off % 4 = 0 →
      (∀ x, (s.latch.find? fun x => x.1 = latchKey r off) = some x → Next (exec (.registerRead r off 1 true) s) (fun t =>
        t.replies = ⟨r, x.2.toNat, false, .none⟩ :: s.replies ∧ (t.latch.any fun y => y.1 = latchKey r off) = false)) ∧
      ((s.latch.any fun x => x.1 = latchKey r off) = false → Next (exec (.registerRead r off 1 true) s) (fun t =>
        t = s.reply r (s.view r off) false .none)))

/-- R17, R515, R516, R518, R520-R523, R528: accesses that do not reach a register: unmapped reads give 0, dark ones 0BAD0FF0h; a host's
denied or WINRO write, a long or partial one is dropped; each sets its TOP_ERR bit and is captured in TOP_ERRADDR while VALID is 0, which a
write of 1 re-arms. Without a window the host gets an error, in low power its access is held. -/
def Obligations.WindowErrors : Prop :=
  ∀ (s : State) (r off : Nat), off % 4 = 0 → off < 2 ^ 26 →
    let captured (write : Bool) (t : State) : Prop :=
      (s.rd Fd.TOP_ERRADDR_VALID = 0 → t.rd Fd.TOP_ERRADDR_VALID = 1 ∧ t.rd Fd.TOP_ERRADDR_WRITE = write.toNat ∧
        t.rd Fd.TOP_ERRADDR_PCIE = (decide (r = reqPcie)).toNat ∧ t.rd Fd.TOP_ERRADDR_OFFSET = off / 4) ∧
      (s.rd Fd.TOP_ERRADDR_VALID = 1 → t.word Reg.TOP_ERRADDR = s.word Reg.TOP_ERRADDR)
    (s.winOpen r = true →
      (unmapped off = true →
        Next (exec (.registerRead r off 1 true) s) (fun t => t.replies = ⟨r, 0, false, .none⟩ :: s.replies ∧ t.rd Fd.TOP_ERR_UNMAPPED = 1 ∧
          s.sameWords t errorWord ∧ captured false t) ∧
        (deniedTo r off = false → (r = reqPcie → s.flag Fd.TOP_LOCK_WINRO = false) → ∀ v, Next (exec (.registerWrite r off 1 true v) s) (fun t =>
          t.rd Fd.TOP_ERR_UNMAPPED = 1 ∧ s.sameWords t errorWord ∧ captured true t))) ∧
      (s.dark off = true →
        Next (exec (.registerRead r off 1 true) s) (fun t => t.replies = ⟨r, 0x0BAD0FF0, decide (r ≠ reqPcie), .none⟩ :: s.replies ∧
          t.rd Fd.TOP_ERR_DARK = 1 ∧ s.sameWords t errorWord ∧ captured false t) ∧
        (deniedTo r off = false → (r = reqPcie → s.flag Fd.TOP_LOCK_WINRO = false) → ∀ v, Next (exec (.registerWrite r off 1 true v) s) (fun t =>
          t.rd Fd.TOP_ERR_DARK = 1 ∧ s.sameWords t errorWord ∧ captured true t))) ∧
      (r = reqPcie → deniedTo r off = true → unmapped off = false → ∀ v, Next (exec (.registerWrite r off 1 true v) s) (fun t =>
        t.rd Fd.TOP_ERR_DENIED = 1 ∧ captured true t ∧ (off < 0x2000000 ∨ 0x2400000 ≤ off ∨ s.dark off = true → s.sameWords t errorWord) ∧
        (0x2000000 ≤ off → off < 0x2400000 → s.dark off = false → t.rd Fd.SEC_ALARM_DENIED = 1))) ∧
      (r = reqPcie → deniedTo r off = false → s.flag Fd.TOP_LOCK_WINRO = true → off ≠ Reg.TOP_ERR → off ≠ Reg.TOP_ERRADDR → ∀ v,
        Next (exec (.registerWrite r off 1 true v) s) (fun t => t.rd Fd.TOP_ERR_LOCKED = 1 ∧ s.sameWords t errorWord ∧ captured true t)) ∧
      (∀ n v, n ≠ 1 → Next (exec (.registerWrite r off n true v) s) (fun t => t.rd Fd.TOP_ERR_WSIZE = 1 ∧ s.sameWords t errorWord ∧ captured true t)) ∧
      (∀ v, Next (exec (.registerWrite r off 1 false v) s) (fun t => t.rd Fd.TOP_ERR_ALIGN = 1 ∧ s.sameWords t errorWord ∧ captured true t))) ∧
    (s.writable r Reg.TOP_ERRADDR = true → Next (exec (.topErraddrValidClear r) s) (fun t => t.word Reg.TOP_ERRADDR = 0 ∧ s.sameWords t (· = Reg.TOP_ERRADDR))) ∧
    (s.pwr.on = true → s.hasWindow = false →
      Next (exec (.registerRead reqPcie off 1 true) s) (fun t => t = s.reply reqPcie 0 true .none) ∧
      ∀ v, Next (exec (.registerWrite reqPcie off 1 true v) s) (fun t => t = s)) ∧
    (s.pwr.on = true → s.hasWindow = true → s.asleep = true →
      Next (exec (.registerRead reqPcie off 1 true) s) (fun t => t.pwr.held = s.pwr.held ++ [(false, off, 1)] ∧ t.replies = s.replies) ∧
      ∀ v, Next (exec (.registerWrite reqPcie off 1 true v) s) (fun t => t.pwr.held = s.pwr.held ++ [(true, off, v)] ∧ t.replies = s.replies))

/-- R518: an offset inside a block that no register table lists reads 0 and ignores a write, with no error; an unmapped one reads 0, a write
to it is dropped, and TOP_ERR.UNMAPPED is set. -/
def Obligations.UnlistedAndUnmappedOffsets : Prop :=
  ∀ (s : State) (r off v : Nat), off % 4 = 0 → off < 2 ^ 26 → s.winOpen r = true →
    (off < 0x2C00000 → regFind off regTable = none → s.dark off = false →
      Next (exec (.registerRead r off 1 true) s) (fun t => t = s.reply r 0 false .none) ∧
      (deniedTo r off = false → (r = reqPcie → s.flag Fd.TOP_LOCK_WINRO = false) → Next (exec (.registerWrite r off 1 true v) s) (fun t => t = s))) ∧
    (0x2C00000 ≤ off →
      Next (exec (.registerRead r off 1 true) s) (fun t => t.replies = ⟨r, 0, false, .none⟩ :: s.replies ∧ t.rd Fd.TOP_ERR_UNMAPPED = 1 ∧
        s.sameWords t errorWord) ∧
      Next (exec (.registerWrite r off 1 true v) s) (fun t => t.rd Fd.TOP_ERR_UNMAPPED = 1 ∧ s.sameWords t errorWord))

/-! ## The whole machine -/

/-- A step takes the command at the front of the queue and runs it on the state with the queue's rest; on an empty queue the block idles
(the model's choice, assumption 1). -/
def Obligations.StepRunsTheFrontCommand : Prop :=
  (∀ (s : State) (c : Instr) (rest : List Instr), step { s with pending := c :: rest } = exec c { s with pending := rest }) ∧
  ∀ s : State, s.pending = [] → step s = .next s

/-- R16, R525: right after reset every register shows its Reset value, no command waits, and the register file, the boot flash and the OTP
stand in canonical form. -/
def Obligations.ResetLeavesTheResetColumn : Prop :=
  (∀ a, State.reset.word a = (regReset a).toNat) ∧ State.reset.word Reg.TOP_ID = 0x4C1024B1 ∧ State.reset.word Reg.TOP_LOCK = 0 ∧
  State.reset.rd Fd.SNC_XIP_DETACH_DETACH = 0x1FFFF ∧ (∀ n, n < 64 → State.reset.rd (Fd.MED_CH_STATE_STATE n) = 0) ∧
  (∀ f, f < 1024 → (State.reset.fn f).en = false ∧ (State.reset.fn f).sqs.length = 1) ∧
  State.reset.pending = [] ∧ State.reset.canonical

/-- Every step keeps the register file, the boot flash and the OTP in canonical form, from every state that has it. -/
def Obligations.EveryStepKeepsTheCanonicalForm : Prop :=
  ∀ s t : State, s.canonical → step s = .next t → t.canonical

/-- R343-R346: OTP bits are only ever programmed: no step clears a bit that is 1, in any state. -/
def Obligations.OtpBitsStaySet : Prop :=
  ∀ s t : State, step s = .next t → ∀ a j, (s.otpGet a).toNat.testBit j = true → (t.otpGet a).toNat.testBit j = true

/-- No command touches the queue of those that wait, and none is refused. -/
def Obligations.CommandsLeaveTheQueue : Prop :=
  ∀ (c : Instr) (s : State), (∀ t, exec c s = .next t → t.pending = s.pending) ∧ ∀ r, exec c s ≠ .refused r

/-- Frame of the I/O commands the front end queues, whatever it answers: the zones, clutches, namespaces, efts and everything else stay;
only the function's own queues, the outstanding commands, completions and, where the part wakes from IDLE or PS3, the GK and CLK registers
change. -/
def Obligations.FrameOfQueuedIo : Prop :=
  ∀ (s t : State) (src : Src) (w : WriteArgs) (v : VpwArgs) (r : ReadArgs) (host : Bytes) (n a b c d e f : Nat) (de : Bool) (l : List (Nat × Nat)) (i : Instr),
    i ∈ [Instr.write src w, .writeZeroes src w, .zoneAppend src w, .orderedWrite src w, .locatorAppend src w, .verifiedPrecompressedWrite src v,
      .read src r, .compare src r host, .verify src r, .readByLocator src n a b c d e f, .digestRange src n a b c d, .datasetManagement src n de l,
      .flush src n] → exec i s = .next t →
    t = { s with cmds := t.cmds, cqes := t.cqes, fns := t.fns, regs := t.regs, pwr := t.pwr } ∧ (∀ g, g ≠ src.fn → t.fn g = s.fn g) ∧
    s.sameWords t (fun x => 0x100000 ≤ x ∧ x < 0x400000)

/-- Frame of the admin commands that only report, and of the features of the latency windows. -/
def Obligations.FrameOfReports : Prop :=
  ∀ (s t : State) (src : Src) (n : Nat) (b : Bool) (i : Instr),
    i ∈ [Instr.identifyController src, .identifyNamespace src n, .identifyNvmSetList src, .getLogPageSmart src b, .getLogPageLyskinHealth src b,
      .getLogPageChorusSchedule src b, .getLogPageAutotomyRecord src b, .getLogPagePredictableLatency src n b, .getLogPagePlmEventAggregate src b,
      .getFeaturesPlmWindow src n, .setFeaturesPlmWindow src, .setFeaturesPlmConfig src n b, .securityProtocolList src, .identity src n] →
    exec i s = .next t →
    t = { s with cqes := t.cqes, fns := t.fns, regs := t.regs, pwr := t.pwr, freeIx := t.freeIx } ∧ (∀ g, g ≠ src.fn → t.fn g = s.fn g) ∧
    s.sameWords t (fun x => 0x100000 ≤ x ∧ x < 0x400000)

/-- Frames of the DRAM controllers, of the island's registers, of the boot flash's operations and of window reads: each changes its own
block, the registers that note it, and nothing else; the OTP stays, and starting an operation leaves every byte above the flag sectors. -/
def Obligations.FramesOfTheBlocks : Prop :=
  ∀ (s t : State) (i : Instr), exec i s = .next t →
    (∀ (a b c d e f g : Nat) (l : List Int) (x : Bool),
      i ∈ [Instr.refreshDue a b c, .mr4Read a b x, .dqsOscillatorRead a l, .laneRetrainSlice a b x c d e f, .streamStarveTimeout a g,
        .dramPowerDownEntry a b g, .selfRefreshEntry a x, .selfRefreshExit a x g] →
      t = { s with regs := t.regs, dram := t.dram, now := t.now } ∧ s.sameWords t (fun a => 0x2400000 ≤ a ∧ a < 0x2600000)) ∧
    (∀ (r a b c : Nat),
      i ∈ [Instr.secHeClaim r a b c, .secHeDataWrite r a b, .secHeFinal r a b, .hashEngineDone a, .secHeRelease r a, .secHeDigestLastRead r a,
        .secKeClaim r, .keStartCmac r, .keStartUnwrapXts r, .keStartUnwrapAes r, .secKeDataWrite r a, .keOperationComplete a b, .secKeAbort r,
        .secKeRelease r, .secKsZero r, .secKsFill r, .secTrngDataRead r] →
      t = { s with regs := t.regs, sec := t.sec, replies := t.replies, evr := t.evr, pwr := t.pwr } ∧ t.sec.otp = s.sec.otp) ∧
    (∀ (r : Nat) (x : Bool), i ∈ [Instr.sncProgram r x, .sncSectorErase r, .sncBlockErase r, .sncBlankCheck r] →
      t = { s with regs := t.regs, snc := t.snc, replies := t.replies, evr := t.evr, pwr := t.pwr } ∧ ∀ a, 0x2000 ≤ a → t.flashGet a = s.flashGet a) ∧
    (∀ (r a b : Nat) (x : Bool), i ∈ [Instr.registerRead r a b x, .lowWordReadLatch r a, .rcRegisterRead r a] →
      t = { s with regs := t.regs, sec := t.sec, replies := t.replies, pwr := t.pwr, latch := t.latch } ∧ t.sec.otp = s.sec.otp)

/-! ## Parity -/

/-- R153, R221, R230: what is lost comes back from the others: of 30 data members' bytes of one length any one comes back from P, any one
from Q, and any two from both; and for every place of a row, data, P or Q, with one other lost or none, the terms a rebuild of the row
issues, with their inverse coefficients, sum up to the bytes of that place. -/
def Obligations.LostMembersComeBackFromParity : Prop :=
  ∀ (l : List Bytes) (n : Nat), l.length = 30 → (∀ b ∈ l, b.length = n) →
    let p := parityP l n
    let q := parityQ l n
    let page (r : Nat) : Bytes := if r = 30 then p else if r = 31 then q else nth l r []
    (∀ j, j < 30 → rebuildFromP (setNth l j (zeros n)) p = nth l j [] ∧ rebuildFromQ (setNth l j (zeros n)) j q = nth l j []) ∧
    (∀ i j, i < j → j < 30 → rebuildTwo (setNth (setNth l i (zeros n)) j (zeros n)) i j p q = (nth l i [], nth l j [])) ∧
    (∀ r o, r < 32 → (∀ k, o = some k → k < 32 ∧ k ≠ r) →
      (∀ e ∈ termCoeffs r o, e.1 ≠ r ∧ some e.1 ≠ o) ∧
      (termCoeffs r o).foldl (fun a e => gfAcc e.2 a (page e.1)) (zeros n) = page r)
end

