-- ==== Sys2Proof/Laws/Frame.lean ====
section
/-! SUPPORT. The decompressor's output: its length is what the guard counts, and never passes the limit. -/

namespace Sys2Proof.Machine

open Sys2Proof

theorem copyMatch_length (k off : Nat) : ∀ out : Bytes, (copyMatch k off out).length = out.length + k := by
  induction k with
  | zero => intro out; rfl
  | succ k ih => intro out; rw [copyMatch, ih, List.length_cons]; omega

/-- Runs that end well leave a counted output within the limit, no shorter than before. -/
theorem runRuns_counts (lim : Nat) : ∀ (rs : List Run) (n : Nat) (out : Bytes) (m : Nat) (o : Bytes),
    runRuns lim rs n out = .inr (m, o) → out.length = n → n ≤ lim → o.length = m ∧ n ≤ m ∧ m ≤ lim := by
  intro rs
  induction rs with
  | nil =>
    intro n out m o h e l
    simp only [runRuns, Sum.inr.injEq, Prod.mk.injEq] at h
    obtain ⟨rfl, rfl⟩ := h
    exact ⟨e, Nat.le_refl _, l⟩
  | cons r rs ih =>
    intro n out m o h e l
    cases r with
    | lit b =>
      simp only [runRuns] at h
      split at h
      · cases h
      · have := ih _ _ _ _ h (by rw [List.length_append, List.length_reverse]; omega) (by omega); omega
    | copy off len =>
      simp only [runRuns] at h
      split at h
      · cases h
      · split at h
        · cases h
        · have := ih _ _ _ _ h (by rw [copyMatch_length]; omega) (by omega); omega

/-- What the guard answers OK has the header's logical length. -/
theorem guard_ok_length {clutch fmt llen slen : Nat} {body out : Bytes} (h : guard clutch fmt llen slen body = .ok out) (f : fmt ≠ 1) :
    out.length = llen := by
  unfold guard at h
  simp only [f, if_false] at h
  split at h
  · cases h
  · split at h
    · cases h
    · split at h
      · cases h
      · split at h
        · split at h
          · cases h
          · split at h
            · cases h; assumption
            · cases h
        · cases h

end Sys2Proof.Machine
end

