-- ==== Sys2Proof/Laws/State.lean ====
section
/-! SUPPORT. What each elementary update of the state leaves alone: one lemma per field and per reader. -/

namespace Sys2Proof.Machine

open Sys2Proof

variable (s : State)

/-! ## `setWord` -/

@[simp] theorem State.setWord_now (o v : Nat) : (s.setWord o v).now = s.now := rfl
@[simp] theorem State.setWord_latch (o v : Nat) : (s.setWord o v).latch = s.latch := rfl
@[simp] theorem State.setWord_replies (o v : Nat) : (s.setWord o v).replies = s.replies := rfl
@[simp] theorem State.setWord_cqes (o v : Nat) : (s.setWord o v).cqes = s.cqes := rfl
@[simp] theorem State.setWord_fns (o v : Nat) : (s.setWord o v).fns = s.fns := rfl
@[simp] theorem State.setWord_rr (o v : Nat) : (s.setWord o v).rr = s.rr := rfl
@[simp] theorem State.setWord_nss (o v : Nat) : (s.setWord o v).nss = s.nss := rfl
@[simp] theorem State.setWord_zones (o v : Nat) : (s.setWord o v).zones = s.zones := rfl
@[simp] theorem State.setWord_clutches (o v : Nat) : (s.setWord o v).clutches = s.clutches := rfl
@[simp] theorem State.setWord_kept (o v : Nat) : (s.setWord o v).kept = s.kept := rfl
@[simp] theorem State.setWord_landing (o v : Nat) : (s.setWord o v).landing = s.landing := rfl
@[simp] theorem State.setWord_cmds (o v : Nat) : (s.setWord o v).cmds = s.cmds := rfl
@[simp] theorem State.setWord_efts (o v : Nat) : (s.setWord o v).efts = s.efts := rfl
@[simp] theorem State.setWord_xlt (o v : Nat) : (s.setWord o v).xlt = s.xlt := rfl
@[simp] theorem State.setWord_evr (o v : Nat) : (s.setWord o v).evr = s.evr := rfl
@[simp] theorem State.setWord_hlt (o v : Nat) : (s.setWord o v).hlt = s.hlt := rfl
@[simp] theorem State.setWord_quiesce (o v : Nat) : (s.setWord o v).quiesce = s.quiesce := rfl
@[simp] theorem State.setWord_med (o v : Nat) : (s.setWord o v).med = s.med := rfl
@[simp] theorem State.setWord_cho (o v : Nat) : (s.setWord o v).cho = s.cho := rfl
@[simp] theorem State.setWord_dzl (o v : Nat) : (s.setWord o v).dzl = s.dzl := rfl
@[simp] theorem State.setWord_sec (o v : Nat) : (s.setWord o v).sec = s.sec := rfl
@[simp] theorem State.setWord_boot (o v : Nat) : (s.setWord o v).boot = s.boot := rfl
@[simp] theorem State.setWord_pwr (o v : Nat) : (s.setWord o v).pwr = s.pwr := rfl
@[simp] theorem State.setWord_dram (o v : Nat) : (s.setWord o v).dram = s.dram := rfl
@[simp] theorem State.setWord_snc (o v : Nat) : (s.setWord o v).snc = s.snc := rfl
@[simp] theorem State.setWord_pins (o v : Nat) : (s.setWord o v).pins = s.pins := rfl
@[simp] theorem State.setWord_freeIx (o v : Nat) : (s.setWord o v).freeIx = s.freeIx := rfl
@[simp] theorem State.setWord_pending (o v : Nat) : (s.setWord o v).pending = s.pending := rfl
@[simp] theorem State.setWord_fn (o v : Nat) (k : Nat) : (s.setWord o v).fn k = s.fn k := rfl

/-! ## `wr` -/

@[simp] theorem State.wr_now (f : Fld) (v : Nat) : (s.wr f v).now = s.now := by unfold State.wr; split <;> rfl
@[simp] theorem State.wr_latch (f : Fld) (v : Nat) : (s.wr f v).latch = s.latch := by unfold State.wr; split <;> rfl
@[simp] theorem State.wr_replies (f : Fld) (v : Nat) : (s.wr f v).replies = s.replies := by unfold State.wr; split <;> rfl
@[simp] theorem State.wr_cqes (f : Fld) (v : Nat) : (s.wr f v).cqes = s.cqes := by unfold State.wr; split <;> rfl
@[simp] theorem State.wr_fns (f : Fld) (v : Nat) : (s.wr f v).fns = s.fns := by unfold State.wr; split <;> rfl
@[simp] theorem State.wr_rr (f : Fld) (v : Nat) : (s.wr f v).rr = s.rr := by unfold State.wr; split <;> rfl
@[simp] theorem State.wr_nss (f : Fld) (v : Nat) : (s.wr f v).nss = s.nss := by unfold State.wr; split <;> rfl
@[simp] theorem State.wr_zones (f : Fld) (v : Nat) : (s.wr f v).zones = s.zones := by unfold State.wr; split <;> rfl
@[simp] theorem State.wr_clutches (f : Fld) (v : Nat) : (s.wr f v).clutches = s.clutches := by unfold State.wr; split <;> rfl
@[simp] theorem State.wr_kept (f : Fld) (v : Nat) : (s.wr f v).kept = s.kept := by unfold State.wr; split <;> rfl
@[simp] theorem State.wr_landing (f : Fld) (v : Nat) : (s.wr f v).landing = s.landing := by unfold State.wr; split <;> rfl
@[simp] theorem State.wr_cmds (f : Fld) (v : Nat) : (s.wr f v).cmds = s.cmds := by unfold State.wr; split <;> rfl
@[simp] theorem State.wr_efts (f : Fld) (v : Nat) : (s.wr f v).efts = s.efts := by unfold State.wr; split <;> rfl
@[simp] theorem State.wr_xlt (f : Fld) (v : Nat) : (s.wr f v).xlt = s.xlt := by unfold State.wr; split <;> rfl
@[simp] theorem State.wr_evr (f : Fld) (v : Nat) : (s.wr f v).evr = s.evr := by unfold State.wr; split <;> rfl
@[simp] theorem State.wr_hlt (f : Fld) (v : Nat) : (s.wr f v).hlt = s.hlt := by unfold State.wr; split <;> rfl
@[simp] theorem State.wr_quiesce (f : Fld) (v : Nat) : (s.wr f v).quiesce = s.quiesce := by unfold State.wr; split <;> rfl
@[simp] theorem State.wr_med (f : Fld) (v : Nat) : (s.wr f v).med = s.med := by unfold State.wr; split <;> rfl
@[simp] theorem State.wr_cho (f : Fld) (v : Nat) : (s.wr f v).cho = s.cho := by unfold State.wr; split <;> rfl
@[simp] theorem State.wr_dzl (f : Fld) (v : Nat) : (s.wr f v).dzl = s.dzl := by unfold State.wr; split <;> rfl
@[simp] theorem State.wr_sec (f : Fld) (v : Nat) : (s.wr f v).sec = s.sec := by unfold State.wr; split <;> rfl
@[simp] theorem State.wr_boot (f : Fld) (v : Nat) : (s.wr f v).boot = s.boot := by unfold State.wr; split <;> rfl
@[simp] theorem State.wr_pwr (f : Fld) (v : Nat) : (s.wr f v).pwr = s.pwr := by unfold State.wr; split <;> rfl
@[simp] theorem State.wr_dram (f : Fld) (v : Nat) : (s.wr f v).dram = s.dram := by unfold State.wr; split <;> rfl
@[simp] theorem State.wr_snc (f : Fld) (v : Nat) : (s.wr f v).snc = s.snc := by unfold State.wr; split <;> rfl
@[simp] theorem State.wr_pins (f : Fld) (v : Nat) : (s.wr f v).pins = s.pins := by unfold State.wr; split <;> rfl
@[simp] theorem State.wr_freeIx (f : Fld) (v : Nat) : (s.wr f v).freeIx = s.freeIx := by unfold State.wr; split <;> rfl
@[simp] theorem State.wr_pending (f : Fld) (v : Nat) : (s.wr f v).pending = s.pending := by unfold State.wr; split <;> rfl
@[simp] theorem State.wr_fn (f : Fld) (v : Nat) (k : Nat) : (s.wr f v).fn k = s.fn k := by unfold State.wr; split <;> rfl

/-! ## `setFlag` -/

@[simp] theorem State.setFlag_now (f : Fld) (b : Bool) : (s.setFlag f b).now = s.now := State.wr_now s f b.toNat
@[simp] theorem State.setFlag_latch (f : Fld) (b : Bool) : (s.setFlag f b).latch = s.latch := State.wr_latch s f b.toNat
@[simp] theorem State.setFlag_replies (f : Fld) (b : Bool) : (s.setFlag f b).replies = s.replies := State.wr_replies s f b.toNat
@[simp] theorem State.setFlag_cqes (f : Fld) (b : Bool) : (s.setFlag f b).cqes = s.cqes := State.wr_cqes s f b.toNat
@[simp] theorem State.setFlag_fns (f : Fld) (b : Bool) : (s.setFlag f b).fns = s.fns := State.wr_fns s f b.toNat
@[simp] theorem State.setFlag_rr (f : Fld) (b : Bool) : (s.setFlag f b).rr = s.rr := State.wr_rr s f b.toNat
@[simp] theorem State.setFlag_nss (f : Fld) (b : Bool) : (s.setFlag f b).nss = s.nss := State.wr_nss s f b.toNat
@[simp] theorem State.setFlag_zones (f : Fld) (b : Bool) : (s.setFlag f b).zones = s.zones := State.wr_zones s f b.toNat
@[simp] theorem State.setFlag_clutches (f : Fld) (b : Bool) : (s.setFlag f b).clutches = s.clutches := State.wr_clutches s f b.toNat
@[simp] theorem State.setFlag_kept (f : Fld) (b : Bool) : (s.setFlag f b).kept = s.kept := State.wr_kept s f b.toNat
@[simp] theorem State.setFlag_landing (f : Fld) (b : Bool) : (s.setFlag f b).landing = s.landing := State.wr_landing s f b.toNat
@[simp] theorem State.setFlag_cmds (f : Fld) (b : Bool) : (s.setFlag f b).cmds = s.cmds := State.wr_cmds s f b.toNat
@[simp] theorem State.setFlag_efts (f : Fld) (b : Bool) : (s.setFlag f b).efts = s.efts := State.wr_efts s f b.toNat
@[simp] theorem State.setFlag_xlt (f : Fld) (b : Bool) : (s.setFlag f b).xlt = s.xlt := State.wr_xlt s f b.toNat
@[simp] theorem State.setFlag_evr (f : Fld) (b : Bool) : (s.setFlag f b).evr = s.evr := State.wr_evr s f b.toNat
@[simp] theorem State.setFlag_hlt (f : Fld) (b : Bool) : (s.setFlag f b).hlt = s.hlt := State.wr_hlt s f b.toNat
@[simp] theorem State.setFlag_quiesce (f : Fld) (b : Bool) : (s.setFlag f b).quiesce = s.quiesce := State.wr_quiesce s f b.toNat
@[simp] theorem State.setFlag_med (f : Fld) (b : Bool) : (s.setFlag f b).med = s.med := State.wr_med s f b.toNat
@[simp] theorem State.setFlag_cho (f : Fld) (b : Bool) : (s.setFlag f b).cho = s.cho := State.wr_cho s f b.toNat
@[simp] theorem State.setFlag_dzl (f : Fld) (b : Bool) : (s.setFlag f b).dzl = s.dzl := State.wr_dzl s f b.toNat
@[simp] theorem State.setFlag_sec (f : Fld) (b : Bool) : (s.setFlag f b).sec = s.sec := State.wr_sec s f b.toNat
@[simp] theorem State.setFlag_boot (f : Fld) (b : Bool) : (s.setFlag f b).boot = s.boot := State.wr_boot s f b.toNat
@[simp] theorem State.setFlag_pwr (f : Fld) (b : Bool) : (s.setFlag f b).pwr = s.pwr := State.wr_pwr s f b.toNat
@[simp] theorem State.setFlag_dram (f : Fld) (b : Bool) : (s.setFlag f b).dram = s.dram := State.wr_dram s f b.toNat
@[simp] theorem State.setFlag_snc (f : Fld) (b : Bool) : (s.setFlag f b).snc = s.snc := State.wr_snc s f b.toNat
@[simp] theorem State.setFlag_pins (f : Fld) (b : Bool) : (s.setFlag f b).pins = s.pins := State.wr_pins s f b.toNat
@[simp] theorem State.setFlag_freeIx (f : Fld) (b : Bool) : (s.setFlag f b).freeIx = s.freeIx := State.wr_freeIx s f b.toNat
@[simp] theorem State.setFlag_pending (f : Fld) (b : Bool) : (s.setFlag f b).pending = s.pending := State.wr_pending s f b.toNat
@[simp] theorem State.setFlag_fn (f : Fld) (b : Bool) (k : Nat) : (s.setFlag f b).fn k = s.fn k := State.wr_fn s f _ k

/-! ## `bump` -/

@[simp] theorem State.bump_now (f : Fld) (n : Nat) : (s.bump f n).now = s.now := State.wr_now s f _
@[simp] theorem State.bump_latch (f : Fld) (n : Nat) : (s.bump f n).latch = s.latch := State.wr_latch s f _
@[simp] theorem State.bump_replies (f : Fld) (n : Nat) : (s.bump f n).replies = s.replies := State.wr_replies s f _
@[simp] theorem State.bump_cqes (f : Fld) (n : Nat) : (s.bump f n).cqes = s.cqes := State.wr_cqes s f _
@[simp] theorem State.bump_fns (f : Fld) (n : Nat) : (s.bump f n).fns = s.fns := State.wr_fns s f _
@[simp] theorem State.bump_rr (f : Fld) (n : Nat) : (s.bump f n).rr = s.rr := State.wr_rr s f _
@[simp] theorem State.bump_nss (f : Fld) (n : Nat) : (s.bump f n).nss = s.nss := State.wr_nss s f _
@[simp] theorem State.bump_zones (f : Fld) (n : Nat) : (s.bump f n).zones = s.zones := State.wr_zones s f _
@[simp] theorem State.bump_clutches (f : Fld) (n : Nat) : (s.bump f n).clutches = s.clutches := State.wr_clutches s f _
@[simp] theorem State.bump_kept (f : Fld) (n : Nat) : (s.bump f n).kept = s.kept := State.wr_kept s f _
@[simp] theorem State.bump_landing (f : Fld) (n : Nat) : (s.bump f n).landing = s.landing := State.wr_landing s f _
@[simp] theorem State.bump_cmds (f : Fld) (n : Nat) : (s.bump f n).cmds = s.cmds := State.wr_cmds s f _
@[simp] theorem State.bump_efts (f : Fld) (n : Nat) : (s.bump f n).efts = s.efts := State.wr_efts s f _
@[simp] theorem State.bump_xlt (f : Fld) (n : Nat) : (s.bump f n).xlt = s.xlt := State.wr_xlt s f _
@[simp] theorem State.bump_evr (f : Fld) (n : Nat) : (s.bump f n).evr = s.evr := State.wr_evr s f _
@[simp] theorem State.bump_hlt (f : Fld) (n : Nat) : (s.bump f n).hlt = s.hlt := State.wr_hlt s f _
@[simp] theorem State.bump_quiesce (f : Fld) (n : Nat) : (s.bump f n).quiesce = s.quiesce := State.wr_quiesce s f _
@[simp] theorem State.bump_med (f : Fld) (n : Nat) : (s.bump f n).med = s.med := State.wr_med s f _
@[simp] theorem State.bump_cho (f : Fld) (n : Nat) : (s.bump f n).cho = s.cho := State.wr_cho s f _
@[simp] theorem State.bump_dzl (f : Fld) (n : Nat) : (s.bump f n).dzl = s.dzl := State.wr_dzl s f _
@[simp] theorem State.bump_sec (f : Fld) (n : Nat) : (s.bump f n).sec = s.sec := State.wr_sec s f _
@[simp] theorem State.bump_boot (f : Fld) (n : Nat) : (s.bump f n).boot = s.boot := State.wr_boot s f _
@[simp] theorem State.bump_pwr (f : Fld) (n : Nat) : (s.bump f n).pwr = s.pwr := State.wr_pwr s f _
@[simp] theorem State.bump_dram (f : Fld) (n : Nat) : (s.bump f n).dram = s.dram := State.wr_dram s f _
@[simp] theorem State.bump_snc (f : Fld) (n : Nat) : (s.bump f n).snc = s.snc := State.wr_snc s f _
@[simp] theorem State.bump_pins (f : Fld) (n : Nat) : (s.bump f n).pins = s.pins := State.wr_pins s f _
@[simp] theorem State.bump_freeIx (f : Fld) (n : Nat) : (s.bump f n).freeIx = s.freeIx := State.wr_freeIx s f _
@[simp] theorem State.bump_pending (f : Fld) (n : Nat) : (s.bump f n).pending = s.pending := State.wr_pending s f _
@[simp] theorem State.bump_fn (f : Fld) (n : Nat) (k : Nat) : (s.bump f n).fn k = s.fn k := State.wr_fn s f _ k

/-! ## `count` -/

@[simp] theorem State.count_now (f : Fld) : (s.count f).now = s.now := State.wr_now s f _
@[simp] theorem State.count_latch (f : Fld) : (s.count f).latch = s.latch := State.wr_latch s f _
@[simp] theorem State.count_replies (f : Fld) : (s.count f).replies = s.replies := State.wr_replies s f _
@[simp] theorem State.count_cqes (f : Fld) : (s.count f).cqes = s.cqes := State.wr_cqes s f _
@[simp] theorem State.count_fns (f : Fld) : (s.count f).fns = s.fns := State.wr_fns s f _
@[simp] theorem State.count_rr (f : Fld) : (s.count f).rr = s.rr := State.wr_rr s f _
@[simp] theorem State.count_nss (f : Fld) : (s.count f).nss = s.nss := State.wr_nss s f _
@[simp] theorem State.count_zones (f : Fld) : (s.count f).zones = s.zones := State.wr_zones s f _
@[simp] theorem State.count_clutches (f : Fld) : (s.count f).clutches = s.clutches := State.wr_clutches s f _
@[simp] theorem State.count_kept (f : Fld) : (s.count f).kept = s.kept := State.wr_kept s f _
@[simp] theorem State.count_landing (f : Fld) : (s.count f).landing = s.landing := State.wr_landing s f _
@[simp] theorem State.count_cmds (f : Fld) : (s.count f).cmds = s.cmds := State.wr_cmds s f _
@[simp] theorem State.count_efts (f : Fld) : (s.count f).efts = s.efts := State.wr_efts s f _
@[simp] theorem State.count_xlt (f : Fld) : (s.count f).xlt = s.xlt := State.wr_xlt s f _
@[simp] theorem State.count_evr (f : Fld) : (s.count f).evr = s.evr := State.wr_evr s f _
@[simp] theorem State.count_hlt (f : Fld) : (s.count f).hlt = s.hlt := State.wr_hlt s f _
@[simp] theorem State.count_quiesce (f : Fld) : (s.count f).quiesce = s.quiesce := State.wr_quiesce s f _
@[simp] theorem State.count_med (f : Fld) : (s.count f).med = s.med := State.wr_med s f _
@[simp] theorem State.count_cho (f : Fld) : (s.count f).cho = s.cho := State.wr_cho s f _
@[simp] theorem State.count_dzl (f : Fld) : (s.count f).dzl = s.dzl := State.wr_dzl s f _
@[simp] theorem State.count_sec (f : Fld) : (s.count f).sec = s.sec := State.wr_sec s f _
@[simp] theorem State.count_boot (f : Fld) : (s.count f).boot = s.boot := State.wr_boot s f _
@[simp] theorem State.count_pwr (f : Fld) : (s.count f).pwr = s.pwr := State.wr_pwr s f _
@[simp] theorem State.count_dram (f : Fld) : (s.count f).dram = s.dram := State.wr_dram s f _
@[simp] theorem State.count_snc (f : Fld) : (s.count f).snc = s.snc := State.wr_snc s f _
@[simp] theorem State.count_pins (f : Fld) : (s.count f).pins = s.pins := State.wr_pins s f _
@[simp] theorem State.count_freeIx (f : Fld) : (s.count f).freeIx = s.freeIx := State.wr_freeIx s f _
@[simp] theorem State.count_pending (f : Fld) : (s.count f).pending = s.pending := State.wr_pending s f _
@[simp] theorem State.count_fn (f : Fld) (k : Nat) : (s.count f).fn k = s.fn k := State.wr_fn s f _ k

/-! ## `at` -/

@[simp] theorem State.at_regs (t : Nat) : (s.at t).regs = s.regs := rfl
@[simp] theorem State.at_latch (t : Nat) : (s.at t).latch = s.latch := rfl
@[simp] theorem State.at_replies (t : Nat) : (s.at t).replies = s.replies := rfl
@[simp] theorem State.at_cqes (t : Nat) : (s.at t).cqes = s.cqes := rfl
@[simp] theorem State.at_fns (t : Nat) : (s.at t).fns = s.fns := rfl
@[simp] theorem State.at_rr (t : Nat) : (s.at t).rr = s.rr := rfl
@[simp] theorem State.at_nss (t : Nat) : (s.at t).nss = s.nss := rfl
@[simp] theorem State.at_zones (t : Nat) : (s.at t).zones = s.zones := rfl
@[simp] theorem State.at_clutches (t : Nat) : (s.at t).clutches = s.clutches := rfl
@[simp] theorem State.at_kept (t : Nat) : (s.at t).kept = s.kept := rfl
@[simp] theorem State.at_landing (t : Nat) : (s.at t).landing = s.landing := rfl
@[simp] theorem State.at_cmds (t : Nat) : (s.at t).cmds = s.cmds := rfl
@[simp] theorem State.at_efts (t : Nat) : (s.at t).efts = s.efts := rfl
@[simp] theorem State.at_xlt (t : Nat) : (s.at t).xlt = s.xlt := rfl
@[simp] theorem State.at_evr (t : Nat) : (s.at t).evr = s.evr := rfl
@[simp] theorem State.at_hlt (t : Nat) : (s.at t).hlt = s.hlt := rfl
@[simp] theorem State.at_quiesce (t : Nat) : (s.at t).quiesce = s.quiesce := rfl
@[simp] theorem State.at_med (t : Nat) : (s.at t).med = s.med := rfl
@[simp] theorem State.at_cho (t : Nat) : (s.at t).cho = s.cho := rfl
@[simp] theorem State.at_dzl (t : Nat) : (s.at t).dzl = s.dzl := rfl
@[simp] theorem State.at_sec (t : Nat) : (s.at t).sec = s.sec := rfl
@[simp] theorem State.at_boot (t : Nat) : (s.at t).boot = s.boot := rfl
@[simp] theorem State.at_pwr (t : Nat) : (s.at t).pwr = s.pwr := rfl
@[simp] theorem State.at_dram (t : Nat) : (s.at t).dram = s.dram := rfl
@[simp] theorem State.at_snc (t : Nat) : (s.at t).snc = s.snc := rfl
@[simp] theorem State.at_pins (t : Nat) : (s.at t).pins = s.pins := rfl
@[simp] theorem State.at_freeIx (t : Nat) : (s.at t).freeIx = s.freeIx := rfl
@[simp] theorem State.at_pending (t : Nat) : (s.at t).pending = s.pending := rfl
@[simp] theorem State.at_rd (t : Nat) (r : Fld) : (s.at t).rd r = s.rd r := rfl
@[simp] theorem State.at_word (t : Nat) (a : Nat) : (s.at t).word a = s.word a := rfl
@[simp] theorem State.at_fn (t : Nat) (k : Nat) : (s.at t).fn k = s.fn k := rfl
@[simp] theorem State.at_mode (t : Nat)  : (s.at t).mode = s.mode := rfl
@[simp] theorem State.at_asleep (t : Nat)  : (s.at t).asleep = s.asleep := rfl
@[simp] theorem State.at_flag (t : Nat) (r : Fld) : (s.at t).flag r = s.flag r := rfl

/-! ## `free` -/

@[simp] theorem State.free_now (b : Nat) : ((s.free b).2).now = s.now := rfl
@[simp] theorem State.free_regs (b : Nat) : ((s.free b).2).regs = s.regs := rfl
@[simp] theorem State.free_latch (b : Nat) : ((s.free b).2).latch = s.latch := rfl
@[simp] theorem State.free_replies (b : Nat) : ((s.free b).2).replies = s.replies := rfl
@[simp] theorem State.free_cqes (b : Nat) : ((s.free b).2).cqes = s.cqes := rfl
@[simp] theorem State.free_fns (b : Nat) : ((s.free b).2).fns = s.fns := rfl
@[simp] theorem State.free_rr (b : Nat) : ((s.free b).2).rr = s.rr := rfl
@[simp] theorem State.free_nss (b : Nat) : ((s.free b).2).nss = s.nss := rfl
@[simp] theorem State.free_zones (b : Nat) : ((s.free b).2).zones = s.zones := rfl
@[simp] theorem State.free_clutches (b : Nat) : ((s.free b).2).clutches = s.clutches := rfl
@[simp] theorem State.free_kept (b : Nat) : ((s.free b).2).kept = s.kept := rfl
@[simp] theorem State.free_landing (b : Nat) : ((s.free b).2).landing = s.landing := rfl
@[simp] theorem State.free_cmds (b : Nat) : ((s.free b).2).cmds = s.cmds := rfl
@[simp] theorem State.free_efts (b : Nat) : ((s.free b).2).efts = s.efts := rfl
@[simp] theorem State.free_xlt (b : Nat) : ((s.free b).2).xlt = s.xlt := rfl
@[simp] theorem State.free_evr (b : Nat) : ((s.free b).2).evr = s.evr := rfl
@[simp] theorem State.free_hlt (b : Nat) : ((s.free b).2).hlt = s.hlt := rfl
@[simp] theorem State.free_quiesce (b : Nat) : ((s.free b).2).quiesce = s.quiesce := rfl
@[simp] theorem State.free_med (b : Nat) : ((s.free b).2).med = s.med := rfl
@[simp] theorem State.free_cho (b : Nat) : ((s.free b).2).cho = s.cho := rfl
@[simp] theorem State.free_dzl (b : Nat) : ((s.free b).2).dzl = s.dzl := rfl
@[simp] theorem State.free_sec (b : Nat) : ((s.free b).2).sec = s.sec := rfl
@[simp] theorem State.free_boot (b : Nat) : ((s.free b).2).boot = s.boot := rfl
@[simp] theorem State.free_pwr (b : Nat) : ((s.free b).2).pwr = s.pwr := rfl
@[simp] theorem State.free_dram (b : Nat) : ((s.free b).2).dram = s.dram := rfl
@[simp] theorem State.free_snc (b : Nat) : ((s.free b).2).snc = s.snc := rfl
@[simp] theorem State.free_pins (b : Nat) : ((s.free b).2).pins = s.pins := rfl
@[simp] theorem State.free_pending (b : Nat) : ((s.free b).2).pending = s.pending := rfl
@[simp] theorem State.free_rd (b : Nat) (r : Fld) : ((s.free b).2).rd r = s.rd r := rfl
@[simp] theorem State.free_word (b : Nat) (a : Nat) : ((s.free b).2).word a = s.word a := rfl
@[simp] theorem State.free_fn (b : Nat) (k : Nat) : ((s.free b).2).fn k = s.fn k := rfl
@[simp] theorem State.free_mode (b : Nat)  : ((s.free b).2).mode = s.mode := rfl
@[simp] theorem State.free_asleep (b : Nat)  : ((s.free b).2).asleep = s.asleep := rfl
@[simp] theorem State.free_flag (b : Nat) (r : Fld) : ((s.free b).2).flag r = s.flag r := rfl

/-! ## `setFn` -/

@[simp] theorem State.setFn_now (n : Nat) (f : Fn) : (s.setFn n f).now = s.now := rfl
@[simp] theorem State.setFn_regs (n : Nat) (f : Fn) : (s.setFn n f).regs = s.regs := rfl
@[simp] theorem State.setFn_latch (n : Nat) (f : Fn) : (s.setFn n f).latch = s.latch := rfl
@[simp] theorem State.setFn_replies (n : Nat) (f : Fn) : (s.setFn n f).replies = s.replies := rfl
@[simp] theorem State.setFn_cqes (n : Nat) (f : Fn) : (s.setFn n f).cqes = s.cqes := rfl
@[simp] theorem State.setFn_rr (n : Nat) (f : Fn) : (s.setFn n f).rr = s.rr := rfl
@[simp] theorem State.setFn_nss (n : Nat) (f : Fn) : (s.setFn n f).nss = s.nss := rfl
@[simp] theorem State.setFn_zones (n : Nat) (f : Fn) : (s.setFn n f).zones = s.zones := rfl
@[simp] theorem State.setFn_clutches (n : Nat) (f : Fn) : (s.setFn n f).clutches = s.clutches := rfl
@[simp] theorem State.setFn_kept (n : Nat) (f : Fn) : (s.setFn n f).kept = s.kept := rfl
@[simp] theorem State.setFn_landing (n : Nat) (f : Fn) : (s.setFn n f).landing = s.landing := rfl
@[simp] theorem State.setFn_cmds (n : Nat) (f : Fn) : (s.setFn n f).cmds = s.cmds := rfl
@[simp] theorem State.setFn_efts (n : Nat) (f : Fn) : (s.setFn n f).efts = s.efts := rfl
@[simp] theorem State.setFn_xlt (n : Nat) (f : Fn) : (s.setFn n f).xlt = s.xlt := rfl
@[simp] theorem State.setFn_evr (n : Nat) (f : Fn) : (s.setFn n f).evr = s.evr := rfl
@[simp] theorem State.setFn_hlt (n : Nat) (f : Fn) : (s.setFn n f).hlt = s.hlt := rfl
@[simp] theorem State.setFn_quiesce (n : Nat) (f : Fn) : (s.setFn n f).quiesce = s.quiesce := rfl
@[simp] theorem State.setFn_med (n : Nat) (f : Fn) : (s.setFn n f).med = s.med := rfl
@[simp] theorem State.setFn_cho (n : Nat) (f : Fn) : (s.setFn n f).cho = s.cho := rfl
@[simp] theorem State.setFn_dzl (n : Nat) (f : Fn) : (s.setFn n f).dzl = s.dzl := rfl
@[simp] theorem State.setFn_sec (n : Nat) (f : Fn) : (s.setFn n f).sec = s.sec := rfl
@[simp] theorem State.setFn_boot (n : Nat) (f : Fn) : (s.setFn n f).boot = s.boot := rfl
@[simp] theorem State.setFn_pwr (n : Nat) (f : Fn) : (s.setFn n f).pwr = s.pwr := rfl
@[simp] theorem State.setFn_dram (n : Nat) (f : Fn) : (s.setFn n f).dram = s.dram := rfl
@[simp] theorem State.setFn_snc (n : Nat) (f : Fn) : (s.setFn n f).snc = s.snc := rfl
@[simp] theorem State.setFn_pins (n : Nat) (f : Fn) : (s.setFn n f).pins = s.pins := rfl
@[simp] theorem State.setFn_freeIx (n : Nat) (f : Fn) : (s.setFn n f).freeIx = s.freeIx := rfl
@[simp] theorem State.setFn_pending (n : Nat) (f : Fn) : (s.setFn n f).pending = s.pending := rfl
@[simp] theorem State.setFn_rd (n : Nat) (f : Fn) (r : Fld) : (s.setFn n f).rd r = s.rd r := rfl
@[simp] theorem State.setFn_word (n : Nat) (f : Fn) (a : Nat) : (s.setFn n f).word a = s.word a := rfl
@[simp] theorem State.setFn_mode (n : Nat) (f : Fn)  : (s.setFn n f).mode = s.mode := rfl
@[simp] theorem State.setFn_asleep (n : Nat) (f : Fn)  : (s.setFn n f).asleep = s.asleep := rfl
@[simp] theorem State.setFn_flag (n : Nat) (f : Fn) (r : Fld) : (s.setFn n f).flag r = s.flag r := rfl

/-! ## `modFn` -/

@[simp] theorem State.modFn_now (n : Nat) (g : Fn → Fn) : (s.modFn n g).now = s.now := rfl
@[simp] theorem State.modFn_regs (n : Nat) (g : Fn → Fn) : (s.modFn n g).regs = s.regs := rfl
@[simp] theorem State.modFn_latch (n : Nat) (g : Fn → Fn) : (s.modFn n g).latch = s.latch := rfl
@[simp] theorem State.modFn_replies (n : Nat) (g : Fn → Fn) : (s.modFn n g).replies = s.replies := rfl
@[simp] theorem State.modFn_cqes (n : Nat) (g : Fn → Fn) : (s.modFn n g).cqes = s.cqes := rfl
@[simp] theorem State.modFn_rr (n : Nat) (g : Fn → Fn) : (s.modFn n g).rr = s.rr := rfl
@[simp] theorem State.modFn_nss (n : Nat) (g : Fn → Fn) : (s.modFn n g).nss = s.nss := rfl
@[simp] theorem State.modFn_zones (n : Nat) (g : Fn → Fn) : (s.modFn n g).zones = s.zones := rfl
@[simp] theorem State.modFn_clutches (n : Nat) (g : Fn → Fn) : (s.modFn n g).clutches = s.clutches := rfl
@[simp] theorem State.modFn_kept (n : Nat) (g : Fn → Fn) : (s.modFn n g).kept = s.kept := rfl
@[simp] theorem State.modFn_landing (n : Nat) (g : Fn → Fn) : (s.modFn n g).landing = s.landing := rfl
@[simp] theorem State.modFn_cmds (n : Nat) (g : Fn → Fn) : (s.modFn n g).cmds = s.cmds := rfl
@[simp] theorem State.modFn_efts (n : Nat) (g : Fn → Fn) : (s.modFn n g).efts = s.efts := rfl
@[simp] theorem State.modFn_xlt (n : Nat) (g : Fn → Fn) : (s.modFn n g).xlt = s.xlt := rfl
@[simp] theorem State.modFn_evr (n : Nat) (g : Fn → Fn) : (s.modFn n g).evr = s.evr := rfl
@[simp] theorem State.modFn_hlt (n : Nat) (g : Fn → Fn) : (s.modFn n g).hlt = s.hlt := rfl
@[simp] theorem State.modFn_quiesce (n : Nat) (g : Fn → Fn) : (s.modFn n g).quiesce = s.quiesce := rfl
@[simp] theorem State.modFn_med (n : Nat) (g : Fn → Fn) : (s.modFn n g).med = s.med := rfl
@[simp] theorem State.modFn_cho (n : Nat) (g : Fn → Fn) : (s.modFn n g).cho = s.cho := rfl
@[simp] theorem State.modFn_dzl (n : Nat) (g : Fn → Fn) : (s.modFn n g).dzl = s.dzl := rfl
@[simp] theorem State.modFn_sec (n : Nat) (g : Fn → Fn) : (s.modFn n g).sec = s.sec := rfl
@[simp] theorem State.modFn_boot (n : Nat) (g : Fn → Fn) : (s.modFn n g).boot = s.boot := rfl
@[simp] theorem State.modFn_pwr (n : Nat) (g : Fn → Fn) : (s.modFn n g).pwr = s.pwr := rfl
@[simp] theorem State.modFn_dram (n : Nat) (g : Fn → Fn) : (s.modFn n g).dram = s.dram := rfl
@[simp] theorem State.modFn_snc (n : Nat) (g : Fn → Fn) : (s.modFn n g).snc = s.snc := rfl
@[simp] theorem State.modFn_pins (n : Nat) (g : Fn → Fn) : (s.modFn n g).pins = s.pins := rfl
@[simp] theorem State.modFn_freeIx (n : Nat) (g : Fn → Fn) : (s.modFn n g).freeIx = s.freeIx := rfl
@[simp] theorem State.modFn_pending (n : Nat) (g : Fn → Fn) : (s.modFn n g).pending = s.pending := rfl
@[simp] theorem State.modFn_rd (n : Nat) (g : Fn → Fn) (r : Fld) : (s.modFn n g).rd r = s.rd r := rfl
@[simp] theorem State.modFn_word (n : Nat) (g : Fn → Fn) (a : Nat) : (s.modFn n g).word a = s.word a := rfl
@[simp] theorem State.modFn_mode (n : Nat) (g : Fn → Fn)  : (s.modFn n g).mode = s.mode := rfl
@[simp] theorem State.modFn_asleep (n : Nat) (g : Fn → Fn)  : (s.modFn n g).asleep = s.asleep := rfl
@[simp] theorem State.modFn_flag (n : Nat) (g : Fn → Fn) (r : Fld) : (s.modFn n g).flag r = s.flag r := rfl

/-! ## `modSq` -/

@[simp] theorem State.modSq_now (n q : Nat) (g : Sq → Sq) : (s.modSq n q g).now = s.now := rfl
@[simp] theorem State.modSq_regs (n q : Nat) (g : Sq → Sq) : (s.modSq n q g).regs = s.regs := rfl
@[simp] theorem State.modSq_latch (n q : Nat) (g : Sq → Sq) : (s.modSq n q g).latch = s.latch := rfl
@[simp] theorem State.modSq_replies (n q : Nat) (g : Sq → Sq) : (s.modSq n q g).replies = s.replies := rfl
@[simp] theorem State.modSq_cqes (n q : Nat) (g : Sq → Sq) : (s.modSq n q g).cqes = s.cqes := rfl
@[simp] theorem State.modSq_rr (n q : Nat) (g : Sq → Sq) : (s.modSq n q g).rr = s.rr := rfl
@[simp] theorem State.modSq_nss (n q : Nat) (g : Sq → Sq) : (s.modSq n q g).nss = s.nss := rfl
@[simp] theorem State.modSq_zones (n q : Nat) (g : Sq → Sq) : (s.modSq n q g).zones = s.zones := rfl
@[simp] theorem State.modSq_clutches (n q : Nat) (g : Sq → Sq) : (s.modSq n q g).clutches = s.clutches := rfl
@[simp] theorem State.modSq_kept (n q : Nat) (g : Sq → Sq) : (s.modSq n q g).kept = s.kept := rfl
@[simp] theorem State.modSq_landing (n q : Nat) (g : Sq → Sq) : (s.modSq n q g).landing = s.landing := rfl
@[simp] theorem State.modSq_cmds (n q : Nat) (g : Sq → Sq) : (s.modSq n q g).cmds = s.cmds := rfl
@[simp] theorem State.modSq_efts (n q : Nat) (g : Sq → Sq) : (s.modSq n q g).efts = s.efts := rfl
@[simp] theorem State.modSq_xlt (n q : Nat) (g : Sq → Sq) : (s.modSq n q g).xlt = s.xlt := rfl
@[simp] theorem State.modSq_evr (n q : Nat) (g : Sq → Sq) : (s.modSq n q g).evr = s.evr := rfl
@[simp] theorem State.modSq_hlt (n q : Nat) (g : Sq → Sq) : (s.modSq n q g).hlt = s.hlt := rfl
@[simp] theorem State.modSq_quiesce (n q : Nat) (g : Sq → Sq) : (s.modSq n q g).quiesce = s.quiesce := rfl
@[simp] theorem State.modSq_med (n q : Nat) (g : Sq → Sq) : (s.modSq n q g).med = s.med := rfl
@[simp] theorem State.modSq_cho (n q : Nat) (g : Sq → Sq) : (s.modSq n q g).cho = s.cho := rfl
@[simp] theorem State.modSq_dzl (n q : Nat) (g : Sq → Sq) : (s.modSq n q g).dzl = s.dzl := rfl
@[simp] theorem State.modSq_sec (n q : Nat) (g : Sq → Sq) : (s.modSq n q g).sec = s.sec := rfl
@[simp] theorem State.modSq_boot (n q : Nat) (g : Sq → Sq) : (s.modSq n q g).boot = s.boot := rfl
@[simp] theorem State.modSq_pwr (n q : Nat) (g : Sq → Sq) : (s.modSq n q g).pwr = s.pwr := rfl
@[simp] theorem State.modSq_dram (n q : Nat) (g : Sq → Sq) : (s.modSq n q g).dram = s.dram := rfl
@[simp] theorem State.modSq_snc (n q : Nat) (g : Sq → Sq) : (s.modSq n q g).snc = s.snc := rfl
@[simp] theorem State.modSq_pins (n q : Nat) (g : Sq → Sq) : (s.modSq n q g).pins = s.pins := rfl
@[simp] theorem State.modSq_freeIx (n q : Nat) (g : Sq → Sq) : (s.modSq n q g).freeIx = s.freeIx := rfl
@[simp] theorem State.modSq_pending (n q : Nat) (g : Sq → Sq) : (s.modSq n q g).pending = s.pending := rfl
@[simp] theorem State.modSq_rd (n q : Nat) (g : Sq → Sq) (r : Fld) : (s.modSq n q g).rd r = s.rd r := rfl
@[simp] theorem State.modSq_word (n q : Nat) (g : Sq → Sq) (a : Nat) : (s.modSq n q g).word a = s.word a := rfl
@[simp] theorem State.modSq_mode (n q : Nat) (g : Sq → Sq)  : (s.modSq n q g).mode = s.mode := rfl
@[simp] theorem State.modSq_asleep (n q : Nat) (g : Sq → Sq)  : (s.modSq n q g).asleep = s.asleep := rfl
@[simp] theorem State.modSq_flag (n q : Nat) (g : Sq → Sq) (r : Fld) : (s.modSq n q g).flag r = s.flag r := rfl

/-! ## `modNs` -/

@[simp] theorem State.modNs_now (n : Nat) (g : Ns → Ns) : (s.modNs n g).now = s.now := rfl
@[simp] theorem State.modNs_regs (n : Nat) (g : Ns → Ns) : (s.modNs n g).regs = s.regs := rfl
@[simp] theorem State.modNs_latch (n : Nat) (g : Ns → Ns) : (s.modNs n g).latch = s.latch := rfl
@[simp] theorem State.modNs_replies (n : Nat) (g : Ns → Ns) : (s.modNs n g).replies = s.replies := rfl
@[simp] theorem State.modNs_cqes (n : Nat) (g : Ns → Ns) : (s.modNs n g).cqes = s.cqes := rfl
@[simp] theorem State.modNs_fns (n : Nat) (g : Ns → Ns) : (s.modNs n g).fns = s.fns := rfl
@[simp] theorem State.modNs_rr (n : Nat) (g : Ns → Ns) : (s.modNs n g).rr = s.rr := rfl
@[simp] theorem State.modNs_zones (n : Nat) (g : Ns → Ns) : (s.modNs n g).zones = s.zones := rfl
@[simp] theorem State.modNs_clutches (n : Nat) (g : Ns → Ns) : (s.modNs n g).clutches = s.clutches := rfl
@[simp] theorem State.modNs_kept (n : Nat) (g : Ns → Ns) : (s.modNs n g).kept = s.kept := rfl
@[simp] theorem State.modNs_landing (n : Nat) (g : Ns → Ns) : (s.modNs n g).landing = s.landing := rfl
@[simp] theorem State.modNs_cmds (n : Nat) (g : Ns → Ns) : (s.modNs n g).cmds = s.cmds := rfl
@[simp] theorem State.modNs_efts (n : Nat) (g : Ns → Ns) : (s.modNs n g).efts = s.efts := rfl
@[simp] theorem State.modNs_xlt (n : Nat) (g : Ns → Ns) : (s.modNs n g).xlt = s.xlt := rfl
@[simp] theorem State.modNs_evr (n : Nat) (g : Ns → Ns) : (s.modNs n g).evr = s.evr := rfl
@[simp] theorem State.modNs_hlt (n : Nat) (g : Ns → Ns) : (s.modNs n g).hlt = s.hlt := rfl
@[simp] theorem State.modNs_quiesce (n : Nat) (g : Ns → Ns) : (s.modNs n g).quiesce = s.quiesce := rfl
@[simp] theorem State.modNs_med (n : Nat) (g : Ns → Ns) : (s.modNs n g).med = s.med := rfl
@[simp] theorem State.modNs_cho (n : Nat) (g : Ns → Ns) : (s.modNs n g).cho = s.cho := rfl
@[simp] theorem State.modNs_dzl (n : Nat) (g : Ns → Ns) : (s.modNs n g).dzl = s.dzl := rfl
@[simp] theorem State.modNs_sec (n : Nat) (g : Ns → Ns) : (s.modNs n g).sec = s.sec := rfl
@[simp] theorem State.modNs_boot (n : Nat) (g : Ns → Ns) : (s.modNs n g).boot = s.boot := rfl
@[simp] theorem State.modNs_pwr (n : Nat) (g : Ns → Ns) : (s.modNs n g).pwr = s.pwr := rfl
@[simp] theorem State.modNs_dram (n : Nat) (g : Ns → Ns) : (s.modNs n g).dram = s.dram := rfl
@[simp] theorem State.modNs_snc (n : Nat) (g : Ns → Ns) : (s.modNs n g).snc = s.snc := rfl
@[simp] theorem State.modNs_pins (n : Nat) (g : Ns → Ns) : (s.modNs n g).pins = s.pins := rfl
@[simp] theorem State.modNs_freeIx (n : Nat) (g : Ns → Ns) : (s.modNs n g).freeIx = s.freeIx := rfl
@[simp] theorem State.modNs_pending (n : Nat) (g : Ns → Ns) : (s.modNs n g).pending = s.pending := rfl
@[simp] theorem State.modNs_rd (n : Nat) (g : Ns → Ns) (r : Fld) : (s.modNs n g).rd r = s.rd r := rfl
@[simp] theorem State.modNs_word (n : Nat) (g : Ns → Ns) (a : Nat) : (s.modNs n g).word a = s.word a := rfl
@[simp] theorem State.modNs_fn (n : Nat) (g : Ns → Ns) (k : Nat) : (s.modNs n g).fn k = s.fn k := rfl
@[simp] theorem State.modNs_mode (n : Nat) (g : Ns → Ns)  : (s.modNs n g).mode = s.mode := rfl
@[simp] theorem State.modNs_asleep (n : Nat) (g : Ns → Ns)  : (s.modNs n g).asleep = s.asleep := rfl
@[simp] theorem State.modNs_flag (n : Nat) (g : Ns → Ns) (r : Fld) : (s.modNs n g).flag r = s.flag r := rfl

/-! ## `setZone` -/

@[simp] theorem State.setZone_now (n z : Nat) (w : Zone) : (s.setZone n z w).now = s.now := rfl
@[simp] theorem State.setZone_regs (n z : Nat) (w : Zone) : (s.setZone n z w).regs = s.regs := rfl
@[simp] theorem State.setZone_latch (n z : Nat) (w : Zone) : (s.setZone n z w).latch = s.latch := rfl
@[simp] theorem State.setZone_replies (n z : Nat) (w : Zone) : (s.setZone n z w).replies = s.replies := rfl
@[simp] theorem State.setZone_cqes (n z : Nat) (w : Zone) : (s.setZone n z w).cqes = s.cqes := rfl
@[simp] theorem State.setZone_fns (n z : Nat) (w : Zone) : (s.setZone n z w).fns = s.fns := rfl
@[simp] theorem State.setZone_rr (n z : Nat) (w : Zone) : (s.setZone n z w).rr = s.rr := rfl
@[simp] theorem State.setZone_nss (n z : Nat) (w : Zone) : (s.setZone n z w).nss = s.nss := rfl
@[simp] theorem State.setZone_clutches (n z : Nat) (w : Zone) : (s.setZone n z w).clutches = s.clutches := rfl
@[simp] theorem State.setZone_kept (n z : Nat) (w : Zone) : (s.setZone n z w).kept = s.kept := rfl
@[simp] theorem State.setZone_landing (n z : Nat) (w : Zone) : (s.setZone n z w).landing = s.landing := rfl
@[simp] theorem State.setZone_cmds (n z : Nat) (w : Zone) : (s.setZone n z w).cmds = s.cmds := rfl
@[simp] theorem State.setZone_efts (n z : Nat) (w : Zone) : (s.setZone n z w).efts = s.efts := rfl
@[simp] theorem State.setZone_xlt (n z : Nat) (w : Zone) : (s.setZone n z w).xlt = s.xlt := rfl
@[simp] theorem State.setZone_evr (n z : Nat) (w : Zone) : (s.setZone n z w).evr = s.evr := rfl
@[simp] theorem State.setZone_hlt (n z : Nat) (w : Zone) : (s.setZone n z w).hlt = s.hlt := rfl
@[simp] theorem State.setZone_quiesce (n z : Nat) (w : Zone) : (s.setZone n z w).quiesce = s.quiesce := rfl
@[simp] theorem State.setZone_med (n z : Nat) (w : Zone) : (s.setZone n z w).med = s.med := rfl
@[simp] theorem State.setZone_cho (n z : Nat) (w : Zone) : (s.setZone n z w).cho = s.cho := rfl
@[simp] theorem State.setZone_dzl (n z : Nat) (w : Zone) : (s.setZone n z w).dzl = s.dzl := rfl
@[simp] theorem State.setZone_sec (n z : Nat) (w : Zone) : (s.setZone n z w).sec = s.sec := rfl
@[simp] theorem State.setZone_boot (n z : Nat) (w : Zone) : (s.setZone n z w).boot = s.boot := rfl
@[simp] theorem State.setZone_pwr (n z : Nat) (w : Zone) : (s.setZone n z w).pwr = s.pwr := rfl
@[simp] theorem State.setZone_dram (n z : Nat) (w : Zone) : (s.setZone n z w).dram = s.dram := rfl
@[simp] theorem State.setZone_snc (n z : Nat) (w : Zone) : (s.setZone n z w).snc = s.snc := rfl
@[simp] theorem State.setZone_pins (n z : Nat) (w : Zone) : (s.setZone n z w).pins = s.pins := rfl
@[simp] theorem State.setZone_freeIx (n z : Nat) (w : Zone) : (s.setZone n z w).freeIx = s.freeIx := rfl
@[simp] theorem State.setZone_pending (n z : Nat) (w : Zone) : (s.setZone n z w).pending = s.pending := rfl
@[simp] theorem State.setZone_rd (n z : Nat) (w : Zone) (r : Fld) : (s.setZone n z w).rd r = s.rd r := rfl
@[simp] theorem State.setZone_word (n z : Nat) (w : Zone) (a : Nat) : (s.setZone n z w).word a = s.word a := rfl
@[simp] theorem State.setZone_fn (n z : Nat) (w : Zone) (k : Nat) : (s.setZone n z w).fn k = s.fn k := rfl
@[simp] theorem State.setZone_mode (n z : Nat) (w : Zone)  : (s.setZone n z w).mode = s.mode := rfl
@[simp] theorem State.setZone_asleep (n z : Nat) (w : Zone)  : (s.setZone n z w).asleep = s.asleep := rfl
@[simp] theorem State.setZone_flag (n z : Nat) (w : Zone) (r : Fld) : (s.setZone n z w).flag r = s.flag r := rfl

/-! ## `modCmd` -/

@[simp] theorem State.modCmd_now (t : Nat) (g : Cmd → Cmd) : (s.modCmd t g).now = s.now := rfl
@[simp] theorem State.modCmd_regs (t : Nat) (g : Cmd → Cmd) : (s.modCmd t g).regs = s.regs := rfl
@[simp] theorem State.modCmd_latch (t : Nat) (g : Cmd → Cmd) : (s.modCmd t g).latch = s.latch := rfl
@[simp] theorem State.modCmd_replies (t : Nat) (g : Cmd → Cmd) : (s.modCmd t g).replies = s.replies := rfl
@[simp] theorem State.modCmd_cqes (t : Nat) (g : Cmd → Cmd) : (s.modCmd t g).cqes = s.cqes := rfl
@[simp] theorem State.modCmd_fns (t : Nat) (g : Cmd → Cmd) : (s.modCmd t g).fns = s.fns := rfl
@[simp] theorem State.modCmd_rr (t : Nat) (g : Cmd → Cmd) : (s.modCmd t g).rr = s.rr := rfl
@[simp] theorem State.modCmd_nss (t : Nat) (g : Cmd → Cmd) : (s.modCmd t g).nss = s.nss := rfl
@[simp] theorem State.modCmd_zones (t : Nat) (g : Cmd → Cmd) : (s.modCmd t g).zones = s.zones := rfl
@[simp] theorem State.modCmd_clutches (t : Nat) (g : Cmd → Cmd) : (s.modCmd t g).clutches = s.clutches := rfl
@[simp] theorem State.modCmd_kept (t : Nat) (g : Cmd → Cmd) : (s.modCmd t g).kept = s.kept := rfl
@[simp] theorem State.modCmd_landing (t : Nat) (g : Cmd → Cmd) : (s.modCmd t g).landing = s.landing := rfl
@[simp] theorem State.modCmd_efts (t : Nat) (g : Cmd → Cmd) : (s.modCmd t g).efts = s.efts := rfl
@[simp] theorem State.modCmd_xlt (t : Nat) (g : Cmd → Cmd) : (s.modCmd t g).xlt = s.xlt := rfl
@[simp] theorem State.modCmd_evr (t : Nat) (g : Cmd → Cmd) : (s.modCmd t g).evr = s.evr := rfl
@[simp] theorem State.modCmd_hlt (t : Nat) (g : Cmd → Cmd) : (s.modCmd t g).hlt = s.hlt := rfl
@[simp] theorem State.modCmd_quiesce (t : Nat) (g : Cmd → Cmd) : (s.modCmd t g).quiesce = s.quiesce := rfl
@[simp] theorem State.modCmd_med (t : Nat) (g : Cmd → Cmd) : (s.modCmd t g).med = s.med := rfl
@[simp] theorem State.modCmd_cho (t : Nat) (g : Cmd → Cmd) : (s.modCmd t g).cho = s.cho := rfl
@[simp] theorem State.modCmd_dzl (t : Nat) (g : Cmd → Cmd) : (s.modCmd t g).dzl = s.dzl := rfl
@[simp] theorem State.modCmd_sec (t : Nat) (g : Cmd → Cmd) : (s.modCmd t g).sec = s.sec := rfl
@[simp] theorem State.modCmd_boot (t : Nat) (g : Cmd → Cmd) : (s.modCmd t g).boot = s.boot := rfl
@[simp] theorem State.modCmd_pwr (t : Nat) (g : Cmd → Cmd) : (s.modCmd t g).pwr = s.pwr := rfl
@[simp] theorem State.modCmd_dram (t : Nat) (g : Cmd → Cmd) : (s.modCmd t g).dram = s.dram := rfl
@[simp] theorem State.modCmd_snc (t : Nat) (g : Cmd → Cmd) : (s.modCmd t g).snc = s.snc := rfl
@[simp] theorem State.modCmd_pins (t : Nat) (g : Cmd → Cmd) : (s.modCmd t g).pins = s.pins := rfl
@[simp] theorem State.modCmd_freeIx (t : Nat) (g : Cmd → Cmd) : (s.modCmd t g).freeIx = s.freeIx := rfl
@[simp] theorem State.modCmd_pending (t : Nat) (g : Cmd → Cmd) : (s.modCmd t g).pending = s.pending := rfl
@[simp] theorem State.modCmd_rd (t : Nat) (g : Cmd → Cmd) (r : Fld) : (s.modCmd t g).rd r = s.rd r := rfl
@[simp] theorem State.modCmd_word (t : Nat) (g : Cmd → Cmd) (a : Nat) : (s.modCmd t g).word a = s.word a := rfl
@[simp] theorem State.modCmd_fn (t : Nat) (g : Cmd → Cmd) (k : Nat) : (s.modCmd t g).fn k = s.fn k := rfl
@[simp] theorem State.modCmd_mode (t : Nat) (g : Cmd → Cmd)  : (s.modCmd t g).mode = s.mode := rfl
@[simp] theorem State.modCmd_asleep (t : Nat) (g : Cmd → Cmd)  : (s.modCmd t g).asleep = s.asleep := rfl
@[simp] theorem State.modCmd_flag (t : Nat) (g : Cmd → Cmd) (r : Fld) : (s.modCmd t g).flag r = s.flag r := rfl

/-! ## `dropCmd` -/

@[simp] theorem State.dropCmd_now (t : Nat) : (s.dropCmd t).now = s.now := rfl
@[simp] theorem State.dropCmd_regs (t : Nat) : (s.dropCmd t).regs = s.regs := rfl
@[simp] theorem State.dropCmd_latch (t : Nat) : (s.dropCmd t).latch = s.latch := rfl
@[simp] theorem State.dropCmd_replies (t : Nat) : (s.dropCmd t).replies = s.replies := rfl
@[simp] theorem State.dropCmd_cqes (t : Nat) : (s.dropCmd t).cqes = s.cqes := rfl
@[simp] theorem State.dropCmd_fns (t : Nat) : (s.dropCmd t).fns = s.fns := rfl
@[simp] theorem State.dropCmd_rr (t : Nat) : (s.dropCmd t).rr = s.rr := rfl
@[simp] theorem State.dropCmd_nss (t : Nat) : (s.dropCmd t).nss = s.nss := rfl
@[simp] theorem State.dropCmd_zones (t : Nat) : (s.dropCmd t).zones = s.zones := rfl
@[simp] theorem State.dropCmd_clutches (t : Nat) : (s.dropCmd t).clutches = s.clutches := rfl
@[simp] theorem State.dropCmd_efts (t : Nat) : (s.dropCmd t).efts = s.efts := rfl
@[simp] theorem State.dropCmd_xlt (t : Nat) : (s.dropCmd t).xlt = s.xlt := rfl
@[simp] theorem State.dropCmd_evr (t : Nat) : (s.dropCmd t).evr = s.evr := rfl
@[simp] theorem State.dropCmd_hlt (t : Nat) : (s.dropCmd t).hlt = s.hlt := rfl
@[simp] theorem State.dropCmd_quiesce (t : Nat) : (s.dropCmd t).quiesce = s.quiesce := rfl
@[simp] theorem State.dropCmd_med (t : Nat) : (s.dropCmd t).med = s.med := rfl
@[simp] theorem State.dropCmd_cho (t : Nat) : (s.dropCmd t).cho = s.cho := rfl
@[simp] theorem State.dropCmd_dzl (t : Nat) : (s.dropCmd t).dzl = s.dzl := rfl
@[simp] theorem State.dropCmd_sec (t : Nat) : (s.dropCmd t).sec = s.sec := rfl
@[simp] theorem State.dropCmd_boot (t : Nat) : (s.dropCmd t).boot = s.boot := rfl
@[simp] theorem State.dropCmd_pwr (t : Nat) : (s.dropCmd t).pwr = s.pwr := rfl
@[simp] theorem State.dropCmd_dram (t : Nat) : (s.dropCmd t).dram = s.dram := rfl
@[simp] theorem State.dropCmd_snc (t : Nat) : (s.dropCmd t).snc = s.snc := rfl
@[simp] theorem State.dropCmd_pins (t : Nat) : (s.dropCmd t).pins = s.pins := rfl
@[simp] theorem State.dropCmd_freeIx (t : Nat) : (s.dropCmd t).freeIx = s.freeIx := rfl
@[simp] theorem State.dropCmd_pending (t : Nat) : (s.dropCmd t).pending = s.pending := rfl
@[simp] theorem State.dropCmd_rd (t : Nat) (r : Fld) : (s.dropCmd t).rd r = s.rd r := rfl
@[simp] theorem State.dropCmd_word (t : Nat) (a : Nat) : (s.dropCmd t).word a = s.word a := rfl
@[simp] theorem State.dropCmd_fn (t : Nat) (k : Nat) : (s.dropCmd t).fn k = s.fn k := rfl
@[simp] theorem State.dropCmd_mode (t : Nat)  : (s.dropCmd t).mode = s.mode := rfl
@[simp] theorem State.dropCmd_asleep (t : Nat)  : (s.dropCmd t).asleep = s.asleep := rfl
@[simp] theorem State.dropCmd_flag (t : Nat) (r : Fld) : (s.dropCmd t).flag r = s.flag r := rfl

/-! ## `setEft` -/

@[simp] theorem State.setEft_now (p n : Nat) (e : Eft) : (s.setEft p n e).now = s.now := rfl
@[simp] theorem State.setEft_regs (p n : Nat) (e : Eft) : (s.setEft p n e).regs = s.regs := rfl
@[simp] theorem State.setEft_latch (p n : Nat) (e : Eft) : (s.setEft p n e).latch = s.latch := rfl
@[simp] theorem State.setEft_replies (p n : Nat) (e : Eft) : (s.setEft p n e).replies = s.replies := rfl
@[simp] theorem State.setEft_cqes (p n : Nat) (e : Eft) : (s.setEft p n e).cqes = s.cqes := rfl
@[simp] theorem State.setEft_fns (p n : Nat) (e : Eft) : (s.setEft p n e).fns = s.fns := rfl
@[simp] theorem State.setEft_rr (p n : Nat) (e : Eft) : (s.setEft p n e).rr = s.rr := rfl
@[simp] theorem State.setEft_nss (p n : Nat) (e : Eft) : (s.setEft p n e).nss = s.nss := rfl
@[simp] theorem State.setEft_zones (p n : Nat) (e : Eft) : (s.setEft p n e).zones = s.zones := rfl
@[simp] theorem State.setEft_clutches (p n : Nat) (e : Eft) : (s.setEft p n e).clutches = s.clutches := rfl
@[simp] theorem State.setEft_kept (p n : Nat) (e : Eft) : (s.setEft p n e).kept = s.kept := rfl
@[simp] theorem State.setEft_landing (p n : Nat) (e : Eft) : (s.setEft p n e).landing = s.landing := rfl
@[simp] theorem State.setEft_cmds (p n : Nat) (e : Eft) : (s.setEft p n e).cmds = s.cmds := rfl
@[simp] theorem State.setEft_xlt (p n : Nat) (e : Eft) : (s.setEft p n e).xlt = s.xlt := rfl
@[simp] theorem State.setEft_evr (p n : Nat) (e : Eft) : (s.setEft p n e).evr = s.evr := rfl
@[simp] theorem State.setEft_hlt (p n : Nat) (e : Eft) : (s.setEft p n e).hlt = s.hlt := rfl
@[simp] theorem State.setEft_quiesce (p n : Nat) (e : Eft) : (s.setEft p n e).quiesce = s.quiesce := rfl
@[simp] theorem State.setEft_med (p n : Nat) (e : Eft) : (s.setEft p n e).med = s.med := rfl
@[simp] theorem State.setEft_cho (p n : Nat) (e : Eft) : (s.setEft p n e).cho = s.cho := rfl
@[simp] theorem State.setEft_dzl (p n : Nat) (e : Eft) : (s.setEft p n e).dzl = s.dzl := rfl
@[simp] theorem State.setEft_sec (p n : Nat) (e : Eft) : (s.setEft p n e).sec = s.sec := rfl
@[simp] theorem State.setEft_boot (p n : Nat) (e : Eft) : (s.setEft p n e).boot = s.boot := rfl
@[simp] theorem State.setEft_pwr (p n : Nat) (e : Eft) : (s.setEft p n e).pwr = s.pwr := rfl
@[simp] theorem State.setEft_dram (p n : Nat) (e : Eft) : (s.setEft p n e).dram = s.dram := rfl
@[simp] theorem State.setEft_snc (p n : Nat) (e : Eft) : (s.setEft p n e).snc = s.snc := rfl
@[simp] theorem State.setEft_pins (p n : Nat) (e : Eft) : (s.setEft p n e).pins = s.pins := rfl
@[simp] theorem State.setEft_freeIx (p n : Nat) (e : Eft) : (s.setEft p n e).freeIx = s.freeIx := rfl
@[simp] theorem State.setEft_pending (p n : Nat) (e : Eft) : (s.setEft p n e).pending = s.pending := rfl
@[simp] theorem State.setEft_rd (p n : Nat) (e : Eft) (r : Fld) : (s.setEft p n e).rd r = s.rd r := rfl
@[simp] theorem State.setEft_word (p n : Nat) (e : Eft) (a : Nat) : (s.setEft p n e).word a = s.word a := rfl
@[simp] theorem State.setEft_fn (p n : Nat) (e : Eft) (k : Nat) : (s.setEft p n e).fn k = s.fn k := rfl
@[simp] theorem State.setEft_mode (p n : Nat) (e : Eft)  : (s.setEft p n e).mode = s.mode := rfl
@[simp] theorem State.setEft_asleep (p n : Nat) (e : Eft)  : (s.setEft p n e).asleep = s.asleep := rfl
@[simp] theorem State.setEft_flag (p n : Nat) (e : Eft) (r : Fld) : (s.setEft p n e).flag r = s.flag r := rfl

/-! ## `modEft` -/

@[simp] theorem State.modEft_now (p n : Nat) (g : Eft → Eft) : (s.modEft p n g).now = s.now := rfl
@[simp] theorem State.modEft_regs (p n : Nat) (g : Eft → Eft) : (s.modEft p n g).regs = s.regs := rfl
@[simp] theorem State.modEft_latch (p n : Nat) (g : Eft → Eft) : (s.modEft p n g).latch = s.latch := rfl
@[simp] theorem State.modEft_replies (p n : Nat) (g : Eft → Eft) : (s.modEft p n g).replies = s.replies := rfl
@[simp] theorem State.modEft_cqes (p n : Nat) (g : Eft → Eft) : (s.modEft p n g).cqes = s.cqes := rfl
@[simp] theorem State.modEft_fns (p n : Nat) (g : Eft → Eft) : (s.modEft p n g).fns = s.fns := rfl
@[simp] theorem State.modEft_rr (p n : Nat) (g : Eft → Eft) : (s.modEft p n g).rr = s.rr := rfl
@[simp] theorem State.modEft_nss (p n : Nat) (g : Eft → Eft) : (s.modEft p n g).nss = s.nss := rfl
@[simp] theorem State.modEft_zones (p n : Nat) (g : Eft → Eft) : (s.modEft p n g).zones = s.zones := rfl
@[simp] theorem State.modEft_clutches (p n : Nat) (g : Eft → Eft) : (s.modEft p n g).clutches = s.clutches := rfl
@[simp] theorem State.modEft_kept (p n : Nat) (g : Eft → Eft) : (s.modEft p n g).kept = s.kept := rfl
@[simp] theorem State.modEft_landing (p n : Nat) (g : Eft → Eft) : (s.modEft p n g).landing = s.landing := rfl
@[simp] theorem State.modEft_cmds (p n : Nat) (g : Eft → Eft) : (s.modEft p n g).cmds = s.cmds := rfl
@[simp] theorem State.modEft_xlt (p n : Nat) (g : Eft → Eft) : (s.modEft p n g).xlt = s.xlt := rfl
@[simp] theorem State.modEft_evr (p n : Nat) (g : Eft → Eft) : (s.modEft p n g).evr = s.evr := rfl
@[simp] theorem State.modEft_hlt (p n : Nat) (g : Eft → Eft) : (s.modEft p n g).hlt = s.hlt := rfl
@[simp] theorem State.modEft_quiesce (p n : Nat) (g : Eft → Eft) : (s.modEft p n g).quiesce = s.quiesce := rfl
@[simp] theorem State.modEft_med (p n : Nat) (g : Eft → Eft) : (s.modEft p n g).med = s.med := rfl
@[simp] theorem State.modEft_cho (p n : Nat) (g : Eft → Eft) : (s.modEft p n g).cho = s.cho := rfl
@[simp] theorem State.modEft_dzl (p n : Nat) (g : Eft → Eft) : (s.modEft p n g).dzl = s.dzl := rfl
@[simp] theorem State.modEft_sec (p n : Nat) (g : Eft → Eft) : (s.modEft p n g).sec = s.sec := rfl
@[simp] theorem State.modEft_boot (p n : Nat) (g : Eft → Eft) : (s.modEft p n g).boot = s.boot := rfl
@[simp] theorem State.modEft_pwr (p n : Nat) (g : Eft → Eft) : (s.modEft p n g).pwr = s.pwr := rfl
@[simp] theorem State.modEft_dram (p n : Nat) (g : Eft → Eft) : (s.modEft p n g).dram = s.dram := rfl
@[simp] theorem State.modEft_snc (p n : Nat) (g : Eft → Eft) : (s.modEft p n g).snc = s.snc := rfl
@[simp] theorem State.modEft_pins (p n : Nat) (g : Eft → Eft) : (s.modEft p n g).pins = s.pins := rfl
@[simp] theorem State.modEft_freeIx (p n : Nat) (g : Eft → Eft) : (s.modEft p n g).freeIx = s.freeIx := rfl
@[simp] theorem State.modEft_pending (p n : Nat) (g : Eft → Eft) : (s.modEft p n g).pending = s.pending := rfl
@[simp] theorem State.modEft_rd (p n : Nat) (g : Eft → Eft) (r : Fld) : (s.modEft p n g).rd r = s.rd r := rfl
@[simp] theorem State.modEft_word (p n : Nat) (g : Eft → Eft) (a : Nat) : (s.modEft p n g).word a = s.word a := rfl
@[simp] theorem State.modEft_fn (p n : Nat) (g : Eft → Eft) (k : Nat) : (s.modEft p n g).fn k = s.fn k := rfl
@[simp] theorem State.modEft_mode (p n : Nat) (g : Eft → Eft)  : (s.modEft p n g).mode = s.mode := rfl
@[simp] theorem State.modEft_asleep (p n : Nat) (g : Eft → Eft)  : (s.modEft p n g).asleep = s.asleep := rfl
@[simp] theorem State.modEft_flag (p n : Nat) (g : Eft → Eft) (r : Fld) : (s.modEft p n g).flag r = s.flag r := rfl

/-! ## `reply` -/

@[simp] theorem State.reply_now (w v : Nat) (e : Bool) (d : Payload) : (s.reply w v e d).now = s.now := rfl
@[simp] theorem State.reply_regs (w v : Nat) (e : Bool) (d : Payload) : (s.reply w v e d).regs = s.regs := rfl
@[simp] theorem State.reply_latch (w v : Nat) (e : Bool) (d : Payload) : (s.reply w v e d).latch = s.latch := rfl
@[simp] theorem State.reply_cqes (w v : Nat) (e : Bool) (d : Payload) : (s.reply w v e d).cqes = s.cqes := rfl
@[simp] theorem State.reply_fns (w v : Nat) (e : Bool) (d : Payload) : (s.reply w v e d).fns = s.fns := rfl
@[simp] theorem State.reply_rr (w v : Nat) (e : Bool) (d : Payload) : (s.reply w v e d).rr = s.rr := rfl
@[simp] theorem State.reply_nss (w v : Nat) (e : Bool) (d : Payload) : (s.reply w v e d).nss = s.nss := rfl
@[simp] theorem State.reply_zones (w v : Nat) (e : Bool) (d : Payload) : (s.reply w v e d).zones = s.zones := rfl
@[simp] theorem State.reply_clutches (w v : Nat) (e : Bool) (d : Payload) : (s.reply w v e d).clutches = s.clutches := rfl
@[simp] theorem State.reply_kept (w v : Nat) (e : Bool) (d : Payload) : (s.reply w v e d).kept = s.kept := rfl
@[simp] theorem State.reply_landing (w v : Nat) (e : Bool) (d : Payload) : (s.reply w v e d).landing = s.landing := rfl
@[simp] theorem State.reply_cmds (w v : Nat) (e : Bool) (d : Payload) : (s.reply w v e d).cmds = s.cmds := rfl
@[simp] theorem State.reply_efts (w v : Nat) (e : Bool) (d : Payload) : (s.reply w v e d).efts = s.efts := rfl
@[simp] theorem State.reply_xlt (w v : Nat) (e : Bool) (d : Payload) : (s.reply w v e d).xlt = s.xlt := rfl
@[simp] theorem State.reply_evr (w v : Nat) (e : Bool) (d : Payload) : (s.reply w v e d).evr = s.evr := rfl
@[simp] theorem State.reply_hlt (w v : Nat) (e : Bool) (d : Payload) : (s.reply w v e d).hlt = s.hlt := rfl
@[simp] theorem State.reply_quiesce (w v : Nat) (e : Bool) (d : Payload) : (s.reply w v e d).quiesce = s.quiesce := rfl
@[simp] theorem State.reply_med (w v : Nat) (e : Bool) (d : Payload) : (s.reply w v e d).med = s.med := rfl
@[simp] theorem State.reply_cho (w v : Nat) (e : Bool) (d : Payload) : (s.reply w v e d).cho = s.cho := rfl
@[simp] theorem State.reply_dzl (w v : Nat) (e : Bool) (d : Payload) : (s.reply w v e d).dzl = s.dzl := rfl
@[simp] theorem State.reply_sec (w v : Nat) (e : Bool) (d : Payload) : (s.reply w v e d).sec = s.sec := rfl
@[simp] theorem State.reply_boot (w v : Nat) (e : Bool) (d : Payload) : (s.reply w v e d).boot = s.boot := rfl
@[simp] theorem State.reply_pwr (w v : Nat) (e : Bool) (d : Payload) : (s.reply w v e d).pwr = s.pwr := rfl
@[simp] theorem State.reply_dram (w v : Nat) (e : Bool) (d : Payload) : (s.reply w v e d).dram = s.dram := rfl
@[simp] theorem State.reply_snc (w v : Nat) (e : Bool) (d : Payload) : (s.reply w v e d).snc = s.snc := rfl
@[simp] theorem State.reply_pins (w v : Nat) (e : Bool) (d : Payload) : (s.reply w v e d).pins = s.pins := rfl
@[simp] theorem State.reply_freeIx (w v : Nat) (e : Bool) (d : Payload) : (s.reply w v e d).freeIx = s.freeIx := rfl
@[simp] theorem State.reply_pending (w v : Nat) (e : Bool) (d : Payload) : (s.reply w v e d).pending = s.pending := rfl
@[simp] theorem State.reply_rd (w v : Nat) (e : Bool) (d : Payload) (r : Fld) : (s.reply w v e d).rd r = s.rd r := rfl
@[simp] theorem State.reply_word (w v : Nat) (e : Bool) (d : Payload) (a : Nat) : (s.reply w v e d).word a = s.word a := rfl
@[simp] theorem State.reply_fn (w v : Nat) (e : Bool) (d : Payload) (k : Nat) : (s.reply w v e d).fn k = s.fn k := rfl
@[simp] theorem State.reply_mode (w v : Nat) (e : Bool) (d : Payload)  : (s.reply w v e d).mode = s.mode := rfl
@[simp] theorem State.reply_asleep (w v : Nat) (e : Bool) (d : Payload)  : (s.reply w v e d).asleep = s.asleep := rfl
@[simp] theorem State.reply_flag (w v : Nat) (e : Bool) (d : Payload) (r : Fld) : (s.reply w v e d).flag r = s.flag r := rfl

end Sys2Proof.Machine
end

