-- ==== Sys2Proof/Laws/Ops.lean ====
section
/-! SUPPORT. Sparse tables and the register file: a read after a write, what a write leaves alone, and that every table operation
keeps the canonical form. -/

namespace Sys2Proof.Machine

open Sys2Proof

/-! ## Tables -/

section Tables

variable {α : Type} (d : Nat → α)

theorem tblGet_drop_same (t : List (Nat × α)) (k : Nat) : tblGet d (tblDrop k t) k = d k := by
  induction t with
  | nil => rfl
  | cons e r ih =>
    obtain ⟨i, w⟩ := e
    by_cases h : i = k <;> simp [tblDrop, tblGet, h, ih]

theorem tblGet_drop_other (t : List (Nat × α)) {j k : Nat} (h : j ≠ k) : tblGet d (tblDrop k t) j = tblGet d t j := by
  induction t with
  | nil => rfl
  | cons e r ih =>
    obtain ⟨i, w⟩ := e
    by_cases hi : i = k
    · subst hi
      simp [tblDrop, tblGet, ih, Ne.symm h]
    · simp [tblDrop, tblGet, hi, ih]

/-- No entry under a key. -/
def tblFree (k : Nat) (t : List (Nat × α)) : Prop := ∀ e ∈ t, e.1 ≠ k

theorem tblFree_drop (t : List (Nat × α)) (k : Nat) : tblFree k (tblDrop k t) := by
  induction t with
  | nil => simp [tblFree, tblDrop]
  | cons e r ih =>
    obtain ⟨i, w⟩ := e
    by_cases h : i = k
    · simpa [tblDrop, h] using ih
    · simpa [tblDrop, h, tblFree] using ih

theorem tblGet_put_same (v : α) (t : List (Nat × α)) (k : Nat) (h : tblFree k t) : tblGet d (tblPut k v t) k = v := by
  induction t with
  | nil => simp [tblPut, tblGet]
  | cons e r ih =>
    obtain ⟨i, w⟩ := e
    have hi : i ≠ k := h (i, w) (by simp)
    have hr : tblFree k r := fun e he => h e (by simp [he])
    by_cases hk : k < i <;> simp [tblPut, tblGet, hk, hi, ih hr]

theorem tblGet_put_other (v : α) (t : List (Nat × α)) {j k : Nat} (h : j ≠ k) : tblGet d (tblPut k v t) j = tblGet d t j := by
  induction t with
  | nil => simp [tblPut, tblGet, Ne.symm h]
  | cons e r ih =>
    obtain ⟨i, w⟩ := e
    by_cases hk : k < i
    · simp [tblPut, tblGet, hk, Ne.symm h]
    · simp [tblPut, tblGet, hk, ih]

variable [DecidableEq α]

/-- A table answers the value written last under a key. -/
@[simp] theorem tblGet_set_same (t : List (Nat × α)) (k : Nat) (v : α) : tblGet d (tblSet d t k v) k = v := by
  unfold tblSet
  split
  · rename_i h; rw [tblGet_drop_same, h]
  · exact tblGet_put_same d v _ k (tblFree_drop t k)

/-- A write leaves every other key alone. -/
@[simp] theorem tblGet_set_other (t : List (Nat × α)) {j k : Nat} (v : α) (h : j ≠ k) :
    tblGet d (tblSet d t k v) j = tblGet d t j := by
  unfold tblSet
  split
  · exact tblGet_drop_other d t h
  · rw [tblGet_put_other d v _ h, tblGet_drop_other d t h]

theorem tblWfFrom_mono {a b : Nat} (h : a ≤ b) : ∀ t : List (Nat × α), tblWfFrom d b t = true → tblWfFrom d a t = true
  | [], _ => rfl
  | (i, v) :: r, w => by
    simp only [tblWfFrom, Bool.and_eq_true, decide_eq_true_eq] at w ⊢
    exact ⟨⟨le_trans h w.1.1, w.1.2⟩, w.2⟩

theorem tblWfFrom_drop (k : Nat) : ∀ (t : List (Nat × α)) (a : Nat), tblWfFrom d a t = true → tblWfFrom d a (tblDrop k t) = true
  | [], _, _ => rfl
  | (i, v) :: r, a, w => by
    simp only [tblWfFrom, Bool.and_eq_true, decide_eq_true_eq] at w
    by_cases h : i = k
    · simp only [tblDrop, h, if_true]
      exact tblWfFrom_drop k r a (tblWfFrom_mono d (by omega) r w.2)
    · simp only [tblDrop, h, if_false, tblWfFrom, Bool.and_eq_true, decide_eq_true_eq]
      exact ⟨w.1, tblWfFrom_drop k r _ w.2⟩

theorem tblWfFrom_put (k : Nat) (v : α) (hv : v ≠ d k) :
    ∀ (t : List (Nat × α)) (a : Nat), a ≤ k → tblFree k t → tblWfFrom d a t = true → tblWfFrom d a (tblPut k v t) = true
  | [], a, ha, _, _ => by simp [tblPut, tblWfFrom, ha, hv]
  | (i, w) :: r, a, ha, hf, hw => by
    have hi : i ≠ k := hf (i, w) (by simp)
    have hr : tblFree k r := fun e he => hf e (by simp [he])
    simp only [tblWfFrom, Bool.and_eq_true, decide_eq_true_eq] at hw
    by_cases hk : k < i
    · simp only [tblPut, hk, if_true, tblWfFrom, Bool.and_eq_true, decide_eq_true_eq]
      exact ⟨⟨ha, hv⟩, ⟨hk, hw.1.2⟩, hw.2⟩
    · simp only [tblPut, hk, if_false, tblWfFrom, Bool.and_eq_true, decide_eq_true_eq]
      exact ⟨hw.1, tblWfFrom_put k v hv r (i + 1) (by omega) hr hw.2⟩

/-- A write keeps the canonical form. -/
theorem tblWf_set (t : List (Nat × α)) (k : Nat) (v : α) (h : tblWf d t = true) : tblWf d (tblSet d t k v) = true := by
  unfold tblSet tblWf at *
  split
  · exact tblWfFrom_drop d k t 0 h
  · rename_i hv
    exact tblWfFrom_put d k v hv _ 0 (Nat.zero_le k) (tblFree_drop t k) (tblWfFrom_drop d k t 0 h)

theorem tblWfFrom_filter (p : Nat × α → Bool) :
    ∀ (t : List (Nat × α)) (a : Nat), tblWfFrom d a t = true → tblWfFrom d a (t.filter p) = true
  | [], _, _ => rfl
  | (i, v) :: r, a, w => by
    simp only [tblWfFrom, Bool.and_eq_true, decide_eq_true_eq] at w
    by_cases h : p (i, v) = true
    · simp only [List.filter_cons, h, if_true, tblWfFrom, Bool.and_eq_true, decide_eq_true_eq]
      exact ⟨w.1, tblWfFrom_filter p r _ w.2⟩
    · simp only [List.filter_cons, h]
      exact tblWfFrom_filter p r a (tblWfFrom_mono d (by omega) r w.2)

/-- Taking entries out keeps the canonical form. -/
theorem tblWf_filter (p : Nat × α → Bool) (t : List (Nat × α)) (h : tblWf d t = true) : tblWf d (t.filter p) = true :=
  tblWfFrom_filter d p t 0 h

end Tables

/-! ## Bit fields -/

theorem getBits_lt (w msb lsb : Nat) : getBits w msb lsb < 2 ^ (msb + 1 - lsb) := Nat.mod_lt _ (Nat.two_pow_pos _)

/-- A number split at a field: above it, the field, below it. -/
theorem field_split (w msb lsb : Nat) :
    w = (w / 2 ^ lsb / 2 ^ (msb + 1 - lsb)) * 2 ^ (msb + 1 - lsb) * 2 ^ lsb + getBits w msb lsb * 2 ^ lsb + w % 2 ^ lsb := by
  have h1 := Nat.div_add_mod w (2 ^ lsb)
  have h2 := Nat.div_add_mod (w / 2 ^ lsb) (2 ^ (msb + 1 - lsb))
  unfold getBits
  rw [Nat.shiftRight_eq_div_pow]
  calc w = 2 ^ lsb * (w / 2 ^ lsb) + w % 2 ^ lsb := h1.symm
    _ = 2 ^ lsb * (2 ^ (msb + 1 - lsb) * (w / 2 ^ lsb / 2 ^ (msb + 1 - lsb)) + w / 2 ^ lsb % 2 ^ (msb + 1 - lsb)) + w % 2 ^ lsb := by rw [h2]
    _ = _ := by ring

/-- A field written: the parts beside it stay. -/
theorem putBits_split (w msb lsb v : Nat) :
    putBits w msb lsb v = (w / 2 ^ lsb / 2 ^ (msb + 1 - lsb)) * 2 ^ (msb + 1 - lsb) * 2 ^ lsb
      + v % 2 ^ (msb + 1 - lsb) * 2 ^ lsb + w % 2 ^ lsb := by
  have h := field_split w msb lsb
  unfold putBits
  rw [Nat.shiftLeft_eq, Nat.shiftLeft_eq]
  omega

theorem getBits_put_same (w msb lsb v : Nat) : getBits (putBits w msb lsb v) msb lsb = v % 2 ^ (msb + 1 - lsb) := by
  rw [putBits_split]
  unfold getBits
  rw [Nat.shiftRight_eq_div_pow]
  have hp := Nat.two_pow_pos lsb
  have hl := Nat.mod_lt w hp
  have e : (w / 2 ^ lsb / 2 ^ (msb + 1 - lsb)) * 2 ^ (msb + 1 - lsb) * 2 ^ lsb + v % 2 ^ (msb + 1 - lsb) * 2 ^ lsb + w % 2 ^ lsb
      = 2 ^ lsb * ((w / 2 ^ lsb / 2 ^ (msb + 1 - lsb)) * 2 ^ (msb + 1 - lsb) + v % 2 ^ (msb + 1 - lsb)) + w % 2 ^ lsb := by ring
  rw [e, Nat.mul_add_div hp, Nat.div_eq_of_lt hl, Nat.add_zero, Nat.mul_comm (w / _ / _), Nat.mul_add_mod, Nat.mod_mod]

theorem testBit_getBits (w msb lsb i : Nat) : (getBits w msb lsb).testBit i = (decide (i < msb + 1 - lsb) && w.testBit (lsb + i)) := by
  simp [getBits, Nat.testBit_mod_two_pow, Nat.testBit_shiftRight]

theorem testBit_putBits (w msb lsb v i : Nat) (h : lsb ≤ msb) :
    (putBits w msb lsb v).testBit i = if lsb ≤ i ∧ i ≤ msb then v.testBit (i - lsb) else w.testBit i := by
  have hn : msb + 1 - lsb + lsb = msb + 1 := by omega
  have e : putBits w msb lsb v = 2 ^ (msb + 1) * (w / 2 ^ (msb + 1)) + (2 ^ lsb * (v % 2 ^ (msb + 1 - lsb)) + w % 2 ^ lsb) := by
    rw [putBits_split, Nat.div_div_eq_div_mul, ← Nat.pow_add, Nat.add_comm lsb, hn]
    have : (w / 2 ^ (msb + 1)) * 2 ^ (msb + 1 - lsb) * 2 ^ lsb = 2 ^ (msb + 1) * (w / 2 ^ (msb + 1)) := by
      rw [Nat.mul_assoc, ← Nat.pow_add, hn, Nat.mul_comm]
    rw [this]; ring
  have hb : 2 ^ lsb * (v % 2 ^ (msb + 1 - lsb)) + w % 2 ^ lsb < 2 ^ (msb + 1) := by
    have h1 := Nat.mod_lt v (Nat.two_pow_pos (msb + 1 - lsb))
    have h2 := Nat.mod_lt w (Nat.two_pow_pos lsb)
    calc 2 ^ lsb * (v % 2 ^ (msb + 1 - lsb)) + w % 2 ^ lsb < 2 ^ lsb * (v % 2 ^ (msb + 1 - lsb)) + 2 ^ lsb := by omega
      _ = 2 ^ lsb * (v % 2 ^ (msb + 1 - lsb) + 1) := by ring
      _ ≤ 2 ^ lsb * 2 ^ (msb + 1 - lsb) := Nat.mul_le_mul_left _ h1
      _ = 2 ^ (msb + 1) := by rw [← Nat.pow_add, Nat.add_comm lsb, hn]
  rw [e, Nat.testBit_two_pow_mul_add _ hb, Nat.testBit_two_pow_mul_add _ (Nat.mod_lt w (Nat.two_pow_pos lsb))]
  by_cases h1 : i < msb + 1
  · by_cases h2 : i < lsb
    · simp [h1, h2, Nat.testBit_mod_two_pow, Nat.not_le.mpr h2]
    · have h3 : i - lsb < msb + 1 - lsb := by omega
      simp [h1, h2, Nat.testBit_mod_two_pow, h3, Nat.le_of_not_lt h2, Nat.lt_succ_iff.mp h1]
  · simp only [h1, if_false]
    rw [if_neg (by omega), Nat.testBit_div_two_pow]
    congr 1; omega

theorem getBits_put_other (w msb lsb v m l : Nat) (h : lsb ≤ msb) (o : m < lsb ∨ msb < l) :
    getBits (putBits w msb lsb v) m l = getBits w m l := by
  apply Nat.eq_of_testBit_eq
  intro i
  rw [testBit_getBits, testBit_getBits]
  by_cases hi : i < m + 1 - l
  · rw [testBit_putBits _ _ _ _ _ h, if_neg (by omega)]
  · simp [hi]

theorem putBits_lt (w msb lsb v n : Nat) (hw : w < 2 ^ n) (h : lsb ≤ msb) (hm : msb < n) : putBits w msb lsb v < 2 ^ n := by
  apply Nat.lt_pow_two_of_testBit
  intro i hi
  rw [testBit_putBits _ _ _ _ _ h, if_neg (by omega)]
  exact Nat.testBit_lt_two_pow (lt_of_lt_of_le hw (Nat.pow_le_pow_right (by omega) hi))

/-! ## Registers -/

variable (s : State)

theorem State.word_lt (a : Nat) : s.word a < 2 ^ 32 := (tblGet regReset s.regs a).isLt

@[simp] theorem State.word_setWord_same (a v : Nat) : (s.setWord a v).word a = v % 2 ^ 32 := by
  simp [State.word, State.setWord]

@[simp] theorem State.word_setWord_other (a v : Nat) {b : Nat} (h : b ≠ a) : (s.setWord a v).word b = s.word b := by
  simp [State.word, State.setWord, h]

/-- A field of one word. -/
def Fld.narrow (f : Fld) : Prop := f.lsb ≤ f.msb ∧ f.msb < 32

theorem State.word_wr_other (f : Fld) (v : Nat) {b : Nat} (hf : f.msb < 32) (h : b ≠ f.reg) : (s.wr f v).word b = s.word b := by
  simp [State.wr, hf, h]

/-- A field reads as the value written to it, cut to its width. -/
theorem State.rd_wr_same (f : Fld) (v : Nat) (h : f.narrow) : (s.wr f v).rd f = v % 2 ^ (f.msb + 1 - f.lsb) := by
  have hlt : putBits (s.word f.reg) f.msb f.lsb v < 2 ^ 32 := putBits_lt _ _ _ _ 32 (s.word_lt _) h.1 h.2
  simp only [State.rd, State.wr, h.2, if_true, State.word_setWord_same, Nat.mod_eq_of_lt hlt, getBits_put_same]

/-- A write to a field leaves the fields of other registers alone. -/
theorem State.rd_wr_reg (f g : Fld) (v : Nat) (hf : f.msb < 32) (hg : g.msb < 32) (h : g.reg ≠ f.reg) :
    (s.wr f v).rd g = s.rd g := by
  simp [State.rd, hg, s.word_wr_other f v hf h]

/-- A write to a field leaves the other fields of its register alone. -/
theorem State.rd_wr_bits (f g : Fld) (v : Nat) (hf : f.narrow) (hg : g.msb < 32) (hr : g.reg = f.reg)
    (h : g.msb < f.lsb ∨ f.msb < g.lsb) : (s.wr f v).rd g = s.rd g := by
  have hlt : putBits (s.word f.reg) f.msb f.lsb v < 2 ^ 32 := putBits_lt _ _ _ _ 32 (s.word_lt _) hf.1 hf.2
  simp only [State.rd, State.wr, hf.2, hg, if_true, hr, State.word_setWord_same, Nat.mod_eq_of_lt hlt]
  exact getBits_put_other _ _ _ _ _ _ hf.1 h

theorem State.rd_lt (f : Fld) : s.rd f < 2 ^ (f.msb + 1 - f.lsb) := by
  unfold State.rd
  split <;> exact getBits_lt _ _ _

/-! ## Functions -/

@[simp] theorem State.fn_setFn_same (n : Nat) (f : Fn) : (s.setFn n f).fn n = f := by simp [State.fn, State.setFn]

@[simp] theorem State.fn_setFn_other (n : Nat) (f : Fn) {k : Nat} (h : k ≠ n) : (s.setFn n f).fn k = s.fn k := by
  simp [State.fn, State.setFn, h]

@[simp] theorem State.fn_modFn_same (n : Nat) (g : Fn → Fn) : (s.modFn n g).fn n = g (s.fn n) := by simp [State.modFn]

@[simp] theorem State.fn_modFn_other (n : Nat) (g : Fn → Fn) {k : Nat} (h : k ≠ n) : (s.modFn n g).fn k = s.fn k := by
  simp [State.modFn, h]

/-! ## Efts -/

@[simp] theorem State.eft_setEft_same (p n : Nat) (e : Eft) : (s.setEft p n e).eft p n = e := by simp [State.eft, State.setEft]

@[simp] theorem State.eft_modEft_same (p n : Nat) (g : Eft → Eft) : (s.modEft p n g).eft p n = g (s.eft p n) := by simp [State.modEft]

/-! ## Guards over instances -/

@[simp] theorem inRange_lt {i n : Nat} (k : Result) (h : i < n) : inRange i n k = k := by simp [inRange, h]

@[simp] theorem onFn_lt {f : Nat} (k : Result) (h : f < fnCount) : onFn f k = k := by simp [onFn, h]

theorem onTag_some {tag : Nat} {c : Cmd} (k : Cmd → Result) (h : s.cmd tag = some c) : onTag s tag k = k c := by simp [onTag, h]

/-! ## The register table -/

/-- The first offset past a register's row. -/
def rowEnd (r : RegDesc) : Nat := r.base + max 1 (r.countA * r.strideA + r.countB * r.strideB)

/-- An offset in a row is at or above its base and below its end. -/
theorem index_bounds {r : RegDesc} {off i : Nat} (h : r.index off = some i) : r.base ≤ off ∧ off < rowEnd r := by
  unfold RegDesc.index at h
  split at h
  · cases h
  · rename_i hb
    simp only at h
    split at h
    · rename_i hc
      simp only [Bool.and_eq_true, decide_eq_true_eq] at hc
      obtain ⟨⟨ha, hj⟩, he⟩ := hc
      refine ⟨Nat.le_of_not_lt hb, ?_⟩
      have h1 := Nat.div_add_mod (off - r.base) r.strideA
      have h2 := Nat.div_add_mod ((off - r.base) % r.strideA) r.strideB
      have h3 : r.strideA * ((off - r.base) / r.strideA) + r.strideA ≤ r.countA * r.strideA := by
        rw [Nat.mul_comm r.countA]; exact Nat.mul_le_mul_left _ ha
      have h4 : r.strideB * ((off - r.base) % r.strideA / r.strideB) + r.strideB ≤ r.countB * r.strideB := by
        rw [Nat.mul_comm r.countB]; exact Nat.mul_le_mul_left _ hj
      unfold rowEnd
      rcases Nat.eq_zero_or_pos r.strideA with hA | hA
      · rw [hA, Nat.mod_zero] at h2 h4 he
        rcases Nat.eq_zero_or_pos r.strideB with hB | hB
        · rw [hB, Nat.mod_zero] at he; omega
        · omega
      · have := Nat.mod_lt (off - r.base) hA; omega
    · cases h

theorem regFind_none_of {off : Nat} {l : List RegDesc} (h : ∀ r ∈ l, off < r.base ∨ rowEnd r ≤ off) : regFind off l = none := by
  induction l with
  | nil => rfl
  | cons r rs ih =>
    have hr : r.index off = none := by
      cases hi : r.index off with
      | none => rfl
      | some i => have := index_bounds hi; have := h r (by simp); omega
    simp only [regFind, hr]
    exact ih fun x hx => h x (by simp [hx])

theorem regFind_append (off : Nat) (a b : List RegDesc) : regFind off (a ++ b) = (regFind off a).orElse fun _ => regFind off b := by
  induction a with
  | nil => rfl
  | cons r rs ih => simp only [List.cons_append, regFind]; split <;> simp_all

/-- All rows of a list lie from one offset up to below another. -/
def rowsIn (lo hi : Nat) (l : List RegDesc) : Bool := l.all fun r => decide (lo ≤ r.base) && decide (rowEnd r ≤ hi)

theorem regFind_outside {off lo hi : Nat} {l : List RegDesc} (hl : rowsIn lo hi l = true) (h : off < lo ∨ hi ≤ off) : regFind off l = none := by
  refine regFind_none_of fun r hr => ?_
  have := List.all_eq_true.1 hl r hr
  simp only [Bool.and_eq_true, decide_eq_true_eq] at this
  omega

/-- The rows near an offset are all that the whole table has for it. -/
theorem regFind_near (off : Nat) : regFind off (regsNear off) = regFind off regTable := by
  have top : rowsIn 0 0x100000 regsTOP = true := by decide
  have gk : rowsIn 0x100000 0x200000 regsGK = true := by decide
  have clk : rowsIn 0x200000 0x400000 regsCLK = true := by decide
  have eft : rowsIn 0x400000 0x800000 regsEFT = true := by decide
  have med : rowsIn 0x800000 0x1000000 regsMED = true := by decide
  have xlt : rowsIn 0x1000000 0x1200000 regsXLT = true := by decide
  have cho : rowsIn 0x1200000 0x1400000 regsCHO = true := by decide
  have dzl : rowsIn 0x1400000 0x1800000 regsDZL = true := by decide
  have vfm : rowsIn 0x1800000 0x2000000 regsVFM = true := by decide
  have sec : rowsIn 0x2000000 0x2400000 regsSEC = true := by decide
  have dmc : rowsIn 0x2400000 0x2600000 regsDMC = true := by decide
  have snc : rowsIn 0x2600000 0x2800000 regsSNC = true := by decide
  have evr : rowsIn 0x2800000 0x2A00000 regsEVR = true := by decide
  have hlt : rowsIn 0x2A00000 0x2C00000 regsHLT = true := by decide
  simp only [regsNear, regTable]
  have z : ∀ {lo hi l}, rowsIn lo hi l = true → off < lo ∨ hi ≤ off → regFind off l = none := regFind_outside
  repeat' split
  all_goals simp only [regFind_append]
  · rw [z eft, z xlt, z med, z cho, z dzl, z vfm, z sec, z dmc, z snc, z evr, z hlt] <;> first | omega | simp
  · rw [z xlt, z med, z cho, z dzl, z vfm, z sec, z top, z gk, z clk, z dmc, z snc, z evr, z hlt] <;> first | omega | simp
  · rw [z eft, z xlt, z cho, z dzl, z vfm, z sec, z top, z gk, z clk, z dmc, z snc, z evr, z hlt] <;> first | omega | simp
  · rw [z eft, z med, z vfm, z sec, z top, z gk, z clk, z dmc, z snc, z evr, z hlt] <;> first | omega | simp
  · rw [z eft, z xlt, z med, z cho, z dzl, z sec, z top, z gk, z clk, z dmc, z snc, z evr, z hlt] <;> first | omega | simp
  · rw [z eft, z xlt, z med, z cho, z dzl, z vfm, z top, z gk, z clk, z dmc, z snc, z evr, z hlt] <;> first | omega | simp
  · rw [z eft, z xlt, z med, z cho, z dzl, z vfm, z sec, z top, z gk, z clk] <;> first | omega | simp

/-- The reset value of a word, over the whole table. -/
theorem regReset_eq (off : Nat) (r : RegDesc) (i : Nat) (h : regFind (off % bankStep) regTable = some (r, i)) :
    regReset off = BitVec.ofNat 32 (sumNat (r.fields.map fun f => ((f.reset + i * f.step) % 2 ^ f.len) <<< f.lsb)) := by
  simp [regReset, regFind_near, h]

end Sys2Proof.Machine
end

