-- ==== Sys2Proof/Laws/Host.lean ====
section
/-! SUPPORT. The operations host commands and events share: what each leaves alone, and what a command the front end takes answers. -/

namespace Sys2Proof.Machine

open Sys2Proof

variable (s : State)

/-! ## `emit` -/

@[simp] theorem State.emit_now (c u : Nat) (p : List Nat) : (s.emit c u p).now = s.now := by unfold State.emit; dsimp only; split <;> simp
@[simp] theorem State.emit_latch (c u : Nat) (p : List Nat) : (s.emit c u p).latch = s.latch := by unfold State.emit; dsimp only; split <;> simp
@[simp] theorem State.emit_replies (c u : Nat) (p : List Nat) : (s.emit c u p).replies = s.replies := by unfold State.emit; dsimp only; split <;> simp
@[simp] theorem State.emit_cqes (c u : Nat) (p : List Nat) : (s.emit c u p).cqes = s.cqes := by unfold State.emit; dsimp only; split <;> simp
@[simp] theorem State.emit_fns (c u : Nat) (p : List Nat) : (s.emit c u p).fns = s.fns := by unfold State.emit; dsimp only; split <;> simp
@[simp] theorem State.emit_rr (c u : Nat) (p : List Nat) : (s.emit c u p).rr = s.rr := by unfold State.emit; dsimp only; split <;> simp
@[simp] theorem State.emit_nss (c u : Nat) (p : List Nat) : (s.emit c u p).nss = s.nss := by unfold State.emit; dsimp only; split <;> simp
@[simp] theorem State.emit_zones (c u : Nat) (p : List Nat) : (s.emit c u p).zones = s.zones := by unfold State.emit; dsimp only; split <;> simp
@[simp] theorem State.emit_clutches (c u : Nat) (p : List Nat) : (s.emit c u p).clutches = s.clutches := by unfold State.emit; dsimp only; split <;> simp
@[simp] theorem State.emit_kept (c u : Nat) (p : List Nat) : (s.emit c u p).kept = s.kept := by unfold State.emit; dsimp only; split <;> simp
@[simp] theorem State.emit_landing (c u : Nat) (p : List Nat) : (s.emit c u p).landing = s.landing := by unfold State.emit; dsimp only; split <;> simp
@[simp] theorem State.emit_cmds (c u : Nat) (p : List Nat) : (s.emit c u p).cmds = s.cmds := by unfold State.emit; dsimp only; split <;> simp
@[simp] theorem State.emit_efts (c u : Nat) (p : List Nat) : (s.emit c u p).efts = s.efts := by unfold State.emit; dsimp only; split <;> simp
@[simp] theorem State.emit_xlt (c u : Nat) (p : List Nat) : (s.emit c u p).xlt = s.xlt := by unfold State.emit; dsimp only; split <;> simp
@[simp] theorem State.emit_hlt (c u : Nat) (p : List Nat) : (s.emit c u p).hlt = s.hlt := by unfold State.emit; dsimp only; split <;> simp
@[simp] theorem State.emit_quiesce (c u : Nat) (p : List Nat) : (s.emit c u p).quiesce = s.quiesce := by unfold State.emit; dsimp only; split <;> simp
@[simp] theorem State.emit_med (c u : Nat) (p : List Nat) : (s.emit c u p).med = s.med := by unfold State.emit; dsimp only; split <;> simp
@[simp] theorem State.emit_cho (c u : Nat) (p : List Nat) : (s.emit c u p).cho = s.cho := by unfold State.emit; dsimp only; split <;> simp
@[simp] theorem State.emit_dzl (c u : Nat) (p : List Nat) : (s.emit c u p).dzl = s.dzl := by unfold State.emit; dsimp only; split <;> simp
@[simp] theorem State.emit_sec (c u : Nat) (p : List Nat) : (s.emit c u p).sec = s.sec := by unfold State.emit; dsimp only; split <;> simp
@[simp] theorem State.emit_boot (c u : Nat) (p : List Nat) : (s.emit c u p).boot = s.boot := by unfold State.emit; dsimp only; split <;> simp
@[simp] theorem State.emit_pwr (c u : Nat) (p : List Nat) : (s.emit c u p).pwr = s.pwr := by unfold State.emit; dsimp only; split <;> simp
@[simp] theorem State.emit_dram (c u : Nat) (p : List Nat) : (s.emit c u p).dram = s.dram := by unfold State.emit; dsimp only; split <;> simp
@[simp] theorem State.emit_snc (c u : Nat) (p : List Nat) : (s.emit c u p).snc = s.snc := by unfold State.emit; dsimp only; split <;> simp
@[simp] theorem State.emit_pins (c u : Nat) (p : List Nat) : (s.emit c u p).pins = s.pins := by unfold State.emit; dsimp only; split <;> simp
@[simp] theorem State.emit_freeIx (c u : Nat) (p : List Nat) : (s.emit c u p).freeIx = s.freeIx := by unfold State.emit; dsimp only; split <;> simp
@[simp] theorem State.emit_pending (c u : Nat) (p : List Nat) : (s.emit c u p).pending = s.pending := by unfold State.emit; dsimp only; split <;> simp
@[simp] theorem State.emit_fn (c u : Nat) (p : List Nat) (num : Nat) : (s.emit c u p).fn num = s.fn num := by simp [State.fn]

/-! ## `record` -/

@[simp] theorem State.record_now (c : Nat) (p : List Nat) : (s.record c p).now = s.now := by unfold State.record; dsimp only; split <;> [simp; split] <;> simp
@[simp] theorem State.record_latch (c : Nat) (p : List Nat) : (s.record c p).latch = s.latch := by unfold State.record; dsimp only; split <;> [simp; split] <;> simp
@[simp] theorem State.record_replies (c : Nat) (p : List Nat) : (s.record c p).replies = s.replies := by unfold State.record; dsimp only; split <;> [simp; split] <;> simp
@[simp] theorem State.record_cqes (c : Nat) (p : List Nat) : (s.record c p).cqes = s.cqes := by unfold State.record; dsimp only; split <;> [simp; split] <;> simp
@[simp] theorem State.record_fns (c : Nat) (p : List Nat) : (s.record c p).fns = s.fns := by unfold State.record; dsimp only; split <;> [simp; split] <;> simp
@[simp] theorem State.record_rr (c : Nat) (p : List Nat) : (s.record c p).rr = s.rr := by unfold State.record; dsimp only; split <;> [simp; split] <;> simp
@[simp] theorem State.record_nss (c : Nat) (p : List Nat) : (s.record c p).nss = s.nss := by unfold State.record; dsimp only; split <;> [simp; split] <;> simp
@[simp] theorem State.record_zones (c : Nat) (p : List Nat) : (s.record c p).zones = s.zones := by unfold State.record; dsimp only; split <;> [simp; split] <;> simp
@[simp] theorem State.record_clutches (c : Nat) (p : List Nat) : (s.record c p).clutches = s.clutches := by unfold State.record; dsimp only; split <;> [simp; split] <;> simp
@[simp] theorem State.record_kept (c : Nat) (p : List Nat) : (s.record c p).kept = s.kept := by unfold State.record; dsimp only; split <;> [simp; split] <;> simp
@[simp] theorem State.record_landing (c : Nat) (p : List Nat) : (s.record c p).landing = s.landing := by unfold State.record; dsimp only; split <;> [simp; split] <;> simp
@[simp] theorem State.record_cmds (c : Nat) (p : List Nat) : (s.record c p).cmds = s.cmds := by unfold State.record; dsimp only; split <;> [simp; split] <;> simp
@[simp] theorem State.record_efts (c : Nat) (p : List Nat) : (s.record c p).efts = s.efts := by unfold State.record; dsimp only; split <;> [simp; split] <;> simp
@[simp] theorem State.record_xlt (c : Nat) (p : List Nat) : (s.record c p).xlt = s.xlt := by unfold State.record; dsimp only; split <;> [simp; split] <;> simp
@[simp] theorem State.record_hlt (c : Nat) (p : List Nat) : (s.record c p).hlt = s.hlt := by unfold State.record; dsimp only; split <;> [simp; split] <;> simp
@[simp] theorem State.record_quiesce (c : Nat) (p : List Nat) : (s.record c p).quiesce = s.quiesce := by unfold State.record; dsimp only; split <;> [simp; split] <;> simp
@[simp] theorem State.record_med (c : Nat) (p : List Nat) : (s.record c p).med = s.med := by unfold State.record; dsimp only; split <;> [simp; split] <;> simp
@[simp] theorem State.record_cho (c : Nat) (p : List Nat) : (s.record c p).cho = s.cho := by unfold State.record; dsimp only; split <;> [simp; split] <;> simp
@[simp] theorem State.record_dzl (c : Nat) (p : List Nat) : (s.record c p).dzl = s.dzl := by unfold State.record; dsimp only; split <;> [simp; split] <;> simp
@[simp] theorem State.record_sec (c : Nat) (p : List Nat) : (s.record c p).sec = s.sec := by unfold State.record; dsimp only; split <;> [simp; split] <;> simp
@[simp] theorem State.record_boot (c : Nat) (p : List Nat) : (s.record c p).boot = s.boot := by unfold State.record; dsimp only; split <;> [simp; split] <;> simp
@[simp] theorem State.record_pwr (c : Nat) (p : List Nat) : (s.record c p).pwr = s.pwr := by unfold State.record; dsimp only; split <;> [simp; split] <;> simp
@[simp] theorem State.record_dram (c : Nat) (p : List Nat) : (s.record c p).dram = s.dram := by unfold State.record; dsimp only; split <;> [simp; split] <;> simp
@[simp] theorem State.record_snc (c : Nat) (p : List Nat) : (s.record c p).snc = s.snc := by unfold State.record; dsimp only; split <;> [simp; split] <;> simp
@[simp] theorem State.record_pins (c : Nat) (p : List Nat) : (s.record c p).pins = s.pins := by unfold State.record; dsimp only; split <;> [simp; split] <;> simp
@[simp] theorem State.record_freeIx (c : Nat) (p : List Nat) : (s.record c p).freeIx = s.freeIx := by unfold State.record; dsimp only; split <;> [simp; split] <;> simp
@[simp] theorem State.record_pending (c : Nat) (p : List Nat) : (s.record c p).pending = s.pending := by unfold State.record; dsimp only; split <;> [simp; split] <;> simp
@[simp] theorem State.record_fn (c : Nat) (p : List Nat) (num : Nat) : (s.record c p).fn num = s.fn num := by simp [State.fn]

/-! ## `post` -/

@[simp] theorem State.post_now (f q c : Nat) (st : Status) (a b : Nat) (d : Payload) : (s.post f q c st a b d).now = s.now := by unfold State.post; dsimp only; split <;> simp
@[simp] theorem State.post_regs (f q c : Nat) (st : Status) (a b : Nat) (d : Payload) : (s.post f q c st a b d).regs = s.regs := by unfold State.post; dsimp only; split <;> simp
@[simp] theorem State.post_latch (f q c : Nat) (st : Status) (a b : Nat) (d : Payload) : (s.post f q c st a b d).latch = s.latch := by unfold State.post; dsimp only; split <;> simp
@[simp] theorem State.post_replies (f q c : Nat) (st : Status) (a b : Nat) (d : Payload) : (s.post f q c st a b d).replies = s.replies := by unfold State.post; dsimp only; split <;> simp
@[simp] theorem State.post_rr (f q c : Nat) (st : Status) (a b : Nat) (d : Payload) : (s.post f q c st a b d).rr = s.rr := by unfold State.post; dsimp only; split <;> simp
@[simp] theorem State.post_nss (f q c : Nat) (st : Status) (a b : Nat) (d : Payload) : (s.post f q c st a b d).nss = s.nss := by unfold State.post; dsimp only; split <;> simp
@[simp] theorem State.post_zones (f q c : Nat) (st : Status) (a b : Nat) (d : Payload) : (s.post f q c st a b d).zones = s.zones := by unfold State.post; dsimp only; split <;> simp
@[simp] theorem State.post_clutches (f q c : Nat) (st : Status) (a b : Nat) (d : Payload) : (s.post f q c st a b d).clutches = s.clutches := by unfold State.post; dsimp only; split <;> simp
@[simp] theorem State.post_kept (f q c : Nat) (st : Status) (a b : Nat) (d : Payload) : (s.post f q c st a b d).kept = s.kept := by unfold State.post; dsimp only; split <;> simp
@[simp] theorem State.post_landing (f q c : Nat) (st : Status) (a b : Nat) (d : Payload) : (s.post f q c st a b d).landing = s.landing := by unfold State.post; dsimp only; split <;> simp
@[simp] theorem State.post_cmds (f q c : Nat) (st : Status) (a b : Nat) (d : Payload) : (s.post f q c st a b d).cmds = s.cmds := by unfold State.post; dsimp only; split <;> simp
@[simp] theorem State.post_efts (f q c : Nat) (st : Status) (a b : Nat) (d : Payload) : (s.post f q c st a b d).efts = s.efts := by unfold State.post; dsimp only; split <;> simp
@[simp] theorem State.post_xlt (f q c : Nat) (st : Status) (a b : Nat) (d : Payload) : (s.post f q c st a b d).xlt = s.xlt := by unfold State.post; dsimp only; split <;> simp
@[simp] theorem State.post_evr (f q c : Nat) (st : Status) (a b : Nat) (d : Payload) : (s.post f q c st a b d).evr = s.evr := by unfold State.post; dsimp only; split <;> simp
@[simp] theorem State.post_hlt (f q c : Nat) (st : Status) (a b : Nat) (d : Payload) : (s.post f q c st a b d).hlt = s.hlt := by unfold State.post; dsimp only; split <;> simp
@[simp] theorem State.post_quiesce (f q c : Nat) (st : Status) (a b : Nat) (d : Payload) : (s.post f q c st a b d).quiesce = s.quiesce := by unfold State.post; dsimp only; split <;> simp
@[simp] theorem State.post_med (f q c : Nat) (st : Status) (a b : Nat) (d : Payload) : (s.post f q c st a b d).med = s.med := by unfold State.post; dsimp only; split <;> simp
@[simp] theorem State.post_cho (f q c : Nat) (st : Status) (a b : Nat) (d : Payload) : (s.post f q c st a b d).cho = s.cho := by unfold State.post; dsimp only; split <;> simp
@[simp] theorem State.post_dzl (f q c : Nat) (st : Status) (a b : Nat) (d : Payload) : (s.post f q c st a b d).dzl = s.dzl := by unfold State.post; dsimp only; split <;> simp
@[simp] theorem State.post_sec (f q c : Nat) (st : Status) (a b : Nat) (d : Payload) : (s.post f q c st a b d).sec = s.sec := by unfold State.post; dsimp only; split <;> simp
@[simp] theorem State.post_boot (f q c : Nat) (st : Status) (a b : Nat) (d : Payload) : (s.post f q c st a b d).boot = s.boot := by unfold State.post; dsimp only; split <;> simp
@[simp] theorem State.post_pwr (f q c : Nat) (st : Status) (a b : Nat) (d : Payload) : (s.post f q c st a b d).pwr = s.pwr := by unfold State.post; dsimp only; split <;> simp
@[simp] theorem State.post_dram (f q c : Nat) (st : Status) (a b : Nat) (d : Payload) : (s.post f q c st a b d).dram = s.dram := by unfold State.post; dsimp only; split <;> simp
@[simp] theorem State.post_snc (f q c : Nat) (st : Status) (a b : Nat) (d : Payload) : (s.post f q c st a b d).snc = s.snc := by unfold State.post; dsimp only; split <;> simp
@[simp] theorem State.post_pins (f q c : Nat) (st : Status) (a b : Nat) (d : Payload) : (s.post f q c st a b d).pins = s.pins := by unfold State.post; dsimp only; split <;> simp
@[simp] theorem State.post_freeIx (f q c : Nat) (st : Status) (a b : Nat) (d : Payload) : (s.post f q c st a b d).freeIx = s.freeIx := by unfold State.post; dsimp only; split <;> simp
@[simp] theorem State.post_pending (f q c : Nat) (st : Status) (a b : Nat) (d : Payload) : (s.post f q c st a b d).pending = s.pending := by unfold State.post; dsimp only; split <;> simp
@[simp] theorem State.post_rd (f q c : Nat) (st : Status) (a b : Nat) (d : Payload) (fr : Fld) : (s.post f q c st a b d).rd fr = s.rd fr := by simp [State.rd, State.word]
@[simp] theorem State.post_word (f q c : Nat) (st : Status) (a b : Nat) (d : Payload) (off : Nat) : (s.post f q c st a b d).word off = s.word off := by simp [State.word]

/-! ## `done` -/

@[simp] theorem State.done_now (src : Src) (st : Status) (a b : Nat) (d : Payload) : (s.done src st a b d).now = s.now := by unfold State.done; dsimp only; split <;> simp
@[simp] theorem State.done_regs (src : Src) (st : Status) (a b : Nat) (d : Payload) : (s.done src st a b d).regs = s.regs := by unfold State.done; dsimp only; split <;> simp
@[simp] theorem State.done_latch (src : Src) (st : Status) (a b : Nat) (d : Payload) : (s.done src st a b d).latch = s.latch := by unfold State.done; dsimp only; split <;> simp
@[simp] theorem State.done_replies (src : Src) (st : Status) (a b : Nat) (d : Payload) : (s.done src st a b d).replies = s.replies := by unfold State.done; dsimp only; split <;> simp
@[simp] theorem State.done_rr (src : Src) (st : Status) (a b : Nat) (d : Payload) : (s.done src st a b d).rr = s.rr := by unfold State.done; dsimp only; split <;> simp
@[simp] theorem State.done_nss (src : Src) (st : Status) (a b : Nat) (d : Payload) : (s.done src st a b d).nss = s.nss := by unfold State.done; dsimp only; split <;> simp
@[simp] theorem State.done_zones (src : Src) (st : Status) (a b : Nat) (d : Payload) : (s.done src st a b d).zones = s.zones := by unfold State.done; dsimp only; split <;> simp
@[simp] theorem State.done_clutches (src : Src) (st : Status) (a b : Nat) (d : Payload) : (s.done src st a b d).clutches = s.clutches := by unfold State.done; dsimp only; split <;> simp
@[simp] theorem State.done_kept (src : Src) (st : Status) (a b : Nat) (d : Payload) : (s.done src st a b d).kept = s.kept := by unfold State.done; dsimp only; split <;> simp
@[simp] theorem State.done_landing (src : Src) (st : Status) (a b : Nat) (d : Payload) : (s.done src st a b d).landing = s.landing := by unfold State.done; dsimp only; split <;> simp
@[simp] theorem State.done_cmds (src : Src) (st : Status) (a b : Nat) (d : Payload) : (s.done src st a b d).cmds = s.cmds := by unfold State.done; dsimp only; split <;> simp
@[simp] theorem State.done_efts (src : Src) (st : Status) (a b : Nat) (d : Payload) : (s.done src st a b d).efts = s.efts := by unfold State.done; dsimp only; split <;> simp
@[simp] theorem State.done_xlt (src : Src) (st : Status) (a b : Nat) (d : Payload) : (s.done src st a b d).xlt = s.xlt := by unfold State.done; dsimp only; split <;> simp
@[simp] theorem State.done_evr (src : Src) (st : Status) (a b : Nat) (d : Payload) : (s.done src st a b d).evr = s.evr := by unfold State.done; dsimp only; split <;> simp
@[simp] theorem State.done_hlt (src : Src) (st : Status) (a b : Nat) (d : Payload) : (s.done src st a b d).hlt = s.hlt := by unfold State.done; dsimp only; split <;> simp
@[simp] theorem State.done_quiesce (src : Src) (st : Status) (a b : Nat) (d : Payload) : (s.done src st a b d).quiesce = s.quiesce := by unfold State.done; dsimp only; split <;> simp
@[simp] theorem State.done_med (src : Src) (st : Status) (a b : Nat) (d : Payload) : (s.done src st a b d).med = s.med := by unfold State.done; dsimp only; split <;> simp
@[simp] theorem State.done_cho (src : Src) (st : Status) (a b : Nat) (d : Payload) : (s.done src st a b d).cho = s.cho := by unfold State.done; dsimp only; split <;> simp
@[simp] theorem State.done_dzl (src : Src) (st : Status) (a b : Nat) (d : Payload) : (s.done src st a b d).dzl = s.dzl := by unfold State.done; dsimp only; split <;> simp
@[simp] theorem State.done_sec (src : Src) (st : Status) (a b : Nat) (d : Payload) : (s.done src st a b d).sec = s.sec := by unfold State.done; dsimp only; split <;> simp
@[simp] theorem State.done_boot (src : Src) (st : Status) (a b : Nat) (d : Payload) : (s.done src st a b d).boot = s.boot := by unfold State.done; dsimp only; split <;> simp
@[simp] theorem State.done_pwr (src : Src) (st : Status) (a b : Nat) (d : Payload) : (s.done src st a b d).pwr = s.pwr := by unfold State.done; dsimp only; split <;> simp
@[simp] theorem State.done_dram (src : Src) (st : Status) (a b : Nat) (d : Payload) : (s.done src st a b d).dram = s.dram := by unfold State.done; dsimp only; split <;> simp
@[simp] theorem State.done_snc (src : Src) (st : Status) (a b : Nat) (d : Payload) : (s.done src st a b d).snc = s.snc := by unfold State.done; dsimp only; split <;> simp
@[simp] theorem State.done_pins (src : Src) (st : Status) (a b : Nat) (d : Payload) : (s.done src st a b d).pins = s.pins := by unfold State.done; dsimp only; split <;> simp
@[simp] theorem State.done_freeIx (src : Src) (st : Status) (a b : Nat) (d : Payload) : (s.done src st a b d).freeIx = s.freeIx := by unfold State.done; dsimp only; split <;> simp
@[simp] theorem State.done_pending (src : Src) (st : Status) (a b : Nat) (d : Payload) : (s.done src st a b d).pending = s.pending := by unfold State.done; dsimp only; split <;> simp
@[simp] theorem State.done_rd (src : Src) (st : Status) (a b : Nat) (d : Payload) (fr : Fld) : (s.done src st a b d).rd fr = s.rd fr := by simp [State.rd, State.word]
@[simp] theorem State.done_word (src : Src) (st : Status) (a b : Nat) (d : Payload) (off : Nat) : (s.done src st a b d).word off = s.word off := by simp [State.word]

/-! ## `ok` -/

@[simp] theorem State.ok_now (src : Src) : (s.ok src).now = s.now := by simp [State.ok]
@[simp] theorem State.ok_regs (src : Src) : (s.ok src).regs = s.regs := by simp [State.ok]
@[simp] theorem State.ok_latch (src : Src) : (s.ok src).latch = s.latch := by simp [State.ok]
@[simp] theorem State.ok_replies (src : Src) : (s.ok src).replies = s.replies := by simp [State.ok]
@[simp] theorem State.ok_rr (src : Src) : (s.ok src).rr = s.rr := by simp [State.ok]
@[simp] theorem State.ok_nss (src : Src) : (s.ok src).nss = s.nss := by simp [State.ok]
@[simp] theorem State.ok_zones (src : Src) : (s.ok src).zones = s.zones := by simp [State.ok]
@[simp] theorem State.ok_clutches (src : Src) : (s.ok src).clutches = s.clutches := by simp [State.ok]
@[simp] theorem State.ok_kept (src : Src) : (s.ok src).kept = s.kept := by simp [State.ok]
@[simp] theorem State.ok_landing (src : Src) : (s.ok src).landing = s.landing := by simp [State.ok]
@[simp] theorem State.ok_cmds (src : Src) : (s.ok src).cmds = s.cmds := by simp [State.ok]
@[simp] theorem State.ok_efts (src : Src) : (s.ok src).efts = s.efts := by simp [State.ok]
@[simp] theorem State.ok_xlt (src : Src) : (s.ok src).xlt = s.xlt := by simp [State.ok]
@[simp] theorem State.ok_evr (src : Src) : (s.ok src).evr = s.evr := by simp [State.ok]
@[simp] theorem State.ok_hlt (src : Src) : (s.ok src).hlt = s.hlt := by simp [State.ok]
@[simp] theorem State.ok_quiesce (src : Src) : (s.ok src).quiesce = s.quiesce := by simp [State.ok]
@[simp] theorem State.ok_med (src : Src) : (s.ok src).med = s.med := by simp [State.ok]
@[simp] theorem State.ok_cho (src : Src) : (s.ok src).cho = s.cho := by simp [State.ok]
@[simp] theorem State.ok_dzl (src : Src) : (s.ok src).dzl = s.dzl := by simp [State.ok]
@[simp] theorem State.ok_sec (src : Src) : (s.ok src).sec = s.sec := by simp [State.ok]
@[simp] theorem State.ok_boot (src : Src) : (s.ok src).boot = s.boot := by simp [State.ok]
@[simp] theorem State.ok_pwr (src : Src) : (s.ok src).pwr = s.pwr := by simp [State.ok]
@[simp] theorem State.ok_dram (src : Src) : (s.ok src).dram = s.dram := by simp [State.ok]
@[simp] theorem State.ok_snc (src : Src) : (s.ok src).snc = s.snc := by simp [State.ok]
@[simp] theorem State.ok_pins (src : Src) : (s.ok src).pins = s.pins := by simp [State.ok]
@[simp] theorem State.ok_freeIx (src : Src) : (s.ok src).freeIx = s.freeIx := by simp [State.ok]
@[simp] theorem State.ok_pending (src : Src) : (s.ok src).pending = s.pending := by simp [State.ok]
@[simp] theorem State.ok_rd (src : Src) (fr : Fld) : (s.ok src).rd fr = s.rd fr := by simp [State.rd, State.word]
@[simp] theorem State.ok_word (src : Src) (off : Nat) : (s.ok src).word off = s.word off := by simp [State.word]

/-! ## `err` -/

@[simp] theorem State.err_now (src : Src) (st : Status) : (s.err src st).now = s.now := by simp [State.err]
@[simp] theorem State.err_regs (src : Src) (st : Status) : (s.err src st).regs = s.regs := by simp [State.err]
@[simp] theorem State.err_latch (src : Src) (st : Status) : (s.err src st).latch = s.latch := by simp [State.err]
@[simp] theorem State.err_replies (src : Src) (st : Status) : (s.err src st).replies = s.replies := by simp [State.err]
@[simp] theorem State.err_rr (src : Src) (st : Status) : (s.err src st).rr = s.rr := by simp [State.err]
@[simp] theorem State.err_nss (src : Src) (st : Status) : (s.err src st).nss = s.nss := by simp [State.err]
@[simp] theorem State.err_zones (src : Src) (st : Status) : (s.err src st).zones = s.zones := by simp [State.err]
@[simp] theorem State.err_clutches (src : Src) (st : Status) : (s.err src st).clutches = s.clutches := by simp [State.err]
@[simp] theorem State.err_kept (src : Src) (st : Status) : (s.err src st).kept = s.kept := by simp [State.err]
@[simp] theorem State.err_landing (src : Src) (st : Status) : (s.err src st).landing = s.landing := by simp [State.err]
@[simp] theorem State.err_cmds (src : Src) (st : Status) : (s.err src st).cmds = s.cmds := by simp [State.err]
@[simp] theorem State.err_efts (src : Src) (st : Status) : (s.err src st).efts = s.efts := by simp [State.err]
@[simp] theorem State.err_xlt (src : Src) (st : Status) : (s.err src st).xlt = s.xlt := by simp [State.err]
@[simp] theorem State.err_evr (src : Src) (st : Status) : (s.err src st).evr = s.evr := by simp [State.err]
@[simp] theorem State.err_hlt (src : Src) (st : Status) : (s.err src st).hlt = s.hlt := by simp [State.err]
@[simp] theorem State.err_quiesce (src : Src) (st : Status) : (s.err src st).quiesce = s.quiesce := by simp [State.err]
@[simp] theorem State.err_med (src : Src) (st : Status) : (s.err src st).med = s.med := by simp [State.err]
@[simp] theorem State.err_cho (src : Src) (st : Status) : (s.err src st).cho = s.cho := by simp [State.err]
@[simp] theorem State.err_dzl (src : Src) (st : Status) : (s.err src st).dzl = s.dzl := by simp [State.err]
@[simp] theorem State.err_sec (src : Src) (st : Status) : (s.err src st).sec = s.sec := by simp [State.err]
@[simp] theorem State.err_boot (src : Src) (st : Status) : (s.err src st).boot = s.boot := by simp [State.err]
@[simp] theorem State.err_pwr (src : Src) (st : Status) : (s.err src st).pwr = s.pwr := by simp [State.err]
@[simp] theorem State.err_dram (src : Src) (st : Status) : (s.err src st).dram = s.dram := by simp [State.err]
@[simp] theorem State.err_snc (src : Src) (st : Status) : (s.err src st).snc = s.snc := by simp [State.err]
@[simp] theorem State.err_pins (src : Src) (st : Status) : (s.err src st).pins = s.pins := by simp [State.err]
@[simp] theorem State.err_freeIx (src : Src) (st : Status) : (s.err src st).freeIx = s.freeIx := by simp [State.err]
@[simp] theorem State.err_pending (src : Src) (st : Status) : (s.err src st).pending = s.pending := by simp [State.err]
@[simp] theorem State.err_rd (src : Src) (st : Status) (fr : Fld) : (s.err src st).rd fr = s.rd fr := by simp [State.rd, State.word]
@[simp] theorem State.err_word (src : Src) (st : Status) (off : Nat) : (s.err src st).word off = s.word off := by simp [State.word]

/-! ## `deliver` -/

@[simp] theorem State.deliver_now (n : Nat) : (s.deliver n).now = s.now := rfl
@[simp] theorem State.deliver_regs (n : Nat) : (s.deliver n).regs = s.regs := rfl
@[simp] theorem State.deliver_latch (n : Nat) : (s.deliver n).latch = s.latch := rfl
@[simp] theorem State.deliver_replies (n : Nat) : (s.deliver n).replies = s.replies := rfl
@[simp] theorem State.deliver_rr (n : Nat) : (s.deliver n).rr = s.rr := rfl
@[simp] theorem State.deliver_nss (n : Nat) : (s.deliver n).nss = s.nss := rfl
@[simp] theorem State.deliver_zones (n : Nat) : (s.deliver n).zones = s.zones := rfl
@[simp] theorem State.deliver_clutches (n : Nat) : (s.deliver n).clutches = s.clutches := rfl
@[simp] theorem State.deliver_kept (n : Nat) : (s.deliver n).kept = s.kept := rfl
@[simp] theorem State.deliver_landing (n : Nat) : (s.deliver n).landing = s.landing := rfl
@[simp] theorem State.deliver_cmds (n : Nat) : (s.deliver n).cmds = s.cmds := rfl
@[simp] theorem State.deliver_efts (n : Nat) : (s.deliver n).efts = s.efts := rfl
@[simp] theorem State.deliver_xlt (n : Nat) : (s.deliver n).xlt = s.xlt := rfl
@[simp] theorem State.deliver_evr (n : Nat) : (s.deliver n).evr = s.evr := rfl
@[simp] theorem State.deliver_hlt (n : Nat) : (s.deliver n).hlt = s.hlt := rfl
@[simp] theorem State.deliver_quiesce (n : Nat) : (s.deliver n).quiesce = s.quiesce := rfl
@[simp] theorem State.deliver_med (n : Nat) : (s.deliver n).med = s.med := rfl
@[simp] theorem State.deliver_cho (n : Nat) : (s.deliver n).cho = s.cho := rfl
@[simp] theorem State.deliver_dzl (n : Nat) : (s.deliver n).dzl = s.dzl := rfl
@[simp] theorem State.deliver_sec (n : Nat) : (s.deliver n).sec = s.sec := rfl
@[simp] theorem State.deliver_boot (n : Nat) : (s.deliver n).boot = s.boot := rfl
@[simp] theorem State.deliver_pwr (n : Nat) : (s.deliver n).pwr = s.pwr := rfl
@[simp] theorem State.deliver_dram (n : Nat) : (s.deliver n).dram = s.dram := rfl
@[simp] theorem State.deliver_snc (n : Nat) : (s.deliver n).snc = s.snc := rfl
@[simp] theorem State.deliver_pins (n : Nat) : (s.deliver n).pins = s.pins := rfl
@[simp] theorem State.deliver_freeIx (n : Nat) : (s.deliver n).freeIx = s.freeIx := rfl
@[simp] theorem State.deliver_pending (n : Nat) : (s.deliver n).pending = s.pending := rfl
@[simp] theorem State.deliver_rd (n : Nat) (fr : Fld) : (s.deliver n).rd fr = s.rd fr := by simp [State.rd, State.word]
@[simp] theorem State.deliver_word (n : Nat) (off : Nat) : (s.deliver n).word off = s.word off := by simp [State.word]

/-! ## `raise` -/

@[simp] theorem State.raise_now (n : Nat) (a : Aen) : (s.raise n a).now = s.now := by simp [State.raise]
@[simp] theorem State.raise_regs (n : Nat) (a : Aen) : (s.raise n a).regs = s.regs := by simp [State.raise]
@[simp] theorem State.raise_latch (n : Nat) (a : Aen) : (s.raise n a).latch = s.latch := by simp [State.raise]
@[simp] theorem State.raise_replies (n : Nat) (a : Aen) : (s.raise n a).replies = s.replies := by simp [State.raise]
@[simp] theorem State.raise_rr (n : Nat) (a : Aen) : (s.raise n a).rr = s.rr := by simp [State.raise]
@[simp] theorem State.raise_nss (n : Nat) (a : Aen) : (s.raise n a).nss = s.nss := by simp [State.raise]
@[simp] theorem State.raise_zones (n : Nat) (a : Aen) : (s.raise n a).zones = s.zones := by simp [State.raise]
@[simp] theorem State.raise_clutches (n : Nat) (a : Aen) : (s.raise n a).clutches = s.clutches := by simp [State.raise]
@[simp] theorem State.raise_kept (n : Nat) (a : Aen) : (s.raise n a).kept = s.kept := by simp [State.raise]
@[simp] theorem State.raise_landing (n : Nat) (a : Aen) : (s.raise n a).landing = s.landing := by simp [State.raise]
@[simp] theorem State.raise_cmds (n : Nat) (a : Aen) : (s.raise n a).cmds = s.cmds := by simp [State.raise]
@[simp] theorem State.raise_efts (n : Nat) (a : Aen) : (s.raise n a).efts = s.efts := by simp [State.raise]
@[simp] theorem State.raise_xlt (n : Nat) (a : Aen) : (s.raise n a).xlt = s.xlt := by simp [State.raise]
@[simp] theorem State.raise_evr (n : Nat) (a : Aen) : (s.raise n a).evr = s.evr := by simp [State.raise]
@[simp] theorem State.raise_hlt (n : Nat) (a : Aen) : (s.raise n a).hlt = s.hlt := by simp [State.raise]
@[simp] theorem State.raise_quiesce (n : Nat) (a : Aen) : (s.raise n a).quiesce = s.quiesce := by simp [State.raise]
@[simp] theorem State.raise_med (n : Nat) (a : Aen) : (s.raise n a).med = s.med := by simp [State.raise]
@[simp] theorem State.raise_cho (n : Nat) (a : Aen) : (s.raise n a).cho = s.cho := by simp [State.raise]
@[simp] theorem State.raise_dzl (n : Nat) (a : Aen) : (s.raise n a).dzl = s.dzl := by simp [State.raise]
@[simp] theorem State.raise_sec (n : Nat) (a : Aen) : (s.raise n a).sec = s.sec := by simp [State.raise]
@[simp] theorem State.raise_boot (n : Nat) (a : Aen) : (s.raise n a).boot = s.boot := by simp [State.raise]
@[simp] theorem State.raise_pwr (n : Nat) (a : Aen) : (s.raise n a).pwr = s.pwr := by simp [State.raise]
@[simp] theorem State.raise_dram (n : Nat) (a : Aen) : (s.raise n a).dram = s.dram := by simp [State.raise]
@[simp] theorem State.raise_snc (n : Nat) (a : Aen) : (s.raise n a).snc = s.snc := by simp [State.raise]
@[simp] theorem State.raise_pins (n : Nat) (a : Aen) : (s.raise n a).pins = s.pins := by simp [State.raise]
@[simp] theorem State.raise_freeIx (n : Nat) (a : Aen) : (s.raise n a).freeIx = s.freeIx := by simp [State.raise]
@[simp] theorem State.raise_pending (n : Nat) (a : Aen) : (s.raise n a).pending = s.pending := by simp [State.raise]
@[simp] theorem State.raise_rd (n : Nat) (a : Aen) (fr : Fld) : (s.raise n a).rd fr = s.rd fr := by simp [State.rd, State.word]
@[simp] theorem State.raise_word (n : Nat) (a : Aen) (off : Nat) : (s.raise n a).word off = s.word off := by simp [State.word]

/-! ## `raiseIf` -/

@[simp] theorem State.raiseIf_now (n b : Nat) (a : Aen) : (s.raiseIf n b a).now = s.now := by unfold State.raiseIf; split <;> simp
@[simp] theorem State.raiseIf_regs (n b : Nat) (a : Aen) : (s.raiseIf n b a).regs = s.regs := by unfold State.raiseIf; split <;> simp
@[simp] theorem State.raiseIf_latch (n b : Nat) (a : Aen) : (s.raiseIf n b a).latch = s.latch := by unfold State.raiseIf; split <;> simp
@[simp] theorem State.raiseIf_replies (n b : Nat) (a : Aen) : (s.raiseIf n b a).replies = s.replies := by unfold State.raiseIf; split <;> simp
@[simp] theorem State.raiseIf_rr (n b : Nat) (a : Aen) : (s.raiseIf n b a).rr = s.rr := by unfold State.raiseIf; split <;> simp
@[simp] theorem State.raiseIf_nss (n b : Nat) (a : Aen) : (s.raiseIf n b a).nss = s.nss := by unfold State.raiseIf; split <;> simp
@[simp] theorem State.raiseIf_zones (n b : Nat) (a : Aen) : (s.raiseIf n b a).zones = s.zones := by unfold State.raiseIf; split <;> simp
@[simp] theorem State.raiseIf_clutches (n b : Nat) (a : Aen) : (s.raiseIf n b a).clutches = s.clutches := by unfold State.raiseIf; split <;> simp
@[simp] theorem State.raiseIf_kept (n b : Nat) (a : Aen) : (s.raiseIf n b a).kept = s.kept := by unfold State.raiseIf; split <;> simp
@[simp] theorem State.raiseIf_landing (n b : Nat) (a : Aen) : (s.raiseIf n b a).landing = s.landing := by unfold State.raiseIf; split <;> simp
@[simp] theorem State.raiseIf_cmds (n b : Nat) (a : Aen) : (s.raiseIf n b a).cmds = s.cmds := by unfold State.raiseIf; split <;> simp
@[simp] theorem State.raiseIf_efts (n b : Nat) (a : Aen) : (s.raiseIf n b a).efts = s.efts := by unfold State.raiseIf; split <;> simp
@[simp] theorem State.raiseIf_xlt (n b : Nat) (a : Aen) : (s.raiseIf n b a).xlt = s.xlt := by unfold State.raiseIf; split <;> simp
@[simp] theorem State.raiseIf_evr (n b : Nat) (a : Aen) : (s.raiseIf n b a).evr = s.evr := by unfold State.raiseIf; split <;> simp
@[simp] theorem State.raiseIf_hlt (n b : Nat) (a : Aen) : (s.raiseIf n b a).hlt = s.hlt := by unfold State.raiseIf; split <;> simp
@[simp] theorem State.raiseIf_quiesce (n b : Nat) (a : Aen) : (s.raiseIf n b a).quiesce = s.quiesce := by unfold State.raiseIf; split <;> simp
@[simp] theorem State.raiseIf_med (n b : Nat) (a : Aen) : (s.raiseIf n b a).med = s.med := by unfold State.raiseIf; split <;> simp
@[simp] theorem State.raiseIf_cho (n b : Nat) (a : Aen) : (s.raiseIf n b a).cho = s.cho := by unfold State.raiseIf; split <;> simp
@[simp] theorem State.raiseIf_dzl (n b : Nat) (a : Aen) : (s.raiseIf n b a).dzl = s.dzl := by unfold State.raiseIf; split <;> simp
@[simp] theorem State.raiseIf_sec (n b : Nat) (a : Aen) : (s.raiseIf n b a).sec = s.sec := by unfold State.raiseIf; split <;> simp
@[simp] theorem State.raiseIf_boot (n b : Nat) (a : Aen) : (s.raiseIf n b a).boot = s.boot := by unfold State.raiseIf; split <;> simp
@[simp] theorem State.raiseIf_pwr (n b : Nat) (a : Aen) : (s.raiseIf n b a).pwr = s.pwr := by unfold State.raiseIf; split <;> simp
@[simp] theorem State.raiseIf_dram (n b : Nat) (a : Aen) : (s.raiseIf n b a).dram = s.dram := by unfold State.raiseIf; split <;> simp
@[simp] theorem State.raiseIf_snc (n b : Nat) (a : Aen) : (s.raiseIf n b a).snc = s.snc := by unfold State.raiseIf; split <;> simp
@[simp] theorem State.raiseIf_pins (n b : Nat) (a : Aen) : (s.raiseIf n b a).pins = s.pins := by unfold State.raiseIf; split <;> simp
@[simp] theorem State.raiseIf_freeIx (n b : Nat) (a : Aen) : (s.raiseIf n b a).freeIx = s.freeIx := by unfold State.raiseIf; split <;> simp
@[simp] theorem State.raiseIf_pending (n b : Nat) (a : Aen) : (s.raiseIf n b a).pending = s.pending := by unfold State.raiseIf; split <;> simp
@[simp] theorem State.raiseIf_rd (n b : Nat) (a : Aen) (fr : Fld) : (s.raiseIf n b a).rd fr = s.rd fr := by simp [State.rd, State.word]
@[simp] theorem State.raiseIf_word (n b : Nat) (a : Aen) (off : Nat) : (s.raiseIf n b a).word off = s.word off := by simp [State.word]

/-! ## `logRead` -/

@[simp] theorem State.logRead_now (n g : Nat) (r : Bool) : (s.logRead n g r).now = s.now := by unfold State.logRead; split <;> simp
@[simp] theorem State.logRead_regs (n g : Nat) (r : Bool) : (s.logRead n g r).regs = s.regs := by unfold State.logRead; split <;> simp
@[simp] theorem State.logRead_latch (n g : Nat) (r : Bool) : (s.logRead n g r).latch = s.latch := by unfold State.logRead; split <;> simp
@[simp] theorem State.logRead_replies (n g : Nat) (r : Bool) : (s.logRead n g r).replies = s.replies := by unfold State.logRead; split <;> simp
@[simp] theorem State.logRead_rr (n g : Nat) (r : Bool) : (s.logRead n g r).rr = s.rr := by unfold State.logRead; split <;> simp
@[simp] theorem State.logRead_nss (n g : Nat) (r : Bool) : (s.logRead n g r).nss = s.nss := by unfold State.logRead; split <;> simp
@[simp] theorem State.logRead_zones (n g : Nat) (r : Bool) : (s.logRead n g r).zones = s.zones := by unfold State.logRead; split <;> simp
@[simp] theorem State.logRead_clutches (n g : Nat) (r : Bool) : (s.logRead n g r).clutches = s.clutches := by unfold State.logRead; split <;> simp
@[simp] theorem State.logRead_kept (n g : Nat) (r : Bool) : (s.logRead n g r).kept = s.kept := by unfold State.logRead; split <;> simp
@[simp] theorem State.logRead_landing (n g : Nat) (r : Bool) : (s.logRead n g r).landing = s.landing := by unfold State.logRead; split <;> simp
@[simp] theorem State.logRead_cmds (n g : Nat) (r : Bool) : (s.logRead n g r).cmds = s.cmds := by unfold State.logRead; split <;> simp
@[simp] theorem State.logRead_efts (n g : Nat) (r : Bool) : (s.logRead n g r).efts = s.efts := by unfold State.logRead; split <;> simp
@[simp] theorem State.logRead_xlt (n g : Nat) (r : Bool) : (s.logRead n g r).xlt = s.xlt := by unfold State.logRead; split <;> simp
@[simp] theorem State.logRead_evr (n g : Nat) (r : Bool) : (s.logRead n g r).evr = s.evr := by unfold State.logRead; split <;> simp
@[simp] theorem State.logRead_hlt (n g : Nat) (r : Bool) : (s.logRead n g r).hlt = s.hlt := by unfold State.logRead; split <;> simp
@[simp] theorem State.logRead_quiesce (n g : Nat) (r : Bool) : (s.logRead n g r).quiesce = s.quiesce := by unfold State.logRead; split <;> simp
@[simp] theorem State.logRead_med (n g : Nat) (r : Bool) : (s.logRead n g r).med = s.med := by unfold State.logRead; split <;> simp
@[simp] theorem State.logRead_cho (n g : Nat) (r : Bool) : (s.logRead n g r).cho = s.cho := by unfold State.logRead; split <;> simp
@[simp] theorem State.logRead_dzl (n g : Nat) (r : Bool) : (s.logRead n g r).dzl = s.dzl := by unfold State.logRead; split <;> simp
@[simp] theorem State.logRead_sec (n g : Nat) (r : Bool) : (s.logRead n g r).sec = s.sec := by unfold State.logRead; split <;> simp
@[simp] theorem State.logRead_boot (n g : Nat) (r : Bool) : (s.logRead n g r).boot = s.boot := by unfold State.logRead; split <;> simp
@[simp] theorem State.logRead_pwr (n g : Nat) (r : Bool) : (s.logRead n g r).pwr = s.pwr := by unfold State.logRead; split <;> simp
@[simp] theorem State.logRead_dram (n g : Nat) (r : Bool) : (s.logRead n g r).dram = s.dram := by unfold State.logRead; split <;> simp
@[simp] theorem State.logRead_snc (n g : Nat) (r : Bool) : (s.logRead n g r).snc = s.snc := by unfold State.logRead; split <;> simp
@[simp] theorem State.logRead_pins (n g : Nat) (r : Bool) : (s.logRead n g r).pins = s.pins := by unfold State.logRead; split <;> simp
@[simp] theorem State.logRead_freeIx (n g : Nat) (r : Bool) : (s.logRead n g r).freeIx = s.freeIx := by unfold State.logRead; split <;> simp
@[simp] theorem State.logRead_pending (n g : Nat) (r : Bool) : (s.logRead n g r).pending = s.pending := by unfold State.logRead; split <;> simp
@[simp] theorem State.logRead_rd (n g : Nat) (r : Bool) (fr : Fld) : (s.logRead n g r).rd fr = s.rd fr := by simp [State.rd, State.word]
@[simp] theorem State.logRead_word (n g : Nat) (r : Bool) (off : Nat) : (s.logRead n g r).word off = s.word off := by simp [State.word]

/-! ## `zoneNotice` -/

@[simp] theorem State.zoneNotice_now (n : Ns) (z : Nat) : (s.zoneNotice n z).now = s.now := by unfold State.zoneNotice; dsimp only; split <;> simp
@[simp] theorem State.zoneNotice_regs (n : Ns) (z : Nat) : (s.zoneNotice n z).regs = s.regs := by unfold State.zoneNotice; dsimp only; split <;> simp
@[simp] theorem State.zoneNotice_latch (n : Ns) (z : Nat) : (s.zoneNotice n z).latch = s.latch := by unfold State.zoneNotice; dsimp only; split <;> simp
@[simp] theorem State.zoneNotice_replies (n : Ns) (z : Nat) : (s.zoneNotice n z).replies = s.replies := by unfold State.zoneNotice; dsimp only; split <;> simp
@[simp] theorem State.zoneNotice_rr (n : Ns) (z : Nat) : (s.zoneNotice n z).rr = s.rr := by unfold State.zoneNotice; dsimp only; split <;> simp
@[simp] theorem State.zoneNotice_nss (n : Ns) (z : Nat) : (s.zoneNotice n z).nss = s.nss := by unfold State.zoneNotice; dsimp only; split <;> simp
@[simp] theorem State.zoneNotice_zones (n : Ns) (z : Nat) : (s.zoneNotice n z).zones = s.zones := by unfold State.zoneNotice; dsimp only; split <;> simp
@[simp] theorem State.zoneNotice_clutches (n : Ns) (z : Nat) : (s.zoneNotice n z).clutches = s.clutches := by unfold State.zoneNotice; dsimp only; split <;> simp
@[simp] theorem State.zoneNotice_kept (n : Ns) (z : Nat) : (s.zoneNotice n z).kept = s.kept := by unfold State.zoneNotice; dsimp only; split <;> simp
@[simp] theorem State.zoneNotice_landing (n : Ns) (z : Nat) : (s.zoneNotice n z).landing = s.landing := by unfold State.zoneNotice; dsimp only; split <;> simp
@[simp] theorem State.zoneNotice_cmds (n : Ns) (z : Nat) : (s.zoneNotice n z).cmds = s.cmds := by unfold State.zoneNotice; dsimp only; split <;> simp
@[simp] theorem State.zoneNotice_efts (n : Ns) (z : Nat) : (s.zoneNotice n z).efts = s.efts := by unfold State.zoneNotice; dsimp only; split <;> simp
@[simp] theorem State.zoneNotice_xlt (n : Ns) (z : Nat) : (s.zoneNotice n z).xlt = s.xlt := by unfold State.zoneNotice; dsimp only; split <;> simp
@[simp] theorem State.zoneNotice_evr (n : Ns) (z : Nat) : (s.zoneNotice n z).evr = s.evr := by unfold State.zoneNotice; dsimp only; split <;> simp
@[simp] theorem State.zoneNotice_hlt (n : Ns) (z : Nat) : (s.zoneNotice n z).hlt = s.hlt := by unfold State.zoneNotice; dsimp only; split <;> simp
@[simp] theorem State.zoneNotice_quiesce (n : Ns) (z : Nat) : (s.zoneNotice n z).quiesce = s.quiesce := by unfold State.zoneNotice; dsimp only; split <;> simp
@[simp] theorem State.zoneNotice_med (n : Ns) (z : Nat) : (s.zoneNotice n z).med = s.med := by unfold State.zoneNotice; dsimp only; split <;> simp
@[simp] theorem State.zoneNotice_cho (n : Ns) (z : Nat) : (s.zoneNotice n z).cho = s.cho := by unfold State.zoneNotice; dsimp only; split <;> simp
@[simp] theorem State.zoneNotice_dzl (n : Ns) (z : Nat) : (s.zoneNotice n z).dzl = s.dzl := by unfold State.zoneNotice; dsimp only; split <;> simp
@[simp] theorem State.zoneNotice_sec (n : Ns) (z : Nat) : (s.zoneNotice n z).sec = s.sec := by unfold State.zoneNotice; dsimp only; split <;> simp
@[simp] theorem State.zoneNotice_boot (n : Ns) (z : Nat) : (s.zoneNotice n z).boot = s.boot := by unfold State.zoneNotice; dsimp only; split <;> simp
@[simp] theorem State.zoneNotice_pwr (n : Ns) (z : Nat) : (s.zoneNotice n z).pwr = s.pwr := by unfold State.zoneNotice; dsimp only; split <;> simp
@[simp] theorem State.zoneNotice_dram (n : Ns) (z : Nat) : (s.zoneNotice n z).dram = s.dram := by unfold State.zoneNotice; dsimp only; split <;> simp
@[simp] theorem State.zoneNotice_snc (n : Ns) (z : Nat) : (s.zoneNotice n z).snc = s.snc := by unfold State.zoneNotice; dsimp only; split <;> simp
@[simp] theorem State.zoneNotice_pins (n : Ns) (z : Nat) : (s.zoneNotice n z).pins = s.pins := by unfold State.zoneNotice; dsimp only; split <;> simp
@[simp] theorem State.zoneNotice_freeIx (n : Ns) (z : Nat) : (s.zoneNotice n z).freeIx = s.freeIx := by unfold State.zoneNotice; dsimp only; split <;> simp
@[simp] theorem State.zoneNotice_pending (n : Ns) (z : Nat) : (s.zoneNotice n z).pending = s.pending := by unfold State.zoneNotice; dsimp only; split <;> simp
@[simp] theorem State.zoneNotice_rd (n : Ns) (z : Nat) (fr : Fld) : (s.zoneNotice n z).rd fr = s.rd fr := by simp [State.rd, State.word]
@[simp] theorem State.zoneNotice_word (n : Ns) (z : Nat) (off : Nat) : (s.zoneNotice n z).word off = s.word off := by simp [State.word]

/-! ## A fold over functions -/

theorem foldl_same {α β : Type} (g : State → β) (f : State → α → State) (h : ∀ t a, g (f t a) = g t) :
    ∀ (l : List α) (t : State), g (l.foldl f t) = g t
  | [], _ => rfl
  | a :: r, t => by simp only [List.foldl_cons]; rw [foldl_same g f h r, h]

/-! ## `refreshCrit` -/

@[simp] theorem State.refreshCrit_now  : (s.refreshCrit).now = s.now := by
  unfold State.refreshCrit; dsimp only; split
  · rfl
  · split
    · simp
    · rw [foldl_same (·.now) _ (by intro t a; split <;> simp)]; simp
@[simp] theorem State.refreshCrit_latch  : (s.refreshCrit).latch = s.latch := by
  unfold State.refreshCrit; dsimp only; split
  · rfl
  · split
    · simp
    · rw [foldl_same (·.latch) _ (by intro t a; split <;> simp)]; simp
@[simp] theorem State.refreshCrit_replies  : (s.refreshCrit).replies = s.replies := by
  unfold State.refreshCrit; dsimp only; split
  · rfl
  · split
    · simp
    · rw [foldl_same (·.replies) _ (by intro t a; split <;> simp)]; simp
@[simp] theorem State.refreshCrit_rr  : (s.refreshCrit).rr = s.rr := by
  unfold State.refreshCrit; dsimp only; split
  · rfl
  · split
    · simp
    · rw [foldl_same (·.rr) _ (by intro t a; split <;> simp)]; simp
@[simp] theorem State.refreshCrit_nss  : (s.refreshCrit).nss = s.nss := by
  unfold State.refreshCrit; dsimp only; split
  · rfl
  · split
    · simp
    · rw [foldl_same (·.nss) _ (by intro t a; split <;> simp)]; simp
@[simp] theorem State.refreshCrit_zones  : (s.refreshCrit).zones = s.zones := by
  unfold State.refreshCrit; dsimp only; split
  · rfl
  · split
    · simp
    · rw [foldl_same (·.zones) _ (by intro t a; split <;> simp)]; simp
@[simp] theorem State.refreshCrit_clutches  : (s.refreshCrit).clutches = s.clutches := by
  unfold State.refreshCrit; dsimp only; split
  · rfl
  · split
    · simp
    · rw [foldl_same (·.clutches) _ (by intro t a; split <;> simp)]; simp
@[simp] theorem State.refreshCrit_kept  : (s.refreshCrit).kept = s.kept := by
  unfold State.refreshCrit; dsimp only; split
  · rfl
  · split
    · simp
    · rw [foldl_same (·.kept) _ (by intro t a; split <;> simp)]; simp
@[simp] theorem State.refreshCrit_landing  : (s.refreshCrit).landing = s.landing := by
  unfold State.refreshCrit; dsimp only; split
  · rfl
  · split
    · simp
    · rw [foldl_same (·.landing) _ (by intro t a; split <;> simp)]; simp
@[simp] theorem State.refreshCrit_cmds  : (s.refreshCrit).cmds = s.cmds := by
  unfold State.refreshCrit; dsimp only; split
  · rfl
  · split
    · simp
    · rw [foldl_same (·.cmds) _ (by intro t a; split <;> simp)]; simp
@[simp] theorem State.refreshCrit_efts  : (s.refreshCrit).efts = s.efts := by
  unfold State.refreshCrit; dsimp only; split
  · rfl
  · split
    · simp
    · rw [foldl_same (·.efts) _ (by intro t a; split <;> simp)]; simp
@[simp] theorem State.refreshCrit_xlt  : (s.refreshCrit).xlt = s.xlt := by
  unfold State.refreshCrit; dsimp only; split
  · rfl
  · split
    · simp
    · rw [foldl_same (·.xlt) _ (by intro t a; split <;> simp)]; simp
@[simp] theorem State.refreshCrit_evr  : (s.refreshCrit).evr = s.evr := by
  unfold State.refreshCrit; dsimp only; split
  · rfl
  · split
    · simp
    · rw [foldl_same (·.evr) _ (by intro t a; split <;> simp)]; simp
@[simp] theorem State.refreshCrit_quiesce  : (s.refreshCrit).quiesce = s.quiesce := by
  unfold State.refreshCrit; dsimp only; split
  · rfl
  · split
    · simp
    · rw [foldl_same (·.quiesce) _ (by intro t a; split <;> simp)]; simp
@[simp] theorem State.refreshCrit_med  : (s.refreshCrit).med = s.med := by
  unfold State.refreshCrit; dsimp only; split
  · rfl
  · split
    · simp
    · rw [foldl_same (·.med) _ (by intro t a; split <;> simp)]; simp
@[simp] theorem State.refreshCrit_cho  : (s.refreshCrit).cho = s.cho := by
  unfold State.refreshCrit; dsimp only; split
  · rfl
  · split
    · simp
    · rw [foldl_same (·.cho) _ (by intro t a; split <;> simp)]; simp
@[simp] theorem State.refreshCrit_dzl  : (s.refreshCrit).dzl = s.dzl := by
  unfold State.refreshCrit; dsimp only; split
  · rfl
  · split
    · simp
    · rw [foldl_same (·.dzl) _ (by intro t a; split <;> simp)]; simp
@[simp] theorem State.refreshCrit_sec  : (s.refreshCrit).sec = s.sec := by
  unfold State.refreshCrit; dsimp only; split
  · rfl
  · split
    · simp
    · rw [foldl_same (·.sec) _ (by intro t a; split <;> simp)]; simp
@[simp] theorem State.refreshCrit_boot  : (s.refreshCrit).boot = s.boot := by
  unfold State.refreshCrit; dsimp only; split
  · rfl
  · split
    · simp
    · rw [foldl_same (·.boot) _ (by intro t a; split <;> simp)]; simp
@[simp] theorem State.refreshCrit_pwr  : (s.refreshCrit).pwr = s.pwr := by
  unfold State.refreshCrit; dsimp only; split
  · rfl
  · split
    · simp
    · rw [foldl_same (·.pwr) _ (by intro t a; split <;> simp)]; simp
@[simp] theorem State.refreshCrit_dram  : (s.refreshCrit).dram = s.dram := by
  unfold State.refreshCrit; dsimp only; split
  · rfl
  · split
    · simp
    · rw [foldl_same (·.dram) _ (by intro t a; split <;> simp)]; simp
@[simp] theorem State.refreshCrit_snc  : (s.refreshCrit).snc = s.snc := by
  unfold State.refreshCrit; dsimp only; split
  · rfl
  · split
    · simp
    · rw [foldl_same (·.snc) _ (by intro t a; split <;> simp)]; simp
@[simp] theorem State.refreshCrit_pins  : (s.refreshCrit).pins = s.pins := by
  unfold State.refreshCrit; dsimp only; split
  · rfl
  · split
    · simp
    · rw [foldl_same (·.pins) _ (by intro t a; split <;> simp)]; simp
@[simp] theorem State.refreshCrit_freeIx  : (s.refreshCrit).freeIx = s.freeIx := by
  unfold State.refreshCrit; dsimp only; split
  · rfl
  · split
    · simp
    · rw [foldl_same (·.freeIx) _ (by intro t a; split <;> simp)]; simp
@[simp] theorem State.refreshCrit_pending  : (s.refreshCrit).pending = s.pending := by
  unfold State.refreshCrit; dsimp only; split
  · rfl
  · split
    · simp
    · rw [foldl_same (·.pending) _ (by intro t a; split <;> simp)]; simp

/-! ## `setMode` -/

@[simp] theorem State.setMode_now (m : Nat) (r : Bool) : (s.setMode m r).now = s.now := by
  unfold State.setMode; dsimp only; split
  · rfl
  · rw [State.refreshCrit_now]; split
    · rw [foldl_same (·.now) _ (by intro t a; simp)]; split <;> simp
    · split <;> simp
@[simp] theorem State.setMode_latch (m : Nat) (r : Bool) : (s.setMode m r).latch = s.latch := by
  unfold State.setMode; dsimp only; split
  · rfl
  · rw [State.refreshCrit_latch]; split
    · rw [foldl_same (·.latch) _ (by intro t a; simp)]; split <;> simp
    · split <;> simp
@[simp] theorem State.setMode_replies (m : Nat) (r : Bool) : (s.setMode m r).replies = s.replies := by
  unfold State.setMode; dsimp only; split
  · rfl
  · rw [State.refreshCrit_replies]; split
    · rw [foldl_same (·.replies) _ (by intro t a; simp)]; split <;> simp
    · split <;> simp
@[simp] theorem State.setMode_rr (m : Nat) (r : Bool) : (s.setMode m r).rr = s.rr := by
  unfold State.setMode; dsimp only; split
  · rfl
  · rw [State.refreshCrit_rr]; split
    · rw [foldl_same (·.rr) _ (by intro t a; simp)]; split <;> simp
    · split <;> simp
@[simp] theorem State.setMode_nss (m : Nat) (r : Bool) : (s.setMode m r).nss = s.nss := by
  unfold State.setMode; dsimp only; split
  · rfl
  · rw [State.refreshCrit_nss]; split
    · rw [foldl_same (·.nss) _ (by intro t a; simp)]; split <;> simp
    · split <;> simp
@[simp] theorem State.setMode_zones (m : Nat) (r : Bool) : (s.setMode m r).zones = s.zones := by
  unfold State.setMode; dsimp only; split
  · rfl
  · rw [State.refreshCrit_zones]; split
    · rw [foldl_same (·.zones) _ (by intro t a; simp)]; split <;> simp
    · split <;> simp
@[simp] theorem State.setMode_clutches (m : Nat) (r : Bool) : (s.setMode m r).clutches = s.clutches := by
  unfold State.setMode; dsimp only; split
  · rfl
  · rw [State.refreshCrit_clutches]; split
    · rw [foldl_same (·.clutches) _ (by intro t a; simp)]; split <;> simp
    · split <;> simp
@[simp] theorem State.setMode_kept (m : Nat) (r : Bool) : (s.setMode m r).kept = s.kept := by
  unfold State.setMode; dsimp only; split
  · rfl
  · rw [State.refreshCrit_kept]; split
    · rw [foldl_same (·.kept) _ (by intro t a; simp)]; split <;> simp
    · split <;> simp
@[simp] theorem State.setMode_landing (m : Nat) (r : Bool) : (s.setMode m r).landing = s.landing := by
  unfold State.setMode; dsimp only; split
  · rfl
  · rw [State.refreshCrit_landing]; split
    · rw [foldl_same (·.landing) _ (by intro t a; simp)]; split <;> simp
    · split <;> simp
@[simp] theorem State.setMode_cmds (m : Nat) (r : Bool) : (s.setMode m r).cmds = s.cmds := by
  unfold State.setMode; dsimp only; split
  · rfl
  · rw [State.refreshCrit_cmds]; split
    · rw [foldl_same (·.cmds) _ (by intro t a; simp)]; split <;> simp
    · split <;> simp
@[simp] theorem State.setMode_efts (m : Nat) (r : Bool) : (s.setMode m r).efts = s.efts := by
  unfold State.setMode; dsimp only; split
  · rfl
  · rw [State.refreshCrit_efts]; split
    · rw [foldl_same (·.efts) _ (by intro t a; simp)]; split <;> simp
    · split <;> simp
@[simp] theorem State.setMode_xlt (m : Nat) (r : Bool) : (s.setMode m r).xlt = s.xlt := by
  unfold State.setMode; dsimp only; split
  · rfl
  · rw [State.refreshCrit_xlt]; split
    · rw [foldl_same (·.xlt) _ (by intro t a; simp)]; split <;> simp
    · split <;> simp
@[simp] theorem State.setMode_quiesce (m : Nat) (r : Bool) : (s.setMode m r).quiesce = s.quiesce := by
  unfold State.setMode; dsimp only; split
  · rfl
  · rw [State.refreshCrit_quiesce]; split
    · rw [foldl_same (·.quiesce) _ (by intro t a; simp)]; split <;> simp
    · split <;> simp
@[simp] theorem State.setMode_med (m : Nat) (r : Bool) : (s.setMode m r).med = s.med := by
  unfold State.setMode; dsimp only; split
  · rfl
  · rw [State.refreshCrit_med]; split
    · rw [foldl_same (·.med) _ (by intro t a; simp)]; split <;> simp
    · split <;> simp
@[simp] theorem State.setMode_cho (m : Nat) (r : Bool) : (s.setMode m r).cho = s.cho := by
  unfold State.setMode; dsimp only; split
  · rfl
  · rw [State.refreshCrit_cho]; split
    · rw [foldl_same (·.cho) _ (by intro t a; simp)]; split <;> simp
    · split <;> simp
@[simp] theorem State.setMode_dzl (m : Nat) (r : Bool) : (s.setMode m r).dzl = s.dzl := by
  unfold State.setMode; dsimp only; split
  · rfl
  · rw [State.refreshCrit_dzl]; split
    · rw [foldl_same (·.dzl) _ (by intro t a; simp)]; split <;> simp
    · split <;> simp
@[simp] theorem State.setMode_sec (m : Nat) (r : Bool) : (s.setMode m r).sec = s.sec := by
  unfold State.setMode; dsimp only; split
  · rfl
  · rw [State.refreshCrit_sec]; split
    · rw [foldl_same (·.sec) _ (by intro t a; simp)]; split <;> simp
    · split <;> simp
@[simp] theorem State.setMode_boot (m : Nat) (r : Bool) : (s.setMode m r).boot = s.boot := by
  unfold State.setMode; dsimp only; split
  · rfl
  · rw [State.refreshCrit_boot]; split
    · rw [foldl_same (·.boot) _ (by intro t a; simp)]; split <;> simp
    · split <;> simp
@[simp] theorem State.setMode_pwr (m : Nat) (r : Bool) : (s.setMode m r).pwr = s.pwr := by
  unfold State.setMode; dsimp only; split
  · rfl
  · rw [State.refreshCrit_pwr]; split
    · rw [foldl_same (·.pwr) _ (by intro t a; simp)]; split <;> simp
    · split <;> simp
@[simp] theorem State.setMode_dram (m : Nat) (r : Bool) : (s.setMode m r).dram = s.dram := by
  unfold State.setMode; dsimp only; split
  · rfl
  · rw [State.refreshCrit_dram]; split
    · rw [foldl_same (·.dram) _ (by intro t a; simp)]; split <;> simp
    · split <;> simp
@[simp] theorem State.setMode_snc (m : Nat) (r : Bool) : (s.setMode m r).snc = s.snc := by
  unfold State.setMode; dsimp only; split
  · rfl
  · rw [State.refreshCrit_snc]; split
    · rw [foldl_same (·.snc) _ (by intro t a; simp)]; split <;> simp
    · split <;> simp
@[simp] theorem State.setMode_pins (m : Nat) (r : Bool) : (s.setMode m r).pins = s.pins := by
  unfold State.setMode; dsimp only; split
  · rfl
  · rw [State.refreshCrit_pins]; split
    · rw [foldl_same (·.pins) _ (by intro t a; simp)]; split <;> simp
    · split <;> simp
@[simp] theorem State.setMode_freeIx (m : Nat) (r : Bool) : (s.setMode m r).freeIx = s.freeIx := by
  unfold State.setMode; dsimp only; split
  · rfl
  · rw [State.refreshCrit_freeIx]; split
    · rw [foldl_same (·.freeIx) _ (by intro t a; simp)]; split <;> simp
    · split <;> simp
@[simp] theorem State.setMode_pending (m : Nat) (r : Bool) : (s.setMode m r).pending = s.pending := by
  unfold State.setMode; dsimp only; split
  · rfl
  · rw [State.refreshCrit_pending]; split
    · rw [foldl_same (·.pending) _ (by intro t a; simp)]; split <;> simp
    · split <;> simp

/-! ## `degrade` -/

@[simp] theorem State.degrade_now (b : Nat) : (s.degrade b).now = s.now := by unfold State.degrade; dsimp only; split <;> simp
@[simp] theorem State.degrade_latch (b : Nat) : (s.degrade b).latch = s.latch := by unfold State.degrade; dsimp only; split <;> simp
@[simp] theorem State.degrade_replies (b : Nat) : (s.degrade b).replies = s.replies := by unfold State.degrade; dsimp only; split <;> simp
@[simp] theorem State.degrade_rr (b : Nat) : (s.degrade b).rr = s.rr := by unfold State.degrade; dsimp only; split <;> simp
@[simp] theorem State.degrade_nss (b : Nat) : (s.degrade b).nss = s.nss := by unfold State.degrade; dsimp only; split <;> simp
@[simp] theorem State.degrade_zones (b : Nat) : (s.degrade b).zones = s.zones := by unfold State.degrade; dsimp only; split <;> simp
@[simp] theorem State.degrade_clutches (b : Nat) : (s.degrade b).clutches = s.clutches := by unfold State.degrade; dsimp only; split <;> simp
@[simp] theorem State.degrade_kept (b : Nat) : (s.degrade b).kept = s.kept := by unfold State.degrade; dsimp only; split <;> simp
@[simp] theorem State.degrade_landing (b : Nat) : (s.degrade b).landing = s.landing := by unfold State.degrade; dsimp only; split <;> simp
@[simp] theorem State.degrade_cmds (b : Nat) : (s.degrade b).cmds = s.cmds := by unfold State.degrade; dsimp only; split <;> simp
@[simp] theorem State.degrade_efts (b : Nat) : (s.degrade b).efts = s.efts := by unfold State.degrade; dsimp only; split <;> simp
@[simp] theorem State.degrade_xlt (b : Nat) : (s.degrade b).xlt = s.xlt := by unfold State.degrade; dsimp only; split <;> simp
@[simp] theorem State.degrade_quiesce (b : Nat) : (s.degrade b).quiesce = s.quiesce := by unfold State.degrade; dsimp only; split <;> simp
@[simp] theorem State.degrade_med (b : Nat) : (s.degrade b).med = s.med := by unfold State.degrade; dsimp only; split <;> simp
@[simp] theorem State.degrade_cho (b : Nat) : (s.degrade b).cho = s.cho := by unfold State.degrade; dsimp only; split <;> simp
@[simp] theorem State.degrade_dzl (b : Nat) : (s.degrade b).dzl = s.dzl := by unfold State.degrade; dsimp only; split <;> simp
@[simp] theorem State.degrade_sec (b : Nat) : (s.degrade b).sec = s.sec := by unfold State.degrade; dsimp only; split <;> simp
@[simp] theorem State.degrade_boot (b : Nat) : (s.degrade b).boot = s.boot := by unfold State.degrade; dsimp only; split <;> simp
@[simp] theorem State.degrade_pwr (b : Nat) : (s.degrade b).pwr = s.pwr := by unfold State.degrade; dsimp only; split <;> simp
@[simp] theorem State.degrade_dram (b : Nat) : (s.degrade b).dram = s.dram := by unfold State.degrade; dsimp only; split <;> simp
@[simp] theorem State.degrade_snc (b : Nat) : (s.degrade b).snc = s.snc := by unfold State.degrade; dsimp only; split <;> simp
@[simp] theorem State.degrade_pins (b : Nat) : (s.degrade b).pins = s.pins := by unfold State.degrade; dsimp only; split <;> simp
@[simp] theorem State.degrade_freeIx (b : Nat) : (s.degrade b).freeIx = s.freeIx := by unfold State.degrade; dsimp only; split <;> simp
@[simp] theorem State.degrade_pending (b : Nat) : (s.degrade b).pending = s.pending := by unfold State.degrade; dsimp only; split <;> simp

/-! ## `enterReadonly` -/

@[simp] theorem State.enterReadonly_now (c : Nat) : (s.enterReadonly c).now = s.now := by unfold State.enterReadonly; dsimp only; split <;> simp
@[simp] theorem State.enterReadonly_latch (c : Nat) : (s.enterReadonly c).latch = s.latch := by unfold State.enterReadonly; dsimp only; split <;> simp
@[simp] theorem State.enterReadonly_replies (c : Nat) : (s.enterReadonly c).replies = s.replies := by unfold State.enterReadonly; dsimp only; split <;> simp
@[simp] theorem State.enterReadonly_rr (c : Nat) : (s.enterReadonly c).rr = s.rr := by unfold State.enterReadonly; dsimp only; split <;> simp
@[simp] theorem State.enterReadonly_nss (c : Nat) : (s.enterReadonly c).nss = s.nss := by unfold State.enterReadonly; dsimp only; split <;> simp
@[simp] theorem State.enterReadonly_zones (c : Nat) : (s.enterReadonly c).zones = s.zones := by unfold State.enterReadonly; dsimp only; split <;> simp
@[simp] theorem State.enterReadonly_clutches (c : Nat) : (s.enterReadonly c).clutches = s.clutches := by unfold State.enterReadonly; dsimp only; split <;> simp
@[simp] theorem State.enterReadonly_kept (c : Nat) : (s.enterReadonly c).kept = s.kept := by unfold State.enterReadonly; dsimp only; split <;> simp
@[simp] theorem State.enterReadonly_landing (c : Nat) : (s.enterReadonly c).landing = s.landing := by unfold State.enterReadonly; dsimp only; split <;> simp
@[simp] theorem State.enterReadonly_cmds (c : Nat) : (s.enterReadonly c).cmds = s.cmds := by unfold State.enterReadonly; dsimp only; split <;> simp
@[simp] theorem State.enterReadonly_efts (c : Nat) : (s.enterReadonly c).efts = s.efts := by unfold State.enterReadonly; dsimp only; split <;> simp
@[simp] theorem State.enterReadonly_xlt (c : Nat) : (s.enterReadonly c).xlt = s.xlt := by unfold State.enterReadonly; dsimp only; split <;> simp
@[simp] theorem State.enterReadonly_quiesce (c : Nat) : (s.enterReadonly c).quiesce = s.quiesce := by unfold State.enterReadonly; dsimp only; split <;> simp
@[simp] theorem State.enterReadonly_med (c : Nat) : (s.enterReadonly c).med = s.med := by unfold State.enterReadonly; dsimp only; split <;> simp
@[simp] theorem State.enterReadonly_cho (c : Nat) : (s.enterReadonly c).cho = s.cho := by unfold State.enterReadonly; dsimp only; split <;> simp
@[simp] theorem State.enterReadonly_dzl (c : Nat) : (s.enterReadonly c).dzl = s.dzl := by unfold State.enterReadonly; dsimp only; split <;> simp
@[simp] theorem State.enterReadonly_sec (c : Nat) : (s.enterReadonly c).sec = s.sec := by unfold State.enterReadonly; dsimp only; split <;> simp
@[simp] theorem State.enterReadonly_boot (c : Nat) : (s.enterReadonly c).boot = s.boot := by unfold State.enterReadonly; dsimp only; split <;> simp
@[simp] theorem State.enterReadonly_pwr (c : Nat) : (s.enterReadonly c).pwr = s.pwr := by unfold State.enterReadonly; dsimp only; split <;> simp
@[simp] theorem State.enterReadonly_dram (c : Nat) : (s.enterReadonly c).dram = s.dram := by unfold State.enterReadonly; dsimp only; split <;> simp
@[simp] theorem State.enterReadonly_snc (c : Nat) : (s.enterReadonly c).snc = s.snc := by unfold State.enterReadonly; dsimp only; split <;> simp
@[simp] theorem State.enterReadonly_pins (c : Nat) : (s.enterReadonly c).pins = s.pins := by unfold State.enterReadonly; dsimp only; split <;> simp
@[simp] theorem State.enterReadonly_freeIx (c : Nat) : (s.enterReadonly c).freeIx = s.freeIx := by unfold State.enterReadonly; dsimp only; split <;> simp
@[simp] theorem State.enterReadonly_pending (c : Nat) : (s.enterReadonly c).pending = s.pending := by unfold State.enterReadonly; dsimp only; split <;> simp

/-! ## `endOfLife` -/

@[simp] theorem State.endOfLife_now  : (s.endOfLife).now = s.now := by unfold State.endOfLife; dsimp only; split <;> simp
@[simp] theorem State.endOfLife_latch  : (s.endOfLife).latch = s.latch := by unfold State.endOfLife; dsimp only; split <;> simp
@[simp] theorem State.endOfLife_replies  : (s.endOfLife).replies = s.replies := by unfold State.endOfLife; dsimp only; split <;> simp
@[simp] theorem State.endOfLife_rr  : (s.endOfLife).rr = s.rr := by unfold State.endOfLife; dsimp only; split <;> simp
@[simp] theorem State.endOfLife_nss  : (s.endOfLife).nss = s.nss := by unfold State.endOfLife; dsimp only; split <;> simp
@[simp] theorem State.endOfLife_zones  : (s.endOfLife).zones = s.zones := by unfold State.endOfLife; dsimp only; split <;> simp
@[simp] theorem State.endOfLife_clutches  : (s.endOfLife).clutches = s.clutches := by unfold State.endOfLife; dsimp only; split <;> simp
@[simp] theorem State.endOfLife_kept  : (s.endOfLife).kept = s.kept := by unfold State.endOfLife; dsimp only; split <;> simp
@[simp] theorem State.endOfLife_landing  : (s.endOfLife).landing = s.landing := by unfold State.endOfLife; dsimp only; split <;> simp
@[simp] theorem State.endOfLife_cmds  : (s.endOfLife).cmds = s.cmds := by unfold State.endOfLife; dsimp only; split <;> simp
@[simp] theorem State.endOfLife_efts  : (s.endOfLife).efts = s.efts := by unfold State.endOfLife; dsimp only; split <;> simp
@[simp] theorem State.endOfLife_quiesce  : (s.endOfLife).quiesce = s.quiesce := by unfold State.endOfLife; dsimp only; split <;> simp
@[simp] theorem State.endOfLife_med  : (s.endOfLife).med = s.med := by unfold State.endOfLife; dsimp only; split <;> simp
@[simp] theorem State.endOfLife_cho  : (s.endOfLife).cho = s.cho := by unfold State.endOfLife; dsimp only; split <;> simp
@[simp] theorem State.endOfLife_dzl  : (s.endOfLife).dzl = s.dzl := by unfold State.endOfLife; dsimp only; split <;> simp
@[simp] theorem State.endOfLife_sec  : (s.endOfLife).sec = s.sec := by unfold State.endOfLife; dsimp only; split <;> simp
@[simp] theorem State.endOfLife_boot  : (s.endOfLife).boot = s.boot := by unfold State.endOfLife; dsimp only; split <;> simp
@[simp] theorem State.endOfLife_pwr  : (s.endOfLife).pwr = s.pwr := by unfold State.endOfLife; dsimp only; split <;> simp
@[simp] theorem State.endOfLife_dram  : (s.endOfLife).dram = s.dram := by unfold State.endOfLife; dsimp only; split <;> simp
@[simp] theorem State.endOfLife_snc  : (s.endOfLife).snc = s.snc := by unfold State.endOfLife; dsimp only; split <;> simp
@[simp] theorem State.endOfLife_pins  : (s.endOfLife).pins = s.pins := by unfold State.endOfLife; dsimp only; split <;> simp
@[simp] theorem State.endOfLife_freeIx  : (s.endOfLife).freeIx = s.freeIx := by unfold State.endOfLife; dsimp only; split <;> simp
@[simp] theorem State.endOfLife_pending  : (s.endOfLife).pending = s.pending := by unfold State.endOfLife; dsimp only; split <;> simp

/-! ## `releaseHeld` -/

@[simp] theorem State.releaseHeld_now  : (s.releaseHeld).now = s.now := by unfold State.releaseHeld; split <;> [rfl; (dsimp only; split <;> simp)]
@[simp] theorem State.releaseHeld_latch  : (s.releaseHeld).latch = s.latch := by unfold State.releaseHeld; split <;> [rfl; (dsimp only; split <;> simp)]
@[simp] theorem State.releaseHeld_replies  : (s.releaseHeld).replies = s.replies := by unfold State.releaseHeld; split <;> [rfl; (dsimp only; split <;> simp)]
@[simp] theorem State.releaseHeld_cqes  : (s.releaseHeld).cqes = s.cqes := by unfold State.releaseHeld; split <;> [rfl; (dsimp only; split <;> simp)]
@[simp] theorem State.releaseHeld_fns  : (s.releaseHeld).fns = s.fns := by unfold State.releaseHeld; split <;> [rfl; (dsimp only; split <;> simp)]
@[simp] theorem State.releaseHeld_rr  : (s.releaseHeld).rr = s.rr := by unfold State.releaseHeld; split <;> [rfl; (dsimp only; split <;> simp)]
@[simp] theorem State.releaseHeld_nss  : (s.releaseHeld).nss = s.nss := by unfold State.releaseHeld; split <;> [rfl; (dsimp only; split <;> simp)]
@[simp] theorem State.releaseHeld_zones  : (s.releaseHeld).zones = s.zones := by unfold State.releaseHeld; split <;> [rfl; (dsimp only; split <;> simp)]
@[simp] theorem State.releaseHeld_clutches  : (s.releaseHeld).clutches = s.clutches := by unfold State.releaseHeld; split <;> [rfl; (dsimp only; split <;> simp)]
@[simp] theorem State.releaseHeld_kept  : (s.releaseHeld).kept = s.kept := by unfold State.releaseHeld; split <;> [rfl; (dsimp only; split <;> simp)]
@[simp] theorem State.releaseHeld_landing  : (s.releaseHeld).landing = s.landing := by unfold State.releaseHeld; split <;> [rfl; (dsimp only; split <;> simp)]
@[simp] theorem State.releaseHeld_cmds  : (s.releaseHeld).cmds = s.cmds := by unfold State.releaseHeld; split <;> [rfl; (dsimp only; split <;> simp)]
@[simp] theorem State.releaseHeld_efts  : (s.releaseHeld).efts = s.efts := by unfold State.releaseHeld; split <;> [rfl; (dsimp only; split <;> simp)]
@[simp] theorem State.releaseHeld_xlt  : (s.releaseHeld).xlt = s.xlt := by unfold State.releaseHeld; split <;> [rfl; (dsimp only; split <;> simp)]
@[simp] theorem State.releaseHeld_evr  : (s.releaseHeld).evr = s.evr := by unfold State.releaseHeld; split <;> [rfl; (dsimp only; split <;> simp)]
@[simp] theorem State.releaseHeld_hlt  : (s.releaseHeld).hlt = s.hlt := by unfold State.releaseHeld; split <;> [rfl; (dsimp only; split <;> simp)]
@[simp] theorem State.releaseHeld_quiesce  : (s.releaseHeld).quiesce = s.quiesce := by unfold State.releaseHeld; split <;> [rfl; (dsimp only; split <;> simp)]
@[simp] theorem State.releaseHeld_med  : (s.releaseHeld).med = s.med := by unfold State.releaseHeld; split <;> [rfl; (dsimp only; split <;> simp)]
@[simp] theorem State.releaseHeld_cho  : (s.releaseHeld).cho = s.cho := by unfold State.releaseHeld; split <;> [rfl; (dsimp only; split <;> simp)]
@[simp] theorem State.releaseHeld_dzl  : (s.releaseHeld).dzl = s.dzl := by unfold State.releaseHeld; split <;> [rfl; (dsimp only; split <;> simp)]
@[simp] theorem State.releaseHeld_sec  : (s.releaseHeld).sec = s.sec := by unfold State.releaseHeld; split <;> [rfl; (dsimp only; split <;> simp)]
@[simp] theorem State.releaseHeld_boot  : (s.releaseHeld).boot = s.boot := by unfold State.releaseHeld; split <;> [rfl; (dsimp only; split <;> simp)]
@[simp] theorem State.releaseHeld_dram  : (s.releaseHeld).dram = s.dram := by unfold State.releaseHeld; split <;> [rfl; (dsimp only; split <;> simp)]
@[simp] theorem State.releaseHeld_snc  : (s.releaseHeld).snc = s.snc := by unfold State.releaseHeld; split <;> [rfl; (dsimp only; split <;> simp)]
@[simp] theorem State.releaseHeld_pins  : (s.releaseHeld).pins = s.pins := by unfold State.releaseHeld; split <;> [rfl; (dsimp only; split <;> simp)]
@[simp] theorem State.releaseHeld_freeIx  : (s.releaseHeld).freeIx = s.freeIx := by unfold State.releaseHeld; split <;> [rfl; (dsimp only; split <;> simp)]
@[simp] theorem State.releaseHeld_pending  : (s.releaseHeld).pending = s.pending := by unfold State.releaseHeld; split <;> [rfl; (dsimp only; split <;> simp)]
@[simp] theorem State.releaseHeld_fn  (num : Nat) : (s.releaseHeld).fn num = s.fn num := by simp [State.fn]

/-! ## `voltDown` -/

@[simp] theorem State.voltDown_now  : (s.voltDown).now = s.now := by unfold State.voltDown; split <;> simp
@[simp] theorem State.voltDown_latch  : (s.voltDown).latch = s.latch := by unfold State.voltDown; split <;> simp
@[simp] theorem State.voltDown_replies  : (s.voltDown).replies = s.replies := by unfold State.voltDown; split <;> simp
@[simp] theorem State.voltDown_cqes  : (s.voltDown).cqes = s.cqes := by unfold State.voltDown; split <;> simp
@[simp] theorem State.voltDown_fns  : (s.voltDown).fns = s.fns := by unfold State.voltDown; split <;> simp
@[simp] theorem State.voltDown_rr  : (s.voltDown).rr = s.rr := by unfold State.voltDown; split <;> simp
@[simp] theorem State.voltDown_nss  : (s.voltDown).nss = s.nss := by unfold State.voltDown; split <;> simp
@[simp] theorem State.voltDown_zones  : (s.voltDown).zones = s.zones := by unfold State.voltDown; split <;> simp
@[simp] theorem State.voltDown_clutches  : (s.voltDown).clutches = s.clutches := by unfold State.voltDown; split <;> simp
@[simp] theorem State.voltDown_kept  : (s.voltDown).kept = s.kept := by unfold State.voltDown; split <;> simp
@[simp] theorem State.voltDown_landing  : (s.voltDown).landing = s.landing := by unfold State.voltDown; split <;> simp
@[simp] theorem State.voltDown_cmds  : (s.voltDown).cmds = s.cmds := by unfold State.voltDown; split <;> simp
@[simp] theorem State.voltDown_efts  : (s.voltDown).efts = s.efts := by unfold State.voltDown; split <;> simp
@[simp] theorem State.voltDown_xlt  : (s.voltDown).xlt = s.xlt := by unfold State.voltDown; split <;> simp
@[simp] theorem State.voltDown_evr  : (s.voltDown).evr = s.evr := by unfold State.voltDown; split <;> simp
@[simp] theorem State.voltDown_hlt  : (s.voltDown).hlt = s.hlt := by unfold State.voltDown; split <;> simp
@[simp] theorem State.voltDown_quiesce  : (s.voltDown).quiesce = s.quiesce := by unfold State.voltDown; split <;> simp
@[simp] theorem State.voltDown_med  : (s.voltDown).med = s.med := by unfold State.voltDown; split <;> simp
@[simp] theorem State.voltDown_cho  : (s.voltDown).cho = s.cho := by unfold State.voltDown; split <;> simp
@[simp] theorem State.voltDown_dzl  : (s.voltDown).dzl = s.dzl := by unfold State.voltDown; split <;> simp
@[simp] theorem State.voltDown_sec  : (s.voltDown).sec = s.sec := by unfold State.voltDown; split <;> simp
@[simp] theorem State.voltDown_boot  : (s.voltDown).boot = s.boot := by unfold State.voltDown; split <;> simp
@[simp] theorem State.voltDown_dram  : (s.voltDown).dram = s.dram := by unfold State.voltDown; split <;> simp
@[simp] theorem State.voltDown_snc  : (s.voltDown).snc = s.snc := by unfold State.voltDown; split <;> simp
@[simp] theorem State.voltDown_pins  : (s.voltDown).pins = s.pins := by unfold State.voltDown; split <;> simp
@[simp] theorem State.voltDown_freeIx  : (s.voltDown).freeIx = s.freeIx := by unfold State.voltDown; split <;> simp
@[simp] theorem State.voltDown_pending  : (s.voltDown).pending = s.pending := by unfold State.voltDown; split <;> simp
@[simp] theorem State.voltDown_fn  (num : Nat) : (s.voltDown).fn num = s.fn num := by simp [State.fn]

/-! ## `opDown` -/

@[simp] theorem State.opDown_now (k : Nat) : (s.opDown k).now = s.now := by simp [State.opDown]
@[simp] theorem State.opDown_latch (k : Nat) : (s.opDown k).latch = s.latch := by simp [State.opDown]
@[simp] theorem State.opDown_replies (k : Nat) : (s.opDown k).replies = s.replies := by simp [State.opDown]
@[simp] theorem State.opDown_cqes (k : Nat) : (s.opDown k).cqes = s.cqes := by simp [State.opDown]
@[simp] theorem State.opDown_fns (k : Nat) : (s.opDown k).fns = s.fns := by simp [State.opDown]
@[simp] theorem State.opDown_rr (k : Nat) : (s.opDown k).rr = s.rr := by simp [State.opDown]
@[simp] theorem State.opDown_nss (k : Nat) : (s.opDown k).nss = s.nss := by simp [State.opDown]
@[simp] theorem State.opDown_zones (k : Nat) : (s.opDown k).zones = s.zones := by simp [State.opDown]
@[simp] theorem State.opDown_clutches (k : Nat) : (s.opDown k).clutches = s.clutches := by simp [State.opDown]
@[simp] theorem State.opDown_kept (k : Nat) : (s.opDown k).kept = s.kept := by simp [State.opDown]
@[simp] theorem State.opDown_landing (k : Nat) : (s.opDown k).landing = s.landing := by simp [State.opDown]
@[simp] theorem State.opDown_cmds (k : Nat) : (s.opDown k).cmds = s.cmds := by simp [State.opDown]
@[simp] theorem State.opDown_efts (k : Nat) : (s.opDown k).efts = s.efts := by simp [State.opDown]
@[simp] theorem State.opDown_xlt (k : Nat) : (s.opDown k).xlt = s.xlt := by simp [State.opDown]
@[simp] theorem State.opDown_evr (k : Nat) : (s.opDown k).evr = s.evr := by simp [State.opDown]
@[simp] theorem State.opDown_hlt (k : Nat) : (s.opDown k).hlt = s.hlt := by simp [State.opDown]
@[simp] theorem State.opDown_quiesce (k : Nat) : (s.opDown k).quiesce = s.quiesce := by simp [State.opDown]
@[simp] theorem State.opDown_med (k : Nat) : (s.opDown k).med = s.med := by simp [State.opDown]
@[simp] theorem State.opDown_cho (k : Nat) : (s.opDown k).cho = s.cho := by simp [State.opDown]
@[simp] theorem State.opDown_dzl (k : Nat) : (s.opDown k).dzl = s.dzl := by simp [State.opDown]
@[simp] theorem State.opDown_sec (k : Nat) : (s.opDown k).sec = s.sec := by simp [State.opDown]
@[simp] theorem State.opDown_boot (k : Nat) : (s.opDown k).boot = s.boot := by simp [State.opDown]
@[simp] theorem State.opDown_dram (k : Nat) : (s.opDown k).dram = s.dram := by simp [State.opDown]
@[simp] theorem State.opDown_snc (k : Nat) : (s.opDown k).snc = s.snc := by simp [State.opDown]
@[simp] theorem State.opDown_pins (k : Nat) : (s.opDown k).pins = s.pins := by simp [State.opDown]
@[simp] theorem State.opDown_freeIx (k : Nat) : (s.opDown k).freeIx = s.freeIx := by simp [State.opDown]
@[simp] theorem State.opDown_pending (k : Nat) : (s.opDown k).pending = s.pending := by simp [State.opDown]
@[simp] theorem State.opDown_fn (k : Nat) (num : Nat) : (s.opDown k).fn num = s.fn num := by simp [State.fn]

/-! ## `opUp` -/

@[simp] theorem State.opUp_now (k : Nat) : (s.opUp k).now = s.now := by simp [State.opUp]
@[simp] theorem State.opUp_latch (k : Nat) : (s.opUp k).latch = s.latch := by simp [State.opUp]
@[simp] theorem State.opUp_replies (k : Nat) : (s.opUp k).replies = s.replies := by simp [State.opUp]
@[simp] theorem State.opUp_cqes (k : Nat) : (s.opUp k).cqes = s.cqes := by simp [State.opUp]
@[simp] theorem State.opUp_fns (k : Nat) : (s.opUp k).fns = s.fns := by simp [State.opUp]
@[simp] theorem State.opUp_rr (k : Nat) : (s.opUp k).rr = s.rr := by simp [State.opUp]
@[simp] theorem State.opUp_nss (k : Nat) : (s.opUp k).nss = s.nss := by simp [State.opUp]
@[simp] theorem State.opUp_zones (k : Nat) : (s.opUp k).zones = s.zones := by simp [State.opUp]
@[simp] theorem State.opUp_clutches (k : Nat) : (s.opUp k).clutches = s.clutches := by simp [State.opUp]
@[simp] theorem State.opUp_kept (k : Nat) : (s.opUp k).kept = s.kept := by simp [State.opUp]
@[simp] theorem State.opUp_landing (k : Nat) : (s.opUp k).landing = s.landing := by simp [State.opUp]
@[simp] theorem State.opUp_cmds (k : Nat) : (s.opUp k).cmds = s.cmds := by simp [State.opUp]
@[simp] theorem State.opUp_efts (k : Nat) : (s.opUp k).efts = s.efts := by simp [State.opUp]
@[simp] theorem State.opUp_xlt (k : Nat) : (s.opUp k).xlt = s.xlt := by simp [State.opUp]
@[simp] theorem State.opUp_evr (k : Nat) : (s.opUp k).evr = s.evr := by simp [State.opUp]
@[simp] theorem State.opUp_hlt (k : Nat) : (s.opUp k).hlt = s.hlt := by simp [State.opUp]
@[simp] theorem State.opUp_quiesce (k : Nat) : (s.opUp k).quiesce = s.quiesce := by simp [State.opUp]
@[simp] theorem State.opUp_med (k : Nat) : (s.opUp k).med = s.med := by simp [State.opUp]
@[simp] theorem State.opUp_cho (k : Nat) : (s.opUp k).cho = s.cho := by simp [State.opUp]
@[simp] theorem State.opUp_dzl (k : Nat) : (s.opUp k).dzl = s.dzl := by simp [State.opUp]
@[simp] theorem State.opUp_sec (k : Nat) : (s.opUp k).sec = s.sec := by simp [State.opUp]
@[simp] theorem State.opUp_boot (k : Nat) : (s.opUp k).boot = s.boot := by simp [State.opUp]
@[simp] theorem State.opUp_dram (k : Nat) : (s.opUp k).dram = s.dram := by simp [State.opUp]
@[simp] theorem State.opUp_snc (k : Nat) : (s.opUp k).snc = s.snc := by simp [State.opUp]
@[simp] theorem State.opUp_pins (k : Nat) : (s.opUp k).pins = s.pins := by simp [State.opUp]
@[simp] theorem State.opUp_freeIx (k : Nat) : (s.opUp k).freeIx = s.freeIx := by simp [State.opUp]
@[simp] theorem State.opUp_pending (k : Nat) : (s.opUp k).pending = s.pending := by simp [State.opUp]
@[simp] theorem State.opUp_fn (k : Nat) (num : Nat) : (s.opUp k).fn num = s.fn num := by simp [State.fn]

/-! ## `settleCeil` -/

@[simp] theorem State.settleCeil_now  : (s.settleCeil).now = s.now := by unfold State.settleCeil; dsimp only; split <;> simp
@[simp] theorem State.settleCeil_latch  : (s.settleCeil).latch = s.latch := by unfold State.settleCeil; dsimp only; split <;> simp
@[simp] theorem State.settleCeil_replies  : (s.settleCeil).replies = s.replies := by unfold State.settleCeil; dsimp only; split <;> simp
@[simp] theorem State.settleCeil_cqes  : (s.settleCeil).cqes = s.cqes := by unfold State.settleCeil; dsimp only; split <;> simp
@[simp] theorem State.settleCeil_fns  : (s.settleCeil).fns = s.fns := by unfold State.settleCeil; dsimp only; split <;> simp
@[simp] theorem State.settleCeil_rr  : (s.settleCeil).rr = s.rr := by unfold State.settleCeil; dsimp only; split <;> simp
@[simp] theorem State.settleCeil_nss  : (s.settleCeil).nss = s.nss := by unfold State.settleCeil; dsimp only; split <;> simp
@[simp] theorem State.settleCeil_zones  : (s.settleCeil).zones = s.zones := by unfold State.settleCeil; dsimp only; split <;> simp
@[simp] theorem State.settleCeil_clutches  : (s.settleCeil).clutches = s.clutches := by unfold State.settleCeil; dsimp only; split <;> simp
@[simp] theorem State.settleCeil_kept  : (s.settleCeil).kept = s.kept := by unfold State.settleCeil; dsimp only; split <;> simp
@[simp] theorem State.settleCeil_landing  : (s.settleCeil).landing = s.landing := by unfold State.settleCeil; dsimp only; split <;> simp
@[simp] theorem State.settleCeil_cmds  : (s.settleCeil).cmds = s.cmds := by unfold State.settleCeil; dsimp only; split <;> simp
@[simp] theorem State.settleCeil_efts  : (s.settleCeil).efts = s.efts := by unfold State.settleCeil; dsimp only; split <;> simp
@[simp] theorem State.settleCeil_xlt  : (s.settleCeil).xlt = s.xlt := by unfold State.settleCeil; dsimp only; split <;> simp
@[simp] theorem State.settleCeil_evr  : (s.settleCeil).evr = s.evr := by unfold State.settleCeil; dsimp only; split <;> simp
@[simp] theorem State.settleCeil_hlt  : (s.settleCeil).hlt = s.hlt := by unfold State.settleCeil; dsimp only; split <;> simp
@[simp] theorem State.settleCeil_quiesce  : (s.settleCeil).quiesce = s.quiesce := by unfold State.settleCeil; dsimp only; split <;> simp
@[simp] theorem State.settleCeil_med  : (s.settleCeil).med = s.med := by unfold State.settleCeil; dsimp only; split <;> simp
@[simp] theorem State.settleCeil_cho  : (s.settleCeil).cho = s.cho := by unfold State.settleCeil; dsimp only; split <;> simp
@[simp] theorem State.settleCeil_dzl  : (s.settleCeil).dzl = s.dzl := by unfold State.settleCeil; dsimp only; split <;> simp
@[simp] theorem State.settleCeil_sec  : (s.settleCeil).sec = s.sec := by unfold State.settleCeil; dsimp only; split <;> simp
@[simp] theorem State.settleCeil_boot  : (s.settleCeil).boot = s.boot := by unfold State.settleCeil; dsimp only; split <;> simp
@[simp] theorem State.settleCeil_dram  : (s.settleCeil).dram = s.dram := by unfold State.settleCeil; dsimp only; split <;> simp
@[simp] theorem State.settleCeil_snc  : (s.settleCeil).snc = s.snc := by unfold State.settleCeil; dsimp only; split <;> simp
@[simp] theorem State.settleCeil_pins  : (s.settleCeil).pins = s.pins := by unfold State.settleCeil; dsimp only; split <;> simp
@[simp] theorem State.settleCeil_freeIx  : (s.settleCeil).freeIx = s.freeIx := by unfold State.settleCeil; dsimp only; split <;> simp
@[simp] theorem State.settleCeil_pending  : (s.settleCeil).pending = s.pending := by unfold State.settleCeil; dsimp only; split <;> simp
@[simp] theorem State.settleCeil_fn  (num : Nat) : (s.settleCeil).fn num = s.fn num := by simp [State.fn]

/-! ## `wakeSource` -/

@[simp] theorem State.wakeSource_now (k : Nat) : (s.wakeSource k).now = s.now := by unfold State.wakeSource; dsimp only; split <;> simp
@[simp] theorem State.wakeSource_latch (k : Nat) : (s.wakeSource k).latch = s.latch := by unfold State.wakeSource; dsimp only; split <;> simp
@[simp] theorem State.wakeSource_replies (k : Nat) : (s.wakeSource k).replies = s.replies := by unfold State.wakeSource; dsimp only; split <;> simp
@[simp] theorem State.wakeSource_cqes (k : Nat) : (s.wakeSource k).cqes = s.cqes := by unfold State.wakeSource; dsimp only; split <;> simp
@[simp] theorem State.wakeSource_fns (k : Nat) : (s.wakeSource k).fns = s.fns := by unfold State.wakeSource; dsimp only; split <;> simp
@[simp] theorem State.wakeSource_rr (k : Nat) : (s.wakeSource k).rr = s.rr := by unfold State.wakeSource; dsimp only; split <;> simp
@[simp] theorem State.wakeSource_nss (k : Nat) : (s.wakeSource k).nss = s.nss := by unfold State.wakeSource; dsimp only; split <;> simp
@[simp] theorem State.wakeSource_zones (k : Nat) : (s.wakeSource k).zones = s.zones := by unfold State.wakeSource; dsimp only; split <;> simp
@[simp] theorem State.wakeSource_clutches (k : Nat) : (s.wakeSource k).clutches = s.clutches := by unfold State.wakeSource; dsimp only; split <;> simp
@[simp] theorem State.wakeSource_kept (k : Nat) : (s.wakeSource k).kept = s.kept := by unfold State.wakeSource; dsimp only; split <;> simp
@[simp] theorem State.wakeSource_landing (k : Nat) : (s.wakeSource k).landing = s.landing := by unfold State.wakeSource; dsimp only; split <;> simp
@[simp] theorem State.wakeSource_cmds (k : Nat) : (s.wakeSource k).cmds = s.cmds := by unfold State.wakeSource; dsimp only; split <;> simp
@[simp] theorem State.wakeSource_efts (k : Nat) : (s.wakeSource k).efts = s.efts := by unfold State.wakeSource; dsimp only; split <;> simp
@[simp] theorem State.wakeSource_xlt (k : Nat) : (s.wakeSource k).xlt = s.xlt := by unfold State.wakeSource; dsimp only; split <;> simp
@[simp] theorem State.wakeSource_evr (k : Nat) : (s.wakeSource k).evr = s.evr := by unfold State.wakeSource; dsimp only; split <;> simp
@[simp] theorem State.wakeSource_hlt (k : Nat) : (s.wakeSource k).hlt = s.hlt := by unfold State.wakeSource; dsimp only; split <;> simp
@[simp] theorem State.wakeSource_quiesce (k : Nat) : (s.wakeSource k).quiesce = s.quiesce := by unfold State.wakeSource; dsimp only; split <;> simp
@[simp] theorem State.wakeSource_med (k : Nat) : (s.wakeSource k).med = s.med := by unfold State.wakeSource; dsimp only; split <;> simp
@[simp] theorem State.wakeSource_cho (k : Nat) : (s.wakeSource k).cho = s.cho := by unfold State.wakeSource; dsimp only; split <;> simp
@[simp] theorem State.wakeSource_dzl (k : Nat) : (s.wakeSource k).dzl = s.dzl := by unfold State.wakeSource; dsimp only; split <;> simp
@[simp] theorem State.wakeSource_sec (k : Nat) : (s.wakeSource k).sec = s.sec := by unfold State.wakeSource; dsimp only; split <;> simp
@[simp] theorem State.wakeSource_boot (k : Nat) : (s.wakeSource k).boot = s.boot := by unfold State.wakeSource; dsimp only; split <;> simp
@[simp] theorem State.wakeSource_dram (k : Nat) : (s.wakeSource k).dram = s.dram := by unfold State.wakeSource; dsimp only; split <;> simp
@[simp] theorem State.wakeSource_snc (k : Nat) : (s.wakeSource k).snc = s.snc := by unfold State.wakeSource; dsimp only; split <;> simp
@[simp] theorem State.wakeSource_pins (k : Nat) : (s.wakeSource k).pins = s.pins := by unfold State.wakeSource; dsimp only; split <;> simp
@[simp] theorem State.wakeSource_freeIx (k : Nat) : (s.wakeSource k).freeIx = s.freeIx := by unfold State.wakeSource; dsimp only; split <;> simp
@[simp] theorem State.wakeSource_pending (k : Nat) : (s.wakeSource k).pending = s.pending := by unfold State.wakeSource; dsimp only; split <;> simp
@[simp] theorem State.wakeSource_fn (k : Nat) (num : Nat) : (s.wakeSource k).fn num = s.fn num := by simp [State.fn]

/-! ## `hostBusy` -/

@[simp] theorem State.hostBusy_now  : (s.hostBusy).now = s.now := by unfold State.hostBusy; dsimp only; split <;> split <;> simp
@[simp] theorem State.hostBusy_latch  : (s.hostBusy).latch = s.latch := by unfold State.hostBusy; dsimp only; split <;> split <;> simp
@[simp] theorem State.hostBusy_replies  : (s.hostBusy).replies = s.replies := by unfold State.hostBusy; dsimp only; split <;> split <;> simp
@[simp] theorem State.hostBusy_cqes  : (s.hostBusy).cqes = s.cqes := by unfold State.hostBusy; dsimp only; split <;> split <;> simp
@[simp] theorem State.hostBusy_fns  : (s.hostBusy).fns = s.fns := by unfold State.hostBusy; dsimp only; split <;> split <;> simp
@[simp] theorem State.hostBusy_rr  : (s.hostBusy).rr = s.rr := by unfold State.hostBusy; dsimp only; split <;> split <;> simp
@[simp] theorem State.hostBusy_nss  : (s.hostBusy).nss = s.nss := by unfold State.hostBusy; dsimp only; split <;> split <;> simp
@[simp] theorem State.hostBusy_zones  : (s.hostBusy).zones = s.zones := by unfold State.hostBusy; dsimp only; split <;> split <;> simp
@[simp] theorem State.hostBusy_clutches  : (s.hostBusy).clutches = s.clutches := by unfold State.hostBusy; dsimp only; split <;> split <;> simp
@[simp] theorem State.hostBusy_kept  : (s.hostBusy).kept = s.kept := by unfold State.hostBusy; dsimp only; split <;> split <;> simp
@[simp] theorem State.hostBusy_landing  : (s.hostBusy).landing = s.landing := by unfold State.hostBusy; dsimp only; split <;> split <;> simp
@[simp] theorem State.hostBusy_cmds  : (s.hostBusy).cmds = s.cmds := by unfold State.hostBusy; dsimp only; split <;> split <;> simp
@[simp] theorem State.hostBusy_efts  : (s.hostBusy).efts = s.efts := by unfold State.hostBusy; dsimp only; split <;> split <;> simp
@[simp] theorem State.hostBusy_xlt  : (s.hostBusy).xlt = s.xlt := by unfold State.hostBusy; dsimp only; split <;> split <;> simp
@[simp] theorem State.hostBusy_evr  : (s.hostBusy).evr = s.evr := by unfold State.hostBusy; dsimp only; split <;> split <;> simp
@[simp] theorem State.hostBusy_hlt  : (s.hostBusy).hlt = s.hlt := by unfold State.hostBusy; dsimp only; split <;> split <;> simp
@[simp] theorem State.hostBusy_quiesce  : (s.hostBusy).quiesce = s.quiesce := by unfold State.hostBusy; dsimp only; split <;> split <;> simp
@[simp] theorem State.hostBusy_med  : (s.hostBusy).med = s.med := by unfold State.hostBusy; dsimp only; split <;> split <;> simp
@[simp] theorem State.hostBusy_cho  : (s.hostBusy).cho = s.cho := by unfold State.hostBusy; dsimp only; split <;> split <;> simp
@[simp] theorem State.hostBusy_dzl  : (s.hostBusy).dzl = s.dzl := by unfold State.hostBusy; dsimp only; split <;> split <;> simp
@[simp] theorem State.hostBusy_sec  : (s.hostBusy).sec = s.sec := by unfold State.hostBusy; dsimp only; split <;> split <;> simp
@[simp] theorem State.hostBusy_boot  : (s.hostBusy).boot = s.boot := by unfold State.hostBusy; dsimp only; split <;> split <;> simp
@[simp] theorem State.hostBusy_dram  : (s.hostBusy).dram = s.dram := by unfold State.hostBusy; dsimp only; split <;> split <;> simp
@[simp] theorem State.hostBusy_snc  : (s.hostBusy).snc = s.snc := by unfold State.hostBusy; dsimp only; split <;> split <;> simp
@[simp] theorem State.hostBusy_pins  : (s.hostBusy).pins = s.pins := by unfold State.hostBusy; dsimp only; split <;> split <;> simp
@[simp] theorem State.hostBusy_freeIx  : (s.hostBusy).freeIx = s.freeIx := by unfold State.hostBusy; dsimp only; split <;> split <;> simp
@[simp] theorem State.hostBusy_pending  : (s.hostBusy).pending = s.pending := by unfold State.hostBusy; dsimp only; split <;> split <;> simp
@[simp] theorem State.hostBusy_fn  (num : Nat) : (s.hostBusy).fn num = s.fn num := by simp [State.fn]

/-! ## `takeEntry` -/

@[simp] theorem State.takeEntry_now (src : Src) (q : Sq) : ((s.takeEntry src q).2).now = s.now := by simp [State.takeEntry]
@[simp] theorem State.takeEntry_latch (src : Src) (q : Sq) : ((s.takeEntry src q).2).latch = s.latch := by simp [State.takeEntry]
@[simp] theorem State.takeEntry_replies (src : Src) (q : Sq) : ((s.takeEntry src q).2).replies = s.replies := by simp [State.takeEntry]
@[simp] theorem State.takeEntry_cqes (src : Src) (q : Sq) : ((s.takeEntry src q).2).cqes = s.cqes := by simp [State.takeEntry]
@[simp] theorem State.takeEntry_rr (src : Src) (q : Sq) : ((s.takeEntry src q).2).rr = s.rr := by simp [State.takeEntry]
@[simp] theorem State.takeEntry_nss (src : Src) (q : Sq) : ((s.takeEntry src q).2).nss = s.nss := by simp [State.takeEntry]
@[simp] theorem State.takeEntry_zones (src : Src) (q : Sq) : ((s.takeEntry src q).2).zones = s.zones := by simp [State.takeEntry]
@[simp] theorem State.takeEntry_clutches (src : Src) (q : Sq) : ((s.takeEntry src q).2).clutches = s.clutches := by simp [State.takeEntry]
@[simp] theorem State.takeEntry_kept (src : Src) (q : Sq) : ((s.takeEntry src q).2).kept = s.kept := by simp [State.takeEntry]
@[simp] theorem State.takeEntry_landing (src : Src) (q : Sq) : ((s.takeEntry src q).2).landing = s.landing := by simp [State.takeEntry]
@[simp] theorem State.takeEntry_cmds (src : Src) (q : Sq) : ((s.takeEntry src q).2).cmds = s.cmds := by simp [State.takeEntry]
@[simp] theorem State.takeEntry_efts (src : Src) (q : Sq) : ((s.takeEntry src q).2).efts = s.efts := by simp [State.takeEntry]
@[simp] theorem State.takeEntry_xlt (src : Src) (q : Sq) : ((s.takeEntry src q).2).xlt = s.xlt := by simp [State.takeEntry]
@[simp] theorem State.takeEntry_evr (src : Src) (q : Sq) : ((s.takeEntry src q).2).evr = s.evr := by simp [State.takeEntry]
@[simp] theorem State.takeEntry_hlt (src : Src) (q : Sq) : ((s.takeEntry src q).2).hlt = s.hlt := by simp [State.takeEntry]
@[simp] theorem State.takeEntry_quiesce (src : Src) (q : Sq) : ((s.takeEntry src q).2).quiesce = s.quiesce := by simp [State.takeEntry]
@[simp] theorem State.takeEntry_med (src : Src) (q : Sq) : ((s.takeEntry src q).2).med = s.med := by simp [State.takeEntry]
@[simp] theorem State.takeEntry_cho (src : Src) (q : Sq) : ((s.takeEntry src q).2).cho = s.cho := by simp [State.takeEntry]
@[simp] theorem State.takeEntry_dzl (src : Src) (q : Sq) : ((s.takeEntry src q).2).dzl = s.dzl := by simp [State.takeEntry]
@[simp] theorem State.takeEntry_sec (src : Src) (q : Sq) : ((s.takeEntry src q).2).sec = s.sec := by simp [State.takeEntry]
@[simp] theorem State.takeEntry_boot (src : Src) (q : Sq) : ((s.takeEntry src q).2).boot = s.boot := by simp [State.takeEntry]
@[simp] theorem State.takeEntry_dram (src : Src) (q : Sq) : ((s.takeEntry src q).2).dram = s.dram := by simp [State.takeEntry]
@[simp] theorem State.takeEntry_snc (src : Src) (q : Sq) : ((s.takeEntry src q).2).snc = s.snc := by simp [State.takeEntry]
@[simp] theorem State.takeEntry_pins (src : Src) (q : Sq) : ((s.takeEntry src q).2).pins = s.pins := by simp [State.takeEntry]
@[simp] theorem State.takeEntry_freeIx (src : Src) (q : Sq) : ((s.takeEntry src q).2).freeIx = s.freeIx := by simp [State.takeEntry]
@[simp] theorem State.takeEntry_pending (src : Src) (q : Sq) : ((s.takeEntry src q).2).pending = s.pending := by simp [State.takeEntry]

/-! ## `openWindow` -/

@[simp] theorem State.openWindow_now (src : Src) (pos : Nat) : (s.openWindow src pos).now = s.now := by simp [State.openWindow]
@[simp] theorem State.openWindow_regs (src : Src) (pos : Nat) : (s.openWindow src pos).regs = s.regs := by simp [State.openWindow]
@[simp] theorem State.openWindow_latch (src : Src) (pos : Nat) : (s.openWindow src pos).latch = s.latch := by simp [State.openWindow]
@[simp] theorem State.openWindow_replies (src : Src) (pos : Nat) : (s.openWindow src pos).replies = s.replies := by simp [State.openWindow]
@[simp] theorem State.openWindow_cqes (src : Src) (pos : Nat) : (s.openWindow src pos).cqes = s.cqes := by simp [State.openWindow]
@[simp] theorem State.openWindow_rr (src : Src) (pos : Nat) : (s.openWindow src pos).rr = s.rr := by simp [State.openWindow]
@[simp] theorem State.openWindow_nss (src : Src) (pos : Nat) : (s.openWindow src pos).nss = s.nss := by simp [State.openWindow]
@[simp] theorem State.openWindow_zones (src : Src) (pos : Nat) : (s.openWindow src pos).zones = s.zones := by simp [State.openWindow]
@[simp] theorem State.openWindow_clutches (src : Src) (pos : Nat) : (s.openWindow src pos).clutches = s.clutches := by simp [State.openWindow]
@[simp] theorem State.openWindow_kept (src : Src) (pos : Nat) : (s.openWindow src pos).kept = s.kept := by simp [State.openWindow]
@[simp] theorem State.openWindow_landing (src : Src) (pos : Nat) : (s.openWindow src pos).landing = s.landing := by simp [State.openWindow]
@[simp] theorem State.openWindow_cmds (src : Src) (pos : Nat) : (s.openWindow src pos).cmds = s.cmds := by simp [State.openWindow]
@[simp] theorem State.openWindow_efts (src : Src) (pos : Nat) : (s.openWindow src pos).efts = s.efts := by simp [State.openWindow]
@[simp] theorem State.openWindow_xlt (src : Src) (pos : Nat) : (s.openWindow src pos).xlt = s.xlt := by simp [State.openWindow]
@[simp] theorem State.openWindow_evr (src : Src) (pos : Nat) : (s.openWindow src pos).evr = s.evr := by simp [State.openWindow]
@[simp] theorem State.openWindow_hlt (src : Src) (pos : Nat) : (s.openWindow src pos).hlt = s.hlt := by simp [State.openWindow]
@[simp] theorem State.openWindow_quiesce (src : Src) (pos : Nat) : (s.openWindow src pos).quiesce = s.quiesce := by simp [State.openWindow]
@[simp] theorem State.openWindow_med (src : Src) (pos : Nat) : (s.openWindow src pos).med = s.med := by simp [State.openWindow]
@[simp] theorem State.openWindow_cho (src : Src) (pos : Nat) : (s.openWindow src pos).cho = s.cho := by simp [State.openWindow]
@[simp] theorem State.openWindow_dzl (src : Src) (pos : Nat) : (s.openWindow src pos).dzl = s.dzl := by simp [State.openWindow]
@[simp] theorem State.openWindow_sec (src : Src) (pos : Nat) : (s.openWindow src pos).sec = s.sec := by simp [State.openWindow]
@[simp] theorem State.openWindow_boot (src : Src) (pos : Nat) : (s.openWindow src pos).boot = s.boot := by simp [State.openWindow]
@[simp] theorem State.openWindow_pwr (src : Src) (pos : Nat) : (s.openWindow src pos).pwr = s.pwr := by simp [State.openWindow]
@[simp] theorem State.openWindow_dram (src : Src) (pos : Nat) : (s.openWindow src pos).dram = s.dram := by simp [State.openWindow]
@[simp] theorem State.openWindow_snc (src : Src) (pos : Nat) : (s.openWindow src pos).snc = s.snc := by simp [State.openWindow]
@[simp] theorem State.openWindow_pins (src : Src) (pos : Nat) : (s.openWindow src pos).pins = s.pins := by simp [State.openWindow]
@[simp] theorem State.openWindow_freeIx (src : Src) (pos : Nat) : (s.openWindow src pos).freeIx = s.freeIx := by simp [State.openWindow]
@[simp] theorem State.openWindow_pending (src : Src) (pos : Nat) : (s.openWindow src pos).pending = s.pending := by simp [State.openWindow]
@[simp] theorem State.openWindow_rd (src : Src) (pos : Nat) (fr : Fld) : (s.openWindow src pos).rd fr = s.rd fr := by simp [State.rd, State.word]
@[simp] theorem State.openWindow_word (src : Src) (pos : Nat) (off : Nat) : (s.openWindow src pos).word off = s.word off := by simp [State.word]

/-! ## `entered` -/

@[simp] theorem State.entered_now (src : Src) : (s.entered src).now = s.now := by unfold State.entered; split <;> simp
@[simp] theorem State.entered_latch (src : Src) : (s.entered src).latch = s.latch := by unfold State.entered; split <;> simp
@[simp] theorem State.entered_replies (src : Src) : (s.entered src).replies = s.replies := by unfold State.entered; split <;> simp
@[simp] theorem State.entered_cqes (src : Src) : (s.entered src).cqes = s.cqes := by unfold State.entered; split <;> simp
@[simp] theorem State.entered_rr (src : Src) : (s.entered src).rr = s.rr := by unfold State.entered; split <;> simp
@[simp] theorem State.entered_nss (src : Src) : (s.entered src).nss = s.nss := by unfold State.entered; split <;> simp
@[simp] theorem State.entered_zones (src : Src) : (s.entered src).zones = s.zones := by unfold State.entered; split <;> simp
@[simp] theorem State.entered_clutches (src : Src) : (s.entered src).clutches = s.clutches := by unfold State.entered; split <;> simp
@[simp] theorem State.entered_kept (src : Src) : (s.entered src).kept = s.kept := by unfold State.entered; split <;> simp
@[simp] theorem State.entered_landing (src : Src) : (s.entered src).landing = s.landing := by unfold State.entered; split <;> simp
@[simp] theorem State.entered_cmds (src : Src) : (s.entered src).cmds = s.cmds := by unfold State.entered; split <;> simp
@[simp] theorem State.entered_efts (src : Src) : (s.entered src).efts = s.efts := by unfold State.entered; split <;> simp
@[simp] theorem State.entered_xlt (src : Src) : (s.entered src).xlt = s.xlt := by unfold State.entered; split <;> simp
@[simp] theorem State.entered_evr (src : Src) : (s.entered src).evr = s.evr := by unfold State.entered; split <;> simp
@[simp] theorem State.entered_hlt (src : Src) : (s.entered src).hlt = s.hlt := by unfold State.entered; split <;> simp
@[simp] theorem State.entered_quiesce (src : Src) : (s.entered src).quiesce = s.quiesce := by unfold State.entered; split <;> simp
@[simp] theorem State.entered_med (src : Src) : (s.entered src).med = s.med := by unfold State.entered; split <;> simp
@[simp] theorem State.entered_cho (src : Src) : (s.entered src).cho = s.cho := by unfold State.entered; split <;> simp
@[simp] theorem State.entered_dzl (src : Src) : (s.entered src).dzl = s.dzl := by unfold State.entered; split <;> simp
@[simp] theorem State.entered_sec (src : Src) : (s.entered src).sec = s.sec := by unfold State.entered; split <;> simp
@[simp] theorem State.entered_boot (src : Src) : (s.entered src).boot = s.boot := by unfold State.entered; split <;> simp
@[simp] theorem State.entered_dram (src : Src) : (s.entered src).dram = s.dram := by unfold State.entered; split <;> simp
@[simp] theorem State.entered_snc (src : Src) : (s.entered src).snc = s.snc := by unfold State.entered; split <;> simp
@[simp] theorem State.entered_pins (src : Src) : (s.entered src).pins = s.pins := by unfold State.entered; split <;> simp
@[simp] theorem State.entered_freeIx (src : Src) : (s.entered src).freeIx = s.freeIx := by unfold State.entered; split <;> simp
@[simp] theorem State.entered_pending (src : Src) : (s.entered src).pending = s.pending := by unfold State.entered; split <;> simp

/-! ## Completions -/

/-- A command that completes posts its completion in front of the earlier ones. -/
@[simp] theorem State.done_cqes (src : Src) (st : Status) (a b : Nat) (d : Payload) :
    (s.done src st a b d).cqes = cqeOf src st a b d :: s.cqes := by
  unfold State.done State.post cqeOf
  dsimp only
  split <;> simp

@[simp] theorem State.ok_cqes (src : Src) : (s.ok src).cqes = cqeOf src .success 0 0 .none :: s.cqes := by simp [State.ok]

@[simp] theorem State.err_cqes (src : Src) (st : Status) : (s.err src st).cqes = cqeOf src st 0 0 .none :: s.cqes := by simp [State.err]

/-- A success leaves the functions as they are. -/
@[simp] theorem State.done_success_fns (src : Src) (a b : Nat) (d : Payload) : (s.done src .success a b d).fns = s.fns := rfl

@[simp] theorem State.ok_fns (src : Src) : (s.ok src).fns = s.fns := rfl

/-! ## Taken commands -/

/-- What `takes` says, taken apart. -/
theorem State.takes_spec {src : Src} {cls : Class} (h : s.takes src cls = true) :
    src.fn < fnCount ∧ ∃ q, (s.fn src.fn).sq src.qid = some q ∧ s.gate src q cls = .take ∧ srcBad src cls = none := by
  unfold State.takes at h
  simp only [Bool.and_eq_true, decide_eq_true_eq] at h
  obtain ⟨hf, h⟩ := h
  split at h
  · simp at h
  · rename_i q hq
    simp only [Bool.and_eq_true, decide_eq_true_eq, Option.isNone_iff_eq_none] at h
    exact ⟨hf, q, hq, h.1, h.2⟩

theorem State.entryPos_eq (src : Src) (h : ((s.fn src.fn).sq src.qid).isSome) : s.entryPos src = (s.entryQueue src).nextPos := by
  obtain ⟨q, hq⟩ := Option.isSome_iff_exists.mp h
  simp [State.entryPos, State.entryQueue, hq]

/-- The queue of a taken command, as it stood. -/
theorem State.entryQueue_takes {src : Src} {cls : Class} (h : s.takes src cls = true) :
    (s.fn src.fn).sq src.qid = some (s.entryQueue src) := by
  obtain ⟨_, q, hq, _⟩ := s.takes_spec h
  simp [State.entryQueue, hq]

/-- A command the front end takes acts on the state with its entry taken, under its tag; an Ordered Write opens the next window. -/
theorem hostTagged_takes {src : Src} {cls : Class} {fence : Bool} (k : Nat → Sq → State → State) (h : s.takes src cls = true) :
    hostTagged s src cls fence k = .next (k (s.entryTag src) (s.entryQueue src)
      (if fence then (s.entered src).openWindow src (s.entryQueue src).nextPos else s.entered src)) := by
  obtain ⟨hf, q, hq, hg, hb⟩ := s.takes_spec h
  simp [hostTagged, onFn, hf, hq, hg, hb, State.entryTag, State.entryQueue, State.entered]

theorem host_takes {src : Src} {cls : Class} (k : State → State) (h : s.takes src cls = true) :
    host s src cls k = .next (k (s.entered src)) := by simp [host, hostTagged_takes s _ h]

/-- A command of a namespace the function has. -/
theorem withNs_some {src : Src} {nsid : Nat} {n : Ns} (k : Ns → State) (h : s.nsFor src.fn nsid = some n) :
    withNs s src nsid k = k n := by simp [withNs, h]

theorem Next.intro {P : State → Prop} (t : State) (h : P t) : Next (.next t) P := ⟨t, rfl, h⟩

end Sys2Proof.Machine
end

