-- ==== Sys2Proof/Laws/Memory.lean ====
section
/-! SUPPORT. The boot flash and the OTP: a read after a write, what a write leaves alone, that OTP bits stay set, and that every
operation on them and on the register file keeps the canonical form. -/

namespace Sys2Proof.Machine

open Sys2Proof

variable (s : State)

/-! ## Boot flash -/

@[simp] theorem State.flashGet_put_same (a : Nat) (b : Byte) : (s.flashPut a b).flashGet a = b := by
  simp [State.flashGet, State.flashPut]

@[simp] theorem State.flashGet_put_other (a : Nat) (b : Byte) {x : Nat} (h : x ≠ a) : (s.flashPut a b).flashGet x = s.flashGet x := by
  simp [State.flashGet, State.flashPut, h]

/-- A program ands its data in. -/
theorem State.flashGet_and_in (data : Bytes) : ∀ (s : State) (a i : Nat), i < data.length →
    (s.flashAnd a data).flashGet (a + i) = s.flashGet (a + i) &&& nth data i 0 := by
  induction data with
  | nil => intro s a i h; simp at h
  | cons b r ih =>
    intro s a i h
    have out : ∀ (r : Bytes) (s : State) (a x : Nat), x < a → (s.flashAnd a r).flashGet x = s.flashGet x := by
      intro r
      induction r with
      | nil => intros; rfl
      | cons c r ih => intro s a x h; rw [State.flashAnd, ih _ _ _ (by omega), State.flashGet_put_other _ _ _ (by omega)]
    cases i with
    | zero => rw [State.flashAnd, Nat.add_zero, out _ _ _ _ (by omega)]; simp [nth]
    | succ i =>
      have := ih (s.flashPut a (s.flashGet a &&& b)) (a + 1) i (by simpa using h)
      rw [State.flashAnd, show a + (i + 1) = a + 1 + i by omega, this, State.flashGet_put_other _ _ _ (by omega)]
      simp [nth]

/-- A program leaves every other byte. -/
theorem State.flashGet_and_out (data : Bytes) : ∀ (s : State) (a x : Nat), x < a ∨ a + data.length ≤ x →
    (s.flashAnd a data).flashGet x = s.flashGet x := by
  induction data with
  | nil => intros; rfl
  | cons b r ih =>
    intro s a x h
    simp only [List.length_cons] at h
    rw [State.flashAnd, ih _ _ _ (by omega), State.flashGet_put_other _ _ _ (by omega)]

/-- An erased byte is blank, every other one stays. -/
theorem State.flashGet_erase (a n x : Nat) : (s.flashErase a n).flashGet x = if a ≤ x ∧ x < a + n then 0xFF else s.flashGet x := by
  have key : ∀ t : List (Nat × Byte), tblGet blankByte (t.filter fun e => !(decide (a ≤ e.1) && decide (e.1 < a + n))) x =
      if a ≤ x ∧ x < a + n then 0xFF else tblGet blankByte t x := by
    intro t
    induction t with
    | nil => simp [tblGet, blankByte]
    | cons e t ih =>
      obtain ⟨k, v⟩ := e
      by_cases hk : a ≤ k ∧ k < a + n
      · rw [List.filter_cons_of_neg (by simp [hk]), ih]
        by_cases hx : k = x
        · subst hx; simp [hk]
        · simp [tblGet, hx]
      · rw [List.filter_cons_of_pos (by simp; omega)]
        by_cases hx : k = x
        · subst hx; simp [tblGet, hk]
        · rw [tblGet, tblGet, if_neg hx, if_neg hx, ih]
  simpa [State.flashGet, State.flashErase] using key s.snc.flash

/-! ## OTP -/

/-- Programming OTP sets the bits of its data and clears none. -/
theorem State.otpGet_set (data : Bytes) : ∀ (s : State) (a x : Nat), (s.otpSet a data).otpGet x =
    if a ≤ x ∧ x < a + data.length then s.otpGet x ||| nth data (x - a) 0 else s.otpGet x := by
  induction data with
  | nil => intro s a x; simp [State.otpSet]
  | cons b r ih =>
    intro s a x
    rw [State.otpSet, ih]
    simp only [List.length_cons]
    rcases Nat.lt_trichotomy x a with h | h | h
    · rw [if_neg (by omega), if_neg (by omega)]; simp [State.otpGet, show x ≠ a by omega]
    · subst h; rw [if_neg (by omega), if_pos (by omega)]; simp [State.otpGet, nth]
    · have e : nth (b :: r) (x - a) 0 = nth r (x - (a + 1)) 0 := by
        obtain ⟨k, rfl⟩ : ∃ k, x = a + 1 + k := ⟨x - (a + 1), by omega⟩
        simp [nth, show a + 1 + k - a = k + 1 by omega]
      have o : State.otpGet { s with sec := { s.sec with otp := tblSet otpBlank s.sec.otp a (s.otpGet a ||| b) } } x = s.otpGet x := by
        simp [State.otpGet, show x ≠ a by omega]
      rw [e, o]
      by_cases hx : x < a + 1 + r.length
      · rw [if_pos (by omega), if_pos (by omega)]
      · rw [if_neg (by omega), if_neg (by omega)]

/-! ## Canonical form -/

theorem State.canonical_reset : State.reset.canonical := ⟨by decide, by decide, by decide⟩

theorem State.canonical_setWord (a v : Nat) (h : s.canonical) : (s.setWord a v).canonical := ⟨tblWf_set _ _ _ _ h.1, h.2⟩

theorem State.canonical_wr (f : Fld) (v : Nat) (h : s.canonical) : (s.wr f v).canonical := by
  unfold State.wr
  split
  · exact State.canonical_setWord _ _ _ h
  · exact State.canonical_setWord _ _ _ (State.canonical_setWord _ _ _ h)

theorem State.canonical_flashPut (a : Nat) (b : Byte) (h : s.canonical) : (s.flashPut a b).canonical := ⟨h.1, tblWf_set _ _ _ _ h.2.1, h.2.2⟩

theorem State.canonical_flashAnd (data : Bytes) : ∀ (s : State) (a : Nat), s.canonical → (s.flashAnd a data).canonical := by
  induction data with
  | nil => intro s a h; exact h
  | cons b r ih => intro s a h; exact ih _ _ (State.canonical_flashPut _ _ _ h)

theorem State.canonical_flashErase (a n : Nat) (h : s.canonical) : (s.flashErase a n).canonical := ⟨h.1, tblWf_filter _ _ _ h.2.1, h.2.2⟩

theorem State.canonical_otpSet (data : Bytes) : ∀ (s : State) (a : Nat), s.canonical → (s.otpSet a data).canonical := by
  induction data with
  | nil => intro s a h; exact h
  | cons b r ih => intro s a h; exact ih _ _ ⟨h.1, h.2.1, tblWf_set _ _ _ _ h.2.2⟩

/-- What changes none of the three keeps the form. -/
theorem State.canonical_of_eq {s t : State} (hr : t.regs = s.regs) (hf : t.snc.flash = s.snc.flash) (ho : t.sec.otp = s.sec.otp)
    (h : s.canonical) : t.canonical := by
  unfold State.canonical at *; rw [hr, hf, ho]; exact h

end Sys2Proof.Machine
end

