-- ==== Sys2Proof/Laws/Window.lean ====
section
/-! SUPPORT. Accesses to the management window: where they reach their register, and where they end before it. -/

namespace Sys2Proof.Machine

open Sys2Proof

variable {s : State} {r off : Nat}

theorem winOpen_unpack (h : s.winOpen r = true) : requesterOk r = true ∧ s.pwr.on = true ∧ (r ≠ reqPcie ∨ (s.hasWindow = true ∧ s.asleep = false)) := by
  simpa [State.winOpen, Bool.and_eq_true, and_assoc] using h

/-- A read that the requester and the power let through. -/
theorem winReach_open (n : Nat) (k : State → State) (h : s.winOpen r = true) : winReach r off n s k = .next (k s) := by
  obtain ⟨h1, h2, h3⟩ := winOpen_unpack h
  rcases h3 with h3 | ⟨h3, h4⟩ <;> simp [winReach, *]

/-- A read that reaches its register answers what the register gives. -/
theorem winRead_reached (k : State → Nat × State) (h : s.readable r off = true) :
    winRead r off s k = .next ((k s).2.reply r (k s).1 false .none) := by
  simp only [State.readable, Bool.and_eq_true, Bool.not_eq_true'] at h
  simp [winRead, winReach_open, h, State.readAt]

/-- A read past the blocks gives 0 and is noted. -/
theorem winRead_unmapped (k : State → Nat × State) (h : s.winOpen r = true) (hu : unmapped off = true) :
    winRead r off s k = .next ((s.noteErr r off false eUNMAPPED).reply r 0 false .none) := by
  simp [winRead, winReach_open, h, State.readAt, hu]

/-- A read of a dark block gives the dark word and is noted. -/
theorem winRead_dark (k : State → Nat × State) (h : s.winOpen r = true) (hu : unmapped off = false) (hd : s.dark off = true) :
    winRead r off s k = .next ((s.noteErr r off false eDARK).reply r darkWord (r ≠ reqPcie) .none) := by
  simp [winRead, winReach_open, h, State.readAt, hu, hd]

/-- A write that reaches its register acts there. -/
theorem winWrite_reached (v : Nat) (k : State → State) (h : s.writable r off = true) : winWrite r off v s k = .next (k s) := by
  simp only [State.writable, State.readable, Bool.and_eq_true, Bool.not_eq_true'] at h
  obtain ⟨⟨⟨⟨ho, hu⟩, hd⟩, hden⟩, hw⟩ := h
  obtain ⟨h1, h2, h3⟩ := winOpen_unpack ho
  have hw' : (decide (r = reqPcie) && s.flag Fd.TOP_LOCK_WINRO && decide (off ≠ Reg.TOP_ERR) && decide (off ≠ Reg.TOP_ERRADDR)) = false := hw
  rcases h3 with h3 | ⟨h3, h4⟩
  · simp [winWrite, h1, h2, h3, hu, hd, hden]
  · simp only [winWrite, h1, h2, h3, h4, hden, hw', hu, hd]
    simp

/-- A write the requester may not make is noted, and nothing else. -/
theorem winWrite_denied (v : Nat) (k : State → State) (h : s.winOpen r = true) (hd : deniedTo r off = true) :
    winWrite r off v s k = .next (s.noteDenied r off) := by
  obtain ⟨h1, h2, h3⟩ := winOpen_unpack h
  rcases h3 with h3 | ⟨h3, h4⟩ <;> simp [winWrite, *]

end Sys2Proof.Machine
end

