-- ==== Sys2Proof/Tests/Slice0.lean ====
section
/-! SUPPORT. Tests: the well-formedness check refuses an ill-formed term of each kind; and for every statement a state and
operands that meet its hypotheses, clause by clause, with what the step then does. -/

namespace Sys2Proof.Tests

open Sys2Proof Sys2Proof.Machine

-- One theorem at a time: each evaluates a whole state in the kernel.
set_option Elab.async false

/-! ## Small states -/

/-- The result is a next state that passes a check. -/
def runs (r : Result) (p : State → Bool) : Bool := match r with | .next t => p t | _ => false

/-- Every check of a list holds. -/
def ok (l : List Bool) : Bool := l.all id

/-- The first completion has a status. -/
def State.first (t : State) (st : Status) : Bool := (t.cqes.head?.map (·.status)) == some st

/-- What a statement asks of a command that takes effect in its own step, as a check. -/
def State.starts (s : State) (src : Src) (k : Kind) (nsid slba nlb : Nat) : Bool :=
  let c := Cmd.new (s.entryTag src) (s.entryPos src) src k nsid slba nlb
  !((s.entered src).addCmd c).waits c

/-- A powered part in SERVE, function 0 enabled with one I/O queue pair. -/
def live : State :=
  let s := { State.reset with
    pwr := { State.reset.pwr with on := true }
    boot := { State.reset.boot with perstLow := false, cfgReady := true, memSpace := true, bar2 := 2 ^ 26, profile := { State.reset.boot.profile with window := true } }
    xlt := { State.reset.xlt with restored := true } }
  let s := ((s.wr Fd.TOP_MODE_MODE mServe).wr (Fd.VFM_FN_INFLIGHT_LIMIT 0) 1024).wr (Fd.VFM_FN_QP_LIMIT 0) 8
  s.modFn 0 fun f => { f with en := true, rdy := true, grant := 4, sqs := f.sqs ++ [Sq.new 1 64 1], cqs := [(1, 64)] }

def admin : Src := ⟨0, 0, 7, 0, 0, 0, false⟩
def io : Src := ⟨0, 1, 9, 0, 0, 0, false⟩

/-- A zoned namespace of four zones and a conventional one, both of function 0. -/
def nsz : Ns := ⟨1, true, 4 * 2097152, 8, 3, 0, 1, 0, false, false, some 0, false, none, false, 0, 5, some 0⟩
def nsc : Ns := ⟨2, false, 1000, 1, 0, 0, 1, 0, false, false, some 0, true, none, false, 1, 5, some 0⟩
def served : State := { live with nss := [nsz, nsc] }

/-- A zone of the zoned namespace in a state, with its write pointer. -/
def served.withZone (z : Nat) (st : ZState) (wp : Nat) : State :=
  served.setZone 1 z { Zone.init with state := st, wp := wp, fill := wp, gen := 5 }

def wa (nsid slba nlb : Nat) : WriteArgs := ⟨nsid, slba, nlb, 0, 0, 0, 0, 0, 0⟩
def ra (nsid slba nlb : Nat) : ReadArgs := ⟨nsid, slba, nlb, 0, 0, 0, 0⟩

/-! ## The standards of R6 (values of FIPS 197, FIPS 180-4, FIPS 202; a frame of another Zstandard encoder) -/

theorem test_aes : aesEnc ((List.range 32).map byte) (beBytes 16 0x00112233445566778899aabbccddeeff) = beBytes 16 0x8ea2b7ca516745bfeafc49904b496089 := by
  decide +kernel

theorem test_aes_back : aesDec ((List.range 32).map byte) (beBytes 16 0x8ea2b7ca516745bfeafc49904b496089) = beBytes 16 0x00112233445566778899aabbccddeeff := by
  decide +kernel

def abc : Bytes := [0x61, 0x62, 0x63]

theorem test_hashes : ok [
    sha256 abc == beBytes 32 0xba7816bf8f01cfea414140de5dae2223b00361a396177a9cb410ff61f20015ad,
    sha512 abc == beBytes 64 0xddaf35a193617abacc417349ae20413112e6fa4e89a97ea20a9eeee64b55d39a2192992a274fc1a836ba3c23a3feebbd454d4423643ce80e2a9ac94fa54ca49f,
    sha3of256 abc == beBytes 32 0x3a985da74fe225b2045c172d6bd390bd855f086e3e9d525b46bfe24511431532,
    shake256 32 [] == beBytes 32 0x46b9dd2b0ba88d13233b3feb743eeb243fcd52ea62b81b82b50c27646ed5762f] = true := by decide +kernel

/-- One compressed block: Huffman-coded literals, described and predefined tables, repeat offsets. -/
def frame71 : Bytes := beBytes 71 0x28b52ffd60000fed010062040a0bd0e7fa744d220ba0552c2323e67ddb48ebe17f586cefefbd7d28bc4c43bda2cf779080b188900f050012771b1f826a40ab082402e8d00b5565

theorem test_frame : (match Machine.guard 4 0 4096 71 frame71 with | .ok b => b.length == 4096 && b.take 30 == beBytes 30 0x65656220202074630a20620a656165656365612068656164636465626565 && b.drop 4076 == beBytes 20 0x656220202074630a20620a656165656365612068 | _ => false) = true := by decide +kernel

theorem test_frame_stops : ok [
    Machine.guard 4 0 4096 70 (frame71.take 70) == .stop gEND, Machine.guard 4 0 4096 71 (setNth frame71 4 0x64) == .stop gFORM,
    Machine.guard 4 0 8192 71 frame71 == .stop gFORM, Machine.guard 4 1 4096 71 frame71 == .stop gRAWLEN] = true := by decide +kernel

/-- A uniform block is an RLE block (R139). -/
theorem test_encode : encode 3 (zeros 4096) = [0x28, 0xB5, 0x2F, 0xFD, 0x60, 0x00, 0x0F, 0x03, 0x80, 0x00, 0x00] := by decide +kernel

/-! ## I/O commands -/

theorem witness_write_class : ok [
    served.takes io .ioWrite,
    (served.entered io).nsFor 0 1 == some nsz,
    (served.entered io).writeBad nsz 0 (wa 1 0 8) == none, io.mptr == 0,
    runs (exec (.write io (wa 1 0 8)) served) (fun t => t.cmds.length == 1),
    runs (exec (.locatorAppend io (wa 1 2097152 8)) served) (fun t => t.cmds.map (·.kind) == [.locAppend]),
    runs (exec (.orderedWrite io (wa 2 999 1)) served) (fun t => t.cmds.map (·.kind) == [.orderedWrite])] = true := by decide +kernel

def vpw (llen slen fmt listed : Nat) : VpwArgs :=
  { nsid := 1, zslba := 0, llen := llen, slen := slen, fmt := fmt, check := 0, dtype := 0, dspec := 0, keyTag := 0, prinfo := 0, listed := listed, body := zeros listed }

theorem witness_precompressed : ok [
    served.takes io .ioWrite,
    (served.entered io).keyTagBad nsz 0 0 == false,
    hintBad 0 0 == false,
    runs (exec (.verifiedPrecompressedWrite io (vpw 9 8 0 8)) served) (State.first · .invalidField),
    runs (exec (.verifiedPrecompressedWrite io (vpw 1 64 1 64)) served) (State.first · .lengthMismatch),
    runs (exec (.verifiedPrecompressedWrite io (vpw 1 64 0 63)) served) (State.first · .dataSglLengthInvalid),
    runs (exec (.verifiedPrecompressedWrite io (vpw 1 64 0 64)) served) (fun t => t.cmds.map (fun c => (c.kind, c.slen)) == [(.vpw, 64)])] = true := by decide +kernel

theorem witness_reads : ok [
    served.takes io .ioRead,
    (served.entered io).readBad nsz 0 0 8 0 == none,
    runs (exec (.read io (ra 1 0 8)) served) (fun t => t.cmds.map (·.kind) == [.read]),
    runs (exec (.verify io (ra 2 999 1)) served) (fun t => t.cmds.map (·.kind) == [.verify]),
    runs (exec (.compare io (ra 1 0 1) [1]) served) (fun t => t.cmds.map (·.data) == [[1]]),
    runs (exec (.readByLocator io 1 0 6 0 1 0 0) served) (State.first · .locatorStale),
    ((served.withZone 0 .full 70).entered io).locBad nsz 0 5 == none,
    runs (exec (.readByLocator io 1 0 5 0 1 0 0) (served.withZone 0 .full 70)) (fun t => t.cmds.map (·.kind) == [.readLoc]),
    runs (exec (.digestRange io 1 0 (2 ^ 23) 1 0) served) (fun t => t.cmds.map (·.kind) == [.digest])] = true := by decide +kernel

/-- A member of group 1 with a peer tag for function 0. -/
def member : State := ((served.wr Fd.DZL_DEVID_MEMBER 1).wr Fd.DZL_DEVID_DEVID 3).wr (Fd.VFM_FN_PEERTAG_VALUE 0) 5

def source (dev : Nat) : PeerReq := ⟨dev, 0, 1, 1, 0, 0, 0, 8, 0, 0, 5, 0⟩

/-- The same with the namespace's key in its media slot. -/
def loaded : State := ({ member with nss := [{ nsz with slot := some 3, slotReady := true }, nsc] }).setSlot 3 ⟨1, 0, 0, zeros 64⟩

theorem witness_dataset_flush : ok [
    served.takes io .ioWrite,
    served.takes io .ioOther,
    runs (exec (.datasetManagement io 2 true [(999, 1)]) served) (fun t => t.cmds.map (·.kind) == [.deallocate]),
    runs (exec (.datasetManagement io 1 true []) served) (fun t => t.cmds.map (·.kind) == [.dsmNone]),
    runs (exec (.flush io 0xFFFFFFFF) served) (fun t => t.cmds.map (·.kind) == [.flush]),
    member.takes io .ioWrite, (member.entered io).member, sourceBad (source 7) == false, ((loaded.entered io).outputKeyBad nsz 0 0).isNone,
    runs (exec (.reconstruct io 1 0 8 0 0 0 64 [source 3, source 7]) loaded) (fun t => t.cmds.map (·.kind) == [.reconstruct] && t.dzl.outs.length == 2)] = true := by decide +kernel

theorem witness_zone_changes : ok [
    State.starts (served.withZone 1 .explicitOpen 8) io .zoneClose 1 2097152 1, State.starts served io .zoneFinish 1 0 1,
    State.starts (served.withZone 1 .full 8) io .zoneReset 1 2097152 1,
    (served.withZone 1 .explicitOpen 8).takes io .ioOther,
    (served.withZone 1 .full 8).takes io .ioReset,
    runs (exec (.zoneClose io 1 2097152 false) (served.withZone 1 .explicitOpen 8)) (fun t => (t.zone nsz 1).state == .closed && (t.zone nsz 1).wp == 8)] = true := by decide +kernel

theorem witness_zone_open : ok [
    State.starts (served.withZone 3 .closed 8) io .zoneOpen 1 (3 * 2097152) 1, State.starts served io .report 1 (3 * 2097152) 1,
    (served.withZone 3 .closed 8).nsOpenFull nsz == false,
    ((served.withZone 3 .closed 8).entered io).fnOpenFull 0 == false,
    runs (exec (.zoneOpen io 1 (3 * 2097152) false) (served.withZone 3 .closed 8)) (fun t => (t.zone nsz 3).state == .explicitOpen),
    runs (exec (.zoneOpen io 1 0 false) (served.withZone 0 .full 8)) (State.first · .invalidZoneState),
    runs (exec (.reportZones io 1 (3 * 2097152) 9) served) (State.first · .success),
    runs (exec (.getFeaturesZonePhysicalStatus admin 1 3) served) (State.first · .success),
    runs (exec (.setFeaturesZonePhysicalStatus admin) served) (State.first · .featureNotChangeable),
    runs (exec (.getLogPageChangedZoneList admin false 1) served) (State.first · .success)] = true := by decide +kernel

/-- A Write of one clutch, tag 0: queued, and started and built, at its placement point. -/
def queued : Cmd := Cmd.new 0 0 io .write 1 0 8
def built : Cmd := { queued with started := true, admitted := true, parts := [(0, ⟨⟨0, 0, 0, 8, 8, 0, 0, 0, 0⟩, zeros 32⟩)] }
def opened (wp : Nat) : State :=
  { served.setZone 1 0 { Zone.init with state := .implicitOpen, gen := 5, stripe := some 1, wp := wp, fill := wp } with cmds := [built] }
def waiting (bal : Int) : State :=
  (({ served.withZone 0 .implicitOpen 0 with cmds := [queued] }.wr Fd.XLT_BUF_SIZE 1).modFn 0 fun f => { f with bal := bal })

theorem witness_fetch_and_start : ok [
    runs (exec (.sqDoorbellWrite 0 1 100) served) (fun t => ((t.fn 0).sq 1).map (·.waiting) == some 63),
    (stateOf (exec (.sqDoorbellWrite 0 1 2) served) served).nextFn == some 0,
    runs (exec .commandFetch (stateOf (exec (.sqDoorbellWrite 0 1 2) served) served)) (fun t => t.rr == 1),
    ({ served with cmds := [{ queued with admitted := true }] }).waits { queued with admitted := true } == false,
    served.modeRefusal ⟨0, 1, 9, 0, 0, 0, false⟩ .ioWrite == none, served.anyPond,
    (({ served with cmds := [{ queued with admitted := true }] }).placeItems 1 [⟨.write, .fn 0, 0, 0, false, none, false⟩]).1 == 1,
    runs (exec (.commandStart 0) { served with cmds := [{ queued with admitted := true }] }) (fun t => t.cmds.map (fun c => (c.started, c.items)) == [(true, 1)])] = true := by decide +kernel

theorem witness_admission_and_placement : ok [
    (waiting 1).admits queued nsz,
    runs (exec (.writeAdmission 0) (waiting 1)) (fun t => t.cmds.map (·.admitted) == [true]),
    runs (exec (.writeAdmission 0) (waiting 0)) (fun t => t == waiting 0), getBits ((waiting 0).viewFn (Reg.VFM_FN_STATE 0) 0) 27 27 == 1,
    getBits ((waiting 1).viewFn (Reg.VFM_FN_STATE 0) 0) 27 27 == 0,
    built.atPlacement nsz, (opened 0).placeWaits built == false,
    runs (exec (.placementPoint 0) (opened 8)) (fun t => (t.cqes.map (·.status)) == [.zoneInvalidWrite])] = true := by decide +kernel

theorem witness_abort_queues : ok [
    runs (exec (.abort admin 1 9) { served with cmds := [queued] }) (fun t => t.cqes.length == 2 && t.cmds.isEmpty),
    runs (exec (.abort admin 1 9) { served with cmds := [built] }) (fun t => t.cqes.map (·.dw0) == [1]),
    (served.entered admin).qidBad 0 4 == false,
    runs (exec (.abort admin 1 9) served) (fun t => t.cqes.map (·.dw0) == [1]),
    runs (exec (.createIoCompletionQueue admin 4 65536) served) (State.first · .success),
    runs (exec (.createIoCompletionQueue admin 4 65537) served) (State.first · .invalidQueueSize),
    runs (exec (.createIoSubmissionQueue admin 4 65536 1 2) served) (State.first · .success),
    runs (exec (.createIoSubmissionQueue admin 4 65537 1 2) served) (State.first · .invalidQueueSize),
    runs (exec (.deleteIoSubmissionQueue admin 1) served) (fun t => ((t.fn 0).sq 1).isNone && State.first t .success),
    runs (exec (.deleteIoCompletionQueue admin 1) served) (State.first · .invalidQueueDeletion),
    runs (exec (.deleteIoCompletionQueue admin 2) (served.modFn 0 fun f => { f with cqs := [(2, 4)] })) (State.first · .success)] = true := by decide +kernel

theorem witness_features : ok [
    served.takes admin .setFeat,
    runs (exec (.setFeaturesNumberOfQueues admin 9 5) served) (fun t => (t.fn 0).grant == 5 && t.cqes.map (·.dw0) == [4 + 4 * 65536]),
    runs (exec (.setFeaturesAsynchronousEventConfig admin (2 ^ 32 + 1)) served) (fun t => (t.fn 0).aec == 1),
    runs (exec (.setFeaturesTemperatureThreshold admin 0 false 350) served) (fun t => (t.fn 0).tmtOver == 350 && t.cqes.length == 1),
    runs (exec (.asynchronousEventRequest admin) served) (fun t => (t.fn 0).aers == [7] && t.cqes.isEmpty)] = true := by decide +kernel

/-! ## Namespaces, pools, sanitize -/

/-- With words from the TRNG, and zone stripes in choir 0. -/
def stocked : State :=
  { served with xlt := { served.xlt with nc := [1000, 1000, 1000, 1000], installed := [32000, 32000, 32000, 32000] } }.wr Fd.SEC_TRNG_STAT_OK 1
def zonedArgs : NsArgs := ⟨2, 4 * 2097152, 0, 0, false, 4, 0x89, 0, false⟩
def vf1 : Src := ⟨1, 0, 3, 0, 0, 0, false⟩
/-- VF 1 enabled beside. -/
def withVf (s : State) : State := s.modFn 1 fun f => { f with en := true, rdy := true }

theorem witness_creation : ok [
    stocked.takes admin .admin, (withVf stocked).takes vf1 .admin,
    runs (exec (.namespaceManagementCreate vf1 zonedArgs) (withVf stocked)) (State.first · .invalidOpcode),
    runs (exec (.namespaceManagementCreate admin { zonedArgs with clutchCode := 5 }) stocked) (State.first · .invalidField),
    runs (exec (.namespaceManagementCreate admin { zonedArgs with fmt := 3 }) stocked) (State.first · .invalidFormat),
    (stocked.entered admin).capacityBad zonedArgs == false, (stocked.entered admin).pastQuota 0 1 0 == false,
    runs (exec (.namespaceManagementCreate admin zonedArgs) stocked) (fun t => State.first t .success && t.cqes.map (·.dw0) == [3] &&
      (t.ns 3).map (fun m => (m.clutch, m.zoned, m.attached)) == some (32, true, none))] = true := by decide +kernel

def detached : State := ({ stocked with nss := [{ nsz with attached := none }, nsc] }.wr (Fd.VFM_FN_KEYS_SLOTS 0) 4)

theorem witness_attachment : ok [
    (detached.entered admin).othersData { nsz with attached := none } 0 == false, (detached.entered admin).attachSlot 0 == some 3,
    runs (exec (.namespaceAttach admin 1 0) detached) (fun t => State.first t .success && (t.ns 1).map (fun m => (m.attached, m.slot)) == some (some 0, some 3)),
    runs (exec (.namespaceAttach admin 1 1) served) (State.first · .nsIsPrivate),
    runs (exec (.namespaceDetach admin 1 0) served) (fun t => State.first t .success && (t.ns 1).map (·.attached) == some none),
    runs (exec (.namespaceDetach admin 1 1) served) (State.first · .nsNotAttached)] = true := by decide +kernel

theorem witness_delete_format : ok [
    runs (exec (.formatNvm admin 2 0 0 false 2) stocked) (State.first · .success)] = true := by decide +kernel

def slotted : State := ({ served with nss := [{ nsz with slot := some 3 }] }).setAes slotMediaKek srcDerived (zeros 32)

theorem witness_reload_identify : ok [
    (slotted.aesKey slotMediaKek).isSome,
    runs (exec (.mediaSlotReload 1) slotted) (fun t => (t.slot 3).kind == 1 && (t.ns 1).map (·.slotReady) == some true),
    runs (exec (.identifyController admin) served) (State.first · .success),
    runs (exec (.identifyNamespace admin 1) served) (State.first · .success)] = true := by decide +kernel

def poolArgs : PoolDesc := ⟨4, 64, 8, 1, 0, 0, 0, 4, 16, 0, 100, 100, 1, 8, 0, 0, 0⟩
def pool : State := served.wr Fd.VFM_POOL_WTOK_TOTAL 1000
def assignedVf : State := stateOf (exec (.poolManageAssign admin 1 64 poolArgs) pool) pool

theorem witness_pool : ok [
    pool.takes admin .vendor, (pool.entered admin).assigned 1 == false, poolBad { poolArgs with weight := 0 }, poolBad poolArgs == false,
    runs (exec (.poolManageAssign admin 1 64 { poolArgs with weight := 0 }) pool) (State.first · .invalidField),
    (pool.entered admin).qpSumBut 1 + 4 ≤ poolQueuePairs, ((pool.entered admin).pickBase 8).isSome,
    runs (exec (.poolManageAssign admin 1 64 poolArgs) pool) (fun t => State.first t .success && t.assigned 1 && t.rd (Fd.VFM_FN_GTOK_TOKENS 1) == 100),
    assignedVf.takes admin .vendor, (assignedVf.entered admin).assigned 1,
    poolBad (poolOver { poolArgs with qp := 3, mask := 1 } ((assignedVf.entered admin).poolNow 1)) == false,
    runs (exec (.poolManageChange admin 1 64 { poolArgs with qp := 3, g := 50, mask := 1 }) assignedVf) (fun t => State.first t .success &&
      t.rd (Fd.VFM_FN_QP_LIMIT 1) == 3 && t.rd (Fd.VFM_FN_GTOK_TOKENS 1) == 100),
    runs (exec (.poolManageRelease admin 1 0) assignedVf) (fun t => State.first t .success && t.assigned 1 == false)] = true := by decide +kernel

def sanitizing (k : Nat) : State := { (served.wr Fd.TOP_MODE_MODE mSanitize) with boot := { served.boot with sanitize := k, sanKind := 1 } }

/-- A Block Erase whose last block is not erased yet. -/
def erasing : State :=
  { sanitizing 1 with boot := { (sanitizing 1).boot with sanKind := 2 }, xlt := { (sanitizing 1).xlt with released := [(0, 1, 1, 0)] } }

theorem witness_sanitize : ok [
    stocked.takes admin .sanitize, (withVf stocked).takes vf1 .sanitize, (stocked.entered admin).mode == mServe, (stocked.entered admin).trngOk,
    runs (exec (.sanitizeCryptoErase vf1 false false) (withVf stocked)) (State.first · .invalidOpcode),
    runs (exec (.sanitizeOverwrite admin) stocked) (State.first · .invalidField),
    runs (exec (.sanitizeComplete false) (sanitizing 1)) (fun t => t.boot.sanitize == 2 && t.mode == mSanitize),
    runs (exec (.sanitizeComplete true) (sanitizing 1)) (fun t => t.boot.sanitize == 0 && t.mode == mServe),
    (erasing.xlt.released.isEmpty == false), runs (exec (.sanitizeComplete true) erasing) (fun t => t == erasing),
    (sanitizing 2).takes admin .sanitize,
    runs (exec (.sanitizeExitFailureMode admin) (sanitizing 2)) (State.first · .sanitizeFailed),
    runs (exec (.sanitizeExitFailureMode admin) { sanitizing 2 with boot := { (sanitizing 2).boot with sanAuse := true } }) (fun t =>
      t.boot.sanitize == 0 && State.first t .success)] = true := by decide +kernel

theorem witness_trng_waits : ok [
    runs (exec .trngRecovery (((served.wr Fd.SEC_TRNG_STAT_OK 0).wr Fd.TOP_BOOT_STAGE 9))) (fun t => t.trngOk),
    runs (exec .trngWaitTimeout { served with sec := { served.sec with trngWaits := [.create admin zonedArgs] } }) (fun t =>
      State.first t .internalError && t.sec.trngWaits.isEmpty),
    (served.wr Fd.SEC_TRNG_STAT_OK 0).takes admin .sanitize,
    runs (exec (.sanitizeCryptoErase admin false false) (served.wr Fd.SEC_TRNG_STAT_OK 0)) (fun t => t.cqes.isEmpty && t.sec.trngWaits.length == 1)] = true := by
  decide +kernel

/-! ## Firmware, self-tests, QUIESCE -/

def testing (code : Nat) (s : State) : State := { s with boot := { s.boot with selfTest := { s.boot.selfTest with code := code } } }

theorem witness_self_test : ok [
    served.takes admin .selfTest,
    runs (exec (.deviceSelfTestShort admin) served) (fun t => State.first t .success && t.boot.selfTest.code == 1 && t.boot.selfTest.segment == 1),
    runs (exec (.deviceSelfTestExtended admin) served) (fun t => t.boot.selfTest.code == 2),
    runs (exec (.deviceSelfTestShort admin) (testing 2 served)) (State.first · .selfTestInProgress),
    runs (exec (.deviceSelfTestExtended admin) (testing 2 served)) (State.first · .selfTestInProgress),
    runs (exec (.deviceSelfTestAbort admin) (testing 2 served)) (fun t => t.boot.selfTest.code == 0 && t.boot.selfTest.log.head? == some (1, 2, 0, 0))] = true := by
  decide +kernel

/-- A short test in a segment. -/
def segmentOf (k : Nat) : State :=
  let s := testing 1 { served with hlt := { served.hlt with holdup := 0 } }
  { s with boot := { s.boot with selfTest := { s.boot.selfTest with segment := k } } }

def vectorRuns : State := (segmentOf 7).setEft 7 31 { Eft.init with run := some (vectorItem 7) }
/-- Segment 8 with a port wired to the wrong partner. -/
def missed : State := (segmentOf 8).wr (Fd.DZL_P_STATE_STATE 3) pMISWIRED

theorem witness_self_test_items : ok [
    (segmentOf 7).testSuspended == false, (segmentOf 7).fenced 7 31 == false, (segmentOf 7).gated 7 == false,
    runs (exec (.selfTestItem 7 31 0 false) (segmentOf 7)) (fun t => (t.eft 7 31).deque == [vectorItem 7]),
    runs (exec (.selfTestItem 7 31 0 false) ((segmentOf 7).setEft 7 31 { Eft.init with deque := [vectorItem 7] })) (fun t =>
      (t.eft 7 31).run == some (vectorItem 7)),
    runs (exec (.selfTestItem 7 31 0 false) vectorRuns) (fun t => t.boot.selfTest.tried == [eftKey 7 31] && t.fenced 7 31 == false),
    runs (exec (.selfTestItem 7 31 0 true) vectorRuns) (fun t => t.boot.selfTest.failed == 7 && t.fenced 7 31),
    (segmentOf 8).linksBad == false, missed.linksBad,
    runs (exec (.deviceSelfTestComplete 0) missed) (fun t => t.boot.selfTest.log.head? == some (7, 1, 8, 0)),
    runs (exec (.deviceSelfTestComplete 0) (segmentOf 8)) (fun t => t.boot.selfTest.code == 0 && t.boot.selfTest.log.head? == some (0, 1, 0, 0)),
    runs (exec (.deviceSelfTestComplete 4) (segmentOf 8)) (fun t => t.boot.selfTest.log.head? == some (7, 1, 4, 0)),
    served.takes admin .logPage] = true := by decide +kernel

def loading : State := { served with boot := { served.boot with download := some ⟨0x2800000, 1024, 1, [], [(0, 512)], zeros 256⟩ } }

theorem witness_download : ok [
    loading.takes admin .fw, (withVf loading).takes vf1 .fw,
    runs (exec (.firmwareImageDownload vf1 512 (zeros 512) true) (withVf loading)) (State.first · .invalidOpcode),
    runs (exec (.firmwareImageDownload admin 516 (zeros 512) true) loading) (State.first · .invalidField),
    runs (exec (.firmwareImageDownload admin 508 (zeros 512) true) loading) (State.first · .notErased),
    runs (exec (.firmwareImageDownload admin 512 (zeros 512) true) loading) (fun t => State.first t .success &&
      t.boot.download.map (·.done) == some [(0, 512), (512, 512)]),
    runs (exec (.firmwareImageDownload admin 512 (zeros 512) false) loading) (State.first · .internalError)] = true := by decide +kernel

/-- A public key of RFC 8391, the firmware header of an empty payload that carries it, and the signature over it: index
0, all bytes of the randomizer and of the authentication path ones. Made outside the model, with another XMSS. -/
def signer : Bytes := [0, 0, 0, 9] ++ beBytes 32 0x2ddfaa5c24c3363aae33dc069dbfcc2bc4794bc3049ea9dbfd3259bbda9697f1 ++ zeros 32
def header : Bytes := [0x4C, 0x59, 0x46, 0x57, 1, 0, 1, 0, 8] ++ zeros 55 ++ signer ++ zeros 124
def signature : Bytes := zeros 4 ++ List.replicate 32 0xFF ++ beBytes 2144
  0xffffffffffffffffffffffffffffffffffffffffffffffffffffffffffffffff528d70c4b601cf234cc6a91b68141002efffef82b34fb25c1e122a0def59e3d2078600811a8ad922e1ee76961c3e055ea5ca487373598048a4d6a44ddf56529039d6a449ffe35a453a12c029bb0460c5348c5ad52675317ebd82427b2eafdb028ea932df65354d230c2b3b49f278d5030353bc2ef2b8ec9c69f35f957617a39bfffffffffffffffffffffffffffffffffffffffffffffffffffffffffffffffff5cc85065e6bf46fed96098cfb15fc2ed3f945c83840aaac44419f59e3279d78d1e08c3e226af4e5c68c47c76e1e7c7f0f5de4cc74adaff78bb3728c2071188cffffffffffffffffffffffffffffffffffffffffffffffffffffffffffffffff6028ededdc4a3dd885bb9abc62a4e5541b3f8eb084c57caf2707c75c93eee6b0a0272615ba0ccd6e50f6288b1c20f240cc0bd24b3f604625a2670c04a3507001932c5c4d9700767c99fb66e69692e6dbece9f07228dfb337b5327faa085d63879db9c60893f7e716033438a8ff9b224fdf9df2bc30c01a800f0e46f3416289f2e0d8414ae35d95a209ab004504bfadc1fdbae275a5ed77d7f22d143b2aa655fbe60670293304fe223cbffdcd6ae3efbbf6bae57231192a6ebc42e4febab6b283af4686e3abfd1b8eb08cb932b2d1560ed9522331e78efcecb77c4de00cac9da3dc6bde93a1d7e780a45a45ca886c19c232026ddf0a902ad999bb4bab7b6a60369b56bc3148d76cded9c19aca3fff991045192f480140be3d74fbe4586d768c2fffffffffffffffffffffffffffffffffffffffffffffffffffffffffffffffff303ae35d7413883c60159c7fa2af4724c9a1f845ae2126eab043648ed51aaf4f4517f0ad12a0ac19dc6965b71ed3f211827304d253f67d18e98283317f94590726c873786de6799b864068cb3e48bb4023b2ed1fd36194f951a3c25c7a3f02257f232c4d8bf08947412f246720a63336c7068e739e065786d628489e388c1f3583599f02cbb0f722c62ef01aabf19b8fd06b5b28dbd3fce6aeb7232c0c99df1d857be69564f96922d8e660be9aebd1009ca46455ba2018fcbed3ff064592177dfe39f883219f27e78bfa32c5f4e3d55f13790726d5d426a58fe8843c1047a2f33cbd230d07f8e409d78d36a10cd6928d745f95bbf847b8480dadcac1a42937828281e338ec1071e9f6ff6e21496d8e1c3b048de19ae277a421f872bfaccc76a5a365df822f7424a0866a072c4b66f919ab548c24fbc705ef81e5ecb9286b2850c31064583ba974a427aa06520786a94f685a2fe14ef498fe661a7e9e0e951c70c11d411fd1757f753ceb650c27e187c9545a591736242da094617a44946815287093cd27ace3abefc5d7b1309c857af097649868c482fac617b431cf4e596204c7306b1bd6cb0059286ed81157d4e114e20d28ae8dc2050b92e06203ae193510504dbf484ae867666460561b273fe173e5e19e4b50ec3928ec7d31f60ac111f6ffffffffffffffffffffffffffffffffffffffffffffffffffffffffffffffffa02bace8c0159ab3cbea65ac466668e15075c710ef37eb494d06628f35a3a9c511a904f8c9f21a2afea960b4eb8df44f4f21b67ff5a71f3e11ed3ee3ca8cd2a5c5b889b81e0c29cd9365deaadd06c5dd17f0e5d0890b7d9b64e3640768988155cadedf97a9ee5a2bf4acab3b7876d0d5e9157c9bbdeffc2a3ee2f1f1f8a284f15115e2a42f201c9591567cfdc54bff0d5d297e9adf4b62d10dc8d02ed16f4d0c2aa4f14d17afba44326da73f28eae31909f27e975a9e0ad851ace163cb0474d5a54894ac2fa7bc4269800440b4cd104efb6c4b83943054000cf7b939196bb1bf9aa2289dba474272b62f4b26df2d16b6e207abc346ca5f48f510bac5396816367cce35dbf256bdca344eb3c0e26e97313ff9c8acff8acf5c6c9e3be5cbc406e46dd97ecb88600baf68b2179ab5e2e8e8b3c12d83684911f31dc101f322d3823783bd318040efbfb28041e6bd07523ad4cc38d5030cc87b9c4b73b647ed21588fe79ab9fc26e79551d69c89368e9c7d3518be9ec6f64f3776bf60583889d6b5a1c3a01930cb6e4e5de8ee8e4903690470f4e54c2cdef3a8eb58abec897c7c2b20bf9910753e1bd0efd2b08f7d1b1e0e01c0768c3dd65c934b9e8ed25f35efd0534dc46430969a77dff1cf2f4ea312460a9a865692e34a3bbd829ad7fe114a71a1e694c3ae2908d380a6a64d8ba99f8f146b2cd736a2913829e9116098dddfa7aba053c94ad6731e103672b71f9110377ba1a55b1dddcc73d9d37fb5e23dd704734fe723db7d010e2dd63f5b43dd6778915f55eeaf457a616b4810d1d2ca304f34c3f049cfe5cee12d923cae4e0f3b8c04c7270f5334a29ea7592ff21ff25dcf383c3b6759c33ed891a171cfcf66d9b82843b5261064bd00883b76d04f055d058e44f1be47e3475cdb860e6f59da116973401ffdddc3f248dda7b903678bd53cd570fba9a8bb4a665ec19125ac14a8ce625281b0cdd992324c719529b0cec9b7d1ffffffffffffffffffffffffffffffffffffffffffffffffffffffffffffffff6a90f1d49295455d81984da9df214be8bfafe6d16fea39c6c51955029dac1d7538bf559b22b93afe7f398496597f5ee9e60a0f0330ebbb6697b71f00b4107d2f4d12d1734f0a7aa903fc3bb71ee5a1aa918ea4decf29d10715af388bf724b14ab6252f8ec00ce2f5dab9da8b8472a9454653fca48a7b85d8ffe4fe3a19e9d39634070d0f28dec0a4b2264c6037ea6d480d05a6e2eb76ced8615ac484cf13e89081b148feef43b41b18fd0601b67f55904c7666dea722703da5cea044c1bd4f76446da2c2584d1084a30fc2b8ffea2d9f4e3abd66cd1613af7878657dbb0b080c21d4cbc1059486d3f330ca9e067eb2be01e19cc43a07987c6ee21bb598a9f6b5382047c7f1f7a338d829ff814f6818dfd5188eefe879239da3488a2eb936f63c ++ List.replicate 640 0xFF
/-- A boot flash region written to what is given, before all else. -/
def inFlash (s : State) (a : Nat) (b : Bytes) : State :=
  { s with snc := { s.snc with flash := ((List.range b.length).map (a + ·)).zip b ++ s.snc.flash } }
/-- A part that holds the image in slot B, confirmed, under the digest of the key in OTP. -/
def imaged : State := (inFlash stocked (stocked.slotBase 1) (header ++ signature)).otpSet 0x400
  (beBytes 32 0x04fa57bc4e57ab52091ba2f961e56710c402e3ffdd9a8a3d7dc9137719d9fe5f)
/-- A part whose slot record says slot B is confirmed. -/
def recorded : State := stocked.writeSlot ⟨0, 1, 1, 1, 0⟩

/-- The image passes every check. That its signature verifies (`hx`, a closed fact, true when evaluated) is some 1,900
SHAKE128 runs, too many for the kernel: it is the one part not checked here. -/
theorem witness_image_check (hx : imaged.imageSigned (imaged.flashRead (imaged.slotBase 1) imgHeader) (imaged.slotBase 1) = true) :
    imaged.slotOk 1 = true := by
  simp only [State.slotOk, State.storedOk, State.imageOk, hx]
  decide +kernel

theorem witness_commit : ok [
    recorded.takes admin .fw, recorded.runningSlot == 0, recorded.slotRec.state 1 == 1,
    runs (exec (.firmwareCommitStore admin 1) recorded) (State.first · .invalidFwSlot),
    runs (exec (.firmwareCommitStoreAndSetNext admin 1) recorded) (State.first · .invalidFwSlot),
    (recorded.wr Fd.TOP_MODE_MODE mReadonly).takes admin .activate, recorded.takes admin .activate,
    runs (exec (.firmwareCommitActivateNow admin 1) (recorded.wr Fd.TOP_MODE_MODE mReadonly)) (State.first · .fwActivationProhibited),
    recorded.takes admin .profile,
    runs (exec (.profileSelect admin 4) recorded) (State.first · .invalidField)] = true := by decide +kernel

def quiescing (a : QAct) : State :=
  { (stocked.wr Fd.TOP_MODE_MODE mQuiesce).wr Fd.TOP_MODE_RETURN mServe with quiesce := { stocked.quiesce with running := some ⟨a, some admin⟩ } }

/-- QUIESCE with a command that waits for the TRNG. -/
def wordless : State :=
  { quiescing (.firmware 1) with sec := { served.sec with trngWaits := [.create vf1 zonedArgs] }, adminTags := [(vf1, 7)] }

theorem witness_quiesce_end : ok [
    (quiescing (.profile 1 false)).bufBytes ≤ (quiescing (.profile 1 false)).bufRoom,
    (quiescing (.profile 1 false)).mode == mQuiesce, (quiescing (.firmware 1)).cmds.any (·.started) == false,
    runs (exec .activationTimeout { served with boot := { served.boot with actAt := some 0 } }) (fun t => t.boot.fwHang && (t.fn 0).cfs),
    wordless.heldTags.find? (·.2 = 7) == some (vf1, 7), ({ quiescing (.firmware 1) with cmds := [built] }).heldTags.isEmpty,
    runs (exec (.quiesceCommandTimeout 7) wordless) (fun t => t.sec.trngWaits.isEmpty && t.cqes.map (·.status) == [.commandInterrupted]),
    runs (exec (.quiesceCommandTimeout 0) { quiescing (.firmware 1) with cmds := [built] }) (fun t => t.cmds.isEmpty && t.cqes.map (·.status) == [.commandInterrupted])] = true := by
  decide +kernel

def bank (step : Nat) : State := { served with pwr := { served.pwr with huStep := step, huVolt := 30000 } }

theorem witness_holdup : ok [
    runs (exec (.holdupSelfTestDue 86400000000000) served) (fun t => t.pwr.huStep == 1),
    runs (exec (.holdupSelfTestStart 29000 5) (bank 1)) (fun t => t.pwr.huStep == 2 && t.pwr.huVolt == 29000 && t.pins.huTest),
    runs (exec (.holdupSelfTestEnd 0 7) (bank 2)) (fun t => t.pwr.huStep == 0 && t.hlt.holdup == 0 && t.pwr.huAt == 7),
    runs (exec (.holdupSelfTestEnd 1000000 7) (bank 2)) (fun t => t.hlt.holdup == 1 && t.flag Fd.XLT_JRNL_FLASH)] = true := by decide +kernel

/-! ## Resets and starts -/

def bt (s : State) (f : Boot → Boot) : State := { s with boot := f s.boot }
def pw (s : State) (f : Pwr → Pwr) : State := { s with pwr := f s.pwr }
/-- A part in service with a queued command of function 0. -/
def busy : State := { served with cmds := [queued] }
def vfs (s : State) : State := bt s fun b => { b with vfEnable := true }
def withBuffer (s : State) : State :=
  { s with clutches := [⟨1, 1, 0, 0, 1, 0, 8, 0, ⟨⟨0, 0, 0, 0, 0, 0, 0, 0, 0⟩, []⟩, .buffer, false, 0, 0, 0⟩] }

theorem witness_functions : ok [
    (vfs live).reaches 1, (vfs live).asleep == false, (live.fn 1).en == false,
    runs (exec (.ccEnSet 1 1) (vfs live)) (fun t => (t.fn 1).en && (t.fn 1).rdy && (t.fn 1).ams == 1),
    runs (exec .ccEnClearPf0 busy) (fun t => (t.fn 0).en == false && t.cmds.isEmpty && t.cqes.isEmpty),
    runs (exec (.vfReset 1) (withVf (vfs served))) (fun t => (t.fn 1).resetting && (t.fn 1).rdy == false && t.rd (Fd.VFM_FN_STATE_RESET 1) == 1),
    runs (exec (.functionResetComplete 1) ((withVf served).modFn 1 fun f => { f with resetting := true, bal := 3 })) (fun t =>
      (t.fn 1).resetting == false && (t.fn 1).bal == 0 && (t.fn 1).rdy)] = true := by decide +kernel

theorem witness_flr : ok [
    live.allFns.contains 0, live.boot.fwHang == false, live.boot.pendingSlot.isNone, live.asleep == false,
    runs (exec .pf0Flr busy) (fun t => (t.fn 0).en == false && (t.fn 0).resetting && t.cmds.isEmpty && t.boot.memSpace == false && t.boot.bar2 == 0)] = true := by decide +kernel

theorem witness_shutdown : ok [
    (busy.fn 0).shst == 0, (busy.fn 0).rdy,
    runs (exec (.shutdownNotification 0) { live with xlt := { live.xlt with restored := false } }) (fun t => (t.fn 0).shst == 2),
    runs (exec (.shutdownNotification 0) { live with xlt := { live.xlt with nextRec := 1 } }) (fun t => (t.fn 0).shst == 1 && t.xlt.ckptRunning),
    runs (exec (.shutdownNotification 0) (withBuffer busy)) (fun t => (t.fn 0).shst == 1),
    runs (exec (.configurationRequest .other) (bt live fun b => { b with running := true, cfgReady := false })) (fun t =>
      t.replies.map (·.err) == [true]),
    runs (exec (.configurationRequest (.vfEnable true)) (bt live fun b => { b with running := true })) (fun t => t.boot.vfEnable),
    runs (exec (.configurationRequest (.memSpace false)) (bt live fun b => { b with running := true })) (fun t => t.hasWindow == false),
    runs (exec (.configurationRequest (.bar2 0x123456789)) (bt live fun b => { b with running := true })) (fun t => t.boot.bar2 == 0x120000000),
    runs (exec (.configurationRequest .other) (bt live fun b => { b with running := true })) (fun t => t.replies.length == 1)] = true := by decide +kernel

theorem witness_power_on : ok [
    runs (exec (.powerOn true true 5) State.reset) (fun t => t.pwr.on && t.boot.perstLow && t.boot.running && t.rd Fd.TOP_BOOT_STAGE == 0),
    runs (exec (.powerOn true true 5) (pw State.reset fun p => { p with flushed := true })) (fun t => t.rd Fd.TOP_BOOT_KIND == 2),
    keptWord Reg.CHO_FRAME == false,
    runs (exec (.perstNAssert 5) (busy.wr (Fd.DMC_C_STATE_STATE 3) 2)) (fun t => t.boot.perstLow && t.cmds.isEmpty && t.rd (Fd.DMC_C_STATE_STATE 3) == 5),
    runs (exec (.perstNDeassert [1, 3, 3] 5) (bt live fun b => { b with perstLow := true })) (fun t =>
      t.pins.prf == 3 && t.rd Fd.TOP_BOOT_STAGE == 1 && t.rd Fd.TOP_BOOT_KIND == 1)] = true := by decide +kernel

def starting (stage : Nat) : State :=
  { bt served fun b => { b with running := true, stageAt := 5 } with pins := { served.pins with xin := true } }.wr Fd.TOP_BOOT_STAGE stage
def found : Found := ⟨true, true, 2, 0, true, [], [], [], 0, true, [], [], true, [], [], none, false, []⟩

theorem witness_stages : ok [
    (starting 0).startsOn, (starting 0).flag Fd.GK_THERM_STOP == false, (starting 1).sec.trngWaits.isEmpty,
    runs (exec (.startStageComplete found 9) (starting 0)) (fun t => t.rd Fd.TOP_BOOT_STAGE == 1 && t.boot.stageAt == 9),
    runs (exec (.startStageComplete found 9) (starting 1)) (fun t => t.rd Fd.TOP_BOOT_STAGE == 2),
    runs (exec (.startStageComplete { found with otpOk := false } 9) (starting 1)) (fun t => t.boot.limited && t.rd Fd.TOP_BOOT_FAIL == 2),
    runs (exec (.startStageComplete { found with flashOk := false } 9) (starting 2)) (fun t => t.boot.limited && t.rd Fd.TOP_BOOT_FAIL == 1),
    runs (exec (.startStageComplete found 9) (starting 4)) (fun t => t.boot.limited && t.rd Fd.TOP_BOOT_FAIL == 3)] = true := by decide +kernel

/-- A start at stage 9 of a part in FIELD that has found its maps. -/
def deciding : State :=
  let s := bt ((starting 9).wr Fd.SEC_LIFECYCLE_STATE lFIELD) fun b => { b with fieldStarted := true }
  let s := s.otpSet 4 [255, 255, 255]
  { s with xlt := { s.xlt with restored := false }, hlt := { s.hlt with holdup := 0 } }

theorem witness_decision : ok [
    (starting 8).cho.goods ≠ 4,
    runs (exec (.chorusWaitEnd (10 ^ 12)) (starting 8)) (fun t => t.rd Fd.TOP_BOOT_STAGE == 9),
    deciding.startsOn, deciding.otpLifecycle == lFIELD, deciding.lifecycle == lFIELD, deciding.anyPond, decide (deciding.fencedCount ≤ 32),
    runs (exec (.startDecision 9) deciding) (fun t => t.mode == mServe && t.boot.running == false && (t.fn 0).rdy),
    runs (exec (.startWatchdog 25000000005) (starting 3)) (fun t => t.rd Fd.TOP_BOOT_STAGE == 1 && t.rd Fd.TOP_BOOT_KIND == 1),
    runs (exec (.prfChange 9) live) (fun t => t.rd Fd.TOP_PROFILE_PINCHG == 1 && t.pins == live.pins)] = true := by decide +kernel

/-! ## Power and temperature -/

/-- PWRFAIL_N held, its flush ended. -/
def flushed (low : Bool) : State := pw (served.setFlag Fd.TOP_MODE_FLUSH true) fun p => { p with pfHold := true, pfLow := low, flushRes := 1 }

theorem witness_power_fail : ok [
    served.rd Fd.GK_PSTATE_CUR == 0, served.programRuns == false, served.boot.startWait.isNone,
    runs (exec (.pwrfailNAssert 499 5) served) (fun t => t == served.at 5),
    runs (exec (.pwrfailNAssert 1000 5) served) (fun t => t.pwr.pfHold && t.flag Fd.TOP_MODE_FLUSH && t.fetches 0 == false),
    runs (exec (.flushComplete true 9) (pw (served.setFlag Fd.TOP_MODE_FLUSH true) fun p => { p with pfHold := true })) (fun t => t.pwr.flushRes == 1 && t.pwr.flushed),
    runs (exec (.flushComplete false 9) (pw (served.setFlag Fd.TOP_MODE_FLUSH true) fun p => { p with pfHold := true })) (fun t => t.pwr.flushRes == 2),
    runs (exec (.vddAonLoss 9) served) (fun t => t.pwr.on == false && t.evr.staging.isEmpty)] = true := by decide +kernel

theorem witness_recovery : ok [
    runs (exec (.pwrfailNDeassert 7) (flushed true)) (fun t => t.pwr.pfLow == false && t.pwr.pfHigh == 7),
    runs (exec (.pwrfailNRecovery 100000000) (bt (flushed false) fun b => { b with perstLow := true })) (fun t => t.pwr.pfHold == false),
    (flushed false).mode == mServe, (flushed false).flag Fd.GK_THERM_STOP == false,
    runs (exec (.pwrfailNRecovery 100000000) (flushed false)) (fun t => t.mode == mQuiesce && t.rd Fd.TOP_MODE_QCAUSE == 3),
    runs (exec (.pwrfailNStuck 1000000000) (bt (flushed true) fun b => { b with running := true })) (fun t => t.pwr.stuck && t.rd Fd.XLT_FLUSH_LAST_RESULT == 3),
    runs (exec (.pwrfailNStuck 1000000000) (flushed true)) (fun t => t.pwr.stuck && t.mode == mReadonly && t.rd Fd.TOP_MODE_ROCAUSE == 3)] = true := by
  decide +kernel

theorem witness_nvme_power : ok [
    served.takes admin .setFeat,
    runs (exec (.setFeaturesPowerManagement admin 4) served) (fun t => t.rd Fd.GK_PSTATE_NVME == 4 && State.first t .success),
    runs (exec (.setFeaturesPowerManagement admin 5) served) (State.first · .invalidField),
    runs (exec (.setFeaturesHctm admin 323 367) served) (fun t => t.pwr.tmt2 == 367 && State.first t .success),
    runs (exec (.setFeaturesHctm admin 322 0) served) (State.first · .invalidField),
    runs (exec (.autonomousPowerStateTransition 4) served) (fun t => t.rd Fd.GK_PSTATE_NVME == 4)] = true := by decide +kernel

def asked (n : Nat) : State := served.wr Fd.GK_PSTATE_REQ_STATE n
def sleeping (n : Nat) : State := served.wr Fd.GK_PSTATE_CUR n

theorem witness_power_states : ok [
    (asked 2).sleepReady, (asked 3).sleepReady,
    runs (exec (.powerStateEntry none) (asked 1)) (fun t => t.rd Fd.GK_PSTATE_CUR == 1),
    runs (exec (.powerStateEntry none) (asked 2)) (fun t => t.rd Fd.GK_PSTATE_CUR == 2),
    (bt (asked 4) fun b => { b with perstLow := true, profile := { b.profile with offEnable := true } }).offReady,
    runs (exec (.powerStateEntry none) (bt (asked 4) fun b => { b with perstLow := true, profile := { b.profile with offEnable := true } })) (fun t =>
      t.rd Fd.GK_PSTATE_CUR == 4 && t.pwr.on == false),
    ((asked 1).rd Fd.GK_WAKECFG_EN).testBit 3,
    runs (exec (.powerStateEntry (some 3)) (asked 1)) (fun t => t.rd Fd.GK_PSTATE_CUR == 0 && (t.rd Fd.GK_WAKESRC_PEND).testBit 3),
    (sleeping 3).asleep,
    runs (exec .timerWake ((sleeping 2).wr Fd.GK_WAKECFG_TIMER 9)) (fun t => (t.rd Fd.GK_WAKESRC_PEND).testBit 5),
    runs (exec .clkreqNWake ((sleeping 2).wr Fd.GK_WAKECFG_EN 2)) (fun t => t.pwr.waking == some 1),
    (sleeping 2).hasWindow,
    runs (exec (.windowAccessInLowPower 6) (sleeping 2)) (fun t => t.pwr.held == [(false, 4, 1)]),
    runs (exec (.wakeEvent 0 [] 9) (pw (sleeping 2) fun p => { p with waking := some 1 })) (fun t => t.asleep == false && t.pwr.waking.isNone)] = true := by
  decide +kernel

theorem witness_dev_wake : ok [
    runs (exec (.devWakeNEdge true 0 7) served) (fun t => t.pwr.highSince == some 7),
    runs (exec (.devWakeNEdge false 9999 7) served) (fun t => t == served.at 7),
    (served.at 1000007).storm == false,
    runs (exec (.devWakeNEdge false 10000 1000007) (pw (sleeping 4) fun p => { p with highSince := some 7 })) (fun t => t.pins.pwrEn),
    runs (exec (.devWakeNEdge false 10000 1000007) (pw (sleeping 2) fun p => { p with highSince := some 7 })) (fun t => (t.rd Fd.GK_WAKESRC_PEND).testBit 0),
    runs (exec (.devWakeStormEnd 7) (served.wr Fd.GK_WAKECFG_STORM 1)) (fun t => t.rd Fd.GK_WAKECFG_STORM == 0)] = true := by decide +kernel

def op (now want : Nat) : State :=
  pw (((served.wr Fd.CLK_OP_CEIL 5).wr Fd.CLK_OP_MAX 5).wr Fd.CLK_OP_REQ want) fun p => { p with clkOp := now }

theorem witness_operating_points : ok [
    (op 2 3).writable 0 Reg.CLK_OP, (op 2 3).asleep == false, (op 2 3).pwr.avsFault == false,
    runs (exec (.clkOpReqWrite 0 0x505) (op 2 3)) (fun t => t.rd Fd.CLK_OP_REQ == 5 && t.rd Fd.CLK_OP_CEIL == 5),
    (op 2 3).opTarget == 3,
    runs (exec .dvfsStep (op 2 3)) (fun t => t.pwr.climbing == some 3 && t.pwr.avsNow == 770 && t.pwr.clkOp == 2),
    runs (exec .dvfsStep (op 3 2)) (fun t => t.pwr.clkOp == 2),
    runs (exec .dvfsRailSettled (pw (op 2 3) fun p => { p with climbing := some 3 })) (fun t => t.pwr.clkOp == 3 && t.pwr.climbing.isNone),
    runs (exec .vddCoreSag (pw (op 2 3) fun p => { p with avsHeld := some 700 })) (fun t => t.pwr.avsNow == 700 && t.pwr.avsHeld.isNone),
    runs (exec (.clkOpReqWrite 0 0x505) (pw (op 2 3) fun p => { p with avsFault := true })) (fun t => t.pwr.clkOp == 2),
    runs (exec .vddCoreSag (op 2 3)) (fun t => t.pwr.clkOp == 0 && t.rd Fd.CLK_AVS_STAT_ERR == 1)] = true := by decide +kernel

theorem witness_regulator : ok [
    (op 2 2).writable 0 Reg.CLK_AVS_CMD,
    runs (exec (.clkAvsCmd 0 (3 * 2 ^ 30) 77) (op 2 2)) (fun t => t.rd Fd.CLK_AVS_STAT_DATA == 77),
    runs (exec (.clkAvsCmd 0 (2 ^ 31 + 729) 0) (op 2 2)) (fun t => t.pwr.avsHeld == some 729 && t.rd Fd.CLK_AVS_STAT_HELD == 1),
    runs (exec (.clkAvsCmd 0 (2 ^ 31 + 730) 0) (op 2 2)) (fun t => t.pwr.avsNow == 730 && t.rd Fd.CLK_AVS_STAT_BUSY == 1),
    runs (exec .avsRegulatorFault (op 2 2)) (fun t => t.pwr.avsFault && t.pwr.clkOp == 2),
    runs (exec (.avsRetry true) (pw (op 2 2) fun p => { p with avsFault := true })) (fun t => t.pwr.avsFault == false),
    runs (exec (.avsRetry false) (pw (op 2 2) fun p => { p with avsFault := true })) (fun t => t.rd Fd.CLK_AVS_STAT_ERR == 1)] = true := by decide +kernel

theorem witness_ponds : ok [
    served.usable 7, served.openPonds.getLast? == some 7, decide (2 < served.openPonds.length), served.gated 7 == false,
    runs (exec (.pondGate 7) served) (fun t => t.pwr.gating == [7] && t.gated 7 == false),
    (pw served fun p => { p with gating := [7] }).drained 7,
    runs (exec (.pondGateDrained 7) (pw served fun p => { p with gating := [7] })) (fun t => t.gated 7 && t.pwr.gating.isEmpty)] = true := by decide +kernel
def gatedPond : State := stateOf (exec (.pondGateDrained 7) (pw (served.wr Fd.CLK_OP_CUR 5) fun p => { p with gating := [7] })) served
theorem witness_ungate : ok [
    gatedPond.gated 7, decide (gatedPond.ungated < opPonds (gatedPond.rd Fd.CLK_OP_CUR)),
    ((List.range 7).any fun q => gatedPond.gated q && decide (4 ≤ gatedPond.unfenced q)) == false,
    runs (exec (.pondUngate 7) gatedPond) (fun t => t.gated 7 == false)] = true := by decide +kernel

theorem witness_temperatures : ok [
    runs (exec (.thermalStep 9) (served.wr Fd.GK_THERM_STOP 1)) (fun t => t.rd Fd.GK_THERM_LEVEL == 4),
    runs (exec (.thermalStep 9) served) (fun t => t.rd Fd.GK_THERM_LEVEL == (served.at 9).nextLevel)] = true := by decide +kernel

def stopped : State := served.wr Fd.GK_THERM_STOP 1
def cooled (s : State) : State := pw s fun p => { p with coolSince := some 0 }

theorem witness_hold : ok [
    stopped.drainedForHold, stopped.mode == mServe,
    runs (exec .holdEntry stopped) (fun t => t.mode == mHold && t.rd Fd.TOP_MODE_RETURN == mServe),
    runs (exec (.stopClear (10 ^ 12)) (cooled (bt stopped fun b => { b with running := true }))) (fun t => t.flag Fd.GK_THERM_STOP == false),
    ((stopped.wr Fd.TOP_MODE_MODE mHold).wr Fd.TOP_MODE_RETURN mServe).xlt.eol == false,
    runs (exec (.stopClear (10 ^ 12)) (cooled ((stopped.wr Fd.TOP_MODE_MODE mHold).wr Fd.TOP_MODE_RETURN mServe))) (fun t =>
      t.flag Fd.GK_THERM_STOP == false && t.mode == mServe),
    decide ((served.wr (Fd.GK_TEMP_RAW 3) 110).hottest = 110),
    runs (exec .thermalTrip (served.wr (Fd.GK_TEMP_RAW 3) 110)) (fun t => t.pwr.trip && t.fetches 0 == false)] = true := by decide +kernel

/-! ## Log pages, health, events -/

theorem witness_log_pages : ok [
    served.takes admin .logPage, (withVf served).takes vf1 .logPage,
    runs (exec (.getLogPageSmart admin false) served) (State.first · .success),
    runs (exec (.getLogPageAutotomyRecord vf1 false) (withVf served)) (State.first · .invalidLogPage),
    runs (exec (.getLogPageAutotomyRecord admin false) served) (State.first · .success),
    runs (exec (.getLogPageEventRecords admin false 32 64) served) (State.first · .invalidField),
    runs (exec (.getLogPageEventRecords admin false 0 64) served) (State.first · .success),
    runs (exec (.getLogPagePredictableLatency admin 4 false) served) (State.first · .success),
    runs (exec (.getLogPagePredictableLatency admin 4 false) served) (fun t => t.cqes.map (·.data) == [.latency (List.replicate 7 0)]),
    runs (exec (.getLogPagePredictableLatency admin 4 false) (served.modFn 0 fun f => { f with plmOn := [4] })) (fun t =>
      t.cqes.map (·.data) == [.latency (served.plmLog 3)]),
    runs (exec (.getLogPagePredictableLatency admin 5 false) served) (State.first · .invalidField),
    runs (exec (.setFeaturesPlmConfig admin 4 true) served) (fun t => (t.fn 0).plmOn == [4]),
    runs (exec (.setFeaturesPlmWindow admin) served) (State.first · .featureNotChangeable),
    served.takes admin .getFeat, served.takes admin .identify,
    runs (exec (.getFeaturesPlmWindow admin 1) served) (State.first · .success)] = true := by decide +kernel

theorem witness_management : ok [
    runs (exec .subsystemHealthStatusPoll served) (fun t => t.replies.length == 1),
    runs (exec .controllerHealthStatusPoll served) (fun t => t.replies.length == 1),
    runs (exec .nvmeMiOtherCommand (sleeping 2)) (fun t => t.replies.isEmpty && (t.rd Fd.GK_WAKESRC_PEND).testBit 6),
    runs (exec (.readEventRing 64) served) (fun t => t.replies.map (·.err) == [false]),
    runs (exec (.readEventRing 65) served) (fun t => t.replies.map (·.err) == [true]),
    runs (exec .healthMinuteTick (served.wr Fd.GK_THERM_COMPOSITE 102)) (fun t => t.hlt.onMinutes == 1 && t.hlt.critMinutes == 1)] = true := by decide +kernel

def rec1 : Rec := ⟨7, 0, 0, 0x0001, 0, [0]⟩
def staged (n home : Nat) : State :=
  { served with evr := { served.evr with staging := List.replicate n rec1 } }.wr Fd.EVR_STAT_HOME home

theorem witness_records : ok [
    (((staged 5 0).wr Fd.SNC_XIP_DETACH_DETACH 0x1FFFF).wr Fd.SNC_CFG_PRESENT 1).logHomeNow == 0,
    runs (exec .eventRingProgram (((staged 5 0).wr Fd.SNC_XIP_DETACH_DETACH 0x1FFFF).wr Fd.SNC_CFG_PRESENT 1)) (fun t => t.evr.staging.length == 1 && t.evr.ringPos == 4),
    evCodes.contains 0x0101, evSeverity 0x0101 ≠ 4,
    runs (exec (.tokenBucketRefill 0x0101) served) (fun t => (t.evr.bucket 0x0101).supp == 0)] = true := by decide +kernel

def ringed : State := { served with evr := { served.evr with aon := [rec1], fetching := [(0, 0, true)] } }

theorem witness_cursor : ok [
    ringed.writable 0 Reg.EVR_CMD, ringed.writable 0 (Reg.EVR_CURSOR + 4),
    ringed.retained.getLast? == some rec1,
    runs (exec (.evrCmdNewest 0) ringed) (fun t => t.flag Fd.EVR_STAT_FETCH && t.rd Fd.EVR_CURSOR_SEQ == 7),
    runs (exec (.evrCmdOldest 0) ringed) (fun t => t.rd Fd.EVR_CURSOR_SEQ == 7),
    runs (exec (.evrCmdNext 0) ringed) (fun t => t.rd Fd.EVR_CURSOR_SEQ == 7),
    runs (exec (.evrCursorHighWrite 0 0) ringed) (fun t => t.flag Fd.EVR_STAT_FETCH),
    runs (exec (.evrFetchComplete 0) ringed) (fun t => t.flag Fd.EVR_STAT_FETCH == false && t.flag Fd.EVR_STAT_FOUND)] = true := by decide +kernel

/-! ## The chorus -/

def locked : State :=
  { (served.setChoState sLOCKED).wr Fd.CHO_STATE_SRC_USED 1 with cho := { served.cho with ref := some 0, lastQual := some 0, goods := 4, refSrc := 1 } }

/-- QUIESCE with a re-lock of an admin command running. -/
def relocking : State :=
  { (served.wr Fd.TOP_MODE_MODE mQuiesce).wr Fd.TOP_MODE_RETURN mServe with
    cho := { served.cho with relocking := true }, quiesce := { served.quiesce with running := some ⟨.relock false, some admin⟩ } }

theorem witness_beats : ok [
    served.asleep == false, served.pwr.trip == false,
    runs (exec .callBoundary served) (fun t => t.cho.callStart == served.cho.callStart + served.callNs),
    runs (exec (.turnClosing 3 9) served) (fun t => t.med.ops.isEmpty),
    runs (exec (.chbInBeat 9 99) locked) (fun t => t == locked),
    locked.pinSource, locked.choState == sLOCKED, served.cho.slew == 0, decide (served.cho.callSub < 8), locked.dzl.switchSoon == false,
    relocking.dzl.switchDue == false, relocking.cho.goods == 0,
    classify locked.framePeriod locked.cho.ref 5 == .early,
    runs (exec (.chbInBeat 5 100) locked) (fun t => t.cho.rejects == [5] && t.choState == sLOCKED),
    classify locked.framePeriod locked.cho.ref locked.framePeriod == .qualified true,
    offPhase (locked.beatOffset locked.framePeriod) == false,
    runs (exec (.chbInBeat locked.framePeriod 100) locked) (fun t => t.cho.aligned == some locked.framePeriod && t.choState == sLOCKED)] = true := by
  decide +kernel

theorem witness_lock_states : ok [
    runs (exec (.beatTimeout (locked.framePeriod * 2)) locked) (fun t => t.choState == sHOLDOVER && t.cho.goods == 0),
    decide (10000000000 ≤ ((locked.setChoState sHOLDOVER).at (10 ^ 11)).since),
    runs (exec (.holdoverExpiry (10 ^ 11)) (locked.setChoState sHOLDOVER)) (fun t => t.choState == sDRIFTING),
    runs (exec (.driftExpiry (10 ^ 11)) (locked.setChoState sDRIFTING)) (fun t => t.choState == 0),
    runs (exec (.noisyClear 9) locked) (fun t => t.flag Fd.CHO_STATE_NOISY == false),
    runs (exec .relockAcquisitionTimeout relocking) (fun t => t.cho.relocking == false && State.first t .commandSequence)] = true := by decide +kernel

/-- The parameter block that the part's own values make, with a phase. -/
def ownBlock (phase : Nat) : Bytes :=
  let r (f : Fld) := byte (served.rd f)
  [r Fd.CHO_FRAME_FRAME, byte phase, byte (served.rd Fd.CHO_CTL_OVERLAP_EN + 2 * served.rd Fd.CHO_CTL_SRC), 0] ++
  (List.range 4).flatMap (fun c => [r (Fd.CHO_TURNMAP_START c), r (Fd.CHO_TURNMAP_LEN c)]) ++ leBytes 2 64 ++ [0, 0] ++ leBytes 4 1000 ++ zeros 44

theorem witness_relock : ok [
    served.writable 0 Reg.CHO_CTL, served.writable 0 Reg.CHO_PHASE,
    runs (exec (.choCtlRelock 0) served) (fun t => t.flag Fd.CHO_CTL_RELOCK && t.mode == mQuiesce),
    runs (exec (.stagedFieldWrite 0 Reg.CHO_PHASE 255) (served.wr Fd.TOP_LOCK_LOCK 1)) (fun t => t.cho.staged.isEmpty && (t.word Reg.TOP_ERR).testBit 5),
    runs (exec (.stagedFieldWrite 0 Reg.CHO_PHASE 255) served) (fun t => t.cho.staged == [(1, 255)] && t.flag Fd.CHO_CTL_PENDING),
    served.takes admin .vendor,
    (served.entered admin).chorusOk [] == false,
    runs (exec (.chorusControlApply admin []) served) (State.first · .invalidField),
    (stocked.entered admin).chorusOk (ownBlock 9),
    runs (exec (.chorusControlApply admin (ownBlock 9)) stocked) (fun t => t.mode == mQuiesce && t.cqes.isEmpty),
    runs (exec (.chorusControlApply admin (ownBlock (stocked.rd Fd.CHO_PHASE_PHASE))) stocked) (State.first · .success),
    runs (exec (.chorusControlRelock admin 1) served) (State.first · .invalidField),
    runs (exec (.chorusControlRelock admin 0) served) (fun t => t.mode == mQuiesce && t.cho.relocking)] = true := by decide +kernel

/-! ## The Druzinov Link -/

/-- Member 3 of group 1, a ring of 8, with a group key; port 0 in a state, partner 4. -/
def ring (st : Nat) : State :=
  let s := (member.wr Fd.DZL_GROUP_GROUP 1).wr Fd.DZL_GEOM_DIMX 7
  let s := ((s.wr (Fd.DZL_P_STATE_STATE 0) st).wr (Fd.DZL_P_STATE_PARTNER 0) 4).wr Fd.DZL_CFG_PORT_EN 15
  s.setAes slotGroup srcDerived (zeros 32)
def port0 (s : State) (g : Port → Port) : State := s.modPort 0 g
def at0 (s : State) (st : Nat) : Bool := s.pst 0 == st

theorem witness_bring_up : ok [
    (ring 1).portUsed 0, (ring 1).dzl.ports.length == 4, (ring 3).neighbour (ring 3).selfId 0 == 4,
    runs (exec (.portSignalDetect 0 9) (ring pNOSIGNAL)) (at0 · pTRAINING),
    runs (exec (.portTrainingComplete 0 9) (ring pTRAINING)) (at0 · pHELLO),
    runs (exec (.hello 0 2 4 7 0 1 9) (ring pHELLO)) (at0 · pMISWIRED),
    runs (exec (.hello 0 1 4 7 0 1 9) (ring pHELLO)) (fun t => t.pst 0 == pAUTH && t.rd (Fd.DZL_P_STATE_PARTNER 0) == 4),
    runs (exec (.miswiredHelloRetry 0 1000000000) (ring pMISWIRED)) (fun t => t.pst 0 == pMISWIRED && t.dzl.frames.length == 1),
    runs (exec (.bringupTimeout 0 200000000) (ring pTRAINING)) (at0 · pBACKOFF),
    runs (exec (.bringupTimeout 0 200000000) (port0 (ring pTRAINING) fun p => { p with fromUp := true })) (at0 · pNOSIGNAL),
    runs (exec (.backoffExpiry 0 1000000000) (port0 (ring pBACKOFF) fun p => { p with backoff := 1 })) (at0 · pNOSIGNAL),
    runs (exec (.portSignalLoss 0 9) (ring pUP)) (at0 · pNOSIGNAL), (ring pUP).linkRuns,
    runs (exec (.portSignalLoss 0 9) (ring pBACKOFF)) (at0 · pBACKOFF)] = true := by decide +kernel

/-- In AUTH with nonces; the partner is the initiator where its ID is lower. -/
def meeting (partner : Nat) (prev : Bool) : State :=
  port0 ((ring pAUTH).wr (Fd.DZL_P_STATE_PARTNER 0) partner) fun p => { p with nonceA := zeros 16, nonceB := zeros 16, usePrev := prev }
def upLink : State := port0 (ring pUP) fun p => { p with session := true }
def rx0 : Rx := ⟨0, 0, 0⟩

theorem witness_authentication : ok [
    (meeting 4 false).initiator 0, (meeting 2 false).initiator 0 == false, (meeting 2 false).authOpen 0,
    ((meeting 2 false).wr Fd.SEC_TRNG_STAT_OK 1).trngOk,
    ((meeting 4 false).authTag 0 0x52 false (zeros 16) (zeros 16)).isSome,
    ((meeting 2 false).authTag 0 0x49 false (zeros 16) (zeros 16)).isSome,
    (meeting 4 true).authTag 0 0x52 true (zeros 16) (zeros 16) == none,
    (meeting 2 true).authTag 0 0x49 true (zeros 16) (zeros 16) == none,
    runs (exec (.auth2 0 (zeros 16) [] 9) (meeting 4 true)) (fun t => (t.port 0).session == false && t.pst 0 != pAUTH && (t.port 0).authFails == 1),
    runs (exec (.auth3 0 [] 9) (meeting 2 true)) (fun t => (t.port 0).session == false && t.pst 0 != pAUTH),
    runs (exec (.auth3 0 [] 9) (meeting 2 false)) (fun t => (t.port 0).nonceB.isEmpty && t.pst 0 == pAUTH),
    runs (exec (.delay rx0 true 0 1 2 3 9) (port0 (ring pAUTH) fun p => { p with session := true, probes := List.replicate 7 5 })) (at0 · pUP),
    runs (exec (.delayProbeTimer 0 9) upLink) (fun t => t.dzl.frames.map (·.type) == [5]),
    runs (exec (.sessionRekey 0 9) (port0 upLink fun p => { p with sendSeq := 2 ^ 47 })) (fun t => (t.port 0).rekey)] = true := by decide +kernel

def sentFrame : Frame := ⟨0, 4, 6, 3, 4, 0, 0, []⟩

theorem witness_frames : ok [
    (upLink.port 0).session, (upLink.port 0).wait.isEmpty,
    runs (exec (.idle 0 5) (port0 upLink fun p => { p with unacked := [(0, sentFrame)] })) (fun t => (t.port 0).unacked.isEmpty),
    runs (exec (.idle 0 4) (port0 upLink fun p => { p with unacked := [(0, sentFrame)] })) (fun t => (t.port 0).unacked.length == 1),
    runs (exec (.nak 0 4 9) (port0 upLink fun p => { p with unacked := [(7, sentFrame)] })) (fun t => t.dzl.frames == [sentFrame]),
    runs (exec (.frameCrcError 0 false) upLink) (fun t => t.rd (Fd.DZL_P_ERR_CRC 0) == 1 && t.dzl.frames.map (·.flags) == [4]),
    runs (exec (.routedFrameForward rx0 6 1 5 0 0 []) upLink) (fun t => t.dzl.frames.map (fun f => (f.port, f.source, f.dest)) == [(0, 1, 5)])] = true := by
  decide +kernel

def entry5 (heard : Nat) : MapEntry := ⟨5, [], 3, true, 0, heard, 0, false, 0⟩
def mapped : State := { upLink with dzl := { upLink.dzl with map := [{ entry5 0 with id := 2 }] } }

theorem witness_map : ok [
    upLink.selfId ≠ 5, upLink.member,
    runs (exec (.lsa rx0 5 (zeros 8) 3 true 0 9) upLink) (fun t => t.dzl.map.map (fun e => (e.id, e.up, e.heard)) == [(5, 3, 9)]),
    runs (exec (.lsaPeriodic 9) upLink) (fun t => t.dzl.frames.map (·.type) == [3]),
    runs (exec (.lsaExpiry 2 2999999999) mapped) (fun t => t == mapped.at 2999999999),
    runs (exec (.lsaExpiry 2 3000000000) mapped) (fun t => t.dzl.map.isEmpty),
    runs (exec (.rootDisplacement 2 (10 ^ 10)) ((mapped.wr Fd.DZL_TIME_ROOTV 1).wr Fd.DZL_TIME_ROOT 3)) (fun t => t.rd Fd.DZL_TIME_ROOT == 2),
    (upLink.wr Fd.CHO_CTL_SRC 1).linkSource == false,
    runs (exec (.time rx0 2 77 (upLink.rd Fd.CHO_FRAME_FRAME) 0 1 8 0 9)
      (((((upLink.wr Fd.CHO_CTL_SRC 1).wr Fd.DZL_TIME_ROLE 1).wr Fd.DZL_TIME_ROOTV 1).wr Fd.DZL_TIME_PARENT 0))) (fun t =>
        t.dzl.epoch == 77 && t.dzl.rootSince == 8)] = true := by decide +kernel

def preq : PeerReq := source 3
def out1 (tries : Nat) : PeerOut := ⟨7, 0, 3, preq, 0, tries, true, [], none, 0⟩
def asking (tries : Nat) : State := { upLink with dzl := { upLink.dzl with outs := [out1 tries] } }

theorem witness_peer_reads : ok [
    runs (exec (.pread rx0 5 1 preq) (upLink.wr Fd.TOP_MODE_MODE mQuiesce)) (fun t => t.dzl.ins.length == 1),
    runs (exec (.pread rx0 5 1 preq) (upLink.wr Fd.TOP_MODE_MODE mHold)) (fun t => t.dzl.ins.isEmpty && t.dzl.served == 1),
    (out1 0).open,
    runs (exec (.pdata rx0 7 [1, 2]) (asking 0)) (fun t => t.dzl.outs.map (·.data) == [[1, 2]]),
    pstatStatus 2 == .invalidField,
    runs (exec (.pstat rx0 7 2 0) (asking 0)) (fun t => t.dzl.outs.all fun o => o.ended == some .invalidField),
    runs (exec (.peerReadTimeout 7 5000000000) (asking 2)) (fun t => t.dzl.outs.all fun o => o.ended == some .peerUnreachable)] = true := by decide +kernel

/-- A block for device 0 of group 5 on a ring of 2 whose wrapped key has 40 bytes; bit 1 of its flags: no wait. -/
def joinBlock : Bytes := [0, 2, 1] ++ zeros 5 ++ [40, 0] ++ zeros 54 ++
  beBytes 40 0xa81a5ffae16c6ad1a125636aa45cb4c7a8203627d16917511058ef9428ff3db22f4ce1fd555de48d
def outside : State := { served with nss := [] }.setAes slotHostKek srcDerived (zeros 32)

theorem witness_group : ok [
    outside.takes admin .vendor,
    joinOk 5 0 104 joinBlock, joinOk 5 2 104 joinBlock == false,
    runs (exec (.groupJoin admin 5 2 104 joinBlock 9) outside) (State.first · .invalidField),
    outside.aesKey slotHostKek == some (zeros 32), outside.member == false, outside.dzl.joins.isEmpty, outside.sec.scrapped == false,
    (blockField joinBlock 1 1).testBit 0 == false, (blockField joinBlock 1 1).testBit 1,
    runs (exec (.groupLeave admin 1 3 9) served) (State.first · .commandSequence),
    runs (exec (.groupLeave admin 1 3 9) (member.wr Fd.DZL_GROUP_GROUP 1)) (fun t => t.member == false && State.first t .success),
    runs (exec (.groupStatusDevice admin 7) member) (State.first · .success),
    runs (exec (.groupStatusDomain admin 7) served) (State.first · .peerUnreachable),
    runs (exec (.groupStatusDomain admin 7) upLink) (State.first · .success),
    runs (exec (.groupJoinTimeout 5000000000) { served with dzl := { served.dzl with joins := [⟨admin, 0, false⟩] } }) (fun t =>
      t.dzl.joins.isEmpty && State.first t .peerUnreachable)] = true := by decide +kernel

theorem witness_join_key : unwrapKey (zeros 32) ((joinBlock.drop 64).take (blockField joinBlock 8 2)) 32 = some (List.replicate 32 1) := by
  decide +kernel

/-! ## Efts and media -/

def item (cls : ItemCls) (ix : Nat) : Item := ⟨cls, .fn 0, 0, ix, false, none, false⟩
/-- A state with one eft, number 2 of pond 1. -/
def eft12 (e : Eft) : State := served.setEft 1 2 e
/-- An item of the firmware's own, for stripe 8. -/
def unitItem (cls : ItemCls) (ix : Nat) : Item := ⟨cls, .device, 8, ix, false, none, false⟩
def slicing (e : Eft) : State := { eft12 e with xlt := { served.xlt with slices := [(8, 0, true)] } }
/-- A page being rebuilt whose one term, coefficient 3, is an item. -/
def terming : State :=
  { eft12 { Eft.init with deque := [unitItem .repair (termIx 0 0 1)] } with med := { served.med with rows := [⟨8, 0, 0, 0, [], [(1, 3, 1)]⟩] } }
/-- A Reconstruct of one block from two sources, both landed, its output running on eft 3 of pond 1. -/
def landed2 (k : Nat) : PeerOut := ⟨k, 0, k, source 3, 0, 1, true, zeros 4096, some .success, 0⟩
def summing : State :=
  { (eft12 { Eft.init with deque := [item .repair 1] }).setEft 1 3 { Eft.init with run := some (item .write 0) } with
    cmds := [{ Cmd.new 0 0 io .reconstruct 1 0 1 with started := true, owner := some 35, terms := [(0, false), (1, false)] }]
    dzl := { served.dzl with outs := [landed2 0, landed2 1] } }
def summed : Cmd := (summing.cmd 0).getD queued
/-- An eft whose item has asked the host for its data. -/
def fetching (ix : Nat) : State := eft12 { Eft.init with run := some (item .write 0), reqs := [(0, ix, 4096)], nextReq := 2 }

theorem witness_efts : ok [
    served.fenced 1 2 == false, served.gated 1 == false, served.flag Fd.EFT_CTL_STEAL_EN,
    (eft12 { Eft.init with deque := [item .read 0, item .read 1] }).longest 1 == some 2,
    runs (exec (.eftStealPoll 1 3) (eft12 { Eft.init with deque := [item .read 0, item .read 1] })) (fun t =>
      (t.eft 1 3).deque == [item .read 1] && (t.eft 1 2).deque == [item .read 0]),
    (eft12 { Eft.init with deque := [item .read 0, item .read 1] }).leftBehind 1 == [],
    runs (exec (.paritySlice 1 2 false) (slicing { Eft.init with deque := [unitItem .parity 0] })) (fun t =>
      (t.eft 1 2).run == some (unitItem .parity 0) && (t.eft 1 2).deque.isEmpty),
    (slicing { Eft.init with run := some (unitItem .parity 0) }).xlt.slices.any (fun e => e.1 = 8 && e.2.1 = 0), (unitItem .parity 0).isTest == false,
    terming.termCoeff (unitItem .repair (termIx 0 0 1)) == some 3,
    runs (exec (.repairTerm 1 2 2 []) terming) (fun t => t == terming),
    summed.owner == some 35, (summing.eft 1 3).outputs 0, summed.segLen 0 == 4096, ((summing.sources 0).find? fun o => o.src = 1).map (·.tag) == some 1,
    (landed2 1).data.length == 4096,
    runs (exec (.repairTerm 1 2 0 []) summing) (fun t => (t.cmd 0).map (·.terms) == some [(0, false), (1, true)] && (t.eft 1 2).run.isNone),
    decide (4 < tailArea),
    ({ fetching 0 with nss := [nsc], cmds := [Cmd.new 0 0 io .write 2 0 2] }.cmd 0).isSome,
    runs (exec (.hostReadCompletion 1 2 0 [7]) { fetching 0 with nss := [nsc], cmds := [Cmd.new 0 0 io .write 2 0 2] }) (fun t => (t.eft 1 2).regA == [7]),
    runs (exec (.hostReadCompletion 1 2 4 [7]) { fetching 4 with nss := [nsc], cmds := [Cmd.new 0 0 io .write 2 0 2] }) (fun t =>
      (t.eft 1 2).pieces == [(4, [7])]),
    runs (exec (.overflowBufferReturn 1 2) ((eft12 { Eft.init with back := [[1], [2], [3]] }).wr (Fd.EFT_PD_OVF_FREE 1) 61)) (fun t =>
      (t.eft 1 2).back.isEmpty && t.rd (Fd.EFT_PD_OVF_FREE 1) == 64)] = true := by decide +kernel

/-- A page of a repair term. -/
theorem witness_slice : (zeros sliceBytes).length = sliceBytes := by simp [zeros]

def nsr : Ns := { nsc with level := 0, slot := some 3, slotReady := true }
def wcmd : Cmd := { Cmd.new 0 0 io .write 2 0 1 with started := true, admitted := true, items := 1 }
/-- A write item of one block, its data complete, with its key loaded. -/
def writing : State :=
  { (eft12 { Eft.init with run := some (item .write 0), regA := zeros 4096, nextReq := 1 }).setSlot 3 ⟨1, 0, 0, zeros 64⟩ with nss := [nsr], cmds := [wcmd] }
/-- What 4,128 bytes of zeros on the medium decrypt to under a key of zeros, up to the PI tail. -/
def plain1 : Bytes := (xtsDec (zeros 64) 0 (zeros 4128)).take 4096
def stored1 : Stored := ⟨({ magic := clutchMagic, fmt := 1, level := 0, llen := 4096, slen := 4096, check := crc32c plain1, lba := 0, tag := 0, crc := 0 } : Hdr).seal, zeros 4128⟩
def clutch1 (p : Place) : Clutch := ⟨1, 2, 0, 0, 65, 0, 1, 0, stored1, p, p ≠ .buffer, 0, 0, 0⟩
def rcmd (k : Kind) : Cmd := { Cmd.new 0 0 io k 2 0 1 with started := true, items := 2, targets := [1], owner := some 34 }
def seg7 : Segment := ⟨7, 0, List.replicate 16 ⟨5, 0, 9, 0, 1⟩, 65, false, false, 0⟩
/-- A read or digest item of clutch 1, waiting. -/
def reading (k : Kind) (cls : ItemCls) (p : Place) : State :=
  { (eft12 { Eft.init with deque := [item cls 1] }).setSlot 3 ⟨1, 0, 0, zeros 64⟩ with
    nss := [nsr], cmds := [rcmd k], clutches := [clutch1 p], xlt := { served.xlt with segs := [seg7] } }

theorem witness_items : ok [
    writing.slotWaits nsr == false, writing.selectKey nsr 0 0 == .inl (zeros 64), decide ((wcmd.requests nsr 0).length ≤ (writing.eft 1 2).nextReq),
    writing.fenced 1 2 == false,
    (((reading .read .read (.spawn 7)).clutchOf 1).map (·.place)) == some (.spawn 7), decide (ovfNeed 4160 ≤ (reading .read .read .buffer).rd (Fd.EFT_PD_OVF_FREE 1)),
    (reading .read .read (.spawn 7)).inHand 1 2 (item .read 1) (clutch1 (.spawn 7)) == none,
    ((reading .read .read .buffer).inHand 1 2 (item .read 1) (clutch1 .buffer)).map (·.2) == some false,
    runs (exec (.readClutchItem 1 2 false) (reading .read .read (.spawn 7))) (fun t =>
      (t.eft 1 2).parked == [item .read 1] && t.med.ops.map (fun o => (o.unit, o.eft)) == [(1, eftKey 1 2)]),
    (reading .read .read .buffer).slotWaits nsr == false] = true := by decide +kernel

/-- The guard takes a raw body whose length fits. -/
theorem guard_raw {clutch n : Nat} {b : Bytes} (h : badLogical n clutch = false) : Machine.guard clutch 1 n n b = .ok b := by
  simp [Machine.guard, h]

/-- A sealed header is good. -/
theorem seal_good (h : Hdr) (e : h.magic = clutchMagic) (f : h.fmt ≤ 1) : h.seal.good = true := by
  simp [Hdr.good, Hdr.seal, Hdr.head, e, f]

/-- The data a read or digest item gets, all checks passed. -/
theorem witness_item_data (k : Kind) (hk : k = .read ∨ k = .digest) :
    (reading k .read .buffer).readClutch (rcmd k) nsr stored1 65 false = .data (plain1 ++ []) := by
  have h : (reading k .read .buffer).selectKey nsr (rcmd k).fn (rcmd k).keyTag = .inl (zeros 64) := by rcases hk with rfl | rfl <;> decide +kernel
  have e : (xtsDec (zeros 64) stored1.hdr.lba stored1.region).take stored1.hdr.slen = plain1 := rfl
  have g : Machine.guard nsr.clutch stored1.hdr.fmt stored1.hdr.llen stored1.hdr.slen plain1 = .ok plain1 := guard_raw (by decide +kernel)
  have c : crc32c plain1 = stored1.hdr.check := rfl
  have d : stored1.hdr.good = true := seal_good _ rfl (by decide)
  have t : stored1.hdr.tag = (rcmd k).fn := by rcases hk with rfl | rfl <;> rfl
  have l : (rcmd k).byLoc = false := by rcases hk with rfl | rfl <;> rfl
  have p : piBytes nsr.fmt = 0 := rfl
  have q : ∀ a b c n l x y, piCheckAll nsr.fmt a b c n l x y = none := by intro a b c n; cases n <;> intros <;> rfl
  simp [State.readClutch, h, e, g, c, d, t, l, q, p]

/-- A parked read, its die read landed. -/
def parkedRead (q : List Item) : State :=
  let s := reading .read .read (.spawn 7)
  s.setEft 1 2 { Eft.init with deque := q, parked := [item .read 1] }
def dctx : Digest := ⟨0, 1, 1, [], [], 0, none⟩
def digesting : State :=
  let s := reading .digest .digest .buffer
  { s.setEft 1 2 { Eft.init with ctx := [dctx] } with cmds := [{ rcmd .digest with items := 0 }] }

theorem witness_landings : ok [
    runs (exec (.dieDataLanding 1 2 1) (parkedRead [])) (fun t => (t.eft 1 2).run == some (item .read 1) && (t.eft 1 2).parked.isEmpty),
    runs (exec (.dieDataLanding 1 2 1) (parkedRead [item .read 9])) (fun t => (t.eft 1 2).deque.length == 2),
    digesting.cmd 0 == some { rcmd .digest with items := 0 },
    decide ((rcmd .digest).nlb ≤ (absorb (digesting.known.filter fun x => (rcmd .digest).targets.contains x.id) (fun _ => false) 0 0 dctx).next),
    (absorb (digesting.known.filter fun _ => false) (fun _ => true) 0 1 { dctx with next := 0 }).fail.isSome,
    runs (exec (.eftWatchdogExpiry 1 2) (eft12 { Eft.init with run := some (item .write 0) })) (fun t => t.fenced 1 2 && t.rd (Fd.EFT_PD_E_STATE_CAUSE 1 2) == 2),
    served.writable 0 Reg.EFT_FENCE_CMD,
    runs (exec (.eftFenceCmd 0 (2 ^ 31 + 34)) served) (fun t => t.fenced 1 2 && t.rd (Fd.EFT_PD_E_STATE_CAUSE 1 2) == 3)] = true := by decide +kernel

/-- A clutch meets the hypotheses, and its frame decodes. -/
theorem witness_frame : ok [
    (zeros 4096).length == 4096, (encode 3 (zeros 4096)).length == 11,
    (match Machine.guard 4 0 4096 11 (encode 3 (zeros 4096)) with | .ok b => b.length == 4096 && b.all (· = 0) | _ => false)] = true := by decide +kernel

/-! ## Die operations -/

/-- Operation 5 on die (0, 0, 0), block 10, for unit 1. -/
def dop (k : DieKind) (purpose st : Nat) : DieOp :=
  ⟨5, k, 0, 0, 0, 10, 7, purpose, 1, [(1, 3)], [], 0, st, 0, 0, 0, 0, 0, 0, false, false, false, 0⟩
def sop (k : DieKind) (purpose st : Nat) : DieOp := { dop k purpose st with slc := true }
def oped (l : List DieOp) : State := { served with med := { served.med with ops := l }, clutches := [clutch1 .buffer] }
/-- Stripe 8 of a zone, whose member on channel 0 is block 10, and stripe 9 that copies it. -/
def stripe8 : Stripe := ⟨8, 0, 0, 2, 1, 0, [⟨0, 0, 10, 0, 3⟩], 3, false, 0, 0, 96, 3, 0⟩
def stripe9 : Stripe := ⟨9, 0, 0, 6, 1, 0, [⟨6, 0, 9, 0, 3⟩], 0, false, 8, 1, 96, 3, 0⟩
def memberOp (o : DieOp) : State :=
  let s := oped [o]
  { s with xlt := { s.xlt with stripes := [{ stripe8 with seq := 1 }] } }

theorem witness_dies : ok [
    served.chUp 0, served.choState ≠ sFLUSH, served.asleep == false, served.pwr.trip == false,
    runs (exec (.dieOpLaunch 0 9) (oped [dop .read 0 0])) (fun t => t.med.ops == [{ dop .read 0 0 with st := 1, startedAt := 9 }]),
    runs (exec (.erasedCheckComplete 5 0) (oped [dop .program 1 0])) (fun t => t.med.ops.map (·.checked) == [true]),
    (memberOp (dop .program 1 0)).memberOf 0 0 0 10 == [⟨0, 0, 1, 0, 0, false, none⟩],
    (memberOp (dop .program 1 0)).membersLost ⟨0, 0, 1, 0, 0, false, none⟩ == 0,
    ((oped [dop .program 1 0]).memberOf 0 0 0 10).isEmpty, ((oped []).block (blockKey 0 0 0 10)).state == 0,
    served.flag Fd.MED_CFG_ESUSP_EN,
    runs (exec (.hostReadOnBusyDie 5 9) (oped [dop .read 0 0, { dop .erase 7 1 with id := 6 }])) (fun t => (t.op 6).map (·.st) == some 2),
    runs (exec (.dieSuspendComplete 5 9) (oped [dop .erase 7 2])) (fun t => t.med.ops.map (fun o => (o.st, o.suspends)) == [(3, 1)])] = true := by
  decide +kernel

/-- A read of page 0 that waits for its rebuild, and its clutch at the start of stripe 8, whose 32 members are in service. -/
def lostRead : DieOp := { dop .read 10 0 with row := 0, eft := 34 }
def wholeStripe : Stripe := { stripe8 with members := (List.range 32).map fun k => ⟨k, 0, 10, 0, 3⟩ }
def torn : State :=
  let s := { oped [lostRead] with clutches := [clutch1 (.stripe 8)], xlt := { served.xlt with stripes := [wholeStripe] } }
  (List.range 32).foldl (fun (t : State) k => t.wr (Fd.MED_CH_DIES_MAP k) 1) s

theorem witness_die_ends : ok [
    ((oped [dop .program 1 1]).at 9).pollDue (dop .program 1 1),
    runs (exec (.statusPoll 5 true false 9) (oped [dop .program 1 1])) (fun t => t.med.ops == [dop .program 1 1]),
    runs (exec (.dieReadComplete 5 true 0 false 9) (oped [dop .read 0 1])) (fun t => t.med.ops.isEmpty),
    runs (exec (.dieReadComplete 5 false 1 false 9) (oped [dop .read 0 1])) (fun t => t.hlt.retry == 1),
    served.flag Fd.MED_CFG_SOFT_EN,
    runs (exec (.dieReadComplete 5 false 0 true 9) (oped [dop .read 0 1])) (fun t => t.hlt.soft == 1),
    runs (exec (.dieReadComplete 5 false 0 false 9) (oped [dop .read 0 1])) (fun t => t.med.ops.map (·.purpose) == [10]),
    (oped [sop .program 1 1]).carriedHome (sop .program 1 1) == [],
    ((oped [sop .program 1 1]).dropOp 5).carriedHome (sop .program 1 1) == [(1, 3)],
    ((memberOp (dop .program 1 1)).stripe 1).isSome,
    runs (exec (.eraseComplete 5 9) (oped [dop .erase 7 1])) (fun t => (t.block (blockKey 0 0 0 10)).native == 1),
    runs (exec (.eraseComplete 5 9) (oped [sop .erase 7 1])) (fun t => (t.block (blockKey 0 0 0 10)).slc == 1),
    runs (exec (.stripeRebuildRead 5 0) (oped [dop .read 10 1])) (fun t => t.hlt.rebuilt == 1),
    torn.placeOf lostRead == some (.stripe 8), parityPos 8 != 0, parityPos 8 + 1 != 0, torn.othersLost lostRead == [], (clutch1 (.stripe 8)).posIn == 0,
    ((List.range 32).find? fun j => wholeStripe.members[j]?.any lostRead.onBlock) == some 0,
    runs (exec (.stripeRebuildRead 5 2) (oped [dop .read 10 1])) (fun t => t.hlt.readsFailed == 1)] = true := by decide +kernel

def heldCh (st : Nat) : State := { served.wr (Fd.MED_CH_STATE_STATE 0) st with med := { served.med with held := [(0, 0)] } }

theorem witness_channels : ok [
    (dop .program 1 1).busy,
    runs (exec (.buscrcEvent 5 9) (oped [sop .program 1 1])) (fun t => t.hlt.transient == 1),
    decide (3 * (oped []).maxTime (dop .program 1 1) ≤ 10000000000),
    runs (exec (.operationTimeout 5 10000000000) (oped [{ dop .program 1 1 with timed := true }])) (fun t =>
      t.hlt.transient == 1 && t.hlt.statusFail == 1 && t.rd (Fd.MED_CH_STATE_STATE 0) == 3),
    (served.at 9).checkDue 0,
    runs (exec (.trainingCheck 0 false 9) (served.wr (Fd.MED_CH_STATE_STATE 0) 2)) (fun t => t.rd (Fd.MED_CH_STATE_STATE 0) == 3),
    (served.at 9).trans10 0 == 0,
    runs (exec (.retrainingComplete 0 8 8 9) (heldCh 3)) (fun t => t.rd (Fd.MED_CH_STATE_STATE 0) == 2 && t.med.held.isEmpty),
    runs (exec (.retrainingComplete 0 7 8 9) (heldCh 3)) (fun t => t.rd (Fd.MED_CH_STATE_RTFAIL 0) == 1 && t.med.held.length == 1),
    runs (exec (.channelHoldTimeout 0 500000) { heldCh 3 with med := { (heldCh 3).med with ops := [dop .read 0 0] } }) (fun t =>
      t.med.ops.all fun o => o.purpose == 10)] = true := by decide +kernel

def copying : State := { served with xlt := { served.xlt with stripes := [stripe8, stripe9] } }
/-- A folded segment whose clutch stands at the head of its share. -/
def folding : State :=
  { served with
    clutches := [clutch1 (.spawn 7)]
    xlt := { served.xlt with segs := [{ seg7 with folding := true }], copies := [(1, 8, 0)] } }
def rebuilding : State :=
  { stocked.wr (Fd.MED_CH_DIES_MAP 6) 1 with
    med := { stocked.med with blocksPerDie := 100, rebuilds := [⟨0, 0, 8, 0, 0, false, none⟩], usable := some [0, 1, 2, 3] }
    xlt := { copying.xlt with spares := [4, 4, 4, 4], nc := [1000, 1000, 1000, 1000] } }
/-- The same with its replacement block, and so many units of it written; its pages. -/
def lost8 : Rebuild := ⟨0, 0, 8, 0, 0, false, some ⟨6, 0, 5, 1, 0⟩⟩
def half (u : Nat) (rows : List RowOut) : State :=
  { rebuilding with med := { rebuilding.med with rebuilds := [{ lost8 with target := some ⟨6, 0, 5, 1, u⟩ }], rows := rows } }
def lastUnit : DieOp := { dop .program 6 1 with ch := 6, block := 5, unit := 8 }
def ending : State := { half 2 [] with med := { (half 2 []).med with ops := [lastUnit] } }
def checkpointing (q : Nat) : State :=
  { rebuilding with xlt := { rebuilding.xlt with nc := [1000, 0, 0, 0], ckptRunning := true, ckptQuarters := q } }
def unflushable (s : State) : State := { s with hlt := { s.hlt with holdup := 1 } }

theorem witness_rebuilds : ok [
    rebuilding.rebuildOrder == [⟨0, 0, 8, 0, 0, false, none⟩], copying.rebuildOrder == [],
    rebuilding.gateOpen, rebuilding.choState ≠ sFLUSH, rebuilding.flag Fd.GK_THERM_STOP == false, nth rebuilding.xlt.spares 0 0 == 4,
    (rebuilding.stripe 8).isSome, rebuilding.goal lost8 == 3,
    (half 0 []).rebuildOrder == [lost8], ((half 0 []).med.rows.filter lost8.mine).isEmpty, !((half 0 []).unitRows lost8 0).isEmpty,
    ((half 0 [⟨8, 0, 0, 0, [], [(1, 1, 2)]⟩]).med.rows.filter lost8.mine).length == 1,
    runs (exec .rebuildMember (half 0 [⟨8, 0, 0, 0, [], [(1, 1, 2)]⟩])) (fun t => t.med.rows.isEmpty && t.med.ops.map (·.purpose) == [6]),
    (ending.med.rebuilds.find? fun x => x.id = 8 && x.target.any fun y => lastUnit.onBlock y).isSome,
    decide (ending.goal lost8 ≤ 3), ending.hlt.holdup != 1, ending.xlt.unflashed == [], ending.xlt.remaps == []] = true := by decide +kernel

theorem witness_copies : ok [
    copying.stripe 9 == some stripe9, decide (copying.copyRounds stripe9 ≤ stripe9.programmed), !copying.xlt.works.contains (.compact 0 9),
    copying.xlt.remaps == [], copying.hlt.holdup != 1, copying.xlt.unflashed == [],
    (unflushable copying).hlt.holdup == 1,
    (folding.stripe 7).isNone, ((folding.seg 7).map (·.folding)) == some true,
    (folding.segClutches 7).all (fun x => (folding.copyOf x.id).isSome && !folding.carried x.id (· = 3)),
    (checkpointing 0).quarterChoir.any (checkpointing 0).inTurn, (checkpointing 3).quarterChoir.any (checkpointing 3).inTurn,
    (checkpointing 3).xlt.unflashed == [],
    runs (exec .checkpointComplete (checkpointing 0)) (fun t => t.xlt.ckptQuarters == 1),
    runs (exec .checkpointComplete (checkpointing 4)) (fun t => t.xlt.ckptRunning == false)] = true := by decide +kernel

/-- Terms worked by hand in the field of 0x11D: 2 · 0x80 = 0x1D; 0x8E is the inverse of 2; P and Q of two bytes give both back. -/
theorem test_rebuild_terms : gfMul 2 0x80 = 0x1D ∧ gfMul 2 0x8E = 1 ∧ rebuildFromP [[5], [0]] [12] = [9] ∧
    rebuildFromQ [[5], [0]] 1 [23] = [9] ∧ rebuildTwo [[0], [0]] 0 1 [12] [23] = ([5], [9]) := by decide +kernel

/-- One byte of each of 30 members: what is lost comes back. -/
theorem witness_parity : ok [
    let l := (List.range 30).map fun k => [byte (37 * k + 11)]
    l.length == 30 && rebuildFromP (setNth l 29 (zeros 1)) (parityP l 1) == [byte (37 * 29 + 11)] &&
      (termCoeffs 3 (some 31)).foldl (fun a e => gfAcc e.2 a (if e.1 = 30 then parityP l 1 else nth l e.1 [])) (zeros 1) == [byte 122]] = true := by
  decide +kernel

/-! ## DRAM, the boot flash, the security island -/

/-- DRAM channel 0 in a state. -/
def dch (st : Nat) (g : DramCtl → DramCtl) : State := (served.wr (Fd.DMC_C_STATE_STATE 0) st).modDctl 0 g
def dreq (w : Bool) : DramReq := ⟨0, 16, 0, 3, 0, w, false, 0⟩
def darg (w : Bool) : DramArgs := ⟨4608, 0, 3, 0, w, false, .pond⟩
def eccOk : EccSeen := ⟨0, 0, 0⟩

theorem witness_dram_refresh : ok [
    served.dram.ctls.length == 4,
    runs (exec (.refreshDue 0 0 3) (dch 2 fun c => { c with postponed := [(3, 2)] })) (fun t => (t.dctl 0).postponed.isEmpty),
    runs (exec (.refreshDue 0 0 3) (dch 2 fun c => { c with queue := [dreq false], postponed := [(3, 3)] })) (fun t => (t.dctl 0).postponed == [(3, 4)]),
    runs (exec (.refreshDue 0 0 3) (dch 2 fun c => { c with queue := [dreq false], postponed := [(3, 4)] })) (fun t =>
      (t.dctl 0).postponed.isEmpty && t.rd (Fd.DMC_C_REFRESH_FORCED 0) == 1),
    runs (exec (.mr4Read 0 1 true) (dch 1 id)) (fun t => t.rd (Fd.DMC_C_REFRESH_RATE2X 0) == 1),
    runs (exec (.dqsOscillatorRead 0 [3]) (dch 3 id)) (fun t => t.rd (Fd.DMC_C_LANE_WDLY 0 0) == 3),
    runs (exec (.laneRetrainSlice 0 9 true 300 7 8 9) (dch 2 fun c => { c with lanes := [9] })) (fun t =>
      (t.dctl 0).lanes.isEmpty && t.rd (Fd.DMC_C_LANE_RDLY 0 9) == 255)] = true := by decide +kernel

theorem witness_dram_requests : ok [
    runs (exec (.dramRequest (darg true) eccOk 0 9) (dch 2 id)) (fun t => (t.dctl 0).queue.length == 1),
    runs (exec (.dramRequest (darg true) eccOk 0 9) (dch 3 fun c => { c with queue := [dreq true] })) (fun t => (t.dctl 0).queue.length == 1),
    runs (exec (.dramRequest (darg true) eccOk 0 9) (dch 3 fun c => { c with queue := [dreq true, dreq false] })) (fun t => (t.dctl 0).queue.length == 3),
    runs (exec (.dramRequest (darg false) eccOk 0 9) (dch 2 fun c => { c with queue := [dreq true] })) (fun t => t.rd (Fd.DMC_C_HAZ_RAW 0) == 1),
    runs (exec (.dramRequest (darg false) eccOk 0 9) (dch 4 id)) (fun t => t.rd (Fd.DMC_C_STATE_STATE 0) == 2 && t.rd (Fd.DMC_C_STATE_CANCELS 0) == 1),
    runs (exec (.dramRequest (darg false) eccOk 0 9) (dch 5 id)) (fun t => (t.dctl 0).parked.length == 1),
    runs (exec (.streamStarveTimeout 0 10000) (dch 2 fun c => { c with queue := [dreq false] })) (fun t => (t.dctl 0).queue.all (·.lookup))] = true := by
  decide +kernel

theorem witness_dram_power : ok [
    runs (exec (.dramPowerDownEntry 0 1 200) (dch 2 fun c => { c with down := [0] })) (fun t => (t.dctl 0).down == [0, 1] && t.rd (Fd.DMC_C_STATE_STATE 0) == 3),
    runs (exec (.selfRefreshEntry 0 false) ((dch 3 id).wr Fd.GK_PSTATE_REQ_STATE 2)) (fun t => t.rd (Fd.DMC_C_STATE_STATE 0) == 4),
    runs (exec (.selfRefreshEntry 0 true) ((dch 4 id).wr Fd.GK_PSTATE_REQ_STATE 3)) (fun t => t.rd (Fd.DMC_C_STATE_STATE 0) == 5),
    runs (exec (.selfRefreshExit 0 false 9) (dch 5 fun c => { c with parked := [dreq false] })) (fun t => t.rd (Fd.DMC_C_STATE_STATE 0) == 6),
    runs (exec (.selfRefreshExit 0 true 9) (dch 6 fun c => { c with parked := [dreq false] })) (fun t => t.rd (Fd.DMC_C_STATE_STATE 0) == 2),
    served.rd Fd.DMC_SCRUB_PERIOD ≠ 0,
    runs (exec (.patrolScrub 0 16 eccOk true 9) (dch 2 id)) (fun t => t.rd Fd.DMC_SCRUB_PASSES == 1),
    runs (exec (.patrolScrub 0 16 { eccOk with bad := 8 } false 9) (dch 2 id)) (fun t => t.hlt.dramCe == 1),
    runs (exec (.patrolScrub 0 16 { eccOk with bad := 9, region := 3 } false 9) (dch 2 id)) (fun t => t.hlt.dramUe == 1 && t.dram.retired.length == 1)] = true := by
  decide +kernel

/-- The boot flash with core 0's bank set. -/
def flash (addr len : Nat) : State :=
  (((served.wr Fd.SNC_XIP_DETACH_DETACH 0x1FFFF).wr Fd.SNC_CFG_PRESENT 1).wr Fd.SNC_CFG_SIZE 2).wr Fd.SNC_ADDR_ADDR addr |>.wr Fd.SNC_LEN_LEN len
def flashing (o : SncOp) (s : State) : State := { s with snc := { s.snc with running := some o } }
def prog (andow : Bool) : SncOp := ⟨0, 1, 0x8000, 2, [0x0F, 0x00], andow, 0⟩
def blot (s : State) : State := s.flashPut 0x8001 0x33

theorem witness_snc_start : ok [
    (flash 0x8000 256).writable 0 Reg.SNC_OP,
    (flash 0x8000 256).sncRefusal 1 0x8000 256 false == none, (flash 0x8000 256).sncRefusal 2 0x8000 0 false == none,
    (flash 0x8000 256).sncRefusal 3 0x100000 0 false == none, (flash 0x8000 256).sncRefusal 4 0x8000 256 false == none,
    runs (exec (.sncProgram 0 false) (flash 0x8000 256)) (fun t => t.snc.running.isSome && t.rd Fd.SNC_STATUS_BUSY == 1),
    runs (exec (.sncProgram 0 false) (flash 0x8001 256)) (fun t => t.rd Fd.SNC_OP_RESULT == 4),
    runs (exec (.sncSectorErase 0) (flash 0x8800 0)) (fun t => t.rd Fd.SNC_OP_RESULT == 4),
    runs (exec (.sncBlockErase 0) (flash 0x8000 0)) (fun t => t.rd Fd.SNC_OP_RESULT == 4),
    runs (exec (.sncBlankCheck 0) (flash 0x8000 256)) (fun t => t.rd Fd.SNC_STATUS_BUSY == 0 && t.snc.running.isSome),
    runs (exec (.sncBlankCheck 0) (flashing (prog false) (flash 0x8000 256))) (fun t => t.snc.queue.length == 1)] = true := by decide +kernel

theorem witness_snc_end : ok [
    (flash 0x8000 2).flashBlank 0x8000 2,
    runs (exec (.sncOperationComplete true) (flashing (prog false) (flash 0x8000 2))) (fun t => t.flashGet 0x8000 == 0x0F && t.rd Fd.SNC_OP_RESULT == 0),
    runs (exec (.sncOperationComplete true) (flashing (prog true) (blot (flash 0x8000 2)))) (fun t => t.flashGet 0x8001 == 0),
    runs (exec (.sncOperationComplete true) (flashing (prog false) (blot (flash 0x8000 2)))) (fun t => t.flashGet 0x8001 == 0x33 && t.rd Fd.SNC_OP_RESULT == 2),
    runs (exec (.sncOperationComplete true) (flashing { prog false with code := 2 } (blot (flash 0x8000 2)))) (fun t => t.flashGet 0x8001 == 0xFF),
    runs (exec (.sncOperationComplete false) (flashing { prog false with code := 2 } (flash 0x8000 2))) (fun t => t.rd Fd.SNC_OP_RESULT == 3),
    runs (exec (.sncOperationComplete true) (flashing { prog false with code := 4 } (blot (flash 0x8000 2)))) (fun t => t.rd Fd.SNC_OP_RESULT == 2),
    runs (exec .sncDeviceTimeout (flashing (prog false) (flash 0x8000 2))) (fun t => t.rd Fd.SNC_OP_RESULT == 5),
    served.writable 0 Reg.SNC_XIP_DETACH,
    runs (exec (.sncXipDetachWrite 0 1) (served.wr Fd.SNC_XIP_DETACH_DETACH 0)) (fun t => t.rd Fd.SNC_XIP_DETACH_DETACH == 1),
    runs (exec (.bootFlashInstructionFetch 0 4) (flash 0 0)) (fun t => t.snc.faults == 1 && t.replies.map (·.err) == [true]),
    runs (exec (.bootFlashInstructionFetch 0 4) (served.wr Fd.SNC_XIP_DETACH_DETACH 0)) (fun t => t.replies.map (·.err) == [false]),
    runs (exec (.bootFlashDataRead 0 4 2) served) (fun t => t.replies.map (·.data) == [.bytes [0xFF, 0xFF]]),
    runs (exec (.bootFlashDataRead 0 4 5) (flashing (prog false) served)) (fun t => t.replies.map (·.data) == [.bytes [0x5B, 0, 0, 0xA1, 0x5B]])] = true := by
  decide +kernel

/-- Hash engine 5 owned by core 1, the key engine by core 2. -/
def owning : State :=
  let s := (served.wr (Fd.SEC_HE_CTL_OWNED 5) 1).wr (Fd.SEC_HE_CTL_OWNER 5) 1
  ((s.wr Fd.SEC_KE_CTL_OWNED 1).wr Fd.SEC_KE_CTL_OWNER 2).setAes 0 srcDerived (zeros 32)
def unwrapping (op len : Nat) (data : Bytes) : State := { owning with sec := { owning.sec with ke := some ⟨op, len, zeros 32, 9, data⟩ } }

theorem witness_hash : ok [
    owning.writable 1 (Reg.SEC_HE_CTL 5), owning.writable 1 (Reg.SEC_HE_DATA 5), owning.heOwns 5 1, owning.heBusy 5 == false, owning.heReady 5 == false,
    runs (exec (.secHeClaim 0 7 1 2) served) (fun t => t.heOwns 7 0 && t.rd (Fd.SEC_HE_CTL_OUTLEN 7) == 2),
    runs (exec (.secHeClaim 0 5 1 2) owning) (fun t => t == owning.heIntrude 5),
    runs (exec (.secHeDataWrite 1 5 7) owning) (fun t => (t.he 5).msg == [7, 0, 0, 0]),
    runs (exec (.secHeDataWrite 0 5 7) owning) (fun t => t == owning.heIntrude 5),
    runs (exec (.secHeFinal 1 5 3) (owning.setHe 5 ⟨[1, 2, 3, 4], []⟩)) (fun t => t.heBusy 5 && (t.he 5).msg == [1, 2, 3]),
    runs (exec (.secHeRelease 1 5) owning) (fun t => t.flag (Fd.SEC_HE_CTL_OWNED 5) == false),
    (owning.wr (Fd.SEC_HE_STATUS_DONE 5) 1).readable 1 (Reg.SEC_HE_DIGEST 5 (owning.heLast 5)),
    runs (exec (.secHeDigestLastRead 1 5) ((owning.wr (Fd.SEC_HE_STATUS_DONE 5) 1).setHe 5 ⟨[], List.replicate 64 1⟩)) (fun t =>
      t.flag (Fd.SEC_HE_CTL_OWNED 5) == false && t.replies.map (·.value) == [0x1010101]),
    runs (exec (.secHeDigestLastRead 0 5) owning) (fun t => t == owning.reply 0 0 false .none)] = true := by decide +kernel

theorem witness_key_engine : ok [
    served.writable 2 Reg.SEC_KE_CTL, owning.keOwns 2, owning.flag Fd.SEC_KE_STATUS_BUSY == false, owning.writable 2 Reg.SEC_KE_DATA,
    runs (exec (.secKeClaim 2) served) (fun t => t.keOwns 2),
    keLenBad 0 0x100000 == false, keLenBad 0 0x100001, keLenBad 1 16 == false, keLenBad 2 512 == false, keLenBad 2 15,
    owning.aesKey (owning.rd Fd.SEC_KE_SLOTS_KEY) == some (zeros 32), (owning.wr Fd.SEC_KE_SLOTS_KEY 5).aesKey 5 == none,
    runs (exec (.keStartCmac 2) (owning.wr Fd.SEC_KE_LEN_LEN 16)) (fun t => t.sec.ke.isSome && t.rd Fd.SEC_KE_STATUS_BUSY == 1),
    runs (exec (.keStartUnwrapAes 2) (owning.wr Fd.SEC_KE_LEN_LEN 15)) (fun t => t.rd Fd.SEC_KE_STATUS_ERR == 1),
    runs (exec (.keStartUnwrapXts 2) ((owning.wr Fd.SEC_KE_LEN_LEN 16).wr Fd.SEC_KE_SLOTS_KEY 5)) (fun t => t.rd Fd.SEC_KE_STATUS_ERR == 3),
    runs (exec (.secKeAbort 2) (unwrapping 0 16 [])) (fun t => t.sec.ke.isNone && t.keOwns 2),
    runs (exec (.secKeRelease 2) (unwrapping 0 16 [])) (fun t => t.flag Fd.SEC_KE_CTL_OWNED == false),
    runs (exec (.secKeDataWrite 2 7) (unwrapping 0 18 (zeros 16))) (fun t => t.sec.ke.map (·.data.length) == some 18),
    runs (exec (.secKeDataWrite 2 7) (unwrapping 0 16 (zeros 16))) (fun t => t.rd Fd.SEC_KE_STATUS_ERR == 1)] = true := by decide +kernel
/-- Wrapped under a key of zeros, by another implementation of RFC 5649: a key of 32 ones, one of a single byte. -/
def blob32 : Bytes := beBytes 40 0xa81a5ffae16c6ad1a125636aa45cb4c7a8203627d16917511058ef9428ff3db22f4ce1fd555de48d
def blob1 : Bytes := beBytes 16 0x13353affb90ccad68cef0790f94920fa

theorem witness_unwrap : ok [
    runs (exec (.keOperationComplete 3 4) (unwrapping 0 16 (zeros 16))) (fun t => t.rd Fd.SEC_KE_STATUS_DONE == 1 && t.rd (Fd.SEC_KE_TAG_TAG 0) == 0x3C051192),
    runs (exec (.keOperationComplete 3 4) (unwrapping 2 40 blob32)) (fun t => t.slot 9 == ⟨2, 3, 4, List.replicate 32 1⟩),
    runs (exec (.keOperationComplete 3 4) (unwrapping 2 16 blob1)) (fun t => t.rd Fd.SEC_KE_STATUS_ERR == 1),
    runs (exec (.keOperationComplete 3 4) (unwrapping 2 16 (zeros 16))) (fun t => t.rd Fd.SEC_KE_STATUS_ERR == 2)] = true := by decide +kernel
theorem witness_slots : ok [
    served.writable 0 Reg.SEC_KS_CMD,
    runs (exec (.secKsZero 0) (owning.wr Fd.SEC_KS_SEL_SLOT 0)) (fun t => (t.slot 0).kind == 0),
    (served.wr Fd.SEC_TRNG_STAT_OK 1).trngOk,
    runs (exec (.secKsFill 0) (served.wr Fd.SEC_TRNG_STAT_OK 1)) (fun t => t.sec.drawn == 1),
    runs (exec (.secKsFill 0) (served.wr Fd.SEC_TRNG_STAT_OK 0)) (fun t => t.sec.trngWaits.length == 1),
    served.readable 0 Reg.SEC_TRNG_DATA,
    runs (exec (.secTrngDataRead 0) (served.wr Fd.SEC_TRNG_STAT_OK 0)) (fun t => t.replies.map (·.value) == [0]),
    runs (exec (.securityAlarm 1 0) owning) (fun t => t.rd Fd.SEC_ALARM_TEMP == 1 && (t.slot 0).kind == 0 && t.flag (Fd.SEC_HE_CTL_OWNED 5) == false),
    runs (exec (.securityAlarm 2 0) owning) (fun t => t.rd Fd.SEC_ALARM_OTPECC == 1 && t.sec == owning.sec),
    runs (exec (.securityAlarm 3 0) owning) (fun t => t.trngOk == false),
    runs (exec (.securityAlarm 4 5) (owning.setHe 5 ⟨[1], []⟩)) (fun t => t.he 5 == heDefault 5)] = true := by decide +kernel

/-! ## Security protocols -/

/-- A part of a life-cycle state in register and OTP, VQPS in range. -/
def life (k : Nat) : State :=
  let s := (({ served with pins := { served.pins with vqps := true } }).wr Fd.SEC_LIFECYCLE_STATE k).wr Fd.SEC_TRNG_STAT_OK 1
  (List.range k).foldl (fun (t : State) j => t.otpSet (4 * j) [255, 255, 255, 255]) s
def inField : State := ((life lFIELD).wr (Fd.VFM_FN_KEYS_SLOTS 0) 4).setAes slotHostKek srcDerived (zeros 32)
def afterField : State := { inField with nss := [] }

theorem witness_protocol_checks : ok [
    inField.takes admin .security, (withVf inField).takes vf1 .security, (inField.entered admin).lifecycle == lFIELD,
    runs (exec (.securityProtocolList admin) inField) (State.first · .success),
    runs (exec (.identity admin 12316) inField) (State.first · .invalidField),
    runs (exec (.lifecycleChallenge vf1 48) (withVf inField)) (State.first · .accessDenied),
    (served.entered admin).lifecycle == lBLANK,
    runs (exec (.hashFinish admin 64) served) (State.first · .commandSequence),
    runs (exec (.identity admin 12320) served) (State.first · .commandSequence)] = true := by decide +kernel

theorem witness_keys : ok [
    (afterField.entered admin).keyCount 0 == 4, (afterField.entered admin).aesKey slotHostKek == some (zeros 32),
    runs (exec (.keyInjection admin 4 []) afterField) (State.first · .sscInvalidParameter),
    runs (exec (.keyInjection admin 3 []) ((life lFIELD).wr (Fd.VFM_FN_KEYS_SLOTS 0) 6)) (State.first · .keySlotEmpty),
    runs (exec (.keyClear admin 3) afterField) (State.first · .success),
    settingsBad (zeros 256) == false, ((afterField.entered admin).otpGet 0x800).toNat.testBit 0 == false, (afterField.entered admin).pins.vqps,
    runs (exec (.settingsAdvance admin (zeros 256)) { afterField with pins := { afterField.pins with vqps := false } }) (State.first · .operationDenied),
    (List.range 4).all fun g => (((afterField.otpSet 0x800 [1]).otpSet 0x900 [1]).otpSet 0xA00 [1] |>.otpSet 0xB00 [1]).otpGet (0x800 + 256 * g) == 1] = true := by
  decide +kernel

def report (st : Nat) (held : List Src) : Attest := ⟨0, zeros 32, st, 0, 0, [], held⟩
def attesting (l : List Attest) : State := { inField with sec := { inField.sec with attests := l } }

theorem witness_attestation : ok [
    runs (exec (.attestRequest admin (zeros 64) true) ((attesting []).wr Fd.SEC_IDENT_READY 1)) (fun t => State.first t .success && t.signing),
    runs (exec (.attestRequest admin (zeros 64) false) ((attesting []).wr Fd.SEC_IDENT_READY 0)) (fun t =>
      State.first t .indexExhausted && t.rd Fd.SEC_IDENT_EXHAUSTED == 1),
    runs (exec (.attestRequest admin (zeros 64) true) (attesting [report 1 []])) (State.first · .commandSequence),
    runs (exec (.attestRequest admin (zeros 64) true) (attesting [report 0 [], { report 1 [] with fn := 1 }])) (State.first · .success),
    runs (exec (.attestReport admin 10152) inField) (State.first · .commandSequence),
    runs (exec (.attestReport admin 10152) (attesting [report 2 []])) (fun t => State.first t .success && t.sec.attests.isEmpty),
    runs (exec (.attestReport admin 10152) (attesting [report 1 []])) (fun t => t.cqes.isEmpty && t.sec.attests.map (·.held) == [[admin]]),
    decide ((attesting [report 1 []]).rd Fd.SEC_IDX_INDEX + 1 < 2 ^ 40),
    runs (exec (.attestReportDiscard 0 10000000000) (attesting [report 2 []])) (fun t => t.sec.attests.isEmpty),
    runs (exec (.attestReportDiscard 0 9999999999) (attesting [report 2 []])) (fun t => t.sec.attests.length == 1)] = true := by decide +kernel

def session : State := { inField with sec := { inField.sec with sessions := [(0, 4, 0)] } }

theorem witness_sessions : ok [
    (inField.entered admin).sessionOf 0 == none, (session.entered admin).sessionOf 0 == some 4,
    runs (exec (.hashOpen admin [7, 3, 3, 0] 9) inField) (fun t => t.sessionOf 0 == some 7 && t.heOwns 7 0x400),
    runs (exec (.hashOpen admin [4, 0, 0, 0] 9) (inField.wr (Fd.SEC_HE_CTL_OWNED 4) 1)) (State.first · .engineOwned),
    runs (exec (.hashOpen admin [0xFF, 0, 0, 0] 9) ([4, 5, 6, 7].foldl (fun (s : State) n => s.wr (Fd.SEC_HE_CTL_OWNED n) 1) inField)) (State.first · .engineOwned),
    runs (exec (.hashFeed admin [9] 9) session) (fun t => (t.he 4).msg == [9]),
    runs (exec (.hashRelease admin 0) session) (fun t => State.first t .success && t.sec.sessions.isEmpty),
    runs (exec (.hashFeed admin [9] 9) inField) (State.first · .commandSequence),
    runs (exec (.hashSessionTimeout 0 10000000000) session) (fun t => t.sec.sessions.isEmpty),
    runs (exec (.hashSessionTimeout 0 9999999999) session) (fun t => t == session.at 9999999999)] = true := by decide +kernel

def challenged : State := { inField with sec := { inField.sec with challenge := some (zeros 16) } }
def advance (k : Nat) : Bytes := [byte k] ++ zeros 15 ++ (challenged.entered admin).uid ++ zeros 16 ++ zeros 16

theorem witness_lifecycle : ok [
    (inField.entered admin).trngOk,
    runs (exec (.lifecycleChallenge admin 48) inField) (fun t => State.first t .success && t.sec.challenge.isSome),
    runs (exec (.lifecycleChallenge admin 48) (inField.wr Fd.SEC_TRNG_STAT_OK 0)) (fun t => t.cqes.isEmpty && t.sec.trngWaits.length == 1),
    lifeStep (challenged.entered admin).otpLifecycle lSCRAPPED, lifeStep (challenged.entered admin).otpLifecycle lFIELD == false,
    runs (exec (.lifecycleAdvance admin (advance lFIELD)) challenged) (fun t => State.first t .invalidField && t.sec.challenge.isNone),
    runs (exec (.lifecycleAdvance admin (advance lSCRAPPED)) inField) (State.first · .invalidField),
    runs (exec (.lifecycleAdvance admin (advance lSCRAPPED)) { challenged with pins := { challenged.pins with vqps := false } }) (State.first · .operationDenied),
    runs (exec (.lifecycleProvision (List.replicate 16 7) [] 1 [] 0 0 0) served) (fun t => t == served),
    served.otpLifecycle == lBLANK] = true := by decide +kernel

/-! ## The management window -/

theorem witness_writes : ok [
    served.writable 0 Reg.GK_WAKECFG, served.writable reqPcie Reg.TOP_LOCK, served.writable 0 Reg.TOP_LOCK,
    actsOnWrite Reg.GK_RETSEL == true, actsOnWrite Reg.MED_CFG == false, (regFind Reg.MED_CFG regTable).isSome,
    runs (exec (.registerWrite 0 Reg.MED_CFG 1 true 0) served) (fun t => t.rd Fd.MED_CFG_RETRY_MAX == 0),
    runs (exec (.registerWrite 0 Reg.MED_CFG 1 true 0) (served.wr Fd.TOP_LOCK_LOCK 1)) (fun t => t.rd Fd.MED_CFG_RETRY_MAX == served.rd Fd.MED_CFG_RETRY_MAX),
    runs (exec (.topLockLock 0) served) (fun t => t.rd Fd.TOP_LOCK_LOCK == 1),
    runs (exec (.topLockWinro 0) served) (fun t => t.rd Fd.TOP_LOCK_WINRO == 1 && t.rd Fd.TOP_LOCK_LOCK == 0)] = true := by decide +kernel

theorem witness_register_reads : ok [
    served.readable 0 Reg.TOP_ID, highWord Reg.TOP_ID == false, digestAt Reg.TOP_ID == none, lowWords.contains Reg.TOP_ID == false,
    (regFind Reg.TOP_ID regTable).isSome,
    runs (exec (.registerRead 0 Reg.TOP_ID 1 true) served) (fun t => t.replies.map (·.value) == [0x4C1024B1]),
    lowWords.contains Reg.EVR_NEWEST, highWord (Reg.EVR_NEWEST + 4), served.readable 0 Reg.EVR_NEWEST,
    runs (exec (.lowWordReadLatch 0 Reg.EVR_NEWEST) served) (fun t => t.latch.map (·.1) == [latchKey 0 (Reg.EVR_NEWEST + 4)]),
    runs (exec (.registerRead 0 (Reg.EVR_NEWEST + 4) 1 true) { served with latch := [(latchKey 0 (Reg.EVR_NEWEST + 4), 9)] }) (fun t =>
      t.replies.map (·.value) == [9] && t.latch.isEmpty),
    hasRc (Reg.EVR_NEWEST) == false] = true := by decide +kernel

def gatedAt (p : Nat) : State := served.wr Fd.EFT_POND_MAP_GATED (2 ^ p)

theorem witness_window_errors : ok [
    served.winOpen 0, served.winOpen reqPcie, unmapped 0x3000000, deniedTo 0 0x3000000 == false,
    runs (exec (.registerRead 0 0x3000000 1 true) served) (fun t => t.replies.map (·.value) == [0] && t.rd Fd.TOP_ERR_UNMAPPED == 1 &&
      t.rd Fd.TOP_ERRADDR_VALID == 1 && t.rd Fd.TOP_ERRADDR_OFFSET == 0x3000000 / 4),
    runs (exec (.registerWrite 0 0x3000000 1 true 9) served) (fun t => t.rd Fd.TOP_ERR_UNMAPPED == 1 && t.rd Fd.TOP_ERRADDR_WRITE == 1),
    (gatedAt 1).dark (Reg.EFT_PD_STATUS 1),
    runs (exec (.registerRead 0 (Reg.EFT_PD_STATUS 1) 1 true) (gatedAt 1)) (fun t => t.replies.map (fun x => (x.value, x.err)) == [(0x0BAD0FF0, true)]),
    runs (exec (.registerWrite 0 (Reg.EFT_PD_STATUS 1) 1 true 9) (gatedAt 1)) (fun t => t.rd Fd.TOP_ERR_DARK == 1),
    deniedTo reqPcie Reg.CLK_OP, (sleeping 2).asleep,
    runs (exec (.registerWrite reqPcie Reg.GK_PSTATE_REQ 1 true 1) served) (fun t => t.rd Fd.TOP_ERR_DENIED == 1),
    deniedTo reqPcie Reg.SEC_KS_CMD, served.dark Reg.SEC_KS_CMD == false, decide (0x2000000 ≤ Reg.SEC_KS_CMD),
    runs (exec (.registerWrite reqPcie Reg.SEC_KS_CMD 1 true 1) served) (fun t => t.rd Fd.SEC_ALARM_DENIED == 1),
    runs (exec (.registerWrite reqPcie Reg.MED_CFG 1 true 0) (served.wr Fd.TOP_LOCK_WINRO 1)) (fun t => t.rd Fd.TOP_ERR_LOCKED == 1),
    runs (exec (.registerWrite 0 Reg.MED_CFG 2 true 0) served) (fun t => t.rd Fd.TOP_ERR_WSIZE == 1),
    runs (exec (.registerWrite 0 Reg.MED_CFG 1 false 0) served) (fun t => t.rd Fd.TOP_ERR_ALIGN == 1),
    served.writable 0 Reg.TOP_ERRADDR,
    runs (exec (.topErraddrValidClear 0) (served.wr Fd.TOP_ERRADDR_VALID 1)) (fun t => t.word Reg.TOP_ERRADDR == 0),
    runs (exec (.registerRead reqPcie 0 1 true) (bt served fun b => { b with cfgReady := false })) (fun t => t.replies.map (·.err) == [true]),
    runs (exec (.registerWrite reqPcie Reg.MED_CFG 1 true 5) (sleeping 2)) (fun t => t.pwr.held == [(true, Reg.MED_CFG, 5)])] = true := by decide +kernel

theorem witness_unlisted : ok [
    regFind 0x40 regTable == none, served.dark 0x40 == false,
    runs (exec (.registerRead 0 0x40 1 true) served) (fun t => t == served.reply 0 0 false .none),
    runs (exec (.registerWrite 0 0x40 1 true 7) served) (fun t => t == served),
    runs (exec (.registerWrite 0 0x2C00000 1 true 7) served) (fun t => t.rd Fd.TOP_ERR_UNMAPPED == 1)] = true := by decide +kernel

/-! ## The whole machine -/

theorem witness_step : ok [
    runs (step served) (fun t => t == served),
    runs (step { served with pending := [.write io (wa 1 0 8), .commandFetch] }) (fun t => t.pending == [.commandFetch] && t.cmds.length == 1),
    tblWf regReset State.reset.regs, tblWf regReset served.regs,
    runs (step { served with pending := [.securityAlarm 1 0] }) (fun t => t.rd Fd.SEC_ALARM_TEMP == 1),
    (decodeTableWord 32 0).isNone, State.withFetchWord served 32 0 == served] = true := by decide +kernel

/-! ## Ill-formed commands, one for each check -/

theorem wf_takes : ok [
    (Instr.write io (wa 1 0 65536)).wf, (Instr.dieOpLaunch 63 0).wf, (Instr.vfReset 1023).wf, (Instr.registerWrite 0x40 (2 ^ 26 - 4) 1 true (2 ^ 32 - 1)).wf,
    (Instr.securityAlarm 4 8).wf, (Instr.frameCrcError 3 true).wf] = true := by decide +kernel

theorem wf_refuses_operands : (([
    .flush ⟨1024, 0, 0, 0, 0, 0, false⟩ 1, .flush ⟨0, 65536, 0, 0, 0, 0, false⟩ 1, .flush ⟨0, 0, 65536, 0, 0, 0, false⟩ 1,
    .flush ⟨0, 0, 0, 4, 0, 0, false⟩ 1, .flush ⟨0, 0, 0, 0, 0, 2 ^ 64, false⟩ 1, .flush io (2 ^ 32),
    .write io (wa 1 0 0), .write io (wa 1 0 65537), .write io (wa 1 (2 ^ 64) 1), .write io { wa 1 0 1 with prinfo := 16 },
    .read io (ra 1 0 65537), .verify io { ra 1 0 1 with appMask := 65536 }, .verifiedPrecompressedWrite io (vpw (2 ^ 32) 0 0 0),
    .zoneOpen io 1 (2 ^ 64) false, .reportZones io 1 0 (2 ^ 32), .digestRange io 1 0 1 256 0, .readByLocator io 1 0 0 0 1 0 16,
    .namespaceManagementCreate admin { zonedArgs with csi := 256 }, .poolManageAssign admin 1 64 { poolArgs with weight := 65536 },
    .poolManageAssign admin 1024 64 poolArgs, .formatNvm admin 2 16 0 false 0, .namespaceAttach admin 1 1024,
    .setFeaturesPowerManagement admin 32, .setFeaturesHctm admin 65536 0, .createIoCompletionQueue admin 1 65537,
    .createIoSubmissionQueue admin 1 0 1 0, .createIoSubmissionQueue admin 1 2 1 4, .firmwareCommitStore admin 8, .groupJoin admin 1 1024 0 [] 0] : List Instr).all fun i => !i.wf) = true := by decide +kernel

theorem wf_refuses_places : (([
    .vfReset 1024, .sqDoorbellWrite 0 65536 0, .commandStart (2 ^ 18), .readClutchItem 8 0 false, .eftStealPoll 0 32, .repairTerm 0 0 256 [],
    .pondGate 8, .dieOpLaunch 64 0, .turnClosing 4 0, .tempSample 24 0 false 0, .portSignalDetect 4 0, .nak 0 (2 ^ 48) 0, .idle 0 (2 ^ 32),
    .pstat ⟨4, 0, 0⟩ 0 0 0, .lsa rx0 1024 [] 0 false 0 0, .refreshDue 4 0 0, .refreshDue 0 2 0, .laneRetrainSlice 0 10 true 0 0 0 0,
    .dramRequest { darg true with group := 8 } eccOk 0 0, .patrolScrub 0 0 { eccOk with region := 7 } false 0,
    .patrolScrub 0 0 { eccOk with bad := 81 } false 0,
    .powerStateEntry (some 7), .secHeClaim 0 8 0 0, .secHeFinal 0 0 4, .secKeClaim 16, .securityAlarm 5 0, .keOperationComplete 65536 0,
    .registerRead 0x40 (2 ^ 26) 1 true, .registerRead 0x41 0 1 true, .registerWrite 0 0 1024 true 0, .bootFlashDataRead 0 (2 ^ 28) 4,
    .startStageComplete { found with efts := [(8, 0)] } 0, .deviceSelfTestComplete 65536] : List Instr).all fun i => !i.wf) = true := by decide +kernel

/-- R11: the standard structures have NVMe's lengths, and a 64-bit field lies low byte first. -/
theorem test_wire : (selfTestWire [1, 50, 7, 2, 5, 300]).length = 564 ∧ (selfTestWire [1, 50, 7, 2, 5, 300]).take 10 = [1, 50, 0, 0, 0x27, 5, 0, 0, 0x2C, 1] ∧
    (⟨1, 0, 258, 512, 2⟩ : ZoneDesc).wire.take 11 = [2, 16, 0, 0, 0, 0, 0, 0, 2, 1, 0] := by decide +kernel

end Sys2Proof.Tests
end

section
namespace Sys2Proof.Machine

open Sys2Proof

/-! ## What every operation keeps -/

/-- How a state follows another: the tables stay canonical, no OTP bit is cleared (R343), and the queue of waiting commands stays. Every
operation of the model answers such a state; the lemmas below say so once for each, in the model's order. -/
structure Evolves (s t : State) : Prop where
  canonical : s.canonical → t.canonical
  otpBits : ∀ a j, (s.otpGet a).toNat.testBit j = true → (t.otpGet a).toNat.testBit j = true
  queue : t.pending = s.pending

/-- A result whose next state follows the given one, and that is no refusal. -/
structure Keeps (s : State) (r : Result) : Prop where
  evolves : ∀ t, r = .next t → Evolves s t
  accepted : ∀ x, r ≠ .refused x

variable {s₀ s : State}

theorem Evolves.refl (s : State) : Evolves s s := ⟨id, fun _ _ h => h, rfl⟩

theorem Keeps.next (h : Evolves s₀ s) : Keeps s₀ (.next s) where
  evolves _ ht := by cases ht; exact h
  accepted _ hx := by cases hx

theorem Evolves.next (h : Evolves s₀ s) : Keeps s₀ (.next s) := .next h

theorem Keeps.fault {r : Fault} : Keeps s₀ (.fault r) where
  evolves _ ht := by cases ht
  accepted _ hx := by cases hx

/-! ### Branches and folds -/

section Branches

variable {c : Prop} {d : Decidable c} {t u v : State} {α β γ : Type}

theorem Evolves.ite (ht : Evolves s₀ t) (hu : Evolves s₀ u) : Evolves s₀ (if c then t else u) := by
  split
  · exact ht
  · exact hu

/-- A branch that goes on, the other one standing still. -/
theorem Evolves.thenIf (h : Evolves s₀ t) (k : Evolves s₀ t → Evolves s₀ u) : Evolves s₀ (if c then u else t) := .ite (k h) h

theorem Evolves.elseIf (h : Evolves s₀ t) (k : Evolves s₀ t → Evolves s₀ u) : Evolves s₀ (if c then t else u) := .ite h (k h)

/-- Two branches that go on from one state. -/
theorem Evolves.iteOf (h : Evolves s₀ t) (ku : Evolves s₀ t → Evolves s₀ u) (kv : Evolves s₀ t → Evolves s₀ v) :
    Evolves s₀ (if c then u else v) :=
  .ite (ku h) (kv h)

theorem Evolves.pair {x : α} (h : Evolves s₀ t) : Evolves s₀ (x, t).2 := h

theorem Evolves.pair_snd {x : α} {p : β × State} (h : Evolves s₀ p.2) : Evolves s₀ (x, p).2.2 := h

theorem Keeps.ite {a b : Result} (ha : Keeps s₀ a) (hb : Keeps s₀ b) : Keeps s₀ (if c then a else b) := by
  split
  · exact ha
  · exact hb

theorem Keeps.iteOf {a b : Result} (h : Evolves s₀ t) (ka : Evolves s₀ t → Keeps s₀ a) (kb : Evolves s₀ t → Keeps s₀ b) :
    Keeps s₀ (if c then a else b) :=
  .ite (ka h) (kb h)

theorem Evolves.foldl {f : State → α → State} {l : List α} (h : Evolves s₀ t) (hf : ∀ u x, Evolves s₀ u → Evolves s₀ (f u x)) :
    Evolves s₀ (l.foldl f t) := by
  induction l generalizing t with
  | nil => exact h
  | cons x l ih => exact ih (hf _ x h)

theorem Evolves.foldl_snd {f : β × State → α → β × State} {l : List α} {p : β × State} (h : Evolves s₀ p.2)
    (hf : ∀ u x, Evolves s₀ u.2 → Evolves s₀ (f u x).2) : Evolves s₀ (l.foldl f p).2 := by
  induction l generalizing p with
  | nil => exact h
  | cons x l ih => exact ih (hf _ x h)

theorem Evolves.getD {o : Option State} (h : Evolves s₀ t) (ho : ∀ u, o = some u → Evolves s₀ u) : Evolves s₀ (o.getD t) := by
  cases o with
  | none => exact h
  | some u => exact ho u rfl

end Branches

/-! ### The state's fields -/

/-- A state with the tables' and the queue's old content. -/
theorem Evolves.of_tables {t : State} (h : Evolves s₀ s) (hr : t.regs = s.regs) (hf : t.snc.flash = s.snc.flash)
    (ho : t.sec.otp = s.sec.otp) (hp : t.pending = s.pending) : Evolves s₀ t where
  canonical hc := State.canonical_of_eq hr hf ho (h.canonical hc)
  otpBits a j hb := by simpa [State.otpGet, ho] using h.otpBits a j hb
  queue := hp.trans h.queue

section Fields

variable {now latch replies cqes fns rr nss zones clutches kept landing cmds adminTags efts xlt evr hlt quiesce med cho dzl boot pwr dram
  pins freeIx}

/-- A change of fields other than the register file, the island, the boot flash and the queue. -/
theorem Evolves.fields (h : Evolves s₀ s) :
    Evolves s₀ ⟨now, s.regs, latch, replies, cqes, fns, rr, nss, zones, clutches, kept, landing, cmds, adminTags, efts, xlt, evr, hlt,
      quiesce, med, cho, dzl, s.sec, boot, pwr, dram, s.snc, pins, freeIx, s.pending⟩ :=
  h.of_tables rfl rfl rfl rfl

/-- A change that also reaches the island, its OTP apart. -/
theorem Evolves.secFields {slots engines sessions ke challenge attests ckptRsv drawn trngWaits scrapped otpPend} (h : Evolves s₀ s) :
    Evolves s₀ ⟨now, s.regs, latch, replies, cqes, fns, rr, nss, zones, clutches, kept, landing, cmds, adminTags, efts, xlt, evr, hlt,
      quiesce, med, cho, dzl, ⟨slots, s.sec.otp, engines, sessions, ke, challenge, attests, ckptRsv, drawn, trngWaits, scrapped, otpPend⟩,
      boot, pwr, dram, s.snc, pins, freeIx, s.pending⟩ :=
  h.of_tables rfl rfl rfl rfl

/-- A change that also reaches the boot flash controller, the bytes apart. -/
theorem Evolves.sncFields {queue running flagSeq faults} (h : Evolves s₀ s) :
    Evolves s₀ ⟨now, s.regs, latch, replies, cqes, fns, rr, nss, zones, clutches, kept, landing, cmds, adminTags, efts, xlt, evr, hlt,
      quiesce, med, cho, dzl, s.sec, boot, pwr, dram, ⟨s.snc.flash, queue, running, flagSeq, faults⟩, pins, freeIx, s.pending⟩ :=
  h.of_tables rfl rfl rfl rfl

end Fields

/-! ### Machine/Ops -/

theorem Evolves.setWord {off v : Nat} (h : Evolves s₀ s) : Evolves s₀ (s.setWord off v) :=
  ⟨fun hc => State.canonical_setWord _ _ _ (h.canonical hc), h.otpBits, h.queue⟩

theorem Evolves.wr {f : Fld} {v : Nat} (h : Evolves s₀ s) : Evolves s₀ (s.wr f v) := by
  unfold State.wr
  exact .ite h.setWord h.setWord.setWord

theorem Evolves.setFlag {f : Fld} {b : Bool} (h : Evolves s₀ s) : Evolves s₀ (s.setFlag f b) := h.wr

theorem Evolves.bump {f : Fld} {n : Nat} (h : Evolves s₀ s) : Evolves s₀ (s.bump f n) := h.wr

theorem Evolves.count {f : Fld} (h : Evolves s₀ s) : Evolves s₀ (s.count f) := h.wr

theorem Evolves.at {t : Nat} (h : Evolves s₀ s) : Evolves s₀ (s.at t) := h.fields

theorem Evolves.free {bound : Nat} (h : Evolves s₀ s) : Evolves s₀ (s.free bound).2 := by
  unfold State.free
  exact h.fields.pair

theorem Evolves.setFn {n : Nat} {f : Fn} (h : Evolves s₀ s) : Evolves s₀ (s.setFn n f) := h.fields

theorem Evolves.modFn {n : Nat} {g : Fn → Fn} (h : Evolves s₀ s) : Evolves s₀ (s.modFn n g) := h.setFn

theorem Evolves.modSq {n qid : Nat} {g : Sq → Sq} (h : Evolves s₀ s) : Evolves s₀ (s.modSq n qid g) := h.modFn

theorem Evolves.modNs {nsid : Nat} {g : Ns → Ns} (h : Evolves s₀ s) : Evolves s₀ (s.modNs nsid g) := h.fields

theorem Evolves.setZone {nsid z : Nat} {w : Zone} (h : Evolves s₀ s) : Evolves s₀ (s.setZone nsid z w) := h.fields

theorem Evolves.keepTag {src : Src} (h : Evolves s₀ s) : Evolves s₀ (s.keepTag src) := h.fields

theorem Evolves.modCmd {tag : Nat} {g : Cmd → Cmd} (h : Evolves s₀ s) : Evolves s₀ (s.modCmd tag g) := h.fields

theorem Evolves.dropCmd {tag : Nat} (h : Evolves s₀ s) : Evolves s₀ (s.dropCmd tag) := h.fields

theorem Evolves.removeClutches {p : Clutch → Bool} (h : Evolves s₀ s) : Evolves s₀ (s.removeClutches p) := h.fields

theorem Evolves.setEft {p n : Nat} {e : Eft} (h : Evolves s₀ s) : Evolves s₀ (s.setEft p n e) := h.fields

theorem Evolves.modEft {p n : Nat} {g : Eft → Eft} (h : Evolves s₀ s) : Evolves s₀ (s.modEft p n g) := h.setEft

theorem Evolves.setOwner {p n : Nat} {x3 : Owner} (h : Evolves s₀ s) : Evolves s₀ (s.setOwner p n x3) := by
  unfold State.setOwner
  split
  · exact h.wr
  · exact h.wr.wr

theorem Keeps.inRange {i n : Nat} {k : Result} (hk : Keeps s₀ k) : Keeps s₀ (inRange i n k) := by
  unfold Machine.inRange
  exact .ite hk .fault

theorem Keeps.onFn {f : Nat} {k : Result} (hk : Keeps s₀ k) : Keeps s₀ (onFn f k) := by
  unfold Machine.onFn
  exact .ite hk .fault

theorem Keeps.onTag {tag : Nat} {k : Cmd → Result} (hk : ∀ x0, Keeps s₀ (k x0)) : Keeps s₀ (onTag s tag k) := by
  unfold Machine.onTag
  split
  · exact hk _
  · exact .fault

theorem Evolves.reply {who value : Nat} {err : Bool} {data : Payload} (h : Evolves s₀ s) : Evolves s₀ (s.reply who value err data) := h.fields

/-! ### Machine/Flags -/

theorem Evolves.cutFlags {f : Nat} {cut : List Nat} (h : Evolves s₀ s) : Evolves s₀ (s.cutFlags f cut) := h.wr

theorem Evolves.settleFlags {f : Nat} (h : Evolves s₀ s) : Evolves s₀ (s.settleFlags f) := h.wr

/-! ### Machine/Link -/

theorem Evolves.modPort {p : Nat} {g : Port → Port} (h : Evolves s₀ s) : Evolves s₀ (s.modPort p g) := h.fields

theorem Evolves.sendFrame {f : Frame} (h : Evolves s₀ s) : Evolves s₀ (s.sendFrame f) := by
  unfold State.sendFrame
  exact .ite h.modPort h.modPort.fields

theorem Evolves.sendRaw {p type flags : Nat} {b : Bytes} (h : Evolves s₀ s) : Evolves s₀ (s.sendRaw p type flags b) := h.fields

theorem Evolves.sendWaiting {p k : Nat} (h : Evolves s₀ s) : Evolves s₀ (State.sendWaiting p k s) := by
  induction k generalizing s with
  | zero => exact h
  | succ k ih =>
    unfold State.sendWaiting
    split
    · exact h
    · exact .ite h (ih h.modPort.sendFrame)

theorem Evolves.acked {p ack : Nat} (h : Evolves s₀ s) : Evolves s₀ (s.acked p ack) := h.modPort.sendWaiting

theorem Evolves.sendRouted {type dest flags tag : Nat} {b : Bytes} (h : Evolves s₀ s) : Evolves s₀ (s.sendRouted type dest flags tag b).2 := by
  unfold State.sendRouted
  split
  · exact h.pair
  · exact h.sendFrame.pair

theorem Evolves.setRoot {r : Option Nat} (h : Evolves s₀ s) : Evolves s₀ (s.setRoot r) := by
  unfold State.setRoot
  extract_lets
  split
  · exact (h.foldl fun _ _ hu => hu.setWord).wr.wr.wr
  · exact (h.foldl fun _ _ hu => hu.setWord).wr.wr.wr.wr.wr

theorem Evolves.elect (h : Evolves s₀ s) : Evolves s₀ s.elect := by
  unfold State.elect
  refine .ite h.setRoot (.ite h.setRoot ?_)
  split <;> exact h.setRoot

theorem Evolves.sendTime {b : Bytes} (h : Evolves s₀ s) : Evolves s₀ (s.sendTime b) := h.foldl fun _ _ hu => hu.sendFrame

theorem Evolves.rootTime {sinceMs : Nat} (h : Evolves s₀ s) : Evolves s₀ (s.rootTime sinceMs) := by
  unfold State.rootTime
  exact h.elseIf (·.free.sendTime.fields)

theorem Evolves.modOut {tag : Nat} {g : PeerOut → PeerOut} (h : Evolves s₀ s) : Evolves s₀ (s.modOut tag g) := h.fields

theorem Evolves.sendPread {o : PeerOut} (h : Evolves s₀ s) : Evolves s₀ (s.sendPread o) := by
  unfold State.sendPread
  refine .ite (.fields (.modOut ?_)) h.modOut
  split
  · exact h.sendRouted
  · exact h.pair

theorem Evolves.sendOuts {k : Nat} (h : Evolves s₀ s) : Evolves s₀ (State.sendOuts k s) := by
  induction k generalizing s with
  | zero => exact h
  | succ k ih =>
    unfold State.sendOuts
    split
    · exact h
    · exact .ite h (ih h.sendPread)

theorem Evolves.dropOuts {tag : Nat} (h : Evolves s₀ s) : Evolves s₀ (s.dropOuts tag) := h.fields.sendOuts

theorem Evolves.peerAnswer {i : PeerIn} {st : Status} {b : Bytes} (h : Evolves s₀ s) : Evolves s₀ (s.peerAnswer i st b) := by
  unfold State.peerAnswer
  exact .ite h.fields.modOut (h.fields.foldl fun _ _ hu => hu.sendRouted).sendRouted.fields

theorem Evolves.peerEnd {c : Cmd} {st : Status} {data : Payload} (h : Evolves s₀ s) : Evolves s₀ (s.peerEnd c st data) := by
  unfold State.peerEnd
  split
  · exact h
  · exact h.peerAnswer

/-! ### Machine/Events -/

theorem Evolves.emit {code supp : Nat} {payload : List Nat} (h : Evolves s₀ s) : Evolves s₀ (s.emit code supp payload) := by
  unfold State.emit
  exact .ite h.fields.wr.wr h.fields.wr

theorem Evolves.record {code : Nat} {payload : List Nat} (h : Evolves s₀ s) : Evolves s₀ (s.record code payload) := by
  unfold State.record
  exact .ite h.emit (.ite h.fields h.fields.emit)

theorem Evolves.post {fn qid cid : Nat} {st : Status} {dw0 dw1 : Nat} {data : Payload} (h : Evolves s₀ s) :
    Evolves s₀ (s.post fn qid cid st dw0 dw1 data) := by
  unfold State.post
  exact .ite h.fields h.fields.modFn

theorem Evolves.done {src : Src} {st : Status} {dw0 dw1 : Nat} {data : Payload} (h : Evolves s₀ s) : Evolves s₀ (s.done src st dw0 dw1 data) := by
  unfold State.done
  exact .ite h.post h.post.modSq

theorem Evolves.ok {src : Src} (h : Evolves s₀ s) : Evolves s₀ (s.ok src) := h.done

theorem Evolves.err {src : Src} {st : Status} (h : Evolves s₀ s) : Evolves s₀ (s.err src st) := h.done

theorem Evolves.finish {c : Cmd} {st : Status} {dw0 dw1 : Nat} {data : Payload} (h : Evolves s₀ s) : Evolves s₀ (s.finish c st dw0 dw1 data) := by
  unfold State.finish
  exact .ite h.dropCmd.peerEnd (.ite (.modSq (.ite (h.thenIf (·.dropOuts)).dropCmd.post (h.thenIf (·.dropOuts)).dropCmd.post.modSq)) (.ite
      (h.thenIf (·.dropOuts)).dropCmd.post (h.thenIf (·.dropOuts)).dropCmd.post.modSq))

theorem Evolves.deliver {n : Nat} (h : Evolves s₀ s) : Evolves s₀ (s.deliver n) := h.setFn.fields

theorem Evolves.raise {n : Nat} {a : Aen} (h : Evolves s₀ s) : Evolves s₀ (s.raise n a) := h.modFn.deliver

theorem Evolves.raiseIf {n bit : Nat} {a : Aen} (h : Evolves s₀ s) : Evolves s₀ (s.raiseIf n bit a) := by
  unfold State.raiseIf
  exact h.thenIf (·.raise)

theorem Evolves.logRead {n page : Nat} {rae : Bool} (h : Evolves s₀ s) : Evolves s₀ (s.logRead n page rae) := by
  unfold State.logRead
  exact h.elseIf (·.modFn.deliver)

theorem Evolves.zoneNotice {n : Ns} {z : Nat} (h : Evolves s₀ s) : Evolves s₀ (s.zoneNotice n z) := by
  unfold State.zoneNotice
  exact h.thenIf (·.modFn.raise)

theorem Evolves.refreshCrit (h : Evolves s₀ s) : Evolves s₀ s.refreshCrit := by
  unfold State.refreshCrit
  exact .ite h (.ite h.wr.fields (h.wr.fields.foldl fun _ _ hu => hu.thenIf (·.raise)))

theorem Evolves.setMode {m : Nat} {returning : Bool} (h : Evolves s₀ s) : Evolves s₀ (s.setMode m returning) := by
  unfold State.setMode
  exact .ite h (.refreshCrit (.ite (.foldl (.record (.ite h.wr.wr h.wr.wr.wr)) fun _ _ hu => hu.raise) (.record (.ite h.wr.wr h.wr.wr.wr))))

theorem Evolves.degrade {bit : Nat} (h : Evolves s₀ s) : Evolves s₀ (s.degrade bit) := by
  unfold State.degrade
  exact .ite h.wr.setMode h.wr

theorem Evolves.enterReadonly {cause : Nat} (h : Evolves s₀ s) : Evolves s₀ (s.enterReadonly cause) := by
  unfold State.enterReadonly
  exact .ite h.wr.setMode.wr h.wr.setMode

theorem Evolves.endOfLife (h : Evolves s₀ s) : Evolves s₀ s.endOfLife := by
  unfold State.endOfLife
  exact .ite h.fields.enterReadonly h.fields

/-! ### Machine/Clocks -/

theorem Evolves.releaseHeld (h : Evolves s₀ s) : Evolves s₀ s.releaseHeld := by
  unfold State.releaseHeld
  split
  · exact h
  · exact h.elseIf (·.fields.wr)

theorem Evolves.voltDown (h : Evolves s₀ s) : Evolves s₀ s.voltDown := by
  unfold State.voltDown
  exact h.thenIf (·.fields.wr.setFlag.releaseHeld)

theorem Evolves.opDown {k : Nat} (h : Evolves s₀ s) : Evolves s₀ (s.opDown k) := h.fields.wr.voltDown

theorem Evolves.opUp {k : Nat} (h : Evolves s₀ s) : Evolves s₀ (s.opUp k) := h.fields.wr.wr

theorem Evolves.settleCeil (h : Evolves s₀ s) : Evolves s₀ s.settleCeil := by
  unfold State.settleCeil
  exact .ite h.wr.setFlag.opDown h.wr.setFlag

theorem Evolves.wakeSource {k : Nat} (h : Evolves s₀ s) : Evolves s₀ (s.wakeSource k) := by
  unfold State.wakeSource
  exact .ite h.wr.fields h.wr

theorem Evolves.leaveSleep {k : Nat} (h : Evolves s₀ s) : Evolves s₀ (s.leaveSleep k) :=
  (h.wr.wr.wr.fields.foldl fun _ _ hu => hu.fields).fields.record

theorem Evolves.hostBusy (h : Evolves s₀ s) : Evolves s₀ s.hostBusy := by
  unfold State.hostBusy
  exact .ite (h.thenIf (·.wr.wr)) (h.thenIf (·.wr.wr)).wr.settleCeil

/-! ### Machine/Access -/

theorem Evolves.noteErr {r off : Nat} {write : Bool} {bits : Nat} (h : Evolves s₀ s) : Evolves s₀ (s.noteErr r off write bits) := by
  unfold State.noteErr
  exact .ite (.bump (.ite (.bump (.ite h.setWord h.setWord.setWord)) (.ite h.setWord h.setWord.setWord))) (.ite (.bump (.ite h.setWord
      h.setWord.setWord)) (.ite h.setWord h.setWord.setWord))

theorem Evolves.alarm {f : Fld} (h : Evolves s₀ s) : Evolves s₀ (s.alarm f) := h.wr.bump.record

theorem Evolves.noteDenied {r off : Nat} (h : Evolves s₀ s) : Evolves s₀ (s.noteDenied r off) := by
  unfold State.noteDenied
  exact .ite h (.ite h.noteErr.alarm h.noteErr)

theorem Evolves.lowPowerAccess {write : Bool} {off v : Nat} (h : Evolves s₀ s) : Evolves s₀ (s.lowPowerAccess write off v) := h.wakeSource.fields

theorem Evolves.plainWrite {r off v : Nat} (h : Evolves s₀ s) : Evolves s₀ (s.plainWrite r off v) := by
  unfold State.plainWrite
  split
  · exact h
  · exact .ite h.setWord.noteErr h.setWord

theorem Keeps.winWrite {r off v : Nat} {k : State → State} (h : Evolves s₀ s) (hk : ∀ u, Evolves s₀ u → Evolves s₀ (k u)) :
    Keeps s₀ (winWrite r off v s k) := by
  unfold Machine.winWrite
  exact .ite .fault (.ite h.next (.ite h.lowPowerAccess.next (.ite h.noteDenied.next (.ite h.noteErr.next (.ite h.noteErr.next (.ite (.next (.ite
      h.noteErr h.noteErr.reply)) (.next (hk _ h))))))))

theorem Evolves.readAt {r off : Nat} {k : State → Nat × State} (h : Evolves s₀ s) (hk : ∀ u, Evolves s₀ u → Evolves s₀ (k u).2) :
    Evolves s₀ (s.readAt r off k).2.2 := by
  unfold State.readAt
  split
  · exact h.noteErr.pair.pair_snd
  · split
    · exact h.noteErr.pair.pair_snd
    · exact .pair_snd (.pair (hk _ h))

theorem Keeps.winReach {r off n : Nat} {k : State → State} (h : Evolves s₀ s) (hk : ∀ u, Evolves s₀ u → Evolves s₀ (k u)) :
    Keeps s₀ (winReach r off n s k) := by
  unfold Machine.winReach
  exact .ite .fault (.ite h.next (.ite h.reply.next (.ite h.lowPowerAccess.next (.next (hk _ h)))))

theorem Keeps.winRead {r off : Nat} {k : State → Nat × State} (h : Evolves s₀ s) (hk : ∀ u, Evolves s₀ u → Evolves s₀ (k u).2) :
    Keeps s₀ (winRead r off s k) :=
  .winReach h fun _ hu => (hu.readAt fun _ hv => hk _ hv).reply

/-! ### Machine/Operands -/

theorem Evolves.holdEntry {src : Src} (h : Evolves s₀ s) : Evolves s₀ (s.holdEntry src) := h.modSq

theorem Evolves.takeEntry {src : Src} {q : Sq} (h : Evolves s₀ s) : Evolves s₀ (s.takeEntry src q).2 := by
  unfold State.takeEntry
  exact h.hostBusy.modSq.pair

theorem Evolves.openWindow {src : Src} {pos : Nat} (h : Evolves s₀ s) : Evolves s₀ (s.openWindow src pos) := h.modSq

theorem Keeps.hostTagged {src : Src} {cls : Class} {fence : Bool} {k : Nat → Sq → State → State} (h : Evolves s₀ s)
    (hk : ∀ x0 x1 u, Evolves s₀ u → Evolves s₀ (k x0 x1 u)) :
    Keeps s₀ (hostTagged s src cls fence k) := by
  refine .onFn ?_
  split
  · exact .fault
  · extract_lets
    split
    · exact h.holdEntry.next
    · exact .next (.err (.ite h.takeEntry.openWindow h.takeEntry))
    · split
      · exact .next (.err (.ite h.takeEntry.openWindow h.takeEntry))
      · exact .next (hk _ _ _ (.ite h.takeEntry.openWindow h.takeEntry))

theorem Keeps.host {src : Src} {cls : Class} {k : State → State} (h : Evolves s₀ s) (hk : ∀ u, Evolves s₀ u → Evolves s₀ (k u)) :
    Keeps s₀ (host s src cls k) :=
  .hostTagged h fun _ _ _ hu => hk _ hu

theorem Evolves.withNs {src : Src} {nsid : Nat} {k : Ns → State} (h : Evolves s₀ s) (hk : ∀ x0, Evolves s₀ (k x0)) :
    Evolves s₀ (withNs s src nsid k) := by
  unfold Machine.withNs
  split
  · exact hk _
  · exact h.err

theorem Evolves.withVendorNs {src : Src} {nsid : Nat} {k : Ns → State} (h : Evolves s₀ s) (hk : ∀ x0, Evolves s₀ (k x0)) :
    Evolves s₀ (withVendorNs s src nsid k) :=
  h.withNs fun _ => .ite h.err (hk _)

theorem Evolves.noteKey {n : Ns} {fn tag : Nat} (h : Evolves s₀ s) : Evolves s₀ (s.noteKey n fn tag) := by
  unfold State.noteKey
  exact h.thenIf (·.record)

/-! ### Machine/FrontEnd -/

theorem Keeps.execSqDoorbellWrite {fn qid entries : Nat} (h : Evolves s₀ s) : Keeps s₀ (execSqDoorbellWrite fn qid entries s) := by
  refine .onFn ?_
  split
  · exact .fault
  · exact h.modSq.next

theorem Evolves.fetchFor {fn k : Nat} (h : Evolves s₀ s) : Evolves s₀ (s.fetchFor fn k) := by
  induction k generalizing s with
  | zero => exact h
  | succ k ih =>
    refine .ite h ?_
    split
    · exact h
    · exact ih h.modSq.modFn

theorem Keeps.execCommandFetch (h : Evolves s₀ s) : Keeps s₀ (execCommandFetch s) := by
  unfold Machine.execCommandFetch
  split
  · exact h.next
  · exact h.hostBusy.fetchFor.fields.next

theorem Evolves.pushItem {p n : Nat} {i : Item} (h : Evolves s₀ s) : Evolves s₀ (s.pushItem p n i) := h.modEft

theorem Evolves.placeItems {p : Nat} {is : List Item} (h : Evolves s₀ s) : Evolves s₀ (s.placeItems p is).2 := by
  induction is generalizing s with
  | nil => exact h
  | cons i is ih =>
    unfold State.placeItems
    split
    · exact h
    · exact ih h.pushItem

theorem Evolves.placeCmd {c : Cmd} {is : List Item} (h : Evolves s₀ s) : Evolves s₀ (s.placeCmd c is) := by
  unfold State.placeCmd
  exact h.elseIf fun h' => h'.elseIf (·.placeItems.modCmd)

theorem Evolves.countIo {c : Cmd} (h : Evolves s₀ s) : Evolves s₀ (s.countIo c) := h.modFn

theorem Evolves.finishRead {c : Cmd} (h : Evolves s₀ s) : Evolves s₀ (s.finishRead c) := by
  unfold State.finishRead
  split
  · exact h.finish
  · exact h.finish
  · exact .ite h.countIo.finish (.ite h.countIo.finish (.ite (.ite h.countIo.finish h.countIo.finish) h.countIo.finish))

theorem Evolves.startRead {c : Cmd} {n : Ns} (h : Evolves s₀ s) : Evolves s₀ (s.startRead c n) := by
  unfold State.startRead
  exact .ite h.finish (.ite h.finish (.ite h.modCmd.finishRead h.placeCmd))

theorem Evolves.startWrite {c : Cmd} {n : Ns} (h : Evolves s₀ s) : Evolves s₀ (s.startWrite c n) := h.placeCmd

theorem Evolves.startDigest {c : Cmd} {n : Ns} (h : Evolves s₀ s) : Evolves s₀ (s.startDigest c n) := by
  unfold State.startDigest
  extract_lets
  split
  · exact h
  · exact h.modEft.modCmd

theorem Keeps.execWriteAdmission {tag : Nat} (h : Evolves s₀ s) : Keeps s₀ (execWriteAdmission tag s) := by
  refine .onTag fun _ => ?_
  split
  · exact h.next
  · exact .ite h.next (.ite h.finish.next (.ite h.modCmd.next h.next))

theorem Keeps.execAbort {src : Src} {sqid target : Nat} (h : Evolves s₀ s) : Keeps s₀ (execAbort src sqid target s) := by
  refine .host h fun _ hu => ?_
  split
  · exact hu.finish.done
  · exact hu.done

theorem Keeps.execSetFeaturesNumberOfQueues {src : Src} {nsq ncq : Nat} (h : Evolves s₀ s) : Keeps s₀ (execSetFeaturesNumberOfQueues src nsq ncq s) :=
  .host h fun _ hu => .ite hu.modFn.free.done hu.modFn.done

theorem Keeps.execCreateIoCompletionQueue {src : Src} {qid size : Nat} (h : Evolves s₀ s) : Keeps s₀ (execCreateIoCompletionQueue src qid size s) :=
  .host h fun _ hu => .ite hu.err (.ite hu.err hu.modFn.ok)

theorem Keeps.execCreateIoSubmissionQueue {src : Src} {qid size cqid : Nat} {prio : optParam Nat 0} (h : Evolves s₀ s) :
    Keeps s₀ (execCreateIoSubmissionQueue src qid size cqid s prio) :=
  .host h fun _ hu => .ite hu.err (.ite hu.err (.ite hu.err hu.modFn.ok))

theorem Keeps.execDeleteIoSubmissionQueue {src : Src} {qid : Nat} (h : Evolves s₀ s) : Keeps s₀ (execDeleteIoSubmissionQueue src qid s) :=
  .host h fun _ hu => .ite hu.err (hu.foldl fun _ _ hv => hv.finish).modFn.settleFlags.ok

theorem Keeps.execDeleteIoCompletionQueue {src : Src} {qid : Nat} (h : Evolves s₀ s) : Keeps s₀ (execDeleteIoCompletionQueue src qid s) :=
  .host h fun _ hu => .ite hu.err (.ite hu.err hu.modFn.settleFlags.ok)

theorem Keeps.execAsynchronousEventRequest {src : Src} (h : Evolves s₀ s) : Keeps s₀ (execAsynchronousEventRequest src s) :=
  .host h fun _ hu => hu.keepTag.modFn.deliver

theorem Keeps.execSetFeaturesAsynchronousEventConfig {src : Src} {mask : Nat} (h : Evolves s₀ s) :
    Keeps s₀ (execSetFeaturesAsynchronousEventConfig src mask s) :=
  .host h fun _ hu => hu.modFn.ok

theorem Keeps.execSetFeaturesTemperatureThreshold {src : Src} {sensor : Nat} {under : Bool} {kelvin : Nat} (h : Evolves s₀ s) :
    Keeps s₀ (execSetFeaturesTemperatureThreshold src sensor under kelvin s) :=
  .host h fun _ hu => .ite hu.err hu.modFn.refreshCrit.ok

/-! ### Machine/Translation -/

theorem Evolves.loseCounts (h : Evolves s₀ s) : Evolves s₀ s.loseCounts := (h.foldl fun _ _ hu => hu.modFn).fields

theorem Evolves.journalOnFlash (h : Evolves s₀ s) : Evolves s₀ s.journalOnFlash := h.fields

theorem Evolves.startCheckpoint (h : Evolves s₀ s) : Evolves s₀ s.startCheckpoint := by
  unfold State.startCheckpoint
  exact h.elseIf (·.fields)

theorem Evolves.journal {k : JKind} {args : List Nat} (h : Evolves s₀ s) : Evolves s₀ (s.journal k args) := by
  unfold State.journal
  exact .ite h.fields.wr.startCheckpoint h.fields.wr

theorem Evolves.setBlock {k : Nat} {b : Block} (h : Evolves s₀ s) : Evolves s₀ (s.setBlock k b) := h.fields

theorem Evolves.modBlock {k : Nat} {g : Block → Block} (h : Evolves s₀ s) : Evolves s₀ (s.modBlock k g) := h.setBlock

theorem Evolves.takeBlocks {choir st owner : Nat} {ms : List Member} (h : Evolves s₀ s) : Evolves s₀ (s.takeBlocks choir st owner ms) :=
  h.foldl fun _ _ hu => hu.modBlock

theorem Evolves.newStripe {choir cls : Nat} {high : Bool} {st nsid zone copyOf : Nat} (h : Evolves s₀ s) :
    Evolves s₀ (s.newStripe choir cls high st nsid zone copyOf).2 := by
  unfold State.newStripe
  exact h.takeBlocks.fields.pair

theorem Evolves.modStripe {seq : Nat} {g : Stripe → Stripe} (h : Evolves s₀ s) : Evolves s₀ (s.modStripe seq g) := h.fields

theorem Evolves.modSeg {id : Nat} {g : Segment → Segment} (h : Evolves s₀ s) : Evolves s₀ (s.modSeg id g) := h.fields

theorem Evolves.addErased {c n : Nat} (h : Evolves s₀ s) : Evolves s₀ (s.addErased c n) := h.fields

theorem Evolves.dropErased {c n : Nat} (h : Evolves s₀ s) : Evolves s₀ (s.dropErased c n) := h.fields

theorem Evolves.drawReserve (h : Evolves s₀ s) : Evolves s₀ s.drawReserve := h.foldl fun _ _ hu => hu.addErased

theorem Evolves.refreshXlt (h : Evolves s₀ s) : Evolves s₀ s.refreshXlt := by
  unfold State.refreshXlt
  exact h.elseIf fun h' => ((h'.drawReserve.foldl fun _ _ hu => hu.thenIf (·.wr)).foldl fun _ _ hu => hu.wr).wr.wr.wr.wr.setFlag.wr.foldl fun _ _
      hu => hu.wr

theorem Evolves.setLevels (h : Evolves s₀ s) : Evolves s₀ s.setLevels := by
  unfold State.setLevels
  exact h.elseIf (·.foldl fun _ _ hu => hu.wr)

theorem Evolves.setFactors (h : Evolves s₀ s) : Evolves s₀ s.setFactors := by
  unfold State.setFactors
  exact h.elseIf (·.foldl fun _ _ hu => hu.wr)

theorem Evolves.bindStripe {choir cls : Nat} {high : Bool} {st nsid zone : Nat} (h : Evolves s₀ s) :
    Evolves s₀ (s.bindStripe choir cls high st nsid zone).2 := by
  unfold State.bindStripe
  exact h.journal.newStripe

theorem Evolves.bindZone {n : Ns} {z choir cls : Nat} (h : Evolves s₀ s) : Evolves s₀ (s.bindZone n z choir cls) :=
  h.bindStripe.setZone.refreshXlt.setLevels

theorem Evolves.releaseUnit {c unit n rec' : Nat} (h : Evolves s₀ s) : Evolves s₀ (s.releaseUnit c unit n rec') := h.fields.refreshXlt

theorem Evolves.refreshRebuild (h : Evolves s₀ s) : Evolves s₀ s.refreshRebuild := h.setFlag.wr

theorem Evolves.releaseStripe {seq : Nat} (h : Evolves s₀ s) : Evolves s₀ (s.releaseStripe seq) := by
  unfold State.releaseStripe
  split
  · exact h
  · exact (h.journal.modStripe.foldl fun _ _ hu => hu.modBlock).fields.refreshRebuild.releaseUnit

theorem Evolves.releaseSeg {id : Nat} (h : Evolves s₀ s) : Evolves s₀ (s.releaseSeg id) := by
  unfold State.releaseSeg
  split
  · exact h
  · exact (h.journal.modSeg.foldl fun _ _ hu => hu.modBlock).fields.refreshRebuild.releaseUnit

theorem Evolves.releaseBlock {k : Nat} {slc : Bool} (h : Evolves s₀ s) : Evolves s₀ (s.releaseBlock k slc) := h.journal.modBlock.releaseUnit

theorem Evolves.abandonCopies {seq : Nat} (h : Evolves s₀ s) : Evolves s₀ (s.abandonCopies seq) := (h.foldl fun _ _ hu => hu.releaseStripe).fields

theorem Evolves.roundWhole {q r : Nat} (h : Evolves s₀ s) : Evolves s₀ (s.roundWhole q r) := by
  unfold State.roundWhole
  split
  · exact h
  · exact h.journal.modStripe.fields

theorem Evolves.settleRounds {q : Nat} (h : Evolves s₀ s) : Evolves s₀ (s.settleRounds q) := by
  unfold State.settleRounds
  split
  · exact h
  · exact h.elseIf (·.foldl fun _ _ hu => hu.roundWhole)

theorem Evolves.newLogHead {c : Nat} (h : Evolves s₀ s) : Evolves s₀ (s.newLogHead c).2.2 := by
  unfold State.newLogHead
  exact .pair_snd (.pair (.refreshXlt (.fields (.bindStripe h))))

theorem Evolves.logSlot {c : Nat} (h : Evolves s₀ s) : Evolves s₀ (s.logSlot c).2.2 := by
  unfold State.logSlot
  split
  · extract_lets
    split
    · exact h.fields.pair.pair_snd
    · exact h.newLogHead
  · exact h.newLogHead

theorem Evolves.closeLogRound {c : Nat} (h : Evolves s₀ s) : Evolves s₀ (s.closeLogRound c) := h.fields

theorem Evolves.dropCopiesOf {ids : List Nat} (h : Evolves s₀ s) : Evolves s₀ (s.dropCopiesOf ids) := h.fields

theorem Evolves.updateWl {c : Nat} (h : Evolves s₀ s) : Evolves s₀ (s.updateWl c) := by
  unfold State.updateWl
  exact h.elseIf (·.fields)

/-! ### Machine/Zones -/

theorem Evolves.makeOpenRoom {n : Ns} {u : State} (h : Evolves s₀ s) (hu : s.makeOpenRoom n = some u) : Evolves s₀ u := by
  unfold State.makeOpenRoom at hu
  split at hu
  · cases hu; exact h
  · split at hu
    · cases hu
    · cases hu; exact h.fields

theorem Evolves.openChecks {n : Ns} {z : Nat} {u : State} (h : Evolves s₀ s) (hu : s.openChecks n z = .inl u) : Evolves s₀ u := by
  simp only [State.openChecks] at hu
  split at hu
  · cases hu
  · split at hu
    · cases hu
    · rename_i v hv
      have hv' : Evolves s₀ v := by
        split at hv
        · cases hv; exact h
        · exact h.makeOpenRoom hv
      split at hu
      · cases hu
      · cases hu; exact hv'

theorem Evolves.zoneArgs {src : Src} {nsid slba : Nat} {all : Bool} {k : Ns → State} (h : Evolves s₀ s) (hk : ∀ x0, Evolves s₀ (k x0)) :
    Evolves s₀ (zoneArgs s src nsid slba all k) :=
  h.withNs fun _ => .ite h.err (.ite (hk _) (.ite h.err (.ite h.err (hk _))))

theorem Evolves.openZone {n : Ns} {z : Nat} {u : State} (h : Evolves s₀ s) (hu : s.openZone n z = .inl u) : Evolves s₀ u := by
  have opened {w : Zone} (hw : (match s.openChecks n z with | .inr st => .inr st | .inl v => .inl (v.setZone n.nsid z w)) = Sum.inl (β := Status) u) :
      Evolves s₀ u := by
    split at hw
    · cases hw
    · rename_i v hv
      cases hw
      exact (h.openChecks hv).setZone
  unfold State.openZone at hu
  dsimp only at hu
  split at hu
  · cases hu
  · cases hu
  · cases hu
  · cases hu; exact h
  · cases hu; exact h.setZone
  · exact opened hu
  · exact opened hu

theorem Evolves.openZones {n : Ns} {zs : List Nat} {u : State} (h : Evolves s₀ s) (hu : s.openZones n zs = .inl u) : Evolves s₀ u := by
  induction zs generalizing s with
  | nil => cases hu; exact h
  | cons z zs ih =>
    unfold State.openZones at hu
    split at hu
    · cases hu
    · rename_i v hv
      exact ih (h.openZone hv) hu

theorem Evolves.startOpen {c : Cmd} {n : Ns} (h : Evolves s₀ s) : Evolves s₀ (s.startOpen c n) := by
  unfold State.startOpen
  split
  · rename_i u hu
    exact .finish (h.openZones hu)
  · exact h.finish

theorem Evolves.closeZone {n : Ns} {z : Nat} (h : Evolves s₀ s) : Evolves s₀ (s.closeZone n z) := by
  unfold State.closeZone
  exact h.thenIf (·.setZone)

theorem Evolves.startClose {c : Cmd} {n : Ns} (h : Evolves s₀ s) : Evolves s₀ (s.startClose c n) := by
  unfold State.startClose
  exact .ite (h.foldl fun _ _ hu => hu.closeZone).settleFlags.finish (.ite h.closeZone.settleFlags.finish h.finish)

theorem Evolves.fillZone {n : Ns} {z : Nat} {byCtrl notice : Bool} (h : Evolves s₀ s) : Evolves s₀ (s.fillZone n z byCtrl notice) := by
  unfold State.fillZone
  refine .ite (.zoneNotice (.settleFlags ?_)) (.settleFlags ?_)
  · split
    · exact h.journal.setZone.modStripe
    · exact h.journal.setZone
  · split
    · exact h.journal.setZone.modStripe
    · exact h.journal.setZone

theorem Evolves.finishZone {n : Ns} {z : Nat} {u : State} (h : Evolves s₀ s) (hu : s.finishZone n z = .inl u) : Evolves s₀ u := by
  unfold State.finishZone at hu
  split at hu
  · cases hu; exact h
  · cases hu
  · cases hu
  all_goals cases hu; exact h.fillZone

theorem Evolves.recordResets {n : Ns} {g : Nat} {zs : List Nat} (h : Evolves s₀ s) : Evolves s₀ (s.recordResets n g zs) :=
  h.foldl fun _ _ hu => hu.journal

theorem Evolves.clearZones {n : Ns} {g : Nat} {zs : List Nat} (h : Evolves s₀ s) : Evolves s₀ (s.clearZones n g zs) := by
  refine (h.foldl fun _ _ hu => .setZone ?_).settleFlags
  split
  · exact hu.removeClutches.abandonCopies.releaseStripe
  · exact hu.removeClutches

theorem Evolves.emptyZones {n : Ns} {g : Nat} {zs : List Nat} (h : Evolves s₀ s) : Evolves s₀ (s.emptyZones n g zs) := h.recordResets.clearZones

theorem Evolves.nextGen (h : Evolves s₀ s) : Evolves s₀ s.nextGen := h.fields

theorem Evolves.resetZones {n : Ns} {zs : List Nat} (h : Evolves s₀ s) : Evolves s₀ (s.resetZones n zs) := by
  unfold State.resetZones
  exact h.elseIf (·.nextGen.emptyZones)

theorem Evolves.startReset {c : Cmd} {n : Ns} (h : Evolves s₀ s) : Evolves s₀ (s.startReset c n) := by
  unfold State.startReset
  exact .ite h.finish (.ite h.nextGen.recordResets.modCmd h.resetZones.finish)

theorem Evolves.commitResets (h : Evolves s₀ s) : Evolves s₀ s.commitResets := by
  refine h.foldl fun _ _ hu => ?_
  split
  · exact hu.clearZones.finish
  · exact hu

theorem Evolves.startFinish {c : Cmd} {n : Ns} (h : Evolves s₀ s) : Evolves s₀ (s.startFinish c n) := by
  unfold State.startFinish
  refine .ite (h.foldl fun _ _ hu => hu.fillZone).finish ?_
  split
  · rename_i u hu
    exact .finish (h.finishZone hu)
  · exact h.finish

theorem Evolves.addCmd {c : Cmd} (h : Evolves s₀ s) : Evolves s₀ (s.addCmd c) := h.fields.modFn

theorem Keeps.zoneCmd {src : Src} {cls : Class} {k : Kind} {nsid slba : Nat} {all : Bool} {go : State → Cmd → Ns → State} (h : Evolves s₀ s)
    (hk : ∀ u x1 x2, Evolves s₀ u → Evolves s₀ (go u x1 x2)) :
    Keeps s₀ (zoneCmd s src cls k nsid slba all go) :=
  .hostTagged h fun _ _ _ hu => hu.zoneArgs fun _ => .ite hu.addCmd (hk _ _ _ hu.addCmd)

theorem Keeps.execZoneOpen {src : Src} {nsid slba : Nat} {all : Bool} (h : Evolves s₀ s) : Keeps s₀ (execZoneOpen src nsid slba all s) :=
  .zoneCmd h fun _ _ _ hu => hu.startOpen

theorem Keeps.execZoneClose {src : Src} {nsid slba : Nat} {all : Bool} (h : Evolves s₀ s) : Keeps s₀ (execZoneClose src nsid slba all s) :=
  .zoneCmd h fun _ _ _ hu => hu.startClose

theorem Keeps.execZoneReset {src : Src} {nsid slba : Nat} {all : Bool} (h : Evolves s₀ s) : Keeps s₀ (execZoneReset src nsid slba all s) :=
  .zoneCmd h fun _ _ _ hu => hu.startReset

theorem Keeps.execZoneFinish {src : Src} {nsid slba : Nat} {all : Bool} (h : Evolves s₀ s) : Keeps s₀ (execZoneFinish src nsid slba all s) :=
  .zoneCmd h fun _ _ _ hu => hu.startFinish

theorem Evolves.startReport {c : Cmd} {n : Ns} (h : Evolves s₀ s) : Evolves s₀ (s.startReport c n) := h.finish

theorem Keeps.execReportZones {src : Src} {nsid slba count : Nat} (h : Evolves s₀ s) : Keeps s₀ (execReportZones src nsid slba count s) :=
  .hostTagged h fun _ _ _ hu => hu.withNs fun _ => .ite hu.err (.ite hu.err (.ite hu.addCmd hu.addCmd.startReport))

theorem Keeps.execGetFeaturesZonePhysicalStatus {src : Src} {nsid zone : Nat} (h : Evolves s₀ s) :
    Keeps s₀ (execGetFeaturesZonePhysicalStatus src nsid zone s) :=
  .host h fun _ hu => hu.withNs fun _ => .ite hu.err hu.done

theorem Keeps.execSetFeaturesZonePhysicalStatus {src : Src} (h : Evolves s₀ s) : Keeps s₀ (execSetFeaturesZonePhysicalStatus src s) :=
  .host h fun _ hu => hu.err

theorem Keeps.execGetLogPageChangedZoneList {src : Src} {rae : Bool} {nsid : optParam Nat 1} (h : Evolves s₀ s) :
    Keeps s₀ (execGetLogPageChangedZoneList src rae s nsid) :=
  .host h fun _ hu => (hu.elseIf (·.modFn)).logRead.done

theorem Evolves.chargeFn {f t : Nat} (h : Evolves s₀ s) : Evolves s₀ (s.chargeFn f t) := h.modFn

theorem Evolves.finishWrite {c : Cmd} {lba loc : Nat} (h : Evolves s₀ s) : Evolves s₀ (s.finishWrite c lba loc) := by
  unfold State.finishWrite
  exact .ite h.countIo.finish (.ite h.countIo.finish h.countIo.finish)

theorem Evolves.coverByFlush {c : Cmd} {ids : List Nat} (h : Evolves s₀ s) : Evolves s₀ (s.coverByFlush c ids) := h.fields

theorem Evolves.placeZoned {c : Cmd} {n : Ns} {z : Nat} (h : Evolves s₀ s) : Evolves s₀ (s.placeZoned c n z) :=
  .finishWrite (.ite h.journal.setZone.coverByFlush.fields.chargeFn.fillZone (.ite h.journal.setZone.coverByFlush.fields.chargeFn.fillZone
      h.journal.setZone.coverByFlush.fields.chargeFn))

theorem Evolves.placeInZone {c : Cmd} {n : Ns} (h : Evolves s₀ s) : Evolves s₀ (s.placeInZone c n) := by
  unfold State.placeInZone
  extract_lets
  split
  · exact (h.thenIf (·.fillZone)).finish
  · split
    · exact h.finish
    · rename_i u hu
      exact .ite (.placeZoned (h.openChecks hu)) (.ite h (.placeZoned (.bindZone (h.openChecks hu))))

theorem Evolves.placeConv {c : Cmd} {n : Ns} (h : Evolves s₀ s) : Evolves s₀ (s.placeConv c n) := by
  unfold State.placeConv
  exact .finishWrite (.modNs (.foldl (.fields (.removeClutches (.coverByFlush (.foldl_snd (.pair (.journal h)) fun _ _ hu => .pair (.logSlot
      hu))))) fun _ _ hu => .elseIf hu (.chargeFn ·)))

theorem Keeps.execPlacementPoint {tag : Nat} (h : Evolves s₀ s) : Keeps s₀ (execPlacementPoint tag s) := by
  refine .onTag fun _ => ?_
  split
  · exact h.next
  · exact .ite (.next (.ite h.placeInZone h.placeConv)) h.next

/-! ### Machine/Tenancy -/

theorem Evolves.setSlot {k : Nat} {v : KeySlot} (h : Evolves s₀ s) : Evolves s₀ (s.setSlot k v) := h.secFields

theorem Evolves.zeroSlot {k : Nat} (h : Evolves s₀ s) : Evolves s₀ (s.zeroSlot k) := h.setSlot

theorem Evolves.moveMedia {f top : Nat} (h : Evolves s₀ s) : Evolves s₀ (s.moveMedia f top) := by
  refine (h.foldl fun _ _ hu => hu.zeroSlot).foldl fun _ _ hu => ?_
  extract_lets
  split
  · exact .ite hu.modNs.setSlot hu.modNs
  · exact hu.modNs

theorem Evolves.resizeKeys {f new : Nat} (h : Evolves s₀ s) : Evolves s₀ (s.resizeKeys f new) := by
  unfold State.resizeKeys
  exact .ite (.ite h.wr.modFn h.wr.modFn.moveMedia) h.modFn.wr

theorem Evolves.retryShrink {f : Nat} (h : Evolves s₀ s) : Evolves s₀ (s.retryShrink f) := by
  unfold State.retryShrink
  split
  · exact h.thenIf (·.resizeKeys.settleFlags)
  · exact h

theorem Evolves.setPool {f : Nat} {d : PoolDesc} (h : Evolves s₀ s) : Evolves s₀ (s.setPool f d) := h.wr.wr.wr.wr.wr.wr.wr.wr.wr.wr.wr.wr.wr

theorem Keeps.poolCmd {src : Src} {f : Nat} {k : State → State} (h : Evolves s₀ s) (hk : ∀ u, Evolves s₀ u → Evolves s₀ (k u)) :
    Keeps s₀ (poolCmd s src f k) := by
  unfold Machine.poolCmd
  exact .ite h.holdEntry.next.onFn (.host h fun _ hu => hk _ hu)

theorem Keeps.execPoolManageAssign {src : Src} {fn len : Nat} {d : PoolDesc} (h : Evolves s₀ s) : Keeps s₀ (execPoolManageAssign src fn len d s) := by
  refine .poolCmd h fun _ hu => .ite hu.err (.ite hu.err (.ite hu.err (.ite hu.err ?_)))
  split
  · exact hu.err
  · exact hu.wr.setPool.wr.wr.done

theorem Evolves.finishOver {f quota : Nat} (h : Evolves s₀ s) : Evolves s₀ (s.finishOver f quota) := by
  refine h.foldl fun _ _ hu => ?_
  split
  · exact hu
  · exact .ite hu.setZone hu.fillZone

theorem Keeps.execPoolManageChange {src : Src} {fn len : Nat} {d : PoolDesc} (h : Evolves s₀ s) : Keeps s₀ (execPoolManageChange src fn len d s) := by
  refine .poolCmd h fun _ hu => .ite hu.err (.ite hu.err (.ite hu.err (.ite hu.err ?_)))
  split
  · exact hu.err
  · exact .done (.settleFlags (.ite hu.modFn.setPool.wr.resizeKeys.cutFlags.finishOver hu.modFn.setPool.wr.resizeKeys.cutFlags))

theorem Evolves.chargePf0 (h : Evolves s₀ s) : Evolves s₀ s.chargePf0 := h.cutFlags

theorem Evolves.unassign {fn : Nat} (h : Evolves s₀ s) : Evolves s₀ (s.unassign fn) :=
  ((h.foldl fun _ _ hu => hu.zeroSlot).fields.foldl fun _ _ hu => hu.setWord).modFn.chargePf0

theorem Keeps.execPoolManageRelease {src : Src} {fn len : Nat} (h : Evolves s₀ s) : Keeps s₀ (execPoolManageRelease src fn len s) :=
  .poolCmd h fun _ hu => .ite hu.err (.ite hu.err (.ite hu.err hu.unassign.ok))

theorem Evolves.giveExtra {cls spare : Nat} (h : Evolves s₀ s) : Evolves s₀ (s.giveExtra cls spare).2 := by
  unfold State.giveExtra
  exact .pair (h.foldl fun _ _ hu => hu.modFn)

theorem Evolves.refillAll (h : Evolves s₀ s) : Evolves s₀ s.refillAll := h.giveExtra.giveExtra.fields.foldl fun _ _ hu => hu.modFn

theorem Keeps.execGetLogPagePoolUsage {src : Src} {rae : Bool} (h : Evolves s₀ s) : Keeps s₀ (execGetLogPagePoolUsage src rae s) :=
  .host h fun _ hu => hu.logRead.done

/-! ### Machine/ChorusTime -/

theorem Evolves.setCounter {v : Nat} (h : Evolves s₀ s) : Evolves s₀ (s.setCounter v) := h.setWord.setWord

theorem Evolves.setChoState {st : Nat} (h : Evolves s₀ s) : Evolves s₀ (s.setChoState st) := by
  unfold State.setChoState
  exact .ite h (.ite h.wr.record.raise h.wr.record)

theorem Evolves.noteFrame (h : Evolves s₀ s) : Evolves s₀ s.noteFrame := h.fields

theorem Evolves.recordFrame (h : Evolves s₀ s) : Evolves s₀ s.recordFrame := by
  unfold State.recordFrame
  exact h.elseIf (·.noteFrame)

theorem Evolves.plmChange {c : Nat} (h : Evolves s₀ s) : Evolves s₀ (s.plmChange c) := h.foldl fun _ _ hu => hu.thenIf (·.modFn.raiseIf)

theorem Evolves.plmTurns {was : Nat} (h : Evolves s₀ s) : Evolves s₀ (s.plmTurns was) := h.foldl fun _ _ hu => hu.plmChange

theorem Evolves.chbPulse {mode at' : Nat} (h : Evolves s₀ s) : Evolves s₀ (s.chbPulse mode at') := by
  unfold State.chbPulse
  exact h.thenIf (·.fields)

theorem Evolves.stage {k v : Nat} (h : Evolves s₀ s) : Evolves s₀ (s.stage k v) := h.fields.wr

theorem Evolves.applyStaged {r : Nat × Nat × Nat × Nat × List (Nat × Nat)} (h : Evolves s₀ s) : Evolves s₀ (s.applyStaged r) :=
  h.wr.wr.wr.wr.foldl fun _ _ hu => hu.wr.wr

theorem Evolves.choSwitch {beat : Nat} (h : Evolves s₀ s) : Evolves s₀ (s.choSwitch beat).2 := by
  unfold State.choSwitch
  exact .pair (.setChoState (.plmTurns (.chbPulse (.fields (.fields (.bump (.wr (.wr (.recordFrame (.setCounter (.ite h.applyStaged
      h.record)))))))))))

theorem Evolves.adoptTime {beat : Nat} (h : Evolves s₀ s) : Evolves s₀ (s.adoptTime beat) :=
  (h.elseIf (·.setCounter.recordFrame)).fields.chbPulse.plmTurns.setChoState

theorem Evolves.setTokens (h : Evolves s₀ s) : Evolves s₀ s.setTokens := h.wr

theorem Evolves.modOp {id : Nat} {g : DieOp → DieOp} (h : Evolves s₀ s) : Evolves s₀ (s.modOp id g) := h.fields

theorem Evolves.dropOp {id : Nat} (h : Evolves s₀ s) : Evolves s₀ (s.dropOp id) := h.fields

theorem Evolves.suspendErases {c : Nat} (h : Evolves s₀ s) : Evolves s₀ (s.suspendErases c) := h.fields

theorem Evolves.queueOp {o : DieOp} (h : Evolves s₀ s) : Evolves s₀ (s.queueOp o) := h.fields

/-! ### Machine/Snc -/

theorem Evolves.flashPut {a : Nat} {b : Byte} (h : Evolves s₀ s) : Evolves s₀ (s.flashPut a b) :=
  ⟨fun hc => State.canonical_flashPut _ _ _ (h.canonical hc), h.otpBits, h.queue⟩

theorem Evolves.flashAnd {a : Nat} {data : Bytes} (h : Evolves s₀ s) : Evolves s₀ (s.flashAnd a data) := by
  induction data generalizing s a with
  | nil => exact h
  | cons b data ih => exact ih h.flashPut

theorem Evolves.flashErase {a n : Nat} (h : Evolves s₀ s) : Evolves s₀ (s.flashErase a n) :=
  ⟨fun hc => State.canonical_flashErase _ _ _ (h.canonical hc), h.otpBits, h.queue⟩

theorem Evolves.flagAppend {r : Bytes} (h : Evolves s₀ s) : Evolves s₀ (s.flagAppend r) := by
  unfold State.flagAppend
  extract_lets
  split
  · exact h.flashAnd
  · exact h.flashAnd.sncFields.flashAnd.flashErase.flashAnd

theorem Evolves.eraseIntent {size a : Nat} (h : Evolves s₀ s) : Evolves s₀ (s.eraseIntent size a) := by
  unfold State.eraseIntent
  exact h.elseIf (·.sncFields.flagAppend)

theorem Evolves.eraseClear {size a q : Nat} (h : Evolves s₀ s) : Evolves s₀ (s.eraseClear size a q) := by
  unfold State.eraseClear
  exact h.elseIf (·.flagAppend)

theorem Evolves.eraseWhole {size a : Nat} (h : Evolves s₀ s) : Evolves s₀ (s.eraseWhole size a) := h.eraseIntent.flashErase.eraseClear

theorem Evolves.writeRec {base sz c : Nat} {r : Bytes} (h : Evolves s₀ s) : Evolves s₀ (s.writeRec base sz c r) := by
  unfold State.writeRec
  extract_lets
  split
  · exact h.flashAnd
  · exact h.thenIf (·.flashAnd.eraseWhole)

theorem Evolves.settleHome (h : Evolves s₀ s) : Evolves s₀ s.settleHome := by
  unfold State.settleHome
  exact h.elseIf (·.wr.record)

theorem Evolves.ringUnwritable (h : Evolves s₀ s) : Evolves s₀ s.ringUnwritable := by
  unfold State.ringUnwritable
  exact h.elseIf (·.wr.settleHome)

theorem Evolves.ringOpEnded {result : Nat} {erase : Bool} (h : Evolves s₀ s) : Evolves s₀ (s.ringOpEnded result erase) := by
  unfold State.ringOpEnded
  exact .ite h.fields.ringUnwritable h.fields

theorem Evolves.refreshSnc (h : Evolves s₀ s) : Evolves s₀ s.refreshSnc := h.setFlag.wr.wr

theorem Evolves.sncNext (h : Evolves s₀ s) : Evolves s₀ s.sncNext := by
  unfold State.sncNext
  refine .ite h.refreshSnc ?_
  split
  · exact h.refreshSnc
  · exact .refreshSnc (.ite h.sncFields.eraseIntent (.ite h.sncFields.eraseIntent h.sncFields))

theorem Evolves.sncEnd {bank result addr : Nat} (h : Evolves s₀ s) : Evolves s₀ (s.sncEnd bank result addr) := by
  unfold State.sncEnd
  exact .ite (.record (.ite h.wr.wr.bump (.ite h.wr.wr.bump (.ite h.wr.wr.bump (.ite h.wr.wr.bump h.wr.wr))))) (.ite h.wr.wr.bump (.ite
      h.wr.wr.bump (.ite h.wr.wr.bump (.ite h.wr.wr.bump h.wr.wr))))

theorem Evolves.sncGo {r code : Nat} {andow : Bool} (h : Evolves s₀ s) : Evolves s₀ (s.sncGo r code andow) := by
  unfold State.sncGo
  extract_lets
  split
  · exact h.wr.wr.wr.sncEnd
  · exact h.wr.wr.wr.sncFields.sncNext

theorem Keeps.sncCmd {r code : Nat} {andow : Bool} (h : Evolves s₀ s) : Keeps s₀ (sncCmd r code andow s) := .winWrite h fun _ hu => hu.sncGo

theorem Keeps.execSncProgram {requester : Nat} {andow : Bool} (h : Evolves s₀ s) : Keeps s₀ (execSncProgram requester andow s) := .sncCmd h

theorem Keeps.execSncSectorErase {requester : Nat} (h : Evolves s₀ s) : Keeps s₀ (execSncSectorErase requester s) := .sncCmd h

theorem Keeps.execSncBlockErase {requester : Nat} (h : Evolves s₀ s) : Keeps s₀ (execSncBlockErase requester s) := .sncCmd h

theorem Keeps.execSncBlankCheck {requester : Nat} (h : Evolves s₀ s) : Keeps s₀ (execSncBlankCheck requester s) := .sncCmd h

theorem Evolves.flashFree {a n : Nat} (h : Evolves s₀ s) : Evolves s₀ (s.flashFree a n) := h.fields.foldl fun _ _ hu => hu.flashPut

theorem Evolves.sncFinish {o : SncOp} {result : Nat} (h : Evolves s₀ s) : Evolves s₀ (s.sncFinish o result) := by
  refine .sncNext (.ite (.ringOpEnded (.sncEnd ?_)) (.sncEnd ?_))
  · split
    · split
      · exact h.sncFields.pair
      · split <;> exact h.sncFields.pair
    · split
      · exact h.sncFields.pair
      · split
        · exact h.sncFields.flashFree.pair
        · split
          · exact h.sncFields.flashAnd.pair
          · exact h.sncFields.flashErase.eraseClear.pair
  · split
    · split
      · exact h.sncFields.pair
      · split <;> exact h.sncFields.pair
    · split
      · exact h.sncFields.pair
      · split
        · exact h.sncFields.flashFree.pair
        · split
          · exact h.sncFields.flashAnd.pair
          · exact h.sncFields.flashErase.eraseClear.pair

theorem Keeps.execSncOperationComplete {verified : Bool} (h : Evolves s₀ s) : Keeps s₀ (execSncOperationComplete verified s) := by
  unfold Machine.execSncOperationComplete
  split
  · exact h.next
  · exact h.sncFinish.next

theorem Keeps.execSncDeviceTimeout (h : Evolves s₀ s) : Keeps s₀ (execSncDeviceTimeout s) := by
  unfold Machine.execSncDeviceTimeout
  split
  · exact h.next
  · exact h.sncFinish.next

theorem Keeps.execSncXipDetachWrite {requester value : Nat} (h : Evolves s₀ s) : Keeps s₀ (execSncXipDetachWrite requester value s) :=
  .winWrite h fun _ hu => hu.plainWrite

theorem Keeps.execBootFlashDataRead {requester addr len : Nat} (h : Evolves s₀ s) : Keeps s₀ (execBootFlashDataRead requester addr len s) := by
  unfold Machine.execBootFlashDataRead
  exact .ite .fault h.reply.next

theorem Keeps.execBootFlashInstructionFetch {requester addr : Nat} (h : Evolves s₀ s) :
    Keeps s₀ (execBootFlashInstructionFetch requester addr s) := by
  unfold Machine.execBootFlashInstructionFetch
  exact .ite .fault (.ite h.sncFields.reply.next h.reply.next)

/-! ### Machine/Recorder -/

theorem Evolves.ringErase {b : Nat} (h : Evolves s₀ s) : Evolves s₀ (s.ringErase b) := h.fields.eraseWhole

theorem Evolves.ringMakeRoom (h : Evolves s₀ s) : Evolves s₀ s.ringMakeRoom := by
  unfold State.ringMakeRoom
  exact h.thenIf (·.ringErase)

theorem Evolves.ringProgram (h : Evolves s₀ s) : Evolves s₀ s.ringProgram := (h.ringMakeRoom.flashAnd.foldl fun _ _ hu => hu.flashAnd).fields

theorem Evolves.nandProgram (h : Evolves s₀ s) : Evolves s₀ s.nandProgram := by
  unfold State.nandProgram
  exact h.elseIf (·.fields)

theorem Keeps.execEventRingProgram (h : Evolves s₀ s) : Keeps s₀ (execEventRingProgram s) := by
  unfold Machine.execEventRingProgram
  exact .ite h.settleHome.next (.ite (.ite h.settleHome.next (.ite h.settleHome.ringUnwritable.next h.settleHome.ringProgram.next)) (.ite
      h.settleHome.nandProgram.next h.settleHome.next))

theorem Keeps.execTokenBucketRefill {code : Nat} (h : Evolves s₀ s) : Keeps s₀ (execTokenBucketRefill code s) := by
  unfold Machine.execTokenBucketRefill
  exact .ite .fault (.ite h.fields.next h.fields.emit.next)

theorem Evolves.startFetch {bank n : Nat} {aon : Bool} (h : Evolves s₀ s) : Evolves s₀ (s.startFetch bank n aon) := h.fields.wr

theorem Evolves.cursorTo {bank : Nat} {r : Option Rec} (h : Evolves s₀ s) : Evolves s₀ (s.cursorTo bank r) := by
  unfold State.cursorTo
  split
  · exact h.wr.wr.startFetch
  · exact h.startFetch

theorem Evolves.cursorCmd {bank v : Nat} (h : Evolves s₀ s) : Evolves s₀ (s.cursorCmd bank v) := by
  unfold State.cursorCmd
  exact .ite h.cursorTo (.ite h.cursorTo (h.thenIf (·.cursorTo)))

theorem Evolves.cursorHigh {r v : Nat} (h : Evolves s₀ s) : Evolves s₀ (s.cursorHigh r v) := by
  unfold State.cursorHigh
  exact .ite h.plainWrite.startFetch h.plainWrite.startFetch

theorem Keeps.execEvrCursorHighWrite {requester value : Nat} (h : Evolves s₀ s) : Keeps s₀ (execEvrCursorHighWrite requester value s) :=
  .winWrite h fun _ hu => hu.cursorHigh

theorem Keeps.execEvrCmdNewest {requester : Nat} (h : Evolves s₀ s) : Keeps s₀ (execEvrCmdNewest requester s) := .winWrite h fun _ hu => hu.cursorCmd

theorem Keeps.execEvrCmdOldest {requester : Nat} (h : Evolves s₀ s) : Keeps s₀ (execEvrCmdOldest requester s) := .winWrite h fun _ hu => hu.cursorCmd

theorem Keeps.execEvrCmdNext {requester : Nat} (h : Evolves s₀ s) : Keeps s₀ (execEvrCmdNext requester s) := .winWrite h fun _ hu => hu.cursorCmd

theorem Keeps.execEvrFetchComplete {requester : Nat} (h : Evolves s₀ s) : Keeps s₀ (execEvrFetchComplete requester s) := by
  unfold Machine.execEvrFetchComplete
  refine .ite .fault ?_
  extract_lets
  split
  · exact h.next
  · exact .ite h.next (h.foldl fun _ _ hu => hu.wr).wr.wr.fields.next

theorem Keeps.execGetLogPageEventRecords {src : Src} {rae : Bool} {offset length : Nat} (h : Evolves s₀ s) :
    Keeps s₀ (execGetLogPageEventRecords src rae offset length s) :=
  .host h fun _ hu => .ite hu.err (.ite hu.err (hu.thenIf (·.modFn)).logRead.done)

theorem Keeps.execReadEventRing {nmd0 : Nat} (h : Evolves s₀ s) : Keeps s₀ (execReadEventRing nmd0 s) := by
  unfold Machine.execReadEventRing
  exact .ite h.next (.ite h.reply.next h.reply.next)

/-! ### Machine/Health -/

theorem Evolves.refreshHealth (h : Evolves s₀ s) : Evolves s₀ s.refreshHealth := .fields (.refreshCrit (.ite h.wr.wr.wr.fields h.wr.wr.wr))

theorem Keeps.execHealthMinuteTick (h : Evolves s₀ s) : Keeps s₀ (execHealthMinuteTick s) := by
  unfold Machine.execHealthMinuteTick
  exact .ite h.next (h.foldl fun _ _ hu => hu.modFn).fields.next

theorem Keeps.execHealthCopyToGecko (h : Evolves s₀ s) : Keeps s₀ (execHealthCopyToGecko s) := h.fields.next

theorem Keeps.execGetLogPageSmart {src : Src} {rae : Bool} (h : Evolves s₀ s) : Keeps s₀ (execGetLogPageSmart src rae s) :=
  .host h fun _ hu => hu.logRead.done

theorem Keeps.execGetLogPageLyskinHealth {src : Src} {rae : Bool} (h : Evolves s₀ s) : Keeps s₀ (execGetLogPageLyskinHealth src rae s) :=
  .host h fun _ hu => hu.logRead.done

theorem Keeps.healthPoll {ctrl : Bool} (h : Evolves s₀ s) : Keeps s₀ (healthPoll ctrl s) := by
  unfold Machine.healthPoll
  exact .ite h.next h.reply.next

theorem Keeps.execSubsystemHealthStatusPoll (h : Evolves s₀ s) : Keeps s₀ (execSubsystemHealthStatusPoll s) := .healthPoll h

theorem Keeps.execControllerHealthStatusPoll (h : Evolves s₀ s) : Keeps s₀ (execControllerHealthStatusPoll s) := .healthPoll h

theorem Keeps.execReadNvmeMiDataStructure (h : Evolves s₀ s) : Keeps s₀ (execReadNvmeMiDataStructure s) := by
  unfold Machine.execReadNvmeMiDataStructure
  exact .ite h.next h.free.reply.next

theorem Keeps.execNvmeMiOtherCommand (h : Evolves s₀ s) : Keeps s₀ (execNvmeMiOtherCommand s) := by
  unfold Machine.execNvmeMiOtherCommand
  exact .ite h.next (.ite h.wakeSource.next h.free.reply.next)

/-! ### Machine/Images -/

theorem State.otpSet_pending (data : Bytes) : ∀ (s : State) (a : Nat), (s.otpSet a data).pending = s.pending := by
  induction data with
  | nil => intros; rfl
  | cons b data ih => intro s a; exact ih _ _

theorem Evolves.otpSet {a : Nat} {data : Bytes} (h : Evolves s₀ s) : Evolves s₀ (s.otpSet a data) where
  canonical hc := State.canonical_otpSet _ _ _ (h.canonical hc)
  otpBits x j hb := by
    have hs := h.otpBits x j hb
    rw [State.otpGet_set]
    split
    · simp [hs]
    · exact hs
  queue := (State.otpSet_pending _ _ _).trans h.queue

theorem Evolves.refreshOtp (h : Evolves s₀ s) : Evolves s₀ s.refreshOtp := h.wr.wr.setFlag.wr.wr.wr.wr.wr.wr.wr.wr

theorem Evolves.writeSlot {r : SlotRec} (h : Evolves s₀ s) : Evolves s₀ (s.writeSlot r) := h.writeRec

theorem Evolves.takeTry (h : Evolves s₀ s) : Evolves s₀ s.takeTry := by
  unfold State.takeTry
  exact .ite h (.ite h.writeSlot h.writeSlot)

theorem Evolves.pickSlot (h : Evolves s₀ s) : Evolves s₀ s.pickSlot.2 := by
  unfold State.pickSlot
  extract_lets
  split
  · exact h
  · split
    · exact .pair h.writeSlot
    · exact h

theorem Evolves.otpProgram {kind v : Nat} (h : Evolves s₀ s) : Evolves s₀ (s.otpProgram kind v) := by
  unfold State.otpProgram
  split
  · exact h.otpSet.refreshOtp
  · exact (h.foldl fun _ _ hu => hu.otpSet).refreshOtp
  · exact (h.thenIf (·.otpSet)).otpSet.refreshOtp

theorem Evolves.otpStep {kind v : Nat} (h : Evolves s₀ s) : Evolves s₀ (s.otpStep kind v) := by
  unfold State.otpStep
  exact .ite h.otpProgram (h.elseIf (·.secFields.wr))

theorem Evolves.otpPending (h : Evolves s₀ s) : Evolves s₀ s.otpPending := by
  unfold State.otpPending
  exact .ite h.wr (h.foldl fun _ _ hu => hu.otpProgram).secFields.wr

theorem Evolves.confirmSlot {k : Nat} (h : Evolves s₀ s) : Evolves s₀ (s.confirmSlot k) := by
  unfold State.confirmSlot
  exact .ite (.otpStep (.ite h.writeSlot.otpStep h.writeSlot)) (.ite h.writeSlot.otpStep h.writeSlot)

theorem Evolves.runImage {k : Nat} (h : Evolves s₀ s) : Evolves s₀ (s.runImage k) := h.fields.wr.wr.foldl fun _ _ hu => hu.wr

theorem Evolves.writePeuth {bank : Nat} {prev : Bool} (h : Evolves s₀ s) : Evolves s₀ (s.writePeuth bank prev) := h.writeRec

theorem Evolves.loadReg {p : Profile} {off : Nat} (h : Evolves s₀ s) : Evolves s₀ (s.loadReg p off) := by
  unfold State.loadReg
  split
  · exact h
  · exact h.setWord

theorem Evolves.loadPf0 {p : Profile} (h : Evolves s₀ s) : Evolves s₀ (s.loadPf0 p) := by
  refine .cutFlags ?_
  split
  · exact h.setPool.wr.resizeKeys
  · exact h.setPool

theorem Evolves.capBuffer {want : Nat} (h : Evolves s₀ s) : Evolves s₀ (s.capBuffer want).2 := by
  unfold State.capBuffer
  extract_lets
  split
  · exact h.record.pair
  · exact h.pair

theorem Evolves.settleTurnMap (h : Evolves s₀ s) : Evolves s₀ s.settleTurnMap := by
  unfold State.settleTurnMap
  exact .ite (h.foldl fun _ _ hu => hu.elseIf (·.wr)) ((h.foldl fun _ _ hu => hu.elseIf (·.wr)).foldl fun _ _ hu => hu.wr.wr)

theorem Evolves.stageProfile {p : Profile} (h : Evolves s₀ s) : Evolves s₀ (s.stageProfile p) := by
  unfold State.stageProfile
  extract_lets put
  have hput {t : State} {k cur new : Nat} (ht : Evolves s₀ t) : Evolves s₀ (put t k cur new) := ht.elseIf (·.stage)
  exact .loadReg (.loadReg (.wr (.wr (.foldl (hput (hput (hput (hput h)))) fun _ _ hu => hput hu))))

theorem Evolves.applySelect {p : Profile} {start : Bool} (h : Evolves s₀ s) : Evolves s₀ (s.applySelect p start) :=
  .loadPf0 (.wr (.capBuffer (.settleCeil (.ite ((h.foldl fun _ _ hu => hu.loadReg).foldl fun _ _ hu => hu.loadReg) (h.foldl fun _ _ hu =>
      hu.loadReg).stageProfile))))

theorem Evolves.selectProfile {k : Nat} {direct : Bool} (h : Evolves s₀ s) : Evolves s₀ (s.selectProfile k direct) := by
  unfold State.selectProfile
  split
  · exact h
  · exact .fields (.setFlag (.wr (.wr (.ite h.applySelect.settleTurnMap h.applySelect))))

/-! ### Machine/IoCommands -/

theorem Evolves.ite_withNs {c : Prop} {d : Decidable c} {src : Src} {nsid : Nat} {k : Ns → State} (h : Evolves s₀ s)
    (hk : ∀ n, Evolves s₀ (k n)) : Evolves s₀ ((if c then Machine.withVendorNs else Machine.withNs) s src nsid k) := by
  split
  · exact h.withVendorNs hk
  · exact h.withNs hk

theorem Keeps.queueWrite {src : Src} {w : WriteArgs} {k : Kind} {zslba : Bool} (h : Evolves s₀ s) :
    Keeps s₀ (queueWrite s src w k zslba) := by
  refine .hostTagged h fun _ _ _ hu => hu.ite_withNs fun _ => .ite hu.err ?_
  split
  · exact hu.err
  · exact .ite hu.err (.ite hu.err hu.addCmd)

theorem Keeps.execWrite {src : Src} {w : WriteArgs} (h : Evolves s₀ s) : Keeps s₀ (execWrite src w s) := .queueWrite h

theorem Keeps.execWriteZeroes {src : Src} {w : WriteArgs} (h : Evolves s₀ s) : Keeps s₀ (execWriteZeroes src w s) := .queueWrite h

theorem Keeps.execZoneAppend {src : Src} {w : WriteArgs} (h : Evolves s₀ s) : Keeps s₀ (execZoneAppend src w s) := .queueWrite h

theorem Keeps.execOrderedWrite {src : Src} {w : WriteArgs} (h : Evolves s₀ s) : Keeps s₀ (execOrderedWrite src w s) := .queueWrite h

theorem Keeps.execLocatorAppend {src : Src} {w : WriteArgs} (h : Evolves s₀ s) : Keeps s₀ (execLocatorAppend src w s) := .queueWrite h

theorem Keeps.execVerifiedPrecompressedWrite {src : Src} {v : VpwArgs} (h : Evolves s₀ s) : Keeps s₀ (execVerifiedPrecompressedWrite src v s) := by
  refine .hostTagged h fun _ _ _ hu => hu.withVendorNs fun _ => .ite hu.err (.ite hu.err ?_)
  split
  · exact hu.err
  · exact hu.addCmd

theorem Keeps.queueRead {src : Src} {r : ReadArgs} {k : Kind} {data : Bytes} (h : Evolves s₀ s) : Keeps s₀ (queueRead s src r k data) := by
  refine .hostTagged h fun _ _ _ hu => hu.withNs fun _ => ?_
  split
  · exact hu.err
  · exact hu.addCmd

theorem Keeps.execRead {src : Src} {r : ReadArgs} (h : Evolves s₀ s) : Keeps s₀ (execRead src r s) := .queueRead h

theorem Keeps.execCompare {src : Src} {r : ReadArgs} {data : Bytes} (h : Evolves s₀ s) : Keeps s₀ (execCompare src r data s) := .queueRead h

theorem Keeps.execVerify {src : Src} {r : ReadArgs} (h : Evolves s₀ s) : Keeps s₀ (execVerify src r s) := .queueRead h

theorem Keeps.execReadByLocator {src : Src} {nsid loc gen off count keyTag prinfo : Nat} (h : Evolves s₀ s) :
    Keeps s₀ (execReadByLocator src nsid loc gen off count keyTag prinfo s) := by
  refine .hostTagged h fun _ _ _ hu => hu.withVendorNs fun _ => .ite hu.err ?_
  split
  · exact hu.err
  · exact hu.addCmd

theorem Keeps.execDigestRange {src : Src} {nsid slba count alg keyTag : Nat} (h : Evolves s₀ s) :
    Keeps s₀ (execDigestRange src nsid slba count alg keyTag s) :=
  .hostTagged h fun _ _ _ hu => hu.withVendorNs fun _ => .ite hu.err (.ite hu.err hu.addCmd)

theorem Evolves.startDeallocate {c : Cmd} {n : Ns} (h : Evolves s₀ s) : Evolves s₀ (s.startDeallocate c n) := h.journal.removeClutches.finish

theorem Keeps.execDatasetManagement {src : Src} {nsid : Nat} {deallocate : Bool} {ranges : List (Nat × Nat)} (h : Evolves s₀ s) :
    Keeps s₀ (execDatasetManagement src nsid deallocate ranges s) :=
  .hostTagged h fun _ _ _ hu => hu.withNs fun _ => .ite hu.err hu.addCmd

theorem Keeps.execFlush {src : Src} {nsid : Nat} (h : Evolves s₀ s) : Keeps s₀ (execFlush src nsid s) :=
  .hostTagged h fun _ _ _ hu => .ite hu.err hu.addCmd

theorem Evolves.startReadLoc {c : Cmd} {n : Ns} (h : Evolves s₀ s) : Evolves s₀ (s.startReadLoc c n) := by
  unfold State.startReadLoc
  split
  · exact h.finish
  · split
    · exact h.finish
    · exact .ite h.finish h.placeCmd

/-! ### Machine/Efts -/

theorem Keeps.onEft {p n : Nat} {k : Result} (hk : Keeps s₀ k) : Keeps s₀ (onEft p n k) := hk.inRange.inRange

theorem Evolves.scrubEft {p n : Nat} (h : Evolves s₀ s) : Evolves s₀ (s.scrubEft p n) := h.modEft.bump

theorem Evolves.startItem {p n : Nat} {i : Item} (h : Evolves s₀ s) : Evolves s₀ (s.startItem p n i) := (h.thenIf (·.scrubEft)).modEft.setOwner

theorem Evolves.endItem {p n : Nat} (h : Evolves s₀ s) : Evolves s₀ (s.endItem p n) := h.modEft.count

theorem Evolves.stopItem {p n : Nat} (h : Evolves s₀ s) : Evolves s₀ (s.stopItem p n) := h.modEft.scrubEft

theorem Evolves.takeNear {p n : Nat} {want : ItemCls → Bool} {u : Item × State} (h : Evolves s₀ s) (hu : s.takeNear p n want = some u) :
    Evolves s₀ u.2 := by
  unfold State.takeNear at hu
  split at hu
  · split at hu
    · cases hu; exact .pair h.modEft
    · cases hu
  · cases hu

theorem Evolves.refreshHomes (h : Evolves s₀ s) : Evolves s₀ s.refreshHomes := h.wr

theorem Evolves.disperse {p n : Nat} {is : List Item} (h : Evolves s₀ s) : Evolves s₀ (s.disperse p n is) := by
  induction is generalizing s with
  | nil => exact h
  | cons i is ih =>
    unfold State.disperse
    split <;> exact ih h.pushItem

theorem Evolves.cancelItems {tag : Nat} (h : Evolves s₀ s) : Evolves s₀ (s.cancelItems tag) := h.fields

theorem Evolves.ownerFenced {tag : Nat} (h : Evolves s₀ s) : Evolves s₀ (s.ownerFenced tag) := by
  unfold State.ownerFenced
  split
  · exact h
  · exact .ite h.cancelItems.modCmd (h.elseIf (·.fields.modCmd))

theorem Evolves.fenceEft {p n cause : Nat} (h : Evolves s₀ s) : Evolves s₀ (s.fenceEft p n cause) := by
  unfold State.fenceEft
  exact .ite h (.ite (h.foldl fun _ _ hu => hu.ownerFenced).wr.wr.setEft.fields.record.disperse.refreshHomes.degrade (h.foldl fun _ _ hu =>
      hu.ownerFenced).wr.wr.setEft.fields.record.disperse.refreshHomes)

theorem Evolves.strike {key : Nat} (h : Evolves s₀ s) : Evolves s₀ (s.strike key) := by
  unfold State.strike
  exact .ite h.modEft.wr.fenceEft h.modEft.wr

theorem Evolves.redo {p n : Nat} {i : Item} {u : State} (h : Evolves s₀ s) (hu : s.redo p n i = some u) : Evolves s₀ u := by
  obtain ⟨e, -, rfl⟩ := Option.map_eq_some_iff.1 hu
  exact h.endItem.pushItem

theorem Evolves.redoPassed {i : Item} (h : Evolves s₀ s) : Evolves s₀ (s.redoPassed i) := by
  unfold State.redoPassed
  split
  · exact h.strike
  · exact h

theorem Evolves.itemDone {tag : Nat} {r : Status ⊕ Nat × Stored} (h : Evolves s₀ s) : Evolves s₀ (s.itemDone tag r) := by
  unfold State.itemDone
  split
  · exact h
  · extract_lets
    split
    · exact .ite h.modCmd.finish h.modCmd
    · exact h.modCmd

theorem Evolves.takeOvf {p n : Nat} {l : List Bytes} (h : Evolves s₀ s) : Evolves s₀ (s.takeOvf p n l) := h.wr.modEft

theorem Evolves.storeClutch {p n : Nat} {i : Item} {c : Cmd} {ns : Ns} {level fmt : Nat}
    {data body tail : Bytes} {ovf : List Bytes} (h : Evolves s₀ s) :
    Evolves s₀ (s.storeClutch p n i c ns level fmt data body tail ovf) := by
  unfold State.storeClutch
  split
  · exact h.noteKey.endItem.itemDone
  · exact h.takeOvf.modEft.endItem.itemDone

theorem Evolves.runVpw {p n : Nat} {i : Item} {c : Cmd} {ns : Ns} {faulty : Bool} (h : Evolves s₀ s) : Evolves s₀ (s.runVpw p n i c ns faulty) := by
  unfold State.runVpw
  refine .ite h ?_
  split
  · exact h.endItem.itemDone
  · refine .ite (.ite h ?_) ?_
    · split
      · rename_i u hu
        exact (h.redo hu)
      · rename_i _ u hu
        exact h.record.endItem.itemDone
    · split
      · exact h.endItem.itemDone
      · exact h.redoPassed.storeClutch

theorem Evolves.runWrite {p n : Nat} {i : Item} {c : Cmd} {ns : Ns} {faulty : Bool} (h : Evolves s₀ s) :
    Evolves s₀ (s.runWrite p n i c ns faulty) := by
  unfold State.runWrite
  refine .ite h.runVpw (.ite h ?_)
  extract_lets
  split
  · exact h.endItem.itemDone
  · extract_lets
    split
    · exact h.storeClutch
    · exact h.bump.storeClutch
    · exact h.redoPassed.storeClutch
    · refine .ite h ?_
      split
      · rename_i u hu
        exact .thenIf (h.redo hu) (·.modCmd)
      · rename_i _ u hu
        exact h.record.storeClutch

theorem Keeps.execHostReadCompletion {pond n off : Nat} {data : Bytes} (h : Evolves s₀ s) : Keeps s₀ (execHostReadCompletion pond n off data s) := by
  refine .onEft ?_
  extract_lets
  split
  · exact h.next
  · exact .ite h.next h.modEft.next

theorem Evolves.readItemDone {tag id : Nat} {r : Status ⊕ Bytes} (h : Evolves s₀ s) : Evolves s₀ (s.readItemDone tag id r) := by
  unfold State.readItemDone
  split
  · exact h
  · exact .ite h.modCmd.finishRead h.modCmd

theorem Evolves.feedDone {tag id : Nat} {r : Status ⊕ Bytes} (h : Evolves s₀ s) : Evolves s₀ (s.feedDone tag id r) := by
  unfold State.feedDone
  split
  · exact h.modEft
  · exact h

theorem Evolves.readEnd {i : Item} {r : Status ⊕ Bytes} (h : Evolves s₀ s) : Evolves s₀ (s.readEnd i r) := by
  unfold State.readEnd
  exact .ite h.fields.feedDone h.fields.readItemDone

theorem Evolves.queueReads {x : Clutch} {eft purpose : Nat} {feeds : List (Nat × Nat)} (h : Evolves s₀ s) :
    Evolves s₀ (s.queueReads x eft purpose feeds) :=
  h.foldl fun _ _ hu => hu.fields

theorem Evolves.queueDieRead {x : Clutch} {eft purpose : Nat} (h : Evolves s₀ s) : Evolves s₀ (s.queueDieRead x eft purpose) := h.queueReads

theorem Evolves.holdClutch {p n : Nat} {st : Stored} (h : Evolves s₀ s) : Evolves s₀ (s.holdClutch p n st) := h.takeOvf.modEft

theorem Evolves.rereadItem {p n : Nat} {i : Item} {x : Clutch} (h : Evolves s₀ s) : Evolves s₀ (s.rereadItem p n i x) := h.endItem.modEft.queueDieRead

theorem Evolves.runRead {p n : Nat} {i : Item} {c : Cmd} {ns : Ns} {x : Clutch} {st : Stored} {die faulty : Bool} (h : Evolves s₀ s) :
    Evolves s₀ (s.runRead p n i c ns x st die faulty) := by
  unfold State.runRead
  extract_lets
  split
  · exact h.holdClutch.redoPassed.endItem.readEnd
  · exact .readEnd (.endItem (.ite h.holdClutch.noteKey h.holdClutch))
  · exact .ite h.holdClutch.endItem.readEnd (h.elseIf (·.holdClutch.rereadItem))
  · refine .ite h ?_
    extract_lets
    split
    · rename_i u hu
      exact (h.holdClutch.redo hu)
    · rename_i _ u hu
      exact h.holdClutch.fields.record.endItem.readEnd

theorem Evolves.modSum {c : Cmd} {g : Bytes × Bytes → Bytes × Bytes} (h : Evolves s₀ s) : Evolves s₀ (s.modSum c g) := by
  unfold State.modSum
  split
  · exact h
  · exact h.modEft

theorem Evolves.parkOutput {p n : Nat} (h : Evolves s₀ s) : Evolves s₀ (s.parkOutput p n) := by
  unfold State.parkOutput
  extract_lets
  split
  · exact h
  · exact h.thenIf (·.modEft)

theorem Evolves.startOutput {p n : Nat} {i : Item} {c : Cmd} (h : Evolves s₀ s) : Evolves s₀ (s.startOutput p n i c) := by
  refine .modCmd (.modEft (.startItem ?_))
  split
  · exact h.modEft
  · exact h

theorem Evolves.resumeOutput {c : Cmd} {k : Nat} (h : Evolves s₀ s) : Evolves s₀ (s.resumeOutput c k) := by
  unfold State.resumeOutput
  extract_lets
  split
  · exact h
  · exact .ite h.modEft.startOutput h.modEft.pushItem

theorem Evolves.issueTerms {c : Cmd} (h : Evolves s₀ s) : Evolves s₀ (s.issueTerms c) := by
  unfold State.issueTerms
  split
  · exact h
  · exact .ite h.resumeOutput (h.foldl fun _ _ hu => hu.pushItem).modCmd

theorem Evolves.concludeOne {c : Cmd} (h : Evolves s₀ s) : Evolves s₀ (s.concludeOne c) := by
  unfold State.concludeOne
  exact .ite h.cancelItems.finish h.issueTerms

theorem Evolves.concludeRecon (h : Evolves s₀ s) : Evolves s₀ s.concludeRecon := by
  refine h.foldl fun _ _ hu => ?_
  split
  · exact hu.elseIf (·.concludeOne)
  · exact hu

theorem Evolves.addTerm {c : Cmd} {t : Nat} (h : Evolves s₀ s) : Evolves s₀ (s.addTerm c t) := by
  unfold State.addTerm
  extract_lets
  split
  · exact h
  · exact .ite h.modCmd h.modSum.modCmd

theorem Evolves.startedWrite {pond n : Nat} {i : Item} {u : State} (h : Evolves s₀ s)
    (hu : (match (s.eft pond n).run with
      | some i => if i.cls = ItemCls.write then some (i, s) else none
      | none => (s.takeNear pond n fun k => k = ItemCls.write).map fun r => (r.1, match s.cmd r.1.tag with
        | some c => if c.kind = .reconstruct then r.2.startOutput pond n r.1 c else r.2.startItem pond n r.1
        | none => r.2.startItem pond n r.1)) = some (i, u)) : Evolves s₀ u := by
  split at hu
  · split at hu
    · cases hu; exact h
    · cases hu
  · obtain ⟨r, hr, hru⟩ := Option.map_eq_some_iff.1 hu
    cases hru
    split
    · exact .ite (h.takeNear hr).startOutput (h.takeNear hr).startItem
    · exact (h.takeNear hr).startItem

theorem Keeps.execWriteClutchItem {pond n : Nat} {faulty : Bool} (h : Evolves s₀ s) : Keeps s₀ (execWriteClutchItem pond n faulty s) := by
  refine .onEft (.ite h.next ?_)
  extract_lets s start
  have h : Evolves s₀ s := h.parkOutput
  rcases hs : start with _ | ⟨i, u⟩
  · exact h.next
  · have hu' : Evolves s₀ u := h.startedWrite hs
    dsimp only
    split
    · exact hu'.stopItem.next
    · split
      · exact hu'.stopItem.next
      · exact .ite hu'.concludeRecon.next (.next (hu'.modEft.elseIf (·.runWrite)))

theorem Evolves.setTest {t : SelfTest} (h : Evolves s₀ s) : Evolves s₀ (s.setTest t) := h.fields

theorem Evolves.noteFailed {segment : Nat} (h : Evolves s₀ s) : Evolves s₀ (s.noteFailed segment) := h.setTest

theorem Evolves.markPlace {p : Place} (h : Evolves s₀ s) : Evolves s₀ (s.markPlace p) := by
  unfold State.markPlace
  extract_lets
  split
  · exact h.elseIf (·.fields)
  · exact h.elseIf (·.fields)
  · exact h.elseIf (·.fields)
  · exact h

theorem Evolves.rebuildClutch {x : Clutch} (h : Evolves s₀ s) : Evolves s₀ (s.rebuildClutch x) := h.markPlace.queueReads

theorem Evolves.tested {id : Nat} (h : Evolves s₀ s) : Evolves s₀ (s.tested id) := h.setTest

theorem Evolves.runTest {p n : Nat} {i : Item} {x : Clutch} {st : Stored} {die faulty : Bool} (h : Evolves s₀ s) :
    Evolves s₀ (s.runTest p n i x st die faulty) := by
  unfold State.runTest
  extract_lets
  split
  · exact h.holdClutch.redoPassed.endItem.tested.fields
  · exact h.holdClutch.endItem.tested.fields.rebuildClutch
  · exact .ite h.holdClutch.endItem.tested.fields.rebuildClutch (h.elseIf (·.holdClutch.rereadItem))
  · refine .ite h ?_
    split
    · rename_i u hu
      exact (h.holdClutch.redo hu)
    · rename_i _ u hu
      exact h.holdClutch.fields.record.endItem.tested.fields.rebuildClutch

theorem Evolves.takeRead {p n : Nat} {want : ItemCls → Bool} {faulty : Bool} (h : Evolves s₀ s) : Evolves s₀ (s.takeRead p n want faulty) := by
  unfold State.takeRead
  extract_lets e cand
  rcases hc : cand with _ | ⟨i, s1⟩
  · exact h
  · have h1 : Evolves s₀ s1 := by
      simp only [cand] at hc
      split at hc
      · split at hc
        · cases hc; exact h
        · cases hc
      · exact h.takeNear hc
    have hgone {t : State} (ht : Evolves s₀ t) : Evolves s₀ (if i.isTest then t.tested i.ix else t) := ht.thenIf (·.tested)
    refine .ite h ?_
    split
    · split
      · exact hgone (h1.thenIf (·.stopItem))
      · refine .ite (.ite (hgone (h1.thenIf (·.endItem))) (h1.thenIf (·.endItem)).readEnd) ?_
        split
        · exact .ite (h.elseIf (·.bump.modEft)) (.ite h (.ite (h1.elseIf (·.startItem)).runTest (h1.elseIf (·.startItem)).runRead))
        · exact .ite h h1.modEft.queueDieRead
    · exact hgone (h1.thenIf (·.stopItem))

theorem Keeps.execReadClutchItem {pond n : Nat} {faulty : Bool} (h : Evolves s₀ s) : Keeps s₀ (execReadClutchItem pond n faulty s) :=
  .onEft (.ite h.next h.parkOutput.takeRead.concludeRecon.next)

theorem Keeps.execDigestFeed {pond n : Nat} {faulty : Bool} (h : Evolves s₀ s) : Keeps s₀ (execDigestFeed pond n faulty s) :=
  .onEft (.ite h.next h.parkOutput.takeRead.next)

theorem Keeps.execDieDataLanding {pond n clutch : Nat} (h : Evolves s₀ s) : Keeps s₀ (execDieDataLanding pond n clutch s) := by
  refine .onEft ?_
  extract_lets
  split
  · exact .ite h.next (.ite h.modEft.fields.startItem.modEft.next h.modEft.fields.fields.pushItem.next)
  · exact (h.thenIf (·.modEft)).next
  · exact h.next

theorem Keeps.execOverflowBufferReturn {pond n : Nat} (h : Evolves s₀ s) : Keeps s₀ (execOverflowBufferReturn pond n s) := h.wr.modEft.next.onEft

theorem Evolves.issueFeeds {p n k : Nat} {c : Cmd} (h : Evolves s₀ s) : Evolves s₀ (issueFeeds s p n c k) := by
  induction k generalizing s with
  | zero => exact h
  | succ k ih =>
    unfold Machine.issueFeeds
    split
    · exact h
    · exact .ite (ih h.pushItem.modEft) h

theorem Keeps.execDigestAbsorb {tag : Nat} (h : Evolves s₀ s) : Keeps s₀ (execDigestAbsorb tag s) := by
  refine .onTag fun _ => ?_
  split
  · exact h.next
  · split
    · exact h.next
    · extract_lets
      split
      · exact h.cancelItems.finish.next
      · exact .ite h.countIo.cancelItems.finish.next h.modEft.issueFeeds.next

theorem Evolves.takeFar {vp vn i p n : Nat} (h : Evolves s₀ s) : Evolves s₀ (s.takeFar vp vn i p n) := by
  unfold State.takeFar
  extract_lets
  split
  · exact h
  · exact h.modEft.modEft

theorem Keeps.stealAcross {pond n : Nat} (h : Evolves s₀ s) : Keeps s₀ (execEftStealPoll.cross pond n s) := by
  refine .ite h.next ?_
  split
  · exact h.next
  · exact h.takeFar.bump.next

theorem Keeps.execEftStealPoll {pond n : Nat} (h : Evolves s₀ s) : Keeps s₀ (execEftStealPoll pond n s) := by
  refine .onEft (.ite h.next ?_)
  split
  · exact .ite (.stealAcross h) h.takeFar.bump.next
  · exact .stealAcross h

theorem Keeps.execEftStealPoll_cross {pond n : Nat} (h : Evolves s₀ s) : Keeps s₀ (execEftStealPoll.cross pond n s) := by
  unfold Machine.execEftStealPoll.cross
  refine .ite h.next ?_
  split
  · exact h.next
  · exact h.takeFar.bump.next

theorem Keeps.execParitySlice {pond n : Nat} {ends : Bool} (h : Evolves s₀ s) : Keeps s₀ (execParitySlice pond n ends s) := by
  refine .onEft (.ite h.next ?_)
  extract_lets
  split
  · refine .next ?_
    split
    · exact h.parkOutput
    · rename_i _ u hu
      exact .startItem (h.parkOutput.takeNear hu)
  · exact .ite h.parkOutput.next (.next (.endItem (.ite h.parkOutput.modEft.fields h.parkOutput.modEft)))

theorem Evolves.placeTerms {k : Nat} (h : Evolves s₀ s) : Evolves s₀ (State.placeTerms k s) := by
  induction k generalizing s with
  | zero => exact h
  | succ k ih =>
    unfold State.placeTerms
    split
    · exact h
    · split
      · exact h
      · exact ih (.pushItem h.fields)

theorem Evolves.addDeviceTerm {i : Item} {coeff : Nat} {data : Bytes} (h : Evolves s₀ s) : Evolves s₀ (s.addDeviceTerm i coeff data) := h.fields

theorem Keeps.execRepairTerm {pond n coeff : Nat} {data : Bytes} (h : Evolves s₀ s) : Keeps s₀ (execRepairTerm pond n coeff data s) := by
  refine .onEft (.ite h.next (.ite h.parkOutput.next ?_))
  split
  · exact h.parkOutput.next
  · rename_i _ u hu
    refine .ite ?_ ?_
    · split
      · exact .next (h.parkOutput.takeNear hu)
      · exact .ite h.parkOutput.next (.next (.endItem (.addDeviceTerm (.startItem (h.parkOutput.takeNear hu)))))
    · split
      · exact .next (h.parkOutput.takeNear hu)
      · exact .next (.concludeRecon (.endItem (.addTerm (.startItem (h.parkOutput.takeNear hu)))))

theorem Keeps.execEftWatchdogExpiry {pond n : Nat} (h : Evolves s₀ s) : Keeps s₀ (execEftWatchdogExpiry pond n s) :=
  .onEft (.ite h.next h.modEft.fenceEft.next)

/-! ### Machine/Peer -/

theorem Evolves.startPeer {i : PeerIn} (h : Evolves s₀ s) : Evolves s₀ (s.startPeer i) := by
  unfold State.startPeer
  split
  · exact h.peerAnswer
  · exact h.elseIf (·.fields.placeCmd.fields)

theorem Evolves.startPeers (h : Evolves s₀ s) : Evolves s₀ s.startPeers := by
  unfold State.startPeers
  exact h.elseIf fun h' => h'.foldl fun _ _ hu => hu.thenIf (·.startPeer)

theorem Keeps.execReconstruct {src : Src} {nsid zslba nlb dtype dspec keyTag listLen : Nat} {sources : List PeerReq} (h : Evolves s₀ s) :
    Keeps s₀ (execReconstruct src nsid zslba nlb dtype dspec keyTag listLen sources s) := by
  refine .hostTagged h fun _ _ _ hu => hu.withVendorNs fun _ => .ite hu.err (.ite hu.err (.ite hu.err (.ite hu.err ?_)))
  split
  · exact hu.noteKey.err
  · exact .ite hu.err (.ite hu.err hu.fields.addCmd)

theorem Evolves.startReconstruct {c : Cmd} {n : Ns} (h : Evolves s₀ s) : Evolves s₀ (s.startReconstruct c n) := by
  unfold State.startReconstruct
  refine .ite h ?_
  split
  · exact h.noteKey.finish
  · exact h.elseIf fun h' => (h'.placeCmd.fields.foldl fun _ _ hu => hu.modOut).sendOuts.startPeers.concludeRecon

theorem Evolves.startCmd {c : Cmd} {n : Ns} (h : Evolves s₀ s) : Evolves s₀ (s.startCmd c n) := by
  unfold State.startCmd
  split
  · exact h.finish
  · split
    · exact .ite h.finish h.startWrite
    · exact h.startWrite
    · exact h.startWrite
    · exact h.startWrite
    · exact h.startWrite
    · exact h.startWrite
    · exact h.startReconstruct
    · exact h
    · exact h.startDeallocate
    · exact h.finish
    · exact h.startRead
    · exact h.startRead
    · exact h.startRead
    · exact h.startReadLoc
    · exact h.startDigest
    · exact (h.thenIf (·.fields)).finish
    · exact h.startOpen
    · exact h.startClose
    · exact h.startReport
    · exact h.startReset
    · exact h.startFinish

theorem Evolves.placeRest {c : Cmd} {n : Ns} (h : Evolves s₀ s) : Evolves s₀ (s.placeRest c n) := by
  unfold State.placeRest
  exact .ite (h.thenIf (·.startDigest)) (h.thenIf (·.placeCmd))

theorem Keeps.execCommandStart {tag : Nat} (h : Evolves s₀ s) : Keeps s₀ (execCommandStart tag s) := by
  refine .onTag fun _ => .ite (.next ?_) (.ite h.next ?_)
  · split
    · exact h.placeRest
    · exact h
  · split
    · exact h.startCmd.next
    · exact .ite h.startCmd.next h.finish.next

/-! ### Machine/Modes -/

theorem Evolves.settle {r : QReq} {st : Status} {dw0 : Nat} (h : Evolves s₀ s) : Evolves s₀ (s.settle r st dw0) := by
  unfold State.settle
  split
  · exact h.done
  · exact h

theorem Evolves.setRunning {r : Option QReq} {c : Bool} (h : Evolves s₀ s) : Evolves s₀ (s.setRunning r c) := h.fields

theorem Evolves.beginRelock (h : Evolves s₀ s) : Evolves s₀ s.beginRelock := by
  unfold State.beginRelock
  exact .ite h.fields.suspendErases.setChoState.fields h.fields.suspendErases.setChoState

theorem Evolves.beginAct {r : QReq} (h : Evolves s₀ s) : Evolves s₀ (s.beginAct r) := by
  unfold State.beginAct
  extract_lets
  split
  · exact h.setRunning.wr
  · exact h.setRunning.wr.beginRelock
  · exact .ite h.setRunning.wr.selectProfile.setRunning.fields h.setRunning.wr.selectProfile.setRunning

theorem Evolves.leaveQuiesce (h : Evolves s₀ s) : Evolves s₀ s.leaveQuiesce := by
  unfold State.leaveQuiesce
  exact .ite h.wr.setMode.startPeers.enterReadonly (.ite h.wr.setMode.startPeers.enterReadonly h.wr.setMode.startPeers)

theorem Evolves.nextAct (h : Evolves s₀ s) : Evolves s₀ s.nextAct := by
  unfold State.nextAct
  refine .ite h ?_
  split
  · exact h.thenIf (·.leaveQuiesce)
  · exact h.fields.beginAct

theorem Evolves.endAct (h : Evolves s₀ s) : Evolves s₀ s.endAct := h.setRunning.nextAct

theorem Evolves.enterQuiesce (h : Evolves s₀ s) : Evolves s₀ s.enterQuiesce := by
  unfold State.enterQuiesce
  split
  · exact h
  · exact h.wr.setMode.wr.fields.beginAct

theorem Evolves.resumeQueue (h : Evolves s₀ s) : Evolves s₀ s.resumeQueue := by
  unfold State.resumeQueue
  exact h.thenIf (·.enterQuiesce)

theorem Evolves.request {r : QReq} (h : Evolves s₀ s) : Evolves s₀ (s.request r) := by
  unfold State.request
  extract_lets s1 q s2
  have h1 : Evolves s₀ s1 := by
    simp only [s1]
    split
    · exact h.keepTag
    · exact h
  have h2 : Evolves s₀ s2 := h1.fields
  split
  · exact .ite (h2.elseIf (·.beginRelock)) h2.resumeQueue
  · exact h2.resumeQueue

theorem Evolves.needRelock (h : Evolves s₀ s) : Evolves s₀ s.needRelock := by
  unfold State.needRelock
  exact h.elseIf (·.request)

theorem Evolves.endJoins {p : JoinWait → Bool} {st : Status} (h : Evolves s₀ s) : Evolves s₀ (s.endJoins p st) := h.fields.foldl fun _ _ hu => hu.err

theorem Evolves.joinSettle (h : Evolves s₀ s) : Evolves s₀ s.joinSettle := by
  unfold State.joinSettle
  exact h.thenIf (·.endJoins)

theorem Evolves.settleRelock {refused : Bool} {r : QReq} (h : Evolves s₀ s) : Evolves s₀ (s.settleRelock refused r) := by
  unfold State.settleRelock
  split <;> exact h.settle

theorem Evolves.relockSwitch {beat : Nat} (h : Evolves s₀ s) : Evolves s₀ (s.relockSwitch beat) := by
  unfold State.relockSwitch
  extract_lets
  split
  · exact .ite (h.choSwitch.fields.foldl fun _ _ hu => hu.settleRelock).fields.joinSettle.settleRelock.endAct (h.choSwitch.fields.foldl fun _ _ hu
        => hu.settleRelock).fields.joinSettle
  · exact (h.choSwitch.fields.foldl fun _ _ hu => hu.settleRelock).fields.joinSettle

theorem Evolves.haltRelock (h : Evolves s₀ s) : Evolves s₀ s.haltRelock := h.fields

theorem Evolves.dropRelock (h : Evolves s₀ s) : Evolves s₀ s.dropRelock := by
  unfold State.dropRelock
  exact .ite h.haltRelock h.haltRelock.setChoState

theorem Evolves.abandonRelock (h : Evolves s₀ s) : Evolves s₀ s.abandonRelock := by
  unfold State.abandonRelock
  extract_lets
  split
  · exact .endAct (.ite h.dropRelock.wr.settle h.dropRelock.wr.settle)
  · exact h.dropRelock.wr.fields.foldl fun _ _ hu => hu.settle

theorem Evolves.stopQuiesce (h : Evolves s₀ s) : Evolves s₀ s.stopQuiesce := by
  unfold State.stopQuiesce
  split
  · exact h
  · exact .ite h (.ite h.dropRelock.setRunning.fields h.fields.settle.setRunning)

theorem Evolves.finishActivation {r : QReq} {k : Nat} (h : Evolves s₀ s) : Evolves s₀ (s.finishActivation r k) :=
  h.runImage.confirmSlot.fields.settle.endAct

theorem Evolves.abandonQueue (h : Evolves s₀ s) : Evolves s₀ s.abandonQueue := (h.fields.foldl fun _ _ hu => hu.settle).wr

theorem Evolves.stuckQuiesce (h : Evolves s₀ s) : Evolves s₀ s.stuckQuiesce := by
  unfold State.stuckQuiesce
  refine .ite (.abandonQueue ?_) (.wr (.abandonQueue ?_))
  · split
    · exact h
    · split
      · exact h.runImage.confirmSlot.fields.settle.setRunning
      · exact .ite h.settle.setRunning h.beginRelock
      · exact h.settle.setRunning
  · split
    · exact h
    · split
      · exact h.runImage.confirmSlot.fields.settle.setRunning
      · exact .ite h.settle.setRunning h.beginRelock
      · exact h.settle.setRunning

theorem Evolves.interruptHeld {src : Src} (h : Evolves s₀ s) : Evolves s₀ (s.interruptHeld src) := by
  unfold State.interruptHeld
  exact .ite h.endJoins.secFields.err h.endJoins.secFields

theorem Keeps.execQuiesceCommandTimeout {tag : Nat} (h : Evolves s₀ s) : Keeps s₀ (execQuiesceCommandTimeout tag s) := by
  unfold Machine.execQuiesceCommandTimeout
  split
  · exact (h.thenIf (·.interruptHeld)).next
  · exact .onTag fun _ => .ite h.cancelItems.finish.concludeRecon.next h.next

theorem Keeps.execFirmwareActivation {leaves : Bool} (h : Evolves s₀ s) : Keeps s₀ (execFirmwareActivation leaves s) := by
  unfold Machine.execFirmwareActivation
  split
  · exact .ite h.next (.ite (.ite h.finishActivation.next h.next) (.ite h.next (.ite h.fields.settle.endAct.next (.ite
        h.setRunning.finishActivation.next h.setRunning.fields.next))))
  · exact h.next

theorem Keeps.execActivationTimeout (h : Evolves s₀ s) : Keeps s₀ (execActivationTimeout s) := by
  unfold Machine.execActivationTimeout
  split
  · exact h.next
  · exact (h.fields.foldl fun _ _ hu => hu.modFn).next

theorem Keeps.execProfileSelect {src : Src} {profile : Nat} (h : Evolves s₀ s) : Keeps s₀ (execProfileSelect src profile s) := by
  refine .host h fun _ hu => .ite hu.err (.ite hu.err (.ite hu.err ?_))
  split
  · exact hu.err
  · exact .ite hu.err (.ite hu.done (.ite hu.selectProfile.done hu.request))

theorem Keeps.execProfileSwitchComplete (h : Evolves s₀ s) : Keeps s₀ (execProfileSwitchComplete s) := by
  unfold Machine.execProfileSwitchComplete
  split
  · exact .ite h.next (.ite h.next (.ite h.beginRelock.next (.ite h.next h.settle.endAct.next)))
  · exact h.next

/-! ### Machine/Chorus -/

theorem Evolves.rejectBeat {t : Nat} (h : Evolves s₀ s) : Evolves s₀ (s.rejectBeat t) := by
  unfold State.rejectBeat
  exact .ite h.fields.bump.wr.record h.fields.bump

theorem Evolves.trackPin {k : BeatKind} {t : Nat} (h : Evolves s₀ s) : Evolves s₀ (s.trackPin k t) := by
  unfold State.trackPin
  extract_lets
  split <;> exact (h.elseIf (·.fields)).fields

theorem Evolves.showOffset {o : Int} (h : Evolves s₀ s) : Evolves s₀ (s.showOffset o) := h.wr

theorem Evolves.slewTo {t : Nat} {o : Int} (h : Evolves s₀ s) : Evolves s₀ (s.slewTo t o) := h.fields

theorem Evolves.relockBeat {t : Nat} (h : Evolves s₀ s) : Evolves s₀ (s.relockBeat t) := by
  unfold State.relockBeat
  exact .ite h (.ite (h.thenIf (·.rootTime)) (h.thenIf (·.rootTime)).relockSwitch)

theorem Evolves.acquired {t : Nat} {o : Int} (h : Evolves s₀ s) : Evolves s₀ (s.acquired t o) := by
  unfold State.acquired
  exact .ite h (.ite h.slewTo.setChoState (.ite h.adoptTime h.needRelock))

theorem Evolves.lockBeat {t : Nat} {good : Bool} {o : Int} (h : Evolves s₀ s) : Evolves s₀ (s.lockBeat t good o) := by
  unfold State.lockBeat
  exact .ite h.fields.setFlag (.ite (.ite h.fields.setFlag.relockBeat h.fields.setFlag) (.ite (.ite h.fields.setFlag.slewTo (.ite (.ite
      h.fields.setFlag.acquired h.fields.setFlag) (.ite h.fields.setFlag.fields h.fields.setFlag.fields.fields.wr))) (.ite
      h.fields.setFlag.acquired h.fields.setFlag)))

theorem Evolves.newTrain (h : Evolves s₀ s) : Evolves s₀ s.newTrain := h.fields

theorem Evolves.useBeat {src t : Nat} (h : Evolves s₀ s) : Evolves s₀ (s.useBeat src t) := by
  unfold State.useBeat
  refine .ite h ?_
  extract_lets
  split
  · exact (h.elseIf (·.newTrain.fields)).wr.fields.rejectBeat
  · exact (h.elseIf (·.newTrain.fields)).wr.fields.wr.rejectBeat
  · exact .lockBeat (.chbPulse (.ite (h.elseIf (·.newTrain.fields)).wr.showOffset.fields.bump (h.elseIf (·.newTrain.fields)).wr.showOffset))

theorem Evolves.sleepBeat {t : Nat} (h : Evolves s₀ s) : Evolves s₀ (s.sleepBeat t) := by
  unfold State.sleepBeat
  split
  · exact h.fields.rejectBeat
  · exact h.fields.rejectBeat
  · exact (h.elseIf (·.setCounter.recordFrame)).fields

theorem Keeps.execChbInBeat {t width : Nat} (h : Evolves s₀ s) : Keeps s₀ (execChbInBeat t width s) := by
  unfold Machine.execChbInBeat
  refine .ite h.next (.next (.ite (.elect (.ite h.at.trackPin.sleepBeat (.ite h.at.trackPin.useBeat ?_))) (.ite h.at.trackPin.sleepBeat (.ite
      h.at.trackPin.useBeat ?_))))
  · split
    · exact h.at.trackPin.rejectBeat
    · exact h.at.trackPin.rejectBeat
    · exact h.at.trackPin
  · split
    · exact h.at.trackPin.rejectBeat
    · exact h.at.trackPin.rejectBeat
    · exact h.at.trackPin

theorem Evolves.loseTrain (h : Evolves s₀ s) : Evolves s₀ s.loseTrain := by
  unfold State.loseTrain
  exact .ite h.fields.wr.setChoState (.ite h.fields.wr.abandonRelock h.fields.wr)

theorem Keeps.execBeatTimeout {t : Nat} (h : Evolves s₀ s) : Keeps s₀ (execBeatTimeout t s) := by
  unfold Machine.execBeatTimeout
  extract_lets
  split
  · exact .next (.ite h.at h.at.elect)
  · exact .ite (.next (.ite h.at h.at.elect)) (.next (.loseTrain (.ite h.at h.at.elect)))

theorem Keeps.execHoldoverExpiry {t : Nat} (h : Evolves s₀ s) : Keeps s₀ (execHoldoverExpiry t s) := by
  unfold Machine.execHoldoverExpiry
  exact .ite h.at.setChoState.next h.at.next

theorem Keeps.execDriftExpiry {t : Nat} (h : Evolves s₀ s) : Keeps s₀ (execDriftExpiry t s) := by
  unfold Machine.execDriftExpiry
  exact .ite h.at.setChoState.wr.next h.at.next

theorem Keeps.execNoisyClear {t : Nat} (h : Evolves s₀ s) : Keeps s₀ (execNoisyClear t s) := by
  unfold Machine.execNoisyClear
  exact .ite h.at.next h.at.fields.wr.next

theorem Keeps.execRelockAcquisitionTimeout (h : Evolves s₀ s) : Keeps s₀ (execRelockAcquisitionTimeout s) := by
  unfold Machine.execRelockAcquisitionTimeout
  exact .ite h.abandonRelock.next h.next

theorem Evolves.relockWrite (h : Evolves s₀ s) : Evolves s₀ s.relockWrite := h.wr.request

theorem Keeps.execChoCtlRelock {requester : Nat} (h : Evolves s₀ s) : Keeps s₀ (execChoCtlRelock requester s) :=
  .winWrite h fun _ hu => (hu.thenIf (·.noteErr)).relockWrite

theorem Evolves.holdStaged {l : List (Nat × Nat)} (h : Evolves s₀ s) : Evolves s₀ (s.holdStaged l) := h.foldl fun _ _ hu => hu.elseIf (·.stage)

theorem Evolves.stagedWrite {r off v : Nat} (h : Evolves s₀ s) : Evolves s₀ (s.stagedWrite r off v) := by
  unfold State.stagedWrite
  exact .ite (.ite h.noteErr.relockWrite h.noteErr) (.ite (.relockWrite (.ite (h.thenIf (·.setWord)).holdStaged.needRelock (h.thenIf
      (·.setWord)).holdStaged)) (.ite (h.thenIf (·.setWord)).holdStaged.needRelock (h.thenIf (·.setWord)).holdStaged))

theorem Keeps.execStagedFieldWrite {requester offset value : Nat} (h : Evolves s₀ s) : Keeps s₀ (execStagedFieldWrite requester offset value s) :=
  .winWrite h fun _ hu => hu.elseIf (·.stagedWrite)

theorem Keeps.chorusCmd {src : Src} {k : State → State} (h : Evolves s₀ s) (hk : ∀ u, Evolves s₀ u → Evolves s₀ (k u)) :
    Keeps s₀ (chorusCmd s src k) :=
  .host h fun _ hu => .ite hu.err (hk _ hu)

theorem Keeps.execChorusControlApply {src : Src} {block : Bytes} (h : Evolves s₀ s) : Keeps s₀ (execChorusControlApply src block s) :=
  .chorusCmd h fun _ hu => .ite hu.err (.ite hu.fields.holdStaged.request hu.fields.holdStaged.ok)

theorem Keeps.execChorusControlRelock {src : Src} {len : optParam Nat 0} (h : Evolves s₀ s) : Keeps s₀ (execChorusControlRelock src s len) :=
  .chorusCmd h fun _ hu => .ite hu.err hu.request

theorem Keeps.execGetLogPageChorusSchedule {src : Src} {rae : Bool} (h : Evolves s₀ s) : Keeps s₀ (execGetLogPageChorusSchedule src rae s) :=
  .host h fun _ hu => hu.logRead.done

theorem Keeps.execGetLogPagePredictableLatency {src : Src} {set : Nat} {rae : Bool} (h : Evolves s₀ s) :
    Keeps s₀ (execGetLogPagePredictableLatency src set rae s) :=
  .host h fun _ hu => .ite hu.err hu.logRead.done

theorem Keeps.execGetLogPagePlmEventAggregate {src : Src} {rae : Bool} (h : Evolves s₀ s) : Keeps s₀ (execGetLogPagePlmEventAggregate src rae s) :=
  .host h fun _ hu => (hu.elseIf (·.modFn)).logRead.done

theorem Keeps.execSetFeaturesPlmConfig {src : Src} {set : Nat} {enable : Bool} (h : Evolves s₀ s) :
    Keeps s₀ (execSetFeaturesPlmConfig src set enable s) :=
  .host h fun _ hu => .ite hu.err hu.modFn.ok

theorem Keeps.execSetFeaturesPlmWindow {src : Src} (h : Evolves s₀ s) : Keeps s₀ (execSetFeaturesPlmWindow src s) := .host h fun _ hu => hu.err

theorem Keeps.execGetFeaturesPlmWindow {src : Src} {set : Nat} (h : Evolves s₀ s) : Keeps s₀ (execGetFeaturesPlmWindow src set s) :=
  .host h fun _ hu => .ite hu.err hu.done

theorem Keeps.execIdentifyNvmSetList {src : Src} (h : Evolves s₀ s) : Keeps s₀ (execIdentifyNvmSetList src s) := .host h fun _ hu => hu.done

/-! ### Machine/Rounds -/

theorem Evolves.growShare {c : Nat} (h : Evolves s₀ s) : Evolves s₀ (s.growShare c) := by
  unfold State.growShare
  exact h.thenIf (·.addErased.refreshXlt)

theorem Evolves.newSeg {c : Nat} {u : Nat × State} (h : Evolves s₀ s) (hu : s.newSeg c = some u) : Evolves s₀ u.2 := by
  simp only [State.newSeg] at hu
  split at hu
  · cases hu
  · cases hu; exact h.journal.takeBlocks.fields.refreshXlt

theorem Evolves.segFor_fresh {c purpose : Nat} {u : Nat × State} (h : Evolves s₀ s) (hu : State.segFor.fresh s c purpose = some u) :
    Evolves s₀ u.2 := by
  unfold State.segFor.fresh at hu
  dsimp only at hu
  exact (h.elseIf (·.growShare)).newSeg (Option.ite_none_right_eq_some.1 hu).2

theorem Evolves.segFor {c g purpose : Nat} {u : Nat × State} (h : Evolves s₀ s) (hu : s.segFor c g purpose = some u) : Evolves s₀ u.2 := by
  unfold State.segFor at hu
  split at hu
  · split at hu
    · cases hu; exact h
    · exact h.segFor_fresh hu
  · exact h.segFor_fresh hu


theorem Evolves.queueUnit {g : Segment} {u purpose : Nat} {carries : List (Nat × Nat)} (h : Evolves s₀ s) :
    Evolves s₀ (s.queueUnit g u purpose carries) := by
  unfold State.queueUnit
  exact .ite h.queueOp.queueOp h.queueOp

theorem Evolves.queueSpawn {x : Clutch} {seg purpose : Nat} (h : Evolves s₀ s) : Evolves s₀ (s.queueSpawn x seg purpose) := by
  unfold State.queueSpawn
  split
  · exact h
  · refine .ite (h.foldl fun _ _ hu => ?_).modSeg.fields.queueReads (h.foldl fun _ _ hu => ?_).modSeg
    · split
      · exact hu.modOp
      · exact hu.queueUnit
    · split
      · exact hu.modOp
      · exact hu.queueUnit

theorem Evolves.putSpawn {c : Nat} {x : Clutch} {purpose : Nat} {u : State} (h : Evolves s₀ s) (hu : s.putSpawn c x purpose = some u) :
    Evolves s₀ u := by
  obtain ⟨r, hr, rfl⟩ := Option.map_eq_some_iff.1 hu
  exact (h.segFor hr).queueSpawn

theorem Evolves.flushPut {x : Clutch} {u : State} (h : Evolves s₀ s) (hu : s.flushPut x = some u) : Evolves s₀ u := by
  obtain ⟨c, -, hc⟩ := List.exists_of_findSome?_eq_some hu
  exact h.putSpawn hc

theorem Evolves.reput {o : DieOp} (h : Evolves s₀ s) : Evolves s₀ (s.reput o) := by
  refine h.foldl fun u x hu => ?_
  refine .ite ?_ hu.fields
  split
  · exact hu.fields.fields.getD fun _ hv => hu.fields.flushPut hv
  · exact hu.fields

theorem Evolves.beginRound {t : Stripe} {r : Nat} (h : Evolves s₀ s) : Evolves s₀ (s.beginRound t r) :=
  (h.thenIf (·.fields)).foldl fun _ _ hu => hu.queueReads

theorem Evolves.queueMember {t : Stripe} {m : Member} {r purpose : Nat} (h : Evolves s₀ s) : Evolves s₀ (s.queueMember t m r purpose) := by
  unfold State.queueMember
  exact h.elseIf (·.queueOp)

theorem Evolves.handNext {t : Stripe} {purpose : Nat} (h : Evolves s₀ s) : Evolves s₀ (s.handNext t purpose) := by
  unfold State.handNext
  extract_lets
  split
  · exact .ite (.ite h.modStripe.beginRound h.modStripe) (.queueMember (.ite h.modStripe.beginRound h.modStripe))
  · exact .ite h.modStripe.beginRound h.modStripe

theorem Evolves.handParity {t : Stripe} (h : Evolves s₀ s) : Evolves s₀ (s.handParity t) := by
  unfold State.handParity
  exact h.elseIf fun h' => (h'.foldl fun _ _ hu => hu.queueMember).modStripe

theorem Evolves.queueFirst {o : DieOp} (h : Evolves s₀ s) : Evolves s₀ (s.queueFirst o) := h.fields

theorem Evolves.requeueMember {q k : Nat} (h : Evolves s₀ s) : Evolves s₀ (s.requeueMember q k) := by
  unfold State.requeueMember
  split
  · exact h
  · split
    · exact h
    · exact h.elseIf (·.foldl fun _ _ hu => hu.queueFirst)

theorem Evolves.placeSlices (h : Evolves s₀ s) : Evolves s₀ s.placeSlices := by
  refine h.foldl fun _ _ hu => ?_
  split
  · exact hu.fields.pushItem
  · exact hu

theorem Evolves.unitErased {unit : Nat} (h : Evolves s₀ s) : Evolves s₀ (s.unitErased unit) := by
  unfold State.unitErased
  refine .ite h ?_
  split
  · exact h
  · exact h.journal.fields.refreshXlt

theorem Evolves.foldNext {c g : Nat} {u : State} (h : Evolves s₀ s) (hu : s.foldNext c g = some u) : Evolves s₀ u := by
  obtain ⟨x, -, hx⟩ := List.exists_of_findSome?_eq_some hu
  dsimp only at hx
  split at hx
  · cases hx
  · split at hx
    · split at hx
      · cases hx; exact h.handNext
      · cases hx
    · split at hx
      · cases hx
      · exact h.putSpawn hx

theorem Evolves.copyNext {c : Nat} {u : State} (h : Evolves s₀ s) (hu : s.copyNext c = some u) : Evolves s₀ u := by
  unfold State.copyNext at hu
  split at hu
  · rename_i v hv
    cases hu
    obtain ⟨w, -, hw⟩ := List.exists_of_findSome?_eq_some hv
    split at hw
    · split at hw
      · exact h.foldNext hw
      · cases hw
    · cases hw
  · split at hu
    · cases hu; exact h.handNext
    · obtain ⟨t, -, rfl⟩ := Option.map_eq_some_iff.1 hu
      exact h.handNext

theorem Evolves.startCompact {c q : Nat} (h : Evolves s₀ s) : Evolves s₀ (s.startCompact c q) :=
  (h.foldl fun _ _ hu => .ite hu.logSlot.fields hu.logSlot.fields).closeLogRound

theorem Evolves.giveWork {w : Work} (h : Evolves s₀ s) : Evolves s₀ (s.giveWork w) := by
  unfold State.giveWork
  refine .ite h ?_
  extract_lets
  split
  · exact h.dropErased.refreshXlt
  · exact h.fields.modSeg
  · exact h.fields.startCompact
  · split
    · exact h.newStripe.fields
    · exact h
  · exact h.newStripe.fields.fields
  · split
    · split
      · rename_i u hu
        exact .fields (h.putSpawn hu)
      · exact h
    · exact h
  · exact .ite (h.fields.foldl fun _ _ hu => hu.queueOp).unitErased (h.fields.foldl fun _ _ hu => hu.queueOp)

/-! ### Machine/Rebuild -/

theorem Evolves.refreshSpares (h : Evolves s₀ s) : Evolves s₀ s.refreshSpares := h.fields.foldl fun _ _ hu => hu.wr

theorem Evolves.checkReserve (h : Evolves s₀ s) : Evolves s₀ s.checkReserve := by
  unfold State.checkReserve
  exact h.elseIf (·.endOfLife)

theorem Evolves.addAuto {e : AutoEntry} (h : Evolves s₀ s) : Evolves s₀ (s.addAuto e) :=
  .refreshCrit (.ite h.fields.record.raise (.ite h.fields.record.raise h.fields.record))

theorem Evolves.noteAuto {e : AutoEntry} (h : Evolves s₀ s) : Evolves s₀ (s.noteAuto e) := by
  unfold State.noteAuto
  exact .ite h.fields h.addAuto

theorem Keeps.execGetLogPageAutotomyRecord {src : Src} {rae : Bool} (h : Evolves s₀ s) : Keeps s₀ (execGetLogPageAutotomyRecord src rae s) :=
  .host h fun _ hu => .ite hu.err hu.logRead.done

theorem Evolves.offlineZones {k : Nat} (h : Evolves s₀ s) : Evolves s₀ (s.offlineZones k).2 := by
  induction k generalizing s with
  | zero => exact h
  | succ k ih =>
    unfold State.offlineZones
    split
    · exact h
    · split
      · exact h
      · split
        · exact h
        · exact ih h.setZone.zoneNotice

theorem Evolves.sparesExhausted {c : Nat} (h : Evolves s₀ s) : Evolves s₀ (s.sparesExhausted c) := by
  unfold State.sparesExhausted
  extract_lets
  split
  · exact h.fields.refreshSpares.refreshXlt.degrade.offlineZones
  · exact h.fields.refreshSpares.refreshXlt.degrade.offlineZones.noteAuto

theorem Evolves.needSpare {c : Nat} (h : Evolves s₀ s) : Evolves s₀ (s.needSpare c) := by
  unfold State.needSpare
  exact h.thenIf (·.sparesExhausted)

theorem Evolves.loseRows {seq : Nat} {rows : List Nat} (h : Evolves s₀ s) : Evolves s₀ (s.loseRows seq rows) := by
  unfold State.loseRows
  refine .ite h (.noteAuto ?_)
  split
  · split
    · exact .ite h.fields.setZone.settleFlags.zoneNotice h.fields
    · exact h.fields
  · exact h.fields

theorem Evolves.modMember {r : Rebuild} {g : Member → Member} (h : Evolves s₀ s) : Evolves s₀ (s.modMember r g) := by
  unfold State.modMember
  exact .ite h.fields h.modStripe

theorem Evolves.recordLoss {r : Rebuild} (h : Evolves s₀ s) : Evolves s₀ (s.recordLoss r) := by
  unfold State.recordLoss
  exact .ite h (.ite (h.foldl fun _ _ hu => hu.modMember).fields (h.foldl fun _ _ hu => hu.modMember).fields.loseRows)

theorem Evolves.queueRebuilds {l : List Rebuild} (h : Evolves s₀ s) : Evolves s₀ (s.queueRebuilds l) :=
  ((h.foldl fun _ _ hu => hu.modMember).fields.foldl fun _ _ hu => hu.recordLoss).refreshRebuild

theorem Evolves.dropPrograms {p : DieOp → Bool} (h : Evolves s₀ s) : Evolves s₀ (s.dropPrograms p) := h.fields.foldl fun _ _ hu => hu.thenIf (·.reput)

theorem Evolves.rebuildAgain {p : Rebuild → Member → Bool} (h : Evolves s₀ s) : Evolves s₀ (s.rebuildAgain p) := h.fields

theorem Evolves.badBlock {ch ce lun block : Nat} {rebuild : Bool} (h : Evolves s₀ s) : Evolves s₀ (s.badBlock ch ce lun block rebuild) :=
  .checkReserve (.refreshSpares (.dropPrograms (.rebuildAgain (.ite h.journal.modBlock.queueRebuilds h.journal.modBlock))))

theorem Evolves.replaceMember {r : Rebuild} (h : Evolves s₀ s) : Evolves s₀ (s.replaceMember r) := by
  unfold State.replaceMember
  extract_lets
  split
  · exact h.needSpare.queueRebuilds
  · exact .ite (.takeBlocks (.modMember (.ite h.needSpare h.needSpare.journal))) (.requeueMember (.takeBlocks (.modMember (.ite h.needSpare
        h.needSpare.journal))))

theorem Evolves.settleRebuilds (h : Evolves s₀ s) : Evolves s₀ s.settleRebuilds := h.foldl fun _ _ hu => hu.elseIf (·.fields.noteAuto)

theorem Evolves.dropEmptySeg {seg : Nat} (h : Evolves s₀ s) : Evolves s₀ (s.dropEmptySeg seg) := by
  unfold State.dropEmptySeg
  split
  · exact h
  · exact h.elseIf (·.releaseSeg)

theorem Evolves.compactCommit {c q : Nat} (h : Evolves s₀ s) : Evolves s₀ (s.compactCommit c q) := h.fields.dropCopiesOf.releaseStripe

theorem Evolves.stripeCommit {t : Stripe} (h : Evolves s₀ s) : Evolves s₀ (s.stripeCommit t) := h.modStripe.fields.dropCopiesOf.releaseStripe

theorem Evolves.foldCommit {g : Nat} (h : Evolves s₀ s) : Evolves s₀ (s.foldCommit g) := h.fields.dropCopiesOf.releaseSeg

theorem Evolves.homeCommit {c id g p : Nat} (h : Evolves s₀ s) : Evolves s₀ (s.homeCommit c id g p) := by
  unfold State.homeCommit
  extract_lets old x s1 s2
  have h2 : Evolves s₀ s2 := .dropCopiesOf h.fields
  clear_value old
  split
  · exact h2.dropEmptySeg
  · exact h2

theorem Evolves.memberCommit {r : Rebuild} {m : Member} (h : Evolves s₀ s) : Evolves s₀ (s.memberCommit r m) :=
  .checkReserve (.refreshSpares (.settleRebuilds (.refreshRebuild (.ite (.ite h.modMember.fields h.modMember.fields.releaseBlock) (.settleRounds
      (.requeueMember (.ite h.modMember.fields h.modMember.fields.releaseBlock)))))))

theorem Evolves.applyRemap {x1 : Remap} (h : Evolves s₀ s) : Evolves s₀ (s.applyRemap x1) := by
  unfold State.applyRemap
  split
  · split
    · exact h.stripeCommit
    · exact h
  · exact h.foldCommit
  · exact h.compactCommit
  · exact h.homeCommit
  · split
    · split
      · exact h.memberCommit
      · exact h
    · exact h

theorem Evolves.commitRemaps (h : Evolves s₀ s) : Evolves s₀ s.commitRemaps := h.foldl fun _ _ hu => .ite hu (.ite hu.fields.applyRemap hu.fields)

theorem Evolves.remap {m : Remap} (h : Evolves s₀ s) : Evolves s₀ (s.remap m) := by
  unfold State.remap
  exact h.elseIf (·.journal.fields.commitRemaps)

theorem Keeps.execCopyCommit {stripe : Nat} (h : Evolves s₀ s) : Keeps s₀ (execCopyCommit stripe s) := by
  unfold Machine.execCopyCommit
  split <;> exact h.remap.next

theorem Evolves.modRebuild {r : Rebuild} {g : Rebuild → Rebuild} (h : Evolves s₀ s) : Evolves s₀ (s.modRebuild r g) := h.fields

theorem Evolves.beginRebuild {r : Rebuild} (h : Evolves s₀ s) : Evolves s₀ (s.beginRebuild r) := by
  unfold State.beginRebuild
  extract_lets
  split
  · exact (h.elseIf (·.needSpare)).takeBlocks.modRebuild.remap
  · exact .ite (h.elseIf (·.needSpare)) (h.elseIf (·.needSpare)).modMember.fields.refreshRebuild

theorem Evolves.rebuildNext {r : Rebuild} {u : State} (h : Evolves s₀ s) (hu : s.rebuildNext r = some u) : Evolves s₀ u := by
  unfold State.rebuildNext at hu
  split at hu
  · dsimp only at hu
    split at hu
    · cases hu
    · cases hu; exact h.beginRebuild
  · split at hu
    · cases hu
    · split at hu
      · cases hu; exact .placeTerms h.fields
      · split at hu
        · cases hu; exact h.fields.queueOp
        · split at hu
          · dsimp only at hu
            split at hu
            · cases hu
            · cases hu; exact h.placeTerms
          · cases hu

theorem Evolves.rebuildWritten {o : DieOp} (h : Evolves s₀ s) : Evolves s₀ (s.rebuildWritten o) := by
  unfold State.rebuildWritten
  split
  · exact h
  · exact h.modRebuild.remap

theorem Keeps.execRebuildMember (h : Evolves s₀ s) : Keeps s₀ (execRebuildMember s) := by
  refine .ite h.next (.next (h.getD fun u hu => ?_))
  obtain ⟨r, -, hr⟩ := List.exists_of_findSome?_eq_some hu
  exact h.rebuildNext hr

/-! ### Machine/Media -/

theorem Evolves.setRing {d : Nat} {g : Ring} (h : Evolves s₀ s) : Evolves s₀ (s.setRing d g) := h.fields

theorem Evolves.ringAppend {d : Nat} {b : Bytes} (h : Evolves s₀ s) : Evolves s₀ (s.ringAppend d b) := by
  unfold State.ringAppend
  exact .ite h.setRing h.modBlock.setRing

theorem Evolves.intent {o : DieOp} (h : Evolves s₀ s) : Evolves s₀ (s.intent o) := by
  unfold State.intent
  exact h.elseIf (·.ringAppend)

theorem Evolves.clearIntent {k : Nat} (h : Evolves s₀ s) : Evolves s₀ (s.clearIntent k) := by
  unfold State.clearIntent
  extract_lets
  split
  · exact h.ringAppend
  · exact h

theorem Evolves.setRun {o : DieOp} (h : Evolves s₀ s) : Evolves s₀ (s.setRun o) := h.modOp

theorem Evolves.overrun {o : DieOp} (h : Evolves s₀ s) : Evolves s₀ (s.overrun o) := by
  unfold State.overrun
  exact h.elseIf (·.bump.fields.record)

theorem Evolves.launchDie {ch ce lun : Nat} (h : Evolves s₀ s) : Evolves s₀ (s.launchDie ch ce lun) := by
  unfold State.launchDie
  refine .ite h ?_
  split
  · exact h.setRun
  · split
    · split
      · exact .ite h.setRun (.ite h.modOp.setRun h.modOp.setRun)
      · exact h.thenIf (·.modOp.setRun)
    · split
      · exact h
      · refine .ite (.ite h.intent.setRun h.setRun) ?_
        split
        · exact h.thenIf (·.setRun)
        · exact h

theorem Keeps.execDieOpLaunch {ch t : Nat} (h : Evolves s₀ s) : Keeps s₀ (execDieOpLaunch ch t s) :=
  .inRange (.ite h.at.next (h.at.foldl fun _ _ hu => hu.launchDie).next)

theorem Keeps.onOp {op : Nat} {k : DieOp → Result} (hk : ∀ x0, Keeps s₀ (k x0)) : Keeps s₀ (onOp s op k) := by
  unfold Machine.onOp
  split
  · exact hk _
  · exact .fault

theorem Keeps.execHostReadOnBusyDie {op t : Nat} (h : Evolves s₀ s) : Keeps s₀ (execHostReadOnBusyDie op t s) := by
  refine .onOp fun _ => .ite h.at.next ?_
  split
  · exact h.at.next
  · exact .ite h.at.modOp.next h.at.next

theorem Keeps.execDieSuspendComplete {op t : Nat} (h : Evolves s₀ s) : Keeps s₀ (execDieSuspendComplete op t s) :=
  .onOp fun _ => .ite h.at.next h.at.modOp.next

theorem Keeps.execErasedCheckComplete {op bits : Nat} (h : Evolves s₀ s) : Keeps s₀ (execErasedCheckComplete op bits s) :=
  .onOp fun _ => .ite h.next (.ite h.modOp.next (.ite h.queueRebuilds.dropPrograms.next (h.dropPrograms.releaseBlock.rebuildAgain.foldl fun _ _ hu
      => hu.replaceMember).next))

theorem Evolves.rebuildReads {p : DieOp → Bool} (h : Evolves s₀ s) : Evolves s₀ (s.rebuildReads p) := h.fields

theorem Evolves.retireDies {dies : List (Nat × Nat × Nat)} {kind cause ch die : Nat} (h : Evolves s₀ s) :
    Evolves s₀ (s.retireDies dies kind cause ch die) :=
  ((h.journal.foldl fun _ _ hu => hu.wr.wr.wr).fields.dropPrograms.rebuildReads.fields.foldl fun _ _ hu =>
      hu.unitErased).fields.refreshSpares.noteAuto.rebuildAgain.fields.queueRebuilds.checkReserve

theorem Evolves.autotomy {ch cause : Nat} (h : Evolves s₀ s) : Evolves s₀ (s.autotomy ch cause) :=
  .retireDies (.rebuildReads (.fields (.ite (h.thenIf (·.wr)).wr.wr.wr (h.thenIf (·.wr)).wr.wr.wr)))

theorem Evolves.dieFail {o : DieOp} {kind : Nat} (h : Evolves s₀ s) : Evolves s₀ (s.dieFail o kind) := by
  unfold State.dieFail
  exact .ite h.fields.retireDies h.fields

theorem Evolves.statusFailure {o : DieOp} (h : Evolves s₀ s) : Evolves s₀ (s.statusFailure o) := by
  refine .dieFail ?_
  split
  · exact h.dropOp.badBlock.unitErased
  · exact .ite h.dropOp.badBlock (.ite h.dropOp.badBlock.setRing.queueOp (.ite h.dropOp.badBlock.reput (.ite (h.dropOp.badBlock.foldl fun _ _ hu =>
        hu.replaceMember) h.dropOp.badBlock)))

theorem Evolves.transient {ch : Nat} {count : Fld} {op : Option Nat} (h : Evolves s₀ s) : Evolves s₀ (s.transient ch count op) := by
  unfold State.transient
  refine .ite h.bump.fields.wr.autotomy (.wr (.ite ?_ (.fields ?_)))
  · split
    · exact h.bump.fields.wr.modOp
    · exact h.bump.fields.wr
  · split
    · exact h.bump.fields.wr.modOp
    · exact h.bump.fields.wr

theorem Keeps.execBuscrcEvent {op t : Nat} (h : Evolves s₀ s) : Keeps s₀ (execBuscrcEvent op t s) := .onOp fun _ => .ite h.at.next h.at.transient.next

theorem Keeps.execOperationTimeout {op t : Nat} (h : Evolves s₀ s) : Keeps s₀ (execOperationTimeout op t s) :=
  .onOp fun _ => .ite h.at.next (.next (.ite h.at.overrun.transient.modOp.dieFail h.at.overrun.transient.modOp))

theorem Keeps.execTrainingCheck {ch : Nat} {eyeOk : Bool} {t : Nat} (h : Evolves s₀ s) : Keeps s₀ (execTrainingCheck ch eyeOk t s) :=
  .inRange (.ite h.at.next (.next (.ite h.at.fields h.at.fields.transient)))

theorem Evolves.retryOp {o : DieOp} (h : Evolves s₀ s) : Evolves s₀ (s.retryOp o) := by
  unfold State.retryOp
  exact .ite (h.thenIf (·.modBlock)).modOp (.ite h.modOp h.statusFailure)

theorem Keeps.execRetrainingComplete {ch reye weye t : Nat} (h : Evolves s₀ s) : Keeps s₀ (execRetrainingComplete ch reye weye t s) :=
  .inRange (.ite h.at.next (.ite (.next (.ite h.at.bump.count.wr.wr.wr.autotomy h.at.bump.count.wr.wr.wr)) (h.at.bump.count.wr.wr.wr.wr.fields.foldl
      fun _ _ hu => hu.retryOp).next))

theorem Keeps.execChannelHoldTimeout {ch t : Nat} (h : Evolves s₀ s) : Keeps s₀ (execChannelHoldTimeout ch t s) :=
  .inRange (.ite h.at.rebuildReads.next h.at.next)

theorem Keeps.execStatusPoll {op : Nat} {ready fail : Bool} {t : Nat} (h : Evolves s₀ s) : Keeps s₀ (execStatusPoll op ready fail t s) :=
  .onOp fun _ => .ite h.at.next h.at.overrun.statusFailure.next

theorem Evolves.stagedDone {o : DieOp} (h : Evolves s₀ s) : Evolves s₀ (s.stagedDone o) := by
  unfold State.stagedDone
  exact .ite (h.elseIf (·.journal)).fields.fields (h.elseIf (·.journal)).fields

theorem Evolves.homeDone {o : DieOp} (h : Evolves s₀ s) : Evolves s₀ (s.homeDone o) := h.foldl fun _ _ hu => hu.remap

theorem Evolves.programDone {o : DieOp} (h : Evolves s₀ s) : Evolves s₀ (s.programDone o) := by
  unfold State.programDone
  refine .ite ?_ (.ite h.dropOp.rebuildWritten h.dropOp.modStripe.settleRounds)
  extract_lets
  split
  · exact .stagedDone (.ite h.dropOp h.dropOp.modSeg)
  · exact .stagedDone (.ite h.dropOp h.dropOp.modSeg)
  · exact .stagedDone (.ite h.dropOp h.dropOp.modSeg)
  · exact .homeDone (.ite h.dropOp h.dropOp.modSeg)
  · exact .rebuildWritten (.ite h.dropOp h.dropOp.modSeg)
  · exact .commitRemaps (.commitResets (.fields (.ite h.dropOp h.dropOp.modSeg)))
  · exact .modBlock (.clearIntent (.ite h.dropOp h.dropOp.modSeg))
  · exact .ite h.dropOp h.dropOp.modSeg

theorem Keeps.execProgramComplete {op t : Nat} (h : Evolves s₀ s) : Keeps s₀ (execProgramComplete op t s) :=
  .onOp fun _ => .ite h.at.next h.at.overrun.programDone.next

theorem Keeps.execEraseComplete {op t : Nat} (h : Evolves s₀ s) : Keeps s₀ (execEraseComplete op t s) :=
  .onOp fun _ => .ite h.at.next h.at.overrun.dropOp.modBlock.queueOp.unitErased.next

theorem Evolves.markRead {o : DieOp} (h : Evolves s₀ s) : Evolves s₀ (s.markRead o) := by
  unfold State.markRead
  split
  · exact h.markPlace
  · exact h

theorem Evolves.readRecovered {o : DieOp} {retry : Nat} {soft : Bool} (h : Evolves s₀ s) : Evolves s₀ (s.readRecovered o retry soft) := by
  unfold State.readRecovered
  exact .ite (.markRead (.ite h.bump.fields (h.thenIf (·.bump.fields)))) (.ite h.bump.fields (h.thenIf (·.bump.fields)))

theorem Evolves.failRead {o : DieOp} (h : Evolves s₀ s) : Evolves s₀ (s.failRead o) := by
  unfold State.failRead
  extract_lets
  split
  · exact h
  · exact .concludeRecon (.ite h.modEft.feedDone h.modEft.readItemDone)

theorem Evolves.readFailed {o : DieOp} (h : Evolves s₀ s) : Evolves s₀ (s.readFailed o) := by
  refine .failRead (.record ?_)
  split
  · exact .ite (.ite h.bump.fields.noteFailed h.bump.fields) (.fields (.ite h.bump.fields.noteFailed h.bump.fields))
  · exact .ite h.bump.fields.noteFailed h.bump.fields

theorem Keeps.execDieReadComplete {op : Nat} {hardOk : Bool} {retry : Nat} {softOk : Bool} {t : Nat} (h : Evolves s₀ s) :
    Keeps s₀ (execDieReadComplete op hardOk retry softOk t s) :=
  .onOp fun _ => .ite h.at.next (.ite h.at.dropOp.next (.ite h.at.dropOp.readRecovered.next (.ite h.at.dropOp.readRecovered.next (.next (.modOp
      (.ite h.at.markRead h.at))))))

theorem Evolves.rebuildPiece {o : DieOp} {missing : Option Nat} (h : Evolves s₀ s) : Evolves s₀ (s.rebuildPiece o missing) := by
  unfold State.rebuildPiece
  split
  · exact h
  · extract_lets
    split
    · split
      · exact h
      · split
        · exact h
        · exact h.elseIf (·.fields)
    · split
      · exact h
      · split
        · exact h
        · exact h.elseIf (·.fields)
    · split
      · exact h
      · split
        · exact h
        · exact h.elseIf (·.fields)
    · exact h

theorem Keeps.execStripeRebuildRead {op unreadable : Nat} (h : Evolves s₀ s) : Keeps s₀ (execStripeRebuildRead op unreadable s) := by
  refine .onOp fun _ => .ite h.next (.ite (h.thenIf (·.rebuildPiece)).dropOp.bump.fields.next (.next ?_))
  split
  · exact h.dropOp.readFailed.loseRows
  · exact h.dropOp.readFailed.loseRows
  · exact h.dropOp.readFailed

/-! ### Machine/Calls -/

theorem Evolves.handRounds {c k : Nat} {full : Bool} (h : Evolves s₀ s) : Evolves s₀ (State.handRounds c full k s) := by
  induction k generalizing s with
  | zero => exact h
  | succ k ih =>
    refine .ite h ?_
    split
    · exact h
    · exact ih h.handNext

theorem Evolves.stageAll {c purpose : Nat} {l : List Clutch} (h : Evolves s₀ s) : Evolves s₀ (s.stageAll c purpose l) :=
  h.foldl fun _ _ hu => hu.elseIf (·.getD fun _ hv => hu.putSpawn hv)

theorem Evolves.handParities {c : Nat} (h : Evolves s₀ s) : Evolves s₀ (s.handParities c) := h.foldl fun _ _ hu => hu.handParity

theorem Evolves.handHost {c : Nat} (h : Evolves s₀ s) : Evolves s₀ (s.handHost c) :=
  .placeSlices (.handRounds (.ite (.handRounds (.stageAll (.ite h.handParities.growShare h.handParities))) (.stageAll (.stageAll (.ite
      h.handParities.growShare h.handParities)))))

theorem Evolves.reclaim {c k : Nat} {limit : State → Bool} (h : Evolves s₀ s) : Evolves s₀ (State.reclaim c limit k s) := by
  induction k generalizing s with
  | zero => exact h
  | succ k ih =>
    unfold State.reclaim
    refine .ite h ?_
    extract_lets pick first
    split
    · rename_i u hu
      split at hu
      · cases hu
      · exact ih (h.copyNext hu)
    · clear_value first pick
      split
      · exact h
      · exact .ite h (ih h.giveWork)

theorem Evolves.loudWork {c : Nat} (h : Evolves s₀ s) : Evolves s₀ (s.loudWork c) := by
  unfold State.loudWork
  exact .ite h (.ite h.handHost (.reclaim (.handHost (.ite h.updateWl.reclaim h.updateWl))))

theorem Evolves.applyUnstaged (h : Evolves s₀ s) : Evolves s₀ s.applyUnstaged := by
  refine (h.foldl fun _ _ hu => ?_).fields
  split <;> exact hu.wr

theorem Evolves.ageStrikes (h : Evolves s₀ s) : Evolves s₀ s.ageStrikes := h.foldl fun _ _ hu => hu.elseIf (·.setEft.wr)

theorem Evolves.frameBoundary (h : Evolves s₀ s) : Evolves s₀ s.frameBoundary :=
  .refreshHealth (.settleRebuilds (.chbPulse (.ite
      h.applyUnstaged.setTokens.refreshXlt.setLevels.setFactors.refillAll.ageStrikes.recordFrame.rootTime
      h.applyUnstaged.setTokens.refreshXlt.setLevels.setFactors.refillAll.ageStrikes.recordFrame)))

theorem Evolves.flashRecords (h : Evolves s₀ s) : Evolves s₀ s.flashRecords := by
  unfold State.flashRecords
  refine .ite h ?_
  split
  · exact h
  · split
    · exact h
    · exact h.queueOp

theorem Evolves.settleShutdown (h : Evolves s₀ s) : Evolves s₀ s.settleShutdown := by
  unfold State.settleShutdown
  exact .ite h (.ite h (.foldl (.fields (.ite (h.foldl fun _ _ hu => hu.modFn).startCheckpoint (h.foldl fun _ _ hu => hu.modFn))) fun _ _ hu =>
      hu.modFn))

theorem Keeps.execCallBoundary (h : Evolves s₀ s) : Keeps s₀ (execCallBoundary s) := by
  unfold Machine.execCallBoundary
  extract_lets d next start c s1 was s2 s3 s4 s5
  have h1 : Evolves s₀ s1 := .at h.fields
  have h3 : Evolves s₀ s3 := h1.setCounter.thenIf (·.frameBoundary)
  have h5 : Evolves s₀ s5 := h3.plmTurns.foldl fun _ _ hu => hu.loudWork
  exact .ite h.next (.ite h1.next h5.flashRecords.startPeers.settleShutdown.next)

theorem Keeps.execTurnClosing {choir t : Nat} (h : Evolves s₀ s) : Keeps s₀ (execTurnClosing choir t s) :=
  (h.at.foldl fun _ _ hu => hu.overrun).suspendErases.next.inRange

/-! ### Machine/Keys -/

theorem Evolves.trngWait {src : Src} {o : TrngOp} (h : Evolves s₀ s) : Evolves s₀ (s.trngWait src o) := h.keepTag.secFields

theorem Evolves.draw {n : Nat} (h : Evolves s₀ s) : Evolves s₀ (s.draw n).2 := by
  unfold State.draw
  exact h.secFields.pair

theorem Evolves.setAes {k source : Nat} {key : Bytes} (h : Evolves s₀ s) : Evolves s₀ (s.setAes k source key) := h.setSlot

theorem Evolves.deriveKeys (h : Evolves s₀ s) : Evolves s₀ s.deriveKeys := h.setAes.setAes

theorem Evolves.writeKeys {r : KeyRec} {retire : Bool} (h : Evolves s₀ s) : Evolves s₀ (s.writeKeys r retire) := by
  unfold State.writeKeys
  extract_lets a old s1
  have h1 : Evolves s₀ s1 := h.writeRec
  clear_value old
  split
  · exact h1.thenIf (·.flashAnd)
  · exact h1

theorem Evolves.reloadDevice (h : Evolves s₀ s) : Evolves s₀ s.reloadDevice := by
  unfold State.reloadDevice
  refine .ite h (.ite ?_ ?_)
  · split
    · exact h.deriveKeys.setAes
    · exact h.deriveKeys
  · split
    · refine .setAes ?_
      split
      · exact h.deriveKeys.setAes
      · exact h.deriveKeys
    · split
      · exact h.deriveKeys.setAes
      · exact h.deriveKeys

/-! ### Machine/Signing -/

theorem Evolves.trngResume (h : Evolves s₀ s) : Evolves s₀ s.trngResume := h.wr.wr

theorem Evolves.exhaust (h : Evolves s₀ s) : Evolves s₀ s.exhaust := h.wr.wr

theorem Evolves.setIdx {idx stop : Nat} (h : Evolves s₀ s) : Evolves s₀ (s.setIdx idx stop) := h.wr.wr

theorem Evolves.writeRsv {first : Nat} {ok : Bool} (h : Evolves s₀ s) : Evolves s₀ (s.writeRsv first ok) := by
  unfold State.writeRsv
  split
  · exact h.writeRec.setIdx.wr.wr
  · exact h.exhaust

theorem Evolves.endGeneration {ok : Bool} (h : Evolves s₀ s) : Evolves s₀ (s.endGeneration ok) := by
  unfold State.endGeneration
  split
  · exact h.exhaust
  · exact .ite h.otpStep.writeRsv h.otpStep.exhaust

theorem Evolves.switchNow (h : Evolves s₀ s) : Evolves s₀ s.switchNow := (h.foldl fun _ _ hu => hu.otpProgram).secFields.wr

theorem Evolves.ensureRsv {ok : Bool} (h : Evolves s₀ s) : Evolves s₀ (s.ensureRsv ok) := by
  unfold State.ensureRsv
  exact .ite h (.ite (.ite h.switchNow.writeRsv h.exhaust) h.writeRsv)

theorem Evolves.startSigning {ok : Bool} (h : Evolves s₀ s) : Evolves s₀ (s.startSigning ok) := by
  unfold State.startSigning
  refine .ite h (.ite h.exhaust ?_)
  split
  · exact h.exhaust
  · exact .ite h.endGeneration h.setIdx.writeRsv

theorem Evolves.useIndex {ok : Bool} (h : Evolves s₀ s) : Evolves s₀ (s.useIndex ok) := by
  unfold State.useIndex
  exact .ite h.endGeneration (.ite h.wr.wr h.wr)

theorem Evolves.checkpointDone (h : Evolves s₀ s) : Evolves s₀ s.checkpointDone := h.secFields.noteFrame.wr.wr

theorem Keeps.execCheckpointComplete (h : Evolves s₀ s) : Keeps s₀ (execCheckpointComplete s) := by
  unfold Machine.execCheckpointComplete
  exact .ite h.next (.ite (h.elseIf (·.checkpointDone)).next (.ite h.next (.ite h.fields.next (.next (.ite h.fields.journal
      h.fields.journal.checkpointDone)))))

/-! ### Machine/Druzinov -/

theorem Evolves.flood {except : Nat} {b : Bytes} (h : Evolves s₀ s) : Evolves s₀ (s.flood except b) := h.foldl fun _ _ hu => hu.sendFrame

theorem Evolves.floodOwn (h : Evolves s₀ s) : Evolves s₀ s.floodOwn := by
  unfold State.floodOwn
  exact h.thenIf (·.flood)

theorem Evolves.reroute (h : Evolves s₀ s) : Evolves s₀ s.reroute :=
  (h.foldl fun _ _ hu => .ite hu.modOut (hu.thenIf (·.sendPread))).sendOuts.concludeRecon

theorem Evolves.linksChanged (h : Evolves s₀ s) : Evolves s₀ s.linksChanged := h.elect.reroute

theorem Evolves.restartStep {p t : Nat} (h : Evolves s₀ s) : Evolves s₀ (s.restartStep p t) := h.modPort

theorem Evolves.setPst {p st t : Nat} (h : Evolves s₀ s) : Evolves s₀ (s.setPst p st t) := by
  unfold State.setPst
  exact .ite h (.ite h.restartStep.wr.record.floodOwn.linksChanged.joinSettle h.restartStep.wr.record.floodOwn)

theorem Evolves.dropSession {p : Nat} (h : Evolves s₀ s) : Evolves s₀ (s.dropSession p) := h.modPort.wr

theorem Evolves.portDown {p t : Nat} (h : Evolves s₀ s) : Evolves s₀ (s.portDown p t) := h.dropSession.modPort.setPst

theorem Evolves.portFail {p t : Nat} (h : Evolves s₀ s) : Evolves s₀ (s.portFail p t) := by
  unfold State.portFail
  exact .ite h.dropSession.restartStep.modPort.setPst h.dropSession.restartStep.modPort.setPst

theorem Evolves.refreshPorts {t : Nat} (h : Evolves s₀ s) : Evolves s₀ (s.refreshPorts t) :=
  h.foldl fun _ _ hu => .ite (hu.thenIf (·.setPst)) (hu.elseIf (·.dropSession.modPort.setPst))

theorem Keeps.onPort {p : Nat} {k : Result} (hk : Keeps s₀ k) : Keeps s₀ (onPort p k) := hk.inRange

theorem Keeps.execPortSignalDetect {port t : Nat} (h : Evolves s₀ s) : Keeps s₀ (execPortSignalDetect port t s) :=
  .onPort (.ite h.at.setPst.next h.at.next)

theorem Keeps.execPortTrainingComplete {port t : Nat} (h : Evolves s₀ s) : Keeps s₀ (execPortTrainingComplete port t s) :=
  .onPort (.ite h.at.setPst.sendRaw.next h.at.next)

theorem Evolves.startAuth {p : Nat} {prev : Bool} (h : Evolves s₀ s) : Evolves s₀ (s.startAuth p prev) := by
  unfold State.startAuth
  exact h.elseIf (·.draw.modPort.sendRaw)

theorem Evolves.sendDelay {p : Nat} {reply : Bool} {t1 t2 t3 : Nat} (h : Evolves s₀ s) : Evolves s₀ (s.sendDelay p reply t1 t2 t3) := by
  unfold State.sendDelay
  exact h.elseIf (·.sendFrame)

theorem Evolves.authDone {p t : Nat} (h : Evolves s₀ s) : Evolves s₀ (s.authDone p t) := by
  unfold State.authDone
  exact .ite h.bump.modPort.sendWaiting h.modPort.restartStep.sendDelay

theorem Evolves.authFail {p t : Nat} (h : Evolves s₀ s) : Evolves s₀ (s.authFail p t) := by
  unfold State.authFail
  exact .ite h.bump.modPort.portDown h.bump.modPort.portFail

theorem Keeps.execHello {port group dev dimx dimy pport t : Nat} (h : Evolves s₀ s) : Keeps s₀ (execHello port group dev dimx dimy pport t s) :=
  .onPort (.ite h.at.next (.ite (.next (.ite h.at.wr.wr.wr.setPst.startAuth h.at.wr.wr.wr.setPst)) h.at.wr.wr.wr.setPst.next))

theorem Keeps.execMiswiredHelloRetry {port t : Nat} (h : Evolves s₀ s) : Keeps s₀ (execMiswiredHelloRetry port t s) :=
  .onPort (.ite h.at.modPort.sendRaw.next h.at.next)

theorem Keeps.execAuth1 {port : Nat} {nonce : Bytes} {prev : Bool} {t : Nat} (h : Evolves s₀ s) : Keeps s₀ (execAuth1 port nonce prev t s) :=
  .onPort (.ite h.at.next h.at.draw.modPort.sendRaw.next)

theorem Keeps.execAuth2 {port : Nat} {nonce tag : Bytes} {t : Nat} (h : Evolves s₀ s) : Keeps s₀ (execAuth2 port nonce tag t s) :=
  .onPort (.ite h.at.next (.ite h.at.sendRaw.modPort.authDone.next (.ite h.at.authFail.next h.at.startAuth.next)))

theorem Keeps.execAuth3 {port : Nat} {tag : Bytes} {t : Nat} (h : Evolves s₀ s) : Keeps s₀ (execAuth3 port tag t s) :=
  .onPort (.ite h.at.next (.ite h.at.modPort.authDone.next (.ite h.at.authFail.next h.at.modPort.next)))

theorem Evolves.beginRekey {p t : Nat} (h : Evolves s₀ s) : Evolves s₀ (s.beginRekey p t) := by
  unfold State.beginRekey
  exact .ite h (.ite h.modPort.startAuth h.modPort)

theorem Keeps.execSessionRekey {port t : Nat} (h : Evolves s₀ s) : Keeps s₀ (execSessionRekey port t s) :=
  .onPort (.ite h.at.beginRekey.next h.at.next)

theorem Keeps.execBringupTimeout {port t : Nat} (h : Evolves s₀ s) : Keeps s₀ (execBringupTimeout port t s) :=
  .onPort (.ite h.at.next (.ite h.at.portFail.next (.ite h.at.authFail.next h.at.next)))

theorem Keeps.execBackoffExpiry {port t : Nat} (h : Evolves s₀ s) : Keeps s₀ (execBackoffExpiry port t s) := .onPort (.ite h.at.setPst.next h.at.next)

theorem Keeps.execPortSignalLoss {port t : Nat} (h : Evolves s₀ s) : Keeps s₀ (execPortSignalLoss port t s) :=
  .onPort (.ite h.at.portDown.next (.ite h.at.next h.at.dropSession.setPst.next))

theorem Keeps.received {rx : Rx} {k : State → State} (h : Evolves s₀ s) (hk : ∀ u, Evolves s₀ u → Evolves s₀ (k u)) : Keeps s₀ (received rx s k) :=
  .onPort (.ite h.next (.ite h.acked.next (.next (hk _ h.acked.modPort))))

theorem Keeps.execIdle {port ack : Nat} (h : Evolves s₀ s) : Keeps s₀ (execIdle port ack s) := .onPort (.ite h.acked.next h.next)

theorem Keeps.execNak {port seq t : Nat} (h : Evolves s₀ s) : Keeps s₀ (execNak port seq t s) :=
  .onPort (.ite h.at.next (.ite h.at.acked.next (.ite (.next (.ite h.at.acked.portDown h.at.acked.portFail)) h.at.acked.bump.modPort.fields.next)))

theorem Keeps.execFrameCrcError {port : Nat} {reserved : Bool} (h : Evolves s₀ s) : Keeps s₀ (execFrameCrcError port reserved s) :=
  .onPort (.ite h.bump.next (.ite (.next (.ite h.bump.modPort h.bump)) h.bump.sendRaw.next))

theorem Evolves.measured {p d t : Nat} (h : Evolves s₀ s) : Evolves s₀ (s.measured p d t) := by
  unfold State.measured
  exact .ite (.ite h.modPort.wr.sendDelay h.modPort.wr.modPort.setPst) h.modPort.wr

theorem Keeps.execDelay {rx : Rx} {reply : Bool} {t1 t2 t3 t4 t : Nat} (h : Evolves s₀ s) : Keeps s₀ (execDelay rx reply t1 t2 t3 t4 t s) :=
  .received h.at fun _ hu => .ite hu (.ite hu.measured hu.sendDelay)

theorem Keeps.execDelayProbeTimer {port t : Nat} (h : Evolves s₀ s) : Keeps s₀ (execDelayProbeTimer port t s) :=
  .onPort (.ite h.at.sendDelay.next h.at.next)

theorem Evolves.conflict {serial : Bytes} (h : Evolves s₀ s) : Evolves s₀ (s.conflict serial) := by
  unfold State.conflict
  exact .ite h (.floodOwn (.endJoins (.ite h.wr.record.linksChanged h.wr.record.linksChanged.writeKeys)))

theorem Keeps.execLsa {rx : Rx} {dev : Nat} {serial : Bytes} {up : Nat} {beat : Bool} {joined t : Nat} (h : Evolves s₀ s) :
    Keeps s₀ (execLsa rx dev serial up beat joined t s) :=
  .received h.at fun _ hu => .ite hu (.ite (.ite hu (.ite hu.flood.conflict hu.flood)) (.ite hu.fields hu.fields.flood.linksChanged))

theorem Keeps.execLsaPeriodic {t : Nat} (h : Evolves s₀ s) : Keeps s₀ (execLsaPeriodic t s) := .next (.ite h.at.floodOwn h.at)

theorem Keeps.execLsaExpiry {dev t : Nat} (h : Evolves s₀ s) : Keeps s₀ (execLsaExpiry dev t s) := by
  unfold Machine.execLsaExpiry
  exact .ite h.at.fields.linksChanged.next h.at.next

theorem Keeps.execRootDisplacement {dev t : Nat} (h : Evolves s₀ s) : Keeps s₀ (execRootDisplacement dev t s) := by
  unfold Machine.execRootDisplacement
  exact .ite h.at.setRoot.next h.at.next

theorem Evolves.forwardTime {p root epoch frame switch hops sinceMs corr : Nat} (h : Evolves s₀ s) :
    Evolves s₀ (s.forwardTime p root epoch frame switch hops sinceMs corr) :=
  h.free.sendTime

theorem Evolves.epochRelock (h : Evolves s₀ s) : Evolves s₀ s.epochRelock := by
  unfold State.epochRelock
  exact h.elseIf (·.needRelock)

theorem Evolves.announcedBeat {beat : Nat} (h : Evolves s₀ s) : Evolves s₀ (s.announcedBeat beat) := h.newTrain.fields.useBeat

theorem Evolves.timeBeat {newEpoch : Bool} {switch beat : Nat} (h : Evolves s₀ s) : Evolves s₀ (s.timeBeat newEpoch switch beat) := by
  unfold State.timeBeat
  exact .ite h.fields.fields.epochRelock.useBeat (.ite (.ite h.fields.announcedBeat h.fields.useBeat) (.ite
      h.fields.newTrain.useBeat.epochRelock.fields h.fields.useBeat))

theorem Keeps.execTime {rx : Rx} {root epoch frame switch hops sinceMs corr t : Nat} (h : Evolves s₀ s) :
    Keeps s₀ (execTime rx root epoch frame switch hops sinceMs corr t s) :=
  .received h.at fun _ hu => .ite hu (.ite (.timeBeat (.ite hu.fields.forwardTime.setFlag.record hu.fields.forwardTime.setFlag)) (.ite
      hu.fields.forwardTime.setFlag.record hu.fields.forwardTime.setFlag))

theorem Keeps.execRoutedFrameForward {rx : Rx} {type source dest flags tag : Nat} {payload : Bytes} (h : Evolves s₀ s) :
    Keeps s₀ (execRoutedFrameForward rx type source dest flags tag payload s) :=
  .received h fun _ hu => hu.elseIf fun h' => h'.elseIf (·.sendFrame)

theorem Keeps.execPread {rx : Rx} {source tag : Nat} {req : PeerReq} (h : Evolves s₀ s) : Keeps s₀ (execPread rx source tag req s) :=
  .received h fun _ hu => .ite hu (.ite hu (.ite hu.fields.startPeers hu.fields.peerAnswer))

theorem Keeps.execPdata {rx : Rx} {tag : Nat} {data : Bytes} (h : Evolves s₀ s) : Keeps s₀ (execPdata rx tag data s) :=
  .received h fun _ hu => hu.elseIf (·.modOut)

theorem Keeps.execPstat {rx : Rx} {tag code blocks : Nat} (h : Evolves s₀ s) : Keeps s₀ (execPstat rx tag code blocks s) :=
  .received h fun _ hu => hu.elseIf (·.modOut.sendOuts.concludeRecon)

theorem Keeps.execPeerReadTimeout {tag t : Nat} (h : Evolves s₀ s) : Keeps s₀ (execPeerReadTimeout tag t s) := by
  unfold Machine.execPeerReadTimeout
  extract_lets
  split
  · exact h.at.next
  · exact .ite h.at.next (.next (.concludeRecon (.sendOuts (.ite h.at.sendPread h.at.modOut))))

theorem Evolves.setMember {group dev dimx dimy t : Nat} (h : Evolves s₀ s) : Evolves s₀ (s.setMember group dev dimx dimy t) :=
  h.wr.wr.wr.wr.wr.wr.refreshPorts.elect

theorem Evolves.noMember {t : Nat} (h : Evolves s₀ s) : Evolves s₀ (s.noMember t) := h.setMember

theorem Evolves.portsOff {t : Nat} (h : Evolves s₀ s) : Evolves s₀ (s.portsOff t) := h.foldl fun _ _ hu => hu.dropSession.modPort.setPst

theorem Evolves.installGroupKey {k : Bytes} {drop : Bool} {t : Nat} (h : Evolves s₀ s) : Evolves s₀ (s.installGroupKey k drop t) := by
  unfold State.installGroupKey
  refine .ite (.foldl (.setAes ?_) fun _ _ hu => hu.beginRekey) (.setAes ?_)
  · split
    · exact h.zeroSlot
    · exact h.setAes
    · exact h
  · split
    · exact h.zeroSlot
    · exact h.setAes
    · exact h

theorem Keeps.execGroupJoin {src : Src} {group dev len : Nat} {block : Bytes} {t : Nat} (h : Evolves s₀ s) :
    Keeps s₀ (execGroupJoin src group dev len block t s) := by
  refine .host h fun _ hu => .ite hu.at.err (.ite hu.at.err (.ite hu.at.err (.ite hu.at.err ?_)))
  split
  · exact hu.at.err
  · exact .ite (.ok (.ite (.needRelock (.stage (.ite (.ite (.writeKeys (.ite hu.at.installGroupKey (.fields (.ite hu.at.installGroupKey.portsOff
        hu.at.installGroupKey)))) (.setMember (.writeKeys (.ite hu.at.installGroupKey (.fields (.ite hu.at.installGroupKey.portsOff
        hu.at.installGroupKey)))))) (.fields (.keepTag (.ite (.writeKeys (.ite hu.at.installGroupKey (.fields (.ite hu.at.installGroupKey.portsOff
        hu.at.installGroupKey)))) (.setMember (.writeKeys (.ite hu.at.installGroupKey (.fields (.ite hu.at.installGroupKey.portsOff
        hu.at.installGroupKey))))))))))) (.ite (.ite (.writeKeys (.ite hu.at.installGroupKey (.fields (.ite hu.at.installGroupKey.portsOff
        hu.at.installGroupKey)))) (.setMember (.writeKeys (.ite hu.at.installGroupKey (.fields (.ite hu.at.installGroupKey.portsOff
        hu.at.installGroupKey)))))) (.fields (.keepTag (.ite (.writeKeys (.ite hu.at.installGroupKey (.fields (.ite hu.at.installGroupKey.portsOff
        hu.at.installGroupKey)))) (.setMember (.writeKeys (.ite hu.at.installGroupKey (.fields (.ite hu.at.installGroupKey.portsOff
        hu.at.installGroupKey))))))))))) (.joinSettle (.ite (.needRelock (.stage (.ite (.ite (.writeKeys (.ite hu.at.installGroupKey (.fields (.ite
        hu.at.installGroupKey.portsOff hu.at.installGroupKey)))) (.setMember (.writeKeys (.ite hu.at.installGroupKey (.fields (.ite
        hu.at.installGroupKey.portsOff hu.at.installGroupKey)))))) (.fields (.keepTag (.ite (.writeKeys (.ite hu.at.installGroupKey (.fields (.ite
        hu.at.installGroupKey.portsOff hu.at.installGroupKey)))) (.setMember (.writeKeys (.ite hu.at.installGroupKey (.fields (.ite
        hu.at.installGroupKey.portsOff hu.at.installGroupKey))))))))))) (.ite (.ite (.writeKeys (.ite hu.at.installGroupKey (.fields (.ite
        hu.at.installGroupKey.portsOff hu.at.installGroupKey)))) (.setMember (.writeKeys (.ite hu.at.installGroupKey (.fields (.ite
        hu.at.installGroupKey.portsOff hu.at.installGroupKey)))))) (.fields (.keepTag (.ite (.writeKeys (.ite hu.at.installGroupKey (.fields (.ite
        hu.at.installGroupKey.portsOff hu.at.installGroupKey)))) (.setMember (.writeKeys (.ite hu.at.installGroupKey (.fields (.ite
        hu.at.installGroupKey.portsOff hu.at.installGroupKey)))))))))))

theorem Keeps.execGroupJoinTimeout {t : Nat} (h : Evolves s₀ s) : Keeps s₀ (execGroupJoinTimeout t s) := .next (.ite h.at h.at.endJoins)

theorem Evolves.failOuts (h : Evolves s₀ s) : Evolves s₀ s.failOuts := h.fields

theorem Evolves.dropHeldIns (h : Evolves s₀ s) : Evolves s₀ s.dropHeldIns := h.fields

theorem Evolves.eraseMember {t : Nat} (h : Evolves s₀ s) : Evolves s₀ (s.eraseMember t) := by
  unfold State.eraseMember
  exact h.portsOff.zeroSlot.zeroSlot.writeKeys

theorem Evolves.forgetDomain (h : Evolves s₀ s) : Evolves s₀ s.forgetDomain := h.fields

theorem Evolves.leaveGroup {t : Nat} (h : Evolves s₀ s) : Evolves s₀ (s.leaveGroup t) :=
  .concludeRecon (.ite h.eraseMember.failOuts.dropHeldIns.forgetDomain.noMember.loseTrain h.eraseMember.failOuts.dropHeldIns.forgetDomain.noMember)

theorem Keeps.execGroupLeave {src : Src} {group dev t : Nat} (h : Evolves s₀ s) : Keeps s₀ (execGroupLeave src group dev t s) :=
  .host h fun _ hu => .ite hu.at.err hu.at.endJoins.leaveGroup.ok

theorem Keeps.execGroupStatusDevice {src : Src} {numd : Nat} (h : Evolves s₀ s) : Keeps s₀ (execGroupStatusDevice src numd s) :=
  .host h fun _ hu => hu.done

theorem Keeps.execGroupStatusDomain {src : Src} {numd : Nat} (h : Evolves s₀ s) : Keeps s₀ (execGroupStatusDomain src numd s) :=
  .host h fun _ hu => .ite hu.err hu.done

/-! ### Machine/SelfTest -/

theorem Evolves.endTest {result segment : Nat} (h : Evolves s₀ s) : Evolves s₀ (s.endTest result segment) := by
  unfold State.endTest
  exact h.elseIf (·.cancelItems.fields.setTest)

theorem Evolves.abortTest {result : Nat} (h : Evolves s₀ s) : Evolves s₀ (s.abortTest result) := h.endTest

theorem Evolves.startHoldup (h : Evolves s₀ s) : Evolves s₀ s.startHoldup := by
  unfold State.startHoldup
  exact .ite h (.ite h.fields h.fields)

theorem Evolves.startTest {src : Src} {code : Nat} (h : Evolves s₀ s) : Evolves s₀ (startTest src code s) := by
  unfold Machine.startTest
  exact .ite h.err (.ite h.err (.ite h.err h.setTest.ok))

theorem Keeps.execDeviceSelfTestShort {src : Src} (h : Evolves s₀ s) : Keeps s₀ (execDeviceSelfTestShort src s) := .host h fun _ hu => hu.startTest

theorem Keeps.execDeviceSelfTestExtended {src : Src} (h : Evolves s₀ s) : Keeps s₀ (execDeviceSelfTestExtended src s) :=
  .host h fun _ hu => hu.startTest

theorem Keeps.execDeviceSelfTestAbort {src : Src} (h : Evolves s₀ s) : Keeps s₀ (execDeviceSelfTestAbort src s) :=
  .host h fun _ hu => .ite hu.err hu.abortTest.ok

theorem Evolves.queueSamples (h : Evolves s₀ s) : Evolves s₀ s.queueSamples := by
  refine h.setTest.foldl fun _ _ hu => ?_
  split
  · exact hu
  · exact hu.elseIf (·.foldl fun _ _ hv => hv.queueOp)

theorem Evolves.nextSamples (h : Evolves s₀ s) : Evolves s₀ s.nextSamples := by
  unfold State.nextSamples
  exact h.thenIf (·.queueSamples)

theorem Evolves.nextSegment (h : Evolves s₀ s) : Evolves s₀ s.nextSegment := by
  unfold State.nextSegment
  extract_lets s1 k r s2
  have h2 : Evolves s₀ s2 := (h.thenIf (·.noteFailed)).setTest
  clear_value k
  split
  · exact h2.thenIf (·.noteFailed)
  · exact h2.startHoldup
  · exact h2.setTest
  · exact h2

theorem Evolves.settleTest {k : Nat} (h : Evolves s₀ s) : Evolves s₀ (State.settleTest k s) := by
  induction k generalizing s with
  | zero => exact h
  | succ k ih => exact .ite h.nextSamples (ih h.nextSamples.nextSegment)

theorem Evolves.giveTest {p n clutch : Nat} (h : Evolves s₀ s) : Evolves s₀ (s.giveTest p n clutch) := by
  unfold State.giveTest
  refine .ite h (.ite (.ite h.settleTest h.settleTest.pushItem) (.ite ?_ h.settleTest))
  split
  · exact .ite h.settleTest.pushItem h.settleTest
  · exact h.settleTest

theorem Evolves.endVector {p n : Nat} {i : Item} {faulty : Bool} (h : Evolves s₀ s) : Evolves s₀ (s.endVector p n i faulty) := by
  unfold State.endVector
  exact .ite h.endItem (.ite h.endItem.setTest (.ite h.endItem.setTest.noteFailed.fenceEft h.endItem.setTest.noteFailed))

theorem Keeps.execSelfTestItem {pond n clutch : Nat} {faulty : Bool} (h : Evolves s₀ s) : Keeps s₀ (execSelfTestItem pond n clutch faulty s) := by
  refine .onEft (.ite h.next ?_)
  split
  · exact (h.thenIf (·.endVector)).next
  · exact h.giveTest.next
  · refine .ite h.next ?_
    split
    · rename_i _ u hu
      exact .next (.startItem (h.takeNear hu))
    · exact h.next
  · exact h.next

theorem Keeps.execDeviceSelfTestComplete {failed : Nat} (h : Evolves s₀ s) : Keeps s₀ (execDeviceSelfTestComplete failed s) := by
  unfold Machine.execDeviceSelfTestComplete
  exact .ite h.next (.ite h.settleTest.next (.next (.ite (.degrade (.endTest (.ite h.settleTest.noteFailed h.settleTest))) (.endTest (.ite
      h.settleTest.noteFailed h.settleTest)))))

theorem Keeps.execGetLogPageDeviceSelfTest {src : Src} {rae : Bool} (h : Evolves s₀ s) : Keeps s₀ (execGetLogPageDeviceSelfTest src rae s) := by
  refine .host h fun _ hu => .ite hu.err (.done ?_)
  split
  · exact hu.logRead.pair
  · exact hu.logRead.free

theorem Keeps.execHoldupSelfTestDue {t : Nat} (h : Evolves s₀ s) : Keeps s₀ (execHoldupSelfTestDue t s) := by
  unfold Machine.execHoldupSelfTestDue
  exact .ite h.at.next h.at.startHoldup.next

theorem Keeps.execHoldupSelfTestStart {volt t : Nat} (h : Evolves s₀ s) : Keeps s₀ (execHoldupSelfTestStart volt t s) := by
  unfold Machine.execHoldupSelfTestStart
  exact .ite h.at.fields.next h.at.next

theorem Evolves.holdupResult {pass : Bool} (h : Evolves s₀ s) : Evolves s₀ (s.holdupResult pass) :=
  .refreshCrit (.ite (.ite h.fields.setFlag.fields.commitResets.commitRemaps h.fields.setFlag) (.degrade (.ite
      h.fields.setFlag.fields.commitResets.commitRemaps h.fields.setFlag)))

theorem Keeps.execHoldupSelfTestEnd {dv t : Nat} (h : Evolves s₀ s) : Keeps s₀ (execHoldupSelfTestEnd dv t s) := by
  unfold Machine.execHoldupSelfTestEnd
  exact .ite h.at.next h.at.fields.holdupResult.next

theorem Evolves.dropHoldup (h : Evolves s₀ s) : Evolves s₀ s.dropHoldup := by
  unfold State.dropHoldup
  exact h.thenIf (·.fields)

theorem Evolves.fenceCmd {value : Nat} (h : Evolves s₀ s) : Evolves s₀ (fenceCmd value s) := by
  unfold Machine.fenceCmd
  exact h.thenIf (·.fenceEft)

theorem Keeps.execEftFenceCmd {requester value : Nat} (h : Evolves s₀ s) : Keeps s₀ (execEftFenceCmd requester value s) :=
  .winWrite h fun _ hu => hu.fenceCmd

/-! ### Machine/Namespaces -/

theorem Evolves.endNsCmds {nsid : Nat} {st : Status} (h : Evolves s₀ s) : Evolves s₀ (s.endNsCmds nsid st) :=
  (h.foldl fun _ _ hu => hu.cancelItems.finish).concludeRecon

theorem Evolves.dropWorks {nsid : Nat} (h : Evolves s₀ s) : Evolves s₀ (s.dropWorks nsid) := h.fields

theorem Evolves.dropEmptySegs (h : Evolves s₀ s) : Evolves s₀ s.dropEmptySegs := h.foldl fun _ _ hu => hu.dropEmptySeg

theorem Evolves.dropConv {nsid : Nat} (h : Evolves s₀ s) : Evolves s₀ (s.dropConv nsid) :=
  (h.removeClutches.foldl fun _ _ hu => hu.releaseStripe).fields

theorem Evolves.bindHomes {n : Ns} (h : Evolves s₀ s) : Evolves s₀ (s.bindHomes n) := by
  unfold State.bindHomes
  exact h.elseIf fun h' => (h'.foldl fun _ _ hu => hu.bindStripe).refreshXlt.setLevels

theorem Evolves.dropData {g : Nat} {n : Ns} (h : Evolves s₀ s) : Evolves s₀ (s.dropData g n) :=
  .refreshXlt (.dropEmptySegs (.dropWorks (.modNs (.ite (h.emptyZones.foldl fun _ _ hu => hu.setZone) h.dropConv))))

theorem Evolves.makeNs {nsid : Nat} {n : NsArgs} (h : Evolves s₀ s) : Evolves s₀ (s.makeNs nsid n) := h.secFields.bindHomes

theorem Evolves.createNs {src : Src} {n : NsArgs} (h : Evolves s₀ s) : Evolves s₀ (createNs src n s) := by
  unfold Machine.createNs
  exact .ite h.err (.ite h.err (.ite h.err (.ite h.err (.ite h.err (.ite h.err (.ite h.trngWait h.makeNs.done))))))

theorem Keeps.execNamespaceManagementCreate {src : Src} {n : NsArgs} (h : Evolves s₀ s) : Keeps s₀ (execNamespaceManagementCreate src n s) :=
  .host h fun _ hu => hu.createNs

theorem Evolves.attachTo {nsid f slot : Nat} (h : Evolves s₀ s) : Evolves s₀ (s.attachTo nsid f slot) := h.modNs.settleFlags.settleFlags

theorem Evolves.attachNs {src : Src} {nsid f : Nat} (h : Evolves s₀ s) : Evolves s₀ (attachNs src nsid f s) := by
  unfold Machine.attachNs
  refine .ite h.err ?_
  split
  · exact h.err
  · refine .ite h.err (.ite h.err (.ite h.err (.ite h.err ?_)))
    split
    · exact h.err
    · exact h.attachTo.ok

theorem Keeps.execNamespaceAttach {src : Src} {nsid fn : Nat} (h : Evolves s₀ s) : Keeps s₀ (execNamespaceAttach src nsid fn s) :=
  .host h fun _ hu => hu.attachNs

theorem Evolves.unattach {n : Ns} (h : Evolves s₀ s) : Evolves s₀ (s.unattach n) := by
  unfold State.unattach
  split
  · exact h
  · refine .retryShrink (.settleFlags (.moveMedia (.modNs ?_)))
    split
    · exact h.zeroSlot
    · exact h

theorem Evolves.detachNs {src : Src} {nsid f : Nat} (h : Evolves s₀ s) : Evolves s₀ (detachNs src nsid f s) := by
  unfold Machine.detachNs
  refine .ite h.err ?_
  split
  · exact h.err
  · exact .ite h.err h.endNsCmds.unattach.chargePf0.ok

theorem Keeps.execNamespaceDetach {src : Src} {nsid fn : Nat} (h : Evolves s₀ s) : Keeps s₀ (execNamespaceDetach src nsid fn s) :=
  .host h fun _ hu => hu.detachNs

theorem Evolves.deleteNs {n : Ns} (h : Evolves s₀ s) : Evolves s₀ (s.deleteNs n) := h.endNsCmds.dropData.unattach.fields.settleFlags.refreshXlt

theorem Keeps.execNamespaceManagementDelete {src : Src} {nsid : Nat} (h : Evolves s₀ s) : Keeps s₀ (execNamespaceManagementDelete src nsid s) :=
  .host h fun _ hu => .ite hu.err (.ite hu.err (hu.foldl fun _ _ hv => hv.deleteNs).ok)

theorem Evolves.newKey {nsid : Nat} (h : Evolves s₀ s) : Evolves s₀ (s.newKey nsid) := by
  refine .modNs (.secFields ?_)
  split
  · exact h.zeroSlot
  · exact h

theorem Evolves.formatNs {g : Nat} {n : Ns} {fmt : Nat} {extended newKey : Bool} (h : Evolves s₀ s) :
    Evolves s₀ (s.formatNs g n fmt extended newKey) := by
  unfold State.formatNs
  exact .ite h.endNsCmds.dropData.bindHomes.modNs.newKey h.endNsCmds.dropData.bindHomes.modNs

theorem Evolves.formatAll {src : Src} {nsid fmt : Nat} {extended newKey : Bool} (h : Evolves s₀ s) :
    Evolves s₀ (formatAll src nsid fmt extended newKey s) :=
  (h.abortTest.nextGen.foldl fun _ _ hu => hu.formatNs).ok

theorem Evolves.formatCmd {src : Src} {nsid fmt dps : Nat} {extended : Bool} {ses : Nat} (h : Evolves s₀ s) :
    Evolves s₀ (formatCmd src nsid fmt dps extended ses s) := by
  unfold Machine.formatCmd
  exact .ite h.err (.ite h.err (.ite h.err (.ite h.err (.ite h.err (.ite h.trngWait h.formatAll)))))

theorem Keeps.execFormatNvm {src : Src} {nsid fmt dps : Nat} {extended : Bool} {ses : Nat} (h : Evolves s₀ s) :
    Keeps s₀ (execFormatNvm src nsid fmt dps extended ses s) :=
  .host h fun _ hu => hu.formatCmd

theorem Keeps.execMediaSlotReload {nsid : Nat} (h : Evolves s₀ s) : Keeps s₀ (execMediaSlotReload nsid s) := by
  unfold Machine.execMediaSlotReload
  split
  · exact h.next
  · split
    · exact .ite h.next h.setSlot.modNs.next
    · exact h.next

theorem Keeps.execIdentifyController {src : Src} (h : Evolves s₀ s) : Keeps s₀ (execIdentifyController src s) := .host h fun _ hu => hu.done

theorem Keeps.execIdentifyNamespace {src : Src} {nsid : Nat} (h : Evolves s₀ s) : Keeps s₀ (execIdentifyNamespace src nsid s) := by
  refine .host h fun _ hu => ?_
  split
  · exact hu.err
  · exact hu.free.done

/-! ### Machine/Restart -/

theorem Evolves.abandonCmd {c : Cmd} (h : Evolves s₀ s) : Evolves s₀ (s.abandonCmd c) := h.dropOuts.cancelItems.dropCmd

theorem Evolves.forgetWaiting {f : Nat} (h : Evolves s₀ s) : Evolves s₀ (s.forgetWaiting f) := h.secFields

theorem Evolves.abandonFn {f : Nat} (h : Evolves s₀ s) : Evolves s₀ (s.abandonFn f) :=
  (h.foldl fun _ _ hu => .ite hu.cancelItems.finish hu.abandonCmd).forgetWaiting

theorem Evolves.stopEfts {f : Nat} (h : Evolves s₀ s) : Evolves s₀ (s.stopEfts f) := h.foldl fun _ _ hu => hu.modEft.bump

theorem Evolves.evictKeys {f : Nat} (h : Evolves s₀ s) : Evolves s₀ (s.evictKeys f) := h.secFields

theorem Evolves.closeZones {p : Ns → Bool} (h : Evolves s₀ s) : Evolves s₀ (s.closeZones p) := h.foldl fun _ _ hu => hu.foldl fun _ _ hv => hv.setZone

theorem Evolves.resetFn {f : Nat} (h : Evolves s₀ s) : Evolves s₀ (s.resetFn f) := h.abandonFn.modFn.closeZones

theorem Evolves.startRegs {internal : Bool} (h : Evolves s₀ s) : Evolves s₀ (s.startRegs internal) := by
  have h' : Evolves s₀ { s with regs := [] } := ⟨fun hc => ⟨rfl, (h.canonical hc).2⟩, h.otpBits, h.queue⟩
  exact h'.foldl fun _ _ hu => .ite hu.setWord (.ite hu.setWord (hu.thenIf (·.setWord)))

theorem Evolves.startEfts (h : Evolves s₀ s) : Evolves s₀ s.startEfts := h.foldl fun _ _ hu => hu.setEft

theorem Evolves.cutSnc (h : Evolves s₀ s) : Evolves s₀ s.cutSnc := by
  refine .sncFields ?_
  split
  · exact h.elseIf (·.flashFree)
  · exact h

theorem Evolves.relistRebuilds (h : Evolves s₀ s) : Evolves s₀ s.relistRebuilds := h.fields.queueRebuilds

theorem Evolves.rollBack {m : Maps} (h : Evolves s₀ s) : Evolves s₀ (s.rollBack m).2 := by
  unfold State.rollBack
  exact h.fields.relistRebuilds.pair

theorem Evolves.dropRecords {seq : Nat} (h : Evolves s₀ s) : Evolves s₀ (s.dropRecords seq).2 := by
  unfold State.dropRecords
  extract_lets
  split
  · exact h.pair
  · exact h.rollBack.fields.pair

theorem Evolves.rewindRounds (h : Evolves s₀ s) : Evolves s₀ s.rewindRounds := h.fields

theorem Evolves.stopOps {cut : Bool} (h : Evolves s₀ s) : Evolves s₀ (s.stopOps cut) := (h.fields.foldl fun _ _ hu => hu.modStripe).rewindRounds

theorem Evolves.startTables {internal : Bool} (h : Evolves s₀ s) : Evolves s₀ (s.startTables internal) := h.stopOps.secFields

theorem Evolves.startChorus (h : Evolves s₀ s) : Evolves s₀ s.startChorus := h.fields

theorem Evolves.startBoot {kind : Nat} {internal : Bool} (h : Evolves s₀ s) : Evolves s₀ (s.startBoot kind internal) := h.fields

theorem Evolves.beginStart {kind : Nat} {internal : Bool} (h : Evolves s₀ s) : Evolves s₀ (s.beginStart kind internal) :=
  h.cutSnc.abortTest.startEfts.startRegs.startTables.startChorus.wr.startBoot.wr.wr

theorem Evolves.restart {kind : Nat} {internal : Bool} (h : Evolves s₀ s) : Evolves s₀ (s.restart kind internal) := by
  unfold State.restart
  exact .ite h.beginStart h.beginStart.record

theorem Evolves.endSnc (h : Evolves s₀ s) : Evolves s₀ s.endSnc := by
  unfold State.endSnc
  extract_lets
  split
  · exact h.sncFields.sncFinish
  · exact h.sncFields

theorem Evolves.internalRestart (h : Evolves s₀ s) : Evolves s₀ s.internalRestart := h.restart

/-! ### Machine/Firmware -/

theorem Evolves.markEmpty {type : Nat} (h : Evolves s₀ s) : Evolves s₀ (s.markEmpty type) := by
  unfold State.markEmpty
  exact .ite h.writeSlot h.writePeuth

theorem Evolves.beginDownload {data : Bytes} {u : Download × State} (h : Evolves s₀ s) (hu : s.beginDownload data = some u) :
    Evolves s₀ u.2 := by
  unfold State.beginDownload at hu
  extract_lets type at hu
  clear_value type
  split at hu
  · cases hu; exact .pair h.markEmpty
  · split at hu
    · cases hu; exact .pair h.markEmpty
    · cases hu

theorem Evolves.putPiece {d : Download} {off : Nat} {data : Bytes} (h : Evolves s₀ s) : Evolves s₀ (s.putPiece d off data) :=
  (h.foldl fun _ _ hu => hu.eraseWhole).flashAnd.fields

theorem Evolves.takePiece {src : Src} {d : Download} {off : Nat} {data : Bytes} {verified : Bool} (h : Evolves s₀ s) :
    Evolves s₀ (s.takePiece src d off data verified) := by
  unfold State.takePiece
  exact .ite h.err (.ite h.err (.ite h.putPiece.ok h.putPiece.flashFree.err))

theorem Evolves.downloadCmd {src : Src} {off : Nat} {data : Bytes} {verified : Bool} (h : Evolves s₀ s) :
    Evolves s₀ (downloadCmd src off data verified s) := by
  unfold Machine.downloadCmd
  refine .ite h.err (.ite ?_ ?_)
  · split
    · exact h.err
    · rename_i _ u hu
      exact .ite h.err (.takePiece (h.beginDownload hu))
  · split
    · exact h.err
    · exact h.takePiece

theorem Keeps.execFirmwareImageDownload {src : Src} {off : Nat} {data : Bytes} {verified : optParam Bool true} (h : Evolves s₀ s) :
    Keeps s₀ (execFirmwareImageDownload src off data s verified) :=
  .host h fun _ hu => hu.downloadCmd

theorem Evolves.storeImage {base type : Nat} {u : State} (h : Evolves s₀ s) (hu : s.storeImage base type = .inr u) : Evolves s₀ u := by
  unfold State.storeImage at hu
  split at hu
  · cases hu
  · split at hu
    · cases hu
    · split at hu
      · cases hu
      · dsimp only at hu
        split at hu
        · cases hu; exact h.flashAnd
        · split at hu
          · cases hu; exact h
          · cases hu

theorem Evolves.activate {k : Nat} {src : Option Src} (h : Evolves s₀ s) : Evolves s₀ (s.activate k src) := by
  unfold State.activate
  exact .ite h.writeSlot.raiseIf.setRunning.fields h.writeSlot.raiseIf.request

theorem Evolves.recoverySlot {k : Nat} (h : Evolves s₀ s) : Evolves s₀ (s.recoverySlot k) := h.writeSlot

theorem Evolves.recoveryRestart {src : Src} {k : Nat} (h : Evolves s₀ s) : Evolves s₀ (s.recoveryRestart src k) := h.recoverySlot.ok.internalRestart

theorem Evolves.setPendingSlot {k : Nat} (h : Evolves s₀ s) : Evolves s₀ (s.setPendingSlot k) := h.fields

theorem Evolves.storeFirmware {src : Src} {k : Nat} {setNext : Bool} (h : Evolves s₀ s) : Evolves s₀ (storeFirmware src k setNext s) := by
  unfold Machine.storeFirmware
  refine .ite h.err ?_
  split
  · exact h.err
  · rename_i u hu
    exact .ite (.recoveryRestart (h.storeImage hu)) (.ite (.ok (.setPendingSlot (.writeSlot (h.storeImage hu)))) (.ok (.writeSlot (h.storeImage
        hu))))

theorem Evolves.makeCurrent {bank : Nat} (h : Evolves s₀ s) : Evolves s₀ (s.makeCurrent bank) := by
  unfold State.makeCurrent
  exact h.elseIf (·.writePeuth)

theorem Evolves.storePeuth {src : Src} (h : Evolves s₀ s) : Evolves s₀ (storePeuth src s) := by
  unfold Machine.storePeuth
  extract_lets
  split
  · exact h.err
  · rename_i u hu
    exact .ok (.makeCurrent (h.storeImage hu))

theorem Evolves.commitTo {src : Src} {slot : Nat} {fw : Nat → State → State} {peuth : State → State}
    (hk : ∀ x0 u, Evolves s₀ u → Evolves s₀ (fw x0 u)) (hk2 : ∀ u, Evolves s₀ u → Evolves s₀ (peuth u)) (h : Evolves s₀ s) :
    Evolves s₀ (commitTo src slot fw peuth s) := by
  unfold Machine.commitTo
  exact .ite h.err (.ite h.err (.ite (.ite h.err (hk2 _ h)) (hk _ _ h)))

theorem Keeps.execFirmwareCommitStore {src : Src} {slot : Nat} (h : Evolves s₀ s) : Keeps s₀ (execFirmwareCommitStore src slot s) :=
  .host h fun _ hu => .commitTo (fun _ _ hv => hv.storeFirmware) (fun _ hv => hv.storePeuth) hu

theorem Keeps.execFirmwareCommitStoreAndSetNext {src : Src} {slot : Nat} (h : Evolves s₀ s) :
    Keeps s₀ (execFirmwareCommitStoreAndSetNext src slot s) :=
  .host h fun _ hu => .commitTo (fun _ _ hv => hv.storeFirmware) (fun _ hv => hv.storePeuth) hu

theorem Evolves.nextExisting {src : Src} {k : Nat} (h : Evolves s₀ s) : Evolves s₀ (nextExisting src k s) := by
  unfold Machine.nextExisting
  exact .ite h.err (.ite h.writeSlot.ok.internalRestart h.writeSlot.setPendingSlot.ok)

theorem Keeps.execFirmwareCommitActivateExisting {src : Src} {slot : Nat} (h : Evolves s₀ s) :
    Keeps s₀ (execFirmwareCommitActivateExisting src slot s) :=
  .host h fun _ hu => .commitTo (fun _ _ hv => hv.nextExisting) (fun _ hv => hv.err) hu

theorem Evolves.activateNow {src : Src} {k : Nat} (h : Evolves s₀ s) : Evolves s₀ (activateNow src k s) := by
  unfold Machine.activateNow
  refine .ite h.err (.ite (.ite h.err ?_) (.ite h.err (.ite h.recoveryRestart h.activate)))
  split
  · exact h.err
  · rename_i u hu
    exact .ite (.recoveryRestart (h.storeImage hu)) (.activate (h.storeImage hu))

theorem Evolves.applyPeuth {src : Src} (h : Evolves s₀ s) : Evolves s₀ (applyPeuth src s) := by
  unfold Machine.applyPeuth
  refine .ite h.err ?_
  split
  · exact h.err
  · rename_i u hu
    split
    · exact h.err
    · exact .ite h.err (.ite (.ok (.selectProfile (.fields (.wr (.makeCurrent (h.storeImage hu)))))) (.request (.fields (.wr (.makeCurrent
          (h.storeImage hu))))))

theorem Keeps.execFirmwareCommitActivateNow {src : Src} {slot : Nat} (h : Evolves s₀ s) : Keeps s₀ (execFirmwareCommitActivateNow src slot s) :=
  .host h fun _ hu => .commitTo (fun _ _ hv => hv.activateNow) (fun _ hv => hv.applyPeuth) hu

/-! ### Machine/Startup -/

theorem Evolves.enterStage {k : Nat} (h : Evolves s₀ s) : Evolves s₀ (s.enterStage k) := by
  unfold State.enterStage
  exact .ite h.fields.wr.wr h.fields.wr

theorem Evolves.limit {fail : Nat} (h : Evolves s₀ s) : Evolves s₀ (s.limit fail) := h.fields.wr.modFn.refreshHealth

theorem Evolves.stageOtp {x : Found} (h : Evolves s₀ s) : Evolves s₀ (s.stageOtp x) := by
  unfold State.stageOtp
  exact .ite h.alarm.limit (.enterStage (.trngResume (.setFlag (.ite ((h.thenIf (·.wr)).refreshOtp.otpPending.wr.wr.foldl fun _ _ hu =>
      hu.wr).setMode ((h.thenIf (·.wr)).refreshOtp.otpPending.wr.wr.foldl fun _ _ hu => hu.wr)))))

theorem Evolves.eraseAgain {e : Nat × Nat × Nat} (h : Evolves s₀ s) : Evolves s₀ (s.eraseAgain e) := h.flashErase.flagAppend

theorem Evolves.stageRom {x : Found} (h : Evolves s₀ s) : Evolves s₀ (s.stageRom x) := by
  unfold State.stageRom
  exact .ite h.limit (.ite (h.wr.wr.wr.setFlag.foldl fun _ _ hu => hu.eraseAgain).wr.wr.fields (h.wr.wr.wr.setFlag.foldl fun _ _ hu =>
      hu.eraseAgain).wr.wr.fields.takeTry.enterStage)

theorem Evolves.pickPeuth (h : Evolves s₀ s) : Evolves s₀ s.pickPeuth := by
  unfold State.pickPeuth
  extract_lets
  split
  · exact h.fields.wr
  · exact .ite h.fields.wr (.ite h.fields.wr h.fields.wr)

theorem Evolves.startProfile (h : Evolves s₀ s) : Evolves s₀ s.startProfile :=
  .wr (.setFlag (.applySelect (.fields (.ite h.wr.wr.wr.wr.record h.wr.wr.wr.wr))))

theorem Evolves.stageImages (h : Evolves s₀ s) : Evolves s₀ s.stageImages := by
  unfold State.stageImages
  extract_lets
  split
  · exact h.pickSlot.wr.wr.limit
  · exact h.pickSlot.runImage.setFlag.wr.pickPeuth.startProfile.reloadDevice.startHoldup.enterStage

theorem Evolves.loadDmc {warm : Bool} {c : Nat} {d : Dimm} (h : Evolves s₀ s) : Evolves s₀ (s.loadDmc warm c d) := by
  unfold State.loadDmc
  exact .ite h.setFlag.wr.wr (h.setFlag.wr.wr.wr.fields.foldl fun _ _ hu => hu.wr.wr.wr.wr).wr.wr.wr.wr.wr.wr

theorem Evolves.settleBuffer (h : Evolves s₀ s) : Evolves s₀ s.settleBuffer := by
  unfold State.settleBuffer
  exact .ite h.capBuffer h.capBuffer.wr.loadPf0

theorem Evolves.stageDram {x : Found} (h : Evolves s₀ s) : Evolves s₀ (s.stageDram x) := by
  unfold State.stageDram
  exact .ite ((h.foldl fun _ _ hu => hu.loadDmc).foldl fun _ _ hu => hu.loadReg).loadReg.limit ((h.foldl fun _ _ hu => hu.loadDmc).foldl fun _ _
      hu => hu.loadReg).loadReg.wr.wr.settleBuffer.enterStage

theorem Evolves.loadChannel {x : Found} {model : Option Nat} {ch : Nat} (h : Evolves s₀ s) : Evolves s₀ (s.loadChannel x model ch) := by
  unfold State.loadChannel
  exact h.elseIf fun h' => h'.elseIf (·.wr.wr.wr.count.wr.wr)

theorem Evolves.idleDies {x : Found} {model : Option Nat} (h : Evolves s₀ s) : Evolves s₀ (s.idleDies x model) := h.foldl fun _ _ hu => hu.record

theorem Evolves.badPages {x : Found} (h : Evolves s₀ s) : Evolves s₀ (s.badPages x) := h.foldl fun _ _ hu => hu.thenIf (·.transient)

theorem Evolves.decideChoirs (h : Evolves s₀ s) : Evolves s₀ s.decideChoirs := by
  unfold State.decideChoirs
  exact h.elseIf (·.fields)

theorem Evolves.startMember (h : Evolves s₀ s) : Evolves s₀ s.startMember := by
  unfold State.startMember
  refine .ite (.setMember (.ite h.fields.wr h.fields)) ?_
  split
  · exact h.fields.wr.setMember
  · exact h

theorem Evolves.stageMedia {x : Found} (h : Evolves s₀ s) : Evolves s₀ (s.stageMedia x) :=
  .enterStage (.wr (.startMember (.ite (.decideChoirs (.ite (h.idleDies.foldl fun _ _ hu => hu.loadChannel).wr.wr.fields.badPages (h.idleDies.foldl
      fun _ _ hu => hu.loadChannel).wr.wr.fields.badPages.fields)) (.settleTurnMap (.decideChoirs (.ite (h.idleDies.foldl fun _ _ hu =>
      hu.loadChannel).wr.wr.fields.badPages (h.idleDies.foldl fun _ _ hu => hu.loadChannel).wr.wr.fields.badPages.fields))))))

theorem Evolves.truncateZone {n : Ns} {z : Nat} {ids : List Nat} (h : Evolves s₀ s) : Evolves s₀ (s.truncateZone n z ids) := by
  unfold State.truncateZone
  extract_lets
  split
  · exact h
  · exact h.fields.setZone.fillZone.record

theorem Evolves.loseBlocks {n : Ns} {ids : List Nat} (h : Evolves s₀ s) : Evolves s₀ (s.loseBlocks n ids) := h.fields.foldl fun _ _ hu => hu.record

theorem Evolves.loseClutches {ids : List Nat} (h : Evolves s₀ s) : Evolves s₀ (s.loseClutches ids) := by
  unfold State.loseClutches
  exact h.elseIf (·.foldl fun _ _ hu => .ite (hu.foldl fun _ _ hv => hv.truncateZone) hu.loseBlocks)

theorem Evolves.startCounter (h : Evolves s₀ s) : Evolves s₀ s.startCounter := h.setCounter.fields

theorem Evolves.buildMaps (h : Evolves s₀ s) : Evolves s₀ s.buildMaps := h.fields.refreshSpares.fields

theorem Evolves.restoreMaps {x : Found} (h : Evolves s₀ s) : Evolves s₀ (s.restoreMaps x) := by
  refine .setFlag (.loseClutches (.fields ?_))
  split
  · exact h.wr.wr.fields.dropRecords
  · exact h.wr.wr.fields.pair

theorem Evolves.eraseIntents (h : Evolves s₀ s) : Evolves s₀ s.eraseIntents := (h.foldl fun _ _ hu => hu.modBlock.clearIntent).wr

theorem Evolves.releaseOrphans (h : Evolves s₀ s) : Evolves s₀ s.releaseOrphans :=
  ((h.fields.foldl fun _ _ hu => hu.releaseBlock).foldl fun _ _ hu => hu.releaseStripe).wr

theorem Evolves.markSuspect {erasing : List Nat} (h : Evolves s₀ s) : Evolves s₀ (s.markSuspect erasing) := by
  unfold State.markSuspect
  exact h.elseIf (·.foldl fun _ _ hu => hu.modBlock)

theorem Evolves.mendRounds (h : Evolves s₀ s) : Evolves s₀ s.mendRounds :=
  h.foldl fun _ _ hu => .ite hu (.ite hu.settleRounds.rewindRounds (hu.foldl fun _ _ hv => hv.modMember).fields.refreshRebuild)

theorem Evolves.missingDies {x : Found} (h : Evolves s₀ s) : Evolves s₀ (s.missingDies x) :=
  (h.foldl fun _ _ hu => hu.thenIf (·.autotomy)).foldl fun _ _ hu => hu.foldl fun _ _ hv => hv.thenIf (·.retireDies)

theorem Evolves.writeLater (h : Evolves s₀ s) : Evolves s₀ s.writeLater := h.fields.foldl fun _ _ hu => hu.addAuto

theorem Evolves.settleMaps {x : Found} (h : Evolves s₀ s) : Evolves s₀ (s.settleMaps x) :=
  (h.eraseIntents.releaseOrphans.markSuspect.mendRounds.writeLater.closeZones.missingDies.wr).refreshSpares
    |>.refreshRebuild.fields.wr.wr.wr.refreshXlt.setLevels.setFactors

theorem Evolves.recount (h : Evolves s₀ s) : Evolves s₀ s.recount := h.refreshXlt.setLevels.setFactors.checkReserve

theorem Evolves.startRecorder {x : Found} (h : Evolves s₀ s) : Evolves s₀ (s.startRecorder x) := by
  unfold State.startRecorder
  exact .ite (.wr (.fields (.ite h.wr.settleHome h.ringUnwritable))) (.record (.fields (.wr (.fields (.ite h.wr.settleHome h.ringUnwritable)))))

theorem Evolves.stageMaps {x : Found} (h : Evolves s₀ s) : Evolves s₀ (s.stageMaps x) := by
  unfold State.stageMaps
  exact .ite (h.thenIf (·.recount.startRecorder.startSigning.refreshHealth.enterStage)) (.ite h.startCounter.startRecorder.enterStage (.ite
      h.startCounter.limit (.ite h.startCounter.limit (.ite (.enterStage (.refreshHealth (.startSigning (.startRecorder (.closeZones (.restoreMaps
      (.ite h.startCounter h.startCounter.buildMaps))))))) (.ite (.enterStage (.refreshHealth (.startSigning (.startRecorder (.recount
      (.settleMaps (.restoreMaps (.ite h.startCounter h.startCounter.buildMaps)))))))) (.settleMaps (.restoreMaps (.ite h.startCounter
      h.startCounter.buildMaps))))))))

theorem Evolves.writeFences (h : Evolves s₀ s) : Evolves s₀ s.writeFences := by
  unfold State.writeFences
  exact h.elseIf (·.writeRec)

theorem Evolves.stageEfts {x : Found} (h : Evolves s₀ s) : Evolves s₀ (s.stageEfts x) :=
  ((h.writeFences.foldl fun _ _ hu => hu.modEft).foldl fun _ _ hu => .ite hu.wr.wr (hu.thenIf (·.fenceEft))).writeFences.refreshHomes.enterStage

theorem Evolves.stageDone {x : Found} (h : Evolves s₀ s) : Evolves s₀ (stageDone x s) := by
  unfold Machine.stageDone
  split
  · exact h.enterStage
  · exact h.stageOtp
  · exact h.stageRom
  · exact h.stageImages
  · exact h.stageDram
  · exact h.stageMedia
  · exact h.stageMaps
  · exact h.stageEfts
  · exact h

theorem Keeps.execStartStageComplete {found : Found} {t : Nat} (h : Evolves s₀ s) : Keeps s₀ (execStartStageComplete found t s) := by
  unfold Machine.execStartStageComplete
  exact .ite h.at.stageDone.next h.at.next

theorem Keeps.execChorusWaitEnd {t : Nat} (h : Evolves s₀ s) : Keeps s₀ (execChorusWaitEnd t s) := by
  unfold Machine.execChorusWaitEnd
  exact .ite h.at.next (.ite h.at.adoptTime.enterStage.next (.ite h.at.enterStage.next h.at.next))

theorem Evolves.pickMode (h : Evolves s₀ s) : Evolves s₀ s.pickMode := by
  unfold State.pickMode
  exact .ite h (.ite h.wr.setMode (.ite h.wr.enterReadonly (.ite h.wr.enterReadonly (.ite h.wr.enterReadonly (.ite h.wr.setMode h.wr.setMode)))))

theorem Evolves.leaveBoot (h : Evolves s₀ s) : Evolves s₀ s.leaveBoot :=
  .resumeQueue (.refreshHealth (.fields (.foldl (.ite h.wr.record.wr h.wr.record) fun _ _ hu => hu.elseIf (·.modFn))))

theorem Keeps.execStartDecision {t : Nat} (h : Evolves s₀ s) : Keeps s₀ (execStartDecision t s) := by
  unfold Machine.execStartDecision
  exact .ite h.at.next (.ite h.at.confirmSlot.limit.next h.at.confirmSlot.pickMode.leaveBoot.next)

theorem Keeps.execStartWatchdog {t : Nat} (h : Evolves s₀ s) : Keeps s₀ (execStartWatchdog t s) := by
  unfold Machine.execStartWatchdog
  exact .ite h.at.next h.at.record.internalRestart.next

theorem Evolves.freshCounts (h : Evolves s₀ s) : Evolves s₀ s.freshCounts := h.fields

theorem Keeps.execPowerOn {xin vqps : Bool} {t : Nat} (h : Evolves s₀ s) : Keeps s₀ (execPowerOn xin vqps t s) := by
  unfold Machine.execPowerOn
  exact .ite h.at.fields.setFlag.next (.next (.wr (.fields (.ite h.at.fields.freshCounts.beginStart
      h.at.fields.freshCounts.beginStart.bump.record))))

theorem Evolves.perstAssert (h : Evolves s₀ s) : Evolves s₀ s.perstAssert := by
  unfold State.perstAssert
  exact .ite (h.thenIf (·.wakeSource.leaveSleep)).fields (.fields (.foldl (.ite (h.thenIf
      (·.wakeSource.leaveSleep)).endSnc.abortTest.startEfts.startTables.fields (h.thenIf
      (·.wakeSource.leaveSleep)).endSnc.abortTest.startEfts.startTables) fun _ _ hu => hu.thenIf (·.wr)))

theorem Keeps.execPerstNAssert {t : Nat} (h : Evolves s₀ s) : Keeps s₀ (execPerstNAssert t s) := by
  unfold Machine.execPerstNAssert
  exact .ite h.at.fields.next h.at.perstAssert.next

theorem Evolves.perstRelease {prf : Nat} (h : Evolves s₀ s) : Evolves s₀ (s.perstRelease prf) := (h.elseIf (·.restart)).fields.wr.setFlag

theorem Keeps.execPerstNDeassert {samples : List Nat} {t : Nat} (h : Evolves s₀ s) : Keeps s₀ (execPerstNDeassert samples t s) := by
  unfold Machine.execPerstNDeassert
  exact .ite h.at.next (.ite h.at.fields.next h.at.perstRelease.next)

theorem Keeps.execPrfChange {t : Nat} (h : Evolves s₀ s) : Keeps s₀ (execPrfChange t s) := by
  unfold Machine.execPrfChange
  exact .ite h.at.next h.at.wr.record.next

theorem Keeps.execConfigurationRequest {req : ConfigReq} (h : Evolves s₀ s) : Keeps s₀ (execConfigurationRequest s req) := by
  unfold Machine.execConfigurationRequest
  refine .ite h.next (.ite ?_ h.reply.next)
  split
  · exact h.fields.reply.next
  · exact h.fields.reply.next
  · exact h.fields.reply.next
  · exact h.reply.next
  · exact h.free.reply.next

/-! ### Machine/Power -/

theorem Evolves.setPs {ps : Nat} (h : Evolves s₀ s) : Evolves s₀ (s.setPs ps) := (h.thenIf (·.fields)).wr.settleCeil

theorem Keeps.execSetFeaturesPowerManagement {src : Src} {ps : Nat} (h : Evolves s₀ s) : Keeps s₀ (execSetFeaturesPowerManagement src ps s) :=
  .host h fun _ hu => .ite hu.err hu.setPs.ok

theorem Keeps.execAutonomousPowerStateTransition {ps : Nat} (h : Evolves s₀ s) : Keeps s₀ (execAutonomousPowerStateTransition ps s) := by
  unfold Machine.execAutonomousPowerStateTransition
  exact .ite h.setPs.next h.next

theorem Evolves.sleepDomains {st : Nat} (h : Evolves s₀ s) : Evolves s₀ (s.sleepDomains st) :=
  ((h.foldl fun _ _ hu => hu.thenIf (·.wr)).foldl fun _ _ hu => hu.elseIf (·.dropSession.modPort.setPst)).wr.wr

theorem Evolves.bankCrcs (h : Evolves s₀ s) : Evolves s₀ s.bankCrcs := h.foldl fun _ _ hu => .ite hu.free.wr hu.wr

theorem Evolves.loseBank {b : Nat} (h : Evolves s₀ s) : Evolves s₀ (s.loseBank b) := h.secFields

theorem Evolves.linkOff (h : Evolves s₀ s) : Evolves s₀ s.linkOff := h.fields.foldl fun _ _ hu => hu.wr.wr

theorem Evolves.railsOff (h : Evolves s₀ s) : Evolves s₀ s.railsOff := h.linkOff.stopOps.dropRecords.fields

theorem Evolves.enterOff (h : Evolves s₀ s) : Evolves s₀ s.enterOff := h.railsOff.fields.wr

theorem Evolves.enterState {st : Nat} (h : Evolves s₀ s) : Evolves s₀ (s.enterState st) := by
  unfold State.enterState
  exact .ite (h.thenIf (·.wr.wr)) (.ite (h.thenIf (·.enterOff)) (.ite h (.ite h.journalOnFlash.commitResets.commitRemaps.sleepDomains
      (h.journalOnFlash.commitResets.commitRemaps.bankCrcs.foldl fun _ _ hu => hu.elseIf (·.loseBank)).sleepDomains)))

theorem Keeps.execPowerStateEntry {woken : Option Nat} (h : Evolves s₀ s) : Keeps s₀ (execPowerStateEntry woken s) := by
  unfold Machine.execPowerStateEntry
  refine .ite h.next ?_
  split
  · exact h.enterState.next
  · exact .inRange (.ite h.wakeSource.enterState.next h.wakeSource.bump.wr.wr.next)

theorem Evolves.checkBanks {fails : Nat} (h : Evolves s₀ s) : Evolves s₀ (s.checkBanks fails) := by
  unfold State.checkBanks
  exact .ite (h.foldl fun _ _ hu => .ite hu.wr.record.loseBank hu.wr.record).reloadDevice (h.foldl fun _ _ hu => .ite hu.wr.record.loseBank
      hu.wr.record)

theorem Evolves.wakeChorus (h : Evolves s₀ s) : Evolves s₀ s.wakeChorus := by
  unfold State.wakeChorus
  exact .ite (h.elseIf (·.fields.setCounter.recordFrame)) (.needRelock (.ite (h.elseIf (·.fields.setCounter.recordFrame)).setChoState (h.elseIf
      (·.fields.setCounter.recordFrame))))

theorem Evolves.wakeNow {k fails : Nat} {dimms : List Dimm} (h : Evolves s₀ s) : Evolves s₀ (s.wakeNow k fails dimms) :=
  .sncNext (.settleCeil (.wakeChorus (.ite (.startHoldup (.foldl (.foldl (.foldl (.ite h.leaveSleep.checkBanks h.leaveSleep) fun _ _ hu =>
      hu.restartStep) fun _ _ hu => hu.loadDmc) fun _ _ hu => .ite hu.wr (hu.thenIf (·.wr)))) (.foldl (.foldl (.foldl (.ite h.leaveSleep.checkBanks
      h.leaveSleep) fun _ _ hu => hu.restartStep) fun _ _ hu => hu.loadDmc) fun _ _ hu => .ite hu.wr (hu.thenIf (·.wr))))))

theorem Keeps.execTimerWake (h : Evolves s₀ s) : Keeps s₀ (execTimerWake s) := by
  unfold Machine.execTimerWake
  exact .ite h.wakeSource.next h.next

theorem Keeps.execClkreqNWake (h : Evolves s₀ s) : Keeps s₀ (execClkreqNWake s) := by
  unfold Machine.execClkreqNWake
  exact .ite h.wakeSource.next h.next

theorem Evolves.latchStorm (h : Evolves s₀ s) : Evolves s₀ s.latchStorm := by
  unfold State.latchStorm
  exact .ite h.fields.fields h.fields.wr.bump.record

theorem Evolves.acceptEdge (h : Evolves s₀ s) : Evolves s₀ s.acceptEdge := by
  unfold State.acceptEdge
  exact .ite (.latchStorm (.ite h.fields.fields (.ite h.fields.wakeSource h.fields))) (.ite h.fields.fields (.ite h.fields.wakeSource h.fields))

theorem Keeps.execDevWakeNEdge {rising : Bool} {width t : Nat} (h : Evolves s₀ s) : Keeps s₀ (execDevWakeNEdge rising width t s) := by
  unfold Machine.execDevWakeNEdge
  refine .ite (.next (.ite h.at h.at.fields)) (.ite h.at.next ?_)
  split
  · exact h.at.next
  · exact .ite h.at.fields.next h.at.acceptEdge.next

theorem Keeps.execDevWakeStormEnd {t : Nat} (h : Evolves s₀ s) : Keeps s₀ (execDevWakeStormEnd t s) := by
  unfold Machine.execDevWakeStormEnd
  exact .ite h.at.next h.at.fields.wr.next

theorem Evolves.opWrite {r v : Nat} (h : Evolves s₀ s) : Evolves s₀ (s.opWrite r v) := h.plainWrite.settleCeil.setFlag

theorem Keeps.execClkOpReqWrite {requester value : Nat} (h : Evolves s₀ s) : Keeps s₀ (execClkOpReqWrite requester value s) :=
  .winWrite h fun _ hu => hu.opWrite

theorem Keeps.execDvfsStep (h : Evolves s₀ s) : Keeps s₀ (execDvfsStep s) := by
  unfold Machine.execDvfsStep
  exact .ite h.next (.ite (h.elseIf (·.opUp)).next (.ite h.opDown.next h.voltDown.next))

theorem Keeps.execDvfsRailSettled (h : Evolves s₀ s) : Keeps s₀ (execDvfsRailSettled s) := by
  unfold Machine.execDvfsRailSettled
  refine .ite h.next ?_
  extract_lets
  split
  · exact h.wr.next
  · exact h.wr.fields.wr.settleCeil.next

theorem Evolves.avsWrite {v answer : Nat} (h : Evolves s₀ s) : Evolves s₀ (s.avsWrite v answer) := by
  unfold State.avsWrite
  exact .ite h (.ite h.wr (.ite h (.ite h.fields.wr h.fields.wr.wr)))

theorem Keeps.execClkAvsCmd {requester value answer : Nat} (h : Evolves s₀ s) : Keeps s₀ (execClkAvsCmd requester value answer s) :=
  .winWrite h fun _ hu => hu.avsWrite

theorem Keeps.execAvsCurrentRead {current : Nat} (h : Evolves s₀ s) : Keeps s₀ (execAvsCurrentRead current s) := by
  unfold Machine.execAvsCurrentRead
  exact .ite h.next (.ite h.fields.wr.wr.settleCeil.next h.fields.wr.next)

theorem Evolves.avsError (h : Evolves s₀ s) : Evolves s₀ s.avsError := h.wr.record

theorem Keeps.execAvsRegulatorFault (h : Evolves s₀ s) : Keeps s₀ (execAvsRegulatorFault s) := by
  unfold Machine.execAvsRegulatorFault
  exact .ite h.next h.fields.avsError.next

theorem Keeps.execAvsRetry {answers : Bool} (h : Evolves s₀ s) : Keeps s₀ (execAvsRetry answers s) := by
  unfold Machine.execAvsRetry
  exact .ite h.next (.ite h.fields.settleCeil.next h.avsError.next)

theorem Keeps.execVddCoreSag (h : Evolves s₀ s) : Keeps s₀ (execVddCoreSag s) := by
  unfold Machine.execVddCoreSag
  exact .ite h.next h.fields.wr.setFlag.releaseHeld.avsError.next

theorem Keeps.execPondGate {pond : Nat} (h : Evolves s₀ s) : Keeps s₀ (execPondGate pond s) := .inRange (.ite h.next h.fields.refreshHomes.next)

theorem Keeps.execPondGateDrained {pond : Nat} (h : Evolves s₀ s) : Keeps s₀ (execPondGateDrained pond s) :=
  .inRange (.ite h.next h.fields.wr.refreshHomes.voltDown.next)

theorem Keeps.execPondUngate {pond : Nat} (h : Evolves s₀ s) : Keeps s₀ (execPondUngate pond s) :=
  .inRange (.ite h.fields.refreshHomes.next (.ite h.next h.wr.refreshHomes.next))

/-! ### Machine/Thermal -/

theorem Evolves.convert {n : Nat} {raw : Int} {bad : Bool} (h : Evolves s₀ s) : Evolves s₀ (s.convert n raw bad) := by
  unfold State.convert
  exact .ite h.fields.wr.wr (.ite h.fields (.ite h.fields.wr.free.wr h.fields.wr.wr))

theorem Evolves.crossCheck {n : Nat} (h : Evolves s₀ s) : Evolves s₀ (s.crossCheck n) := h.fields.setFlag.wr

theorem Evolves.settleFloor (h : Evolves s₀ s) : Evolves s₀ s.settleFloor := h.fields.wr

theorem Evolves.refreshTherm (h : Evolves s₀ s) : Evolves s₀ s.refreshTherm := h.wr.wr.wr.fields.settleFloor

theorem Keeps.execSetFeaturesHctm {src : Src} {tmt1 tmt2 : Nat} (h : Evolves s₀ s) : Keeps s₀ (execSetFeaturesHctm src tmt1 tmt2 s) :=
  .host h fun _ hu => .ite hu.err hu.fields.settleFloor.ok

theorem Evolves.setLevel {l : Nat} (h : Evolves s₀ s) : Evolves s₀ (s.setLevel l) := by
  unfold State.setLevel
  exact .ite h (.ite h.fields.wr.record h.fields.wr.record.settleCeil)

theorem Evolves.countTmt (h : Evolves s₀ s) : Evolves s₀ s.countTmt := by
  unfold State.countTmt
  exact .ite h.fields (h.thenIf (·.fields))

theorem Keeps.execThermalStep {t : Nat} (h : Evolves s₀ s) : Keeps s₀ (execThermalStep t s) := by
  unfold Machine.execThermalStep
  exact .ite h.at.next (.ite h.at.countTmt.setLevel.next h.at.countTmt.setLevel.next)

theorem Evolves.thermalStop (h : Evolves s₀ s) : Evolves s₀ s.thermalStop := by
  unfold State.thermalStop
  exact .ite h.setFlag.setLevel.fields.record (.ite (.fields (.ite (.stopQuiesce (.ite h.setFlag.setLevel.fields.record.wakeSource
      h.setFlag.setLevel.fields.record)) (.ite h.setFlag.setLevel.fields.record.wakeSource h.setFlag.setLevel.fields.record))) (.ite (.stopQuiesce
      (.ite h.setFlag.setLevel.fields.record.wakeSource h.setFlag.setLevel.fields.record)) (.ite h.setFlag.setLevel.fields.record.wakeSource
      h.setFlag.setLevel.fields.record)))

theorem Evolves.trackCool (h : Evolves s₀ s) : Evolves s₀ s.trackCool := h.fields

theorem Evolves.retrim {n : Nat} (h : Evolves s₀ s) : Evolves s₀ (s.retrim n) := by
  unfold State.retrim
  exact h.thenIf (·.fields)

theorem Keeps.execTempSample {n : Nat} {raw : Int} {bad : Bool} {t : Nat} (h : Evolves s₀ s) : Keeps s₀ (execTempSample n raw bad t s) :=
  .inRange (.ite h.at.next (.next (.trackCool (.ite (.thermalStop (.refreshCrit (.refreshTherm (.ite h.at.convert.crossCheck.wr.retrim
      h.at.convert.crossCheck.wr.retrim.record)))) (.refreshCrit (.refreshTherm (.ite h.at.convert.crossCheck.wr.retrim
      h.at.convert.crossCheck.wr.retrim.record)))))))

theorem Evolves.failQueuedWrites (h : Evolves s₀ s) : Evolves s₀ s.failQueuedWrites := (h.foldl fun _ _ hu => hu.cancelItems.finish).concludeRecon

theorem Keeps.execHoldEntry (h : Evolves s₀ s) : Keeps s₀ (execHoldEntry s) := by
  unfold Machine.execHoldEntry
  exact .ite h.next (.ite h.next (.next (.failQueuedWrites (.ite h.journalOnFlash.commitResets.wr.setMode
      h.journalOnFlash.commitResets.wr.setMode.wr))))

theorem Evolves.leaveHold (h : Evolves s₀ s) : Evolves s₀ s.leaveHold :=
  .resumeQueue (.startPeers (.ite h.setMode.enterReadonly.abandonQueue h.setMode))

theorem Keeps.execStopClear {t : Nat} (h : Evolves s₀ s) : Keeps s₀ (execStopClear t s) := by
  unfold Machine.execStopClear
  extract_lets s1 p s2 b s3 c
  have h1 : Evolves s₀ s1 := h.at
  have h2 : Evolves s₀ s2 := .setFlag h1.fields
  have h3 : Evolves s₀ s3 := h2.fields
  clear_value s3
  split
  · exact h1.next
  · exact .ite h1.next (.ite (.next (.wr h3.fields)) (.ite h3.leaveHold.next (.ite h3.nextAct.next h3.resumeQueue.next)))

theorem Keeps.execThermalTrip (h : Evolves s₀ s) : Keeps s₀ (execThermalTrip s) := by
  unfold Machine.execThermalTrip
  exact .ite h.next h.fields.startEfts.stopOps.fields.record.next

/-! ### Machine/PowerLoss -/

theorem Evolves.dropItems (h : Evolves s₀ s) : Evolves s₀ s.dropItems := (h.foldl fun _ _ hu => hu.modEft).fields

theorem Evolves.dropOps (h : Evolves s₀ s) : Evolves s₀ s.dropOps := h.suspendErases.fields.rewindRounds

theorem Evolves.pauseRelock (h : Evolves s₀ s) : Evolves s₀ s.pauseRelock := by
  unfold State.pauseRelock
  refine .ite h ?_
  extract_lets
  split
  · exact .ite h.haltRelock.setRunning.fields h.haltRelock
  · exact h.haltRelock

theorem Evolves.flushBuffer (h : Evolves s₀ s) : Evolves s₀ s.flushBuffer :=
  h.fields.foldl fun _ _ hu => hu.fields.getD fun _ hv => hu.flushPut hv

theorem Evolves.wakeDram (h : Evolves s₀ s) : Evolves s₀ s.wakeDram := h.foldl fun _ _ hu => .ite hu.bump.wr (hu.thenIf (·.wr))

theorem Evolves.startFlush (h : Evolves s₀ s) : Evolves s₀ s.startFlush :=
  h.dropHoldup.abortTest.fields.setFlag.pauseRelock.setChoState.dropItems.dropOps.wakeDram.flushBuffer

theorem Evolves.pwrfail (h : Evolves s₀ s) : Evolves s₀ s.pwrfail := by
  unfold State.pwrfail
  exact .ite h.fields (.ite h.fields.dropHoldup.fields (.ite h.fields.fields.wakeSource (.ite (.fields (.dropHoldup (.ite h.fields.wr h.fields)))
      (.startFlush (.ite h.fields.wr h.fields)))))

theorem Keeps.execPwrfailNAssert {width t : Nat} (h : Evolves s₀ s) : Keeps s₀ (execPwrfailNAssert width t s) := by
  unfold Machine.execPwrfailNAssert
  exact .ite h.at.next (.ite h.at.pwrfail.next (.next (.ite h.at.free.pwrfail h.at.free)))

theorem Evolves.stagedToNand (h : Evolves s₀ s) : Evolves s₀ s.stagedToNand := by
  unfold State.stagedToNand
  exact h.elseIf (·.fields)

theorem Keeps.execFlushComplete {room : Bool} {t : Nat} (h : Evolves s₀ s) : Keeps s₀ (execFlushComplete room t s) := by
  unfold Machine.execFlushComplete
  refine .ite h.at.next ?_
  extract_lets
  split
  · exact .next (.perstRelease (.record (.wr (.wr (.ite (.fields (.fields (.stagedToNand (.ite
        h.at.journalOnFlash.fields.commitResets.commitRemaps.noteFrame h.at)))) (.fields (.stagedToNand (.ite
        h.at.journalOnFlash.fields.commitResets.commitRemaps.noteFrame h.at))))))))
  · exact .next (.record (.wr (.wr (.ite (.fields (.fields (.stagedToNand (.ite h.at.journalOnFlash.fields.commitResets.commitRemaps.noteFrame
        h.at)))) (.fields (.stagedToNand (.ite h.at.journalOnFlash.fields.commitResets.commitRemaps.noteFrame h.at)))))))

theorem Keeps.execPwrfailNDeassert {t : Nat} (h : Evolves s₀ s) : Keeps s₀ (execPwrfailNDeassert t s) := by
  unfold Machine.execPwrfailNDeassert
  exact .ite h.at.next (.ite h.at.fields.fields.sncNext.next h.at.fields.next)

theorem Evolves.dropCopies (h : Evolves s₀ s) : Evolves s₀ s.dropCopies := h.foldl fun _ _ hu => hu.releaseStripe

theorem Evolves.resumeStart (h : Evolves s₀ s) : Evolves s₀ s.resumeStart := by
  unfold State.resumeStart
  exact .ite h.fields.wr.wr.wr.setChoState (.enterStage (.ite h.fields.wr.wr.wr.setChoState.fields.startChorus.wr.startHoldup
      h.fields.wr.wr.wr.setChoState.fields.startChorus.wr))

theorem Evolves.recover (h : Evolves s₀ s) : Evolves s₀ s.recover := by
  unfold State.recover
  refine .ite h.fields.sncNext.resumeStart (.ite h.fields.sncNext (.ite h.fields.sncNext.fields.setFlag.dropCopies.refreshXlt (.concludeRecon
      (.startPeers (.ite (.setChoState (.ite (.nextAct (.ite (.ite (.beginRelock ?_) ?_) (.needRelock ?_))) (.resumeQueue (.ite (.ite
      (.beginRelock ?_) ?_) (.needRelock ?_))))) (.ite (.nextAct (.ite (.ite (.beginRelock ?_) ?_) (.needRelock ?_))) (.resumeQueue (.ite (.ite
      (.beginRelock ?_) ?_) (.needRelock ?_)))))))))
  · split
    · exact .ite h.fields.sncNext.fields.setFlag.dropCopies.refreshXlt.startHoldup h.fields.sncNext.fields.setFlag.dropCopies.refreshXlt
    · exact h.fields.sncNext.fields.setFlag.dropCopies.refreshXlt
  · split
    · exact .ite h.fields.sncNext.fields.setFlag.dropCopies.refreshXlt.startHoldup h.fields.sncNext.fields.setFlag.dropCopies.refreshXlt
    · exact h.fields.sncNext.fields.setFlag.dropCopies.refreshXlt
  · split
    · exact .ite h.fields.sncNext.fields.setFlag.dropCopies.refreshXlt.startHoldup h.fields.sncNext.fields.setFlag.dropCopies.refreshXlt
    · exact h.fields.sncNext.fields.setFlag.dropCopies.refreshXlt
  · split
    · exact .ite h.fields.sncNext.fields.setFlag.dropCopies.refreshXlt.startHoldup h.fields.sncNext.fields.setFlag.dropCopies.refreshXlt
    · exact h.fields.sncNext.fields.setFlag.dropCopies.refreshXlt
  · split
    · exact .ite h.fields.sncNext.fields.setFlag.dropCopies.refreshXlt.startHoldup h.fields.sncNext.fields.setFlag.dropCopies.refreshXlt
    · exact h.fields.sncNext.fields.setFlag.dropCopies.refreshXlt
  · split
    · exact .ite h.fields.sncNext.fields.setFlag.dropCopies.refreshXlt.startHoldup h.fields.sncNext.fields.setFlag.dropCopies.refreshXlt
    · exact h.fields.sncNext.fields.setFlag.dropCopies.refreshXlt
  · split
    · exact .ite h.fields.sncNext.fields.setFlag.dropCopies.refreshXlt.startHoldup h.fields.sncNext.fields.setFlag.dropCopies.refreshXlt
    · exact h.fields.sncNext.fields.setFlag.dropCopies.refreshXlt
  · split
    · exact .ite h.fields.sncNext.fields.setFlag.dropCopies.refreshXlt.startHoldup h.fields.sncNext.fields.setFlag.dropCopies.refreshXlt
    · exact h.fields.sncNext.fields.setFlag.dropCopies.refreshXlt
  · split
    · exact .ite h.fields.sncNext.fields.setFlag.dropCopies.refreshXlt.startHoldup h.fields.sncNext.fields.setFlag.dropCopies.refreshXlt
    · exact h.fields.sncNext.fields.setFlag.dropCopies.refreshXlt
  · split
    · exact .ite h.fields.sncNext.fields.setFlag.dropCopies.refreshXlt.startHoldup h.fields.sncNext.fields.setFlag.dropCopies.refreshXlt
    · exact h.fields.sncNext.fields.setFlag.dropCopies.refreshXlt
  · split
    · exact .ite h.fields.sncNext.fields.setFlag.dropCopies.refreshXlt.startHoldup h.fields.sncNext.fields.setFlag.dropCopies.refreshXlt
    · exact h.fields.sncNext.fields.setFlag.dropCopies.refreshXlt
  · split
    · exact .ite h.fields.sncNext.fields.setFlag.dropCopies.refreshXlt.startHoldup h.fields.sncNext.fields.setFlag.dropCopies.refreshXlt
    · exact h.fields.sncNext.fields.setFlag.dropCopies.refreshXlt

theorem Keeps.execPwrfailNRecovery {t : Nat} (h : Evolves s₀ s) : Keeps s₀ (execPwrfailNRecovery t s) := by
  unfold Machine.execPwrfailNRecovery
  exact .ite h.at.next h.at.recover.next

theorem Evolves.pwrfailStuck (h : Evolves s₀ s) : Evolves s₀ s.pwrfailStuck := by
  unfold State.pwrfailStuck
  exact .ite (h.thenIf (·.fields.wr)).fields.setFlag.sncNext.record.fields.wr (.ite (h.thenIf (·.fields.wr)).fields.setFlag.sncNext.record (.ite
      (.stuckQuiesce (.ite (h.thenIf (·.fields.wr)).fields.setFlag.sncNext.record.setChoState (h.thenIf
      (·.fields.wr)).fields.setFlag.sncNext.record)) (.concludeRecon (.startPeers (.enterReadonly (.stuckQuiesce (.ite (h.thenIf
      (·.fields.wr)).fields.setFlag.sncNext.record.setChoState (h.thenIf (·.fields.wr)).fields.setFlag.sncNext.record)))))))

theorem Keeps.execPwrfailNStuck {t : Nat} (h : Evolves s₀ s) : Keeps s₀ (execPwrfailNStuck t s) := by
  unfold Machine.execPwrfailNStuck
  exact .ite h.at.next h.at.pwrfailStuck.next

theorem Keeps.execVddAonLoss {t : Nat} (h : Evolves s₀ s) : Keeps s₀ (execVddAonLoss t s) := by
  unfold Machine.execVddAonLoss
  exact .ite h.at.next (.next (.railsOff (.ite h.at.loseCounts.fields h.at)))

/-! ### Machine/Dram -/

theorem Evolves.modDctl {ch : Nat} {g : DramCtl → DramCtl} (h : Evolves s₀ s) : Evolves s₀ (s.modDctl ch g) := h.fields

theorem Evolves.retireRegion {ch line : Nat} (h : Evolves s₀ s) : Evolves s₀ (s.retireRegion ch line) := by
  unfold State.retireRegion
  exact h.elseIf (·.fields.wr.record)

theorem Evolves.corrected {ch line : Nat} (h : Evolves s₀ s) : Evolves s₀ (s.corrected ch line) := by
  unfold State.corrected
  exact .ite h.fields.bump.retireRegion h.fields.bump

theorem Evolves.lostLine {region unit : Nat} (h : Evolves s₀ s) : Evolves s₀ (s.lostLine region unit) := by
  unfold State.lostLine
  extract_lets
  split
  · exact (h.thenIf (·.loseClutches)).fields.refreshCrit
  · exact h.fields
  · refine .refreshCrit (.fields ?_)
    split
    · exact h
    · exact h.loseClutches
  · exact h.internalRestart
  · exact h

theorem Evolves.ecc {ch line : Nat} {e : EccSeen} (h : Evolves s₀ s) : Evolves s₀ (s.ecc ch line e) := by
  unfold State.ecc
  exact .ite h (.ite h.wr.setFlag.wr.corrected h.wr.setFlag.wr.bump.fields.record.retireRegion.lostLine)

theorem Evolves.runDram {ch sub n : Nat} (h : Evolves s₀ s) : Evolves s₀ (s.runDram ch sub n) := h.modDctl

theorem Evolves.makeRoom {ch sub k : Nat} (h : Evolves s₀ s) : Evolves s₀ (State.makeRoom ch sub k s) := by
  induction k generalizing s with
  | zero => exact h
  | succ k ih => exact .ite (ih h.runDram) h

theorem Evolves.enqueue {ch : Nat} {r : DramReq} {partly : Bool} (h : Evolves s₀ s) : Evolves s₀ (s.enqueue ch r partly) := by
  unfold State.enqueue
  exact .ite (.ite (.bump (.ite (h.thenIf (·.makeRoom)).bump (h.thenIf (·.makeRoom)))) (.ite (h.thenIf (·.makeRoom)).bump (h.thenIf
      (·.makeRoom)))) (.modDctl (.ite (.bump (.ite (h.thenIf (·.makeRoom)).bump (h.thenIf (·.makeRoom)))) (.ite (h.thenIf (·.makeRoom)).bump
      (h.thenIf (·.makeRoom)))))

theorem Evolves.powerUp {ch sub : Nat} (h : Evolves s₀ s) : Evolves s₀ (s.powerUp ch sub) := by
  unfold State.powerUp
  exact .ite h.modDctl.wr h.modDctl

theorem Evolves.unwindEntry (h : Evolves s₀ s) : Evolves s₀ s.unwindEntry := by
  unfold State.unwindEntry
  exact h.elseIf (·.bump.wr.wr)

theorem Keeps.execDramRequest {r : DramArgs} {ecc : EccSeen} {slots t : Nat} (h : Evolves s₀ s) : Keeps s₀ (execDramRequest r ecc slots t s) := by
  refine .inRange ?_
  extract_lets
  split
  · exact h.at.next
  · exact h.at.next
  · exact h.at.next
  · exact h.at.modDctl.unwindEntry.next
  · exact h.at.modDctl.unwindEntry.next
  · exact .next (.ite (.runDram (.enqueue (.powerUp (.ite h.at.bump.wr.unwindEntry h.at)))) (.ecc (.runDram (.enqueue (.powerUp (.ite
        h.at.bump.wr.unwindEntry h.at))))))

theorem Keeps.execStreamStarveTimeout {ch t : Nat} (h : Evolves s₀ s) : Keeps s₀ (execStreamStarveTimeout ch t s) := h.at.modDctl.next.inRange

theorem Keeps.execRefreshDue {ch sub bank : Nat} (h : Evolves s₀ s) : Keeps s₀ (execRefreshDue ch sub bank s) :=
  .inRange (.inRange (.ite h.next (.ite h.modDctl.next (.ite h.modDctl.wr.next h.modDctl.bump.next))))

theorem Keeps.execMr4Read {ch sub : Nat} {fast : Bool} (h : Evolves s₀ s) : Keeps s₀ (execMr4Read ch sub fast s) :=
  .inRange (.inRange (.ite h.next h.modDctl.setFlag.next))

theorem Keeps.execDqsOscillatorRead {ch : Nat} {drifts : List Int} (h : Evolves s₀ s) : Keeps s₀ (execDqsOscillatorRead ch drifts s) :=
  .inRange (.ite h.next (h.foldl fun _ _ hu => hu.wr.modDctl).next)

theorem Keeps.execLaneRetrainSlice {ch lane : Nat} {done : Bool} {rdly wdly reye weye : Nat} (h : Evolves s₀ s) :
    Keeps s₀ (execLaneRetrainSlice ch lane done rdly wdly reye weye s) :=
  .inRange (.ite h.next h.modDctl.wr.wr.wr.wr.next)

theorem Keeps.execDramPowerDownEntry {ch sub t : Nat} (h : Evolves s₀ s) : Keeps s₀ (execDramPowerDownEntry ch sub t s) :=
  .inRange (.inRange (.ite h.at.next (.next (.ite h.at.modDctl.wr h.at.modDctl))))

theorem Keeps.execSelfRefreshEntry {ch : Nat} {sre : Bool} (h : Evolves s₀ s) : Keeps s₀ (execSelfRefreshEntry ch sre s) :=
  .inRange (.ite h.next (.ite (h.thenIf (·.wr)).next (.ite h.next h.modDctl.wr.next)))

theorem Keeps.execSelfRefreshExit {ch : Nat} {armed : Bool} {t : Nat} (h : Evolves s₀ s) : Keeps s₀ (execSelfRefreshExit ch armed t s) :=
  .inRange (.ite (.next (.ite h.at.wr h.at)) (.ite h.at.next (h.at.modDctl.wr.foldl fun _ _ hu => hu.enqueue.runDram).next))

theorem Keeps.execPatrolScrub {ch line : Nat} {ecc : EccSeen} {last : Bool} {t : Nat} (h : Evolves s₀ s) :
    Keeps s₀ (execPatrolScrub ch line ecc last t s) :=
  .inRange (.ite h.at.next (.next (.ecc (.ite h.at.count h.at))))

/-! ### Machine/Island -/

theorem Evolves.setHe {n : Nat} {e : HashEngine} (h : Evolves s₀ s) : Evolves s₀ (s.setHe n e) := h.secFields

theorem Evolves.heClear {n : Nat} (h : Evolves s₀ s) : Evolves s₀ (s.heClear n) := h.wr.wr.wr.wr.wr.wr.setHe.secFields

theorem Evolves.heKill {n : Nat} (h : Evolves s₀ s) : Evolves s₀ (s.heKill n) := h.heClear.wr

theorem Evolves.heTake {n r alg outlen : Nat} (h : Evolves s₀ s) : Evolves s₀ (s.heTake n r alg outlen) := h.heClear.wr.wr.wr.wr

theorem Evolves.heIntrude {n : Nat} (h : Evolves s₀ s) : Evolves s₀ (s.heIntrude n) := h.wr

theorem Evolves.heFinal {n tailb : Nat} (h : Evolves s₀ s) : Evolves s₀ (s.heFinal n tailb) := by
  unfold State.heFinal
  exact h.elseIf (·.setHe.wr)

theorem Evolves.heCtl {r n v : Nat} (h : Evolves s₀ s) : Evolves s₀ (s.heCtl r n v) := by
  unfold State.heCtl
  exact .ite (h.thenIf (·.heTake)).heIntrude (.ite (.heClear (.ite (h.thenIf (·.heTake)).heFinal (h.thenIf (·.heTake)))) (.ite (h.thenIf
      (·.heTake)).heFinal (h.thenIf (·.heTake))))

theorem Evolves.heData {r n v : Nat} (h : Evolves s₀ s) : Evolves s₀ (s.heData r n v) := by
  unfold State.heData
  exact .ite h.heIntrude (h.elseIf (·.setHe))

theorem Evolves.heRead {r n k : Nat} (h : Evolves s₀ s) : Evolves s₀ (s.heRead r n k).2 := by
  unfold State.heRead
  exact (h.thenIf (·.heClear)).pair

theorem Keeps.onHe {n : Nat} {k : Result} (hk : Keeps s₀ k) : Keeps s₀ (onHe n k) := hk.inRange

theorem Keeps.execSecHeClaim {requester n alg outlen : Nat} (h : Evolves s₀ s) : Keeps s₀ (execSecHeClaim requester n alg outlen s) :=
  .onHe (.winWrite h fun _ hu => hu.heCtl)

theorem Keeps.execSecHeDataWrite {requester n value : Nat} (h : Evolves s₀ s) : Keeps s₀ (execSecHeDataWrite requester n value s) :=
  .onHe (.winWrite h fun _ hu => hu.heData)

theorem Keeps.execSecHeFinal {requester n tailb : Nat} (h : Evolves s₀ s) : Keeps s₀ (execSecHeFinal requester n tailb s) :=
  .onHe (.winWrite h fun _ hu => hu.heCtl)

theorem Keeps.execSecHeRelease {requester n : Nat} (h : Evolves s₀ s) : Keeps s₀ (execSecHeRelease requester n s) :=
  .onHe (.winWrite h fun _ hu => hu.heCtl)

theorem Keeps.execHashEngineDone {n : Nat} (h : Evolves s₀ s) : Keeps s₀ (execHashEngineDone n s) := .onHe (.ite h.next h.setHe.wr.wr.next)

theorem Keeps.execSecHeDigestLastRead {requester n : Nat} (h : Evolves s₀ s) : Keeps s₀ (execSecHeDigestLastRead requester n s) :=
  .onHe (.winRead h fun _ hu => hu.heRead)

theorem Evolves.keNoTag (h : Evolves s₀ s) : Evolves s₀ s.keNoTag := h.foldl fun _ _ hu => hu.wr

theorem Evolves.keDrop (h : Evolves s₀ s) : Evolves s₀ s.keDrop := h.secFields.wr.wr.keNoTag

theorem Evolves.keFail {code : Nat} (h : Evolves s₀ s) : Evolves s₀ (s.keFail code) := h.keDrop.wr

theorem Evolves.keRelease (h : Evolves s₀ s) : Evolves s₀ s.keRelease := h.keDrop.wr.wr.wr.wr

theorem Evolves.keStart {op : Nat} (h : Evolves s₀ s) : Evolves s₀ (s.keStart op) := by
  unfold State.keStart
  refine .ite h.keDrop.wr.keFail (.ite h.keDrop.wr.keFail ?_)
  split
  · exact h.keDrop.wr.keFail
  · exact h.keDrop.wr.secFields.wr

theorem Evolves.keCtl {r v : Nat} (h : Evolves s₀ s) : Evolves s₀ (s.keCtl r v) := by
  unfold State.keCtl
  exact .ite (h.thenIf (·.keRelease.wr.wr)) (.ite (.keRelease (.ite (.keStart (.ite (h.thenIf (·.keRelease.wr.wr)).wr.keDrop (h.thenIf
      (·.keRelease.wr.wr)).wr)) (.ite (h.thenIf (·.keRelease.wr.wr)).wr.keDrop (h.thenIf (·.keRelease.wr.wr)).wr))) (.ite (.keStart (.ite
      (h.thenIf (·.keRelease.wr.wr)).wr.keDrop (h.thenIf (·.keRelease.wr.wr)).wr)) (.ite (h.thenIf (·.keRelease.wr.wr)).wr.keDrop (h.thenIf
      (·.keRelease.wr.wr)).wr)))

theorem Evolves.keData {r v : Nat} (h : Evolves s₀ s) : Evolves s₀ (s.keData r v) := by
  unfold State.keData
  split
  · exact .ite h.keFail h.secFields
  · exact h

theorem Evolves.keDone (h : Evolves s₀ s) : Evolves s₀ s.keDone := h.secFields.wr.wr

theorem Evolves.keEnd {e : KeyRun} {owner source : Nat} (h : Evolves s₀ s) : Evolves s₀ (s.keEnd e owner source) := by
  unfold State.keEnd
  refine .ite (h.keDone.foldl fun _ _ hu => hu.wr) ?_
  extract_lets
  split
  · exact h.keFail
  · exact .ite h.keFail (.ite h.keFail h.setSlot.keDone)

theorem Keeps.execSecKeClaim {requester : Nat} (h : Evolves s₀ s) : Keeps s₀ (execSecKeClaim requester s) := .winWrite h fun _ hu => hu.keCtl

theorem Keeps.keStartCmd {r op : Nat} (h : Evolves s₀ s) : Keeps s₀ (keStartCmd r op s) := .winWrite h fun _ hu => hu.keCtl

theorem Keeps.execKeStartCmac {requester : Nat} (h : Evolves s₀ s) : Keeps s₀ (execKeStartCmac requester s) := .keStartCmd h

theorem Keeps.execKeStartUnwrapXts {requester : Nat} (h : Evolves s₀ s) : Keeps s₀ (execKeStartUnwrapXts requester s) := .keStartCmd h

theorem Keeps.execKeStartUnwrapAes {requester : Nat} (h : Evolves s₀ s) : Keeps s₀ (execKeStartUnwrapAes requester s) := .keStartCmd h

theorem Keeps.execSecKeDataWrite {requester value : Nat} (h : Evolves s₀ s) : Keeps s₀ (execSecKeDataWrite requester value s) :=
  .winWrite h fun _ hu => hu.keData

theorem Keeps.execKeOperationComplete {owner source : Nat} (h : Evolves s₀ s) : Keeps s₀ (execKeOperationComplete owner source s) := by
  unfold Machine.execKeOperationComplete
  split
  · exact h.next
  · exact .ite h.next h.keEnd.next

theorem Keeps.execSecKeAbort {requester : Nat} (h : Evolves s₀ s) : Keeps s₀ (execSecKeAbort requester s) := .winWrite h fun _ hu => hu.keCtl

theorem Keeps.execSecKeRelease {requester : Nat} (h : Evolves s₀ s) : Keeps s₀ (execSecKeRelease requester s) := .winWrite h fun _ hu => hu.keCtl

theorem Evolves.fillSlot {k : Nat} (h : Evolves s₀ s) : Evolves s₀ (s.fillSlot k) := h.draw.setAes

theorem Evolves.ksCmd {op : Nat} (h : Evolves s₀ s) : Evolves s₀ (s.ksCmd op) := by
  unfold State.ksCmd
  exact .ite h.zeroSlot (.ite (.ite h.fillSlot h.secFields) h)

theorem Keeps.execSecKsZero {requester : Nat} (h : Evolves s₀ s) : Keeps s₀ (execSecKsZero requester s) := .winWrite h fun _ hu => hu.ksCmd

theorem Keeps.execSecKsFill {requester : Nat} (h : Evolves s₀ s) : Keeps s₀ (execSecKsFill requester s) := .winWrite h fun _ hu => hu.ksCmd

theorem Evolves.trngRead (h : Evolves s₀ s) : Evolves s₀ s.trngRead.2 := by
  unfold State.trngRead
  split
  · exact .pair (h.draw (n := 4))
  · exact h

theorem Keeps.execSecTrngDataRead {requester : Nat} (h : Evolves s₀ s) : Keeps s₀ (execSecTrngDataRead requester s) :=
  .winRead h fun _ hu => hu.trngRead

theorem Evolves.islandLost (h : Evolves s₀ s) : Evolves s₀ s.islandLost := by
  unfold State.islandLost
  exact (h.foldl fun _ _ hu => hu.heKill).keRelease.wr.secFields.reloadDevice

theorem Keeps.execSecurityAlarm {kind engine : Nat} (h : Evolves s₀ s) : Keeps s₀ (execSecurityAlarm kind engine s) := by
  refine .inRange (.ite h.next ?_)
  split
  · exact h.alarm.islandLost.next
  · exact h.alarm.islandLost.next
  · exact h.alarm.next
  · exact h.alarm.bump.wr.wr.next
  · exact .inRange (.next (.ite h.alarm.keRelease.wr h.alarm.heKill))

/-! ### Machine/Protocol -/

theorem Evolves.secOp {src : Src} {lenOk pf0 : Bool} {lives : List Nat} {k : State → State} (hk : ∀ u, Evolves s₀ u → Evolves s₀ (k u))
    (h : Evolves s₀ s) :
    Evolves s₀ (secOp src lenOk pf0 lives k s) := by
  unfold Machine.secOp
  exact .ite h.err (.ite h.err (.ite h.err (hk _ h)))

theorem Keeps.execSecurityProtocolList {src : Src} (h : Evolves s₀ s) : Keeps s₀ (execSecurityProtocolList src s) := .host h fun _ hu => hu.done

theorem Keeps.execIdentity {src : Src} {len : Nat} (h : Evolves s₀ s) : Keeps s₀ (execIdentity src len s) :=
  .host h fun _ hu => .secOp (fun _ hv => hv.done) hu

theorem Evolves.setAttests {l : List Attest} (h : Evolves s₀ s) : Evolves s₀ (s.setAttests l) := h.secFields

theorem Evolves.refuseWaiting (h : Evolves s₀ s) : Evolves s₀ s.refuseWaiting := h.setAttests.foldl fun _ _ hu => hu.foldl fun _ _ hv => hv.err

theorem Evolves.signNext {ok : Bool} (h : Evolves s₀ s) : Evolves s₀ (s.signNext ok) := by
  unfold State.signNext
  refine .ite h ?_
  split
  · exact h
  · exact .ite h.ensureRsv.refuseWaiting h.ensureRsv.setAttests

theorem Evolves.addAttest {f : Nat} {nonce : Bytes} (h : Evolves s₀ s) : Evolves s₀ (s.addAttest f nonce) := by
  unfold State.addAttest
  split <;> exact h.setAttests

theorem Evolves.attestRequest {src : Src} {data : Bytes} {rsvOk : Bool} (h : Evolves s₀ s) : Evolves s₀ (attestRequest src data rsvOk s) := by
  unfold Machine.attestRequest
  exact .ite h.err (.ite h.err (.ite (h.elseIf (·.ensureRsv)).refuseWaiting.err (h.elseIf (·.ensureRsv)).addAttest.signNext.ok))

theorem Keeps.execAttestRequest {src : Src} {data : Bytes} {rsvOk : Bool} (h : Evolves s₀ s) : Keeps s₀ (execAttestRequest src data rsvOk s) :=
  .host h fun _ hu => .secOp (fun _ hv => hv.attestRequest) hu

theorem Keeps.execReportSignatureComplete {rsvOk : Bool} {t : Nat} (h : Evolves s₀ s) : Keeps s₀ (execReportSignatureComplete rsvOk t s) := by
  unfold Machine.execReportSignatureComplete
  extract_lets
  split
  · exact h.at.next
  · exact (h.at.setAttests.foldl fun _ _ hu => hu.done).useIndex.signNext.next

theorem Evolves.attestReport {src : Src} (h : Evolves s₀ s) : Evolves s₀ (attestReport src s) := by
  unfold Machine.attestReport
  split
  · exact h.err
  · exact .ite h.setAttests.done h.keepTag.setAttests

theorem Keeps.execAttestReport {src : Src} {len : Nat} (h : Evolves s₀ s) : Keeps s₀ (execAttestReport src len s) :=
  .host h fun _ hu => .secOp (fun _ hv => hv.attestReport) hu

theorem Keeps.execAttestReportDiscard {fn t : Nat} (h : Evolves s₀ s) : Keeps s₀ (execAttestReportDiscard fn t s) := h.at.setAttests.next.onFn

theorem Evolves.feedAt {f n : Nat} (h : Evolves s₀ s) : Evolves s₀ (s.feedAt f n) := h.secFields

theorem Evolves.hashOpen {src : Src} {data : Bytes} (h : Evolves s₀ s) : Evolves s₀ (hashOpen src data s) := by
  unfold Machine.hashOpen
  refine .ite h.err (.ite h.err ?_)
  split
  · exact h.err
  · exact h.heTake.feedAt.ok

theorem Keeps.execHashOpen {src : Src} {data : Bytes} {t : Nat} (h : Evolves s₀ s) : Keeps s₀ (execHashOpen src data t s) :=
  .host h fun _ hu => .secOp (fun _ hv => hv.at.hashOpen) hu

theorem Evolves.onSession {src : Src} {k : Nat → State → State} (hk : ∀ x0 u, Evolves s₀ u → Evolves s₀ (k x0 u)) (h : Evolves s₀ s) :
    Evolves s₀ (onSession src k s) := by
  unfold Machine.onSession
  split
  · exact h.err
  · exact hk _ _ h

theorem Keeps.execHashFeed {src : Src} {data : Bytes} {t : Nat} (h : Evolves s₀ s) : Keeps s₀ (execHashFeed src data t s) :=
  .host h fun _ hu => .secOp (fun _ hv => .onSession (fun _ _ hw3 => hw3.setHe.feedAt.ok) hv.at) hu

theorem Keeps.execHashFinish {src : Src} {len : Nat} (h : Evolves s₀ s) : Keeps s₀ (execHashFinish src len s) :=
  .host h fun _ hu => .secOp (fun _ hv => .onSession (fun _ _ hw3 => hw3.heClear.done) hv) hu

theorem Keeps.execHashRelease {src : Src} {len : Nat} (h : Evolves s₀ s) : Keeps s₀ (execHashRelease src len s) :=
  .host h fun _ hu => .secOp (fun _ hv => .onSession (fun _ _ hw3 => hw3.heClear.ok) hv) hu

theorem Evolves.endSession {f : Nat} (h : Evolves s₀ s) : Evolves s₀ (s.endSession f) := by
  unfold State.endSession
  split
  · exact h.heClear
  · exact h

theorem Keeps.execHashSessionTimeout {fn t : Nat} (h : Evolves s₀ s) : Keeps s₀ (execHashSessionTimeout fn t s) :=
  .onFn (.next (.ite h.at.endSession h.at))

theorem Evolves.challengeNow {src : Src} (h : Evolves s₀ s) : Evolves s₀ (challengeNow src s) := by
  unfold Machine.challengeNow
  exact .done (.secFields h.draw)

theorem Keeps.execLifecycleChallenge {src : Src} {len : Nat} (h : Evolves s₀ s) : Keeps s₀ (execLifecycleChallenge src len s) :=
  .host h fun _ hu => .secOp (fun _ hv => .ite hv.challengeNow hv.trngWait) hu

theorem Evolves.setLife {k : Nat} (h : Evolves s₀ s) : Evolves s₀ (s.setLife k) := h.otpSet.refreshOtp

theorem Evolves.scrap (h : Evolves s₀ s) : Evolves s₀ s.scrap := h.setLife.otpSet.secFields.wr

theorem Evolves.advanceLife {src : Src} {data : Bytes} {nonce : Option Bytes} (h : Evolves s₀ s) : Evolves s₀ (advanceLife src data nonce s) := by
  unfold Machine.advanceLife
  exact .ite h.err (.ite h.err (.ite h.err (.ite h.err (.ite h.err (.ite h.err (.ite h.err (.ok (.ite h.scrap h.setLife))))))))

theorem Keeps.execLifecycleAdvance {src : Src} {data : Bytes} (h : Evolves s₀ s) : Keeps s₀ (execLifecycleAdvance src data s) :=
  .host h fun _ hu => .secOp (fun _ hv => hv.advanceLife) hu.secFields

theorem Evolves.drawIdentity {g : Nat} (h : Evolves s₀ s) : Evolves s₀ (s.drawIdentity g) := h.draw.otpSet

theorem Keeps.execLifecycleProvision {uid serial : Bytes} {media : Nat} {digests : List Bytes} {dflt controls floor : Nat} (h : Evolves s₀ s) :
    Keeps s₀ (execLifecycleProvision uid serial media digests dflt controls floor s) := by
  unfold Machine.execLifecycleProvision
  exact .ite h.next (h.otpSet.otpSet.otpSet.otpSet.otpSet.draw.otpSet.foldl fun _ _ hu => hu.drawIdentity).otpSet.setLife.next

theorem Evolves.installKek {k : Bytes} (h : Evolves s₀ s) : Evolves s₀ (s.installKek k) := h.writeKeys.setAes

theorem Evolves.hostKek {src : Src} {data : Bytes} (h : Evolves s₀ s) : Evolves s₀ (hostKek src data s) := by
  unfold Machine.hostKek
  refine .ite h.installKek.ok ?_
  split
  · exact h.err
  · split
    · exact h.err
    · exact h.installKek.ok

theorem Keeps.execHostKek {src : Src} {data : Bytes} (h : Evolves s₀ s) : Keeps s₀ (execHostKek src data s) :=
  .host h fun _ hu => .secOp (fun _ hv => hv.hostKek) hu

theorem Evolves.advanceSettings {g : Nat} {b : Bytes} (h : Evolves s₀ s) : Evolves s₀ (s.advanceSettings g b) := by
  refine .refreshOtp ?_
  split
  · exact h.otpSet.otpSet
  · exact h.otpSet

theorem Keeps.execSettingsAdvance {src : Src} {data : Bytes} (h : Evolves s₀ s) : Keeps s₀ (execSettingsAdvance src data s) := by
  refine .host h fun _ hu => .secOp (fun _ hv => .ite hv.err ?_) hu
  split
  · exact hv.err.fields
  · exact .ite hv.advanceSettings.ok hv.err

theorem Keeps.execKeyInjection {src : Src} {tag : Nat} {blob : Bytes} (h : Evolves s₀ s) : Keeps s₀ (execKeyInjection src tag blob s) := by
  refine .host h fun _ hu => ?_
  split
  · exact hu.err
  · split
    · exact hu.err
    · split
      · exact hu.err
      · exact .ite hu.err hu.setSlot.settleFlags.ok

theorem Keeps.execKeyClear {src : Src} {tag : Nat} (h : Evolves s₀ s) : Keeps s₀ (execKeyClear src tag s) := by
  refine .host h fun _ hu => ?_
  split
  · exact hu.err
  · exact hu.zeroSlot.retryShrink.ok

/-! ### Machine/Sanitize -/

theorem Evolves.zeroFnSlots (h : Evolves s₀ s) : Evolves s₀ s.zeroFnSlots := h.secFields

theorem Evolves.endAllIo (h : Evolves s₀ s) : Evolves s₀ s.endAllIo := (h.foldl fun _ _ hu => hu.cancelItems.finish).concludeRecon

theorem Evolves.dropAllData (h : Evolves s₀ s) : Evolves s₀ s.dropAllData := h.nextGen.foldl fun _ _ hu => hu.dropData

theorem Evolves.releaseAll (h : Evolves s₀ s) : Evolves s₀ s.releaseAll :=
  ((h.fields.foldl fun _ _ hu => hu.releaseStripe).foldl fun _ _ hu => hu.releaseSeg).fields

theorem Evolves.unassignAll (h : Evolves s₀ s) : Evolves s₀ s.unassignAll := h.foldl fun _ _ hu => hu.unassign

theorem Evolves.newKeys (h : Evolves s₀ s) : Evolves s₀ s.newKeys := h.foldl fun _ _ hu => hu.newKey

theorem Evolves.cryptoErase (h : Evolves s₀ s) : Evolves s₀ s.cryptoErase :=
  (h.endAllIo.zeroFnSlots.newKeys.dropAllData.releaseAll.foldl fun _ _ hu => hu.bindHomes).unassignAll.refreshXlt

theorem Evolves.sanitizeNow {src : Src} {block ause : Bool} (h : Evolves s₀ s) : Evolves s₀ (sanitizeNow src block ause s) :=
  h.abortTest.fields.setMode.cryptoErase.ok

theorem Evolves.sanitizeCmd {src : Src} {block ause ndas : Bool} (h : Evolves s₀ s) : Evolves s₀ (sanitizeCmd src block ause ndas s) := by
  unfold Machine.sanitizeCmd
  exact .ite h.err (.ite h.err (.ite h.err (.ite h.err (.ite h.err (.ite h.trngWait h.sanitizeNow)))))

theorem Keeps.execSanitizeCryptoErase {src : Src} {ause ndas : Bool} (h : Evolves s₀ s) : Keeps s₀ (execSanitizeCryptoErase src ause ndas s) :=
  .host h fun _ hu => hu.sanitizeCmd

theorem Keeps.execSanitizeBlockErase {src : Src} {ause ndas : Bool} (h : Evolves s₀ s) : Keeps s₀ (execSanitizeBlockErase src ause ndas s) :=
  .host h fun _ hu => hu.sanitizeCmd

theorem Keeps.execSanitizeOverwrite {src : Src} (h : Evolves s₀ s) : Keeps s₀ (execSanitizeOverwrite src s) := .host h fun _ hu => .ite hu.err hu.err

theorem Evolves.leaveSanitize (h : Evolves s₀ s) : Evolves s₀ s.leaveSanitize := .resumeQueue (.ite h.setMode.enterReadonly h.setMode)

theorem Keeps.execSanitizeExitFailureMode {src : Src} (h : Evolves s₀ s) : Keeps s₀ (execSanitizeExitFailureMode src s) :=
  .host h fun _ hu => .ite hu.err (.ite hu.err (.ite hu.ok (.ite hu.err hu.fields.leaveSanitize.ok)))

theorem Keeps.execSanitizeComplete {ok : Bool} (h : Evolves s₀ s) : Keeps s₀ (execSanitizeComplete ok s) := by
  unfold Machine.execSanitizeComplete
  exact .ite h.next (.ite h.fields.raise.next (.ite h.next h.fields.raise.leaveSanitize.next))

theorem Evolves.goOn {o : TrngOp} (h : Evolves s₀ s) : Evolves s₀ (goOn o s) := by
  unfold Machine.goOn
  split
  · exact h.createNs
  · exact h.formatCmd
  · exact h.sanitizeCmd
  · exact h.challengeNow
  · exact h.fillSlot

theorem Keeps.execTrngRecovery (h : Evolves s₀ s) : Keeps s₀ (execTrngRecovery s) := by
  unfold Machine.execTrngRecovery
  exact .ite h.next (h.secFields.trngResume.foldl fun _ _ hu => hu.goOn).next

theorem Keeps.execTrngWaitTimeout (h : Evolves s₀ s) : Keeps s₀ (execTrngWaitTimeout s) := by
  unfold Machine.execTrngWaitTimeout
  split
  · exact h.next
  · refine .next ?_
    split
    · exact h.secFields.err
    · exact h.secFields

/-! ### Machine/Resets -/

theorem Evolves.hostTouch (h : Evolves s₀ s) : Evolves s₀ s.hostTouch := by
  unfold State.hostTouch
  exact h.thenIf (·.wakeSource)

theorem Keeps.execCcEnSet {fn : Nat} {ams : optParam Nat 0} (h : Evolves s₀ s) : Keeps s₀ (execCcEnSet fn s ams) :=
  .onFn (.ite h.next h.hostTouch.fields.modFn.next)

theorem Evolves.runPending (h : Evolves s₀ s) : Evolves s₀ s.runPending := by
  unfold State.runPending
  split
  · exact h.fields.activate
  · exact h

theorem Keeps.execCcEnClearPf0 (h : Evolves s₀ s) : Keeps s₀ (execCcEnClearPf0 s) := by
  unfold Machine.execCcEnClearPf0
  exact .ite h.next h.hostTouch.resetFn.stopEfts.abortTest.runPending.next

theorem Evolves.beginReset {f : Nat} (h : Evolves s₀ s) : Evolves s₀ (s.beginReset f) := h.resetFn.modFn.wr.evictKeys.endSession

theorem Keeps.execVfReset {fn : Nat} (h : Evolves s₀ s) : Keeps s₀ (execVfReset fn s) := .onFn (.ite .fault (.ite h.next h.hostTouch.beginReset.next))

theorem Keeps.execPf0Flr (h : Evolves s₀ s) : Keeps s₀ (execPf0Flr s) := by
  unfold Machine.execPf0Flr
  exact .ite h.next (.next (.ite (h.hostTouch.foldl fun _ _ hu => hu.beginReset).abortTest.fields.internalRestart (h.hostTouch.foldl fun _ _ hu =>
      hu.beginReset).abortTest.fields.runPending))

theorem Keeps.execFunctionResetComplete {fn : Nat} (h : Evolves s₀ s) : Keeps s₀ (execFunctionResetComplete fn s) :=
  .onFn (.ite h.next h.stopEfts.wr.modFn.next)

theorem Keeps.execShutdownNotification {fn : Nat} (h : Evolves s₀ s) : Keeps s₀ (execShutdownNotification fn s) :=
  .onFn (.ite h.next (h.hostTouch.foldl fun _ _ hu => hu.abandonCmd).fields.modFn.settleShutdown.next)

/-! ### Machine/Window -/

theorem Evolves.readHigh {r off : Nat} (h : Evolves s₀ s) : Evolves s₀ (s.readHigh r off).2 := by
  unfold State.readHigh
  split
  · exact h.fields.pair
  · exact h.pair

theorem Evolves.latchHigh {r off : Nat} (h : Evolves s₀ s) : Evolves s₀ (s.latchHigh r off) := h.fields

theorem Evolves.readPlain {r off : Nat} (h : Evolves s₀ s) : Evolves s₀ (s.readPlain r off).2 := by
  unfold State.readPlain
  split
  · exact h.pair
  · exact h.setWord.pair

theorem Evolves.regRead {r off : Nat} (h : Evolves s₀ s) : Evolves s₀ (s.regRead r off).2 := by
  unfold State.regRead
  split
  · exact h.heRead
  · split
    · exact h.trngRead
    · split
      · exact h.readHigh
      · split
        · exact h.latchHigh.pair
        · exact h.readPlain

theorem Evolves.readWords {r off n : Nat} (h : Evolves s₀ s) : Evolves s₀ (s.readWords r off n).2.2 := by
  induction n generalizing s off with
  | zero => exact h
  | succ n ih => exact ih (h.readAt fun _ hu => hu.regRead)

theorem Evolves.readReply {r off n : Nat} (h : Evolves s₀ s) : Evolves s₀ (s.readReply r off n) := h.readWords.reply

theorem Keeps.execRegisterRead {requester offset dwords : Nat} {full : Bool} (h : Evolves s₀ s) :
    Keeps s₀ (execRegisterRead requester offset dwords full s) :=
  .inRange (.winReach h fun _ hu => .ite hu.noteErr.reply (hu.elseIf (·.noteErr)).readReply)

theorem Keeps.execLowWordReadLatch {requester offset : Nat} (h : Evolves s₀ s) : Keeps s₀ (execLowWordReadLatch requester offset s) := by
  unfold Machine.execLowWordReadLatch
  exact .ite (.winRead h fun _ hu => hu.regRead) .fault

theorem Keeps.execRcRegisterRead {requester offset : Nat} (h : Evolves s₀ s) : Keeps s₀ (execRcRegisterRead requester offset s) := by
  unfold Machine.execRcRegisterRead
  exact .ite (.winRead h fun _ hu => hu.regRead) .fault

theorem Evolves.tdWrite {r off v : Nat} (h : Evolves s₀ s) : Evolves s₀ (s.tdWrite r off v) := by
  unfold State.tdWrite
  exact .ite h.plainWrite h.plainWrite.setWord

theorem Evolves.opGo {r v : Nat} (h : Evolves s₀ s) : Evolves s₀ (s.opGo r v) := by
  unfold State.opGo
  exact .ite h.sncGo h.plainWrite

theorem Evolves.secWrite {r off v : Nat} (h : Evolves s₀ s) : Evolves s₀ (s.secWrite r off v) := by
  unfold State.secWrite
  refine .ite h.keCtl (.ite h.keData (.ite h.ksCmd ?_))
  split
  · exact h.heCtl
  · exact h.heData
  · exact h.plainWrite

theorem Evolves.regWrite {r off v : Nat} (h : Evolves s₀ s) : Evolves s₀ (s.regWrite r off v) := by
  unfold State.regWrite
  exact .ite (h.thenIf (·.setWord)) (.ite h.tdWrite (.ite h.plainWrite.refreshCrit (.ite h.opWrite (.ite h.free.avsWrite (.ite h.fenceCmd (.ite
      h.stagedWrite (.ite h.plainWrite.refreshPorts (.ite h.secWrite (.ite h.opGo (.ite h.cursorCmd (.ite h.cursorHigh h.plainWrite)))))))))))

theorem Keeps.execRegisterWrite {requester offset dwords : Nat} {full : Bool} {value : Nat} (h : Evolves s₀ s) :
    Keeps s₀ (execRegisterWrite requester offset dwords full value s) :=
  .inRange (.ite (.winWrite h fun _ hu => hu.regWrite) (.ite .fault (.ite h.next (.next (.ite h.noteErr.hostTouch h.noteErr.reply)))))

theorem Keeps.execTopLockLock {requester : Nat} (h : Evolves s₀ s) : Keeps s₀ (execTopLockLock requester s) := .winWrite h fun _ hu => hu.regWrite

theorem Keeps.execTopLockWinro {requester : Nat} (h : Evolves s₀ s) : Keeps s₀ (execTopLockWinro requester s) := .winWrite h fun _ hu => hu.regWrite

theorem Keeps.execTopErraddrValidClear {requester : Nat} (h : Evolves s₀ s) : Keeps s₀ (execTopErraddrValidClear requester s) :=
  .winWrite h fun _ hu => hu.regWrite

theorem Keeps.execWindowAccessInLowPower {offset : Nat} (h : Evolves s₀ s) : Keeps s₀ (execWindowAccessInLowPower offset s) :=
  .inRange (.ite h.lowPowerAccess.next h.next)

theorem Evolves.stateOf {r : Result} (h : Evolves s₀ s) (hr : Keeps s₀ r) : Evolves s₀ (stateOf r s) := by
  unfold Machine.stateOf
  split
  · exact hr.evolves _ rfl
  · exact h

theorem Evolves.forward {a : Bool × Nat × Nat} (h : Evolves s₀ s) : Evolves s₀ (s.forward a) :=
  h.stateOf (.ite (.winWrite h fun _ hu => hu.regWrite) (.execRegisterRead h))

theorem Keeps.execWakeEvent {fails : Nat} {dimms : List Dimm} {t : Nat} (h : Evolves s₀ s) : Keeps s₀ (execWakeEvent fails dimms t s) := by
  unfold Machine.execWakeEvent
  extract_lets
  split
  · exact h.at.next
  · exact (h.at.wakeNow.fields.foldl fun _ _ hu => hu.forward).next

/-! ### Every command, every step -/

/-- Every command's result keeps what `Evolves` says, and none is refused. -/
theorem exec_keeps (h : Evolves s₀ s) (c : Instr) : Keeps s₀ (exec c s) := by
  cases c with
  | write => exact .execWrite h
  | read => exact .execRead h
  | compare => exact .execCompare h
  | verify => exact .execVerify h
  | writeZeroes => exact .execWriteZeroes h
  | datasetManagement => exact .execDatasetManagement h
  | zoneAppend => exact .execZoneAppend h
  | zoneOpen => exact .execZoneOpen h
  | zoneClose => exact .execZoneClose h
  | zoneFinish => exact .execZoneFinish h
  | zoneReset => exact .execZoneReset h
  | reportZones => exact .execReportZones h
  | flush => exact .execFlush h
  | abort => exact .execAbort h
  | orderedWrite => exact .execOrderedWrite h
  | locatorAppend => exact .execLocatorAppend h
  | readByLocator => exact .execReadByLocator h
  | verifiedPrecompressedWrite => exact .execVerifiedPrecompressedWrite h
  | reconstruct => exact .execReconstruct h
  | digestRange => exact .execDigestRange h
  | namespaceManagementCreate => exact .execNamespaceManagementCreate h
  | namespaceManagementDelete => exact .execNamespaceManagementDelete h
  | namespaceAttach => exact .execNamespaceAttach h
  | namespaceDetach => exact .execNamespaceDetach h
  | formatNvm => exact .execFormatNvm h
  | sanitizeCryptoErase => exact .execSanitizeCryptoErase h
  | sanitizeBlockErase => exact .execSanitizeBlockErase h
  | sanitizeExitFailureMode => exact .execSanitizeExitFailureMode h
  | sanitizeOverwrite => exact .execSanitizeOverwrite h
  | sanitizeComplete => exact .execSanitizeComplete h
  | setFeaturesNumberOfQueues => exact .execSetFeaturesNumberOfQueues h
  | setFeaturesPlmConfig => exact .execSetFeaturesPlmConfig h
  | setFeaturesPlmWindow => exact .execSetFeaturesPlmWindow h
  | setFeaturesHctm => exact .execSetFeaturesHctm h
  | setFeaturesPowerManagement => exact .execSetFeaturesPowerManagement h
  | setFeaturesZonePhysicalStatus => exact .execSetFeaturesZonePhysicalStatus h
  | getFeaturesZonePhysicalStatus => exact .execGetFeaturesZonePhysicalStatus h
  | getFeaturesPlmWindow => exact .execGetFeaturesPlmWindow h
  | getLogPageSmart => exact .execGetLogPageSmart h
  | getLogPageLyskinHealth => exact .execGetLogPageLyskinHealth h
  | getLogPageChorusSchedule => exact .execGetLogPageChorusSchedule h
  | getLogPageAutotomyRecord => exact .execGetLogPageAutotomyRecord h
  | getLogPagePoolUsage => exact .execGetLogPagePoolUsage h
  | getLogPageEventRecords => exact .execGetLogPageEventRecords h
  | getLogPagePredictableLatency => exact .execGetLogPagePredictableLatency h
  | getLogPagePlmEventAggregate => exact .execGetLogPagePlmEventAggregate h
  | getLogPageChangedZoneList => exact .execGetLogPageChangedZoneList h
  | getLogPageDeviceSelfTest => exact .execGetLogPageDeviceSelfTest h
  | identifyController => exact .execIdentifyController h
  | identifyNamespace => exact .execIdentifyNamespace h
  | identifyNvmSetList => exact .execIdentifyNvmSetList h
  | createIoSubmissionQueue => exact .execCreateIoSubmissionQueue h
  | createIoCompletionQueue => exact .execCreateIoCompletionQueue h
  | deviceSelfTestShort => exact .execDeviceSelfTestShort h
  | deviceSelfTestExtended => exact .execDeviceSelfTestExtended h
  | deviceSelfTestAbort => exact .execDeviceSelfTestAbort h
  | selfTestItem => exact .execSelfTestItem h
  | deviceSelfTestComplete => exact .execDeviceSelfTestComplete h
  | firmwareImageDownload => exact .execFirmwareImageDownload h
  | firmwareCommitStore => exact .execFirmwareCommitStore h
  | firmwareCommitStoreAndSetNext => exact .execFirmwareCommitStoreAndSetNext h
  | firmwareCommitActivateExisting => exact .execFirmwareCommitActivateExisting h
  | firmwareCommitActivateNow => exact .execFirmwareCommitActivateNow h
  | firmwareActivation => exact .execFirmwareActivation h
  | activationTimeout => exact .execActivationTimeout h
  | asynchronousEventRequest => exact .execAsynchronousEventRequest h
  | securityProtocolList => exact .execSecurityProtocolList h
  | keyInjection => exact .execKeyInjection h
  | keyClear => exact .execKeyClear h
  | identity => exact .execIdentity h
  | attestRequest => exact .execAttestRequest h
  | attestReport => exact .execAttestReport h
  | reportSignatureComplete => exact .execReportSignatureComplete h
  | attestReportDiscard => exact .execAttestReportDiscard h
  | hashOpen => exact .execHashOpen h
  | hashFeed => exact .execHashFeed h
  | hashFinish => exact .execHashFinish h
  | hashRelease => exact .execHashRelease h
  | hashSessionTimeout => exact .execHashSessionTimeout h
  | lifecycleChallenge => exact .execLifecycleChallenge h
  | lifecycleAdvance => exact .execLifecycleAdvance h
  | lifecycleProvision => exact .execLifecycleProvision h
  | hostKek => exact .execHostKek h
  | settingsAdvance => exact .execSettingsAdvance h
  | poolManageAssign => exact .execPoolManageAssign h
  | poolManageChange => exact .execPoolManageChange h
  | poolManageRelease => exact .execPoolManageRelease h
  | profileSelect => exact .execProfileSelect h
  | profileSwitchComplete => exact .execProfileSwitchComplete h
  | chorusControlApply => exact .execChorusControlApply h
  | chorusControlRelock => exact .execChorusControlRelock h
  | groupJoin => exact .execGroupJoin h
  | groupJoinTimeout => exact .execGroupJoinTimeout h
  | groupLeave => exact .execGroupLeave h
  | groupStatusDevice => exact .execGroupStatusDevice h
  | groupStatusDomain => exact .execGroupStatusDomain h
  | subsystemHealthStatusPoll => exact .execSubsystemHealthStatusPoll h
  | controllerHealthStatusPoll => exact .execControllerHealthStatusPoll h
  | readNvmeMiDataStructure => exact .execReadNvmeMiDataStructure h
  | readEventRing => exact .execReadEventRing h
  | nvmeMiOtherCommand => exact .execNvmeMiOtherCommand h
  | sqDoorbellWrite => exact .execSqDoorbellWrite h
  | commandFetch =>
    rw [show exec .commandFetch s = execCommandFetch s from rfl]
    exact .execCommandFetch h
  | commandStart => exact .execCommandStart h
  | writeAdmission => exact .execWriteAdmission h
  | placementPoint => exact .execPlacementPoint h
  | ccEnSet => exact .execCcEnSet h
  | ccEnClearPf0 => exact .execCcEnClearPf0 h
  | vfReset => exact .execVfReset h
  | pf0Flr => exact .execPf0Flr h
  | functionResetComplete => exact .execFunctionResetComplete h
  | mediaSlotReload => exact .execMediaSlotReload h
  | shutdownNotification => exact .execShutdownNotification h
  | configurationRequest => exact .execConfigurationRequest h
  | powerOn => exact .execPowerOn h
  | perstNAssert => exact .execPerstNAssert h
  | perstNDeassert => exact .execPerstNDeassert h
  | startStageComplete => exact .execStartStageComplete h
  | chorusWaitEnd => exact .execChorusWaitEnd h
  | startDecision => exact .execStartDecision h
  | startWatchdog => exact .execStartWatchdog h
  | holdupSelfTestStart => exact .execHoldupSelfTestStart h
  | holdupSelfTestEnd => exact .execHoldupSelfTestEnd h
  | pwrfailNAssert => exact .execPwrfailNAssert h
  | flushComplete => exact .execFlushComplete h
  | pwrfailNRecovery => exact .execPwrfailNRecovery h
  | pwrfailNStuck => exact .execPwrfailNStuck h
  | vddAonLoss => exact .execVddAonLoss h
  | tempSample => exact .execTempSample h
  | thermalStep => exact .execThermalStep h
  | holdEntry => exact .execHoldEntry h
  | stopClear => exact .execStopClear h
  | thermalTrip => exact .execThermalTrip h
  | powerStateEntry => exact .execPowerStateEntry h
  | autonomousPowerStateTransition => exact .execAutonomousPowerStateTransition h
  | wakeEvent => exact .execWakeEvent h
  | timerWake => exact .execTimerWake h
  | devWakeNEdge => exact .execDevWakeNEdge h
  | devWakeStormEnd => exact .execDevWakeStormEnd h
  | clkreqNWake => exact .execClkreqNWake h
  | prfChange => exact .execPrfChange h
  | clkOpReqWrite => exact .execClkOpReqWrite h
  | dvfsStep => exact .execDvfsStep h
  | dvfsRailSettled => exact .execDvfsRailSettled h
  | clkAvsCmd => exact .execClkAvsCmd h
  | avsCurrentRead => exact .execAvsCurrentRead h
  | avsRegulatorFault => exact .execAvsRegulatorFault h
  | avsRetry => exact .execAvsRetry h
  | vddCoreSag => exact .execVddCoreSag h
  | pondGate => exact .execPondGate h
  | pondGateDrained => exact .execPondGateDrained h
  | pondUngate => exact .execPondUngate h
  | eftStealPoll => exact .execEftStealPoll h
  | writeClutchItem => exact .execWriteClutchItem h
  | hostReadCompletion => exact .execHostReadCompletion h
  | readClutchItem => exact .execReadClutchItem h
  | dieDataLanding => exact .execDieDataLanding h
  | overflowBufferReturn => exact .execOverflowBufferReturn h
  | digestFeed => exact .execDigestFeed h
  | digestAbsorb => exact .execDigestAbsorb h
  | paritySlice => exact .execParitySlice h
  | repairTerm => exact .execRepairTerm h
  | eftWatchdogExpiry => exact .execEftWatchdogExpiry h
  | eftFenceCmd => exact .execEftFenceCmd h
  | dieOpLaunch => exact .execDieOpLaunch h
  | erasedCheckComplete => exact .execErasedCheckComplete h
  | statusPoll => exact .execStatusPoll h
  | dieReadComplete => exact .execDieReadComplete h
  | programComplete => exact .execProgramComplete h
  | eraseComplete => exact .execEraseComplete h
  | operationTimeout => exact .execOperationTimeout h
  | hostReadOnBusyDie => exact .execHostReadOnBusyDie h
  | dieSuspendComplete => exact .execDieSuspendComplete h
  | channelHoldTimeout => exact .execChannelHoldTimeout h
  | stripeRebuildRead => exact .execStripeRebuildRead h
  | buscrcEvent => exact .execBuscrcEvent h
  | trainingCheck => exact .execTrainingCheck h
  | retrainingComplete => exact .execRetrainingComplete h
  | rebuildMember => exact .execRebuildMember h
  | callBoundary => exact .execCallBoundary h
  | turnClosing => exact .execTurnClosing h
  | chbInBeat => exact .execChbInBeat h
  | beatTimeout => exact .execBeatTimeout h
  | holdoverExpiry => exact .execHoldoverExpiry h
  | driftExpiry => exact .execDriftExpiry h
  | noisyClear => exact .execNoisyClear h
  | relockAcquisitionTimeout => exact .execRelockAcquisitionTimeout h
  | choCtlRelock => exact .execChoCtlRelock h
  | stagedFieldWrite => exact .execStagedFieldWrite h
  | quiesceCommandTimeout => exact .execQuiesceCommandTimeout h
  | copyCommit => exact .execCopyCommit h
  | checkpointComplete => exact .execCheckpointComplete h
  | refreshDue => exact .execRefreshDue h
  | mr4Read => exact .execMr4Read h
  | dqsOscillatorRead => exact .execDqsOscillatorRead h
  | laneRetrainSlice => exact .execLaneRetrainSlice h
  | dramRequest => exact .execDramRequest h
  | streamStarveTimeout => exact .execStreamStarveTimeout h
  | dramPowerDownEntry => exact .execDramPowerDownEntry h
  | selfRefreshEntry => exact .execSelfRefreshEntry h
  | selfRefreshExit => exact .execSelfRefreshExit h
  | patrolScrub => exact .execPatrolScrub h
  | sncProgram => exact .execSncProgram h
  | sncSectorErase => exact .execSncSectorErase h
  | sncBlockErase => exact .execSncBlockErase h
  | sncBlankCheck => exact .execSncBlankCheck h
  | sncOperationComplete => exact .execSncOperationComplete h
  | sncDeviceTimeout => exact .execSncDeviceTimeout h
  | sncXipDetachWrite => exact .execSncXipDetachWrite h
  | bootFlashInstructionFetch => exact .execBootFlashInstructionFetch h
  | bootFlashDataRead => exact .execBootFlashDataRead h
  | eventRingProgram => exact .execEventRingProgram h
  | tokenBucketRefill => exact .execTokenBucketRefill h
  | evrCursorHighWrite => exact .execEvrCursorHighWrite h
  | evrCmdNewest => exact .execEvrCmdNewest h
  | evrCmdOldest => exact .execEvrCmdOldest h
  | evrCmdNext => exact .execEvrCmdNext h
  | evrFetchComplete => exact .execEvrFetchComplete h
  | healthCopyToGecko => exact .execHealthCopyToGecko h
  | healthMinuteTick => exact .execHealthMinuteTick h
  | portSignalDetect => exact .execPortSignalDetect h
  | portTrainingComplete => exact .execPortTrainingComplete h
  | hello => exact .execHello h
  | miswiredHelloRetry => exact .execMiswiredHelloRetry h
  | auth1 => exact .execAuth1 h
  | auth2 => exact .execAuth2 h
  | auth3 => exact .execAuth3 h
  | delay => exact .execDelay h
  | delayProbeTimer => exact .execDelayProbeTimer h
  | bringupTimeout => exact .execBringupTimeout h
  | backoffExpiry => exact .execBackoffExpiry h
  | portSignalLoss => exact .execPortSignalLoss h
  | idle => exact .execIdle h
  | nak => exact .execNak h
  | frameCrcError => exact .execFrameCrcError h
  | sessionRekey => exact .execSessionRekey h
  | lsa => exact .execLsa h
  | lsaPeriodic => exact .execLsaPeriodic h
  | lsaExpiry => exact .execLsaExpiry h
  | rootDisplacement => exact .execRootDisplacement h
  | time => exact .execTime h
  | routedFrameForward => exact .execRoutedFrameForward h
  | pread => exact .execPread h
  | pdata => exact .execPdata h
  | pstat => exact .execPstat h
  | peerReadTimeout => exact .execPeerReadTimeout h
  | secHeClaim => exact .execSecHeClaim h
  | secHeDataWrite => exact .execSecHeDataWrite h
  | secHeFinal => exact .execSecHeFinal h
  | hashEngineDone => exact .execHashEngineDone h
  | secHeRelease => exact .execSecHeRelease h
  | secHeDigestLastRead => exact .execSecHeDigestLastRead h
  | secKeClaim => exact .execSecKeClaim h
  | keStartCmac => exact .execKeStartCmac h
  | keStartUnwrapXts => exact .execKeStartUnwrapXts h
  | keStartUnwrapAes => exact .execKeStartUnwrapAes h
  | secKeDataWrite => exact .execSecKeDataWrite h
  | keOperationComplete => exact .execKeOperationComplete h
  | secKeAbort => exact .execSecKeAbort h
  | secKeRelease => exact .execSecKeRelease h
  | secKsZero => exact .execSecKsZero h
  | secKsFill => exact .execSecKsFill h
  | secTrngDataRead => exact .execSecTrngDataRead h
  | securityAlarm => exact .execSecurityAlarm h
  | trngRecovery => exact .execTrngRecovery h
  | trngWaitTimeout => exact .execTrngWaitTimeout h
  | topLockLock => exact .execTopLockLock h
  | topLockWinro => exact .execTopLockWinro h
  | topErraddrValidClear => exact .execTopErraddrValidClear h
  | lowWordReadLatch => exact .execLowWordReadLatch h
  | rcRegisterRead => exact .execRcRegisterRead h
  | windowAccessInLowPower => exact .execWindowAccessInLowPower h
  | registerWrite => exact .execRegisterWrite h
  | pwrfailNDeassert => exact .execPwrfailNDeassert h
  | registerRead => exact .execRegisterRead h
  | holdupSelfTestDue => exact .execHoldupSelfTestDue h
  | setFeaturesAsynchronousEventConfig => exact .execSetFeaturesAsynchronousEventConfig h
  | setFeaturesTemperatureThreshold => exact .execSetFeaturesTemperatureThreshold h
  | deleteIoSubmissionQueue => exact .execDeleteIoSubmissionQueue h
  | deleteIoCompletionQueue => exact .execDeleteIoCompletionQueue h

/-- A step's next state has the state's canonical form and every OTP bit it had. -/
theorem step_evolves {t : State} (h : step s = .next t) : Evolves { s with pending := t.pending } t := by
  unfold step at h
  split at h
  · cases h; exact .refl _
  · have hk := (exec_keeps (.refl _) _).evolves t h
    exact ⟨hk.canonical, hk.otpBits, rfl⟩

/-- Settles O54: every operation writes the three tables through `setWord`, `flashPut`, `flashErase` and `otpSet` alone, or empties the
register file, and each of these keeps the form. -/
theorem everyStepKeepsTheCanonicalForm : Obligations.EveryStepKeepsTheCanonicalForm := by
  unfold Obligations.EveryStepKeepsTheCanonicalForm
  intro s t hc ht
  exact (step_evolves ht).canonical hc

end Sys2Proof.Machine
end

section

namespace Sys2Proof.Machine

open Sys2Proof

/-! ## Fields of a word (R15) -/

/-- Two fields share no bit. -/
def FieldDesc.apart (f g : FieldDesc) : Bool := decide (f.lsb + f.len ≤ g.lsb) || decide (g.lsb + g.len ≤ f.lsb)

/-- Fields that are not empty, lie within a word and share no bit. -/
def fieldsApart : List FieldDesc → Bool
  | [] => true
  | f :: r => decide (0 < f.len) && decide (f.lsb + f.len ≤ 32) && r.all f.apart && fieldsApart r

/-- A word with each field replaced by a function of its value. -/
def fieldsMapped (g : FieldDesc → Nat → Nat) (w : Nat) (fs : List FieldDesc) : Nat :=
  fs.foldr (fun f o => putBits o (f.lsb + f.len - 1) f.lsb (g f (f.get o))) w

theorem fieldsMapped_cons (g : FieldDesc → Nat → Nat) (w : Nat) (f : FieldDesc) (fs : List FieldDesc) :
    fieldsMapped g w (f :: fs) =
      putBits (fieldsMapped g w fs) (f.lsb + f.len - 1) f.lsb (g f (f.get (fieldsMapped g w fs))) := rfl

theorem regTable_fieldsApart : (regTable.all fun d => fieldsApart d.fields) = true := by decide +kernel

theorem regFind_mem {off : Nat} {l : List RegDesc} {d : RegDesc} {i : Nat} (h : regFind off l = some (d, i)) : d ∈ l := by
  induction l with
  | nil => cases h
  | cons r rs ih =>
    unfold regFind at h
    split at h
    · cases h; exact List.mem_cons_self
    · exact List.mem_cons_of_mem _ (ih h)

theorem regFind_fieldsApart {off : Nat} {d : RegDesc} {i : Nat} (h : regFind off regTable = some (d, i)) : fieldsApart d.fields = true :=
  List.all_eq_true.1 regTable_fieldsApart d (regFind_mem h)

theorem FieldDesc.get_lt (f : FieldDesc) (w : Nat) (h : 0 < f.len) : f.get w < 2 ^ f.len := by
  have := getBits_lt w (f.lsb + f.len - 1) f.lsb
  rwa [show f.lsb + f.len - 1 + 1 - f.lsb = f.len by omega] at this

theorem FieldDesc.get_put_same (f : FieldDesc) (w v : Nat) (h : 0 < f.len) :
    f.get (putBits w (f.lsb + f.len - 1) f.lsb v) = v % 2 ^ f.len := by
  rw [FieldDesc.get, getBits_put_same, show f.lsb + f.len - 1 + 1 - f.lsb = f.len by omega]

theorem FieldDesc.get_put_apart (f g : FieldDesc) (w v : Nat) (hf : 0 < f.len) (hg : 0 < g.len) (h : f.apart g = true) :
    g.get (putBits w (f.lsb + f.len - 1) f.lsb v) = g.get w := by
  simp only [FieldDesc.apart, Bool.or_eq_true, decide_eq_true_eq] at h
  exact getBits_put_other _ _ _ _ _ _ (by omega) (by omega)

/-- A field within a word reads the same in the word's 32 bits. -/
theorem FieldDesc.get_mod (f : FieldDesc) (w : Nat) (h : f.lsb + f.len ≤ 32) (hl : 0 < f.len) : f.get (w % 2 ^ 32) = f.get w := by
  apply Nat.eq_of_testBit_eq
  intro i
  rw [FieldDesc.get, FieldDesc.get, testBit_getBits, testBit_getBits, Nat.testBit_mod_two_pow]
  by_cases hi : i < f.lsb + f.len - 1 + 1 - f.lsb
  · simp [show f.lsb + i < 32 by omega]
  · simp [hi]

theorem putBits_getBits (w msb lsb : Nat) : putBits w msb lsb (getBits w msb lsb) = w := by
  have h := field_split w msb lsb
  rw [putBits_split, Nat.mod_eq_of_lt (getBits_lt _ _ _)]
  exact h.symm

section Fields

variable {g : FieldDesc → Nat → Nat} {w : Nat} {f : FieldDesc} {fs : List FieldDesc}

theorem fieldsApart_cons (h : fieldsApart (f :: fs) = true) :
    0 < f.len ∧ f.lsb + f.len ≤ 32 ∧ (∀ x ∈ fs, f.apart x = true) ∧ fieldsApart fs = true := by
  simpa [fieldsApart, and_assoc] using h

theorem fieldsApart_mem (h : fieldsApart fs = true) (hf : f ∈ fs) : 0 < f.len ∧ f.lsb + f.len ≤ 32 := by
  induction fs with
  | nil => cases hf
  | cons x xs ih =>
    obtain ⟨hl, hw, _, hxs⟩ := fieldsApart_cons h
    rcases List.mem_cons.1 hf with rfl | hm
    · exact ⟨hl, hw⟩
    · exact ih hxs hm

theorem get_fieldsMapped_apart (hfs : ∀ x ∈ fs, f.apart x = true ∧ 0 < x.len) (hl : 0 < f.len) : f.get (fieldsMapped g w fs) = f.get w := by
  induction fs with
  | nil => rfl
  | cons x xs ih =>
    obtain ⟨ha, hx⟩ := hfs x List.mem_cons_self
    have ha' : x.apart f = true := by simpa [FieldDesc.apart, Bool.or_comm] using ha
    exact (FieldDesc.get_put_apart x f _ _ hx hl ha').trans (ih fun y hy => hfs y (List.mem_cons_of_mem _ hy))

/-- Each field of the mapped word is the image of the field of the word. -/
theorem get_fieldsMapped (h : fieldsApart fs = true) (hf : f ∈ fs) : f.get (fieldsMapped g w fs) = g f (f.get w) % 2 ^ f.len := by
  induction fs with
  | nil => cases hf
  | cons x xs ih =>
    obtain ⟨hl, _, hx, hxs⟩ := fieldsApart_cons h
    rcases List.mem_cons.1 hf with rfl | hm
    · have stays : f.get (fieldsMapped g w xs) = f.get w :=
        get_fieldsMapped_apart (fun y hy => ⟨hx y hy, (fieldsApart_mem hxs hy).1⟩) hl
      rw [← stays]
      exact FieldDesc.get_put_same f _ _ hl
    · have other : f.get (fieldsMapped g w (x :: xs)) = f.get (fieldsMapped g w xs) :=
        FieldDesc.get_put_apart x f _ _ hl (fieldsApart_mem hxs hm).1 (hx f hm)
      rw [other, ih hxs hm]

end Fields

/-! ### What each access code does to a field -/

/-- The value of a field after a write of `v` to it. -/
def FieldDesc.written (f : FieldDesc) (locked : Bool) (v old : Nat) : Nat :=
  match f.access with
  | .rw => v
  | .rwl => if locked then old else v
  | .w1c => old - (old &&& v)
  | .w1s => old ||| v
  | _ => old

theorem codeWrite_eq_fieldsMapped (locked : Bool) (old v : Nat) (fs : List FieldDesc) :
    codeWrite locked old v fs = fieldsMapped (fun f o => f.written locked (f.get v) o) old fs := by
  induction fs with
  | nil => rfl
  | cons f r ih =>
    rw [fieldsMapped_cons, ← ih, codeWrite]
    generalize codeWrite locked old v r = o
    have stays : putBits o (f.lsb + f.len - 1) f.lsb (f.get o) = o := putBits_getBits _ _ _
    unfold FieldDesc.written
    cases f.access with
    | rwl =>
      cases locked with
      | true => exact stays.symm
      | false => rfl
    | rw | w1c | w1s => rfl
    | ro | rc | wo | rsv => exact stays.symm

theorem codeRead_eq_fieldsMapped (old : Nat) (fs : List FieldDesc) :
    codeRead old fs = fieldsMapped (fun f o => if f.access = .rc then 0 else o) old fs := by
  induction fs with
  | nil => rfl
  | cons f r ih =>
    rw [fieldsMapped_cons, ← ih, codeRead]
    split
    · rfl
    · exact (putBits_getBits _ _ _).symm

theorem codeShow_eq_fieldsMapped (v : Nat) (fs : List FieldDesc) :
    codeShow v fs = fieldsMapped (fun f o => if f.access = .wo then 0 else o) v fs := by
  induction fs with
  | nil => rfl
  | cons f r ih =>
    rw [fieldsMapped_cons, ← ih, codeShow]
    split
    · rfl
    · exact (putBits_getBits _ _ _).symm

theorem FieldDesc.written_lt (f : FieldDesc) (locked : Bool) {v old n : Nat} (hv : v < 2 ^ n) (ho : old < 2 ^ n) :
    f.written locked v old < 2 ^ n := by
  unfold FieldDesc.written
  split
  · exact hv
  · split
    · exact ho
    · exact hv
  · exact lt_of_le_of_lt (Nat.sub_le _ _) ho
  · exact Nat.or_lt_two_pow ho hv
  · exact ho

section Codes

variable {f : FieldDesc} {fs : List FieldDesc}

theorem get_codeWrite (locked : Bool) (old v : Nat) (h : fieldsApart fs = true) (hf : f ∈ fs) :
    f.get (codeWrite locked old v fs) = f.written locked (f.get v) (f.get old) := by
  have hl := (fieldsApart_mem h hf).1
  rw [codeWrite_eq_fieldsMapped, get_fieldsMapped h hf]
  exact Nat.mod_eq_of_lt (f.written_lt locked (f.get_lt v hl) (f.get_lt old hl))

theorem get_codeRead (old : Nat) (h : fieldsApart fs = true) (hf : f ∈ fs) :
    f.get (codeRead old fs) = if f.access = .rc then 0 else f.get old := by
  have hl := (fieldsApart_mem h hf).1
  rw [codeRead_eq_fieldsMapped, get_fieldsMapped h hf]
  split
  · exact Nat.zero_mod _
  · exact Nat.mod_eq_of_lt (f.get_lt old hl)

theorem get_codeShow (v : Nat) (h : fieldsApart fs = true) (hf : f ∈ fs) :
    f.get (codeShow v fs) = if f.access = .wo then 0 else f.get v := by
  have hl := (fieldsApart_mem h hf).1
  rw [codeShow_eq_fieldsMapped, get_fieldsMapped h hf]
  split
  · exact Nat.zero_mod _
  · exact Nat.mod_eq_of_lt (f.get_lt v hl)

end Codes

theorem and_add_ldiff (a b : Nat) : (a &&& b) + Nat.ldiff a b = a := by
  induction a using Nat.binaryRec generalizing b with
  | zero => simp [Nat.ldiff]
  | bit x a ih =>
    cases b using Nat.bitCasesOn with
    | bit y b =>
      have := ih b
      rw [Nat.land_bit, Nat.ldiff_bit, Nat.bit_val, Nat.bit_val, Nat.bit_val]
      cases x <;> cases y <;> simp only [Bool.and_true, Bool.and_false, Bool.not_true, Bool.not_false, Bool.toNat_true, Bool.toNat_false] <;> omega

/-- Bits written 1 clear. -/
theorem testBit_sub_and (a b j : Nat) : (a - (a &&& b)).testBit j = (a.testBit j && !b.testBit j) := by
  rw [show a - (a &&& b) = Nat.ldiff a b by have := and_add_ldiff a b; omega, Nat.testBit_ldiff]

/-! ## One-bit fields -/

theorem getBits_bit (w n : Nat) : getBits w n n = (w.testBit n).toNat := by
  rw [Nat.toNat_testBit, getBits, Nat.shiftRight_eq_div_pow, Nat.add_sub_cancel_left, Nat.pow_one]

theorem State.rd_bit (s : State) (a n : Nat) (h : n < 32) : s.rd ⟨a, n, n⟩ = ((s.word a).testBit n).toNat := by
  rw [State.rd, if_pos h]
  exact getBits_bit _ _

theorem State.flag_eq_rd_one (s : State) (f : Fld) (h : f.msb = f.lsb) : s.flag f = decide (s.rd f = 1) := by
  have := s.rd_lt f
  rw [h, Nat.add_sub_cancel_left] at this
  rcases (show s.rd f = 0 ∨ s.rd f = 1 by omega) with h0 | h1
  · simp [State.flag, h0]
  · simp [State.flag, h1]

theorem State.sameWords.trans {s t u : State} {p q : Nat → Prop} (h₁ : s.sameWords t p) (h₂ : t.sameWords u q) :
    s.sameWords u fun a => p a ∨ q a :=
  fun a ha => (h₂ a fun hq => ha (.inr hq)).trans (h₁ a fun hp => ha (.inl hp))

theorem State.sameWords.mono {s t : State} {p q : Nat → Prop} (h : s.sameWords t p) (hpq : ∀ a, p a → q a) : s.sameWords t q :=
  fun a ha => h a fun hp => ha (hpq a hp)

theorem State.sameWords.rd {s t : State} {but : Nat → Prop} (h : s.sameWords t but) {f : Fld} (hf : f.msb < 32) (hb : ¬ but f.reg) :
    t.rd f = s.rd f := by
  rw [State.rd, State.rd, if_pos hf, if_pos hf, h _ hb]

/-! ## Steps of the register file alone -/

/-- A state differs from another in its register file alone. -/
def State.RegsOnly (s t : State) : Prop := t = { s with regs := t.regs }

theorem State.RegsOnly.refl (s : State) : s.RegsOnly s := rfl

theorem State.RegsOnly.trans {s t u : State} (h₁ : s.RegsOnly t) (h₂ : t.RegsOnly u) : s.RegsOnly u :=
  Eq.trans h₂ (by rw [h₁])

theorem State.RegsOnly.replies {s t : State} (h : s.RegsOnly t) : t.replies = s.replies := by rw [h]

theorem State.RegsOnly.pwr {s t : State} (h : s.RegsOnly t) : t.pwr = s.pwr := by rw [h]

theorem State.setWord_regsOnly (s : State) (a v : Nat) : s.RegsOnly (s.setWord a v) := rfl

theorem State.wr_regsOnly (s : State) (f : Fld) (v : Nat) : s.RegsOnly (s.wr f v) := by
  unfold State.wr
  split
  · exact s.setWord_regsOnly _ _
  · exact (s.setWord_regsOnly _ _).trans (State.setWord_regsOnly _ _ _)

/-! ## Access errors (R527, R528) -/

section Errors

variable (s : State) (r off : Nat) (write : Bool) (bits : Nat)

/-- The word a first access error leaves in TOP_ERRADDR. -/
def errorCapture : Nat := 2 ^ 31 + write.toNat * 2 ^ 30 + (decide (r = reqPcie)).toNat * 2 ^ 29 + off % 2 ^ 26 / 4 * 4

/-- A state's TOP_ERRADDR shows the access as the first error, where none stood there before. -/
def State.captures (s t : State) : Prop :=
  (s.rd Fd.TOP_ERRADDR_VALID = 0 → t.rd Fd.TOP_ERRADDR_VALID = 1 ∧ t.rd Fd.TOP_ERRADDR_WRITE = write.toNat ∧
    t.rd Fd.TOP_ERRADDR_PCIE = (decide (r = reqPcie)).toNat ∧ t.rd Fd.TOP_ERRADDR_OFFSET = off / 4) ∧
  (s.rd Fd.TOP_ERRADDR_VALID = 1 → t.word Reg.TOP_ERRADDR = s.word Reg.TOP_ERRADDR)

/-- The counts of TOP_ERRCNT rise. -/
def State.countErr (s : State) : State :=
  let u := if bits % 2 = 1 then s.bump Fd.TOP_ERRCNT_DARK 1 else s
  if bits / 4 % 32 ≠ 0 then u.bump Fd.TOP_ERRCNT_OTHER 1 else u

theorem State.word_countErr_other {a : Nat} (h : a ≠ Reg.TOP_ERRCNT) : (s.countErr bits).word a = s.word a := by
  have other (u : State) : (u.bump Fd.TOP_ERRCNT_OTHER 1).word a = u.word a := u.word_wr_other _ _ (by decide) h
  have dark : (if bits % 2 = 1 then s.bump Fd.TOP_ERRCNT_DARK 1 else s).word a = s.word a := by
    split
    · exact s.word_wr_other _ _ (by decide) h
    · rfl
  unfold State.countErr
  dsimp only
  split
  · exact (other _).trans dark
  · exact dark

/-- The first error is captured, a later one not. -/
theorem State.noteErr_eq : s.noteErr r off write bits =
    (let u := s.setWord Reg.TOP_ERR (s.word Reg.TOP_ERR ||| bits)
     if u.flag Fd.TOP_ERRADDR_VALID then u else u.setWord Reg.TOP_ERRADDR (errorCapture r off write)).countErr bits := rfl

/-- What a noted error changes: the three error words. -/
theorem State.noteErr_sameWords : s.sameWords (s.noteErr r off write bits) errorWord := by
  intro a ha
  have herr : a ≠ Reg.TOP_ERR := fun h => ha (.inl h)
  have haddr : a ≠ Reg.TOP_ERRADDR := fun h => ha (.inr (.inl h))
  have hcnt : a ≠ Reg.TOP_ERRCNT := fun h => ha (.inr (.inr h))
  rw [State.noteErr_eq, State.word_countErr_other _ _ hcnt]
  dsimp only
  split
  · exact State.word_setWord_other _ _ _ herr
  · rw [State.word_setWord_other _ _ _ haddr, State.word_setWord_other _ _ _ herr]

theorem State.word_noteErr_err (hb : bits < 2 ^ 32) :
    (s.noteErr r off write bits).word Reg.TOP_ERR = s.word Reg.TOP_ERR ||| bits := by
  have set : (s.setWord Reg.TOP_ERR (s.word Reg.TOP_ERR ||| bits)).word Reg.TOP_ERR = s.word Reg.TOP_ERR ||| bits := by
    rw [State.word_setWord_same, Nat.mod_eq_of_lt (Nat.or_lt_two_pow (s.word_lt _) hb)]
  rw [State.noteErr_eq, State.word_countErr_other _ _ (by decide)]
  dsimp only
  split
  · exact set
  · rw [State.word_setWord_other _ _ _ (by decide), set]

theorem errorCapture_lt : errorCapture r off write < 2 ^ 32 := by
  have h1 := write.toNat_le
  have h2 := (decide (r = reqPcie)).toNat_le
  unfold errorCapture
  omega

theorem State.word_noteErr_addr : (s.noteErr r off write bits).word Reg.TOP_ERRADDR =
    if s.flag Fd.TOP_ERRADDR_VALID then s.word Reg.TOP_ERRADDR else errorCapture r off write := by
  have valid : (s.setWord Reg.TOP_ERR (s.word Reg.TOP_ERR ||| bits)).flag Fd.TOP_ERRADDR_VALID = s.flag Fd.TOP_ERRADDR_VALID := by
    simp only [State.flag, Fd.TOP_ERRADDR_VALID, State.rd_bit _ _ 31 (by decide),
      State.word_setWord_other _ _ _ (show Reg.TOP_ERRADDR ≠ Reg.TOP_ERR by decide)]
  rw [State.noteErr_eq, State.word_countErr_other _ _ (by decide)]
  dsimp only
  rw [valid]
  split
  · exact State.word_setWord_other _ _ _ (by decide)
  · rw [State.word_setWord_same, Nat.mod_eq_of_lt (errorCapture_lt r off write)]

theorem errorCapture_fields (h4 : off % 4 = 0) (hlt : off < 2 ^ 26) :
    getBits (errorCapture r off write) 31 31 = 1 ∧ getBits (errorCapture r off write) 30 30 = write.toNat ∧
    getBits (errorCapture r off write) 29 29 = (decide (r = reqPcie)).toNat ∧ getBits (errorCapture r off write) 25 2 = off / 4 := by
  have h1 := write.toNat_le
  have h2 := (decide (r = reqPcie)).toNat_le
  simp only [getBits, errorCapture, Nat.shiftRight_eq_div_pow]
  omega

theorem State.noteErr_captures (h4 : off % 4 = 0) (hlt : off < 2 ^ 26) : State.captures r off write s (s.noteErr r off write bits) := by
  constructor
  · intro h0
    have word : (s.noteErr r off write bits).word Reg.TOP_ERRADDR = errorCapture r off write := by
      rw [State.word_noteErr_addr, State.flag, h0]
      rfl
    have shown (m l : Nat) (hm : m < 32) :
        (s.noteErr r off write bits).rd ⟨Reg.TOP_ERRADDR, m, l⟩ = getBits (errorCapture r off write) m l := by
      rw [State.rd, if_pos hm, word]
    obtain ⟨valid, wr, pcie, offset⟩ := errorCapture_fields r off write h4 hlt
    exact ⟨(shown 31 31 (by decide)).trans valid, (shown 30 30 (by decide)).trans wr, (shown 29 29 (by decide)).trans pcie,
      (shown 25 2 (by decide)).trans offset⟩
  · intro h1
    rw [State.word_noteErr_addr, State.flag, h1]
    rfl

/-- An access error is noted: its bit of TOP_ERR is set, only the error words change, and the first one is captured. -/
structure State.Noted (s t : State) (n : Nat) : Prop where
  bit : t.rd ⟨Reg.TOP_ERR, n, n⟩ = 1
  rest : s.sameWords t errorWord
  captured : State.captures r off write s t

theorem State.noteErr_noted (h4 : off % 4 = 0) (hlt : off < 2 ^ 26) (n : Nat) (hn : n < 32) (hb : bits < 2 ^ 32) (hbit : bits.testBit n = true) :
    State.Noted r off write s (s.noteErr r off write bits) n where
  bit := by rw [State.rd_bit _ _ _ hn, State.word_noteErr_err _ _ _ _ _ hb, Nat.testBit_or, hbit, Bool.or_true, Bool.toNat_true]
  rest := s.noteErr_sameWords r off write bits
  captured := s.noteErr_captures r off write bits h4 hlt

theorem State.bump_regsOnly (f : Fld) (n : Nat) : s.RegsOnly (s.bump f n) := s.wr_regsOnly f _

theorem State.countErr_regsOnly : s.RegsOnly (s.countErr bits) := by
  have dark : s.RegsOnly (if bits % 2 = 1 then s.bump Fd.TOP_ERRCNT_DARK 1 else s) := by
    split
    · exact s.bump_regsOnly _ _
    · exact .refl s
  unfold State.countErr
  dsimp only
  split
  · exact dark.trans (State.bump_regsOnly _ _ _)
  · exact dark

/-- A noted error reaches nothing but the register file. -/
theorem State.noteErr_regsOnly : s.RegsOnly (s.noteErr r off write bits) := by
  have set := s.setWord_regsOnly Reg.TOP_ERR (s.word Reg.TOP_ERR ||| bits)
  rw [State.noteErr_eq]
  refine .trans ?_ (State.countErr_regsOnly _ _)
  dsimp only
  split
  · exact set
  · exact set.trans (State.setWord_regsOnly _ _ _)

theorem State.noteErr_replies : (s.noteErr r off write bits).replies = s.replies := (s.noteErr_regsOnly r off write bits).replies

end Errors

end Sys2Proof.Machine
end


section

namespace Sys2Proof.Machine

open Sys2Proof

/-! ## Writes and reads of one word, up to their register -/

section Access

variable {s : State} {r off : Nat}

theorem inWindow_of_lt (hlt : off < 2 ^ 26) : off < windowSize := hlt

theorem aligned_eq (h4 : off % 4 = 0) : off / 4 * 4 = off := by omega

theorem readBad_word (h4 : off % 4 = 0) : readBad r off 1 true = false := by
  unfold readBad
  split
  · rw [aligned_eq h4]
    simp
    omega
  · simp [h4]

/-- A read of one whole word. -/
theorem exec_registerRead_word (s : State) (r : Nat) (h4 : off % 4 = 0) (hlt : off < 2 ^ 26) :
    exec (.registerRead r off 1 true) s = winRead r off s fun u => u.regRead r off := by
  show execRegisterRead r off 1 true s = _
  rw [execRegisterRead, inRange_lt _ (inWindow_of_lt hlt), winRead, aligned_eq h4]
  congr 1
  funext u
  rw [if_neg (by simp [readBad_word h4]), if_pos (by simp [h4])]
  simp only [State.readReply, State.readWords, List.headD_cons, Bool.or_false, if_true]

/-- A write of one whole word. -/
theorem exec_registerWrite_word (s : State) (r v : Nat) (h4 : off % 4 = 0) (hlt : off < 2 ^ 26) :
    exec (.registerWrite r off 1 true v) s = winWrite r off v s fun u => u.regWrite r off v := by
  show execRegisterWrite r off 1 true v s = _
  rw [execRegisterWrite, inRange_lt _ (inWindow_of_lt hlt), aligned_eq h4, if_pos (by simp [h4])]

/-- What a write meets once the requester and the power let it through. -/
theorem winWrite_open (v : Nat) (k : State → State) (h : s.winOpen r = true) :
    winWrite r off v s k =
      if deniedTo r off then .next (s.noteDenied r off)
      else if r = reqPcie && s.flag Fd.TOP_LOCK_WINRO && off ≠ Reg.TOP_ERR && off ≠ Reg.TOP_ERRADDR then
        .next (s.noteErr r off true (if unmapped off then eLOCKED + eUNMAPPED else eLOCKED))
      else if unmapped off then .next (s.noteErr r off true eUNMAPPED)
      else if s.dark off then .next (if r = reqPcie then s.noteErr r off true eDARK else (s.noteErr r off true eDARK).reply r 0 true .none)
      else .next (k s) := by
  obtain ⟨hr, hp, hh⟩ := winOpen_unpack h
  have noWindow : (decide (r = reqPcie) && !s.hasWindow) = false := by rcases hh with hh | ⟨hh, -⟩ <;> simp [hh]
  have awake : (decide (r = reqPcie) && s.asleep) = false := by rcases hh with hh | ⟨-, hh⟩ <;> simp [hh]
  rw [winWrite, if_neg (by simp [hr]), if_neg (by simp [hp, noWindow]), if_neg (by simp [awake])]

/-- No read-only window stands before the write. -/
theorem winro_false (hw : r = reqPcie → s.flag Fd.TOP_LOCK_WINRO = false) :
    (decide (r = reqPcie) && s.flag Fd.TOP_LOCK_WINRO && decide (off ≠ Reg.TOP_ERR) && decide (off ≠ Reg.TOP_ERRADDR)) = false := by
  by_cases hr : r = reqPcie
  · simp [hw hr]
  · simp [hr]

theorem winWrite_unmapped (v : Nat) (k : State → State) (h : s.winOpen r = true) (hd : deniedTo r off = false)
    (hw : r = reqPcie → s.flag Fd.TOP_LOCK_WINRO = false) (hu : unmapped off = true) :
    winWrite r off v s k = .next (s.noteErr r off true eUNMAPPED) := by
  rw [winWrite_open v k h, hd, winro_false hw, hu]
  rfl

theorem dark_mapped (h : s.dark off = true) : unmapped off = false := by
  simp only [State.dark, Bool.and_eq_true, Bool.not_eq_true'] at h
  exact h.1.2

theorem winWrite_dark (v : Nat) (k : State → State) (h : s.winOpen r = true) (hd : deniedTo r off = false)
    (hw : r = reqPcie → s.flag Fd.TOP_LOCK_WINRO = false) (hdark : s.dark off = true) :
    winWrite r off v s k =
      .next (if r = reqPcie then s.noteErr r off true eDARK else (s.noteErr r off true eDARK).reply r 0 true .none) := by
  rw [winWrite_open v k h, hd, winro_false hw, dark_mapped hdark, hdark]
  rfl

theorem winWrite_readOnly (v : Nat) (k : State → State) (h : s.winOpen reqPcie = true) (hd : deniedTo reqPcie off = false)
    (hw : s.flag Fd.TOP_LOCK_WINRO = true) (herr : off ≠ Reg.TOP_ERR) (haddr : off ≠ Reg.TOP_ERRADDR) :
    winWrite reqPcie off v s k = .next (s.noteErr reqPcie off true (if unmapped off then eLOCKED + eUNMAPPED else eLOCKED)) := by
  rw [winWrite_open v k h, hd, if_neg Bool.false_ne_true, if_pos (by simp [hw, herr, haddr])]

theorem State.noteErr_asleep (s : State) (r off : Nat) (write : Bool) (bits : Nat) : (s.noteErr r off write bits).asleep = s.asleep := by
  unfold State.asleep
  rw [(s.noteErr_sameWords r off write bits).rd (by decide) (by unfold errorWord; decide)]

theorem State.noteErr_dark (s : State) (r off : Nat) (write : Bool) (bits a : Nat) : (s.noteErr r off write bits).dark a = s.dark a := by
  have same := s.noteErr_sameWords r off write bits
  have pstate : (s.noteErr r off write bits).rd Fd.GK_PSTATE_CUR = s.rd Fd.GK_PSTATE_CUR := same.rd (by decide) (by unfold errorWord; decide)
  have gated : (s.noteErr r off write bits).rd Fd.EFT_POND_MAP_GATED = s.rd Fd.EFT_POND_MAP_GATED :=
    same.rd (by decide) (by unfold errorWord; decide)
  have power : (s.noteErr r off write bits).pwr = s.pwr := (s.noteErr_regsOnly r off write bits).pwr
  simp only [State.dark, State.gated, pstate, gated, power]

/-- A long or partial write is dropped and noted (R516). -/
theorem exec_registerWrite_bad (n v : Nat) (full : Bool) (h4 : off % 4 = 0) (hlt : off < 2 ^ 26) (h : s.winOpen r = true)
    (hbad : n ≠ 1 ∨ full = false) :
    ∃ t, exec (.registerWrite r off n full v) s = .next t ∧
      (t = s.noteErr r off true (if n ≠ 1 then eWSIZE else eALIGN) ∨
       t = (s.noteErr r off true (if n ≠ 1 then eWSIZE else eALIGN)).reply r 0 true .none) := by
  obtain ⟨hr, hp, hh⟩ := winOpen_unpack h
  have noWindow : (decide (r = reqPcie) && !s.hasWindow) = false := by rcases hh with hh | ⟨hh, -⟩ <;> simp [hh]
  have long : (decide (n = 1) && full && decide (off % 4 = 0)) = false := by rcases hbad with hn | hf <;> simp [*]
  show ∃ t, execRegisterWrite r off n full v s = .next t ∧ _
  rw [execRegisterWrite, inRange_lt _ (inWindow_of_lt hlt), aligned_eq h4, if_neg (by simp [long]), if_neg (by simp [hr]),
    if_neg (by simp [hp, noWindow])]
  refine ⟨_, rfl, ?_⟩
  by_cases hreq : r = reqPcie
  · have awake : (s.noteErr r off true (if n ≠ 1 then eWSIZE else eALIGN)).asleep = false := by
      rcases hh with hh | ⟨-, hh⟩
      · exact absurd hreq hh
      · rwa [State.noteErr_asleep]
    left
    rw [if_pos hreq, State.hostTouch, awake]
    rfl
  · right
    rw [if_neg hreq]

end Access

end Sys2Proof.Machine
end


section

namespace Sys2Proof.Machine

open Sys2Proof

/-! ## Records and alarms (R360, R484) -/

/-- The words an event record changes: the newest sequence and the alert's bit. -/
def recordWord (a : Nat) : Prop := a = Reg.EVR_NEWEST ∨ a = Reg.EVR_NEWEST + 4 ∨ a = Reg.HLT_ALERT

theorem State.word_wr_wide (s : State) (f : Fld) (v : Nat) {b : Nat} (h : b ≠ f.reg) (h4 : b ≠ f.reg + 4) : (s.wr f v).word b = s.word b := by
  unfold State.wr
  split
  · exact s.word_setWord_other _ _ h
  · exact (State.word_setWord_other _ _ _ h4).trans (s.word_setWord_other _ _ h)

theorem State.emit_sameWords (s : State) (code supp : Nat) (payload : List Nat) : s.sameWords (s.emit code supp payload) recordWord := by
  intro a ha
  have hnew : a ≠ Reg.EVR_NEWEST := fun h => ha (.inl h)
  have hhigh : a ≠ Reg.EVR_NEWEST + 4 := fun h => ha (.inr (.inl h))
  have halert : a ≠ Reg.HLT_ALERT := fun h => ha (.inr (.inr h))
  unfold State.emit
  extract_lets r src e e' t
  have seq : t.word a = s.word a := State.word_wr_wide _ _ _ hnew hhigh
  split
  · exact (t.word_wr_other Fd.HLT_ALERT_CRIT 1 (by decide) halert).trans seq
  · exact seq

theorem State.record_sameWords (s : State) (code : Nat) (payload : List Nat) : s.sameWords (s.record code payload) recordWord := by
  unfold State.record
  split
  · exact s.emit_sameWords _ _ _
  · extract_lets b
    split
    · exact fun _ _ => rfl
    · intro a ha
      exact (State.emit_sameWords _ _ _ _ a ha).trans rfl

/-- An alarm changes SEC_ALARM and what its record changes. -/
theorem State.alarm_sameWords (s : State) (f : Fld) (hf : f.reg = Reg.SEC_ALARM) (hm : f.msb < 32) :
    s.sameWords (s.alarm f) fun a => a = Reg.SEC_ALARM ∨ recordWord a := by
  intro a ha
  have halarm : a ≠ Reg.SEC_ALARM := fun h => ha (.inl h)
  unfold State.alarm
  extract_lets t
  have raised : t.word a = s.word a :=
    (State.word_wr_other _ Fd.SEC_ALARM_COUNT _ (by decide) halarm).trans (s.word_wr_other f 1 hm (hf ▸ halarm))
  exact (t.record_sameWords _ _ a fun h => ha (.inr h)).trans raised

theorem State.rd_alarm_denied (s : State) : (s.alarm Fd.SEC_ALARM_DENIED).rd Fd.SEC_ALARM_DENIED = 1 := by
  unfold State.alarm
  extract_lets t
  have set : t.rd Fd.SEC_ALARM_DENIED = 1 :=
    (State.rd_wr_bits _ Fd.SEC_ALARM_COUNT Fd.SEC_ALARM_DENIED _ ⟨by decide, by decide⟩ (by decide) rfl (by decide)).trans
      (s.rd_wr_same Fd.SEC_ALARM_DENIED 1 ⟨by decide, by decide⟩)
  exact ((t.record_sameWords _ _).rd (by decide) (by unfold recordWord; decide)).trans set

/-! ## Window errors -/

section Denied

variable {s : State} {off : Nat}

/-- A denied write of the host is noted as DENIED, beside LOCKED where the window is read-only. -/
theorem State.noteDenied_noted (h4 : off % 4 = 0) (hlt : off < 2 ^ 26) :
    (s.noteDenied reqPcie off).rd Fd.TOP_ERR_DENIED = 1 ∧ State.captures reqPcie off true s (s.noteDenied reqPcie off) ∧
    (off < 0x2000000 ∨ 0x2400000 ≤ off ∨ s.dark off = true → s.sameWords (s.noteDenied reqPcie off) errorWord) ∧
    (0x2000000 ≤ off → off < 0x2400000 → s.dark off = false → (s.noteDenied reqPcie off).rd Fd.SEC_ALARM_DENIED = 1) := by
  have noted : ∃ bits, s.noteDenied reqPcie off = (if 0x2000000 ≤ off && off < 0x2400000 && !(s.noteErr reqPcie off true bits).dark off
      then (s.noteErr reqPcie off true bits).alarm Fd.SEC_ALARM_DENIED else s.noteErr reqPcie off true bits) ∧
      State.Noted reqPcie off true s (s.noteErr reqPcie off true bits) 6 := by
    refine ⟨if s.flag Fd.TOP_LOCK_WINRO then eDENIED + eLOCKED else eDENIED, by rw [State.noteDenied, if_neg (by simp)], ?_⟩
    split
    · exact s.noteErr_noted _ _ _ _ h4 hlt 6 (by decide) (by decide) (by decide)
    · exact s.noteErr_noted _ _ _ _ h4 hlt 6 (by decide) (by decide) (by decide)
  obtain ⟨bits, eq, bit, rest, cap⟩ := noted
  rw [State.noteErr_dark] at eq
  by_cases hsec : (0x2000000 ≤ off && off < 0x2400000 && !s.dark off) = true
  · rw [if_pos hsec] at eq
    simp only [Bool.and_eq_true, decide_eq_true_eq, Bool.not_eq_true'] at hsec
    obtain ⟨⟨hlo, hhi⟩, hdark⟩ := hsec
    have same := (s.noteErr reqPcie off true bits).alarm_sameWords Fd.SEC_ALARM_DENIED rfl (by decide)
    have far (f : Fld) (hm : f.msb < 32) (hf : f.reg < 0x100) : (s.noteDenied reqPcie off).rd f = (s.noteErr reqPcie off true bits).rd f := by
      rw [eq]
      refine same.rd hm ?_
      unfold recordWord Reg.SEC_ALARM Reg.EVR_NEWEST Reg.HLT_ALERT
      omega
    refine ⟨(far _ (by decide) (by decide)).trans bit, ⟨fun h0 => ?_, fun h1 => ?_⟩, fun h => ?_, fun _ _ _ => ?_⟩
    · rw [far _ (by decide) (by decide), far _ (by decide) (by decide), far _ (by decide) (by decide), far _ (by decide) (by decide)]
      exact cap.1 h0
    · rw [eq, same _ (by unfold recordWord; decide)]
      exact cap.2 h1
    · rcases h with h | h | h
      · omega
      · omega
      · rw [hdark] at h; cases h
    · rw [eq]
      exact State.rd_alarm_denied _
  · rw [if_neg hsec] at eq
    rw [eq]
    refine ⟨bit, cap, fun _ => rest, fun hlo hhi hdark => ?_⟩
    exact absurd (by simp [hlo, hhi, hdark]) hsec

/-- Raising the wake source of a held access leaves what is held. -/
theorem State.wakeSource_held (s : State) (k : Nat) : (s.wakeSource k).pwr.held = s.pwr.held ∧ (s.wakeSource k).replies = s.replies := by
  have noted := s.wr_regsOnly Fd.GK_WAKESRC_PEND (s.rd Fd.GK_WAKESRC_PEND ||| 2 ^ k)
  unfold State.wakeSource
  extract_lets t
  have held : t.pwr.held = s.pwr.held := congrArg Pwr.held noted.pwr
  have replies : t.replies = s.replies := noted.replies
  split
  · exact ⟨held, replies⟩
  · exact ⟨held, replies⟩

end Denied

section Reports

variable {s : State} {r off : Nat}

theorem State.Noted.reply {write : Bool} {t : State} {n : Nat} (h : State.Noted r off write s t n) (who v : Nat) (e : Bool) (d : Payload) :
    State.Noted r off write s (t.reply who v e d) n :=
  ⟨h.bit, h.rest, h.captured⟩

/-- What a read that ends before its register answers. -/
theorem next_noted_read (h4 : off % 4 = 0) (hlt : off < 2 ^ 26) (bits n v : Nat) (e : Bool) (hn : n < 32) (hb : bits < 2 ^ 32)
    (hbit : bits.testBit n = true) :
    Next (.next ((s.noteErr r off false bits).reply r v e .none)) fun t => t.replies = ⟨r, v, e, .none⟩ :: s.replies ∧
      t.rd ⟨Reg.TOP_ERR, n, n⟩ = 1 ∧ s.sameWords t errorWord ∧ State.captures r off false s t := by
  obtain ⟨bit, rest, cap⟩ := (s.noteErr_noted r off false bits h4 hlt n hn hb hbit).reply r v e .none
  exact .intro _ ⟨congrArg _ (s.noteErr_replies r off false bits), bit, rest, cap⟩

/-- What a write that ends before its register leaves, answered or not. -/
theorem next_noted_write (h4 : off % 4 = 0) (hlt : off < 2 ^ 26) (bits n : Nat) {t : State}
    (ht : t = s.noteErr r off true bits ∨ t = (s.noteErr r off true bits).reply r 0 true .none) (hn : n < 32) (hb : bits < 2 ^ 32)
    (hbit : bits.testBit n = true) :
    Next (.next t) fun t => t.rd ⟨Reg.TOP_ERR, n, n⟩ = 1 ∧ s.sameWords t errorWord ∧ State.captures r off true s t := by
  have noted := s.noteErr_noted r off true bits h4 hlt n hn hb hbit
  rcases ht with rfl | rfl
  · exact .intro _ ⟨noted.bit, noted.rest, noted.captured⟩
  · obtain ⟨bit, rest, cap⟩ := noted.reply r 0 true .none
    exact .intro _ ⟨bit, rest, cap⟩

end Reports

/-- Settles O50: what stands before a register notes its bit and the first access, and nothing else; what the host's window does not reach
is answered or held. -/
theorem windowErrors : Obligations.WindowErrors := by
  unfold Obligations.WindowErrors
  intro s r off h4 hlt captured
  refine ⟨fun hopen => ⟨fun hu => ⟨?_, fun hd hw v => ?_⟩, fun hdark => ⟨?_, fun hd hw v => ?_⟩, ?_, ?_, fun n v hn => ?_, fun v => ?_⟩,
    fun hwr => ?_, fun hon hwin => ⟨?_, fun v => ?_⟩, fun hon hwin hsleep => ⟨?_, fun v => ?_⟩⟩
  · rw [exec_registerRead_word s r h4 hlt, winRead_unmapped _ hopen hu]
    exact next_noted_read h4 hlt eUNMAPPED 4 0 false (by decide) (by decide) (by decide)
  · rw [exec_registerWrite_word s r v h4 hlt, winWrite_unmapped v _ hopen hd hw hu]
    exact next_noted_write h4 hlt eUNMAPPED 4 (.inl rfl) (by decide) (by decide) (by decide)
  · rw [exec_registerRead_word s r h4 hlt, winRead_dark _ hopen (dark_mapped hdark) hdark]
    exact next_noted_read h4 hlt eDARK 0 darkWord _ (by decide) (by decide) (by decide)
  · rw [exec_registerWrite_word s r v h4 hlt, winWrite_dark v _ hopen hd hw hdark]
    refine next_noted_write h4 hlt eDARK 0 ?_ (by decide) (by decide) (by decide)
    split
    · exact .inl rfl
    · exact .inr rfl
  · rintro rfl hd _ v
    rw [exec_registerWrite_word s reqPcie v h4 hlt, winWrite_denied v _ hopen hd]
    exact .intro _ (State.noteDenied_noted h4 hlt)
  · rintro rfl hd hw herr haddr v
    rw [exec_registerWrite_word s reqPcie v h4 hlt, winWrite_readOnly v _ hopen hd hw herr haddr]
    split
    · exact next_noted_write h4 hlt (eLOCKED + eUNMAPPED) 5 (.inl rfl) (by decide) (by decide) (by decide)
    · exact next_noted_write h4 hlt eLOCKED 5 (.inl rfl) (by decide) (by decide) (by decide)
  · obtain ⟨t, ht, eq⟩ := exec_registerWrite_bad n v true h4 hlt hopen (.inl hn)
    rw [if_pos hn] at eq
    rw [ht]
    exact next_noted_write h4 hlt eWSIZE 3 eq (by decide) (by decide) (by decide)
  · obtain ⟨t, ht, eq⟩ := exec_registerWrite_bad 1 v false h4 hlt hopen (.inr rfl)
    rw [ht]
    exact next_noted_write h4 hlt eALIGN 2 eq (by decide) (by decide) (by decide)
  · show Next (execTopErraddrValidClear r s) _
    rw [execTopErraddrValidClear, winWrite_reached _ _ hwr]
    refine .intro _ ?_
    rw [State.regWrite, if_pos rfl, if_pos (by decide)]
    exact ⟨s.word_setWord_same _ _, fun a ha => s.word_setWord_other _ _ ha⟩
  · rw [exec_registerRead_word s reqPcie h4 hlt, winRead, winReach, if_neg (by decide), if_neg (by simp [hon]), if_pos (by simp [hwin])]
    exact .intro _ rfl
  · rw [exec_registerWrite_word s reqPcie v h4 hlt, winWrite, if_neg (by decide), if_pos (by simp [hon, hwin])]
    exact .intro _ rfl
  · obtain ⟨held, replies⟩ := s.wakeSource_held 1
    rw [exec_registerRead_word s reqPcie h4 hlt, winRead, winReach, if_neg (by decide), if_neg (by simp [hon]), if_neg (by simp [hwin]),
      if_pos (by simp [hsleep])]
    exact .intro _ ⟨congrArg (· ++ [(false, off, 1)]) held, replies⟩
  · obtain ⟨held, replies⟩ := s.wakeSource_held 1
    rw [exec_registerWrite_word s reqPcie v h4 hlt, winWrite, if_neg (by decide), if_neg (by simp [hon, hwin]), if_pos (by simp [hsleep])]
    exact .intro _ ⟨congrArg (· ++ [(true, off, v)]) held, replies⟩

end Sys2Proof.Machine
end


section

namespace Sys2Proof.Machine

open Sys2Proof

/-! ## Writes by access code (R15, R523) -/

section Writes

variable {s : State} {r off : Nat}

theorem stagedOf_isEmpty (off v : Nat) : (stagedOf off v).isEmpty = (stagedOf off 0).isEmpty := by
  unfold stagedOf
  split
  · rfl
  · split
    · rfl
    · split
      · rfl
      · rw [Bool.eq_iff_iff, List.isEmpty_iff, List.isEmpty_iff, List.filterMap_eq_nil_iff, List.filterMap_eq_nil_iff]
        refine forall₂_congr fun c _ => ?_
        split <;> simp

/-- A register whose writes do nothing else is written by its access codes. -/
theorem State.regWrite_plain (h : actsOnWrite off = false) (v : Nat) : s.regWrite r off v = s.plainWrite r off (v % 2 ^ 32) := by
  simp only [actsOnWrite, Bool.or_eq_false_iff, decide_eq_false_iff_not, ne_eq] at h
  obtain ⟨⟨⟨⟨⟨⟨⟨⟨⟨⟨⟨⟨haddr, htd⟩, hth⟩, hop⟩, havs⟩, hfence⟩, hstage⟩, hdzl⟩, hsec⟩, hsnc⟩, hcmd⟩, hcur⟩, -⟩ := h
  rw [← stagedOf_isEmpty off (v % 2 ^ 32)] at hstage
  simp only [State.regWrite]
  rw [if_neg haddr, if_neg (by simpa using htd), if_neg hth, if_neg hop, if_neg havs, if_neg hfence,
    if_neg (by rw [hstage]; exact Bool.false_ne_true), if_neg hdzl, if_neg (by simpa using hsec), if_neg hsnc, if_neg hcmd, if_neg hcur]

theorem stuckBits_zero (h : actsOnWrite off = false) : stuckBits off = 0 := by
  simp only [actsOnWrite, Bool.or_eq_false_iff, decide_eq_false_iff_not, ne_eq, not_not] at h
  exact h.2

theorem banked_above (h : banked off = true) : 0x2600000 ≤ off := by
  simp only [banked, Bool.or_eq_true, Bool.and_eq_true, decide_eq_true_eq] at h
  have op : 0x2600000 ≤ Reg.SNC_OP := by decide
  have buf : 0x2600000 ≤ Reg.SNC_BUF 0 := by decide
  have stat : 0x2600000 ≤ Reg.EVR_STAT := by decide
  have cursor : 0x2600000 ≤ Reg.EVR_CURSOR := by decide
  have window : 0x2600000 ≤ Reg.EVR_WINDOW 0 := by decide
  omega

theorem errorWord_below {a : Nat} (h : errorWord a) : a < 0x100 := by
  rcases h with rfl | rfl | rfl <;> decide

/-- The error words are in no bank. -/
theorem homeOf_error (h : errorWord (homeOf r off)) : homeOf r off = off := by
  have low := errorWord_below h
  unfold homeOf at *
  split
  · rename_i hb
    have := banked_above hb
    rw [if_pos hb] at low
    omega
  · rfl

theorem errorWord_unlocked : [Reg.TOP_ERR, Reg.TOP_ERRADDR, Reg.TOP_ERRCNT].all
    (fun a => (regFind a regTable).all fun x => !hasLocked x.1.fields) = true := by decide +kernel

/-- No register whose fields LOCK guards is an error word. -/
theorem hasLocked_not_errorWord {d : RegDesc} {i : Nat} (hd : regFind off regTable = some (d, i)) (hl : hasLocked d.fields = true) :
    ¬ errorWord (homeOf r off) := by
  intro h
  rw [homeOf_error h] at h
  have free := List.all_eq_true.1 errorWord_unlocked off (by rcases h with h | h | h <;> simp [h])
  rw [hd, Option.all_some, hl] at free
  cases free

/-- What a write by the access codes leaves: the register's word, and the note of a locked write. -/
theorem State.plainWrite_words {d : RegDesc} {i : Nat} (v : Nat) (hd : regFind off regTable = some (d, i)) (hs : stuckBits off = 0) :
    (s.plainWrite r off v).word (homeOf r off) = codeWrite (s.flag Fd.TOP_LOCK_LOCK) (s.word (homeOf r off)) v d.fields % 2 ^ 32 ∧
    s.sameWords (s.plainWrite r off v) fun a => a = homeOf r off ∨ (s.flag Fd.TOP_LOCK_LOCK = true ∧ errorWord a) := by
  unfold State.plainWrite
  rw [hd]
  dsimp only
  rw [hs, Nat.or_zero]
  generalize codeWrite (s.flag Fd.TOP_LOCK_LOCK) (s.word (homeOf r off)) v d.fields = w
  have set := s.word_setWord_same (homeOf r off) w
  have other : s.sameWords (s.setWord (homeOf r off) w) (· = homeOf r off) := fun a ha => s.word_setWord_other _ _ ha
  split
  · rename_i hl
    rw [Bool.and_eq_true] at hl
    have noted := (s.setWord (homeOf r off) w).noteErr_sameWords r off true eLOCKED
    refine ⟨(noted _ (hasLocked_not_errorWord hd hl.2)).trans set, ?_⟩
    exact (other.trans noted).mono fun a h => h.imp_right fun he => ⟨hl.1, he⟩
  · exact ⟨set, other.mono fun a h => .inl h⟩

/-- Each field of a register written by its access codes. -/
theorem State.get_plainWrite {d : RegDesc} {i : Nat} {f : FieldDesc} (v : Nat) (hd : regFind off regTable = some (d, i)) (hf : f ∈ d.fields)
    (hs : stuckBits off = 0) : f.get ((s.plainWrite r off (v % 2 ^ 32)).word (homeOf r off)) =
      f.written (s.flag Fd.TOP_LOCK_LOCK) (f.get v) (f.get (s.word (homeOf r off))) := by
  have apart := regFind_fieldsApart hd
  obtain ⟨hl, hw⟩ := fieldsApart_mem apart hf
  rw [(State.plainWrite_words _ hd hs).1, f.get_mod _ hw hl, get_codeWrite _ _ _ apart hf, f.get_mod _ hw hl]

theorem topLock_found : ∃ d i, regFind Reg.TOP_LOCK regTable = some (d, i) ∧
    ⟨0, 1, .w1s, 0, 0⟩ ∈ d.fields ∧ ⟨1, 1, .w1s, 0, 0⟩ ∈ d.fields ∧ hasLocked d.fields = false := by
  refine ⟨_, _, rfl, by decide, by decide, by decide⟩

/-- A write of TOP_LOCK sets the bits written 1. -/
theorem State.topLock_write (v : Nat) :
    (s.regWrite r Reg.TOP_LOCK v).rd Fd.TOP_LOCK_LOCK = s.rd Fd.TOP_LOCK_LOCK ||| getBits v 0 0 ∧
    (s.regWrite r Reg.TOP_LOCK v).rd Fd.TOP_LOCK_WINRO = s.rd Fd.TOP_LOCK_WINRO ||| getBits v 1 1 ∧
    s.sameWords (s.regWrite r Reg.TOP_LOCK v) (· = Reg.TOP_LOCK) := by
  obtain ⟨d, i, hd, hlock, hwinro, free⟩ := topLock_found
  have bit (f : FieldDesc) (hf : f ∈ d.fields) := s.get_plainWrite (r := r) v hd hf (by decide)
  rw [s.regWrite_plain (by decide)]
  refine ⟨bit _ hlock, bit _ hwinro, ?_⟩
  intro a ha
  unfold State.plainWrite
  rw [hd]
  dsimp only
  rw [free, Bool.and_false, if_neg Bool.false_ne_true]
  exact s.word_setWord_other _ _ ha

end Writes

/-- Settles O48: `codeWrite` writes each field by its access code, the fields of every register of the table being disjoint, and the note of
a locked write meets no register that LOCK guards. -/
theorem registerWritesByAccessCode : Obligations.RegisterWritesByAccessCode := by
  unfold Obligations.RegisterWritesByAccessCode
  intro s r off v hwr
  refine ⟨fun d i f h4 hlt hact hd hf => ?_, ?_⟩
  · have stuck := stuckBits_zero hact
    have lock : s.flag Fd.TOP_LOCK_LOCK = decide (s.rd Fd.TOP_LOCK_LOCK = 1) := s.flag_eq_rd_one _ rfl
    have field := s.get_plainWrite (r := r) v hd hf stuck
    obtain ⟨-, same⟩ := State.plainWrite_words (s := s) (r := r) (v % 2 ^ 32) hd stuck
    rw [exec_registerWrite_word s r v h4 hlt, winWrite_reached _ _ hwr, s.regWrite_plain hact]
    refine .intro _ ?_
    dsimp only
    rw [field, lock]
    unfold FieldDesc.written
    refine ⟨same.mono fun a h => h.imp_right fun ⟨hl, he⟩ => ⟨by simpa [lock] using hl, he⟩, ?_, ?_, ?_, ?_, ?_⟩
    · intro h; rw [h]
    · intro h; simp only [h, decide_eq_true_eq]
    · intro h; rw [h]
    · intro h j; rw [h]; exact testBit_sub_and _ _ _
    · rintro (h | h | h) <;> rw [h]
  · rintro rfl
    have bits (f : Fld) (h : f.msb = f.lsb) : s.rd f ||| 1 = 1 := by
      have := s.rd_lt f
      rw [h, Nat.add_sub_cancel_left] at this
      rcases (show s.rd f = 0 ∨ s.rd f = 1 by omega) with h | h <;> rw [h] <;> rfl
    constructor
    · show Next (execTopLockLock r s) _
      rw [execTopLockLock, winWrite_reached _ _ hwr]
      obtain ⟨lock, winro, same⟩ := s.topLock_write (r := r) 1
      exact .intro _ ⟨lock.trans (bits _ rfl), winro.trans (Nat.or_zero _), same⟩
    · show Next (execTopLockWinro r s) _
      rw [execTopLockWinro, winWrite_reached _ _ hwr]
      obtain ⟨lock, winro, same⟩ := s.topLock_write (r := r) 2
      exact .intro _ ⟨winro.trans (bits _ rfl), lock.trans (Nat.or_zero _), same⟩

end Sys2Proof.Machine
end


section

namespace Sys2Proof.Machine

open Sys2Proof

/-! ## Reads, RC fields and the latch (R14, R15) -/

section Reads

variable {s : State} {r off : Nat}

/-- The five low words are plain registers of their own, at multiples of 4 that no latch serves. -/
theorem lowWords_plain : (lowWords.all fun a => (digestAt a).isNone && a ≠ Reg.SEC_TRNG_DATA && !highWord a) = true := by decide

/-- So are the words after them, which the latch serves. -/
theorem highWords_latched : (lowWords.all fun a => (digestAt (a + 4)).isNone && a + 4 ≠ Reg.SEC_TRNG_DATA && decide (a + 4 < 2 ^ 26)) = true := by
  decide

theorem State.regRead_plain (hd : digestAt off = none) (ht : off ≠ Reg.SEC_TRNG_DATA) (hh : highWord off = false)
    (hl : lowWords.contains off = false) : s.regRead r off = s.readPlain r off := by
  rw [State.regRead, hd]
  dsimp only
  rw [if_neg ht, if_neg (by rw [hh]; exact Bool.false_ne_true), if_neg (by rw [hl]; exact Bool.false_ne_true)]

theorem State.regRead_low (hl : lowWords.contains off = true) : s.regRead r off = ((s.readPlain r off).1, s.latchHigh r off) := by
  have plain := List.all_eq_true.1 lowWords_plain off (List.contains_iff_mem.1 hl)
  simp only [Bool.and_eq_true, Option.isNone_iff_eq_none, decide_eq_true_eq, Bool.not_eq_true'] at plain
  obtain ⟨⟨hd, ht⟩, hh⟩ := plain
  rw [State.regRead, hd]
  dsimp only
  rw [if_neg ht, if_neg (by rw [hh]; exact Bool.false_ne_true), if_pos hl]

theorem highWord_split (hh : highWord off = true) : ∃ a ∈ lowWords, off = a + 4 := by
  simp only [highWord, Bool.and_eq_true, decide_eq_true_eq] at hh
  exact ⟨off - 4, List.contains_iff_mem.1 hh.2, by omega⟩

theorem State.regRead_high (hh : highWord off = true) : s.regRead r off = s.readHigh r off ∧ off < 2 ^ 26 := by
  obtain ⟨a, ha, rfl⟩ := highWord_split hh
  have latched := List.all_eq_true.1 highWords_latched a ha
  simp only [Bool.and_eq_true, Option.isNone_iff_eq_none, decide_eq_true_eq] at latched
  obtain ⟨⟨hd, ht⟩, hlt⟩ := latched
  refine ⟨?_, hlt⟩
  rw [State.regRead, hd]
  dsimp only
  rw [if_neg ht, if_pos hh]

/-- A read by the access codes: the fields as shown, WO fields as 0; RC fields clear, and no other register changes. -/
theorem State.readPlain_fields {d : RegDesc} {i : Nat} (hd : regFind off regTable = some (d, i)) :
    s.sameWords (s.readPlain r off).2 (· = homeOf r off) ∧ (s.readPlain r off).2.replies = s.replies ∧
    ∀ f ∈ d.fields, f.get (s.readPlain r off).1 = (if f.access = .wo then 0 else f.get (s.view r off)) ∧
      f.get ((s.readPlain r off).2.word (homeOf r off)) = (if f.access = .rc then 0 else f.get (s.word (homeOf r off))) := by
  have apart := regFind_fieldsApart hd
  unfold State.readPlain
  rw [hd]
  dsimp only
  refine ⟨fun a ha => s.word_setWord_other _ _ ha, s.setWord_replies _ _, fun f hf => ⟨get_codeShow _ apart hf, ?_⟩⟩
  obtain ⟨hl, hw⟩ := fieldsApart_mem apart hf
  rw [State.word_setWord_same, f.get_mod _ hw hl]
  exact get_codeRead _ apart hf

theorem readable_lt (h : s.readable r off = true) : off < 2 ^ 26 := by
  simp only [State.readable, unmapped, Bool.and_eq_true, Bool.not_eq_true', decide_eq_false_iff_not] at h
  obtain ⟨⟨-, hu⟩, -⟩ := h
  omega

/-- The latch holds the high word for its requester, in place of an older one. -/
theorem State.latchHigh_latch :
    (s.latchHigh r off).latch.filter (fun x => x.1 = latchKey r (off + 4)) =
      [(latchKey r (off + 4), BitVec.ofNat 32 (s.view r (off + 4)))] ∧
    ∀ x : Nat × Word, x.1 ≠ latchKey r (off + 4) → (x ∈ (s.latchHigh r off).latch ↔ x ∈ s.latch) := by
  unfold State.latchHigh
  dsimp only
  refine ⟨?_, fun x hx => ?_⟩
  · rw [List.filter_append, List.filter_filter]
    simp
  · have other : x ≠ (latchKey r (off + 4), BitVec.ofNat 32 (s.view r (off + 4))) := fun h => hx (congrArg Prod.fst h)
    simp [hx, other]

/-- The latched value is answered once. -/
theorem State.readHigh_latched {x : Nat × Word} (hx : (s.latch.find? fun y => y.1 = latchKey r off) = some x) :
    (s.readHigh r off).1 = x.2.toNat ∧ (s.readHigh r off).2.replies = s.replies ∧
    ((s.readHigh r off).2.latch.any fun y => y.1 = latchKey r off) = false := by
  unfold State.readHigh
  rw [hx]
  refine ⟨rfl, rfl, ?_⟩
  rw [List.any_eq_false]
  intro y hy
  simpa using (List.mem_filter.1 hy).2

theorem State.readHigh_unlatched (h : (s.latch.any fun x => x.1 = latchKey r off) = false) : s.readHigh r off = (s.view r off, s) := by
  have none : (s.latch.find? fun x => x.1 = latchKey r off) = none := by
    rw [List.find?_eq_none]
    exact fun x hx => List.any_eq_false.1 h x hx
  rw [State.readHigh, none]

end Reads

/-- Settles O49: a read goes by `codeShow` and `codeRead`, whose fields are disjoint; the latch keeps one entry for a requester's high word. -/
theorem registerReadsAndTheLatch : Obligations.RegisterReadsAndTheLatch := by
  unfold Obligations.RegisterReadsAndTheLatch
  intro s r off hrd
  refine ⟨?_, fun hlow => ?_, fun hhigh h4 => ⟨fun x hx => ?_, fun hnone => ?_⟩⟩
  · intro d i h4 hdig htrng hhigh hlow hd shown
    have read : Next (winRead r off s fun u => u.regRead r off) shown := by
      obtain ⟨same, replies, fields⟩ := s.readPlain_fields (r := r) hd
      rw [winRead_reached _ hrd, State.regRead_plain hdig htrng hhigh hlow]
      exact .intro _ ⟨_, congrArg _ replies, same, fields⟩
    refine ⟨by rw [exec_registerRead_word s r h4 (readable_lt hrd)]; exact read, fun hrc => ?_⟩
    show Next (execRcRegisterRead r off s) shown
    rw [execRcRegisterRead, if_pos hrc]
    exact read
  · show Next (execLowWordReadLatch r off s) _
    rw [execLowWordReadLatch, if_pos hlow, winRead_reached _ hrd, State.regRead_low hlow]
    exact .intro _ ⟨rfl, s.latchHigh_latch⟩
  · obtain ⟨value, replies, spent⟩ := State.readHigh_latched hx
    rw [exec_registerRead_word s r h4 (readable_lt hrd), winRead_reached _ hrd, (State.regRead_high hhigh).1]
    refine .intro _ ⟨?_, spent⟩
    show _ :: _ = _
    rw [value, replies]
  · rw [exec_registerRead_word s r h4 (readable_lt hrd), winRead_reached _ hrd, (State.regRead_high hhigh).1, State.readHigh_unlatched hnone]
    exact .intro _ rfl

end Sys2Proof.Machine
end


section

namespace Sys2Proof.Machine

open Sys2Proof

/-! ## Reset, and what a power-on and a retraining reach -/

/-- Settles O53: the register file, the functions and the queue are empty at reset, so each shows its default. -/
theorem resetLeavesTheResetColumn : Obligations.ResetLeavesTheResetColumn := by
  unfold Obligations.ResetLeavesTheResetColumn
  exact ⟨fun _ => rfl, by decide, by decide, by decide, by decide, fun _ _ => ⟨rfl, rfl⟩, rfl, State.canonical_reset⟩

/-- A word of the state a result answers. -/
def wordAfter (r : Result) (a : Nat) : Option Nat :=
  match r with
  | .next t => some (t.word a)
  | _ => none

theorem wordAfter_next {t : State} {a : Nat} : wordAfter (.next t) a = some (t.word a) := rfl

/-- A part in OFF in which the gecko has seen a storm of wake sources, the newest record of its ring bearing sequence 2^32. -/
def stormInOff : State :=
  { State.reset with
    pwr := { State.reset.pwr with offStorms := 1 }
    evr := { State.reset.evr with aon := [⟨2 ^ 32, 0, 0, 0, 0, []⟩] } }

theorem stormInOff_newest : wordAfter (exec (.powerOn true true 0) stormInOff) (Reg.EVR_NEWEST + 4) = some 1 := by decide +kernel

/-- Refutes O15: EVR_NEWEST holds a sequence of 48 bits, and the record of the storms seen in OFF writes both of its words. With sequence
2^32 in the ring the high word, which the statement does not except, becomes 1, where its Reset value is 0. -/
theorem not_powerOnResetsTheRegisters : ¬ Obligations.PowerOnResetsTheRegisters := by
  unfold Obligations.PowerOnResetsTheRegisters
  intro h
  obtain ⟨t, ht, words⟩ := h stormInOff true true 0 (by decide)
  have newest := stormInOff_newest
  rw [ht, wordAfter_next, words (Reg.EVR_NEWEST + 4) (by decide) (by decide) (by decide) (by decide) (by decide) (by decide) (by decide)] at newest
  exact absurd newest (by decide +kernel)

/-- A lane number past the block's lanes, whose register would lie past the DRAM controllers' block. -/
def strayLane : Nat := 0x80000

/-- A part whose first DRAM controller lists such a lane as due for retraining. -/
def retrainsStray : State :=
  { State.reset with dram := { State.reset.dram with ctls := [{ DramCtl.init with lanes := [strayLane] }] } }

theorem retrainsStray_word : wordAfter (exec (.laneRetrainSlice 0 strayLane true 1 0 0 0) retrainsStray) (Reg.DMC_C_LANE 0 strayLane) =
    some 0x1000000 := by
  decide +kernel

/-- Refutes O59: the statement leaves the lanes due for retraining and the operand free, and the slice of lane 80000h, which a state may
list, writes a word past the DRAM controllers' block. (Lanes 0 to 9, the ones `Instr.wf` admits, stay inside it.) -/
theorem not_framesOfTheBlocks : ¬ Obligations.FramesOfTheBlocks := by
  unfold Obligations.FramesOfTheBlocks
  intro h
  have written := retrainsStray_word
  cases ht : exec (.laneRetrainSlice 0 strayLane true 1 0 0 0) retrainsStray with
  | next t =>
    obtain ⟨dram, -⟩ := h retrainsStray t _ ht
    obtain ⟨-, same⟩ := dram 0 strayLane 1 0 0 0 0 [] true (by simp)
    rw [ht, wordAfter_next, same _ (by decide)] at written
    exact absurd written (by decide +kernel)
  | fault x => rw [ht] at written; cases written
  | refused x => rw [ht] at written; cases written

end Sys2Proof.Machine
end

section

namespace Sys2Proof.Machine

open Sys2Proof

-- One theorem at a time: side by side the proofs would wait for one another, each on a thread of its own.
set_option Elab.async false

/-! ## The loss of the rails (R199, R222, R502) -/

/-- A bound stripe with one whole round, three of its members on channels whose dies are not in service. -/
def strandedStripe : Stripe := ⟨1, 0, 0, 1, 0, 0, [⟨0, 0, 0, 0, 0⟩, ⟨1, 0, 0, 0, 0⟩, ⟨2, 0, 0, 0, 0⟩], 1, false, 0, 0, 0, 0, 0⟩

/-- A powered part whose RELEASE record of that stripe has not reached flash: the stripe stands in the maps before the record alone. -/
def releasedUnflashed : State :=
  { State.reset with
    pwr := { State.reset.pwr with on := true }
    xlt := { State.reset.xlt with journal := [⟨0, .release, [], { noMaps with stripes := [strandedStripe] }⟩] } }

/-- The count of lost event records in the state a result answers. -/
def lostAfter : Result → Option Nat
  | .next t => some t.evr.lost
  | _ => none

theorem lostAfter_next {t : State} : lostAfter (.next t) = some t.evr.lost := rfl

theorem releasedUnflashed_lost : lostAfter (exec (.vddAonLoss 0) releasedUnflashed) = some 1 := by decide +kernel

/-- Refutes O17: as the rails go, the maps go back to what they were before the first record that is not on flash, and that can find a
stripe with more members lost than its parity bears. The loss of its rows is recorded (R222) before the staging is lost, so with nothing
staged one record is lost, where the statement counts none. -/
theorem not_powerFailFlushAndRecovery : ¬ Obligations.PowerFailFlushAndRecovery := by
  unfold Obligations.PowerFailFlushAndRecovery
  intro ⟨flush, _⟩
  obtain ⟨-, -, u, hu, -, -, -, -, lost⟩ := flush releasedUnflashed 0 rfl
  have told := releasedUnflashed_lost
  rw [hu, lostAfter_next, lost] at told
  exact absurd told (by decide)

end Sys2Proof.Machine
end

section

namespace Sys2Proof.Machine

open Sys2Proof

-- One theorem at a time: side by side the proofs would wait for one another, each on a thread of its own.
set_option Elab.async false

/-! ## Fields that share no bit -/

/-- Two fields share no bit: their words are apart, or they are different bits of one word. -/
def Fld.apart (f g : Fld) : Bool :=
  decide (g.msb < 32) && (decide (g.reg ≠ f.reg) && (decide (f.msb < 32) || decide (g.reg ≠ f.reg + 4)) ||
    decide (f.lsb ≤ f.msb) && decide (f.msb < 32) && decide (g.reg = f.reg) && (decide (g.msb < f.lsb) || decide (f.msb < g.lsb)))

/-- A field of one word, and none of some words. -/
def Fld.outside (g : Fld) (words : List Nat) : Bool := decide (g.msb < 32) && !words.contains g.reg

section Apart

variable (s : State) {f g : Fld}

/-- A write leaves the fields that share no bit with its own. -/
theorem State.rd_wr_apart (v : Nat) (h : f.apart g = true) : (s.wr f v).rd g = s.rd g := by
  simp only [Fld.apart, Bool.and_eq_true, Bool.or_eq_true, decide_eq_true_eq] at h
  obtain ⟨hg, ⟨hr, hf | hr4⟩ | ⟨⟨⟨hl, hm⟩, hr⟩, hb⟩⟩ := h
  · exact s.rd_wr_reg f g v hf hg hr
  · rw [State.rd, State.rd, if_pos hg, if_pos hg, s.word_wr_wide f v hr hr4]
  · exact s.rd_wr_bits f g v ⟨hl, hm⟩ hg hr hb

theorem State.rd_setFlag_apart (b : Bool) (h : f.apart g = true) : (s.setFlag f b).rd g = s.rd g := s.rd_wr_apart _ h

theorem State.flag_wr_apart (v : Nat) (h : f.apart g = true) : (s.wr f v).flag g = s.flag g := by
  rw [State.flag, State.flag, s.rd_wr_apart v h]

theorem State.flag_setFlag_apart (b : Bool) (h : f.apart g = true) : (s.setFlag f b).flag g = s.flag g := s.flag_wr_apart _ h

/-- A value that fits its field reads back. -/
theorem State.rd_wr_fits {v : Nat} (h : f.narrow) (hv : v < 2 ^ (f.msb + 1 - f.lsb)) : (s.wr f v).rd f = v := by
  rw [s.rd_wr_same f v h, Nat.mod_eq_of_lt hv]

/-- A one-bit field reads back as it was set. -/
theorem State.flag_setFlag_same (b : Bool) (h : f.narrow) (h1 : f.msb = f.lsb) : (s.setFlag f b).flag f = b := by
  rw [State.flag, State.setFlag, s.rd_wr_same f _ h, h1, Nat.add_sub_cancel_left]
  cases b <;> rfl

theorem State.sameWords.rd_outside {s t : State} {words : List Nat} (h : s.sameWords t (· ∈ words)) (hg : g.outside words = true) :
    t.rd g = s.rd g := by
  simp only [Fld.outside, Bool.and_eq_true, decide_eq_true_eq, Bool.not_eq_true', List.contains_eq_mem, decide_eq_false_iff_not] at hg
  exact h.rd hg.1 hg.2

theorem State.sameWords.flag_outside {s t : State} {words : List Nat} (h : s.sameWords t (· ∈ words)) (hg : g.outside words = true) :
    t.flag g = s.flag g := by
  rw [State.flag, State.flag, h.rd_outside hg]

end Apart

/-! ## The words each shared operation changes -/

section Words

variable {s₀ s : State} {words : List Nat}

theorem State.sameWords.refl (s : State) (but : Nat → Prop) : s.sameWords s but := fun _ _ => rfl

theorem State.rd_of_regs {s t : State} (h : t.regs = s.regs) (g : Fld) : t.rd g = s.rd g := by
  rw [State.rd, State.rd, State.word, State.word, State.word, State.word, h]

/-- A step that leaves the register file leaves every word. -/
theorem State.sameWords.same {t : State} {but : Nat → Prop} (ht : t.regs = s.regs := by rfl) : s.sameWords t but :=
  fun a _ => by rw [State.word, State.word, ht]

theorem State.sameWords.of_regs {t : State} {but : Nat → Prop} (h : s₀.sameWords s but) (ht : t.regs = s.regs) : s₀.sameWords t but :=
  fun a ha => (State.sameWords.same (but := but) ht a ha).trans (h a ha)

section Fields

variable {now latch replies cqes fns rr nss zones clutches kept landing cmds adminTags efts xlt evr hlt quiesce med cho dzl sec boot pwr dram snc
  pins freeIx pending} {but : Nat → Prop}

/-- A change of fields other than the register file. -/
theorem State.sameWords.fields (h : s₀.sameWords s but) :
    s₀.sameWords ⟨now, s.regs, latch, replies, cqes, fns, rr, nss, zones, clutches, kept, landing, cmds, adminTags, efts, xlt, evr, hlt,
      quiesce, med, cho, dzl, sec, boot, pwr, dram, snc, pins, freeIx, pending⟩ but :=
  h.of_regs rfl

end Fields

theorem State.sameWords.setWord {but : Nat → Prop} (h : s₀.sameWords s but) {a v : Nat} (ha : but a) : s₀.sameWords (s.setWord a v) but :=
  fun b hb => (s.word_setWord_other a v (b := b) fun e => hb (e.symm ▸ ha)).trans (h b hb)

theorem State.sameWords.wr {but : Nat → Prop} (h : s₀.sameWords s but) {f : Fld} {v : Nat} (hf : but f.reg)
    (h4 : f.msb < 32 ∨ but (f.reg + 4)) : s₀.sameWords (s.wr f v) but := by
  unfold State.wr
  split
  · exact h.setWord hf
  · rename_i wide
    exact (h.setWord hf).setWord (h4.resolve_left wide)

theorem State.sameWords.setFlag {but : Nat → Prop} (h : s₀.sameWords s but) {f : Fld} {b : Bool} (hf : but f.reg)
    (h4 : f.msb < 32 ∨ but (f.reg + 4)) : s₀.sameWords (s.setFlag f b) but := h.wr hf h4

theorem State.sameWords.then {t : State} {p but : Nat → Prop} (h : s₀.sameWords s but) (ht : s.sameWords t p) (hp : ∀ a, p a → but a) :
    s₀.sameWords t but :=
  fun a ha => (ht a fun h => ha (hp a h)).trans (h a ha)

theorem State.sameWords.ite {c : Prop} {d : Decidable c} {but : Nat → Prop} {t u : State} (ht : s₀.sameWords t but)
    (hu : s₀.sameWords u but) : s₀.sameWords (if c then t else u) but := by
  split
  · exact ht
  · exact hu

/-- A branch that goes on, the other one standing still. -/
theorem State.sameWords.thenIf {c : Prop} {d : Decidable c} {but : Nat → Prop} {t : State} (h : s₀.sameWords s but)
    (k : s₀.sameWords s but → s₀.sameWords t but) : s₀.sameWords (if c then t else s) but :=
  .ite (k h) h

theorem State.sameWords.foldl {α : Type} {but : Nat → Prop} {f : State → α → State} {l : List α} (h : s₀.sameWords s but)
    (hf : ∀ u x, s₀.sameWords u but → s₀.sameWords (f u x) but) : s₀.sameWords (l.foldl f s) but := by
  induction l generalizing s with
  | nil => exact h
  | cons x l ih => exact ih (hf _ x h)

end Words

end Sys2Proof.Machine
end

section

namespace Sys2Proof.Machine

open Sys2Proof

-- One theorem at a time: side by side the proofs would wait for one another, each on a thread of its own.
set_option Elab.async false

/-! ## Registers that shared operations change (R39, R245, R411, R423, R473, R484) -/

/-- The words of an event record (`recordWord`), as a list. -/
def recordWords : List Nat := [Reg.EVR_NEWEST, Reg.EVR_NEWEST + 4, Reg.HLT_ALERT]

/-- The words of a mode change: the mode, the Critical Warning byte and the record's. -/
def modeWords : List Nat := [Reg.TOP_MODE, Reg.HLT_CRIT] ++ recordWords

/-- The words of the DVFS sequencer. -/
def clockWords : List Nat := [Reg.CLK_OP, Reg.CLK_AVS_STAT]

/-- The words of a change of the throttle level. -/
def levelWords : List Nat := Reg.GK_THERM :: clockWords ++ recordWords

/-- The words of a change of the chorus's STATE. -/
def choStateWords : List Nat := Reg.CHO_STATE :: recordWords

variable (s : State)

theorem State.record_words (code : Nat) (payload : List Nat) : s.sameWords (s.record code payload) (· ∈ recordWords) :=
  (s.record_sameWords code payload).mono fun a h => by simpa [recordWords, recordWord] using h

theorem State.refreshCrit_words : s.sameWords s.refreshCrit (· ∈ [Reg.HLT_CRIT]) := by
  unfold State.refreshCrit
  extract_lets old new t u fresh
  have written : s.sameWords t (· ∈ [Reg.HLT_CRIT]) := (State.sameWords.same).wr (by decide) (by decide)
  split
  · exact .refl s _
  · split
    · exact written
    · refine written.of_regs (foldl_same (·.regs) _ (fun v e => ?_) _ _)
      split
      · exact v.raise_regs _ _
      · rfl

/-- The register writes of a change to mode `m` (R39). -/
def State.moved (s : State) (m : Nat) : State :=
  let t := (s.wr Fd.TOP_MODE_PREV s.mode).wr Fd.TOP_MODE_MODE m
  if m = mQuiesce || m = mHold then t else t.wr Fd.TOP_MODE_RETURN 0

theorem State.moved_words (m : Nat) : s.sameWords (s.moved m) (· ∈ [Reg.TOP_MODE]) := by
  have written : s.sameWords ((s.wr Fd.TOP_MODE_PREV s.mode).wr Fd.TOP_MODE_MODE m) (· ∈ [Reg.TOP_MODE]) :=
    ((State.sameWords.same).wr (by decide) (by decide)).wr (by decide) (by decide)
  unfold State.moved
  dsimp only
  split
  · exact written
  · exact written.wr (by decide) (by decide)

/-- The words a mode change writes after the mode: the record's and the Critical Warning byte. -/
def modeNewsWords : List Nat := Reg.HLT_CRIT :: recordWords

/-- A change to another mode: its writes, then its record, its events and the Critical Warning byte. -/
theorem State.setMode_moved {m : Nat} (back : Bool) (h : s.mode ≠ m) : (s.moved m).sameWords (s.setMode m back) (· ∈ modeNewsWords) := by
  unfold State.setMode
  extract_lets old t u v w
  have recorded : u.sameWords v (· ∈ modeNewsWords) := (u.record_words _ _).mono fun _ h => List.mem_cons_of_mem _ h
  have told : u.sameWords w (· ∈ modeNewsWords) := by
    simp only [w]
    split
    · exact recorded.of_regs (foldl_same (·.regs) _ (fun x n => x.raise_regs n _) _ _)
    · exact recorded
  rw [if_neg h]
  exact told.then w.refreshCrit_words (by simp [modeNewsWords])

theorem State.setMode_self (back : Bool) : s.setMode s.mode back = s := by
  unfold State.setMode
  exact if_pos rfl

theorem State.setMode_words (m : Nat) (back : Bool) : s.sameWords (s.setMode m back) (· ∈ modeWords) := by
  by_cases h : s.mode = m
  · rw [← h, s.setMode_self]
    exact .refl s _
  · exact ((s.moved_words m).mono (by simp [modeWords])).then (s.setMode_moved back h) (by simp +contextual [modeWords, modeNewsWords])

theorem State.releaseHeld_words : s.sameWords s.releaseHeld (· ∈ clockWords) := by
  unfold State.releaseHeld
  split
  · exact .refl s _
  · split
    · exact .refl s _
    · exact (State.sameWords.same).wr (by decide) (by decide)

theorem State.voltDown_words : s.sameWords s.voltDown (· ∈ clockWords) := by
  unfold State.voltDown
  split
  · exact (((State.sameWords.same).wr (by decide) (by decide)).setFlag (by decide) (by decide)).then
      (State.releaseHeld_words _) fun _ h => h
  · exact .refl s _

theorem State.opDown_words (k : Nat) : s.sameWords (s.opDown k) (· ∈ clockWords) :=
  ((State.sameWords.same).wr (by decide) (by decide)).then (State.voltDown_words _) fun _ h => h

theorem State.settleCeil_words : s.sameWords s.settleCeil (· ∈ clockWords) := by
  unfold State.settleCeil
  extract_lets t u
  have shown : s.sameWords u (· ∈ clockWords) := ((State.sameWords.same).wr (by decide) (by decide)).setFlag (by decide) (by decide)
  split
  · exact shown.then (u.opDown_words _) fun _ h => h
  · exact shown

theorem State.wakeSource_words (k : Nat) : s.sameWords (s.wakeSource k) (· ∈ [Reg.GK_WAKESRC]) := by
  unfold State.wakeSource
  extract_lets t
  have latched : s.sameWords t (· ∈ [Reg.GK_WAKESRC]) := (State.sameWords.same).wr (by decide) (by decide)
  split
  · exact latched.of_regs rfl
  · exact latched

theorem State.setChoState_words (st : Nat) : s.sameWords (s.setChoState st) (· ∈ choStateWords) := by
  unfold State.setChoState
  extract_lets old ms t loud
  have shown : s.sameWords t (· ∈ choStateWords) :=
    ((State.sameWords.same).wr (by decide) (by decide)).then (State.record_words _ _ _) fun _ h => List.mem_cons_of_mem _ h
  split
  · exact .refl s _
  · split
    · exact shown.of_regs (t.raise_regs _ _)
    · exact shown

theorem State.setLevel_words (l : Nat) : s.sameWords (s.setLevel l) (· ∈ levelWords) := by
  unfold State.setLevel
  extract_lets old _ t u
  have recorded : s.sameWords u (· ∈ levelWords) :=
    ((State.sameWords.same).wr (by decide) (by decide)).then (t.record_words _ _) (by simp [levelWords]; grind)
  split
  · exact .refl s _
  · split
    · exact recorded
    · exact recorded.then u.settleCeil_words (by simp [levelWords]; grind)

/-! ## The mode itself -/

theorem State.mode_lt : s.mode < 16 := s.rd_lt _

/-- After a mode change the part is in that mode. -/
theorem State.setMode_mode {m : Nat} (back : Bool) (hm : m < 16) : (s.setMode m back).mode = m := by
  by_cases h : s.mode = m
  · rw [← h, s.setMode_self]
  · refine ((s.setMode_moved back h).rd_outside (by decide)).trans ?_
    unfold State.moved
    dsimp only
    split
    · exact State.rd_wr_fits _ ⟨by decide, by decide⟩ hm
    · exact (State.rd_wr_apart _ _ (by decide)).trans (State.rd_wr_fits _ ⟨by decide, by decide⟩ hm)

/-- A mode change leaves the fields of TOP_MODE beside MODE, PREV and RETURN. -/
theorem State.rd_setMode {g : Fld} (m : Nat) (back : Bool) (h : g.outside modeNewsWords = true)
    (hm : Fd.TOP_MODE_MODE.apart g = true) (hp : Fd.TOP_MODE_PREV.apart g = true) (hr : Fd.TOP_MODE_RETURN.apart g = true) :
    (s.setMode m back).rd g = s.rd g := by
  by_cases e : s.mode = m
  · rw [← e, s.setMode_self]
  · refine ((s.setMode_moved back e).rd_outside h).trans ?_
    have written : ((s.wr Fd.TOP_MODE_PREV s.mode).wr Fd.TOP_MODE_MODE m).rd g = s.rd g :=
      (State.rd_wr_apart _ _ hm).trans (s.rd_wr_apart _ hp)
    unfold State.moved
    dsimp only
    split
    · exact written
    · exact (State.rd_wr_apart _ _ hr).trans written

theorem State.flag_setMode {g : Fld} (m : Nat) (back : Bool) (h : g.outside modeNewsWords = true)
    (hm : Fd.TOP_MODE_MODE.apart g = true) (hp : Fd.TOP_MODE_PREV.apart g = true) (hr : Fd.TOP_MODE_RETURN.apart g = true) :
    (s.setMode m back).flag g = s.flag g := by
  rw [State.flag, State.flag, s.rd_setMode m back h hm hp hr]

end Sys2Proof.Machine
end

section

namespace Sys2Proof.Machine

open Sys2Proof

-- One theorem at a time: a default argument is read from the whole environment before it, so proofs side by side would only wait.
set_option Elab.async false

/-! ## What the end of commands and the release of data leave alone -/

/-- The registers a part of the data path keeps: the words of TOP, GK and CLK, or the bit that tells where records wait for flash (R175). -/
inductive Kept where
  | low
  | flash

/-- A field that is kept. -/
def Kept.holds : Kept → Fld → Prop
  | .low, g => g.msb < 32 ∧ g.reg < 0x400000
  | .flash, g => g = Fd.XLT_JRNL_FLASH

/-- A field of the data path's own: beside all that is kept. -/
def Fld.ofData (f : Fld) : Bool := decide (0x400000 ≤ f.reg) && f.apart Fd.XLT_JRNL_FLASH

/-- A step of the data path: commands end, records are written, blocks are released. Registers that are kept, power, pins, QUIESCE and the
start's state stay; no completion goes; no clutch and no key comes. -/
structure Undisturbed (k : Kept) (s t : State) : Prop where
  fields : ∀ g, k.holds g → t.rd g = s.rd g
  boot : t.boot = { s.boot with ckptCounts := t.boot.ckptCounts }
  pwr : t.pwr = s.pwr
  pins : t.pins = s.pins
  quiesce : t.quiesce = s.quiesce
  holdup : t.hlt.holdup = s.hlt.holdup
  eol : k = .low → t.xlt.eol = s.xlt.eol
  cqes : ∀ e ∈ s.cqes, e ∈ t.cqes
  clutches : s.clutches = [] → t.clutches = []
  slots : ∀ i, (s.slot i).kind = 0 → (t.slot i).kind = 0

variable {k : Kept} {s₀ s : State}

theorem Undisturbed.refl (s : State) : Undisturbed k s s :=
  ⟨fun _ _ => rfl, rfl, rfl, rfl, rfl, rfl, fun _ => rfl, fun _ h => h, id, fun _ => id⟩

theorem Undisturbed.trans {t : State} (h : Undisturbed k s₀ s) (ht : Undisturbed k s t) : Undisturbed k s₀ t where
  fields g hg := (ht.fields g hg).trans (h.fields g hg)
  boot := by rw [ht.boot, h.boot]
  pwr := ht.pwr.trans h.pwr
  pins := ht.pins.trans h.pins
  quiesce := ht.quiesce.trans h.quiesce
  holdup := ht.holdup.trans h.holdup
  eol hk := (ht.eol hk).trans (h.eol hk)
  cqes e he := ht.cqes e (h.cqes e he)
  clutches hc := ht.clutches (h.clutches hc)
  slots i hi := ht.slots i (h.slots i hi)

/-! ### Branches and folds -/

section Branches

variable {c : Prop} {d : Decidable c} {t u v : State} {α β : Type}

theorem Undisturbed.ite (ht : Undisturbed k s₀ t) (hu : Undisturbed k s₀ u) : Undisturbed k s₀ (if c then t else u) := by
  split
  · exact ht
  · exact hu

/-- A branch that goes on, the other one standing still. -/
theorem Undisturbed.thenIf (h : Undisturbed k s₀ t) (n : Undisturbed k s₀ t → Undisturbed k s₀ u) :
    Undisturbed k s₀ (if c then u else t) := .ite (n h) h

theorem Undisturbed.elseIf (h : Undisturbed k s₀ t) (n : Undisturbed k s₀ t → Undisturbed k s₀ u) :
    Undisturbed k s₀ (if c then t else u) := .ite h (n h)

theorem Undisturbed.pair {x : α} (h : Undisturbed k s₀ t) : Undisturbed k s₀ (x, t).2 := h

theorem Undisturbed.foldl_mem {f : State → α → State} {l : List α} (h : Undisturbed k s₀ t)
    (hf : ∀ u, ∀ x ∈ l, Undisturbed k s₀ u → Undisturbed k s₀ (f u x)) : Undisturbed k s₀ (l.foldl f t) := by
  induction l generalizing t with
  | nil => exact h
  | cons x l ih => exact ih (hf _ x List.mem_cons_self h) fun u y hy => hf u y (List.mem_cons_of_mem _ hy)

theorem Undisturbed.foldl {f : State → α → State} {l : List α} (h : Undisturbed k s₀ t)
    (hf : ∀ u x, Undisturbed k s₀ u → Undisturbed k s₀ (f u x)) : Undisturbed k s₀ (l.foldl f t) :=
  h.foldl_mem fun u x _ => hf u x

end Branches

/-! ### The state's fields -/

/-- A state whose kept parts are the old ones. -/
theorem Undisturbed.of_parts {t : State} (h : Undisturbed k s₀ s) (hr : t.regs = s.regs)
    (hb : t.boot = { s.boot with ckptCounts := t.boot.ckptCounts } := by rfl) (hp : t.pwr = s.pwr := by rfl) (hi : t.pins = s.pins := by rfl)
    (hq : t.quiesce = s.quiesce := by rfl) (hh : t.hlt.holdup = s.hlt.holdup := by rfl)
    (he : k = .low → t.xlt.eol = s.xlt.eol := by exact fun _ => rfl) (hc : ∀ e ∈ s.cqes, e ∈ t.cqes := by exact fun _ h => h)
    (hl : s.clutches = [] → t.clutches = [] := by exact id) (hs : ∀ i, (s.slot i).kind = 0 → (t.slot i).kind = 0 := by exact fun _ => id) :
    Undisturbed k s₀ t :=
  h.trans ⟨fun g _ => State.rd_of_regs hr g, hb, hp, hi, hq, hh, he, hc, hl, hs⟩

section Fields

variable {now latch replies fns rr nss zones kept landing cmds adminTags efts evr med cho dzl dram snc freeIx pending}

/-- A change of what none of this speaks of. -/
theorem Undisturbed.other (h : Undisturbed k s₀ s) :
    Undisturbed k s₀ ⟨now, s.regs, latch, replies, s.cqes, fns, rr, nss, zones, s.clutches, kept, landing, cmds, adminTags, efts, s.xlt, evr,
      s.hlt, s.quiesce, med, cho, dzl, s.sec, s.boot, s.pwr, dram, snc, s.pins, freeIx, pending⟩ :=
  h.of_parts rfl

section Translation

variable {stripes segs blocks nextStripe nextSeg genCounter nextPlace journal nextRec unflashed ckptQuarters ckptRunning ckptMaps ckptFrom
  ckptDone ckpts safe flashed installed nc spares sparesRef spawnErased spawnBlocks released logFree logFill works copies slices wlOn unread
  marker flushCut restored spareGiven remaps useFrom placed}

/-- A change that also reaches the translation, the end of life apart. -/
theorem Undisturbed.maps (h : Undisturbed k s₀ s) :
    Undisturbed k s₀ ⟨now, s.regs, latch, replies, s.cqes, fns, rr, nss, zones, s.clutches, kept, landing, cmds, adminTags, efts,
      ⟨stripes, segs, blocks, nextStripe, nextSeg, genCounter, nextPlace, journal, nextRec, unflashed, ckptQuarters, ckptRunning, ckptMaps,
        ckptFrom, ckptDone, ckpts, safe, flashed, installed, nc, spares, sparesRef, spawnErased, spawnBlocks, released, logFree, logFill, works,
        copies, slices, wlOn, unread, marker, flushCut, restored, s.xlt.eol, spareGiven, remaps, useFrom, placed⟩, evr,
      s.hlt, s.quiesce, med, cho, dzl, s.sec, s.boot, s.pwr, dram, snc, s.pins, freeIx, pending⟩ :=
  h.of_parts rfl

/-- A change that also reaches the clutches: none comes where there were none. -/
theorem Undisturbed.indexes {clutches} (h : Undisturbed k s₀ s) (hc : s.clutches = [] → clutches = []) :
    Undisturbed k s₀ ⟨now, s.regs, latch, replies, s.cqes, fns, rr, nss, zones, clutches, kept, landing, cmds, adminTags, efts,
      ⟨stripes, segs, blocks, nextStripe, nextSeg, genCounter, nextPlace, journal, nextRec, unflashed, ckptQuarters, ckptRunning, ckptMaps,
        ckptFrom, ckptDone, ckpts, safe, flashed, installed, nc, spares, sparesRef, spawnErased, spawnBlocks, released, logFree, logFill, works,
        copies, slices, wlOn, unread, marker, flushCut, restored, s.xlt.eol, spareGiven, remaps, useFrom, placed⟩, evr,
      s.hlt, s.quiesce, med, cho, dzl, s.sec, s.boot, s.pwr, dram, snc, s.pins, freeIx, pending⟩ :=
  h.of_parts rfl (hl := hc)

end Translation

/-- The same, the translation as it was. -/
theorem Undisturbed.overlay {clutches} (h : Undisturbed k s₀ s) (hc : s.clutches = [] → clutches = []) :
    Undisturbed k s₀ ⟨now, s.regs, latch, replies, s.cqes, fns, rr, nss, zones, clutches, kept, landing, cmds, adminTags, efts, s.xlt, evr,
      s.hlt, s.quiesce, med, cho, dzl, s.sec, s.boot, s.pwr, dram, snc, s.pins, freeIx, pending⟩ :=
  h.of_parts rfl (hl := hc)

end Fields

theorem map_of_nil {α β : Type} {l : List α} (f : α → β) (h : l = []) : l.map f = [] := by rw [h, List.map_nil]

theorem filter_of_nil {α : Type} {l : List α} (p : α → Bool) (h : l = []) : l.filter p = [] := by rw [h, List.filter_nil]

/-! ### Registers -/

theorem Undisturbed.ofRegs {t : State} (h : Undisturbed k s₀ s) (ht : s.RegsOnly t) (hf : ∀ g, k.holds g → t.rd g = s.rd g) :
    Undisturbed k s₀ t :=
  h.trans ⟨hf, by rw [ht], by rw [ht], by rw [ht], by rw [ht], by rw [ht], fun _ => by rw [ht], fun e he => by rw [ht]; exact he,
    fun hc => by rw [ht]; exact hc, fun i hi => by rw [ht]; exact hi⟩

/-- A field high in the window lies apart from a low one. -/
theorem Fld.apart_of_low {f g : Fld} (hf : 0x400000 ≤ f.reg) (hm : g.msb < 32) (hg : g.reg < 0x400000) : f.apart g = true := by
  have ne : g.reg ≠ f.reg := by omega
  have ne4 : g.reg ≠ f.reg + 4 := by omega
  simp [Fld.apart, hm, ne, ne4]

theorem Fld.ofData_apart {f : Fld} (h : f.ofData = true) (g : Fld) (hg : k.holds g) : f.apart g = true := by
  simp only [Fld.ofData, Bool.and_eq_true, decide_eq_true_eq] at h
  obtain ⟨high, beside⟩ := h
  cases k with
  | low => exact Fld.apart_of_low high hg.1 hg.2
  | flash => exact hg ▸ beside

/-- A field past the journal's word. -/
theorem Fld.ofData_of_reg {f : Fld} (h : 0x1000071 ≤ f.reg) : f.ofData = true := by
  have high : 0x400000 ≤ f.reg := by omega
  have ne : 0x1000070 ≠ f.reg := by omega
  have ne4 : 0x1000070 ≠ f.reg + 4 := by omega
  simp [Fld.ofData, Fld.apart, Fd.XLT_JRNL_FLASH, Reg.XLT_JRNL, high, ne, ne4]

theorem Undisturbed.wr {f : Fld} {v : Nat} (h : Undisturbed k s₀ s) (hf : f.ofData = true := by decide) : Undisturbed k s₀ (s.wr f v) :=
  h.ofRegs (s.wr_regsOnly f v) fun g hg => s.rd_wr_apart v (Fld.ofData_apart hf g hg)

theorem Undisturbed.setFlag {f : Fld} {b : Bool} (h : Undisturbed k s₀ s) (hf : f.ofData = true := by decide) :
    Undisturbed k s₀ (s.setFlag f b) := h.wr hf

/-- With the low words kept, any write high in the window. -/
theorem Undisturbed.wrHigh {f : Fld} {v : Nat} (h : Undisturbed .low s₀ s) (hf : 0x400000 ≤ f.reg) : Undisturbed .low s₀ (s.wr f v) :=
  h.ofRegs (s.wr_regsOnly f v) fun _ hg => s.rd_wr_apart v (Fld.apart_of_low hf hg.1 hg.2)

theorem Undisturbed.setWordHigh {a v : Nat} (h : Undisturbed .low s₀ s) (ha : 0x400000 ≤ a) : Undisturbed .low s₀ (s.setWord a v) := by
  refine h.ofRegs (s.setWord_regsOnly a v) fun g hg => ?_
  obtain ⟨hm, hr⟩ := hg
  have ne : g.reg ≠ a := by omega
  rw [State.rd, State.rd, if_pos hm, if_pos hm, s.word_setWord_other a v ne]

/-- With the journal's bit kept, any write beside it. -/
theorem Undisturbed.wrBeside {f : Fld} {v : Nat} (h : Undisturbed .flash s₀ s) (hf : f.apart Fd.XLT_JRNL_FLASH = true := by decide) :
    Undisturbed .flash s₀ (s.wr f v) :=
  h.ofRegs (s.wr_regsOnly f v) fun g hg => by
    obtain rfl : g = Fd.XLT_JRNL_FLASH := hg
    exact s.rd_wr_apart v hf

theorem Undisturbed.count {f : Fld} (h : Undisturbed k s₀ s) (hf : f.ofData = true := by decide) : Undisturbed k s₀ (s.count f) := h.wr hf

/-! ### Machine/Ops and Machine/Flags -/

theorem Undisturbed.setFn {n : Nat} {f : Fn} (h : Undisturbed k s₀ s) : Undisturbed k s₀ (s.setFn n f) := h.other

theorem Undisturbed.modFn {n : Nat} {g : Fn → Fn} (h : Undisturbed k s₀ s) : Undisturbed k s₀ (s.modFn n g) := h.setFn

theorem Undisturbed.modSq {n qid : Nat} {g : Sq → Sq} (h : Undisturbed k s₀ s) : Undisturbed k s₀ (s.modSq n qid g) := h.modFn

theorem Undisturbed.modNs {nsid : Nat} {g : Ns → Ns} (h : Undisturbed k s₀ s) : Undisturbed k s₀ (s.modNs nsid g) := h.other

theorem Undisturbed.setZone {nsid z : Nat} {w : Zone} (h : Undisturbed k s₀ s) : Undisturbed k s₀ (s.setZone nsid z w) := h.other

theorem Undisturbed.modCmd {tag : Nat} {g : Cmd → Cmd} (h : Undisturbed k s₀ s) : Undisturbed k s₀ (s.modCmd tag g) := h.other

theorem Undisturbed.dropCmd {tag : Nat} (h : Undisturbed k s₀ s) : Undisturbed k s₀ (s.dropCmd tag) := h.other

theorem Undisturbed.removeClutches {p : Clutch → Bool} (h : Undisturbed k s₀ s) : Undisturbed k s₀ (s.removeClutches p) :=
  h.overlay (filter_of_nil _)

theorem Undisturbed.setEft {p n : Nat} {e : Eft} (h : Undisturbed k s₀ s) : Undisturbed k s₀ (s.setEft p n e) := h.other

theorem Undisturbed.modEft {p n : Nat} {g : Eft → Eft} (h : Undisturbed k s₀ s) : Undisturbed k s₀ (s.modEft p n g) := h.setEft

theorem Undisturbed.setOwner {p n : Nat} {o : Owner} (h : Undisturbed .low s₀ s) : Undisturbed .low s₀ (s.setOwner p n o) := by
  have device : 0x400000 ≤ (Fd.EFT_PD_E_STATE_DEVICE p n).reg := by simp only [Fd.EFT_PD_E_STATE_DEVICE, Reg.EFT_PD_E_STATE]; omega
  cases o with
  | device => exact h.wrHigh device
  | fn f => exact (h.wrHigh device).wrHigh device

theorem Undisturbed.overq {f v : Nat} (h : Undisturbed k s₀ s) : Undisturbed k s₀ (s.wr (Fd.VFM_FN_STATE_OVERQ f) v) :=
  h.wr (Fld.ofData_of_reg (by simp only [Fd.VFM_FN_STATE_OVERQ, Reg.VFM_FN_STATE]; omega))

theorem Undisturbed.cutFlags {f : Nat} {cut : List Nat} (h : Undisturbed k s₀ s) : Undisturbed k s₀ (s.cutFlags f cut) := h.overq

theorem Undisturbed.settleFlags {f : Nat} (h : Undisturbed k s₀ s) : Undisturbed k s₀ (s.settleFlags f) := h.overq

/-! ### Machine/Link -/

theorem Undisturbed.modPort {p : Nat} {g : Port → Port} (h : Undisturbed k s₀ s) : Undisturbed k s₀ (s.modPort p g) := h.other

theorem Undisturbed.sendFrame {f : Frame} (h : Undisturbed k s₀ s) : Undisturbed k s₀ (s.sendFrame f) := by
  unfold State.sendFrame
  exact .ite h.modPort h.modPort.other

theorem Undisturbed.sendRouted {type dest flags tag : Nat} {b : Bytes} (h : Undisturbed k s₀ s) :
    Undisturbed k s₀ (s.sendRouted type dest flags tag b).2 := by
  unfold State.sendRouted
  split
  · exact h.pair
  · exact h.sendFrame.pair

theorem Undisturbed.modOut {tag : Nat} {g : PeerOut → PeerOut} (h : Undisturbed k s₀ s) : Undisturbed k s₀ (s.modOut tag g) := h.other

theorem Undisturbed.sendPread {o : PeerOut} (h : Undisturbed k s₀ s) : Undisturbed k s₀ (s.sendPread o) := by
  unfold State.sendPread
  refine .ite (.other (.modOut ?_)) h.modOut
  split
  · exact h.sendRouted
  · exact h.pair

theorem Undisturbed.sendOuts {n : Nat} (h : Undisturbed k s₀ s) : Undisturbed k s₀ (State.sendOuts n s) := by
  induction n generalizing s with
  | zero => exact h
  | succ n ih =>
    unfold State.sendOuts
    split
    · exact h
    · exact .ite h (ih h.sendPread)

theorem Undisturbed.dropOuts {tag : Nat} (h : Undisturbed k s₀ s) : Undisturbed k s₀ (s.dropOuts tag) := h.other.sendOuts

theorem Undisturbed.peerAnswer {i : PeerIn} {st : Status} {b : Bytes} (h : Undisturbed k s₀ s) : Undisturbed k s₀ (s.peerAnswer i st b) := by
  unfold State.peerAnswer
  exact .ite h.other.modOut (h.other.foldl fun _ _ hu => hu.sendRouted).sendRouted.other

theorem Undisturbed.peerEnd {c : Cmd} {st : Status} {data : Payload} (h : Undisturbed k s₀ s) : Undisturbed k s₀ (s.peerEnd c st data) := by
  unfold State.peerEnd
  split
  · exact h
  · exact h.peerAnswer

/-! ### Machine/Events -/

theorem Undisturbed.emit {code supp : Nat} {payload : List Nat} (h : Undisturbed k s₀ s) : Undisturbed k s₀ (s.emit code supp payload) := by
  unfold State.emit
  exact .ite h.other.wr.wr h.other.wr

theorem Undisturbed.record {code : Nat} {payload : List Nat} (h : Undisturbed k s₀ s) : Undisturbed k s₀ (s.record code payload) := by
  unfold State.record
  exact .ite h.emit (.ite h.other h.other.emit)

theorem Undisturbed.post {fn qid cid : Nat} {st : Status} {dw0 dw1 : Nat} {data : Payload} (h : Undisturbed k s₀ s) :
    Undisturbed k s₀ (s.post fn qid cid st dw0 dw1 data) := by
  have posted : Undisturbed k s₀ { s with cqes := ⟨fn, qid, cid, st, dw0, dw1, data, st.dnr⟩ :: s.cqes } :=
    h.of_parts rfl (hc := fun _ => List.mem_cons_of_mem _)
  unfold State.post
  exact .ite posted posted.modFn

theorem Undisturbed.done {src : Src} {st : Status} {dw0 dw1 : Nat} {data : Payload} (h : Undisturbed k s₀ s) :
    Undisturbed k s₀ (s.done src st dw0 dw1 data) := by
  unfold State.done
  exact .ite h.post h.post.modSq

theorem Undisturbed.finish {c : Cmd} {st : Status} {dw0 dw1 : Nat} {data : Payload} (h : Undisturbed k s₀ s) :
    Undisturbed k s₀ (s.finish c st dw0 dw1 data) := by
  unfold State.finish
  have posted : Undisturbed k s₀ (((if c.kind = .reconstruct then s.dropOuts c.tag else s).dropCmd c.tag).post c.fn c.qid c.cid st dw0 dw1 data) :=
    (h.thenIf (·.dropOuts)).dropCmd.post
  exact .ite h.dropCmd.peerEnd (.ite (.modSq (.ite posted posted.modSq)) (.ite posted posted.modSq))

/-- Delivering events adds completions alone. -/
theorem deliverTo_grows (l : List Aen) (f : Fn) (n : Nat) (q : List Cqe) : ∀ e ∈ q, e ∈ (deliverTo l f n q).2 := by
  fun_induction deliverTo l f n q with
  | case1 | case2 => exact fun _ he => he
  | case3 _ _ _ _ _ _ _ _ _ ih => exact ih
  | case4 _ _ _ _ _ _ _ _ _ ih => exact fun e he => ih e (List.mem_cons_of_mem _ he)

theorem Undisturbed.deliver {n : Nat} (h : Undisturbed k s₀ s) : Undisturbed k s₀ (s.deliver n) :=
  h.of_parts (t := s.deliver n) rfl (hc := deliverTo_grows _ _ _ _)

theorem Undisturbed.raise {n : Nat} {a : Aen} (h : Undisturbed k s₀ s) : Undisturbed k s₀ (s.raise n a) := h.modFn.deliver

theorem Undisturbed.refreshCrit (h : Undisturbed k s₀ s) : Undisturbed k s₀ s.refreshCrit := by
  unfold State.refreshCrit
  extract_lets old new t _ u fresh
  have shown : Undisturbed k s₀ u := (show Undisturbed k s₀ t from h.wr).of_parts rfl
  exact .ite h (.ite shown (shown.foldl fun _ _ hu => hu.thenIf (·.raise)))

/-- A mode change keeps the journal's bit. -/
theorem Undisturbed.setMode {m : Nat} {back : Bool} (h : Undisturbed .flash s₀ s) : Undisturbed .flash s₀ (s.setMode m back) := by
  unfold State.setMode
  extract_lets old t u v w
  have moved : Undisturbed .flash s₀ u := .ite h.wrBeside.wrBeside h.wrBeside.wrBeside.wrBeside
  have told : Undisturbed .flash s₀ w := .ite (moved.record.foldl fun _ _ hu => hu.raise) moved.record
  exact .ite h told.refreshCrit

theorem Undisturbed.enterReadonly {cause : Nat} (h : Undisturbed .flash s₀ s) : Undisturbed .flash s₀ (s.enterReadonly cause) := by
  unfold State.enterReadonly
  exact .ite h.wrBeside.setMode.wr h.wrBeside.setMode

theorem Undisturbed.degrade {cause : Nat} (h : Undisturbed .flash s₀ s) : Undisturbed .flash s₀ (s.degrade cause) := by
  unfold State.degrade
  exact .ite h.wrBeside.setMode h.wrBeside

theorem Undisturbed.endOfLife (h : Undisturbed .flash s₀ s) : Undisturbed .flash s₀ s.endOfLife := by
  have found : Undisturbed .flash s₀ { s with xlt := { s.xlt with eol := true } } := h.of_parts rfl (he := fun e => by cases e)
  unfold State.endOfLife
  exact .ite found.enterReadonly found

/-! ### Machine/FrontEnd -/

theorem Undisturbed.pushItem {p n : Nat} {i : Item} (h : Undisturbed k s₀ s) : Undisturbed k s₀ (s.pushItem p n i) := h.modEft

theorem Undisturbed.placeItems {p : Nat} {is : List Item} (h : Undisturbed k s₀ s) : Undisturbed k s₀ (s.placeItems p is).2 := by
  induction is generalizing s with
  | nil => exact h
  | cons i is ih =>
    unfold State.placeItems
    split
    · exact h
    · exact ih h.pushItem

theorem Undisturbed.placeCmd {c : Cmd} {is : List Item} (h : Undisturbed k s₀ s) : Undisturbed k s₀ (s.placeCmd c is) := by
  unfold State.placeCmd
  exact h.elseIf fun h' => h'.elseIf (·.placeItems.modCmd)

/-! ### Machine/Translation -/

theorem Undisturbed.startCheckpoint (h : Undisturbed k s₀ s) : Undisturbed k s₀ s.startCheckpoint := by
  unfold State.startCheckpoint
  exact h.elseIf (·.of_parts rfl)

theorem Undisturbed.journal {j : JKind} {args : List Nat} (h : Undisturbed k s₀ s) : Undisturbed k s₀ (s.journal j args) := by
  unfold State.journal
  exact .ite h.maps.wr.startCheckpoint h.maps.wr

theorem Undisturbed.setBlock {n : Nat} {b : Block} (h : Undisturbed k s₀ s) : Undisturbed k s₀ (s.setBlock n b) := h.maps

theorem Undisturbed.modBlock {n : Nat} {g : Block → Block} (h : Undisturbed k s₀ s) : Undisturbed k s₀ (s.modBlock n g) := h.setBlock

theorem Undisturbed.takeBlocks {choir st owner : Nat} {ms : List Member} (h : Undisturbed k s₀ s) :
    Undisturbed k s₀ (s.takeBlocks choir st owner ms) :=
  h.foldl fun _ _ hu => hu.modBlock

theorem Undisturbed.newStripe {choir cls : Nat} {high : Bool} {st nsid zone copyOf : Nat} (h : Undisturbed k s₀ s) :
    Undisturbed k s₀ (s.newStripe choir cls high st nsid zone copyOf).2 := by
  unfold State.newStripe
  exact h.takeBlocks.maps.pair

theorem Undisturbed.modStripe {seq : Nat} {g : Stripe → Stripe} (h : Undisturbed k s₀ s) : Undisturbed k s₀ (s.modStripe seq g) := h.maps

theorem Undisturbed.modSeg {id : Nat} {g : Segment → Segment} (h : Undisturbed k s₀ s) : Undisturbed k s₀ (s.modSeg id g) := h.maps

theorem Undisturbed.addErased {c n : Nat} (h : Undisturbed k s₀ s) : Undisturbed k s₀ (s.addErased c n) := h.maps

theorem Undisturbed.drawReserve (h : Undisturbed k s₀ s) : Undisturbed k s₀ s.drawReserve := h.foldl fun _ _ hu => hu.addErased

theorem Undisturbed.refreshXlt (h : Undisturbed k s₀ s) : Undisturbed k s₀ s.refreshXlt := by
  have free : ∀ c ∈ List.range 4, (Fd.XLT_FREE_COUNT c).ofData = true := by decide
  have pend : ∀ c ∈ List.range 4, (Fd.XLT_RECLAIM_PEND c).ofData = true := by decide
  have log : ∀ c ∈ List.range 4,
      (nth [Fd.XLT_LOG_FREE_C0, Fd.XLT_LOG_FREE_C1, Fd.XLT_LOG_FREE_C2, Fd.XLT_LOG_FREE_C3] c Fd.XLT_LOG_FREE_C0).ofData = true := by decide
  unfold State.refreshXlt
  exact h.elseIf fun h' => ((h'.drawReserve.foldl_mem fun _ c hc hu => hu.thenIf (·.wr (free c hc))).foldl_mem fun _ c hc hu =>
    hu.wr (pend c hc)).wr.wr.wr.wr.setFlag.wr.foldl_mem fun _ c hc hu => hu.wr (log c hc)

theorem Undisturbed.setLevels (h : Undisturbed .low s₀ s) : Undisturbed .low s₀ s.setLevels := by
  unfold State.setLevels
  exact h.elseIf (·.foldl fun _ c hu => hu.wrHigh (by simp only [Fd.XLT_FREE_LEVEL, Reg.XLT_FREE]; omega))

theorem Undisturbed.bindStripe {choir cls : Nat} {high : Bool} {st nsid zone : Nat} (h : Undisturbed k s₀ s) :
    Undisturbed k s₀ (s.bindStripe choir cls high st nsid zone).2 := by
  unfold State.bindStripe
  exact h.journal.newStripe

theorem Undisturbed.releaseUnit {c unit n rec' : Nat} (h : Undisturbed k s₀ s) : Undisturbed k s₀ (s.releaseUnit c unit n rec') :=
  h.maps.refreshXlt

theorem Undisturbed.refreshRebuild (h : Undisturbed k s₀ s) : Undisturbed k s₀ s.refreshRebuild := h.setFlag.wr

theorem Undisturbed.releaseStripe {seq : Nat} (h : Undisturbed k s₀ s) : Undisturbed k s₀ (s.releaseStripe seq) := by
  unfold State.releaseStripe
  split
  · exact h
  · exact (h.journal.modStripe.foldl fun _ _ hu => hu.modBlock).maps.refreshRebuild.releaseUnit

theorem Undisturbed.releaseSeg {id : Nat} (h : Undisturbed k s₀ s) : Undisturbed k s₀ (s.releaseSeg id) := by
  unfold State.releaseSeg
  split
  · exact h
  · exact (h.journal.modSeg.foldl fun _ _ hu => hu.modBlock).maps.refreshRebuild.releaseUnit

theorem Undisturbed.releaseBlock {n : Nat} {slc : Bool} (h : Undisturbed k s₀ s) : Undisturbed k s₀ (s.releaseBlock n slc) :=
  h.journal.modBlock.releaseUnit

theorem Undisturbed.abandonCopies {seq : Nat} (h : Undisturbed k s₀ s) : Undisturbed k s₀ (s.abandonCopies seq) :=
  (h.foldl fun _ _ hu => hu.releaseStripe).maps

theorem Undisturbed.roundWhole {q r : Nat} (h : Undisturbed k s₀ s) : Undisturbed k s₀ (s.roundWhole q r) := by
  unfold State.roundWhole
  split
  · exact h
  · exact h.journal.modStripe.overlay (map_of_nil _)

theorem Undisturbed.settleRounds {q : Nat} (h : Undisturbed k s₀ s) : Undisturbed k s₀ (s.settleRounds q) := by
  unfold State.settleRounds
  split
  · exact h
  · exact h.elseIf (·.foldl fun _ _ hu => hu.roundWhole)

theorem Undisturbed.dropCopiesOf {ids : List Nat} (h : Undisturbed k s₀ s) : Undisturbed k s₀ (s.dropCopiesOf ids) := h.maps

/-! ### Machine/Zones -/

theorem Undisturbed.recordResets {n : Ns} {g : Nat} {zs : List Nat} (h : Undisturbed k s₀ s) : Undisturbed k s₀ (s.recordResets n g zs) :=
  h.foldl fun _ _ hu => hu.journal

theorem Undisturbed.clearZones {n : Ns} {g : Nat} {zs : List Nat} (h : Undisturbed k s₀ s) : Undisturbed k s₀ (s.clearZones n g zs) := by
  refine (h.foldl fun _ _ hu => .setZone ?_).settleFlags
  split
  · exact hu.removeClutches.abandonCopies.releaseStripe
  · exact hu.removeClutches

theorem Undisturbed.emptyZones {n : Ns} {g : Nat} {zs : List Nat} (h : Undisturbed k s₀ s) : Undisturbed k s₀ (s.emptyZones n g zs) :=
  h.recordResets.clearZones

theorem Undisturbed.nextGen (h : Undisturbed k s₀ s) : Undisturbed k s₀ s.nextGen := h.maps

theorem Undisturbed.commitResets (h : Undisturbed k s₀ s) : Undisturbed k s₀ s.commitResets := by
  refine h.foldl fun _ _ hu => ?_
  split
  · exact hu.clearZones.finish
  · exact hu

/-! ### Machine/Tenancy -/

/-- A slot written empty is empty, and no other changes. -/
theorem Undisturbed.zeroSlot {n : Nat} (h : Undisturbed k s₀ s) : Undisturbed k s₀ (s.zeroSlot n) := by
  refine h.of_parts rfl (hs := fun i hi => ?_)
  by_cases e : i = n
  · rw [e, State.slot, State.zeroSlot, State.setSlot, tblGet_set_same]
    rfl
  · rw [State.slot, State.zeroSlot, State.setSlot, tblGet_set_other _ _ _ e]
    exact hi

theorem Undisturbed.chargePf0 (h : Undisturbed k s₀ s) : Undisturbed k s₀ s.chargePf0 := h.cutFlags

theorem Undisturbed.unassign {fn : Nat} (h : Undisturbed .low s₀ s) : Undisturbed .low s₀ (s.unassign fn) :=
  ((h.foldl fun _ _ hu => hu.zeroSlot).other.foldl fun _ _ hu => hu.setWordHigh (by unfold Reg.VFM_FN_STATE; omega)).modFn.chargePf0

/-! ### Machine/Efts -/

theorem Undisturbed.scrubEft {p n : Nat} (h : Undisturbed .low s₀ s) : Undisturbed .low s₀ (s.scrubEft p n) := by
  have high : 0x400000 ≤ (Fd.EFT_PD_SCRUBS_COUNT p).reg := by simp only [Fd.EFT_PD_SCRUBS_COUNT, Reg.EFT_PD_SCRUBS]; omega
  exact h.modEft.wrHigh high

theorem Undisturbed.startItem {p n : Nat} {i : Item} (h : Undisturbed .low s₀ s) : Undisturbed .low s₀ (s.startItem p n i) :=
  (h.thenIf (·.scrubEft)).modEft.setOwner

theorem Undisturbed.cancelItems {tag : Nat} (h : Undisturbed k s₀ s) : Undisturbed k s₀ (s.cancelItems tag) := h.other

theorem Undisturbed.startOutput {p n : Nat} {i : Item} {c : Cmd} (h : Undisturbed .low s₀ s) :
    Undisturbed .low s₀ (s.startOutput p n i c) := by
  refine .modCmd (.modEft (.startItem ?_))
  split
  · exact h.modEft
  · exact h

theorem Undisturbed.resumeOutput {c : Cmd} {n : Nat} (h : Undisturbed .low s₀ s) : Undisturbed .low s₀ (s.resumeOutput c n) := by
  unfold State.resumeOutput
  extract_lets
  split
  · exact h
  · exact .ite h.modEft.startOutput h.modEft.pushItem

theorem Undisturbed.issueTerms {c : Cmd} (h : Undisturbed .low s₀ s) : Undisturbed .low s₀ (s.issueTerms c) := by
  unfold State.issueTerms
  split
  · exact h
  · exact .ite h.resumeOutput (h.foldl fun _ _ hu => hu.pushItem).modCmd

theorem Undisturbed.concludeOne {c : Cmd} (h : Undisturbed .low s₀ s) : Undisturbed .low s₀ (s.concludeOne c) := by
  unfold State.concludeOne
  exact .ite h.cancelItems.finish h.issueTerms

theorem Undisturbed.concludeRecon (h : Undisturbed .low s₀ s) : Undisturbed .low s₀ s.concludeRecon := by
  refine h.foldl fun _ _ hu => ?_
  split
  · exact hu.elseIf (·.concludeOne)
  · exact hu

theorem Undisturbed.startPeer {i : PeerIn} (h : Undisturbed k s₀ s) : Undisturbed k s₀ (s.startPeer i) := by
  unfold State.startPeer
  split
  · exact h.peerAnswer
  · exact h.elseIf (·.other.placeCmd.other)

theorem Undisturbed.startPeers (h : Undisturbed k s₀ s) : Undisturbed k s₀ s.startPeers := by
  unfold State.startPeers
  exact h.elseIf fun h' => h'.foldl fun _ _ hu => hu.thenIf (·.startPeer)

theorem Undisturbed.failQueuedWrites (h : Undisturbed .low s₀ s) : Undisturbed .low s₀ s.failQueuedWrites :=
  (h.foldl fun _ _ hu => hu.cancelItems.finish).concludeRecon

/-! ### Machine/Rebuild and Machine/Media: commits whose records are on flash -/

theorem Undisturbed.queueFirst {o : DieOp} (h : Undisturbed k s₀ s) : Undisturbed k s₀ (s.queueFirst o) := h.other

theorem Undisturbed.requeueMember {q n : Nat} (h : Undisturbed k s₀ s) : Undisturbed k s₀ (s.requeueMember q n) := by
  unfold State.requeueMember
  split
  · exact h
  · split
    · exact h
    · exact h.elseIf (·.foldl fun _ _ hu => hu.queueFirst)

theorem Undisturbed.refreshSpares (h : Undisturbed k s₀ s) : Undisturbed k s₀ s.refreshSpares := by
  have spare : ∀ c ∈ List.range 4, (Fd.MED_SPARE_COUNT c).ofData = true := by decide
  exact h.maps.foldl_mem fun _ c hc hu => hu.wr (spare c hc)

theorem Undisturbed.checkReserve (h : Undisturbed .flash s₀ s) : Undisturbed .flash s₀ s.checkReserve := by
  unfold State.checkReserve
  exact h.elseIf (·.endOfLife)

theorem Undisturbed.addAuto {e : AutoEntry} (h : Undisturbed k s₀ s) : Undisturbed k s₀ (s.addAuto e) :=
  .refreshCrit (.ite h.other.record.raise (.ite h.other.record.raise h.other.record))

theorem Undisturbed.noteAuto {e : AutoEntry} (h : Undisturbed k s₀ s) : Undisturbed k s₀ (s.noteAuto e) := by
  unfold State.noteAuto
  exact .ite h.other h.addAuto

theorem Undisturbed.modMember {r : Rebuild} {g : Member → Member} (h : Undisturbed k s₀ s) : Undisturbed k s₀ (s.modMember r g) := by
  unfold State.modMember
  exact .ite h.maps h.modStripe

theorem Undisturbed.settleRebuilds (h : Undisturbed k s₀ s) : Undisturbed k s₀ s.settleRebuilds :=
  h.foldl fun _ _ hu => hu.elseIf (·.other.noteAuto)

theorem Undisturbed.dropEmptySeg {seg : Nat} (h : Undisturbed k s₀ s) : Undisturbed k s₀ (s.dropEmptySeg seg) := by
  unfold State.dropEmptySeg
  split
  · exact h
  · exact h.elseIf (·.releaseSeg)

theorem Undisturbed.compactCommit {c q : Nat} (h : Undisturbed k s₀ s) : Undisturbed k s₀ (s.compactCommit c q) :=
  (h.indexes (map_of_nil _)).dropCopiesOf.releaseStripe

theorem Undisturbed.stripeCommit {t : Stripe} (h : Undisturbed k s₀ s) : Undisturbed k s₀ (s.stripeCommit t) :=
  (h.modStripe.indexes (map_of_nil _)).dropCopiesOf.releaseStripe

theorem Undisturbed.foldCommit {g : Nat} (h : Undisturbed k s₀ s) : Undisturbed k s₀ (s.foldCommit g) :=
  (h.overlay (map_of_nil _)).dropCopiesOf.releaseSeg

theorem Undisturbed.homeCommit {c id g p : Nat} (h : Undisturbed k s₀ s) : Undisturbed k s₀ (s.homeCommit c id g p) := by
  unfold State.homeCommit
  extract_lets old x s1 s2
  have moved : Undisturbed k s₀ s2 := .dropCopiesOf (h.indexes (map_of_nil _))
  clear_value old
  split
  · exact moved.dropEmptySeg
  · exact moved

theorem Undisturbed.memberCommit {r : Rebuild} {m : Member} (h : Undisturbed .flash s₀ s) : Undisturbed .flash s₀ (s.memberCommit r m) :=
  .checkReserve (.refreshSpares (.settleRebuilds (.refreshRebuild (.ite (.ite h.modMember.other h.modMember.other.releaseBlock)
    (.settleRounds (.requeueMember (.ite h.modMember.other h.modMember.other.releaseBlock)))))))

theorem Undisturbed.applyRemap {r : Remap} (h : Undisturbed .flash s₀ s) : Undisturbed .flash s₀ (s.applyRemap r) := by
  unfold State.applyRemap
  split
  · split
    · exact h.stripeCommit
    · exact h
  · exact h.foldCommit
  · exact h.compactCommit
  · exact h.homeCommit
  · split
    · split
      · exact h.memberCommit
      · exact h
    · exact h

theorem Undisturbed.commitRemaps (h : Undisturbed .flash s₀ s) : Undisturbed .flash s₀ s.commitRemaps :=
  h.foldl fun _ _ hu => .ite hu (.ite hu.maps.applyRemap hu.maps)

/-! ### Machine/Sanitize: the parts of a crypto erase -/

theorem Undisturbed.dropWorks {nsid : Nat} (h : Undisturbed k s₀ s) : Undisturbed k s₀ (s.dropWorks nsid) := h.maps

theorem Undisturbed.dropEmptySegs (h : Undisturbed k s₀ s) : Undisturbed k s₀ s.dropEmptySegs := h.foldl fun _ _ hu => hu.dropEmptySeg

theorem Undisturbed.dropConv {nsid : Nat} (h : Undisturbed k s₀ s) : Undisturbed k s₀ (s.dropConv nsid) :=
  (h.removeClutches.foldl fun _ _ hu => hu.releaseStripe).maps

theorem Undisturbed.bindHomes {n : Ns} (h : Undisturbed .low s₀ s) : Undisturbed .low s₀ (s.bindHomes n) := by
  unfold State.bindHomes
  exact h.elseIf fun h' => (h'.foldl fun _ _ hu => hu.bindStripe).refreshXlt.setLevels

theorem Undisturbed.dropData {g : Nat} {n : Ns} (h : Undisturbed k s₀ s) : Undisturbed k s₀ (s.dropData g n) :=
  .refreshXlt (.dropEmptySegs (.dropWorks (.modNs (.ite (h.emptyZones.foldl fun _ _ hu => hu.setZone) h.dropConv))))

theorem Undisturbed.newKey {nsid : Nat} (h : Undisturbed k s₀ s) : Undisturbed k s₀ (s.newKey nsid) := by
  have drawn {t : State} {d : Nat} (ht : Undisturbed k s₀ t) : Undisturbed k s₀ { t with sec := { t.sec with drawn := d } } := ht.of_parts rfl
  refine .modNs (drawn ?_)
  split
  · exact h.zeroSlot
  · exact h

/-- The functions' slots are empty afterwards, and the device's as they were. -/
theorem State.slot_zeroFnSlots (s : State) (i : Nat) : s.zeroFnSlots.slot i = if keySlotsForFns ≤ i then s.slot i else slotDefault i := by
  simp only [State.slot, State.zeroFnSlots]
  induction s.sec.slots with
  | nil => simp [tblGet]
  | cons e l ih =>
    obtain ⟨j, v⟩ := e
    by_cases hj : keySlotsForFns ≤ j
    · rw [List.filter_cons_of_pos (by simpa using hj), tblGet, tblGet, ih]
      split
      · rename_i e
        rw [if_pos (e ▸ hj)]
      · rfl
    · rw [List.filter_cons_of_neg (by simpa using hj), ih, tblGet]
      by_cases e : j = i
      · rw [if_neg (e ▸ hj), if_neg (e ▸ hj)]
      · rw [if_neg e]

theorem Undisturbed.zeroFnSlots (h : Undisturbed k s₀ s) : Undisturbed k s₀ s.zeroFnSlots := by
  refine h.of_parts rfl (hs := fun i hi => ?_)
  rw [s.slot_zeroFnSlots]
  split
  · exact hi
  · rfl

theorem Undisturbed.endAllIo (h : Undisturbed .low s₀ s) : Undisturbed .low s₀ s.endAllIo :=
  (h.foldl fun _ _ hu => hu.cancelItems.finish).concludeRecon

theorem Undisturbed.dropAllData (h : Undisturbed k s₀ s) : Undisturbed k s₀ s.dropAllData := h.nextGen.foldl fun _ _ hu => hu.dropData

theorem Undisturbed.releaseAll (h : Undisturbed k s₀ s) : Undisturbed k s₀ s.releaseAll :=
  (((h.indexes fun _ => rfl).foldl fun _ _ hu => hu.releaseStripe).foldl fun _ _ hu => hu.releaseSeg).maps

theorem Undisturbed.unassignAll (h : Undisturbed .low s₀ s) : Undisturbed .low s₀ s.unassignAll := h.foldl fun _ _ hu => hu.unassign

theorem Undisturbed.newKeys (h : Undisturbed k s₀ s) : Undisturbed k s₀ s.newKeys := h.foldl fun _ _ hu => hu.newKey

theorem Undisturbed.cryptoErase (h : Undisturbed .low s₀ s) : Undisturbed .low s₀ s.cryptoErase :=
  (h.endAllIo.zeroFnSlots.newKeys.dropAllData.releaseAll.foldl fun _ _ hu => hu.bindHomes).unassignAll.refreshXlt

end Sys2Proof.Machine
end

section

namespace Sys2Proof.Machine

open Sys2Proof

-- One theorem at a time: side by side the proofs would wait for one another, each on a thread of its own.
set_option Elab.async false

/-! ## A temperature sample (R418-R420, R424) -/

/-- The words a sample changes beside its reading's own: the thermal state, what STOP reaches, and the records'. -/
def stopWords : List Nat := [Reg.GK_THERM, Reg.GK_WAKESRC, Reg.CHO_STATE, Reg.HLT_CRIT] ++ clockWords ++ recordWords

/-- The words of STOP itself, the thermal state apart. -/
def stopNewsWords : List Nat := [Reg.GK_WAKESRC, Reg.CHO_STATE] ++ clockWords ++ recordWords

section Samples

variable (s : State)

theorem State.settle_regs (r : QReq) (st : Status) (d : Nat) : (s.settle r st d).regs = s.regs := by
  unfold State.settle
  split
  · exact s.done_regs _ _ _ _ _
  · rfl

theorem State.dropRelock_words : s.sameWords s.dropRelock (· ∈ choStateWords) := by
  unfold State.dropRelock
  extract_lets t
  have halted : s.sameWords t (· ∈ choStateWords) := State.sameWords.same
  split
  · exact halted
  · exact halted.then (t.setChoState_words _) fun _ h => h

theorem State.stopQuiesce_words : s.sameWords s.stopQuiesce (· ∈ choStateWords) := by
  unfold State.stopQuiesce
  split
  · exact .refl s _
  · extract_lets _ _ _ u
    split
    · exact .refl s _
    · split
      · exact s.dropRelock_words.of_regs rfl
      · exact ((State.sameWords.same).of_regs (u.settle_regs _ _ _)).of_regs rfl

/-- What STOP changes once it stands and the level is 4. -/
theorem State.thermalStop_words : ((s.setFlag Fd.GK_THERM_STOP true).setLevel 4).sameWords s.thermalStop (· ∈ stopNewsWords) := by
  unfold State.thermalStop
  have begin : ((s.setFlag Fd.GK_THERM_STOP true).setLevel 4).sameWords ((s.setFlag Fd.GK_THERM_STOP true).setLevel 4) (· ∈ stopNewsWords) :=
    .refl _ _
  have record {t u : State} (code : Nat) (p : List Nat) (h : t.sameWords u (· ∈ stopNewsWords)) :
      t.sameWords (u.record code p) (· ∈ stopNewsWords) := h.then (u.record_words _ _) (by simp +contextual [stopNewsWords])
  have wake {t u : State} (h : t.sameWords u (· ∈ stopNewsWords)) : t.sameWords (u.wakeSource 4) (· ∈ stopNewsWords) :=
    h.then (u.wakeSource_words 4) (by simp [stopNewsWords])
  have quiesce {t u : State} (h : t.sameWords u (· ∈ stopNewsWords)) : t.sameWords u.stopQuiesce (· ∈ stopNewsWords) :=
    h.then u.stopQuiesce_words (by simp +contextual [stopNewsWords, choStateWords])
  exact .ite (record _ _ begin.fields) (.ite
    (.fields (.ite (quiesce (.ite (wake (record _ _ begin.fields)) (record _ _ begin.fields)))
      (.ite (wake (record _ _ begin.fields)) (record _ _ begin.fields))))
    (.ite (quiesce (.ite (wake (record _ _ begin.fields)) (record _ _ begin.fields)))
      (.ite (wake (record _ _ begin.fields)) (record _ _ begin.fields))))

/-- A change of the level: its field, then the record and the ceiling. -/
theorem State.setLevel_levelled {l : Nat} (h : s.rd Fd.GK_THERM_LEVEL ≠ l) :
    (s.wr Fd.GK_THERM_LEVEL l).sameWords (s.setLevel l) (· ∈ stopNewsWords) := by
  unfold State.setLevel
  rw [if_neg h]
  extract_lets _ t u
  have recorded : (s.wr Fd.GK_THERM_LEVEL l).sameWords u (· ∈ stopNewsWords) :=
    (State.sameWords.same).then (t.record_words _ _) (by simp +contextual [stopNewsWords])
  exact .ite recorded (recorded.then u.settleCeil_words (by simp +contextual [stopNewsWords]))

theorem State.setLevel_same {l : Nat} (h : s.rd Fd.GK_THERM_LEVEL = l) : s.setLevel l = s := by
  unfold State.setLevel
  exact if_pos h

/-- The level is what it was set to (R424). -/
theorem State.setLevel_level {l : Nat} (hl : l < 8) : (s.setLevel l).rd Fd.GK_THERM_LEVEL = l := by
  by_cases h : s.rd Fd.GK_THERM_LEVEL = l
  · rw [s.setLevel_same h, h]
  · rw [(s.setLevel_levelled h).rd_outside (by decide), State.rd_wr_fits _ ⟨by decide, by decide⟩ hl]

/-- A change of the level leaves the rest of GK_THERM. -/
theorem State.rd_setLevel {g : Fld} (l : Nat) (h : g.outside stopNewsWords = true) (hl : Fd.GK_THERM_LEVEL.apart g = true) :
    (s.setLevel l).rd g = s.rd g := by
  by_cases e : s.rd Fd.GK_THERM_LEVEL = l
  · rw [s.setLevel_same e]
  · rw [(s.setLevel_levelled e).rd_outside h, s.rd_wr_apart l hl]

theorem State.rd_thermalStop {g : Fld} (h : g.outside stopNewsWords = true) (hl : Fd.GK_THERM_LEVEL.apart g = true)
    (hs : Fd.GK_THERM_STOP.apart g = true) : s.thermalStop.rd g = s.rd g := by
  rw [s.thermalStop_words.rd_outside h, State.rd_setLevel _ 4 h hl, s.rd_setFlag_apart true hs]

/-- STOP stands once it took effect. -/
theorem State.thermalStop_stop : s.thermalStop.flag Fd.GK_THERM_STOP = true := by
  rw [s.thermalStop_words.flag_outside (by decide), State.flag, State.rd_setLevel _ 4 (by decide) (by decide), ← State.flag,
    State.flag_setFlag_same _ true ⟨by decide, by decide⟩ rfl]

theorem State.refreshTherm_words : s.sameWords s.refreshTherm (· ∈ [Reg.GK_THERM]) := by
  unfold State.refreshTherm State.settleFloor
  exact (((((State.sameWords.same).wr (by decide) (by decide)).wr (by decide) (by decide)).wr (by decide) (by decide)).fields).fields.wr
    (by decide) (by decide)

theorem State.retrim_regs (n : Nat) : (s.retrim n).regs = s.regs := by
  unfold State.retrim
  split <;> rfl

/-! ### One conversion -/

/-- Two fields of one word lie apart where their bits do. -/
theorem Fld.apart_of_bits (r : Nat) {m l m' l' : Nat} (hb : m' < l ∨ m < l' := by decide) (hl : l ≤ m := by decide) (hm : m < 32 := by decide)
    (hm' : m' < 32 := by decide) : Fld.apart ⟨r, m, l⟩ ⟨r, m', l'⟩ = true := by
  simp only [Fld.apart, Bool.and_eq_true, Bool.or_eq_true, decide_eq_true_eq]
  exact ⟨hm', .inr ⟨⟨⟨hl, hm⟩, trivial⟩, hb⟩⟩

theorem Fld.narrow_of_bits (r : Nat) {m l : Nat} (hl : l ≤ m := by decide) (hm : m < 32 := by decide) : Fld.narrow ⟨r, m, l⟩ := ⟨hl, hm⟩

section Reading

variable (n : Nat) {g : Fld}

/-- A bad conversion shows FAULT and RAW 127 (R418). -/
theorem State.convert_bad (raw : Int) :
    (s.convert n raw true).rd (Fd.GK_TEMP_FAULT n) = 1 ∧ (s.convert n raw true).rd (Fd.GK_TEMP_RAW n) = 127 := by
  unfold State.convert
  simp only [Bool.not_true, Bool.false_and, Bool.not_false, if_true]
  exact ⟨(State.rd_wr_apart _ _ (Fld.apart_of_bits _)).trans (State.rd_wr_fits _ (Fld.narrow_of_bits _) Nat.one_lt_two),
    State.rd_wr_fits _ (Fld.narrow_of_bits _) (by decide : 127 < 2 ^ 8)⟩

/-- A good conversion of a reading without FAULT shows its value. -/
theorem State.convert_good {raw : Int} (hl : -40 ≤ raw) (hu : raw ≤ 127) (hf : s.flag (Fd.GK_TEMP_FAULT n) = false) :
    (s.convert n raw false).rd (Fd.GK_TEMP_FAULT n) = 0 ∧ (s.convert n raw false).rd (Fd.GK_TEMP_RAW n) = tempBits raw := by
  have fits : tempBits raw < 256 := by unfold tempBits; omega
  have within : raw ≤ 150 := by omega
  have below : ¬ 127 < raw := by omega
  unfold State.convert
  simp only [hf, hl, within, below, Bool.not_false, Bool.true_and, decide_true, Bool.not_true, Bool.false_eq_true, Bool.false_and, if_false]
  exact ⟨(State.rd_wr_apart _ _ (Fld.apart_of_bits _)).trans (State.rd_wr_fits _ (Fld.narrow_of_bits _) Nat.two_pos),
    State.rd_wr_fits _ (Fld.narrow_of_bits _) fits⟩

/-- The cross-check leaves a reading's FAULT and RAW. -/
theorem State.rd_crossCheck (hs : (Fd.GK_TEMP_SUSPECT n).apart g = true) (hu : (Fd.GK_TEMP_USED n).apart g = true) :
    (s.crossCheck n).rd g = s.rd g :=
  (State.rd_wr_apart _ _ hu).trans ((State.rd_setFlag_apart _ _ hs).trans (State.rd_of_regs rfl g))

/-- The state after a conversion, its cross-check and its rate. -/
def State.rated (s : State) (n : Nat) (raw : Int) (bad : Bool) : State :=
  let t := (s.convert n raw bad).crossCheck n
  (t.wr (Fd.GK_TEMP_RATE n) (t.sampleRate n)).retrim n

theorem State.rd_rated (raw : Int) (bad : Bool) (hs : (Fd.GK_TEMP_SUSPECT n).apart g = true) (hu : (Fd.GK_TEMP_USED n).apart g = true)
    (hr : (Fd.GK_TEMP_RATE n).apart g = true) : (s.rated n raw bad).rd g = (s.convert n raw bad).rd g :=
  (State.rd_of_regs (State.retrim_regs _ n) g).trans ((State.rd_wr_apart _ _ hr).trans (State.rd_crossCheck _ n hs hu))

/-- What a sample shows of the readings: a change of FAULT or SUSPECT recorded, the thermal state and the warnings renewed. -/
def State.shown (s t : State) (n : Nat) : State :=
  let was := getBits (s.word (Reg.GK_TEMP n)) 31 30
  let fs := getBits (t.word (Reg.GK_TEMP n)) 31 30
  (if fs = was then t
    else t.record 0x0104 [n, fs / 2 + fs % 2 * 2, t.rd (Fd.GK_TEMP_RAW n), t.rd (Fd.GK_TEMP_USED n)]).refreshTherm.refreshCrit

theorem State.shown_words (t : State) : t.sameWords (s.shown t n) (· ∈ stopWords) := by
  have recorded (p : List Nat) : t.sameWords (t.record 0x0104 p) (· ∈ stopWords) :=
    (t.record_words _ p).mono (by simp +contextual [stopWords])
  have renewed {u : State} (h : t.sameWords u (· ∈ stopWords)) : t.sameWords u.refreshTherm.refreshCrit (· ∈ stopWords) :=
    (h.then u.refreshTherm_words (by simp [stopWords])).then (State.refreshCrit_words _) (by simp [stopWords])
  unfold State.shown
  exact renewed (.ite (.refl t _) (recorded _))

/-- The sample's last step: STOP takes effect where a limit is met. -/
def State.judged (s : State) : State :=
  if (decide (102 ≤ s.composite) || s.rd Fd.GK_THERM_TDSTOP ≠ 0) && !s.flag Fd.GK_THERM_STOP && !s.pwr.trip then s.thermalStop else s

theorem State.judged_words : s.sameWords s.judged (· ∈ stopWords) := by
  unfold State.judged
  refine .ite ?_ (.refl s _)
  have levelled : s.sameWords ((s.setFlag Fd.GK_THERM_STOP true).setLevel 4) (· ∈ stopWords) :=
    ((State.sameWords.same).setFlag (by decide) (by decide)).then (State.setLevel_words _ 4) (by simp +contextual [stopWords, levelWords])
  exact levelled.then s.thermalStop_words (by simp +contextual [stopWords, stopNewsWords])

theorem State.rd_judged (h : g.outside stopNewsWords = true) (hl : Fd.GK_THERM_LEVEL.apart g = true)
    (hs : Fd.GK_THERM_STOP.apart g = true) : s.judged.rd g = s.rd g := by
  unfold State.judged
  split
  · exact s.rd_thermalStop h hl hs
  · rfl

/-- A composite of 102 °C or a TD input at its limit puts STOP in force (R424). -/
theorem State.judged_stop (ht : s.pwr.trip = false) (h : 102 ≤ s.judged.composite ∨ s.judged.rd Fd.GK_THERM_TDSTOP ≠ 0) :
    s.judged.flag Fd.GK_THERM_STOP = true := by
  have composite : s.judged.composite = s.composite := congrArg (signed 8) (s.rd_judged (by decide) (by decide) (by decide))
  rw [composite, s.rd_judged (by decide) (by decide) (by decide)] at h
  unfold State.judged
  by_cases stop : s.flag Fd.GK_THERM_STOP = true
  · simp [stop]
  · have hit : (decide (102 ≤ s.composite) || decide (s.rd Fd.GK_THERM_TDSTOP ≠ 0)) = true := by simpa using h
    rw [if_pos (by simp only [hit, Bool.eq_false_iff.2 stop, ht, Bool.not_false, Bool.and_self])]
    exact s.thermalStop_stop

/-- A powered, running part takes the sample. -/
theorem tempSample_taken {s : State} {n : Nat} (t : Nat) (hn : n < 16) (hon : s.pwr.on = true) (hp : s.rd Fd.GK_PSTATE_CUR ≠ 4) :
    (!(s.at t).pwr.on || (s.at t).rd Fd.GK_PSTATE_CUR = 4 || !(s.at t).present n) = false := by
  have held : (s.at t).rd Fd.GK_PSTATE_CUR ≠ 4 := hp
  have powered : (s.at t).pwr.on = true := hon
  have there : (s.at t).present n = true := by simp [State.present, hn]
  simp only [held, powered, there]
  decide

/-- A sample in its parts. -/
theorem execTempSample_eq {s : State} {n : Nat} (raw : Int) (bad : Bool) (t : Nat) (hn : n < 16) (hon : s.pwr.on = true)
    (hp : s.rd Fd.GK_PSTATE_CUR ≠ 4) :
    execTempSample n raw bad t s = .next ((s.at t).shown ((s.at t).rated n raw bad) n).judged.trackCool := by
  unfold execTempSample inRange
  rw [if_pos (by omega)]
  extract_lets s1 was s2 s3 fs s4 s5 hit s6
  have rated : s3 = (s.at t).rated n raw bad := rfl
  have shown : s5 = (s.at t).shown s3 n := rfl
  have judged : s6 = s5.judged := rfl
  rw [if_neg (ne_true_of_eq_false (tempSample_taken t hn hon hp)), judged, shown, rated]

theorem State.trackCool_regs : s.trackCool.regs = s.regs := rfl

/-- A reading's own register is beside what the sample shows and STOP reaches. -/
theorem rd_reading (t : State) {n : Nat} (hn : n < 16) {m l : Nat} (hm : m < 32) :
    ((s.shown t n).judged.trackCool).rd ⟨Reg.GK_TEMP n, m, l⟩ = t.rd ⟨Reg.GK_TEMP n, m, l⟩ := by
  have beside : ∀ n < 16, stopWords.contains (Reg.GK_TEMP n) = false := by decide
  have outside : Fld.outside ⟨Reg.GK_TEMP n, m, l⟩ stopWords = true := by
    rw [Fld.outside, beside n hn]
    simpa using hm
  exact (State.rd_of_regs (State.trackCool_regs _) _).trans (((State.judged_words _).rd_outside outside).trans ((s.shown_words n t).rd_outside outside))

theorem State.rated_trip (n : Nat) (raw : Int) (bad : Bool) : (s.rated n raw bad).pwr.trip = s.pwr.trip := by
  have converted : (s.convert n raw bad).pwr.trip = s.pwr.trip := by
    unfold State.convert
    dsimp only
    split
    · simp
    · split
      · rfl
      · split <;> simp
  unfold State.rated State.retrim
  dsimp only
  split <;> simpa [State.crossCheck] using converted

theorem State.shown_trip (t : State) (n : Nat) : (s.shown t n).pwr.trip = t.pwr.trip := by
  unfold State.shown State.refreshTherm State.settleFloor
  dsimp only
  split <;> simp

end Reading

end Samples

/-! ### The throttle level (R424) -/

theorem State.floorNow_lt (s : State) : s.floorNow < 8 := by
  have := s.rd_lt Fd.GK_THERM_FLOOR
  unfold State.floorNow
  split
  · decide
  · exact Nat.lt_of_lt_of_le this (by decide)

/-- The next level has room in its field. -/
theorem State.nextLevel_lt (s : State) : s.nextLevel < 8 := by
  have level : s.rd Fd.GK_THERM_LEVEL < 8 := s.rd_lt _
  have floor := s.floorNow_lt
  unfold State.nextLevel
  dsimp only
  refine Nat.max_lt.2 ⟨?_, floor⟩
  split
  · rename_i up
    simp only [Bool.and_eq_true, decide_eq_true_eq] at up
    omega
  · split <;> omega

/-- Counting the time under a host threshold leaves what the level depends on. -/
theorem State.countTmt_nextLevel (s : State) : s.countTmt.nextLevel = s.nextLevel := by
  unfold State.countTmt
  dsimp only
  split
  · rfl
  · split <;> rfl

theorem State.countTmt_regs (s : State) : s.countTmt.regs = s.regs := by
  unfold State.countTmt
  dsimp only
  split
  · rfl
  · split <;> rfl

/-- Every 100 ms the level moves by the rule, or is 4 while STOP is in force. -/
theorem execThermalStep_level {s : State} (t : Nat) (hon : s.pwr.on = true) :
    Next (execThermalStep t s) (fun u => u.rd Fd.GK_THERM_LEVEL = if s.flag Fd.GK_THERM_STOP then 4 else (s.at t).nextLevel) := by
  have powered : (s.at t).pwr.on = true := hon
  have stop : (s.at t).countTmt.flag Fd.GK_THERM_STOP = s.flag Fd.GK_THERM_STOP := by
    rw [State.flag, State.rd_of_regs (State.countTmt_regs _)]
    rfl
  unfold execThermalStep
  dsimp only
  rw [powered, stop, if_neg (by decide)]
  split
  · exact .intro _ (State.setLevel_level _ (by decide))
  · refine .intro _ ?_
    rw [State.setLevel_level _ (State.nextLevel_lt _), State.countTmt_nextLevel]

/-! ### HOLD and its end (R37, R42, R425) -/

/-- With everything programmed, STOP takes SERVE to HOLD. -/
theorem execHoldEntry_serve {s : State} (hs : s.flag Fd.GK_THERM_STOP = true) (hb : s.boot.running = false) (ha : s.asleep = false)
    (hf : s.flag Fd.TOP_MODE_FLUSH = false) (hp : s.pwr.pfHold = false) (hd : s.drainedForHold = true) (hm : s.mode = mServe) :
    Next (execHoldEntry s) (fun t => t.mode = mHold ∧ t.rd Fd.TOP_MODE_RETURN = mServe) := by
  have out (u : State) : Undisturbed .low u u.failQueuedWrites := .failQueuedWrites (.refl u)
  unfold execHoldEntry
  simp only [hs, hb, ha, hf, hp, hd, hm, Bool.not_true, Bool.or_self, Bool.false_eq_true, if_false, decide_true, Bool.true_or]
  rw [if_neg (by decide)]
  refine .intro _ ⟨?_, ?_⟩
  · refine ((out _).fields Fd.TOP_MODE_MODE ⟨by decide, by decide⟩).trans ((State.rd_wr_apart _ _ (by decide)).trans ?_)
    exact State.setMode_mode _ false (by decide)
  · refine ((out _).fields Fd.TOP_MODE_RETURN ⟨by decide, by decide⟩).trans ?_
    exact State.rd_wr_fits _ ⟨by decide, by decide⟩ (by decide)

theorem State.startPeers_none {s : State} (h : s.dzl.ins = []) : s.startPeers = s := by
  unfold State.startPeers
  dsimp only
  rw [h]
  exact ite_self s

theorem State.resumeQueue_none {s : State} (h : s.quiesce.queue = []) : s.resumeQueue = s := by
  have none : s.enterQuiesce = s := by
    unfold State.enterQuiesce
    rw [h]
  unfold State.resumeQueue
  rw [none]
  exact ite_self s

/-- HOLD that interrupted SERVE, with nothing arisen meanwhile, goes back to it. -/
theorem State.leaveHold_serve {s : State} (hr : s.rd Fd.TOP_MODE_RETURN = mServe) (hd : s.rd Fd.TOP_MODE_DGCAUSE = 0) (he : s.xlt.eol = false)
    (hq : s.quiesce.queue = []) (hi : s.dzl.ins = []) : s.leaveHold = s.setMode mServe true := by
  have eol : (s.setMode mServe true).xlt.eol = false := by rw [State.setMode_xlt, he]
  unfold State.leaveHold
  rw [hr, hd]
  simp only [ne_eq, not_true_eq_false, decide_false, Bool.and_false, Bool.false_eq_true, if_false, decide_true, eol, Bool.false_and]
  rw [State.startPeers_none (by rw [State.setMode_dzl, hi]), State.resumeQueue_none (by rw [State.setMode_quiesce, hq])]

/-- The cooling has ended (R425). -/
def State.cooled (s : State) : State := { s with pwr := { s.pwr with coolSince := none, levelAt := s.now } }

/-- A sanitize goes on. -/
def State.unpaused (s : State) : State := { s with boot := { s.boot with sanPaused := false } }

/-- STOP is cleared. -/
def State.cleared (s : State) : State := (s.cooled.setFlag Fd.GK_THERM_STOP false).unpaused

theorem State.rd_cooled (s : State) (g : Fld) : s.cooled.rd g = s.rd g := rfl

theorem State.rd_unpaused (s : State) (g : Fld) : s.unpaused.rd g = s.rd g := rfl

theorem State.rd_cleared (s : State) {g : Fld} (h : Fd.GK_THERM_STOP.apart g = true) : s.cleared.rd g = s.rd g :=
  (State.rd_unpaused _ g).trans ((State.rd_setFlag_apart _ false h).trans (s.rd_cooled g))

theorem State.cleared_stop (s : State) : s.cleared.flag Fd.GK_THERM_STOP = false := by
  rw [State.flag, State.cleared, State.rd_unpaused]
  exact State.flag_setFlag_same _ false ⟨by decide, by decide⟩ rfl

/-- A start held by STOP goes on, its time of progress renewed. -/
def State.goesOn (s : State) : State := ({ s with boot := { s.boot with stageAt := s.now } }).wr Fd.TOP_BOOT_THERM 0

theorem State.goesOn_stop (s : State) : s.goesOn.flag Fd.GK_THERM_STOP = s.flag Fd.GK_THERM_STOP :=
  (State.flag_wr_apart _ 0 (by decide)).trans rfl

theorem State.goesOn_therm (s : State) : s.goesOn.rd Fd.TOP_BOOT_THERM = 0 := State.rd_wr_fits _ ⟨by decide, by decide⟩ (by decide)

/-- STOP is cleared after its dwell: a start goes on, or HOLD is left. -/
theorem execStopClear_cleared {s : State} {t c : Nat} (hs : s.flag Fd.GK_THERM_STOP = true) (hc : s.pwr.coolSince = some c)
    (ht : c + max 1 (s.rd Fd.GK_THCFG_DWELL) * 1000000000 ≤ max s.now t) :
    (s.boot.running = true → execStopClear t s = .next (s.at t).cleared.goesOn) ∧
    (s.boot.running = false → s.mode = mHold → execStopClear t s = .next (s.at t).cleared.leaveHold) := by
  have cooled : (s.at t).pwr.coolSince = some c := hc
  have stop : (s.at t).flag Fd.GK_THERM_STOP = true := hs
  have late : ¬ (s.at t).now < c + max 1 ((s.at t).rd Fd.GK_THCFG_DWELL) * 1000000000 := Nat.not_lt.2 ht
  have running : (s.at t).cleared.boot.running = s.boot.running := by simp [State.cleared, State.unpaused, State.cooled]
  unfold execStopClear
  extract_lets s1 _ s2 _ s3 _
  have cleared : s3 = (s.at t).cleared := rfl
  clear_value s3
  subst cleared
  simp only [s1, cooled, stop, late, decide_false, Bool.not_true, Bool.or_self, Bool.false_eq_true, if_false, running]
  refine ⟨fun h => ?_, fun h hm => ?_⟩
  · rw [h, if_pos rfl]
    rfl
  · have held : (s.at t).cleared.mode = mHold := (State.rd_cleared _ (by decide)).trans hm
    rw [h, if_neg (by decide), if_pos held]

/-- HOLD ends where STOP is cleared. -/
theorem execStopClear_hold {s : State} {t c : Nat} (hs : s.flag Fd.GK_THERM_STOP = true) (hc : s.pwr.coolSince = some c)
    (ht : c + max 1 (s.rd Fd.GK_THCFG_DWELL) * 1000000000 ≤ max s.now t) (hb : s.boot.running = false) (hm : s.mode = mHold)
    (hr : s.rd Fd.TOP_MODE_RETURN = mServe) (hd : s.rd Fd.TOP_MODE_DGCAUSE = 0) (he : s.xlt.eol = false) (hq : s.quiesce.queue = [])
    (hi : s.dzl.ins = []) :
    Next (execStopClear t s) (fun u => u.flag Fd.GK_THERM_STOP = false ∧ u.mode = mServe) := by
  have back : (s.at t).cleared.leaveHold = (s.at t).cleared.setMode mServe true :=
    State.leaveHold_serve ((State.rd_cleared _ (by decide)).trans hr) ((State.rd_cleared _ (by decide)).trans hd)
      (by simp [State.cleared, State.unpaused, State.cooled, he]) (by simp [State.cleared, State.unpaused, State.cooled, hq]) (by simp [State.cleared, State.unpaused, State.cooled, hi])
  rw [(execStopClear_cleared hs hc ht).2 hb hm, back]
  refine .intro _ ⟨?_, State.setMode_mode _ true (by decide)⟩
  rw [State.flag_setMode _ mServe true (by decide) (by decide) (by decide) (by decide), State.cleared_stop]

/-! ### The thermal trip (R426) -/

theorem Undisturbed.startEfts {k : Kept} {s₀ s : State} (h : Undisturbed k s₀ s) : Undisturbed k s₀ s.startEfts := h.foldl fun _ _ hu => hu.setEft

theorem Undisturbed.stopOps {k : Kept} {s₀ s : State} {cut : Bool} (h : Undisturbed k s₀ s) : Undisturbed k s₀ (s.stopOps cut) :=
  (h.other.foldl fun _ _ hu => hu.modStripe).maps

theorem State.fetches_tripped {s : State} (h : s.pwr.trip = true) (f : Nat) : s.fetches f = false := by
  simp [State.fetches, h]

/-- At 110 °C or with 9 readings FAULT the part trips. -/
theorem execThermalTrip_trips {s : State} (ht : s.pwr.trip = false) (hon : s.pwr.on = true) (hp : s.rd Fd.GK_PSTATE_CUR ≠ 4)
    (hh : 110 ≤ s.hottest ∨ 9 ≤ s.faultCount) :
    Next (execThermalTrip s) (fun t => t.pwr.trip = true ∧ t.pwr.tripSeen = true ∧ ∀ f, t.fetches f = false) := by
  have hot : (decide (s.hottest < 110) && decide (s.faultCount < 9)) = false := by
    rcases hh with h | h <;> simp [h]
  unfold execThermalTrip
  rw [if_neg (by simp only [ht, hon, hp, hot]; decide)]
  extract_lets _ s1 _ s2
  have tripped : s2.pwr = s1.pwr := (Undisturbed.stopOps (Undisturbed.startEfts (.refl (k := .low) s1))).other.pwr
  have recorded := (s2.record_pwr 0x0107 [tempBits s2.hottest, s2.faultCount]).trans tripped
  refine .intro _ ?_
  rw [recorded]
  exact ⟨rfl, rfl, State.fetches_tripped (by rw [recorded])⟩

/-! ### O21 -/

/-- The state a sample answers. -/
def State.sampled (s : State) (n : Nat) (raw : Int) (bad : Bool) : State := (s.shown (s.rated n raw bad) n).judged.trackCool

/-- A sample ends with FAULT and RAW as its conversion left them. -/
theorem State.sampled_reading (s : State) {n : Nat} (raw : Int) (bad : Bool) (hn : n < 16) :
    (s.sampled n raw bad).rd (Fd.GK_TEMP_FAULT n) = (s.convert n raw bad).rd (Fd.GK_TEMP_FAULT n) ∧
    (s.sampled n raw bad).rd (Fd.GK_TEMP_RAW n) = (s.convert n raw bad).rd (Fd.GK_TEMP_RAW n) :=
  ⟨(rd_reading s _ hn (by decide)).trans (s.rd_rated n raw bad (Fld.apart_of_bits _) (Fld.apart_of_bits _) (Fld.apart_of_bits _)),
    (rd_reading s _ hn (by decide)).trans (s.rd_rated n raw bad (Fld.apart_of_bits _) (Fld.apart_of_bits _) (Fld.apart_of_bits _))⟩

/-- A sample over a limit puts STOP in force. -/
theorem State.sampled_stop (s : State) {n : Nat} (raw : Int) (bad : Bool) (ht : s.pwr.trip = false)
    (h : 102 ≤ (s.sampled n raw bad).composite ∨ (s.sampled n raw bad).rd Fd.GK_THERM_TDSTOP ≠ 0) :
    (s.sampled n raw bad).flag Fd.GK_THERM_STOP = true := by
  have kept (g : Fld) : (s.sampled n raw bad).rd g = ((s.shown (s.rated n raw bad) n).judged).rd g := State.rd_of_regs (State.trackCool_regs _) g
  rw [State.composite, kept, kept] at h
  rw [State.flag, kept]
  exact State.judged_stop _ (by rw [State.shown_trip, State.rated_trip, ht]) h

/-- Settles O21: a sample's own register is beside what the sample goes on to change, the level fits its field, and nothing that follows the
mode changes of HOLD reaches TOP_MODE. -/
theorem temperaturesLevelsAndTrip : Obligations.TemperaturesLevelsAndTrip := by
  unfold Obligations.TemperaturesLevelsAndTrip
  refine ⟨fun s t hon => ⟨fun n raw bad hn hp => ?_, fun hs => ?_, fun hs => ?_⟩, fun s => ⟨?_, fun t c hs hc ht => ⟨fun hb => ?_, ?_⟩, ?_⟩⟩
  · obtain ⟨fault, rawKept⟩ := (s.at t).sampled_reading raw bad hn
    refine ⟨(s.at t).sampled n raw bad, execTempSample_eq raw bad t hn hon hp, fun hb => ?_, fun hb hl hu hf => ?_, fun ht hit => ?_⟩
    · subst hb
      obtain ⟨bad, rawBad⟩ := (s.at t).convert_bad n raw
      exact ⟨by rw [State.flag, fault, bad]; rfl, rawKept.trans rawBad⟩
    · subst hb
      obtain ⟨good, rawGood⟩ := (s.at t).convert_good n hl hu hf
      exact ⟨by rw [State.flag, fault, good]; rfl, rawKept.trans rawGood⟩
    · exact (s.at t).sampled_stop raw bad ht hit
  · obtain ⟨u, hu, level⟩ := execThermalStep_level t hon
    exact ⟨u, hu, level.trans (if_pos hs)⟩
  · obtain ⟨u, hu, level⟩ := execThermalStep_level t hon
    exact ⟨u, hu, level.trans (if_neg (ne_true_of_eq_false hs))⟩
  · exact fun hs hb ha hf hp hd hm => execHoldEntry_serve hs hb ha hf hp hd hm
  · exact ⟨_, (execStopClear_cleared hs hc ht).1 hb, (State.goesOn_stop _).trans (s.at t).cleared_stop, State.goesOn_therm _⟩
  · exact fun hb hm hr hd he hq hi => execStopClear_hold hs hc ht hb hm hr hd he hq hi
  · exact fun ht hon hp hh => execThermalTrip_trips ht hon hp hh

end Sys2Proof.Machine
end

section

namespace Sys2Proof.Machine

open Sys2Proof

-- One theorem at a time: side by side the proofs would wait for one another, each on a thread of its own.
set_option Elab.async false

/-! ## Device self-tests (R127-R129, R132) -/

section Commands

variable {s : State} {src : Src}

/-- A test starts in its first segment where none runs. -/
theorem startTest_starts {code : Nat} (hf : src.fn = 0) (h0 : s.boot.selfTest.code = 0) (hm : s.mode ≠ mSanitize) :
    startTest src code s = (s.setTest { s.boot.selfTest with code := code, segment := 1, failed := 0 }).ok src := by
  unfold startTest
  rw [if_neg (not_not.2 hf)]
  exact (if_neg (not_not.2 h0)).trans (if_neg hm)

/-- It is refused while one runs. -/
theorem startTest_refused {code : Nat} (hf : src.fn = 0) (h0 : s.boot.selfTest.code ≠ 0) :
    startTest src code s = s.err src .selfTestInProgress := by
  unfold startTest
  rw [if_neg (not_not.2 hf)]
  exact if_pos h0

/-- What a test that has ended leaves: no test, and its result at the head of the log. -/
def endedTest (t : SelfTest) (result segment hours : Nat) : SelfTest :=
  ⟨0, 0, 0, [], 0, [], 0, ((result, t.code, segment, hours) :: t.log).take 20⟩

theorem State.endTest_boot {result segment : Nat} (h : s.boot.selfTest.code ≠ 0) :
    (s.endTest result segment).boot = { s.boot with selfTest := endedTest s.boot.selfTest result segment (s.hlt.onMinutes / 60) } := by
  unfold State.endTest
  rw [State.test, if_neg h]
  rfl

theorem State.endTest_hlt (result segment : Nat) : (s.endTest result segment).hlt = s.hlt := by
  unfold State.endTest
  split <;> rfl

theorem State.endTest_mode (result segment : Nat) : (s.endTest result segment).mode = s.mode := by
  unfold State.endTest
  split <;> rfl

theorem State.endTest_cqes (result segment : Nat) : (s.endTest result segment).cqes = s.cqes := by
  unfold State.endTest
  split <;> rfl

end Commands

/-! ### Items of segment 7 -/

section Items

variable {s : State} {p n : Nat}

/-- Where the running segment is not 5 and has something left to do, the test stays in it. -/
theorem State.settleTest_stays (s : State) (k : Nat) (h5 : s.boot.selfTest.segment ≠ 5) (hd : s.segmentDone = false) :
    State.settleTest k s = s := by
  have here : s.nextSamples = s := by
    unfold State.nextSamples
    rw [if_neg (by simp [State.test, h5])]
  cases k with
  | zero => rfl
  | succ k =>
    unfold State.settleTest
    dsimp only
    rw [here, if_pos (by simp [hd])]

/-- Segment 7 goes on while an eft of it waits for its item. -/
theorem State.segmentDone_untried (hp : p < 8) (hn : n < 32) (hs : s.boot.selfTest.segment = 7) (hf : s.fenced p n = false)
    (hg : s.gated p = false) (ht : s.boot.selfTest.tried.contains (eftKey p n) = false) : s.segmentDone = false := by
  have pond : eftKey p n / 32 = p := by unfold eftKey; omega
  have eft : eftKey p n % 32 = n := by unfold eftKey; omega
  have waits : eftKey p n ∈ s.untried := by
    refine List.mem_filter.2 ⟨List.mem_range.2 (by unfold eftKey; omega), ?_⟩
    rw [pond, eft, hf, hg, State.test, ht]
    rfl
  unfold State.segmentDone State.test
  rw [hs]
  exact List.isEmpty_eq_false_iff_exists_mem.2 ⟨_, waits⟩

/-- An eft that segment 7 has not reached gets its vector. -/
theorem State.giveTest_vector (hp : p < 8) (hn : n < 32) (hc : s.boot.selfTest.code ≠ 0) (hs : s.boot.selfTest.segment = 7)
    (hu : s.testSuspended = false) (hf : s.fenced p n = false) (hg : s.gated p = false)
    (ht : s.boot.selfTest.tried.contains (eftKey p n) = false) (clutch : Nat) : s.giveTest p n clutch = s.pushItem p n (vectorItem 7) := by
  have stays := s.settleTest_stays 8 (by rw [hs]; decide) (State.segmentDone_untried hp hn hs hf hg ht)
  unfold State.giveTest
  simp only [stays, State.test, hu, hs, ht, hc, decide_false, Bool.or_self, Bool.false_eq_true, if_false, decide_true, Bool.or_true, if_true]

theorem State.pushItem_eft (i : Item) : (s.pushItem p n i).eft p n = { s.eft p n with deque := (s.eft p n).deque ++ [i] } :=
  s.eft_modEft_same p n _

/-- A vector alone in its deque is the next entry. -/
theorem State.takeNear_vector (h : (s.eft p n).deque = [vectorItem 7]) :
    s.takeNear p n (fun k => k = ItemCls.selfTest) = some (vectorItem 7, s.modEft p n fun e => { e with deque := e.deque.erase (vectorItem 7) }) := by
  unfold State.takeNear
  rw [h]
  rfl

theorem State.setOwner_efts (o : Owner) : (s.setOwner p n o).efts = s.efts := by
  cases o <;> simp [State.setOwner]

theorem State.setOwner_boot (o : Owner) : (s.setOwner p n o).boot = s.boot := by
  cases o <;> simp [State.setOwner]

/-- An item that starts runs on its eft; the deque is as it was. -/
theorem State.startItem_eft (i : Item) :
    ((s.startItem p n i).eft p n).deque = (s.eft p n).deque ∧ ((s.startItem p n i).eft p n).run = some i := by
  have scrubbed : ((s.scrubEft p n).eft p n).deque = (s.eft p n).deque := by
    have scrub : (s.scrubEft p n).eft p n = (s.eft p n).scrub := (congrArg (tblGet eftDefault · _) (State.bump_efts _ _ _)).trans (s.eft_modEft_same p n _)
    rw [scrub]
    rfl
  unfold State.startItem
  extract_lets t
  have before : (t.eft p n).deque = (s.eft p n).deque := by
    simp only [t]
    split
    · exact scrubbed
    · rfl
  rw [State.eft, State.setOwner_efts, ← State.eft, State.eft_modEft_same]
  exact ⟨before, rfl⟩

theorem State.startItem_boot (i : Item) : (s.startItem p n i).boot = s.boot := by
  unfold State.startItem
  rw [State.setOwner_boot, State.modEft_boot]
  split
  · simp [State.scrubEft]
  · rfl

/-- The words a fence changes beside the eft's own state. -/
def fenceWords : List Nat := Reg.EFT_POND_MAP :: modeWords

/-- An eft's state is none of them. -/
theorem fenced_outside (p : Nat) {n : Nat} (hn : n < 32) : (Fd.EFT_PD_E_STATE_FENCED p n).outside fenceWords = true := by
  simp only [Fld.outside, Fd.EFT_PD_E_STATE_FENCED, Reg.EFT_PD_E_STATE, fenceWords, modeWords, recordWords, Reg.EFT_POND_MAP, Reg.TOP_MODE, Reg.HLT_CRIT,
    Reg.EVR_NEWEST, Reg.HLT_ALERT, List.contains_eq_mem, List.mem_cons, List.mem_append, List.not_mem_nil]
  simp
  omega

theorem State.degrade_words (s : State) (bit : Nat) : s.sameWords (s.degrade bit) (· ∈ modeWords) := by
  unfold State.degrade
  have noted {v : Nat} : s.sameWords (s.wr Fd.TOP_MODE_DGCAUSE v) (· ∈ modeWords) := (State.sameWords.same).wr (by decide) (by decide)
  exact noted.thenIf fun h => h.then (State.setMode_words _ _ _) fun _ h => h

theorem State.disperse_regs (is : List Item) : (s.disperse p n is).regs = s.regs := by
  induction is generalizing s with
  | nil => rfl
  | cons i is ih =>
    unfold State.disperse
    split <;> exact ih

theorem State.disperse_boot (is : List Item) : (s.disperse p n is).boot = s.boot := by
  induction is generalizing s with
  | nil => rfl
  | cons i is ih =>
    unfold State.disperse
    split <;> exact ih

theorem State.ownerFenced_boot (tag : Nat) : (s.ownerFenced tag).boot = s.boot := by
  unfold State.ownerFenced
  split
  · rfl
  · split
    · rfl
    · split <;> rfl

theorem State.refreshHomes_boot (s : State) : s.refreshHomes.boot = s.boot := s.wr_boot _ _

/-- An eft starts anew behind its fence, which counts. -/
def State.fenceCounted (s : State) (p n : Nat) (e : Eft) : State :=
  let s := s.setEft p n { Eft.init with strikeAt := e.strikeAt, runs := e.runs + 1, fencedThisRun := true, back := e.back ++ e.ovf }
  { s with hlt := { s.hlt with fences := s.hlt.fences + 1 } }

/-- What follows once an eft shows its fence. -/
def State.fenceTold (s : State) (p n cause : Nat) (e : Eft) (items : List Item) : State :=
  let s := (((s.fenceCounted p n e).record 0x0301 [p, n, cause]).disperse p n items).refreshHomes
  if 33 ≤ s.fencedCount || !s.anyPond then s.degrade 0 else s

theorem State.fenceCounted_regs (e : Eft) : (s.fenceCounted p n e).regs = s.regs := rfl

theorem State.fenceCounted_boot (e : Eft) : (s.fenceCounted p n e).boot = s.boot := rfl

theorem State.fenceTold_words (cause : Nat) (e : Eft) (items : List Item) : s.sameWords (s.fenceTold p n cause e items) (· ∈ fenceWords) := by
  have recorded : s.sameWords ((s.fenceCounted p n e).record 0x0301 [p, n, cause]) (· ∈ fenceWords) :=
    (State.sameWords.same (State.fenceCounted_regs e)).then (State.record_words _ _ _) (by simp +contextual [fenceWords, modeWords])
  have homes : s.sameWords (((s.fenceCounted p n e).record 0x0301 [p, n, cause]).disperse p n items).refreshHomes (· ∈ fenceWords) :=
    (recorded.of_regs (State.disperse_regs _)).wr (by decide) (by decide)
  exact homes.thenIf fun h => h.then (State.degrade_words _ 0) fun _ => List.mem_cons_of_mem _

theorem State.fenceTold_boot (cause : Nat) (e : Eft) (items : List Item) : (s.fenceTold p n cause e items).boot = s.boot := by
  unfold State.fenceTold
  dsimp only
  split <;> simp [State.refreshHomes_boot, State.disperse_boot, State.fenceCounted_boot]

/-- A fence: the eft shows it, then the rest follows. -/
theorem State.fenceEft_eq (cause : Nat) (hf : s.fenced p n = false) :
    ∃ (t : State) (e : Eft) (items : List Item), t.boot = s.boot ∧
      s.fenceEft p n cause = ((t.wr (Fd.EFT_PD_E_STATE_FENCED p n) 1).wr (Fd.EFT_PD_E_STATE_CAUSE p n) cause).fenceTold p n cause e items :=
  ⟨_, _, _, foldl_same (·.boot) _ (fun t a => t.ownerFenced_boot a) _ s, if_neg (ne_true_of_eq_false hf)⟩

/-- A fenced eft shows it. -/
theorem State.fenceEft_fenced (cause : Nat) (hn : n < 32) (hf : s.fenced p n = false) : (s.fenceEft p n cause).fenced p n = true := by
  obtain ⟨t, e, items, -, fence⟩ := s.fenceEft_eq cause hf
  rw [fence, State.fenced, (State.fenceTold_words _ _ _).flag_outside (fenced_outside p hn)]
  exact (State.flag_wr_apart _ _ (Fld.apart_of_bits _)).trans (State.flag_setFlag_same _ true (Fld.narrow_of_bits _) rfl)

/-- A fence leaves what the start keeps, the self-test with it. -/
theorem State.fenceEft_boot (cause : Nat) (hf : s.fenced p n = false) : (s.fenceEft p n cause).boot = s.boot := by
  obtain ⟨t, e, items, owners, fence⟩ := s.fenceEft_eq cause hf
  rw [fence, State.fenceTold_boot, State.wr_boot, State.wr_boot, owners]

theorem State.endItem_run (s : State) (p n : Nat) : ((s.endItem p n).eft p n).run = none := by
  have free : (s.endItem p n).eft p n = (s.eft p n).letGo := (congrArg (tblGet eftDefault · _) (State.count_efts _ _)).trans (s.eft_modEft_same p n _)
  rw [free]
  rfl

theorem State.endItem_boot (s : State) (p n : Nat) : (s.endItem p n).boot = s.boot := (State.count_boot _ _).trans rfl

theorem State.endItem_fenced (s : State) (p n : Nat) : (s.endItem p n).fenced p n = s.fenced p n := by
  have apart : (Fd.EFT_PD_E_DONE_COUNT p n).apart (Fd.EFT_PD_E_STATE_FENCED p n) = true := by
    simp only [Fld.apart, Fd.EFT_PD_E_DONE_COUNT, Fd.EFT_PD_E_STATE_FENCED, Reg.EFT_PD_E_DONE, Reg.EFT_PD_E_STATE]
    simp
  exact (State.flag_wr_apart _ _ apart).trans rfl

/-- The vector of segment 7 has ended: its eft is tried. -/
def State.triedEft (s : State) (p n : Nat) : State :=
  let t := s.endItem p n
  t.setTest { t.test with tried := t.test.tried ++ [eftKey p n] }

theorem State.triedEft_fenced (s : State) (p n : Nat) : (s.triedEft p n).fenced p n = s.fenced p n := s.endItem_fenced p n

theorem State.triedEft_test (s : State) (p n : Nat) :
    (s.triedEft p n).boot.selfTest = { s.boot.selfTest with tried := s.boot.selfTest.tried ++ [eftKey p n] } := by
  simp only [State.triedEft, State.setTest, State.test, State.endItem_boot]

/-- A vector of the running segment 7 ends: a wrong answer fails the segment and fences the eft. -/
theorem State.endVector_seven (hc : s.boot.selfTest.code ≠ 0) (hs : s.boot.selfTest.segment = 7) (faulty : Bool) :
    s.endVector p n (vectorItem 7) faulty = if faulty then ((s.triedEft p n).noteFailed 7).fenceEft p n 3 else s.triedEft p n := by
  have test : (s.endItem p n).test = s.boot.selfTest := congrArg Boot.selfTest (s.endItem_boot p n)
  have counts : (!(vectorItem 7).isTest || decide ((s.endItem p n).test.code = 0) || decide ((vectorItem 7).ix ≠ (s.endItem p n).test.segment)) = false := by
    rw [test, hs, decide_eq_false hc]
    rfl
  unfold State.endVector
  dsimp only
  rw [if_neg (ne_true_of_eq_false counts)]
  cases faulty <;> rfl

theorem State.noteFailed_fenced (s : State) (segment p n : Nat) : (s.noteFailed segment).fenced p n = s.fenced p n := rfl

theorem State.noteFailed_test (s : State) (segment : Nat) : (s.noteFailed segment).boot.selfTest.failed =
    if s.boot.selfTest.failed = 0 then segment else s.boot.selfTest.failed := rfl

/-- What an item command does with an eft that is neither fenced nor gated. -/
theorem execSelfTestItem_open {clutch : Nat} {faulty : Bool} (hp : p < 8) (hn : n < 32) (hf : s.fenced p n = false) (hg : s.gated p = false) :
    ((s.eft p n).run = none → (s.eft p n).deque = [] → execSelfTestItem p n clutch faulty s = .next (s.giveTest p n clutch)) ∧
    ((s.eft p n).run = none → (s.eft p n).deque = [vectorItem 7] → s.testSuspended = false → execSelfTestItem p n clutch faulty s =
      .next ((s.modEft p n fun e => { e with deque := e.deque.erase (vectorItem 7) }).startItem p n (vectorItem 7))) ∧
    ((s.eft p n).run = some (vectorItem 7) → execSelfTestItem p n clutch faulty s = .next (s.endVector p n (vectorItem 7) faulty)) := by
  unfold execSelfTestItem onEft
  rw [inRange_lt _ hp, inRange_lt _ hn, hf, hg]
  refine ⟨fun hr hd => ?_, fun hr hd hu => ?_, fun hr => ?_⟩
  · rw [hr, hd]
    rfl
  · rw [hr, hd, hu, State.takeNear_vector hd]
    rfl
  · rw [hr]
    rfl

end Items

/-! ### The end of a test and its page -/

theorem State.linksBad_noted (s : State) (failed : Nat) (h : s.boot.selfTest.failed = 0) :
    let t := if s.linksBad then s.noteFailed 8 else s
    (if t.test.failed = 0 then failed else if failed = 0 then t.test.failed else min failed t.test.failed) =
      if s.linksBad = false then failed else if failed = 0 then 8 else min failed 8 := by
  cases hb : s.linksBad with
  | false => simp [State.test, h]
  | true => simp [State.test, State.noteFailed, State.setTest, h]

/-- The last segment ends: the result of the first failed one heads the log. -/
theorem execDeviceSelfTestComplete_ends {s : State} (failed : Nat) (hc : s.boot.selfTest.code ≠ 0) (hs : s.boot.selfTest.segment = 8)
    (hu : s.testSuspended = false) (hh : s.hlt.holdup ≠ 1) (h0 : s.boot.selfTest.failed = 0) :
    let f := if s.linksBad = false then failed else if failed = 0 then 8 else min failed 8
    Next (execDeviceSelfTestComplete failed s) (fun t => t.boot.selfTest.code = 0 ∧
      t.boot.selfTest.log.head? = some (if f = 0 then 0 else 7, s.boot.selfTest.code, f, s.hlt.onMinutes / 60) ∧ t.mode = s.mode) := by
  have stays : State.settleTest 8 s = s := s.settleTest_stays 8 (by rw [hs]; decide) (by unfold State.segmentDone State.test; rw [hs]; rfl)
  intro f
  unfold execDeviceSelfTestComplete
  rw [if_neg (by simp [State.test, hc, hu]), stays]
  dsimp only
  rw [if_neg (by simp [State.test, hs]), s.linksBad_noted failed h0]
  have kept : ∀ t, t = (if s.linksBad then s.noteFailed 8 else s) → t.boot.selfTest.code = s.boot.selfTest.code ∧ t.hlt = s.hlt ∧ t.mode = s.mode := by
    rintro t rfl
    split <;> exact ⟨rfl, rfl, rfl⟩
  obtain ⟨code, hlt, mode⟩ := kept _ rfl
  generalize (if s.linksBad then s.noteFailed 8 else s) = t at code hlt mode
  have ends := t.endTest_boot (result := if f = 0 then 0 else 7) (segment := f) (by rw [code]; exact hc)
  rw [if_neg (by rw [State.endTest_hlt, hlt]; exact hh)]
  exact .intro _ ⟨by rw [ends]; rfl, by rw [ends, ← code, ← hlt]; rfl, by rw [State.endTest_mode, mode]⟩

/-- The self-test page answers the running code, a free completion and the results. -/
theorem execGetLogPageDeviceSelfTest_answers {s : State} {src : Src} (rae : Bool) (ht : s.takes src .logPage = true) (hf : src.fn = 0) :
    Next (execGetLogPageDeviceSelfTest src rae s) (fun t => ∃ l pct, l.head? = some s.boot.selfTest.code ∧ pct < 101 ∧
      l[1]? = some pct ∧ t.cqes.head? = some (cqeOf src .success 0 0 (.selfTest l))) := by
  have read : ((s.entered src).logRead 0 0x06 rae).test = s.boot.selfTest := by simp [State.test]
  unfold execGetLogPageDeviceSelfTest
  rw [host_takes s _ ht, if_neg (not_not.2 hf)]
  refine .intro _ ⟨_, (if ((s.entered src).logRead 0 0x06 rae).test.code = 0 then (0, (s.entered src).logRead 0 0x06 rae)
    else ((s.entered src).logRead 0 0x06 rae).free 101).1, ?_, ?_, ?_, by rw [State.done_cqes]; rfl⟩
  · rw [read]
    rfl
  · split
    · exact Nat.succ_pos 100
    · exact Nat.mod_lt _ (by decide)
  · rfl

/-! ### The hold-up self-test (R508-R510) -/

/-- The result of the hold-up test stands, with the journal's bit. -/
def State.holdupShown (s : State) (pass : Bool) : State :=
  ({ s with hlt := { s.hlt with holdup := if pass then 0 else 1 } }).setFlag Fd.XLT_JRNL_FLASH (!pass)

theorem State.holdupShown_rest (s : State) (pass : Bool) : (s.holdupShown pass).pwr = s.pwr ∧ (s.holdupShown pass).pins = s.pins ∧
    (s.holdupShown pass).hlt.holdup = (if pass then 0 else 1) ∧ (s.holdupShown pass).flag Fd.XLT_JRNL_FLASH = !pass :=
  ⟨State.setFlag_pwr _ _ _, State.setFlag_pins _ _ _, congrArg Health.holdup (State.setFlag_hlt _ _ _),
    State.flag_setFlag_same _ _ ⟨by decide, by decide⟩ rfl⟩

/-- What follows the result leaves it, the journal's bit and the power as they are. -/
theorem State.holdupResult_undisturbed (s : State) (pass : Bool) : Undisturbed .flash (s.holdupShown pass) (s.holdupResult pass) := by
  have shown : Undisturbed .flash (s.holdupShown pass) (s.holdupShown pass) := .refl _
  unfold State.holdupResult
  exact .refreshCrit (.ite (.ite shown.maps.commitResets.commitRemaps shown) (.degrade (.ite shown.maps.commitResets.commitRemaps shown)))

theorem State.holdupResult_shows (s : State) (pass : Bool) : (s.holdupResult pass).pwr = s.pwr ∧ (s.holdupResult pass).pins = s.pins ∧
    (s.holdupResult pass).hlt.holdup = (if pass then 0 else 1) ∧
    (s.holdupResult pass).flag Fd.XLT_JRNL_FLASH = ((s.holdupResult pass).hlt.holdup == 1) := by
  have kept := s.holdupResult_undisturbed pass
  obtain ⟨pwr, pins, holdup, flash⟩ := s.holdupShown_rest pass
  refine ⟨kept.pwr.trans pwr, kept.pins.trans pins, kept.holdup.trans holdup, ?_⟩
  rw [State.flag, kept.fields _ rfl, ← State.flag, flash, kept.holdup, holdup]
  cases pass <;> rfl

/-- The load is released and the time of the run kept. -/
def State.unloaded (s : State) : State :=
  { s with pwr := { s.pwr with huStep := 0, huAt := s.now }, pins := { s.pins with huTest := false } }

/-- The end of the hold-up test releases the load and judges the usable energy. -/
theorem execHoldupSelfTestEnd_judges {s : State} (dv t : Nat) (h : s.pwr.huStep = 2) :
    Next (execHoldupSelfTestEnd dv t s) (fun u => u.pwr.huStep = 0 ∧ u.pins.huTest = false ∧ u.pwr.huAt = max s.now t ∧
      u.hlt.holdup = (if 1000000 * (2 + s.rd Fd.XLT_BUF_SIZE) * dv ≤ 12 * s.pwr.huVolt * s.pwr.huVolt then 0 else 1) ∧
      u.flag Fd.XLT_JRNL_FLASH = (u.hlt.holdup == 1)) := by
  obtain ⟨pwr, pins, holdup, flash⟩ := (s.at t).unloaded.holdupResult_shows (holdupPasses s.pwr.huVolt dv (s.rd Fd.XLT_BUF_SIZE))
  have ends : execHoldupSelfTestEnd dv t s = .next ((s.at t).unloaded.holdupResult (holdupPasses s.pwr.huVolt dv (s.rd Fd.XLT_BUF_SIZE))) :=
    if_neg (not_not.2 h)
  refine ⟨_, ends, congrArg Pwr.huStep pwr, congrArg Pins.huTest pins, congrArg Pwr.huAt pwr, holdup.trans ?_, flash⟩
  simp only [holdupPasses, decide_eq_true_eq]

/-! ### O10 -/

/-- Settles O10: segment 7 has something left to do while an eft waits for its item, so its commands meet it there, and a fence leaves the test;
what follows the hold-up test's result is the data path, which keeps the result, the journal's bit and the power. -/
theorem deviceAndHoldupSelfTests : Obligations.DeviceAndHoldupSelfTests := by
  unfold Obligations.DeviceAndHoldupSelfTests
  refine ⟨fun s src ht hf => ⟨fun h0 hm => ?_, fun h0 => ?_⟩, ⟨?_, ?_, ?_⟩, ?_, ?_, ?_⟩
  · have starts (code : Nat) : Next (host s src .selfTest (startTest src code)) (fun t => t.completes s src .success 0 0 .none ∧
        t.boot.selfTest.code = code ∧ t.boot.selfTest.segment = 1) := by
      rw [host_takes s _ ht, startTest_starts hf (by rwa [State.entered_boot]) hm]
      exact .intro _ ⟨by simp [State.completes, State.setTest], by simp [State.setTest], by simp [State.setTest]⟩
    exact ⟨starts 1, starts 2⟩
  · have refused (code : Nat) : Next (host s src .selfTest (startTest src code)) (fun t => t.completes s src .selfTestInProgress 0 0 .none ∧
        t.boot = s.boot) := by
      rw [host_takes s _ ht, startTest_refused hf (by rwa [State.entered_boot])]
      exact .intro _ ⟨by simp [State.completes], by simp⟩
    refine ⟨refused 1, refused 2, ?_⟩
    change Next (execDeviceSelfTestAbort src s) _
    unfold execDeviceSelfTestAbort
    rw [host_takes s _ ht, if_neg (not_not.2 hf)]
    have ended := (s.entered src).endTest_boot (result := 1) (segment := 0) (by rwa [State.entered_boot])
    rw [State.entered_boot, State.entered_hlt] at ended
    refine .intro _ ⟨?_, ?_, ?_⟩
    · simp [State.completes, State.abortTest, State.endTest_cqes]
    · simp [State.abortTest, ended, endedTest]
    · simp [State.abortTest, ended, endedTest]
  · intro s p n hp hn hc hs hu hf hg clutch
    refine ⟨fun hr hd ht faulty => ?_, fun hr hd faulty => ?_, fun hr => ⟨?_, ?_⟩⟩
    · refine ⟨_, (execSelfTestItem_open hp hn hf hg).1 hr hd, ?_⟩
      rw [State.giveTest_vector hp hn hc hs hu hf hg ht clutch]
      dsimp only
      rw [State.pushItem_eft]
      exact ⟨congrArg (· ++ [vectorItem 7]) hd, hr, rfl⟩
    · refine ⟨_, (execSelfTestItem_open hp hn hf hg).2.1 hr hd hu, ?_⟩
      obtain ⟨deque, run⟩ := State.startItem_eft (s := s.modEft p n fun e => { e with deque := e.deque.erase (vectorItem 7) }) (p := p) (n := n)
        (vectorItem 7)
      refine ⟨deque.trans ?_, run, State.startItem_boot _⟩
      rw [State.eft_modEft_same, hd]
      rfl
    · refine ⟨_, (execSelfTestItem_open hp hn hf hg).2.2 hr, ?_⟩
      rw [State.endVector_seven hc hs]
      exact ⟨s.endItem_run p n, (s.triedEft_fenced p n).trans hf, s.triedEft_test p n⟩
    · refine ⟨_, (execSelfTestItem_open hp hn hf hg).2.2 hr, ?_⟩
      have clear : ((s.triedEft p n).noteFailed 7).fenced p n = false := (s.triedEft_fenced p n).trans hf
      rw [State.endVector_seven hc hs]
      refine ⟨State.fenceEft_fenced 3 hn clear, ?_⟩
      rw [if_pos rfl, State.fenceEft_boot 3 clear, State.noteFailed_test, s.triedEft_test p n]
  · exact fun s failed hc hs hu hh h0 => execDeviceSelfTestComplete_ends failed hc hs hu hh h0
  · exact fun s src rae ht hf => execGetLogPageDeviceSelfTest_answers rae ht hf
  · intro s t hd ha hp h0 hpf
    have due : ((decide ((s.at t).now < (s.at t).pwr.huAt + 86400000000000) || (s.at t).asleep || decide ((s.at t).rd Fd.GK_PSTATE_CUR = 4))) = false := by
      have late : ¬ (s.at t).now < (s.at t).pwr.huAt + 86400000000000 := Nat.not_lt.2 (le_trans hd (Nat.le_max_right s.now t))
      have awake : (s.at t).asleep = false := ha
      have on : (s.at t).rd Fd.GK_PSTATE_CUR ≠ 4 := hp
      rw [awake, decide_eq_false late, decide_eq_false on]
      rfl
    change Next (execHoldupSelfTestDue t s) _
    unfold execHoldupSelfTestDue
    dsimp only
    rw [if_neg (ne_true_of_eq_false due)]
    have idle : (s.at t).startHoldup = { s.at t with pwr := { (s.at t).pwr with huStep := 1, huPending := false } } :=
      (if_neg (not_not.2 h0)).trans (if_neg (ne_true_of_eq_false hpf))
    rw [idle]
    exact .intro _ ⟨rfl, rfl⟩
  · intro s volt t h1 hpf
    have steady : (decide ((s.at t).pwr.huStep = 1) && !(s.at t).pwr.pfHold) = true := by
      change (decide (s.pwr.huStep = 1) && !s.pwr.pfHold) = true
      rw [h1, hpf]
      rfl
    exact ⟨_, if_pos steady, rfl, rfl, rfl, rfl⟩
  · exact fun s dv t h => execHoldupSelfTestEnd_judges dv t h

end Sys2Proof.Machine
end

section

namespace Sys2Proof.Machine

open Sys2Proof

-- One theorem at a time: a default argument is read from the whole environment before it, so proofs side by side would only wait.
set_option Elab.async false

/-! ## What firmware images and profiles leave alone (R381, R388) -/

/-- The words QUIESCE goes by: the mode, the slot that runs, and STOP. -/
def quiesceWords : List Nat := [Reg.TOP_MODE, Reg.TOP_BOOT, Reg.GK_THERM]

/-- A field of another word. -/
def Fld.offQuiesce (f : Fld) : Bool := !quiesceWords.contains f.reg && (decide (f.msb < 32) || !quiesceWords.contains (f.reg + 4))

/-- A step beside QUIESCE: the words it goes by, its queue and running action, the flush's hold and the translation stay; no completion goes. -/
structure Steady (s t : State) : Prop where
  words : s.sameWords t (· ∉ quiesceWords)
  quiesce : t.quiesce = s.quiesce
  hold : t.pwr.pfHold = s.pwr.pfHold
  stuck : t.pwr.stuck = s.pwr.stuck
  xlt : t.xlt = s.xlt
  cqes : ∀ e ∈ s.cqes, e ∈ t.cqes

section Steadily

variable {s₀ s : State}

theorem Steady.refl (s : State) : Steady s s := ⟨.refl s _, rfl, rfl, rfl, rfl, fun _ h => h⟩

theorem Steady.trans {t : State} (h : Steady s₀ s) (ht : Steady s t) : Steady s₀ t where
  words := h.words.then ht.words fun _ h => h
  quiesce := ht.quiesce.trans h.quiesce
  hold := ht.hold.trans h.hold
  stuck := ht.stuck.trans h.stuck
  xlt := ht.xlt.trans h.xlt
  cqes e he := ht.cqes e (h.cqes e he)

/-- A field of those words reads as before. -/
theorem Steady.rd {t : State} (h : Steady s t) {f : Fld} (hf : quiesceWords.contains f.reg = true := by decide)
    (hm : f.msb < 32 := by decide) : t.rd f = s.rd f :=
  h.words.rd hm (not_not.2 (by simpa using hf))

theorem Steady.flag {t : State} (h : Steady s t) {f : Fld} (hf : quiesceWords.contains f.reg = true := by decide)
    (hm : f.msb < 32 := by decide) : t.flag f = s.flag f := by
  rw [State.flag, State.flag, h.rd hf hm]

section Branches

variable {c : Prop} {d : Decidable c} {t u : State} {α : Type}

theorem Steady.ite (ht : Steady s₀ t) (hu : Steady s₀ u) : Steady s₀ (if c then t else u) := by
  split
  · exact ht
  · exact hu

/-- A branch that goes on, the other one standing still. -/
theorem Steady.thenIf (h : Steady s₀ t) (n : Steady s₀ t → Steady s₀ u) : Steady s₀ (if c then u else t) := .ite (n h) h

theorem Steady.elseIf (h : Steady s₀ t) (n : Steady s₀ t → Steady s₀ u) : Steady s₀ (if c then t else u) := .ite h (n h)

theorem Steady.pair {x : α} (h : Steady s₀ t) : Steady s₀ (x, t).2 := h

theorem Steady.foldl_mem {f : State → α → State} {l : List α} (h : Steady s₀ t)
    (hf : ∀ u, ∀ x ∈ l, Steady s₀ u → Steady s₀ (f u x)) : Steady s₀ (l.foldl f t) := by
  induction l generalizing t with
  | nil => exact h
  | cons x l ih => exact ih (hf _ x List.mem_cons_self h) fun u y hy => hf u y (List.mem_cons_of_mem _ hy)

theorem Steady.foldl {f : State → α → State} {l : List α} (h : Steady s₀ t) (hf : ∀ u x, Steady s₀ u → Steady s₀ (f u x)) :
    Steady s₀ (l.foldl f t) :=
  h.foldl_mem fun u x _ => hf u x

end Branches

section Fields

variable {now latch replies fns rr nss zones clutches kept landing cmds adminTags efts evr hlt med cho dzl sec boot dram snc pins freeIx pending}

/-- A change of what none of this speaks of. -/
theorem Steady.other (h : Steady s₀ s) :
    Steady s₀ ⟨now, s.regs, latch, replies, s.cqes, fns, rr, nss, zones, clutches, kept, landing, cmds, adminTags, efts, s.xlt, evr, hlt,
      s.quiesce, med, cho, dzl, sec, boot, s.pwr, dram, snc, pins, freeIx, pending⟩ :=
  h.trans ⟨.same, rfl, rfl, rfl, rfl, fun _ h => h⟩

end Fields

theorem Steady.setWord {a v : Nat} (h : Steady s₀ s) (ha : a ∉ quiesceWords) : Steady s₀ (s.setWord a v) :=
  h.trans ⟨(State.sameWords.refl s _).setWord ha, rfl, rfl, rfl, rfl, fun _ h => h⟩

theorem Steady.wr {f : Fld} {v : Nat} (h : Steady s₀ s) (hf : f.offQuiesce = true := by decide) : Steady s₀ (s.wr f v) := by
  simp only [Fld.offQuiesce, Bool.and_eq_true, Bool.or_eq_true, decide_eq_true_eq, Bool.not_eq_true', List.contains_eq_mem,
    decide_eq_false_iff_not] at hf
  exact h.trans ⟨(State.sameWords.refl s _).wr hf.1 hf.2, s.wr_quiesce f v, congrArg Pwr.pfHold (s.wr_pwr f v), congrArg Pwr.stuck (s.wr_pwr f v),
    s.wr_xlt f v, fun e he => by rwa [s.wr_cqes]⟩

theorem Steady.setFlag {f : Fld} {b : Bool} (h : Steady s₀ s) (hf : f.offQuiesce = true := by decide) : Steady s₀ (s.setFlag f b) := h.wr hf

/-! ### Events and clocks -/

theorem Steady.keepTag {src : Src} (h : Steady s₀ s) : Steady s₀ (s.keepTag src) := h.other

theorem Steady.raiseIf {n bit : Nat} {a : Aen} (h : Steady s₀ s) : Steady s₀ (s.raiseIf n bit a) := by
  unfold State.raiseIf
  exact h.thenIf fun h => h.trans ⟨.same (s.raise_regs n a), s.raise_quiesce n a, congrArg Pwr.pfHold (s.raise_pwr n a),
    congrArg Pwr.stuck (s.raise_pwr n a), s.raise_xlt n a, (Undisturbed.raise (.refl (k := .low) s)).cqes⟩

theorem Steady.record {code : Nat} {payload : List Nat} (h : Steady s₀ s) : Steady s₀ (s.record code payload) := by
  have beside : ∀ a ∈ recordWords, a ∉ quiesceWords := by decide
  exact h.trans ⟨(s.record_words code payload).mono beside, s.record_quiesce _ _, congrArg Pwr.pfHold (s.record_pwr _ _),
    congrArg Pwr.stuck (s.record_pwr _ _), s.record_xlt _ _, fun e he => by rwa [s.record_cqes]⟩

/-- A change of the power state, the flush's hold apart. -/
theorem Steady.power {p : Pwr} (h : Steady s₀ s) (hh : p.pfHold = s.pwr.pfHold := by rfl)
    (hs : p.stuck = s.pwr.stuck := by rfl) :
    Steady s₀ { s with pwr := p } :=
  h.trans ⟨.same, rfl, hh, hs, rfl, fun _ h => h⟩

theorem Steady.releaseHeld (h : Steady s₀ s) : Steady s₀ s.releaseHeld := by
  unfold State.releaseHeld
  split
  · exact h
  · exact h.elseIf fun h => h.power.wr

theorem Steady.voltDown (h : Steady s₀ s) : Steady s₀ s.voltDown := by
  unfold State.voltDown
  exact h.thenIf fun h => (h.power.wr.setFlag).releaseHeld

theorem Steady.opDown {n : Nat} (h : Steady s₀ s) : Steady s₀ (s.opDown n) := h.power.wr.voltDown

theorem Steady.settleCeil (h : Steady s₀ s) : Steady s₀ s.settleCeil := by
  unfold State.settleCeil
  exact .ite h.wr.setFlag.opDown h.wr.setFlag

theorem Steady.hostBusy (h : Steady s₀ s) : Steady s₀ s.hostBusy := by
  unfold State.hostBusy
  have roused : Steady s₀ (if s.rd Fd.GK_PSTATE_CUR = 1 then (s.wr Fd.GK_PSTATE_CUR 0).wr Fd.GK_PSTATE_REQ_STATE 0 else s) := h.thenIf (·.wr.wr)
  exact roused.elseIf (·.wr.settleCeil)

/-- Taking a command's entry. -/
theorem Steady.entered (s : State) (src : Src) : Steady s (s.entered src) := by
  unfold State.entered
  split
  · exact .refl s
  · exact (Steady.hostBusy (.refl s)).other

/-! ### Key slots and shares -/

theorem Steady.modFn {n : Nat} {g : Fn → Fn} (h : Steady s₀ s) : Steady s₀ (s.modFn n g) := h.other

theorem Steady.modNs {nsid : Nat} {g : Ns → Ns} (h : Steady s₀ s) : Steady s₀ (s.modNs nsid g) := h.other

theorem Steady.setSlot {n : Nat} {v : KeySlot} (h : Steady s₀ s) : Steady s₀ (s.setSlot n v) := h.other

theorem Steady.moveMedia {f top : Nat} (h : Steady s₀ s) : Steady s₀ (s.moveMedia f top) := by
  refine (h.foldl fun _ _ hu => hu.setSlot).foldl fun _ _ hu => ?_
  extract_lets
  split
  · exact .ite hu.modNs.setSlot hu.modNs
  · exact hu.modNs

theorem Steady.resizeKeys {new : Nat} (h : Steady s₀ s) : Steady s₀ (s.resizeKeys 0 new) := by
  unfold State.resizeKeys
  exact .ite (.ite h.wr.modFn h.wr.modFn.moveMedia) h.modFn.wr

theorem Steady.setPool {d : PoolDesc} (h : Steady s₀ s) : Steady s₀ (s.setPool 0 d) := h.wr.wr.wr.wr.wr.wr.wr.wr.wr.wr.wr.wr.wr

/-! ### Machine/Snc and Machine/Images -/

theorem Steady.flashPut {a : Nat} {b : Byte} (h : Steady s₀ s) : Steady s₀ (s.flashPut a b) := h.other

theorem Steady.flashAnd {a : Nat} {data : Bytes} (h : Steady s₀ s) : Steady s₀ (s.flashAnd a data) := by
  induction data generalizing s a with
  | nil => exact h
  | cons b data ih => exact ih h.flashPut

theorem Steady.flagAppend {r : Bytes} (h : Steady s₀ s) : Steady s₀ (s.flagAppend r) := by
  unfold State.flagAppend
  extract_lets
  split
  · exact h.flashAnd
  · exact .flashAnd (.other (.flashAnd (.other h.flashAnd)))

theorem Steady.eraseWhole {size a : Nat} (h : Steady s₀ s) : Steady s₀ (s.eraseWhole size a) := by
  have intent : Steady s₀ (s.eraseIntent size a) := by
    unfold State.eraseIntent
    exact h.elseIf (·.other.flagAppend)
  have erased {n : Nat} : Steady s₀ ((s.eraseIntent size a).flashErase a n) := intent.other
  unfold State.eraseWhole State.eraseClear
  exact erased.elseIf (·.flagAppend)

theorem Steady.writeSlot {r : SlotRec} (h : Steady s₀ s) : Steady s₀ (s.writeSlot r) := by
  unfold State.writeSlot State.writeRec
  extract_lets
  split
  · exact h.flashAnd
  · exact h.thenIf (·.flashAnd.eraseWhole)

theorem Steady.otpSet {a : Nat} {data : Bytes} (h : Steady s₀ s) : Steady s₀ (s.otpSet a data) := by
  induction data generalizing s a with
  | nil => exact h
  | cons b data ih => exact ih h.other

theorem Steady.refreshOtp (h : Steady s₀ s) : Steady s₀ s.refreshOtp := h.wr.wr.setFlag.wr.wr.wr.wr.wr.wr.wr.wr

theorem Steady.otpProgram {kind v : Nat} (h : Steady s₀ s) : Steady s₀ (s.otpProgram kind v) := by
  unfold State.otpProgram
  split
  · exact h.otpSet.refreshOtp
  · exact (h.foldl fun _ _ hu => hu.otpSet).refreshOtp
  · exact (h.thenIf (·.otpSet)).otpSet.refreshOtp

theorem Steady.otpStep {kind v : Nat} (h : Steady s₀ s) : Steady s₀ (s.otpStep kind v) := by
  unfold State.otpStep
  exact .ite h.otpProgram (h.elseIf (·.other.wr))

theorem Steady.confirmSlot {n : Nat} (h : Steady s₀ s) : Steady s₀ (s.confirmSlot n) := by
  unfold State.confirmSlot
  exact .ite (.otpStep (.ite h.writeSlot.otpStep h.writeSlot)) (.ite h.writeSlot.otpStep h.writeSlot)

/-! ### Profiles -/

theorem Steady.loadReg {p : Profile} {off : Nat} (h : Steady s₀ s) (ho : off ∉ quiesceWords) : Steady s₀ (s.loadReg p off) := by
  unfold State.loadReg
  split
  · exact h
  · exact h.setWord ho

theorem Steady.cutFlags {cut : List Nat} (h : Steady s₀ s) : Steady s₀ (s.cutFlags 0 cut) := h.wr

theorem Steady.loadPf0 {p : Profile} (h : Steady s₀ s) : Steady s₀ (s.loadPf0 p) := by
  refine .cutFlags ?_
  split
  · exact h.setPool.wr.resizeKeys
  · exact h.setPool

theorem Steady.capBuffer {want : Nat} (h : Steady s₀ s) : Steady s₀ (s.capBuffer want).2 := by
  unfold State.capBuffer
  extract_lets
  split
  · exact h.record.pair
  · exact h.pair

theorem Steady.stage {n v : Nat} (h : Steady s₀ s) : Steady s₀ (s.stage n v) := h.other.wr

theorem Steady.stageProfile {p : Profile} (h : Steady s₀ s) : Steady s₀ (s.stageProfile p) := by
  unfold State.stageProfile
  extract_lets put
  have staged {t : State} {n cur new : Nat} (ht : Steady s₀ t) : Steady s₀ (put t n cur new) := ht.elseIf (·.stage)
  exact .loadReg (.loadReg (.wr (.wr (.foldl (staged (staged (staged (staged h)))) fun _ _ hu => staged hu))) (by decide)) (by decide)

theorem Steady.applySelect {p : Profile} (h : Steady s₀ s) : Steady s₀ (s.applySelect p false) := by
  have regs : ∀ off ∈ profileRegs, off ∉ quiesceWords := by decide
  exact .loadPf0 (.wr (.capBuffer (.settleCeil (.stageProfile (h.foldl_mem fun _ off ho hu => hu.loadReg (regs off ho))))))

theorem Steady.selectProfile {n : Nat} (h : Steady s₀ s) : Steady s₀ (s.selectProfile n false) := by
  unfold State.selectProfile
  split
  · exact h
  · exact .other (.setFlag (.wr (.wr h.applySelect)))

end Steadily

end Sys2Proof.Machine
end

section

namespace Sys2Proof.Machine

open Sys2Proof

-- One theorem at a time: side by side the proofs would wait for one another, each on a thread of its own.
set_option Elab.async false

/-! ## QUIESCE is entered (R42, R45, R110, R112) -/

/-- A command's action stands in the queue, the command waiting. -/
def State.queuedAct (s : State) (act : QAct) (src : Src) : State :=
  let t := s.keepTag src
  { t with quiesce := { t.quiesce with queue := t.quiesce.queue ++ [⟨act, some src⟩] } }

/-- The register writes of entering QUIESCE for an action. -/
def State.turned (s : State) (act : QAct) : State :=
  ((s.wr Fd.TOP_MODE_QCAUSE (qCause act)).setMode mQuiesce false).wr Fd.TOP_MODE_RETURN s.mode

/-- Nothing waits in the queue; QUIESCE counts from now. -/
def State.emptied (s : State) : State := { s with quiesce := { s.quiesce with queue := [], since := s.now } }

/-- An action that begins shows its cause, and leaves the mode and the way back. -/
def State.begun (s : State) (r : QReq) : State := (s.setRunning (some r) false).wr Fd.TOP_MODE_QCAUSE (qCause r.act)

/-- A switch is committed; with the hold-up test of a larger buffer begun. -/
def State.switching (s : State) (r : QReq) (grows : Bool) : State :=
  let t := s.setRunning (some r) true
  if grows then { t with pwr := { t.pwr with huStep := 1 } } else t

section Entry

variable {s : State} {act : QAct} {src : Src} {r : QReq}

theorem State.rd_queuedAct (s : State) (act : QAct) (src : Src) (g : Fld) : (s.queuedAct act src).rd g = s.rd g := rfl

theorem State.enterQuiesce_one {r : QReq} (h : s.quiesce.queue = [r]) : s.enterQuiesce = (s.turned r.act).emptied.beginAct r := by
  unfold State.enterQuiesce
  rw [h]
  rfl

/-- The queue runs from SERVE or DEGRADED, with no STOP or flush. -/
theorem State.resumeQueue_opens (hm : s.mode = mServe ∨ s.mode = mDegraded) (hs : s.flag Fd.GK_THERM_STOP = false)
    (hf : s.flag Fd.TOP_MODE_FLUSH = false) (hp : s.pwr.pfHold = false) : s.resumeQueue = s.enterQuiesce := by
  unfold State.resumeQueue
  rw [hs, hf, hp]
  rcases hm with h | h <;> rw [h] <;> rfl

/-- A request from SERVE or DEGRADED, with nothing queued and no STOP or flush, begins its action in QUIESCE. -/
theorem State.request_begins (ha : act = .firmware n ∨ act = .profile n false) (hm : s.mode = mServe ∨ s.mode = mDegraded)
    (hq : s.quiesce.queue = []) (hs : s.flag Fd.GK_THERM_STOP = false) (hf : s.flag Fd.TOP_MODE_FLUSH = false) (hp : s.pwr.pfHold = false) :
    s.request ⟨act, some src⟩ = ((s.queuedAct act src).turned act).emptied.beginAct ⟨act, some src⟩ := by
  have resumes : s.request ⟨act, some src⟩ = (s.queuedAct act src).resumeQueue := by
    rcases ha with rfl | rfl <;> rfl
  have one : (s.queuedAct act src).quiesce.queue = [⟨act, some src⟩] := congrArg (· ++ [(⟨act, some src⟩ : QReq)]) hq
  rw [resumes, State.resumeQueue_opens (s := s.queuedAct act src) hm hs hf hp, State.enterQuiesce_one one]

theorem State.rd_emptied (s : State) (g : Fld) : s.emptied.rd g = s.rd g := rfl

theorem State.turned_mode (s : State) (act : QAct) : (s.turned act).mode = mQuiesce :=
  (State.rd_wr_apart _ _ (by decide)).trans (State.setMode_mode _ false (by decide))

theorem State.turned_return (s : State) (act : QAct) : (s.turned act).rd Fd.TOP_MODE_RETURN = s.mode :=
  State.rd_wr_fits _ ⟨by decide, by decide⟩ s.mode_lt

theorem State.rd_setRunning (s : State) (r : Option QReq) (c : Bool) (g : Fld) : (s.setRunning r c).rd g = s.rd g := rfl

theorem State.begun_cause (s : State) (r : QReq) : (s.begun r).rd Fd.TOP_MODE_QCAUSE = qCause r.act := by
  have small : qCause r.act < 8 := by cases r.act <;> simp [qCause]
  exact State.rd_wr_fits _ ⟨by decide, by decide⟩ small

theorem State.begun_rd (s : State) (r : QReq) {g : Fld} (h : Fd.TOP_MODE_QCAUSE.apart g = true) : (s.begun r).rd g = s.rd g :=
  (State.rd_wr_apart _ _ h).trans (s.rd_setRunning _ _ g)

theorem State.begun_running (s : State) (r : QReq) : (s.begun r).quiesce.running = some r :=
  congrArg Quiesce.running (State.wr_quiesce _ _ _)

theorem State.switching_shows (s : State) (r : QReq) (grows : Bool) :
    (∀ g, (s.switching r grows).rd g = s.rd g) ∧ (s.switching r grows).quiesce.running = some r ∧ (s.switching r grows).quiesce.committed = true := by
  cases grows <;> exact ⟨fun _ => rfl, rfl, rfl⟩

theorem State.beginAct_firmware (s : State) (n : Nat) (src : Option Src) : s.beginAct ⟨.firmware n, src⟩ = s.begun ⟨.firmware n, src⟩ := rfl

theorem State.beginAct_profile (s : State) (n : Nat) (c : Bool) (src : Option Src) : ∃ grows,
    s.beginAct ⟨.profile n c, src⟩ = ((s.begun ⟨.profile n c, src⟩).selectProfile n false).switching ⟨.profile n c, src⟩ grows := by
  refine ⟨decide ((s.begun ⟨.profile n c, src⟩).rd Fd.XLT_BUF_SIZE <
    (((s.begun ⟨.profile n c, src⟩).selectProfile n false).setRunning (some ⟨.profile n c, src⟩) true).rd Fd.XLT_BUF_SIZE), ?_⟩
  simp only [State.switching, decide_eq_true_eq]
  rfl

/-- An activation begins: QUIESCE shows cause 1 and the way back. -/
theorem State.request_firmware {n : Nat} (hm : s.mode = mServe ∨ s.mode = mDegraded) (hq : s.quiesce.queue = [])
    (hs : s.flag Fd.GK_THERM_STOP = false) (hf : s.flag Fd.TOP_MODE_FLUSH = false) (hp : s.pwr.pfHold = false) :
    (s.request ⟨.firmware n, some src⟩).mode = mQuiesce ∧ (s.request ⟨.firmware n, some src⟩).rd Fd.TOP_MODE_QCAUSE = 1 ∧
    (s.request ⟨.firmware n, some src⟩).rd Fd.TOP_MODE_RETURN = s.mode ∧
    (s.request ⟨.firmware n, some src⟩).quiesce.running = some ⟨.firmware n, some src⟩ := by
  rw [State.request_begins (.inl rfl) hm hq hs hf hp, State.beginAct_firmware]
  exact ⟨(State.begun_rd _ _ (by decide)).trans ((State.rd_emptied _ _).trans (State.turned_mode _ _)), State.begun_cause _ _,
    (State.begun_rd _ _ (by decide)).trans ((State.rd_emptied _ _).trans (State.turned_return _ _)), State.begun_running _ _⟩

/-- A profile switch begins: QUIESCE shows cause 2, and the switch is committed. -/
theorem State.request_profile {n : Nat} (hm : s.mode = mServe ∨ s.mode = mDegraded) (hq : s.quiesce.queue = [])
    (hs : s.flag Fd.GK_THERM_STOP = false) (hf : s.flag Fd.TOP_MODE_FLUSH = false) (hp : s.pwr.pfHold = false) :
    (s.request ⟨.profile n false, some src⟩).mode = mQuiesce ∧ (s.request ⟨.profile n false, some src⟩).rd Fd.TOP_MODE_QCAUSE = 2 ∧
    (s.request ⟨.profile n false, some src⟩).quiesce.running = some ⟨.profile n false, some src⟩ ∧
    (s.request ⟨.profile n false, some src⟩).quiesce.committed = true := by
  rw [State.request_begins (.inr rfl) hm hq hs hf hp]
  obtain ⟨grows, begins⟩ := (((s.queuedAct (.profile n false) src).turned (.profile n false)).emptied).beginAct_profile n false (some src)
  obtain ⟨fields, running, committed⟩ := State.switching_shows
    ((((s.queuedAct (.profile n false) src).turned (.profile n false)).emptied.begun ⟨.profile n false, some src⟩).selectProfile n false)
    ⟨.profile n false, some src⟩ grows
  have kept (u : State) : Steady u (u.selectProfile n false) := .selectProfile (.refl u)
  rw [begins]
  exact ⟨(fields _).trans ((kept _).rd.trans ((State.begun_rd _ _ (by decide)).trans ((State.rd_emptied _ _).trans (State.turned_mode _ _)))),
    (fields _).trans ((kept _).rd.trans (State.begun_cause _ _)), running, committed⟩

end Entry

end Sys2Proof.Machine
end

section

namespace Sys2Proof.Machine

open Sys2Proof

-- One theorem at a time: side by side the proofs would wait for one another, each on a thread of its own.
set_option Elab.async false

/-! ## QUIESCE ends (R42, R112, R389) -/

/-- A part in QUIESCE with nothing queued, from SERVE and with no cause to go elsewhere. -/
structure State.ReturnsToServe (s : State) : Prop where
  mode : s.mode = mQuiesce
  stop : s.flag Fd.GK_THERM_STOP = false
  queue : s.quiesce.queue = []
  back : s.rd Fd.TOP_MODE_RETURN = mServe
  cause : s.rd Fd.TOP_MODE_DGCAUSE = 0
  stuck : s.pwr.stuck = false
  eol : s.xlt.eol = false

section Ends

variable {s₀ s : State}

theorem Steady.returns {t : State} (h : Steady s t) (r : s.ReturnsToServe) : t.ReturnsToServe where
  mode := h.rd.trans r.mode
  stop := h.flag.trans r.stop
  queue := by rw [h.quiesce, r.queue]
  back := h.rd.trans r.back
  cause := h.rd.trans r.cause
  stuck := h.stuck.trans r.stuck
  eol := by rw [h.xlt, r.eol]

theorem Steady.done {src : Src} {st : Status} {dw0 dw1 : Nat} {data : Payload} (h : Steady s₀ s) : Steady s₀ (s.done src st dw0 dw1 data) :=
  h.trans ⟨.same (s.done_regs _ _ _ _ _), s.done_quiesce _ _ _ _ _, congrArg Pwr.pfHold (s.done_pwr _ _ _ _ _),
    congrArg Pwr.stuck (s.done_pwr _ _ _ _ _), s.done_xlt _ _ _ _ _, (Undisturbed.done (.refl (k := .low) s)).cqes⟩

theorem State.ReturnsToServe.setRunning (r : s.ReturnsToServe) (a : Option QReq) (c : Bool) : (s.setRunning a c).ReturnsToServe :=
  ⟨r.mode, r.stop, r.queue, r.back, r.cause, r.stuck, r.eol⟩

/-- The mode QUIESCE is left for. -/
def State.served (s : State) : State := (s.wr Fd.TOP_MODE_QCAUSE 0).setMode mServe true

theorem State.served_rest (s : State) : s.served.mode = mServe ∧ s.served.rd Fd.TOP_BOOT_SLOT = s.rd Fd.TOP_BOOT_SLOT ∧
    s.served.quiesce = s.quiesce ∧ s.served.pwr = s.pwr ∧ s.served.xlt = s.xlt ∧ ∀ e ∈ s.cqes, e ∈ s.served.cqes := by
  have moved : Undisturbed .flash s s.served := .setMode (.wrBeside (.refl s))
  refine ⟨State.setMode_mode _ true (by decide), ?_, moved.quiesce, moved.pwr, ?_, moved.cqes⟩
  · exact (State.rd_setMode _ mServe true (by decide) (by decide) (by decide) (by decide)).trans (State.rd_wr_apart _ _ (by decide))
  · exact (State.setMode_xlt _ _ _).trans (s.wr_xlt _ _)

theorem State.leaveQuiesce_serve (hr : s.rd Fd.TOP_MODE_RETURN = mServe) (hd : s.rd Fd.TOP_MODE_DGCAUSE = 0) :
    s.leaveQuiesce = if s.served.startPeers.pwr.stuck then s.served.startPeers.enterReadonly 3
      else if s.served.startPeers.xlt.eol then s.served.startPeers.enterReadonly 2 else s.served.startPeers := by
  have goal : (if (0 : Nat) ≠ 0 then mDegraded else mServe) = mServe := rfl
  unfold State.leaveQuiesce State.served
  dsimp only
  rw [hr, hd, goal, decide_eq_true (rfl : mServe = mServe)]

/-- An action that ends takes the part back to SERVE; the slot that runs stays, and no completion goes. -/
theorem State.ReturnsToServe.endAct (r : s.ReturnsToServe) : s.endAct.mode = mServe ∧ s.endAct.rd Fd.TOP_BOOT_SLOT = s.rd Fd.TOP_BOOT_SLOT ∧
    s.endAct.quiesce.running = none ∧ ∀ e ∈ s.cqes, e ∈ s.endAct.cqes := by
  have idle := r.setRunning none false
  have leaves : s.endAct = (s.setRunning none false).leaveQuiesce := by
    unfold State.endAct State.nextAct
    rw [idle.stop, idle.queue]
    exact if_pos idle.mode
  obtain ⟨mode, slot, quiesce, pwr, xlt, cqes⟩ := (s.setRunning none false).served_rest
  have peers : Undisturbed .low (s.setRunning none false).served (s.setRunning none false).served.startPeers := .startPeers (.refl _)
  have stays : s.endAct = (s.setRunning none false).served.startPeers := by
    rw [leaves, State.leaveQuiesce_serve idle.back idle.cause, peers.pwr, pwr, idle.stuck, peers.eol rfl, xlt, idle.eol,
      if_neg Bool.false_ne_true, if_neg Bool.false_ne_true]
  rw [stays]
  refine ⟨(peers.fields _ ⟨by decide, by decide⟩).trans mode, (peers.fields _ ⟨by decide, by decide⟩).trans slot, ?_, fun e he => peers.cqes e (cqes e he)⟩
  rw [peers.quiesce, quiesce]
  rfl

/-- The slot that runs from now on. -/
def State.slotShown (s : State) (n : Nat) : State :=
  ({ s with boot := { s.boot with download := s.boot.download.filter fun (d : Download) => d.base ≠ s.slotBase n } }).wr Fd.TOP_BOOT_SLOT n

theorem State.slotShown_slot (s : State) {n : Nat} (hn : n < 2) : (s.slotShown n).rd Fd.TOP_BOOT_SLOT = n :=
  State.rd_wr_fits _ ⟨by decide, by decide⟩ hn

theorem State.slotShown_rd (s : State) (n : Nat) {g : Fld} (h : Fd.TOP_BOOT_SLOT.apart g = true) : (s.slotShown n).rd g = s.rd g :=
  (State.rd_wr_apart _ n h).trans rfl

theorem State.ReturnsToServe.slotShown (r : s.ReturnsToServe) (n : Nat) : (s.slotShown n).ReturnsToServe where
  mode := (s.slotShown_rd n (by decide)).trans r.mode
  stop := (congrArg (· != 0) (s.slotShown_rd n (by decide))).trans r.stop
  queue := (congrArg Quiesce.queue (State.wr_quiesce _ _ _)).trans r.queue
  back := (s.slotShown_rd n (by decide)).trans r.back
  cause := (s.slotShown_rd n (by decide)).trans r.cause
  stuck := (congrArg Pwr.stuck (State.wr_pwr _ _ _)).trans r.stuck
  eol := (congrArg Xlt.eol (State.wr_xlt _ _ _)).trans r.eol

/-- What an image that runs shows beside its slot. -/
theorem Steady.runImage (s : State) (n : Nat) : Steady (s.slotShown n) (s.runImage n) := by
  have version : ∀ i ∈ List.range 2, (Fd.TOP_FWVER_ASCII i).offQuiesce = true := by decide
  exact (Steady.wr (.refl (s.slotShown n))).foldl_mem fun _ i hi hu => hu.wr (version i hi)

/-- Fetching is no longer held for the activation, and none is pending. -/
def State.activated (s : State) : State := { s with boot := { s.boot with provHold := false, actAt := none, pendingSlot := none } }

theorem Steady.activated (h : Steady s₀ s) : Steady s₀ s.activated := h.other

/-- An activation that leaves QUIESCE: the new slot runs, the part serves, and the commit completes. -/
theorem State.ReturnsToServe.finishActivation (r : s.ReturnsToServe) {n : Nat} (hn : n < 2) (act : QAct) (src : Src) :
    (s.finishActivation ⟨act, some src⟩ n).mode = mServe ∧ (s.finishActivation ⟨act, some src⟩ n).rd Fd.TOP_BOOT_SLOT = n ∧
    (s.finishActivation ⟨act, some src⟩ n).quiesce.running = none ∧
    cqeOf src .success 0 0 .none ∈ (s.finishActivation ⟨act, some src⟩ n).cqes := by
  have ends : s.finishActivation ⟨act, some src⟩ n = ((((s.runImage n).confirmSlot n).activated).done src .success 0 0 .none).endAct := rfl
  have confirmed : Steady (s.slotShown n) ((((s.runImage n).confirmSlot n).activated).done src .success 0 0 .none) :=
    (Steady.activated ((Steady.runImage s n).confirmSlot)).done
  obtain ⟨mode, slot, running, cqes⟩ := (confirmed.returns (r.slotShown n)).endAct
  rw [ends]
  refine ⟨mode, slot.trans ?_, running, cqes _ ?_⟩
  · exact confirmed.rd.trans (s.slotShown_slot hn)
  · rw [State.done_cqes]
    exact List.mem_cons_self

end Ends

end Sys2Proof.Machine
end

section

namespace Sys2Proof.Machine

open Sys2Proof

-- One theorem at a time: side by side the proofs would wait for one another, each on a thread of its own.
set_option Elab.async false

/-! ## Commands that QUIESCE interrupts (R111) -/

section Interrupts

variable {s : State}

theorem State.sendRouted_cmds (s : State) (type dest flags tag : Nat) (b : Bytes) : (s.sendRouted type dest flags tag b).2.cmds = s.cmds := by
  unfold State.sendRouted
  split
  · rfl
  · unfold State.sendFrame
    dsimp only
    split <;> rfl

theorem State.sendPread_cmds (s : State) (o : PeerOut) : (s.sendPread o).cmds = s.cmds := by
  have sent : (if s.member && s.inMap o.req.dev then s.sendRouted 0x10 o.req.dev 0 o.tag (preadPayload o.req) else (false, s)).2.cmds = s.cmds := by
    split
    · exact s.sendRouted_cmds _ _ _ _ _
    · rfl
  unfold State.sendPread
  extract_lets r
  split
  · exact sent
  · rfl

theorem State.sendOuts_cmds (n : Nat) (s : State) : (State.sendOuts n s).cmds = s.cmds := by
  induction n generalizing s with
  | zero => rfl
  | succ n ih =>
    unfold State.sendOuts
    split
    · rfl
    · split
      · rfl
      · exact (ih _).trans (s.sendPread_cmds _)

theorem State.dropOuts_cmds (s : State) (tag : Nat) : (s.dropOuts tag).cmds = s.cmds := State.sendOuts_cmds _ _

theorem State.peerAnswer_cmds (s : State) (i : PeerIn) (st : Status) (b : Bytes) : (s.peerAnswer i st b).cmds = s.cmds := by
  unfold State.peerAnswer
  split
  · rfl
  · exact (State.sendRouted_cmds _ _ _ _ _ _).trans (foldl_same (·.cmds) _ (fun t p => t.sendRouted_cmds _ _ _ _ _) _ _)

theorem State.peerEnd_cmds (s : State) (c : Cmd) (st : Status) (data : Payload) : (s.peerEnd c st data).cmds = s.cmds := by
  unfold State.peerEnd
  split
  · rfl
  · exact s.peerAnswer_cmds _ _ _

/-- A command that ends leaves the list. -/
theorem State.finish_cmds (s : State) (c : Cmd) (st : Status) (dw0 dw1 : Nat) (data : Payload) :
    (s.finish c st dw0 dw1 data).cmds = s.cmds.filter fun d => d.tag ≠ c.tag := by
  have dropped : (if c.kind = .reconstruct then s.dropOuts c.tag else s).cmds = s.cmds := by
    split
    · exact s.dropOuts_cmds _
    · rfl
  unfold State.finish
  split
  · exact State.peerEnd_cmds _ _ _ _
  · dsimp only
    split <;> split <;> simp [State.dropCmd, dropped]

/-- A host command that ends has its completion posted. -/
theorem State.finish_posts (s : State) {c : Cmd} (hk : c.kind ≠ .peer) (st : Status) (dw0 dw1 : Nat) (data : Payload) :
    ∃ e ∈ (s.finish c st dw0 dw1 data).cqes, e.fn = c.fn ∧ e.qid = c.qid ∧ e.cid = c.cid ∧ e.status = st := by
  refine ⟨⟨c.fn, c.qid, c.cid, st, dw0, dw1, data, st.dnr⟩, ?_, rfl, rfl, rfl, rfl⟩
  have posted (t : State) : (⟨c.fn, c.qid, c.cid, st, dw0, dw1, data, st.dnr⟩ : Cqe) ∈ (t.post c.fn c.qid c.cid st dw0 dw1 data).cqes := by
    unfold State.post
    split <;> simp
  unfold State.finish
  rw [if_neg hk]
  dsimp only
  split <;> split <;> exact posted _

/-- No command has this tag. -/
def State.untagged (s : State) (tag : Nat) : Prop := ∀ d ∈ s.cmds, d.tag ≠ tag

theorem State.untagged.of_cmds {t : State} {tag : Nat} (h : s.untagged tag) (ht : t.cmds = s.cmds) : t.untagged tag := fun d hd => h d (ht ▸ hd)

theorem State.untagged.modCmd {tag own : Nat} {g : Cmd → Cmd} (h : s.untagged tag) (hg : ∀ c, (g c).tag = c.tag) :
    (s.modCmd own g).untagged tag := by
  intro d hd
  obtain ⟨c, hc, rfl⟩ := List.mem_map.1 hd
  split
  · rw [hg]
    exact h c hc
  · exact h c hc

theorem State.untagged.finish {tag : Nat} (h : s.untagged tag) (c : Cmd) (st : Status) (dw0 dw1 : Nat) (data : Payload) :
    (s.finish c st dw0 dw1 data).untagged tag :=
  fun d hd => h d (List.mem_of_mem_filter (s.finish_cmds c st dw0 dw1 data ▸ hd))

theorem State.startItem_cmds (s : State) (p n : Nat) (i : Item) : (s.startItem p n i).cmds = s.cmds := by
  have owned (t : State) (o : Owner) : (t.setOwner p n o).cmds = t.cmds := by cases o <;> simp [State.setOwner]
  unfold State.startItem
  rw [owned, State.modEft_cmds]
  split
  · simp [State.scrubEft]
  · rfl

theorem State.untagged.startOutput {tag p n : Nat} (h : s.untagged tag) (i : Item) (c : Cmd) : (s.startOutput p n i c).untagged tag := by
  unfold State.startOutput
  refine State.untagged.modCmd (.of_cmds (.of_cmds ?_ (State.startItem_cmds _ _ _ _)) (State.modEft_cmds _ _ _ _)) fun _ => rfl
  split
  · exact h
  · exact h

theorem State.untagged.resumeOutput {tag k : Nat} (h : s.untagged tag) (c : Cmd) : (s.resumeOutput c k).untagged tag := by
  unfold State.resumeOutput
  dsimp only
  split
  · exact h
  · split
    · exact State.untagged.startOutput (.of_cmds h (State.modEft_cmds _ _ _ _)) _ _
    · exact h

theorem State.untagged.issueTerms {tag : Nat} (h : s.untagged tag) (c : Cmd) : (s.issueTerms c).untagged tag := by
  unfold State.issueTerms
  split
  · exact h
  · split
    · exact h.resumeOutput c
    · refine State.untagged.modCmd (.of_cmds h ?_) fun _ => rfl
      exact foldl_same (·.cmds) _ (fun t i => t.modEft_cmds _ _ _) _ _

theorem State.untagged.concludeOne {tag : Nat} (h : s.untagged tag) (c : Cmd) : (s.concludeOne c).untagged tag := by
  unfold State.concludeOne
  dsimp only
  split
  · exact (State.untagged.of_cmds (t := s.cancelItems c.tag) h rfl).finish _ _ _ _ _
  · exact h.issueTerms _

theorem State.untagged.concludeRecon {tag : Nat} (h : s.untagged tag) : s.concludeRecon.untagged tag := by
  unfold State.concludeRecon
  dsimp only
  generalize ((s.cmds.filter _).map Cmd.tag) ++ _ = l
  induction l generalizing s with
  | nil => exact h
  | cons x l ih =>
    refine ih ?_
    dsimp only
    split
    · split
      · exact h
      · exact h.concludeOne _
    · exact h

/-- A command still running in QUIESCE is interrupted: it leaves, and its completion says so. -/
theorem execQuiesceCommandTimeout_ends {tag : Nat} {c : Cmd} (hc : s.cmd tag = some c) (hh : s.heldTags.find? (·.2 = tag) = none)
    (hs : c.started = true) (hk : c.kind ≠ .peer) (hm : s.mode = mQuiesce) :
    Next (execQuiesceCommandTimeout tag s) (fun t => (∀ d ∈ t.cmds, d.tag ≠ tag) ∧
      ∃ e ∈ t.cqes, e.fn = c.fn ∧ e.qid = c.qid ∧ e.cid = c.cid ∧ e.status = .commandInterrupted) := by
  have own : c.tag = tag := by simpa using List.find?_some hc
  have concluded (u : State) : Undisturbed .low u u.concludeRecon := .concludeRecon (.refl u)
  have gone : ((s.cancelItems tag).finish c .commandInterrupted 0 0 .none).untagged tag := by
    intro d hd
    rw [State.finish_cmds, own] at hd
    simpa using (List.mem_filter.1 hd).2
  obtain ⟨e, he, posted⟩ := (s.cancelItems tag).finish_posts hk .commandInterrupted 0 0 .none
  unfold execQuiesceCommandTimeout
  rw [hh]
  dsimp only
  rw [onTag_some s _ hc, hs, hm, if_pos (by decide)]
  exact .intro _ ⟨gone.concludeRecon, e, (concluded _).cqes e he, posted⟩

/-- An admin command that waits for the TRNG is interrupted. -/
theorem execQuiesceCommandTimeout_held {tag : Nat} {src : Src} (hh : s.heldTags.find? (·.2 = tag) = some (src, tag)) (hm : s.mode = mQuiesce)
    (hw : (s.sec.trngWaits.any fun o => o.src = some src) = true) :
    Next (execQuiesceCommandTimeout tag s) (fun t => (t.sec.trngWaits.any fun o => o.src = some src) = false ∧
      cqeOf src .commandInterrupted 0 0 .none ∈ t.cqes) := by
  have joins (p : JoinWait → Bool) : (s.endJoins p .commandInterrupted).sec = s.sec := foldl_same (·.sec) _ (fun t j => t.err_sec _ _) _ _
  have filtered (l : List TrngOp) : ((l.filter fun o => o.src ≠ some src).any fun o => o.src = some src) = false := by
    simp
  unfold execQuiesceCommandTimeout
  rw [hh]
  dsimp only
  rw [if_pos hm]
  refine .intro _ ?_
  unfold State.interruptHeld
  dsimp only
  rw [joins, hw, Bool.true_or, if_pos rfl]
  exact ⟨by rw [State.err_sec]; exact filtered _, by rw [State.err_cqes]; exact List.mem_cons_self⟩

/-- Every function of a list is told: its status is fatal. -/
theorem State.foldl_cfs (l : List Nat) (s : State) :
    ∀ n, n ∈ l ∨ (s.fn n).cfs = true → ((l.foldl (fun (s : State) n => s.modFn n fun f => { f with cfs := true }) s).fn n).cfs = true := by
  induction l generalizing s with
  | nil => simp
  | cons x l ih =>
    intro n h
    refine ih _ n ?_
    by_cases e : n = x
    · subst e
      exact .inr (by rw [State.fn_modFn_same])
    · rw [State.fn_modFn_other _ _ _ e]
      rcases h with h | h
      · exact .inl (List.mem_of_ne_of_mem e h)
      · exact .inr h

end Interrupts

end Sys2Proof.Machine
end

section

namespace Sys2Proof.Machine

open Sys2Proof

-- One theorem at a time: side by side the proofs would wait for one another, each on a thread of its own.
set_option Elab.async false

/-! ## O12 -/

/-- An activation of an image the slot holds is requested behind the slot's record. -/
theorem activateNow_requests {s : State} {src : Src} {n : Nat} (hm : s.mode = mServe ∨ s.mode = mDegraded)
    (hr : s.flag Fd.TOP_BOOT_RECOVERY = false) (hd : s.boot.download = none) (he : s.slotRec.state n ≠ sEMPTY) (hok : s.slotOk n = true) :
    ∃ t : State, Steady s t ∧ activateNow src n s = t.request ⟨.firmware n, some src⟩ := by
  have written : Steady s ((s.writeSlot { s.slotRec.setState n sTRIAL with next := n, tries := 1 }).raiseIf 0 9 .fwStarting) :=
    (Steady.writeSlot (.refl s)).raiseIf
  have allowed : s.noActivation = false := by
    unfold State.noActivation
    rcases hm with h | h <;> rw [h] <;> rfl
  have activates : activateNow src n s = s.activate n (some src) := by
    unfold activateNow
    rw [allowed, hd, hok, hr, decide_eq_false he]
    rfl
  refine ⟨_, written, activates.trans (if_neg ?_)⟩
  have mode : State.mode _ = s.mode := written.rd
  rw [mode]
  rcases hm with h | h <;> rw [h] <;> decide

/-- A firmware commit to slot 1 or 2 of PF0 is its slot's. -/
theorem commitTo_slot {s : State} {src : Src} {n : Nat} (hf : src.fn = 0) (hn : n < 2) (fw : Nat → State → State) (peuth : State → State) :
    commitTo src (n + 1) fw peuth s = fw n s := by
  have slot : s.commitSlot (n + 1) = n + 1 := if_neg (Nat.succ_ne_zero n)
  have inside : (decide (n + 1 = 0) || decide (3 < n + 1)) = false := by
    rw [decide_eq_false (Nat.succ_ne_zero n), decide_eq_false (by omega)]
    rfl
  unfold commitTo
  dsimp only
  rw [slot, if_neg (not_not.2 hf), if_neg (ne_true_of_eq_false inside), if_neg (by omega)]
  rfl

/-- Where the mode prohibits it an activation is refused, the boot flash as it was. -/
theorem activateNow_prohibited {s : State} {src : Src} {n : Nat} (hm : s.mode = mHold ∨ s.mode = mSanitize ∨ s.mode = mReadonly) :
    activateNow src n s = s.err src .fwActivationProhibited := by
  refine if_pos ?_
  unfold State.noActivation
  rcases hm with h | h | h <;> rw [h] <;> rfl

/-- A Profile Select of another valid profile is requested. -/
theorem profileSelect_requests {s : State} {src : Src} {n : Nat} {p : Profile} (ht : s.takes src .profile = true) (hf : src.fn = 0)
    (hm : (s.entered src).mode = mServe ∨ (s.entered src).mode = mDegraded) (hn : n ≤ 3) (hp : (s.entered src).profileOf n = some p)
    (hc : (s.entered src).canReserve ((s.entered src).capBuffer p.buffer).1 = true) (ha : n ≠ (s.entered src).rd Fd.TOP_PROFILE_ACTIVE) :
    execProfileSelect src n s = .next ((s.entered src).request ⟨.profile n false, some src⟩) := by
  have served : (!(decide ((s.entered src).mode = mServe) || decide ((s.entered src).mode = mDegraded) ||
      decide ((s.entered src).mode = mProvision))) = false := by
    rcases hm with h | h <;> rw [h] <;> rfl
  have fielded : (s.entered src).mode ≠ mProvision := by
    rcases hm with h | h <;> rw [h] <;> decide
  unfold execProfileSelect
  rw [host_takes s _ ht]
  dsimp only
  rw [if_neg (not_not.2 hf), if_neg (ne_true_of_eq_false served), if_neg (by omega), hp]
  dsimp only
  rw [hc, decide_eq_false ha, if_neg (by decide), if_neg (by simp), if_neg fielded]

/-- Settles O12: an activation and a profile write beside the words QUIESCE goes by, so what they leave is what the request meets; leaving
QUIESCE starts peer reads alone, which reach neither the mode nor the slot; and what an interrupted command lets go brings none under its tag. -/
theorem quiesceEntryAndEnd : Obligations.QuiesceEntryAndEnd := by
  unfold Obligations.QuiesceEntryAndEnd
  refine ⟨⟨?_, ?_⟩, ?_, ?_, ?_, ?_⟩
  · intro s src n ht hf hn hd
    change (_ → Next (execFirmwareCommitActivateNow src (n + 1) s) _) ∧ (_ → _ → _ → _ → _ → _ → _ → _ →
      Next (execFirmwareCommitActivateNow src (n + 1) s) _)
    unfold execFirmwareCommitActivateNow
    rw [host_takes s _ ht, commitTo_slot hf hn]
    refine ⟨fun hm => ?_, fun hm hr he hok hq hs hfl hp => ?_⟩
    · rw [activateNow_prohibited hm]
      exact .intro _ ⟨by simp [State.completes], by simp⟩
    · have download : (s.entered src).boot.download = none := by rw [State.entered_boot, hd]
      obtain ⟨t, kept, requests⟩ := activateNow_requests (src := src) (n := n) hm hr download he hok
      have queue : t.quiesce.queue = [] := by rw [kept.quiesce, (Steady.entered s src).quiesce, hq]
      have mode : t.mode = (s.entered src).mode := kept.rd
      rw [requests]
      obtain ⟨into, cause, back, running⟩ := State.request_firmware (s := t) (src := src) (n := n) (by rwa [mode]) queue (kept.flag.trans hs)
        (kept.flag.trans hfl) (kept.hold.trans ((Steady.entered s src).hold.trans hp))
      exact .intro _ ⟨into, cause, back.trans mode, running⟩
  · intro s src n p ht hf hm
    refine ⟨fun hn => ?_, fun hn hp hc ha hq hs hfl hpf => ?_⟩
    · have served : (!(decide ((s.entered src).mode = mServe) || decide ((s.entered src).mode = mDegraded) ||
          decide ((s.entered src).mode = mProvision))) = false := by
        rcases hm with h | h <;> rw [h] <;> rfl
      change Next (execProfileSelect src n s) _
      unfold execProfileSelect
      rw [host_takes s _ ht]
      dsimp only
      rw [if_neg (not_not.2 hf), if_neg (ne_true_of_eq_false served), if_pos hn]
      exact .intro _ ⟨by simp [State.completes], by simp⟩
    · have queue : (s.entered src).quiesce.queue = [] := by rw [(Steady.entered s src).quiesce, hq]
      obtain ⟨into, cause, running, committed⟩ := State.request_profile (src := src) (n := n) hm queue hs hfl
        ((Steady.entered s src).hold.trans hpf)
      exact ⟨_, profileSelect_requests ht hf hm hn hp hc ha, into, cause, running, committed⟩
  · intro s src hm hfl hp hs hq he hd hr hstuck
    have returns : s.ReturnsToServe := ⟨hm, hs, hq, hr, hd, hstuck, he⟩
    refine ⟨fun n hn hrun hhang hc hcmds hok => ?_, fun n hrun hbuf hre hst hhu => ?_⟩
    · have goes : execFirmwareActivation true s = .next ((s.setRunning (some ⟨.firmware n, some src⟩) true).finishActivation ⟨.firmware n, some src⟩ n) := by
        unfold execFirmwareActivation
        rw [hrun]
        dsimp only
        rw [hfl, hp, hhang, hc, hcmds, hok]
        rfl
      exact ⟨_, goes, (returns.setRunning _ _).finishActivation hn _ src⟩
    · have ends : execProfileSwitchComplete s = .next ((s.done src .success (s.rd Fd.TOP_PROFILE_ACTIVE) 0 .none).endAct) := by
        have room : ¬ s.bufRoom < s.bufBytes := Nat.not_lt.2 hbuf
        unfold execProfileSwitchComplete
        rw [hrun]
        dsimp only
        rw [hfl, hp, hre, hst, hhu, decide_eq_false room]
        rfl
      obtain ⟨mode, -, running, cqes⟩ := (((Steady.refl s).done (src := src) (st := .success) (dw0 := s.rd Fd.TOP_PROFILE_ACTIVE) (dw1 := 0)
        (data := .none)).returns returns).endAct
      refine ⟨_, ends, mode, running, cqes _ ?_⟩
      rw [State.done_cqes]
      exact List.mem_cons_self
  · intro s ha
    obtain ⟨at', act⟩ := Option.isSome_iff_exists.1 ha
    change Next (execActivationTimeout s) _
    unfold execActivationTimeout
    rw [act]
    refine .intro _ ⟨?_, fun n hn => State.foldl_cfs _ _ n (.inl hn)⟩
    exact (congrArg Boot.fwHang (foldl_same (·.boot) _ (fun t n => t.modFn_boot _ _) _ _)).trans rfl
  · exact fun s tag c hc hh hs hk hm => execQuiesceCommandTimeout_ends hc hh hs hk hm
  · exact fun s tag src hh hm hw => execQuiesceCommandTimeout_held hh hm hw

end Sys2Proof.Machine
end

section

namespace Sys2Proof.Machine

open Sys2Proof

-- One theorem at a time: side by side the proofs would wait for one another, each on a thread of its own.
set_option Elab.async false

/-! ## Sanitize (R37, R370, R371) -/

section Erase

variable {s : State}

/-- With every clutch gone at the release, none is left at the end of a crypto erase. -/
theorem State.cryptoErase_clutches (s : State) : s.cryptoErase.clutches = [] := by
  have released (u : State) : u.releaseAll.clutches = [] := by
    have dropped {v w : State} (h : Undisturbed .low v w) (hv : v.clutches = []) : w.clutches = [] := h.clutches hv
    unfold State.releaseAll
    dsimp only
    refine dropped (v := { u with clutches := [] }) (.maps (.foldl (.foldl ?_ fun _ _ hu => hu.releaseStripe) fun _ _ hu => hu.releaseSeg)) rfl
    exact Undisturbed.maps (.refl _)
  have rest (u : State) : Undisturbed .low u ((u.nss.foldl (fun (s : State) (n : Ns) => s.bindHomes n) u).unassignAll.refreshXlt) :=
    ((Undisturbed.refl u).foldl fun _ _ hu => hu.bindHomes).unassignAll.refreshXlt
  exact (rest _).clutches (released _)

/-- The functions' key slots are empty at the end of a crypto erase. -/
theorem State.cryptoErase_slots (s : State) {i : Nat} (hi : i < keySlotsForFns) : (s.cryptoErase.slot i).kind = 0 := by
  have rest (u : State) : Undisturbed .low u _ :=
    ((Undisturbed.refl u).newKeys.dropAllData.releaseAll.foldl (f := fun (s : State) (n : Ns) => s.bindHomes n) (l := u.newKeys.dropAllData.releaseAll.nss)
      fun _ _ hu => hu.bindHomes).unassignAll.refreshXlt
  refine (rest s.endAllIo.zeroFnSlots).slots i ?_
  rw [State.slot_zeroFnSlots, if_neg (Nat.not_le.2 hi)]
  rfl

theorem State.slot_ok (s : State) (src : Src) (i : Nat) : (s.ok src).slot i = s.slot i := by
  rw [State.slot, State.slot, State.ok_sec]

/-- A sanitize of a kind stands in the start's record. -/
def State.sanitizing (s : State) (block ause : Bool) : State :=
  let t := s.abortTest 9
  { t with boot := { t.boot with sanitize := 1, sanKind := if block then 2 else 1, sanAuse := ause, sanPaused := false } }

/-- A sanitize begins: the part is in SANITIZE with it in progress, the clutches and the functions' key slots gone. -/
theorem sanitizeNow_begins (s : State) (src : Src) (block ause : Bool) : (sanitizeNow src block ause s).mode = mSanitize ∧
    (sanitizeNow src block ause s).boot.sanitize = 1 ∧ (sanitizeNow src block ause s).boot.sanKind = (if block then 2 else 1) ∧
    (sanitizeNow src block ause s).clutches = [] ∧ ∀ i, i < keySlotsForFns → ((sanitizeNow src block ause s).slot i).kind = 0 := by
  generalize hu : (s.sanitizing block ause).setMode mSanitize false = u
  have now : sanitizeNow src block ause s = u.cryptoErase.ok src := hu ▸ rfl
  have boot : u.boot = (s.sanitizing block ause).boot := hu ▸ State.setMode_boot _ _ _
  have mode : u.mode = mSanitize := hu ▸ State.setMode_mode _ false (by decide)
  have erased : Undisturbed .low u (u.cryptoErase.ok src) := (Undisturbed.cryptoErase (.refl u)).done
  rw [now]
  refine ⟨(erased.fields _ ⟨by decide, by decide⟩).trans mode, ?_, ?_, ?_, fun i hi => ?_⟩
  · exact (congrArg Boot.sanitize erased.boot).trans (congrArg Boot.sanitize boot)
  · exact (congrArg Boot.sanKind erased.boot).trans (congrArg Boot.sanKind boot)
  · rw [State.ok_clutches, u.cryptoErase_clutches]
  · rw [State.slot_ok]
    exact u.cryptoErase_slots hi

/-- The checks of a Sanitize that PF0 may begin. -/
theorem sanitizeCmd_allowed {src : Src} {block ause : Bool} (hf : src.fn = 0) (h1 : s.boot.sanitize ≠ 1)
    (hm : s.mode = mServe ∨ s.mode = mDegraded ∨ s.mode = mSanitize) (hs : s.sec.scrapped = false) :
    sanitizeCmd src block ause false s = if s.trngOk then sanitizeNow src block ause s else s.trngWait src (.sanitize src block ause) := by
  have allowed : (!(decide (s.mode = mServe) || decide (s.mode = mDegraded) || decide (s.mode = mSanitize))) = false := by
    rcases hm with h | h | h <;> rw [h] <;> rfl
  unfold sanitizeCmd
  rw [if_neg (not_not.2 hf), if_neg Bool.false_ne_true, if_neg h1, if_neg (ne_true_of_eq_false allowed), hs, if_neg Bool.false_ne_true]
  cases s.trngOk <;> rfl

/-- SANITIZE is left for DEGRADED where a cause remains, else for SERVE. -/
theorem State.leaveSanitize_serve (he : s.xlt.eol = false) (hq : s.quiesce.queue = []) :
    s.leaveSanitize = s.setMode (if s.rd Fd.TOP_MODE_DGCAUSE ≠ 0 then mDegraded else mServe) false := by
  have eol (m : Nat) : (s.setMode m false).xlt.eol = false := by rw [State.setMode_xlt, he]
  have queue (m : Nat) : (s.setMode m false).quiesce.queue = [] := by rw [State.setMode_quiesce, hq]
  unfold State.leaveSanitize
  dsimp only
  rw [eol, if_neg Bool.false_ne_true, State.resumeQueue_none (queue _)]

theorem State.leaveSanitize_boot (hq : s.quiesce.queue = []) : s.leaveSanitize.boot = s.boot := by
  have left (m : Nat) : ((if (s.setMode m false).xlt.eol then (s.setMode m false).enterReadonly 2 else s.setMode m false).resumeQueue).boot = s.boot := by
    split
    · rw [State.resumeQueue_none (by rw [State.enterReadonly_quiesce, State.setMode_quiesce, hq]), State.enterReadonly_boot, State.setMode_boot]
    · rw [State.resumeQueue_none (by rw [State.setMode_quiesce, hq]), State.setMode_boot]
  exact left _

end Erase

/-! ### Its end (R37, R370, R396) -/

section Ends

variable {s : State}

/-- The state a sanitize that succeeded is left from. -/
def State.sanitized (s : State) : State :=
  ({ s with boot := { s.boot with sanitize := 0, sanRuns := s.boot.sanRuns + 1 } }).raise 0 .sanitizeDone

/-- The state of one that failed. -/
def State.unsanitized (s : State) : State := ({ s with boot := { s.boot with sanitize := 2 } }).raise 0 .sanitizeDone

theorem State.sanitized_rest (s : State) : (∀ g, s.sanitized.rd g = s.rd g) ∧ s.sanitized.xlt = s.xlt ∧ s.sanitized.quiesce = s.quiesce ∧
    s.sanitized.boot = { s.boot with sanitize := 0, sanRuns := s.boot.sanRuns + 1 } :=
  ⟨fun g => State.rd_of_regs (State.raise_regs _ _ _) g, State.raise_xlt _ _ _, State.raise_quiesce _ _ _, State.raise_boot _ _ _⟩

theorem State.unsanitized_rest (s : State) : (∀ g, s.unsanitized.rd g = s.rd g) ∧ s.unsanitized.boot = { s.boot with sanitize := 2 } :=
  ⟨fun g => State.rd_of_regs (State.raise_regs _ _ _) g, State.raise_boot _ _ _⟩

/-- A sanitize in progress, not paused, ends. -/
theorem execSanitizeComplete_cases (hm : s.mode = mSanitize) (h1 : s.boot.sanitize = 1) (hp : s.boot.sanPaused = false)
    (hf : s.flag Fd.TOP_MODE_FLUSH = false) (hh : s.pwr.pfHold = false) :
    execSanitizeComplete false s = .next s.unsanitized ∧
    (s.boot.sanKind = 2 → s.xlt.released ≠ [] → execSanitizeComplete true s = .next s) ∧
    (s.boot.sanKind ≠ 2 ∨ s.xlt.released = [] → execSanitizeComplete true s = .next s.sanitized.leaveSanitize) := by
  have runs : (decide (s.mode ≠ mSanitize) || decide (s.boot.sanitize ≠ 1) || s.boot.sanPaused || s.flag Fd.TOP_MODE_FLUSH || s.pwr.pfHold) = false := by
    rw [hm, h1, hp, hf, hh]
    rfl
  have judged (ok : Bool) : execSanitizeComplete ok s = if !ok then .next s.unsanitized else if s.boot.sanKind = 2 && !s.xlt.released.isEmpty then .next s
      else .next s.sanitized.leaveSanitize := if_neg (ne_true_of_eq_false runs)
  refine ⟨judged false, fun hk hr => (judged true).trans ((if_neg (by decide)).trans (if_pos ?_)),
    fun h => (judged true).trans ((if_neg (by decide)).trans (if_neg ?_))⟩
  · rw [hk]
    simpa using hr
  · rcases h with h | h <;> simp [h]

end Ends

/-! ### O9 -/

/-- Settles O9: what a crypto erase does after the mode change is the data path, which keeps the mode and the start's record and brings no clutch
and no key; with no action queued nothing follows the end of a sanitize. -/
theorem sanitizeAndTrngWaits : Obligations.SanitizeAndTrngWaits := by
  unfold Obligations.SanitizeAndTrngWaits
  refine ⟨fun s src ause ht => ⟨fun hf h1 hm hs hw => ?_, fun hf => ?_, fun hf => ?_⟩, ⟨fun s hm h1 hp hfl hh => ⟨?_, ?_, ?_⟩, ?_⟩, ?_, ?_, ?_⟩
  · have begins (block : Bool) : Next (host s src .sanitize (sanitizeCmd src block ause false)) (fun t => t.mode = mSanitize ∧ t.boot.sanitize = 1 ∧
        t.boot.sanKind = (if block then 2 else 1) ∧ t.clutches = [] ∧ ∀ k, k < keySlotsForFns → (t.slot k).kind = 0) := by
      rw [host_takes s _ ht, sanitizeCmd_allowed hf (by rwa [State.entered_boot]) hm (by rwa [State.entered_sec]), if_pos hw]
      exact .intro _ (sanitizeNow_begins _ src block ause)
    exact ⟨begins false, begins true⟩
  · change Next (host s src .sanitize (sanitizeCmd src false ause false)) _
    rw [host_takes s _ ht]
    unfold sanitizeCmd
    rw [if_pos hf]
    exact .intro _ (by simp [State.completes])
  · change Next (execSanitizeOverwrite src s) _
    unfold execSanitizeOverwrite
    rw [host_takes s _ ht, if_neg (not_not.2 hf)]
    exact .intro _ ⟨by simp [State.completes], by simp⟩
  · obtain ⟨fields, boot⟩ := s.unsanitized_rest
    exact ⟨_, (execSanitizeComplete_cases hm h1 hp hfl hh).1, congrArg Boot.sanitize boot, (fields _).trans hm⟩
  · exact fun hk hr => ⟨_, (execSanitizeComplete_cases hm h1 hp hfl hh).2.1 hk hr, rfl⟩
  · intro he hq hk
    obtain ⟨fields, xlt, quiesce, boot⟩ := s.sanitized_rest
    have leaves := State.leaveSanitize_serve (s := s.sanitized) (by rw [xlt, he]) (by rw [quiesce, hq])
    refine ⟨_, (execSanitizeComplete_cases hm h1 hp hfl hh).2.2 hk, ?_⟩
    have left := (State.setMode_boot s.sanitized (if s.sanitized.rd Fd.TOP_MODE_DGCAUSE ≠ 0 then mDegraded else mServe) false).trans boot
    rw [leaves]
    refine ⟨congrArg Boot.sanitize left, congrArg Boot.sanRuns left, ?_⟩
    rw [fields]
    by_cases hd : s.rd Fd.TOP_MODE_DGCAUSE = 0
    · rw [hd, if_neg (by decide), if_pos rfl]
      exact State.setMode_mode _ false (by decide)
    · rw [if_pos hd, if_neg hd]
      exact State.setMode_mode _ false (by decide)
  · intro s src ht hf h2
    have failed : (s.entered src).boot.sanitize = 2 := by rw [State.entered_boot, h2]
    have reach : execSanitizeExitFailureMode src s = .next (if !(s.entered src).boot.sanAuse then (s.entered src).err src .sanitizeFailed
        else (({ s.entered src with boot := { (s.entered src).boot with sanitize := 0 } }).leaveSanitize).ok src) := by
      unfold execSanitizeExitFailureMode
      rw [host_takes s _ ht, if_neg (not_not.2 hf), if_neg (by rw [failed]; decide), if_neg (by rw [failed]; decide)]
    refine ⟨fun ha => ?_, fun ha hq => ?_⟩
    · refine ⟨_, reach, ?_⟩
      rw [State.entered_boot, ha]
      simp [State.completes]
    · refine ⟨_, reach, ?_⟩
      rw [if_neg (by rw [State.entered_boot, ha]; decide)]
      refine ⟨?_, by rw [State.ok_cqes]; rfl⟩
      rw [State.ok_boot, State.leaveSanitize_boot (by rw [← hq]; exact congrArg Quiesce.queue (State.entered_quiesce _ _))]
  · intro s hon hw hst hq
    have withheld : (!s.pwr.on || s.trngOk || decide (s.rd Fd.TOP_BOOT_STAGE = 0)) = false := by
      rw [hon, hw, decide_eq_false hst]
      rfl
    refine ⟨({ s with sec := { s.sec with trngWaits := [] } }).trngResume, ?_, ?_⟩
    · change execTrngRecovery s = _
      unfold execTrngRecovery
      rw [if_neg (ne_true_of_eq_false withheld), hq]
      rfl
    · exact (State.flag_wr_apart _ 1 (by decide)).trans (State.flag_setFlag_same _ true ⟨by decide, by decide⟩ rfl)
  · intro s src n r hw
    change Next (execTrngWaitTimeout s) _
    unfold execTrngWaitTimeout
    rw [hw]
    exact .intro _ ⟨by simp [State.completes, TrngOp.src], by simp [TrngOp.src], by simp [TrngOp.src]⟩
  · intro s src ht hf h1 hm hs hw
    have waits : (s.entered src).mode = mServe ∨ (s.entered src).mode = mDegraded ∨ (s.entered src).mode = mSanitize := by
      rcases hm with h | h
      · exact .inl h
      · exact .inr (.inl h)
    change Next (host s src .sanitize (sanitizeCmd src false false false)) _
    rw [host_takes s _ ht, sanitizeCmd_allowed hf (by rwa [State.entered_boot]) waits (by rwa [State.entered_sec]),
      if_neg (ne_true_of_eq_false hw)]
    exact .intro _ ⟨by simp [State.trngWait, State.keepTag], by simp [State.trngWait, State.keepTag], by simp [State.trngWait, State.keepTag]⟩

end Sys2Proof.Machine
end

section

-- Proofs are elaborated in turn: run side by side, each waiting one would hold a thread and its stack.
set_option Elab.async false

namespace Sys2Proof.Machine

open Sys2Proof

/-! ## What the front end leaves alone (R89, R91, R402, R411) -/

/-- The words of the GK and CLK blocks. -/
def clockBlock (a : Nat) : Prop := 0x100000 ≤ a ∧ a < 0x400000

/-- A step of the clocks and the power states alone: their words and the sequencer's state. -/
structure Clocked (s t : State) : Prop where
  frame : t = { s with regs := t.regs, pwr := t.pwr }
  words : s.sameWords t clockBlock

section Clocks

variable {s₀ s : State}

theorem Clocked.refl (s : State) : Clocked s s := ⟨rfl, .refl s _⟩

theorem Clocked.wr {f : Fld} {v : Nat} (h : Clocked s₀ s) (hf : 0x100000 ≤ f.reg ∧ f.reg < 0x400000 := by decide)
    (hm : f.msb < 32 := by decide) : Clocked s₀ (s.wr f v) where
  frame := by rw [s.wr_regsOnly f v, h.frame]
  words := h.words.wr hf (.inl hm)

theorem Clocked.power {p : Pwr} (h : Clocked s₀ s) : Clocked s₀ { s with pwr := p } where
  frame := by rw [h.frame]
  words := h.words.of_regs rfl

theorem Clocked.releaseHeld (h : Clocked s₀ s) : Clocked s₀ s.releaseHeld := by
  unfold State.releaseHeld
  split
  · exact h
  · split
    · exact h
    · exact h.power.wr

theorem Clocked.voltDown (h : Clocked s₀ s) : Clocked s₀ s.voltDown := by
  unfold State.voltDown
  split
  · exact h.power.wr.wr.releaseHeld
  · exact h

theorem Clocked.settleCeil (h : Clocked s₀ s) : Clocked s₀ s.settleCeil := by
  unfold State.settleCeil
  dsimp only
  split
  · exact h.wr.wr.power.wr.voltDown
  · exact h.wr.wr

theorem Clocked.hostBusy (h : Clocked s₀ s) : Clocked s₀ s.hostBusy := by
  unfold State.hostBusy
  extract_lets t
  have left : Clocked s₀ t := by
    unfold t
    split
    · exact h.wr.wr
    · exact h
  split
  · exact left
  · exact left.wr.settleCeil

end Clocks

/-- What a host command does beside answering: it joins the outstanding commands, or it reports. -/
inductive Front where
  | queue
  | report

/-- A step of the front end for a command of `src`: it answers, queues the command or draws a free value; of the functions it changes the
command's own, of the registers those of the clocks. -/
structure Fronted (k : Front) (src : Src) (s t : State) : Prop where
  frame : t = { s with cmds := t.cmds, cqes := t.cqes, fns := t.fns, regs := t.regs, pwr := t.pwr, freeIx := t.freeIx }
  drawn : k = .queue → t.freeIx = s.freeIx
  cmds : k = .report → t.cmds = s.cmds
  others : ∀ g, g ≠ src.fn → t.fn g = s.fn g
  words : s.sameWords t clockBlock

section Fronts

variable {k : Front} {src : Src} {s₀ s : State}

theorem Fronted.refl (s : State) : Fronted k src s s := ⟨rfl, fun _ => rfl, fun _ => rfl, fun _ _ => rfl, .refl s _⟩

theorem Fronted.modFn {g : Fn → Fn} (h : Fronted k src s₀ s) : Fronted k src s₀ (s.modFn src.fn g) where
  frame := by rw [State.modFn, State.setFn, h.frame]
  drawn := h.drawn
  cmds := h.cmds
  others n hn := (s.fn_modFn_other _ _ hn).trans (h.others n hn)
  words := h.words.of_regs rfl

theorem Fronted.modSq {qid : Nat} {g : Sq → Sq} (h : Fronted k src s₀ s) : Fronted k src s₀ (s.modSq src.fn qid g) := h.modFn

theorem Fronted.posted {q : List Cqe} (h : Fronted k src s₀ s) : Fronted k src s₀ { s with cqes := q } where
  frame := by rw [h.frame]
  drawn := h.drawn
  cmds := h.cmds
  others := h.others
  words := h.words.of_regs rfl

theorem Fronted.clocked {t : State} (h : Fronted k src s₀ s) (ht : Clocked s t) : Fronted k src s₀ t where
  frame := by rw [ht.frame, h.frame]
  drawn hk := by rw [ht.frame, ← h.drawn hk]
  cmds hk := by rw [ht.frame, ← h.cmds hk]
  others n hn := (show t.fn n = s.fn n by rw [ht.frame]; rfl).trans (h.others n hn)
  words := h.words.then ht.words fun _ ha => ha

theorem Fronted.done {st : Status} {dw0 dw1 : Nat} {data : Payload} (h : Fronted k src s₀ s) : Fronted k src s₀ (s.done src st dw0 dw1 data) := by
  have told : Fronted k src s₀ (s.post src.fn src.qid src.cid st dw0 dw1 data) := by
    unfold State.post
    dsimp only
    split
    · exact h.posted
    · exact h.posted.modFn
  unfold State.done
  dsimp only
  split
  · exact told
  · exact told.modSq

theorem Fronted.ok (h : Fronted k src s₀ s) : Fronted k src s₀ (s.ok src) := h.done

theorem Fronted.err {st : Status} (h : Fronted k src s₀ s) : Fronted k src s₀ (s.err src st) := h.done

theorem Fronted.deliver (h : Fronted k src s₀ s) : Fronted k src s₀ (s.deliver src.fn) :=
  (h.modFn (g := fun f => (deliverTo f.events f src.fn s.cqes).1)).posted

theorem Fronted.logRead {page : Nat} {rae : Bool} (h : Fronted k src s₀ s) : Fronted k src s₀ (s.logRead src.fn page rae) := by
  unfold State.logRead
  split
  · exact h
  · exact h.modFn.deliver

theorem Fronted.free {bound : Nat} (h : Fronted .report src s₀ s) : Fronted .report src s₀ (s.free bound).2 where
  frame := by rw [State.free, h.frame]
  drawn := nofun
  cmds := h.cmds
  others := h.others
  words := h.words.of_regs rfl

theorem Fronted.addCmd {c : Cmd} (h : Fronted .queue src s₀ s) (hc : c.fn = src.fn := by rfl) : Fronted .queue src s₀ (s.addCmd c) := by
  have joined : Fronted .queue src s₀ { s with cmds := s.cmds ++ [c] } :=
    ⟨by rw [h.frame], h.drawn, nofun, h.others, h.words.of_regs rfl⟩
  unfold State.addCmd
  rw [hc]
  exact joined.modFn

theorem Fronted.takeEntry {q : Sq} (h : Fronted k src s₀ s) : Fronted k src s₀ (s.takeEntry src q).2 :=
  (h.clocked (Clocked.refl s).hostBusy).modSq

theorem Fronted.ite {c : Prop} {d : Decidable c} {t u : State} (ht : Fronted k src s₀ t) (hu : Fronted k src s₀ u) :
    Fronted k src s₀ (if c then t else u) := by
  split
  · exact ht
  · exact hu

theorem Fronted.withNs {nsid : Nat} {g : Ns → State} (h : Fronted k src s₀ s) (hg : ∀ n, Fronted k src s₀ (g n)) :
    Fronted k src s₀ (withNs s src nsid g) := by
  unfold Machine.withNs
  split
  · exact hg _
  · exact h.err

theorem Fronted.withVendorNs {nsid : Nat} {g : Ns → State} (h : Fronted k src s₀ s) (hg : ∀ n, Fronted k src s₀ (g n)) :
    Fronted k src s₀ (withVendorNs s src nsid g) :=
  h.withNs fun n => .ite h.err (hg n)

/-- Every next state of a result is one the front end makes. -/
def Fronts (k : Front) (src : Src) (s : State) (r : Result) : Prop := ∀ t, r = .next t → Fronted k src s t

/-- Whether a host command is held, refused or taken, the front end makes the next state if the command's own work does. -/
theorem Fronts.hostTagged {cls : Class} {fence : Bool} {g : Nat → Sq → State → State}
    (hg : ∀ tag q u, Fronted k src s u → Fronted k src s (g tag q u)) : Fronts k src s (hostTagged s src cls fence g) := by
  intro t ht
  unfold Machine.hostTagged onFn at ht
  split at ht
  · split at ht
    · cases ht
    · rename_i q _
      have taken : Fronted k src s (if fence then (s.takeEntry src q).2.openWindow src q.nextPos else (s.takeEntry src q).2) :=
        .ite (Fronted.refl s).takeEntry.modSq (Fronted.refl s).takeEntry
      dsimp only at ht
      split at ht
      · cases ht
        exact (Fronted.refl s).modSq
      · cases ht
        exact taken.err
      · split at ht
        · cases ht
          exact taken.err
        · cases ht
          exact hg _ _ _ taken
  · cases ht

theorem Fronts.host {cls : Class} {g : State → State} (hg : ∀ u, Fronted k src s u → Fronted k src s (g u)) :
    Fronts k src s (host s src cls g) :=
  .hostTagged fun _ _ u hu => hg u hu

/-! ### Queued I/O -/

theorem Fronts.queueWrite {w : WriteArgs} {kind : Kind} {zslba : Bool} : Fronts .queue src s (queueWrite s src w kind zslba) := by
  refine .hostTagged fun tag q u hu => ?_
  have named {g : Ns → State} (hg : ∀ n, Fronted .queue src s (g n)) :
      Fronted .queue src s ((if kind = .orderedWrite || kind = .locAppend then withVendorNs else withNs) u src w.nsid g) := by
    split
    · exact hu.withVendorNs hg
    · exact hu.withNs hg
  refine named fun n => .ite hu.err ?_
  split
  · exact hu.err
  · exact .ite hu.err (.ite hu.err hu.addCmd)

theorem Fronts.verifiedPrecompressedWrite {v : VpwArgs} : Fronts .queue src s (execVerifiedPrecompressedWrite src v s) := by
  refine .hostTagged fun tag q u hu => hu.withVendorNs fun n => .ite hu.err (.ite hu.err ?_)
  split
  · exact hu.err
  · exact hu.addCmd

theorem Fronts.queueRead {r : ReadArgs} {kind : Kind} {data : Bytes} : Fronts .queue src s (queueRead s src r kind data) := by
  refine .hostTagged fun tag q u hu => hu.withNs fun n => ?_
  split
  · exact hu.err
  · exact hu.addCmd

theorem Fronts.readByLocator {nsid loc gen off count keyTag prinfo : Nat} :
    Fronts .queue src s (execReadByLocator src nsid loc gen off count keyTag prinfo s) := by
  refine .hostTagged fun tag q u hu => hu.withVendorNs fun n => .ite hu.err ?_
  split
  · exact hu.err
  · exact hu.addCmd

theorem Fronts.digestRange {nsid slba count alg keyTag : Nat} : Fronts .queue src s (execDigestRange src nsid slba count alg keyTag s) :=
  .hostTagged fun _ _ _ hu => hu.withVendorNs fun _ => .ite hu.err (.ite hu.err hu.addCmd)

theorem Fronts.datasetManagement {nsid : Nat} {d : Bool} {l : List (Nat × Nat)} : Fronts .queue src s (execDatasetManagement src nsid d l s) :=
  .hostTagged fun _ _ _ hu => hu.withNs fun _ => .ite hu.err hu.addCmd

theorem Fronts.flush {nsid : Nat} : Fronts .queue src s (execFlush src nsid s) :=
  .hostTagged fun _ _ _ hu => .ite hu.err hu.addCmd

/-! ### Reports -/

theorem Fronts.identifyController : Fronts .report src s (execIdentifyController src s) := .host fun _ hu => hu.done

theorem Fronts.identifyNvmSetList : Fronts .report src s (execIdentifyNvmSetList src s) := .host fun _ hu => hu.done

theorem Fronts.smart {rae : Bool} : Fronts .report src s (execGetLogPageSmart src rae s) := .host fun _ hu => hu.logRead.done

theorem Fronts.lyskinHealth {rae : Bool} : Fronts .report src s (execGetLogPageLyskinHealth src rae s) :=
  .host fun _ hu => hu.logRead.done

theorem Fronts.chorusSchedule {rae : Bool} : Fronts .report src s (execGetLogPageChorusSchedule src rae s) :=
  .host fun _ hu => hu.logRead.done

theorem Fronts.predictableLatency {set : Nat} {rae : Bool} : Fronts .report src s (execGetLogPagePredictableLatency src set rae s) :=
  .host fun _ hu => .ite hu.err hu.logRead.done

theorem Fronts.getPlmWindow {set : Nat} : Fronts .report src s (execGetFeaturesPlmWindow src set s) :=
  .host fun _ hu => .ite hu.err hu.done

theorem Fronts.setPlmWindow : Fronts .report src s (execSetFeaturesPlmWindow src s) := .host fun _ hu => hu.err

theorem Fronts.setPlmConfig {set : Nat} {enable : Bool} : Fronts .report src s (execSetFeaturesPlmConfig src set enable s) :=
  .host fun _ hu => .ite hu.err hu.modFn.ok

theorem Fronts.securityProtocolList : Fronts .report src s (execSecurityProtocolList src s) := .host fun _ hu => hu.done

theorem Fronts.identifyNamespace {nsid : Nat} : Fronts .report src s (execIdentifyNamespace src nsid s) := by
  refine .host fun u hu => ?_
  split
  · exact hu.err
  · exact hu.free.done

theorem Fronts.autotomyRecord {rae : Bool} : Fronts .report src s (execGetLogPageAutotomyRecord src rae s) := by
  refine .host fun u hu => ?_
  split
  · exact hu.err
  · rename_i pf0
    rw [← not_not.1 pf0]
    exact hu.logRead.done

theorem Fronts.plmEventAggregate {rae : Bool} : Fronts .report src s (execGetLogPagePlmEventAggregate src rae s) :=
  .host fun _ hu => (Fronted.ite hu hu.modFn).logRead.done

theorem Fronts.identity {len : Nat} : Fronts .report src s (execIdentity src len s) :=
  .host fun _ hu => .ite hu.err (.ite hu.err (.ite hu.err hu.done))

end Fronts

/-- Settles O57: an entry held, refused or taken changes its queue and the clocks; what a taken command adds is its completion or its place
among the outstanding ones. -/
theorem frameOfQueuedIo : Obligations.FrameOfQueuedIo := by
  unfold Obligations.FrameOfQueuedIo
  intro s t src w v r host n a b c d e f de l i hi ht
  have front : ∀ i ∈ [Instr.write src w, .writeZeroes src w, .zoneAppend src w, .orderedWrite src w, .locatorAppend src w,
      .verifiedPrecompressedWrite src v, .read src r, .compare src r host, .verify src r, .readByLocator src n a b c d e f,
      .digestRange src n a b c d, .datasetManagement src n de l, .flush src n], Fronts .queue src s (exec i s) := by
    simp only [List.forall_mem_cons]
    exact ⟨.queueWrite, .queueWrite, .queueWrite, .queueWrite, .queueWrite, .verifiedPrecompressedWrite, .queueRead, .queueRead, .queueRead,
      .readByLocator, .digestRange, .datasetManagement, .flush, nofun⟩
  have fronted := front i hi t ht
  refine ⟨?_, fronted.others, fronted.words⟩
  have frame := fronted.frame
  rwa [fronted.drawn rfl] at frame

/-- Settles O58: a report changes its queue, the clocks, the function's own events and what a free value is drawn by. -/
theorem frameOfReports : Obligations.FrameOfReports := by
  unfold Obligations.FrameOfReports
  intro s t src n b i hi ht
  have front : ∀ i ∈ [Instr.identifyController src, .identifyNamespace src n, .identifyNvmSetList src, .getLogPageSmart src b,
      .getLogPageLyskinHealth src b, .getLogPageChorusSchedule src b, .getLogPageAutotomyRecord src b, .getLogPagePredictableLatency src n b,
      .getLogPagePlmEventAggregate src b, .getFeaturesPlmWindow src n, .setFeaturesPlmWindow src, .setFeaturesPlmConfig src n b,
      .securityProtocolList src, .identity src n], Fronts .report src s (exec i s) := by
    simp only [List.forall_mem_cons]
    exact ⟨.identifyController, .identifyNamespace, .identifyNvmSetList, .smart, .lyskinHealth, .chorusSchedule, .autotomyRecord,
      .predictableLatency, .plmEventAggregate, .getPlmWindow, .setPlmWindow, .setPlmConfig, .securityProtocolList, .identity, nofun⟩
  have fronted := front i hi t ht
  refine ⟨?_, fronted.others, fronted.words⟩
  have frame := fronted.frame
  rwa [fronted.cmds rfl] at frame

end Sys2Proof.Machine
end

section

-- Proofs are elaborated in turn: run side by side, each waiting one would hold a thread and its stack.
set_option Elab.async false

namespace Sys2Proof.Machine

open Sys2Proof

/-! ## Queues and the commands that join them (R91, R93, R100) -/

section Queues

variable {s u : State} {src : Src} {cls : Class}

/-- A queue read back after a change that keeps identifiers. -/
theorem Fn.sq_modSq (f : Fn) (k qid : Nat) {g : Sq → Sq} (hg : ∀ q, (g q).qid = q.qid) :
    (f.modSq k g).sq qid = (f.sq qid).map fun q => if q.qid = k then g q else q := by
  have same : ((fun q : Sq => decide (q.qid = qid)) ∘ fun q => if q.qid = k then g q else q) = fun q => decide (q.qid = qid) := by
    funext q
    by_cases h : q.qid = k <;> simp [h, hg]
  rw [Fn.sq, Fn.sq, Fn.modSq, List.find?_map, same]

theorem Fn.sq_qid {f : Fn} {qid : Nat} {q : Sq} (h : f.sq qid = some q) : q.qid = qid := by simpa using List.find?_some h

theorem Fn.sq_modSq_same (f : Fn) (qid : Nat) {g : Sq → Sq} (hg : ∀ q, (g q).qid = q.qid) : (f.modSq qid g).sq qid = (f.sq qid).map g := by
  rw [Fn.sq_modSq _ _ _ hg]
  cases h : f.sq qid with
  | none => rfl
  | some q => rw [Option.map_some, Option.map_some, if_pos (Fn.sq_qid h)]

theorem State.sq_modSq_same (s : State) (n qid : Nat) {g : Sq → Sq} (hg : ∀ q, (g q).qid = q.qid) :
    ((s.modSq n qid g).fn n).sq qid = ((s.fn n).sq qid).map g := by
  rw [State.modSq, State.fn_modFn_same, Fn.sq_modSq_same _ _ hg]

/-- The queue of a command stays when its entry is taken. -/
theorem State.entered_sq (h : s.takes src cls = true) : (((s.entered src).fn src.fn).sq src.qid).isSome = true := by
  obtain ⟨_, q, hq, _⟩ := s.takes_spec h
  rw [State.entered, hq]
  dsimp only [State.takeEntry]
  rw [State.sq_modSq_same, State.hostBusy_fn, hq]
  · rfl
  · exact fun _ => rfl

@[simp] theorem State.addCmd_cqes (s : State) (c : Cmd) : (s.addCmd c).cqes = s.cqes := rfl
@[simp] theorem State.addCmd_cmds (s : State) (c : Cmd) : (s.addCmd c).cmds = s.cmds ++ [c] := rfl

theorem State.addCmd_sqs (s : State) (c : Cmd) (f : Nat) : ((s.addCmd c).fn f).sqs = (s.fn f).sqs := by
  by_cases h : f = c.fn
  · rw [h, State.addCmd, State.fn_modFn_same]
    rfl
  · rw [State.addCmd, State.fn_modFn_other _ _ _ h]
    rfl

theorem State.entryPos_takes (h : s.takes src cls = true) : s.entryPos src = (s.entryQueue src).nextPos := by
  obtain ⟨_, q, hq, _⟩ := s.takes_spec h
  exact s.entryPos_eq src (by rw [hq]; rfl)

/-- A command with its entry's tag and position and its operands is queued, whatever else it carries. -/
theorem State.queues_addCmd (h : s.takes src cls = true) {c : Cmd} {kind : Kind} {nsid slba nlb : Nat}
    (hq : u.cqes = s.cqes := by simp) (hm : u.cmds = s.cmds := by simp)
    (hc : c = { c with tag := s.entryTag src, pos := (s.entryQueue src).nextPos, fn := src.fn, qid := src.qid, cid := src.cid, kind := kind,
                       nsid := nsid, slba := slba, nlb := nlb, started := false, admitted := false } := by rfl) :
    (u.addCmd c).queues s src kind nsid slba nlb := by
  refine ⟨hq, c, by rw [State.addCmd_cmds, hm], ?_⟩
  rw [State.entryPos_takes h]
  exact ⟨congrArg Cmd.tag hc, congrArg Cmd.pos hc, congrArg Cmd.fn hc, congrArg Cmd.qid hc, congrArg Cmd.cid hc, congrArg Cmd.kind hc,
    congrArg Cmd.nsid hc, congrArg Cmd.slba hc, congrArg Cmd.nlb hc, congrArg Cmd.started hc, congrArg Cmd.admitted hc⟩

theorem State.mem_addCmd (c : Cmd) : c ∈ (u.addCmd c).cmds := List.mem_append_right _ List.mem_cons_self

/-- The window that an Ordered Write opens stands behind it. -/
theorem State.openWindow_winFrom (h : ((s.fn src.fn).sq src.qid).isSome = true) (pos : Nat) :
    ∃ q, ((s.openWindow src pos).fn src.fn).sq src.qid = some q ∧ q.winFrom = pos + 1 := by
  obtain ⟨q, hq⟩ := Option.isSome_iff_exists.1 h
  refine ⟨{ q with winFrom := pos + 1 }, ?_, rfl⟩
  rw [State.openWindow, State.sq_modSq_same, hq]
  · rfl
  · exact fun _ => rfl

/-- A vendor command whose MPTR fits its namespace. -/
theorem withVendorNs_fits {nsid : Nat} {n : Ns} {k : Ns → State} (h : s.nsFor src.fn nsid = some n) (hm : mptrFits src n) :
    withVendorNs s src nsid k = k n := by
  have fits : ¬ (decide (src.mptr ≠ 0) && (decide (n.fmt = 0) || n.extended)) = true := by
    rcases hm with h0 | ⟨hf, he⟩
    · simp [h0]
    · simp [hf, he]
  rw [withVendorNs, withNs_some _ _ h, if_neg fits]

/-- A command that opens no window runs on its entry. -/
theorem hostTagged_entered (k : Nat → Sq → State → State) (h : s.takes src cls = true) :
    hostTagged s src cls false k = .next (k (s.entryTag src) (s.entryQueue src) (s.entered src)) := hostTagged_takes s k h

end Queues

/-! ## Write-class commands (R58, R79, R96, R100) -/

section Writes

variable {s : State} {src : Src} {n : Ns}

/-- A write-class command whose checks pass is queued as its kind; an Ordered Write opens the next window. -/
theorem queueWrite_queues {w : WriteArgs} {kind : Kind} {zslba : Bool} (ht : s.takes src .ioWrite = true)
    (hn : (s.entered src).nsFor src.fn w.nsid = some n) (hb : (s.entered src).writeBad n src.fn w = none) (hm : mptrFits src n)
    (hz : zslba = true → n.zoned = true ∧ w.slba % zoneBlocks = 0) (hl : kind = .locAppend → w.nlb ≤ n.clutch) :
    Next (queueWrite s src w kind zslba) (fun t => t.queues s src kind w.nsid w.slba w.nlb ∧
      (kind = .orderedWrite → ∃ q, (t.fn src.fn).sq src.qid = some q ∧ q.winFrom = s.entryPos src + 1)) := by
  have wrongNs : ¬ (zslba && !n.zoned) = true := by
    rintro both
    obtain ⟨named, conv⟩ := Bool.and_eq_true_iff.1 both
    simp [(hz named).1] at conv
  have offZone : ¬ (zslba && decide (w.slba % zoneBlocks ≠ 0)) = true := by
    rintro both
    obtain ⟨named, off⟩ := Bool.and_eq_true_iff.1 both
    simp [(hz named).2] at off
  have tooLong : ¬ (decide (kind = .locAppend) && decide (n.clutch < w.nlb)) = true := by simpa using hl
  have named {u : State} (hu : u.nsFor src.fn w.nsid = some n) (g : Ns → State) :
      (if kind = .orderedWrite || kind = .locAppend then withVendorNs else withNs) u src w.nsid g = g n := by
    split
    · exact withVendorNs_fits hu hm
    · exact withNs_some _ _ hu
  unfold queueWrite
  rw [hostTagged_takes s _ ht]
  by_cases hk : kind = .orderedWrite
  · rw [if_pos (decide_eq_true hk), named (u := (s.entered src).openWindow src (s.entryQueue src).nextPos) hn, if_neg wrongNs,
      show ((s.entered src).openWindow src (s.entryQueue src).nextPos).writeBad n src.fn w = none from hb]
    dsimp only
    rw [if_neg offZone, if_neg tooLong]
    refine .intro _ ⟨State.queues_addCmd ht, fun _ => ?_⟩
    rw [Fn.sq, State.addCmd_sqs, State.entryPos_takes ht]
    exact State.openWindow_winFrom (State.entered_sq ht) _
  · rw [if_neg (c := decide (kind = .orderedWrite) = true) (by simpa using hk), named hn, if_neg wrongNs, hb]
    dsimp only
    rw [if_neg offZone, if_neg tooLong]
    exact .intro _ ⟨State.queues_addCmd ht, fun h => absurd h hk⟩

/-! ### Verified Precompressed Write (R81, R118) -/

section Precompressed

variable {v : VpwArgs} (ht : s.takes src .ioWrite = true) (hn : (s.entered src).nsFor src.fn v.nsid = some n)
  (hh : hintBad v.dtype v.dspec = false) (ha : v.zslba % zoneBlocks = 0) (hr : v.zslba < n.nsze)
  (hk : (s.entered src).keyTagBad n src.fn v.keyTag = false) (hm : mptrFits src n)

include ht hn hh ha hr hk hm

/-- A failed check completes with its status. -/
theorem execVerifiedPrecompressedWrite_refused {st : Status} (hb : vpwBad n v = some st) :
    Next (execVerifiedPrecompressedWrite src v s) (fun t => t.completes s src st 0 0 .none) := by
  unfold execVerifiedPrecompressedWrite
  rw [hostTagged_entered _ ht, withVendorNs_fits hn hm, if_neg (by simp [hh, ha, hk]), if_neg (by simp [hr]), hb]
  exact .intro _ (by simp [State.completes])

/-- With all of them passed the command is queued with the body's first SLEN bytes. -/
theorem execVerifiedPrecompressedWrite_queues (hb : vpwBad n v = none) :
    Next (execVerifiedPrecompressedWrite src v s) (fun t => t.queues s src .vpw v.nsid v.zslba v.llen ∧
      ∃ c ∈ t.cmds, c.tag = s.entryTag src ∧ c.data = v.body.take v.slen ∧ c.slen = v.slen ∧ c.fmt = v.fmt) := by
  unfold execVerifiedPrecompressedWrite
  rw [hostTagged_entered _ ht, withVendorNs_fits hn hm, if_neg (by simp [hh, ha, hk]), if_neg (by simp [hr]), hb]
  exact .intro _ ⟨State.queues_addCmd ht, _, State.mem_addCmd _, rfl, rfl, rfl, rfl⟩

end Precompressed

/-- The lengths or the format lie outside their ranges. -/
theorem vpwBad_range {v : VpwArgs} (hz : n.zoned = true)
    (h : v.llen = 0 ∨ n.clutch < v.llen ∨ v.slen = 0 ∨ n.clutch * 4096 < v.slen ∨ 1 < v.fmt) :
    vpwBad n v = some .invalidField := by
  unfold vpwBad
  rw [if_neg (by simp [hz]), if_pos (by simpa [or_assoc] using h)]

/-- With lengths and format in range, the other checks decide in their order. -/
theorem vpwBad_inRange {v : VpwArgs} (hz : n.zoned = true) (h0 : 0 < v.llen) (h1 : v.llen ≤ n.clutch) (h2 : 0 < v.slen)
    (h3 : v.slen ≤ n.clutch * 4096) (h4 : v.fmt ≤ 1) :
    vpwBad n v = if v.fmt = 1 ∧ v.slen ≠ v.llen * 4096 then some .lengthMismatch
      else if v.listed < v.slen then some .dataSglLengthInvalid else none := by
  unfold vpwBad
  rw [if_neg (by simp [hz]), if_neg (by simp; omega)]
  simp

end Writes

/-- Settles O1: a write-class command is queued once its checks pass; of a precompressed write's checks the first that fails decides. -/
theorem writeCommandsAreQueued : Obligations.WriteCommandsAreQueued := by
  unfold Obligations.WriteCommandsAreQueued
  refine ⟨fun s src w n ht hn hb hm => ?_, fun s src v n ht hn hz hh ha hr hk hm => ⟨fun bad => ?_, fun h0 h1 h2 h3 h4 => ?_⟩⟩
  · have queued {kind : Kind} (hl : kind ≠ .locAppend) : Next (queueWrite s src w kind false) (fun t => t.queues s src kind w.nsid w.slba w.nlb ∧
        (kind = .orderedWrite → ∃ q, (t.fn src.fn).sq src.qid = some q ∧ q.winFrom = s.entryPos src + 1)) :=
      queueWrite_queues ht hn hb hm nofun fun h => absurd h hl
    obtain ⟨t, reach, queues, -⟩ := queued (kind := .write) (by decide)
    obtain ⟨t', reach', queues', -⟩ := queued (kind := .writeZeroes) (by decide)
    obtain ⟨o, reachO, queuesO, opens⟩ := queued (kind := .orderedWrite) (by decide)
    refine ⟨⟨t, reach, queues⟩, ⟨t', reach', queues'⟩, ⟨o, reachO, queuesO, opens rfl⟩, fun hz ha => ⟨?_, fun hl => ?_⟩⟩
    · obtain ⟨a, reachA, queuesA, -⟩ := queueWrite_queues (kind := .append) (zslba := true) ht hn hb hm (fun _ => ⟨hz, ha⟩) nofun
      exact ⟨a, reachA, queuesA⟩
    · obtain ⟨a, reachA, queuesA, -⟩ := queueWrite_queues (kind := .locAppend) (zslba := true) ht hn hb hm (fun _ => ⟨hz, ha⟩) fun _ => hl
      exact ⟨a, reachA, queuesA⟩
  · exact execVerifiedPrecompressedWrite_refused ht hn hh ha hr hk hm (vpwBad_range hz bad)
  · have decided := vpwBad_inRange hz h0 h1 h2 h3 h4
    split
    · rename_i longer
      rw [if_pos longer] at decided
      exact execVerifiedPrecompressedWrite_refused ht hn hh ha hr hk hm decided
    · rename_i exactLength
      rw [if_neg exactLength] at decided
      split
      · rename_i short
        rw [if_pos short] at decided
        exact execVerifiedPrecompressedWrite_refused ht hn hh ha hr hk hm decided
      · rename_i listed
        rw [if_neg listed] at decided
        exact execVerifiedPrecompressedWrite_queues ht hn hh ha hr hk hm decided

end Sys2Proof.Machine
end

section

-- Proofs are elaborated in turn: run side by side, each waiting one would hold a thread and its stack.
set_option Elab.async false

namespace Sys2Proof.Machine

open Sys2Proof

/-! ## Reads and the other I/O commands (R80, R99, R103, R124, R310) -/

section Reads

variable {s : State} {src : Src} {n : Ns} {nsid : Nat}

/-- A command of the read class whose checks pass is queued with its payload. -/
theorem queueRead_queues {r : ReadArgs} {kind : Kind} {data : Bytes} (ht : s.takes src .ioRead = true)
    (hn : (s.entered src).nsFor src.fn r.nsid = some n) (hb : (s.entered src).readBad n src.fn r.slba r.nlb r.keyTag = none) :
    Next (queueRead s src r kind data) (fun t => t.queues s src kind r.nsid r.slba r.nlb ∧
      ∃ c ∈ t.cmds, c.tag = s.entryTag src ∧ c.data = data) := by
  unfold queueRead
  rw [hostTagged_entered _ ht, withNs_some _ _ hn, hb]
  exact .intro _ ⟨State.queues_addCmd ht, _, State.mem_addCmd _, rfl, rfl⟩

/-- What the locator's own checks answer, once the entry's have passed. -/
theorem execReadByLocator_checked {loc gen off count keyTag prinfo : Nat} (ht : s.takes src .ioRead = true)
    (hn : (s.entered src).nsFor src.fn nsid = some n) (hm : mptrFits src n) (hp : prinfo.testBit 1 = false)
    (hk : (s.entered src).keyTagBad n src.fn keyTag = false) :
    (∀ st, (s.entered src).locBad n loc gen = some st →
      Next (execReadByLocator src nsid loc gen off count keyTag prinfo s) (fun t => t.completes s src st 0 0 .none)) ∧
    ((s.entered src).locBad n loc gen = none → Next (execReadByLocator src nsid loc gen off count keyTag prinfo s)
      (fun t => t.queues s src .readLoc nsid (locZone loc * zoneBlocks) count)) := by
  unfold execReadByLocator
  rw [hostTagged_entered _ ht, withVendorNs_fits hn hm, if_neg (by simp [hp, hk])]
  refine ⟨fun st bad => ?_, fun good => ?_⟩
  · rw [bad]
    exact .intro _ (by simp [State.completes])
  · rw [good]
    exact .intro _ (State.queues_addCmd ht)

theorem State.locBad_stale {loc gen : Nat} (hz : n.zoned = true) (hl : locZone loc < n.zones) (hg : (s.zone n (locZone loc)).gen ≠ gen) :
    s.locBad n loc gen = some .locatorStale := by
  unfold State.locBad
  rw [if_neg (by simp [hz]), if_neg (by omega), if_pos hg]

theorem execDigestRange_queues {slba count alg keyTag : Nat} (ht : s.takes src .ioRead = true)
    (hn : (s.entered src).nsFor src.fn nsid = some n) (hm : mptrFits src n) (ha : alg ≤ 1) (h0 : 0 < count) (h1 : count ≤ 2 ^ 24)
    (hr : slba + count ≤ n.nsze) (hk : (s.entered src).keyTagBad n src.fn keyTag = false) :
    Next (execDigestRange src nsid slba count alg keyTag s) (fun t => t.queues s src .digest nsid slba count) := by
  unfold execDigestRange
  rw [hostTagged_entered _ ht, withVendorNs_fits hn hm, if_neg (by simp [hk]; omega), if_neg (by omega)]
  exact .intro _ (State.queues_addCmd ht)

end Reads

section Others

variable {s : State} {src : Src} {n : Ns} {nsid : Nat}

theorem execDatasetManagement_queues {d : Bool} {ranges : List (Nat × Nat)} (ht : s.takes src (if d then .ioWrite else .ioOther) = true)
    (hn : (s.entered src).nsFor src.fn nsid = some n) (hr : ∀ r ∈ ranges, r.1 + r.2 ≤ n.nsze) :
    Next (execDatasetManagement src nsid d ranges s)
      (fun t => t.queues s src (if d && !n.zoned then .deallocate else .dsmNone) nsid 0 0) := by
  have inside : ¬ (ranges.any fun r => decide (n.nsze < r.1 + r.2)) = true := by simpa using fun a b h => hr (a, b) h
  unfold execDatasetManagement
  rw [hostTagged_entered _ ht, withNs_some _ _ hn, if_neg inside]
  exact .intro _ (State.queues_addCmd ht)

theorem execFlush_queues (ht : s.takes src .ioOther = true)
    (hn : nsid = 0xFFFFFFFF ∨ ((s.entered src).nsFor src.fn nsid).isSome = true) :
    Next (execFlush src nsid s) (fun t => t.queues s src .flush nsid 0 0 ∧
      ∃ c ∈ t.cmds, c.tag = s.entryTag src ∧ ∀ x ∈ s.clutches, x.fn = src.fn → x.place = .buffer →
        (nsid = 0xFFFFFFFF ∨ x.nsid = nsid) → x.id ∈ c.targets) := by
  have known : ¬ (decide (nsid ≠ 0xFFFFFFFF) && ((s.entered src).nsFor src.fn nsid).isNone) = true := by
    rcases hn with rfl | named
    · simp
    · simp [Option.isNone_eq_false_iff.2 named]
  unfold execFlush
  rw [hostTagged_entered _ ht, if_neg known]
  refine .intro _ ⟨State.queues_addCmd ht, _, State.mem_addCmd _, rfl, fun x hx hf hp hns => ?_⟩
  exact List.mem_map.2 ⟨x, List.mem_filter.2 ⟨by simpa using hx, by simp [hf, hp, hns]⟩, rfl⟩

/-- Tags drawn one after another number as many as the draws. -/
theorem length_foldl_append {α β : Type} (g : List β → β) (l : List α) (acc : List β) :
    (l.foldl (fun acc _ => acc ++ [g acc]) acc).length = acc.length + l.length := by
  induction l generalizing acc with
  | nil => rfl
  | cons a l ih =>
    rw [List.foldl_cons, ih, List.length_append]
    simp only [List.length_cons, List.length_nil]
    omega

/-- A Reconstruct whose checks pass is queued, and each source gets a peer read of its own. -/
theorem execReconstruct_queues {zslba nlb dtype dspec keyTag : Nat} {sources : List PeerReq} (ht : s.takes src .ioWrite = true)
    (hn : (s.entered src).nsFor src.fn nsid = some n) (hz : n.zoned = true) (h0 : 0 < nlb) (h1 : nlb ≤ n.clutch)
    (hs0 : 0 < sources.length) (hs1 : sources.length ≤ 32) (hs : ∀ r ∈ sources, sourceBad r = false) (ha : zslba % zoneBlocks = 0)
    (hr : zslba < n.nsze) (hh : hintBad dtype dspec = false) (hk : (s.entered src).keyTagBad n src.fn keyTag = false)
    (ho : (s.entered src).outputKeyBad n src.fn keyTag = none) (hm : mptrFits src n) (hj : (s.entered src).member = true)
    (hp : (s.entered src).rd (Fd.VFM_FN_PEERTAG_VALUE src.fn) ≠ 0) :
    Next (execReconstruct src nsid zslba nlb dtype dspec keyTag (32 * sources.length) sources s)
      (fun t => t.queues s src .reconstruct nsid zslba nlb ∧ t.dzl.outs.length = s.dzl.outs.length + sources.length) := by
  have listed : ¬ (decide (nlb = 0) || decide (n.clutch < nlb) || sources.isEmpty || decide (32 < sources.length) ||
      decide (32 * sources.length ≠ 32 * sources.length) || sources.any sourceBad || decide (zslba % zoneBlocks ≠ 0) ||
      hintBad dtype dspec) = true := by
    have some : sources.isEmpty = false := by
      rw [List.isEmpty_eq_false_iff]
      exact List.ne_nil_of_length_pos hs0
    have good : sources.any sourceBad = false := by simpa using hs
    simp [some, good, ha, hh]
    omega
  unfold execReconstruct
  rw [hostTagged_entered _ ht, withVendorNs_fits hn hm, if_neg (by simp [hz]), if_neg listed, if_neg (by omega),
    if_neg (by simp [hk]), ho]
  dsimp only
  rw [if_neg (by simp [hj]), if_neg (by simp [hp])]
  refine .intro _ ⟨State.queues_addCmd ht, ?_⟩
  simp [State.addCmd, length_foldl_append]

end Others

/-- Settles O2: each command of the read class, Dataset Management, Flush and Reconstruct is queued once its checks pass. -/
theorem readsAndOtherIoAreQueued : Obligations.ReadsAndOtherIoAreQueued := by
  unfold Obligations.ReadsAndOtherIoAreQueued
  refine ⟨fun s src n nsid ht hn hm => ⟨fun r host hr hb => ?_,
      fun loc gen off count keyTag prinfo hp hk hz hl => ⟨fun stale => ?_, fun good => ?_⟩,
    fun slba count alg keyTag ha h0 h1 hr hk => execDigestRange_queues ht hn hm ha h0 h1 hr hk⟩, fun s src nsid n d ranges ht hn hr => ?_,
    fun s src nsid ht hn => execFlush_queues ht hn,
    fun s src nsid zslba nlb dtype dspec keyTag n sources ht hn hz h0 h1 hs0 hs1 hs ha hr hh hk ho hm hj hp =>
      execReconstruct_queues ht hn hz h0 h1 hs0 hs1 hs ha hr hh hk ho hm hj hp⟩
  · subst hr
    obtain ⟨t, reach, queues, -⟩ := queueRead_queues (kind := .read) (data := []) ht hn hb
    obtain ⟨t', reach', queues', -⟩ := queueRead_queues (kind := .verify) (data := []) ht hn hb
    exact ⟨⟨t, reach, queues⟩, ⟨t', reach', queues'⟩, queueRead_queues (kind := .compare) ht hn hb⟩
  · exact (execReadByLocator_checked ht hn hm hp hk).1 _ (State.locBad_stale hz hl stale)
  · exact (execReadByLocator_checked ht hn hm hp hk).2 good
  · obtain ⟨t, reach, queues⟩ := execDatasetManagement_queues ht hn hr
    refine ⟨t, reach, ?_⟩
    simpa using queues

end Sys2Proof.Machine
end

section

-- Proofs are elaborated in turn: run side by side, each waiting one would hold a thread and its stack.
set_option Elab.async false

namespace Sys2Proof.Machine

open Sys2Proof

/-! ## A function's record (R90, R530) -/

section Functions

variable {s t : State} {src : Src}

theorem State.fn_of_fns (h : t.fns = s.fns) (f : Nat) : t.fn f = s.fn f := by rw [State.fn, State.fn, h]

/-- Taking an entry changes nothing of a function but its queues. -/
theorem State.entered_fn (f : Nat) : ∃ l, (s.entered src).fn f = { s.fn f with sqs := l } := by
  unfold State.entered
  split
  · exact ⟨_, rfl⟩
  · rename_i q _
    dsimp only [State.takeEntry]
    by_cases h : f = src.fn
    · subst h
      rw [State.modSq, State.fn_modFn_same, State.hostBusy_fn]
      exact ⟨_, rfl⟩
    · rw [State.modSq, State.fn_modFn_other _ _ _ h, State.hostBusy_fn]
      exact ⟨_, rfl⟩

/-- Reporting a function's events touches its requests, its events and what it has masked. -/
theorem deliverTo_fn (l : List Aen) (f : Fn) (n : Nat) (q : List Cqe) :
    ∃ a e m, (deliverTo l f n q).1 = { f with aers := a, events := e, masked := m } := by
  fun_induction deliverTo l f n q with
  | case1 | case2 => exact ⟨_, _, _, rfl⟩
  | case3 _ _ _ _ _ _ _ _ _ ih => exact ih
  | case4 _ _ _ _ _ _ _ _ _ ih => exact ih

theorem State.deliver_fn_same (s : State) (n : Nat) : ∃ a e m, (s.deliver n).fn n = { s.fn n with aers := a, events := e, masked := m } := by
  obtain ⟨a, e, m, h⟩ := deliverTo_fn (s.fn n).events (s.fn n) n s.cqes
  exact ⟨a, e, m, (s.fn_setFn_same n _).trans h⟩

theorem State.deliver_fn_other (s : State) {n f : Nat} (h : f ≠ n) : (s.deliver n).fn f = s.fn f := s.fn_setFn_other n _ h

theorem State.raise_tmtOver (s : State) (n : Nat) (a : Aen) (f : Nat) : ((s.raise n a).fn f).tmtOver = (s.fn f).tmtOver := by
  by_cases h : f = n
  · subst h
    obtain ⟨_, _, _, delivered⟩ := (s.modFn f fun g =>
      if g.events.any (·.page = a.page) then g else { g with events := g.events ++ [a] }).deliver_fn_same f
    rw [State.raise, delivered, State.fn_modFn_same]
    split <;> rfl
  · rw [State.raise, State.deliver_fn_other _ h, State.fn_modFn_other _ _ _ h]

theorem State.refreshCrit_tmtOver (s : State) (f : Nat) : (s.refreshCrit.fn f).tmtOver = (s.fn f).tmtOver := by
  unfold State.refreshCrit
  extract_lets old new t crit u fresh
  have noted : (u.fn f).tmtOver = (s.fn f).tmtOver := congrArg Fn.tmtOver (State.fn_of_fns (s.wr_fns _ _) f)
  split
  · rfl
  · split
    · exact noted
    · refine (foldl_same (fun t => (t.fn f).tmtOver) _ (fun t e => ?_) _ u).trans noted
      split
      · exact t.raise_tmtOver _ _ _
      · rfl

end Functions

/-! ## Abort, queues and features (R89, R90, R105, R473, R530) -/

section AbortAndQueues

variable {s : State} {src : Src}

/-- A command found that has not started is the first found that has not. -/
theorem find?_unstarted {l : List Cmd} {p : Cmd → Bool} {c : Cmd} (h : l.find? p = some c) (hc : c.started = false) :
    l.find? (fun c => p c && !c.started) = some c := by
  obtain ⟨hp, as, bs, rfl, before⟩ := List.find?_eq_some_iff_append.1 h
  refine List.find?_eq_some_iff_append.2 ⟨by simp [hp, hc], as, bs, rfl, fun a ha => ?_⟩
  simp only [Bool.not_eq_true'] at before ⊢
  rw [before a ha, Bool.false_and]

theorem execAbort_queued {sqid target : Nat} {c : Cmd} (ht : s.takes src .admin = true)
    (hf : s.cmds.find? (fun c => c.fn = src.fn && c.qid = sqid && c.cid = target) = some c) (hs : c.started = false) (hk : c.kind ≠ .peer) :
    Next (execAbort src sqid target s) (fun t => t.cqes.head? = some (cqeOf src .success 0 0 .none) ∧
      (∃ e ∈ t.cqes, e.fn = c.fn ∧ e.qid = sqid ∧ e.cid = target ∧ e.status = .abortRequested) ∧ ∀ d ∈ t.cmds, d.tag ≠ c.tag) := by
  have named := List.find?_some hf
  simp only [Bool.and_eq_true, decide_eq_true_eq] at named
  obtain ⟨⟨-, rfl⟩, rfl⟩ := named
  unfold execAbort
  rw [host_takes s _ ht, State.entered_cmds, find?_unstarted hf hs]
  dsimp only
  obtain ⟨e, posted, he⟩ := (s.entered src).finish_posts hk .abortRequested 0 0 .none
  refine .intro _ ⟨by simp, ⟨e, by simp [posted], he⟩, fun d hd => ?_⟩
  rw [State.done_cmds, State.finish_cmds] at hd
  simpa using (List.mem_filter.1 hd).2

theorem execAbort_started {sqid target : Nat} (ht : s.takes src .admin = true)
    (hs : ∀ c ∈ s.cmds, c.fn = src.fn → c.qid = sqid → c.cid = target → c.started = true) :
    Next (execAbort src sqid target s) (fun t => t.completes s src .success 1 0 .none ∧ t.cmds = s.cmds) := by
  have missing : s.cmds.find? (fun c => c.fn = src.fn && c.qid = sqid && c.cid = target && !c.started) = none := by
    refine List.find?_eq_none.2 fun c hc named => ?_
    simp only [Bool.and_eq_true, decide_eq_true_eq, Bool.not_eq_true'] at named
    obtain ⟨⟨⟨hf, hq⟩, hi⟩, queued⟩ := named
    exact absurd (hs c hc hf hq hi) (by simp [queued])
  unfold execAbort
  rw [host_takes s _ ht, State.entered_cmds, missing]
  exact .intro _ (by simp [State.completes])

/-! ### Queues -/

theorem execCreateIoCompletionQueue_size {qid size : Nat} (ht : s.takes src .admin = true) (hq : (s.entered src).qidBad src.fn qid = false)
    (hn : ((s.entered src).fn src.fn).cqs.any (·.1 = qid) = false) :
    (0 < size → size ≤ 65536 → Next (execCreateIoCompletionQueue src qid size s) (fun t =>
        t.completes s src .success 0 0 .none ∧ (qid, size) ∈ (t.fn src.fn).cqs)) ∧
      (65536 < size → Next (execCreateIoCompletionQueue src qid size s) (fun t => t.completes s src .invalidQueueSize 0 0 .none)) := by
  unfold execCreateIoCompletionQueue
  rw [host_takes s _ ht, if_neg (by simp only [hq, hn]; decide)]
  refine ⟨fun h0 h1 => ?_, fun h => ?_⟩
  · rw [if_neg (by simp; omega)]
    refine .intro _ ⟨by simp [State.completes], ?_⟩
    rw [State.fn_of_fns (State.ok_fns _ _), State.fn_modFn_same]
    exact List.mem_append_right _ List.mem_cons_self
  · rw [if_pos (by simp [h])]
    exact .intro _ (by simp [State.completes])

theorem le_maxNat {l : List Nat} {x : Nat} (h : x ∈ l) : x ≤ maxNat l := by
  rw [maxNat, List.foldl_max]
  exact (List.le_max?_getD_of_mem h).trans (Nat.le_max_right _ _)

theorem State.pos_lt_nextLife {c : Cmd} (h : c ∈ s.cmds) {fn qid : Nat} (hf : c.fn = fn) (hq : c.qid = qid) : c.pos < s.nextLife fn qid :=
  le_maxNat (List.mem_map.2 ⟨c, List.mem_filter.2 ⟨h, by simp [hf, hq]⟩, rfl⟩)

theorem Fn.sq_append (f : Fn) {q : Sq} (h : f.sq q.qid = none) : ({ f with sqs := f.sqs ++ [q] } : Fn).sq q.qid = some q := by
  rw [Fn.sq] at h
  simp [Fn.sq, List.find?_append, h]

theorem execCreateIoSubmissionQueue_size {qid size cqid prio : Nat} (ht : s.takes src .admin = true)
    (hq : (s.entered src).qidBad src.fn qid = false) (hn : ((s.entered src).fn src.fn).sq qid = none) :
    (0 < size → size ≤ 65536 → ((s.entered src).fn src.fn).cqs.any (·.1 = cqid) = true →
      Next (execCreateIoSubmissionQueue src qid size cqid s prio) (fun t => t.completes s src .success 0 0 .none ∧
        ∃ p, (t.fn src.fn).sq qid = some { Sq.new qid size cqid with prio := prio % 4, start := p, nextPos := p, winFrom := p } ∧
          ∀ c ∈ t.cmds, c.fn = src.fn → c.qid = qid → c.pos < p)) ∧
      (65536 < size → Next (execCreateIoSubmissionQueue src qid size cqid s prio) (fun t => t.completes s src .invalidQueueSize 0 0 .none)) := by
  unfold execCreateIoSubmissionQueue
  rw [host_takes s _ ht, if_neg (by simp [hq, hn])]
  refine ⟨fun h0 h1 hc => ?_, fun h => ?_⟩
  · rw [if_neg (by simp; omega), if_neg (by simp only [hc]; decide)]
    refine .intro _ ⟨by simp [State.completes], _, ?_, fun c hc hf hi => State.pos_lt_nextLife (s := s.entered src) (by simpa using hc) hf hi⟩
    rw [State.fn_of_fns (State.ok_fns _ _), State.fn_modFn_same]
    exact Fn.sq_append _ hn
  · rw [if_pos (by simp [h])]
    exact .intro _ (by simp [State.completes])

theorem State.settleFlags_fns (s : State) (f : Nat) : (s.settleFlags f).fns = s.fns := s.wr_fns _ _

theorem State.settleFlags_cqes (s : State) (f : Nat) : (s.settleFlags f).cqes = s.cqes := by simp [State.settleFlags]

theorem execDeleteIoSubmissionQueue_deletes {qid : Nat} (ht : s.takes src .admin = true) (h0 : qid ≠ 0)
    (hq : (((s.entered src).fn src.fn).sq qid).isSome = true) :
    Next (execDeleteIoSubmissionQueue src qid s) (fun t => (t.fn src.fn).sq qid = none ∧
      t.cqes.head? = some (cqeOf src .success 0 0 .none)) := by
  unfold execDeleteIoSubmissionQueue
  rw [host_takes s _ ht, if_neg (by simp [h0, Option.isNone_eq_false_iff.2 hq])]
  refine .intro _ ⟨?_, by simp⟩
  rw [State.fn_of_fns (State.ok_fns _ _), State.fn_of_fns (State.settleFlags_fns _ _), State.fn_modFn_same, Fn.sq]
  exact List.find?_eq_none.2 fun q hm => by simpa using (List.mem_filter.1 hm).2

theorem execDeleteIoCompletionQueue_deletes {qid : Nat} (ht : s.takes src .admin = true) (h0 : qid ≠ 0)
    (hq : ((s.entered src).fn src.fn).cqs.any (·.1 = qid) = true) :
    if ((s.entered src).fn src.fn).sqs.any (fun q => q.qid ≠ 0 && q.cqid = qid) then
      Next (execDeleteIoCompletionQueue src qid s) (fun t => t.completes s src .invalidQueueDeletion 0 0 .none)
    else Next (execDeleteIoCompletionQueue src qid s) (fun t => t.completes s src .success 0 0 .none ∧
      ∀ e ∈ (t.fn src.fn).cqs, e.1 ≠ qid) := by
  have found : ¬ (decide (qid = 0) || !((s.entered src).fn src.fn).cqs.any (·.1 = qid)) = true := by simp [h0, hq]
  unfold execDeleteIoCompletionQueue
  rw [host_takes s _ ht, if_neg found]
  split
  · exact .intro _ (by simp [State.completes])
  · refine .intro _ ⟨by simp [State.completes, State.settleFlags_cqes], fun e he => ?_⟩
    rw [State.fn_of_fns (State.ok_fns _ _), State.fn_of_fns (State.settleFlags_fns _ _), State.fn_modFn_same] at he
    simpa using (List.mem_filter.1 he).2

/-! ### Features -/

theorem execSetFeaturesNumberOfQueues_grants {nsq ncq : Nat} (ht : s.takes src .setFeat = true)
    (h0 : 0 < min (min nsq ncq) ((s.entered src).qpLimit src.fn)) :
    Next (execSetFeaturesNumberOfQueues src nsq ncq s) (fun t => (t.fn src.fn).grant = min (min nsq ncq) ((s.entered src).qpLimit src.fn) ∧
      t.completes s src .success ((min (min nsq ncq) ((s.entered src).qpLimit src.fn) - 1) +
        (min (min nsq ncq) ((s.entered src).qpLimit src.fn) - 1) * 65536) 0 .none) := by
  unfold execSetFeaturesNumberOfQueues
  rw [host_takes s _ ht]
  dsimp only
  rw [if_neg h0.ne']
  refine .intro _ ⟨?_, by simp [State.completes]⟩
  rw [State.fn_of_fns (State.done_success_fns _ _ _ _ _), State.fn_modFn_same]

theorem execSetFeaturesAsynchronousEventConfig_keeps {mask : Nat} (ht : s.takes src .setFeat = true) :
    Next (execSetFeaturesAsynchronousEventConfig src mask s) (fun t => (t.fn src.fn).aec = mask % 2 ^ 32 ∧
      t.completes s src .success 0 0 .none) := by
  unfold execSetFeaturesAsynchronousEventConfig
  rw [host_takes s _ ht]
  refine .intro _ ⟨?_, by simp [State.completes]⟩
  rw [State.fn_of_fns (State.ok_fns _ _), State.fn_modFn_same]

theorem execSetFeaturesTemperatureThreshold_keeps {kelvin : Nat} (ht : s.takes src .setFeat = true) :
    Next (execSetFeaturesTemperatureThreshold src 0 false kelvin s) (fun t => (t.fn src.fn).tmtOver = kelvin ∧
      cqeOf src .success 0 0 .none ∈ t.cqes) := by
  unfold execSetFeaturesTemperatureThreshold
  rw [host_takes s _ ht, if_neg (by decide)]
  refine .intro _ ⟨?_, by simp⟩
  rw [State.fn_of_fns (State.ok_fns _ _), State.refreshCrit_tmtOver, State.fn_modFn_same, if_pos rfl, if_neg (by decide)]

/-- Nothing is reported where nothing waits. -/
theorem State.deliver_idle (s : State) {n : Nat} (h : (s.fn n).events = []) : (s.deliver n).fn n = s.fn n ∧ (s.deliver n).cqes = s.cqes := by
  have idle : deliverTo (s.fn n).events (s.fn n) n s.cqes = (s.fn n, s.cqes) := by rw [h]; rfl
  exact ⟨(s.fn_setFn_same n _).trans (congrArg Prod.fst idle), congrArg Prod.snd idle⟩

theorem execAsynchronousEventRequest_waits (ht : s.takes src .admin = true) (he : (s.fn src.fn).events = []) :
    Next (execAsynchronousEventRequest src s) (fun t => (t.fn src.fn).aers = (s.fn src.fn).aers ++ [src.cid] ∧ t.cqes = s.cqes) := by
  obtain ⟨l, hl⟩ := s.entered_fn (src := src) src.fn
  have kept : ((s.entered src).keepTag src).fn src.fn = { s.fn src.fn with sqs := l } := hl
  unfold execAsynchronousEventRequest
  rw [host_takes s _ ht]
  obtain ⟨fnKept, cqesKept⟩ := (((s.entered src).keepTag src).modFn src.fn fun f => { f with aers := f.aers ++ [src.cid] }).deliver_idle
    (n := src.fn) (by rw [State.fn_modFn_same, kept]; exact he)
  refine .intro _ ⟨?_, cqesKept.trans ?_⟩
  · rw [fnKept, State.fn_modFn_same, kept]
  · exact s.entered_cqes src

end AbortAndQueues

/-- Settles O5: Abort ends a queued command alone; queues are created and deleted by the rules, and features kept as given. -/
theorem abortQueuesAndFeatures : Obligations.AbortQueuesAndFeatures := by
  unfold Obligations.AbortQueuesAndFeatures
  refine ⟨fun s src sqid target ht => ⟨fun c hf hs hk => execAbort_queued ht hf hs hk, fun hs => execAbort_started ht hs⟩,
    ⟨fun s src qid size cqid ht hq => ⟨fun hn => execCreateIoCompletionQueue_size ht hq hn,
        fun hn => ⟨fun h0 h1 hc prio => ?_, fun h prio => ?_⟩⟩,
      fun s src qid ht h0 hq => execDeleteIoSubmissionQueue_deletes ht h0 hq,
      fun s src qid ht h0 hq => execDeleteIoCompletionQueue_deletes ht h0 hq⟩,
    fun s src => ⟨fun ht nsq ncq h0 => execSetFeaturesNumberOfQueues_grants ht h0, fun ht mask => execSetFeaturesAsynchronousEventConfig_keeps ht,
      fun ht kelvin => execSetFeaturesTemperatureThreshold_keeps ht, fun ht he => execAsynchronousEventRequest_waits ht he⟩⟩
  · exact (execCreateIoSubmissionQueue_size ht hq hn).1 h0 h1 hc
  · exact (execCreateIoSubmissionQueue_size (cqid := cqid) ht hq hn).2 h

end Sys2Proof.Machine
end

section

-- Proofs are elaborated in turn: run side by side, each waiting one would hold a thread and its stack.
set_option Elab.async false

namespace Sys2Proof.Machine

open Sys2Proof

/-! ## What operations leave of the host's data

The namespaces, the zones, the clutches, the generation counter and the completions: most of the translation layer leaves them all as they
are, and an operation that changes one of them is followed only for the others. -/

/-- The parts of the state that the statements on namespaces and zones speak of. -/
inductive Part where
  | nss | zones | clutches | gen | cqes
  deriving DecidableEq

/-- The part is the same in both states. -/
def Part.same (s t : State) : Part → Prop
  | .nss => t.nss = s.nss
  | .zones => t.zones = s.zones
  | .clutches => t.clutches = s.clutches
  | .gen => t.xlt.genCounter = s.xlt.genCounter
  | .cqes => t.cqes = s.cqes

/-- All of these parts are the same in both states. -/
def Leaves (k : List Part) (s t : State) : Prop := ∀ p ∈ k, p.same s t

section Leaving

variable {k : List Part} {s₀ s : State}

theorem Leaves.refl (s : State) : Leaves k s s := fun p _ => by cases p <;> rfl

theorem Leaves.trans {t : State} (h : Leaves k s₀ s) (ht : Leaves k s t) : Leaves k s₀ t := fun p hp => by
  have first := h p hp
  have second := ht p hp
  cases p <;> exact Eq.trans second first

theorem Leaves.nss_eq (h : Leaves k s₀ s) (hk : .nss ∈ k := by decide) : s.nss = s₀.nss := h _ hk
theorem Leaves.zones_eq (h : Leaves k s₀ s) (hk : .zones ∈ k := by decide) : s.zones = s₀.zones := h _ hk
theorem Leaves.clutches_eq (h : Leaves k s₀ s) (hk : .clutches ∈ k := by decide) : s.clutches = s₀.clutches := h _ hk
theorem Leaves.gen_eq (h : Leaves k s₀ s) (hk : .gen ∈ k := by decide) : s.xlt.genCounter = s₀.xlt.genCounter := h _ hk
theorem Leaves.cqes_eq (h : Leaves k s₀ s) (hk : .cqes ∈ k := by decide) : s.cqes = s₀.cqes := h _ hk

/-- A change of other fields than those asked for. -/
theorem Leaves.fields {t : State} (h : Leaves k s₀ s) (hn : .nss ∈ k → t.nss = s.nss := by exact fun _ => rfl)
    (hz : .zones ∈ k → t.zones = s.zones := by exact fun _ => rfl) (hc : .clutches ∈ k → t.clutches = s.clutches := by exact fun _ => rfl)
    (hg : .gen ∈ k → t.xlt.genCounter = s.xlt.genCounter := by exact fun _ => rfl)
    (hq : .cqes ∈ k → t.cqes = s.cqes := by exact fun _ => rfl) : Leaves k s₀ t :=
  h.trans fun p hp => match p with
    | .nss => hn hp
    | .zones => hz hp
    | .clutches => hc hp
    | .gen => hg hp
    | .cqes => hq hp

section Fields

variable {now regs latch replies fns rr kept landing cmds adminTags efts evr hlt quiesce med cho dzl sec boot pwr dram snc pins freeIx pending}

/-- A change of none of the parts. -/
theorem Leaves.other (h : Leaves k s₀ s) :
    Leaves k s₀ ⟨now, regs, latch, replies, s.cqes, fns, rr, s.nss, s.zones, s.clutches, kept, landing, cmds, adminTags, efts, s.xlt, evr, hlt,
      quiesce, med, cho, dzl, sec, boot, pwr, dram, snc, pins, freeIx, pending⟩ :=
  h.fields

variable {stripes segs blocks nextStripe nextSeg nextPlace journal nextRec unflashed ckptQuarters ckptRunning ckptMaps ckptFrom
  ckptDone ckpts safe flashed installed nc spares sparesRef spawnErased spawnBlocks released logFree logFill works copies slices wlOn unread
  marker flushCut restored eol spareGiven remaps useFrom placed}

/-- A change that also reaches the translation, the generation counter apart. -/
theorem Leaves.maps (h : Leaves k s₀ s) :
    Leaves k s₀ ⟨now, regs, latch, replies, s.cqes, fns, rr, s.nss, s.zones, s.clutches, kept, landing, cmds, adminTags, efts,
      ⟨stripes, segs, blocks, nextStripe, nextSeg, s.xlt.genCounter, nextPlace, journal, nextRec, unflashed, ckptQuarters, ckptRunning, ckptMaps,
        ckptFrom, ckptDone, ckpts, safe, flashed, installed, nc, spares, sparesRef, spawnErased, spawnBlocks, released, logFree, logFill, works,
        copies, slices, wlOn, unread, marker, flushCut, restored, eol, spareGiven, remaps, useFrom, placed⟩, evr, hlt,
      quiesce, med, cho, dzl, sec, boot, pwr, dram, snc, pins, freeIx, pending⟩ :=
  h.fields

end Fields

/-! ### Branches and folds -/

section Branches

variable {c : Prop} {d : Decidable c} {t u : State} {α : Type}

theorem Leaves.ite (ht : Leaves k s₀ t) (hu : Leaves k s₀ u) : Leaves k s₀ (if c then t else u) := by
  split
  · exact ht
  · exact hu

theorem Leaves.foldl {f : State → α → State} {l : List α} (h : Leaves k s₀ t) (hf : ∀ u x, Leaves k s₀ u → Leaves k s₀ (f u x)) :
    Leaves k s₀ (l.foldl f t) := by
  induction l generalizing t with
  | nil => exact h
  | cons x l ih => exact ih (hf _ x h)

end Branches

/-! ### Machine/Ops and Machine/Flags -/

theorem Leaves.wr {f : Fld} {v : Nat} (h : Leaves k s₀ s) : Leaves k s₀ (s.wr f v) :=
  h.fields (fun _ => by simp) (fun _ => by simp) (fun _ => by simp) (fun _ => by simp) fun _ => by simp

theorem Leaves.setFlag {f : Fld} {b : Bool} (h : Leaves k s₀ s) : Leaves k s₀ (s.setFlag f b) := h.wr

theorem Leaves.settleFlags {f : Nat} (h : Leaves k s₀ s) : Leaves k s₀ (s.settleFlags f) := h.wr

theorem Leaves.modFn {n : Nat} {g : Fn → Fn} (h : Leaves k s₀ s) : Leaves k s₀ (s.modFn n g) := h.fields

theorem Leaves.modSq {n qid : Nat} {g : Sq → Sq} (h : Leaves k s₀ s) : Leaves k s₀ (s.modSq n qid g) := h.modFn

theorem Leaves.modCmd {tag : Nat} {g : Cmd → Cmd} (h : Leaves k s₀ s) : Leaves k s₀ (s.modCmd tag g) := h.fields

theorem Leaves.dropCmd {tag : Nat} (h : Leaves k s₀ s) : Leaves k s₀ (s.dropCmd tag) := h.fields

theorem Leaves.addCmd {c : Cmd} (h : Leaves k s₀ s) : Leaves k s₀ (s.addCmd c) := h.fields

theorem Leaves.modEft {p n : Nat} {g : Eft → Eft} (h : Leaves k s₀ s) : Leaves k s₀ (s.modEft p n g) := h.fields

theorem Leaves.setOwner {p n : Nat} {o : Owner} (h : Leaves k s₀ s) : Leaves k s₀ (s.setOwner p n o) := by
  cases o with
  | device => exact h.wr
  | fn f => exact h.wr.wr

theorem Leaves.setZone {nsid z : Nat} {w : Zone} (h : Leaves k s₀ s) (hk : .zones ∉ k := by decide) : Leaves k s₀ (s.setZone nsid z w) :=
  h.fields (hz := fun m => absurd m hk)

theorem Leaves.removeClutches {q : Clutch → Bool} (h : Leaves k s₀ s) (hk : .clutches ∉ k := by decide) :
    Leaves k s₀ (s.removeClutches q) :=
  h.fields (hc := fun m => absurd m hk)

theorem Leaves.modNs {nsid : Nat} {g : Ns → Ns} (h : Leaves k s₀ s) (hk : .nss ∉ k := by decide) : Leaves k s₀ (s.modNs nsid g) :=
  h.fields (hn := fun m => absurd m hk)

/-! ### Machine/Link -/

theorem Leaves.modPort {p : Nat} {g : Port → Port} (h : Leaves k s₀ s) : Leaves k s₀ (s.modPort p g) := h.fields

theorem Leaves.sendFrame {f : Frame} (h : Leaves k s₀ s) : Leaves k s₀ (s.sendFrame f) := by
  unfold State.sendFrame
  exact .ite h.modPort h.modPort.other

theorem Leaves.sendRouted {type dest flags tag : Nat} {b : Bytes} (h : Leaves k s₀ s) :
    Leaves k s₀ (s.sendRouted type dest flags tag b).2 := by
  unfold State.sendRouted
  split
  · exact h
  · exact h.sendFrame

theorem Leaves.modOut {tag : Nat} {g : PeerOut → PeerOut} (h : Leaves k s₀ s) : Leaves k s₀ (s.modOut tag g) := h.fields

theorem Leaves.sendPread {o : PeerOut} (h : Leaves k s₀ s) : Leaves k s₀ (s.sendPread o) := by
  unfold State.sendPread
  refine .ite (.other (.modOut ?_)) h.modOut
  split
  · exact h.sendRouted
  · exact h

theorem Leaves.sendOuts {n : Nat} (h : Leaves k s₀ s) : Leaves k s₀ (State.sendOuts n s) := by
  induction n generalizing s with
  | zero => exact h
  | succ n ih =>
    unfold State.sendOuts
    split
    · exact h
    · exact .ite h (ih h.sendPread)

theorem Leaves.dropOuts {tag : Nat} (h : Leaves k s₀ s) : Leaves k s₀ (s.dropOuts tag) := h.other.sendOuts

theorem Leaves.peerAnswer {i : PeerIn} {st : Status} {b : Bytes} (h : Leaves k s₀ s) : Leaves k s₀ (s.peerAnswer i st b) := by
  unfold State.peerAnswer
  exact .ite h.other.modOut (h.other.foldl fun _ _ hu => hu.sendRouted).sendRouted.other

theorem Leaves.peerEnd {c : Cmd} {st : Status} {data : Payload} (h : Leaves k s₀ s) : Leaves k s₀ (s.peerEnd c st data) := by
  unfold State.peerEnd
  split
  · exact h
  · exact h.peerAnswer

/-! ### Machine/Events -/

theorem Leaves.post {fn qid cid : Nat} {st : Status} {dw0 dw1 : Nat} {data : Payload} (h : Leaves k s₀ s) (hk : .cqes ∉ k := by decide) :
    Leaves k s₀ (s.post fn qid cid st dw0 dw1 data) := by
  have posted : Leaves k s₀ { s with cqes := ⟨fn, qid, cid, st, dw0, dw1, data, st.dnr⟩ :: s.cqes } := h.fields (hq := fun m => absurd m hk)
  unfold State.post
  exact .ite posted posted.modFn

theorem Leaves.finish {c : Cmd} {st : Status} {dw0 dw1 : Nat} {data : Payload} (h : Leaves k s₀ s) (hk : .cqes ∉ k := by decide) :
    Leaves k s₀ (s.finish c st dw0 dw1 data) := by
  have posted : Leaves k s₀ (((if c.kind = .reconstruct then s.dropOuts c.tag else s).dropCmd c.tag).post c.fn c.qid c.cid st dw0 dw1 data) :=
    (Leaves.ite h.dropOuts h).dropCmd.post hk
  have noted : Leaves k s₀ (if st = .success then
      ((if c.kind = .reconstruct then s.dropOuts c.tag else s).dropCmd c.tag).post c.fn c.qid c.cid st dw0 dw1 data
      else (((if c.kind = .reconstruct then s.dropOuts c.tag else s).dropCmd c.tag).post c.fn c.qid c.cid st dw0 dw1 data).modSq c.fn c.qid
        fun q => if q.start ≤ c.pos then { q with failed := q.failed ++ [c.pos] } else q) := .ite posted posted.modSq
  unfold State.finish
  exact .ite h.dropCmd.peerEnd (.ite noted.modSq noted)

/-! ### Machine/Translation -/

theorem Leaves.startCheckpoint (h : Leaves k s₀ s) : Leaves k s₀ s.startCheckpoint := by
  unfold State.startCheckpoint
  exact .ite h h.fields

theorem Leaves.journal {j : JKind} {args : List Nat} (h : Leaves k s₀ s) : Leaves k s₀ (s.journal j args) := by
  unfold State.journal
  exact .ite h.maps.wr.startCheckpoint h.maps.wr

theorem Leaves.modBlock {n : Nat} {g : Block → Block} (h : Leaves k s₀ s) : Leaves k s₀ (s.modBlock n g) := h.fields

theorem Leaves.takeBlocks {choir st owner : Nat} {ms : List Member} (h : Leaves k s₀ s) : Leaves k s₀ (s.takeBlocks choir st owner ms) :=
  h.foldl fun _ _ hu => hu.modBlock

theorem Leaves.newStripe {choir cls : Nat} {high : Bool} {st nsid zone copyOf : Nat} (h : Leaves k s₀ s) :
    Leaves k s₀ (s.newStripe choir cls high st nsid zone copyOf).2 := by
  unfold State.newStripe
  exact h.takeBlocks.maps

theorem Leaves.modStripe {seq : Nat} {g : Stripe → Stripe} (h : Leaves k s₀ s) : Leaves k s₀ (s.modStripe seq g) := h.fields

theorem Leaves.modSeg {id : Nat} {g : Segment → Segment} (h : Leaves k s₀ s) : Leaves k s₀ (s.modSeg id g) := h.fields

theorem Leaves.drawReserve (h : Leaves k s₀ s) : Leaves k s₀ s.drawReserve := h.foldl fun _ _ hu => hu.maps

theorem Leaves.refreshXlt (h : Leaves k s₀ s) : Leaves k s₀ s.refreshXlt := by
  unfold State.refreshXlt
  exact .ite h (((h.drawReserve.foldl fun _ _ hu => .ite hu.wr hu).foldl fun _ _ hu => hu.wr).wr.wr.wr.wr.setFlag.wr.foldl fun _ _ hu => hu.wr)

theorem Leaves.setLevels (h : Leaves k s₀ s) : Leaves k s₀ s.setLevels := by
  unfold State.setLevels
  exact .ite h (h.foldl fun _ _ hu => hu.wr)

theorem Leaves.bindStripe {choir cls : Nat} {high : Bool} {st nsid zone : Nat} (h : Leaves k s₀ s) :
    Leaves k s₀ (s.bindStripe choir cls high st nsid zone).2 := h.journal.newStripe

theorem Leaves.releaseUnit {c unit n rec' : Nat} (h : Leaves k s₀ s) : Leaves k s₀ (s.releaseUnit c unit n rec') := h.maps.refreshXlt

theorem Leaves.refreshRebuild (h : Leaves k s₀ s) : Leaves k s₀ s.refreshRebuild := h.setFlag.wr

theorem Leaves.releaseStripe {seq : Nat} (h : Leaves k s₀ s) : Leaves k s₀ (s.releaseStripe seq) := by
  unfold State.releaseStripe
  split
  · exact h
  · exact (h.journal.modStripe.foldl fun _ _ hu => hu.modBlock).maps.refreshRebuild.releaseUnit

theorem Leaves.releaseSeg {id : Nat} (h : Leaves k s₀ s) : Leaves k s₀ (s.releaseSeg id) := by
  unfold State.releaseSeg
  split
  · exact h
  · exact (h.journal.modSeg.foldl fun _ _ hu => hu.modBlock).maps.refreshRebuild.releaseUnit

theorem Leaves.abandonCopies {seq : Nat} (h : Leaves k s₀ s) : Leaves k s₀ (s.abandonCopies seq) :=
  (h.foldl fun _ _ hu => hu.releaseStripe).maps

theorem Leaves.dropEmptySeg {seg : Nat} (h : Leaves k s₀ s) : Leaves k s₀ (s.dropEmptySeg seg) := by
  unfold State.dropEmptySeg
  split
  · exact h
  · exact .ite h h.releaseSeg

/-! ### Machine/Zones -/

theorem Leaves.fillZone {n : Ns} {z : Nat} {byCtrl : Bool} (h : Leaves k s₀ s) (hk : .zones ∉ k := by decide) :
    Leaves k s₀ (s.fillZone n z byCtrl false) := by
  unfold State.fillZone
  show Leaves k s₀ (State.settleFlags _ _)
  refine .settleFlags ?_
  split
  · exact (h.journal.setZone hk).modStripe
  · exact h.journal.setZone hk

theorem Leaves.recordResets {n : Ns} {g : Nat} {zs : List Nat} (h : Leaves k s₀ s) : Leaves k s₀ (s.recordResets n g zs) :=
  h.foldl fun _ _ hu => hu.journal

theorem Leaves.clearZones {n : Ns} {g : Nat} {zs : List Nat} (h : Leaves k s₀ s) (hz : .zones ∉ k := by decide)
    (hc : .clutches ∉ k := by decide) : Leaves k s₀ (s.clearZones n g zs) := by
  refine (h.foldl fun _ _ hu => .setZone ?_ hz).settleFlags
  split
  · exact (hu.removeClutches hc).abandonCopies.releaseStripe
  · exact hu.removeClutches hc

theorem Leaves.emptyZones {n : Ns} {g : Nat} {zs : List Nat} (h : Leaves k s₀ s) (hz : .zones ∉ k := by decide)
    (hc : .clutches ∉ k := by decide) : Leaves k s₀ (s.emptyZones n g zs) := h.recordResets.clearZones hz hc

theorem Leaves.nextGen (h : Leaves k s₀ s) (hk : .gen ∉ k := by decide) : Leaves k s₀ s.nextGen := h.fields (hg := fun m => absurd m hk)

/-! ### Machine/Efts -/

theorem Leaves.pushItem {p n : Nat} {i : Item} (h : Leaves k s₀ s) : Leaves k s₀ (s.pushItem p n i) := h.modEft

theorem Leaves.scrubEft {p n : Nat} (h : Leaves k s₀ s) : Leaves k s₀ (s.scrubEft p n) := h.modEft.wr

theorem Leaves.startItem {p n : Nat} {i : Item} (h : Leaves k s₀ s) : Leaves k s₀ (s.startItem p n i) :=
  (Leaves.ite h.scrubEft h).modEft.setOwner

theorem Leaves.cancelItems {tag : Nat} (h : Leaves k s₀ s) : Leaves k s₀ (s.cancelItems tag) := h.fields

theorem Leaves.startOutput {p n : Nat} {i : Item} {c : Cmd} (h : Leaves k s₀ s) : Leaves k s₀ (s.startOutput p n i c) := by
  refine .modCmd (.modEft (.startItem ?_))
  split
  · exact h.modEft
  · exact h

theorem Leaves.resumeOutput {c : Cmd} {n : Nat} (h : Leaves k s₀ s) : Leaves k s₀ (s.resumeOutput c n) := by
  unfold State.resumeOutput
  extract_lets
  split
  · exact h
  · exact .ite h.modEft.startOutput h.modEft.pushItem

theorem Leaves.issueTerms {c : Cmd} (h : Leaves k s₀ s) : Leaves k s₀ (s.issueTerms c) := by
  unfold State.issueTerms
  split
  · exact h
  · exact .ite h.resumeOutput (h.foldl fun _ _ hu => hu.pushItem).modCmd

theorem Leaves.concludeOne {c : Cmd} (h : Leaves k s₀ s) (hk : .cqes ∉ k := by decide) : Leaves k s₀ (s.concludeOne c) := by
  unfold State.concludeOne
  exact .ite (h.cancelItems.finish hk) h.issueTerms

theorem Leaves.concludeRecon (h : Leaves k s₀ s) (hk : .cqes ∉ k := by decide) : Leaves k s₀ s.concludeRecon := by
  refine h.foldl fun _ _ hu => ?_
  split
  · exact .ite hu (hu.concludeOne hk)
  · exact hu

/-! ### Machine/Namespaces -/

theorem Leaves.endNsCmds {nsid : Nat} {st : Status} (h : Leaves k s₀ s) (hk : .cqes ∉ k := by decide) : Leaves k s₀ (s.endNsCmds nsid st) :=
  (h.foldl fun _ _ hu => hu.cancelItems.finish hk).concludeRecon hk

theorem Leaves.dropWorks {nsid : Nat} (h : Leaves k s₀ s) : Leaves k s₀ (s.dropWorks nsid) := h.fields

theorem Leaves.dropEmptySegs (h : Leaves k s₀ s) : Leaves k s₀ s.dropEmptySegs := h.foldl fun _ _ hu => hu.dropEmptySeg

theorem Leaves.dropConv {nsid : Nat} (h : Leaves k s₀ s) (hk : .clutches ∉ k := by decide) : Leaves k s₀ (s.dropConv nsid) :=
  ((h.removeClutches hk).foldl fun _ _ hu => hu.releaseStripe).maps

theorem Leaves.bindHomes {n : Ns} (h : Leaves k s₀ s) : Leaves k s₀ (s.bindHomes n) := by
  unfold State.bindHomes
  exact .ite h (h.foldl fun _ _ hu => hu.bindStripe).refreshXlt.setLevels

theorem Leaves.zeroSlot {n : Nat} (h : Leaves k s₀ s) : Leaves k s₀ (s.zeroSlot n) := h.fields

theorem Leaves.abortTest {n : Nat} (h : Leaves k s₀ s) : Leaves k s₀ (s.abortTest n) := by
  unfold State.abortTest State.endTest
  exact .ite h (h.cancelItems (tag := testTag)).other

end Leaving

end Sys2Proof.Machine
end

section

-- Proofs are elaborated in turn: run side by side, each waiting one would hold a thread and its stack.
set_option Elab.async false

namespace Sys2Proof.Machine

open Sys2Proof

/-! ## Zones (R50, R55, R56, R63-R66, R78) -/

section ZoneReads

variable {s t : State} {n : Ns} {z : Nat}

theorem State.ns_of_nss (h : t.nss = s.nss) (nsid : Nat) : t.ns nsid = s.ns nsid := by rw [State.ns, State.ns, h]

theorem State.ns_nsid {nsid : Nat} (h : s.ns nsid = some n) : n.nsid = nsid := by simpa using List.find?_some h

theorem State.nsFor_ns {fn nsid : Nat} (h : s.nsFor fn nsid = some n) : s.ns nsid = some n := (Option.filter_eq_some_iff.1 h).1

theorem State.zone_of_zones (h : t.zones = s.zones) (n : Ns) (z : Nat) : t.zone n z = s.zone n z := by rw [State.zone, State.zone, h]

/-- A zone read back: as it was set, but for a generation of 0, which stands for the namespace's own. -/
theorem State.zone_setZone (s : State) (n : Ns) (z : Nat) (w : Zone) :
    (s.setZone n.nsid z w).zone n z = if w.gen = 0 then { w with gen := n.gen0 } else w := by
  rw [State.zone, State.setZone, tblGet_set_same]

theorem State.zone_setZone_state (s : State) (n : Ns) (z : Nat) (w : Zone) : ((s.setZone n.nsid z w).zone n z).state = w.state := by
  rw [State.zone_setZone]
  split <;> rfl

theorem State.zone_setZone_wp (s : State) (n : Ns) (z : Nat) (w : Zone) : ((s.setZone n.nsid z w).zone n z).wp = w.wp := by
  rw [State.zone_setZone]
  split <;> rfl

theorem State.zone_setZone_fill (s : State) (n : Ns) (z : Nat) (w : Zone) : ((s.setZone n.nsid z w).zone n z).fill = w.fill := by
  rw [State.zone_setZone]
  split <;> rfl

theorem State.zoneDesc_of_zones (h : t.zones = s.zones) (n : Ns) (z : Nat) : t.zoneDesc n z = s.zoneDesc n z := by
  rw [State.zoneDesc, State.zoneDesc, State.zone_of_zones h]

/-- A host command that ends posts one completion, and a Reconstruct's end may post others'. -/
theorem State.finish_cqes (s : State) {c : Cmd} (hp : c.kind ≠ .peer) (hr : c.kind ≠ .reconstruct) (st : Status) (dw0 dw1 : Nat)
    (data : Payload) : (s.finish c st dw0 dw1 data).cqes = ⟨c.fn, c.qid, c.cid, st, dw0, dw1, data, st.dnr⟩ :: s.cqes := by
  have posted (t : State) : (t.post c.fn c.qid c.cid st dw0 dw1 data).cqes = ⟨c.fn, c.qid, c.cid, st, dw0, dw1, data, st.dnr⟩ :: t.cqes := by
    unfold State.post
    split <;> rfl
  unfold State.finish
  rw [if_neg hp]
  dsimp only
  rw [if_neg hr]
  split <;> split <;> exact posted _

theorem Leaves.entered {k : List Part} (s : State) (src : Src) : Leaves k s (s.entered src) :=
  (Leaves.refl s).fields (fun _ => by simp) (fun _ => by simp) (fun _ => by simp) (fun _ => by simp) fun _ => by simp

end ZoneReads

/-! ### A zone command taken from its queue -/

section ZoneCommand

variable {s : State} {src : Src} {cls : Class} {kind : Kind} {nsid z : Nat} {n : Ns}

/-- The record of a zone command on one zone. -/
def State.zoneCommand (s : State) (src : Src) (kind : Kind) (nsid z : Nat) : Cmd :=
  Cmd.new (s.entryTag src) (s.entryPos src) src kind nsid (z * zoneBlocks) 1

/-- The state in which it stands among the outstanding commands. -/
def State.zoneTaken (s : State) (src : Src) (kind : Kind) (nsid z : Nat) : State := (s.entered src).addCmd (s.zoneCommand src kind nsid z)

theorem Leaves.zoneTaken {k : List Part} : Leaves k s (s.zoneTaken src kind nsid z) := (Leaves.entered s src).addCmd

theorem zoneCommand_zone : (s.zoneCommand src kind nsid z).slba / zoneBlocks = z := Nat.mul_div_cancel z (by decide)

/-- A zone command that nothing holds back runs in its own step. -/
theorem zoneCmd_runs {go : State → Cmd → Ns → State} (ht : s.takes src cls = true) (hn : (s.entered src).nsFor src.fn nsid = some n)
    (hz : n.zoned = true) (hr : z * zoneBlocks < n.nsze) (hw : s.startsNow src kind nsid (z * zoneBlocks) 1) :
    zoneCmd s src cls kind nsid (z * zoneBlocks) false go = .next (go (s.zoneTaken src kind nsid z) (s.zoneCommand src kind nsid z) n) := by
  unfold zoneCmd
  rw [hostTagged_entered _ ht, zoneArgs, withNs_some _ _ hn, if_neg (by simp [hz]), if_neg (by decide), if_neg (by omega),
    if_neg (by simp), ← State.entryPos_takes ht]
  have free : ((s.entered src).addCmd (Cmd.new (s.entryTag src) (s.entryPos src) src kind nsid (z * zoneBlocks) 1)).waits
      (Cmd.new (s.entryTag src) (s.entryPos src) src kind nsid (z * zoneBlocks) 1) = false := hw
  exact congrArg Host.Outcome.next (if_neg (by rw [Bool.not_eq_true]; exact free))

end ZoneCommand

/-! ### What each takes effect as -/

section Effects

variable {s : State} {c : Cmd} {n : Ns} {z : Nat}

theorem ZState.active_cases {w : ZState} (h : w.isActive = true) : w.isOpen = true ∨ w = .closed := by
  cases w <;> simp_all [ZState.isActive, ZState.isOpen]

theorem ZState.active_ne {w : ZState} (h : w.isActive = true) : w ≠ .full ∧ w ≠ .readOnly ∧ w ≠ .offline ∧ w ≠ .empty := by
  cases w <;> simp_all [ZState.isActive]

theorem ZState.active_of_open {w : ZState} (h : w.isOpen = true) : w.isActive = true := by
  cases w <;> simp_all [ZState.isActive, ZState.isOpen]

/-- An active zone is Closed after a close. -/
theorem State.closeZone_closed (ha : (s.zone n z).state.isActive = true) :
    ((s.closeZone n z).zone n z).state = .closed ∧ ((s.closeZone n z).zone n z).wp = (s.zone n z).wp := by
  unfold State.closeZone
  by_cases h : (s.zone n z).state.isOpen = true
  · rw [if_pos h]
    exact ⟨State.zone_setZone_state _ _ _ _, State.zone_setZone_wp _ _ _ _⟩
  · rw [if_neg h]
    exact ⟨(ZState.active_cases ha).resolve_left h, rfl⟩

theorem Leaves.closeZone {k : List Part} {s₀ : State} (h : Leaves k s₀ s) (hk : .zones ∉ k := by decide) : Leaves k s₀ (s.closeZone n z) := by
  unfold State.closeZone
  exact .ite (h.setZone hk) h

theorem State.startClose_closes (hl : c.nlb = 1) (hz : c.slba / zoneBlocks = z) (hp : c.kind ≠ .peer) (hr : c.kind ≠ .reconstruct)
    (ha : (s.zone n z).state.isActive = true) :
    ((s.startClose c n).zone n z).state = .closed ∧ ((s.startClose c n).zone n z).wp = (s.zone n z).wp ∧
      (s.startClose c n).cqes = ⟨c.fn, c.qid, c.cid, .success, 0, 0, .none, Status.success.dnr⟩ :: s.cqes := by
  unfold State.startClose
  rw [if_neg (by omega), hz, if_pos ha]
  have kept : Leaves [.zones] (s.closeZone n z) (((s.closeZone n z).settleFlags n.charge).finish c .success 0 0 .none) :=
    (Leaves.refl _).settleFlags.finish
  have quiet : Leaves [.cqes] s ((s.closeZone n z).settleFlags n.charge) := (Leaves.refl s).closeZone.settleFlags
  rw [State.zone_of_zones kept.zones_eq, State.finish_cqes _ hp hr, quiet.cqes_eq]
  exact ⟨(State.closeZone_closed ha).1, (State.closeZone_closed ha).2, rfl⟩

/-- A zone that is filled is Full and keeps its write pointer. -/
theorem State.fillZone_full (s : State) (n : Ns) (z : Nat) (byCtrl : Bool) :
    ((s.fillZone n z byCtrl false).zone n z).state = .full ∧ ((s.fillZone n z byCtrl false).zone n z).wp = (s.zone n z).wp := by
  have kept : Leaves [.zones] ((s.journal .finish [n.nsid, z]).setZone n.nsid z { s.zone n z with state := .full, zfc := byCtrl })
      (s.fillZone n z byCtrl false) := by
    unfold State.fillZone
    show Leaves [.zones] _ (State.settleFlags _ _)
    refine .settleFlags ?_
    split
    · exact (Leaves.refl _).modStripe
    · exact .refl _
  rw [State.zone_of_zones kept.zones_eq]
  exact ⟨State.zone_setZone_state _ _ _ _, State.zone_setZone_wp _ _ _ _⟩

theorem State.finishZone_fills (h : (s.zone n z).state.isActive = true ∨ (s.zone n z).state = .empty) :
    s.finishZone n z = .inl (s.fillZone n z false false) := by
  have states : (s.zone n z).state ≠ .full ∧ (s.zone n z).state ≠ .readOnly ∧ (s.zone n z).state ≠ .offline := by
    rcases h with active | empty
    · obtain ⟨notFull, writable, online, -⟩ := ZState.active_ne active
      exact ⟨notFull, writable, online⟩
    · simp [empty]
  obtain ⟨notFull, writable, online⟩ := states
  unfold State.finishZone
  split
  · contradiction
  · contradiction
  · contradiction
  all_goals rfl

theorem State.startFinish_fills (hl : c.nlb = 1) (hz : c.slba / zoneBlocks = z) (hp : c.kind ≠ .peer) (hr : c.kind ≠ .reconstruct)
    (ha : (s.zone n z).state.isActive = true ∨ (s.zone n z).state = .empty) :
    ((s.startFinish c n).zone n z).state = .full ∧ ((s.startFinish c n).zone n z).wp = (s.zone n z).wp ∧
      (s.startFinish c n).cqes = ⟨c.fn, c.qid, c.cid, .success, 0, 0, .none, Status.success.dnr⟩ :: s.cqes := by
  unfold State.startFinish
  rw [if_neg (by omega), hz, State.finishZone_fills ha]
  dsimp only
  have kept : Leaves [.zones] (s.fillZone n z false false) ((s.fillZone n z false false).finish c .success 0 0 .none) := (Leaves.refl _).finish
  have quiet : Leaves [.cqes] s (s.fillZone n z false false) := (Leaves.refl s).fillZone
  rw [State.zone_of_zones kept.zones_eq, State.finish_cqes _ hp hr, quiet.cqes_eq]
  exact ⟨(s.fillZone_full n z false).1, (s.fillZone_full n z false).2, rfl⟩

/-- One zone's clutches are dropped and its stripe, with copies of it, released (R66, R68, R193). -/
def State.freeZone (s : State) (n : Ns) (z : Nat) : State :=
  match (s.zone n z).stripe with
  | some q => ((s.removeClutches fun c => c.nsid = n.nsid && c.zone = z).abandonCopies q).releaseStripe q
  | none => s.removeClutches fun c => c.nsid = n.nsid && c.zone = z

/-- Of zones and clutches only the zone's own clutches go. -/
theorem State.freeZone_leaves (s : State) (n : Ns) (z : Nat) :
    Leaves [.zones, .clutches] (s.removeClutches fun c => c.nsid = n.nsid && c.zone = z) (s.freeZone n z) := by
  unfold State.freeZone
  split
  · exact (Leaves.refl _).abandonCopies.releaseStripe
  · exact .refl _

/-- The clearing of one zone. -/
theorem State.clearZones_one (s : State) (n : Ns) (g z : Nat) :
    s.clearZones n g [z] =
      ((s.freeZone n z).setZone n.nsid z { Zone.init with gen := g, lastPlace := (s.zone n z).lastPlace }).settleFlags n.charge := rfl

/-- It is Empty at the generation, and its clutches are gone. -/
theorem State.clearZones_one_empties (s : State) (n : Ns) (g z : Nat) :
    (s.clearZones n g [z]).zones = (s.setZone n.nsid z { Zone.init with gen := g, lastPlace := (s.zone n z).lastPlace }).zones ∧
      (s.clearZones n g [z]).clutches = (s.removeClutches fun c => c.nsid = n.nsid && c.zone = z).clutches := by
  have settled : Leaves [.zones, .clutches] _ (s.clearZones n g [z]) := s.clearZones_one n g z ▸ (Leaves.refl _).settleFlags
  refine ⟨settled.zones_eq.trans ?_, settled.clutches_eq.trans (s.freeZone_leaves n z).clutches_eq⟩
  exact congrArg (fun l => tblSet zoneDefault l _ _) (s.freeZone_leaves n z).zones_eq

/-- A reset of one written zone is its record at the next generation and its clearing. -/
theorem State.startReset_clears (hl : c.nlb = 1) (hz : c.slba / zoneBlocks = z) (hh : s.hlt.holdup ≠ 1)
    (ha : (s.zone n z).state.isActive = true ∨ (s.zone n z).state = .full) :
    s.startReset c n =
      ((s.nextGen.recordResets n (s.xlt.genCounter + 1) [z]).clearZones n (s.xlt.genCounter + 1) [z]).finish c .success 0 0 .none := by
  have states : (s.zone n z).state ≠ .readOnly ∧ (s.zone n z).state ≠ .offline ∧ (s.zone n z).state ≠ .empty := by
    rcases ha with active | full
    · exact (ZState.active_ne active).2
    · simp [full]
  obtain ⟨writable, online, used⟩ := states
  have affected : s.resetSet n c = [z] := by rw [State.resetSet, if_neg (by omega), hz, if_neg used]
  unfold State.startReset
  rw [affected, hz]
  dsimp only
  rw [if_neg (by simp [writable, online]), if_neg (by simp [hh])]
  rfl

theorem State.startReset_empties (hl : c.nlb = 1) (hz : c.slba / zoneBlocks = z) (hp : c.kind ≠ .peer) (hr : c.kind ≠ .reconstruct)
    (hh : s.hlt.holdup ≠ 1) (ha : (s.zone n z).state.isActive = true ∨ (s.zone n z).state = .full) :
    ((s.startReset c n).zone n z) = { Zone.init with gen := s.xlt.genCounter + 1, lastPlace := (s.zone n z).lastPlace } ∧
      (s.startReset c n).xlt.genCounter = s.xlt.genCounter + 1 ∧
      (∀ x ∈ (s.startReset c n).clutches, ¬ (x.nsid = n.nsid ∧ x.zone = z)) ∧
      (s.startReset c n).cqes = ⟨c.fn, c.qid, c.cid, .success, 0, 0, .none, Status.success.dnr⟩ :: s.cqes := by
  rw [State.startReset_clears hl hz hh ha]
  have recorded : Leaves [.zones, .cqes] s (s.nextGen.recordResets n (s.xlt.genCounter + 1) [z]) := (Leaves.refl s).nextGen.recordResets
  have cleared {t : State} {g : Nat} : Leaves [.gen, .cqes] t (t.clearZones n g [z]) := (Leaves.refl _).clearZones
  have counted : Leaves [.gen] s.nextGen (s.nextGen.recordResets n (s.xlt.genCounter + 1) [z]) := (Leaves.refl _).recordResets
  have ended {t : State} : Leaves [.zones, .clutches, .gen] t (t.finish c .success 0 0 .none) := (Leaves.refl _).finish
  obtain ⟨zones, clutches⟩ := (s.nextGen.recordResets n (s.xlt.genCounter + 1) [z]).clearZones_one_empties n (s.xlt.genCounter + 1) z
  refine ⟨?_, ?_, fun x hx ⟨own, there⟩ => ?_, ?_⟩
  · rw [State.zone_of_zones (ended.zones_eq.trans zones), State.zone_setZone, if_neg (Nat.succ_ne_zero _),
      State.zone_of_zones recorded.zones_eq]
  · rw [ended.gen_eq, cleared.gen_eq, counted.gen_eq]
    rfl
  · rw [ended.clutches_eq, clutches] at hx
    simpa [own, there] using (List.mem_filter.1 hx).2
  · rw [State.finish_cqes _ hp hr, cleared.cqes_eq, recorded.cqes_eq]

/-- An explicit open of one zone, by its state. -/
theorem State.openZone_opens (h : (s.zone n z).state = .implicitOpen ∨
      ((s.zone n z).state = .closed ∧ s.nsOpenFull n = false ∧ s.fnOpenFull n.charge = false)) :
    ∃ w, s.openZone n z = .inl (s.setZone n.nsid z w) ∧ w.state = .explicitOpen ∧ w.wp = (s.zone n z).wp := by
  unfold State.openZone
  rcases h with h | ⟨h, room, quota⟩
  · simp only [h]
    exact ⟨_, rfl, rfl, rfl⟩
  · have checked : s.openChecks n z = .inl s := by
      simp [State.openChecks, State.makeOpenRoom, h, room, quota, ZState.isOpen]
    simp only [h, checked]
    exact ⟨_, rfl, rfl, rfl⟩

theorem State.openZone_refused (h : (s.zone n z).state = .full ∨ (s.zone n z).state = .readOnly ∨ (s.zone n z).state = .offline) :
    s.openZone n z = .inr .invalidZoneState := by
  unfold State.openZone
  rcases h with h | h | h <;> simp only [h]

/-- A Zone Open of one zone ends as the zone allows. -/
theorem State.startOpen_one (hl : c.nlb = 1) (hz : c.slba / zoneBlocks = z) {r : State ⊕ Status} (h : s.openZone n z = r) :
    s.startOpen c n = match r with
      | .inl s' => s'.finish c .success 0 0 .none
      | .inr st => s.finish c st 0 0 .none := by
  have single : s.openZones n [z] = r := by
    rw [← h, State.openZones]
    cases s.openZone n z <;> rfl
  unfold State.startOpen
  rw [if_neg (by omega), hz, single]
  cases r <;> rfl

theorem State.startOpen_opens (hl : c.nlb = 1) (hz : c.slba / zoneBlocks = z) (hp : c.kind ≠ .peer) (hr : c.kind ≠ .reconstruct)
    (h : (s.zone n z).state = .implicitOpen ∨ ((s.zone n z).state = .closed ∧ s.nsOpenFull n = false ∧ s.fnOpenFull n.charge = false)) :
    ((s.startOpen c n).zone n z).state = .explicitOpen ∧ ((s.startOpen c n).zone n z).wp = (s.zone n z).wp ∧
      (s.startOpen c n).cqes = ⟨c.fn, c.qid, c.cid, .success, 0, 0, .none, Status.success.dnr⟩ :: s.cqes := by
  obtain ⟨w, opened, state, wp⟩ := State.openZone_opens h
  have ended {t : State} : Leaves [.zones] t (t.finish c .success 0 0 .none) := (Leaves.refl _).finish
  rw [State.startOpen_one hl hz opened]
  dsimp only
  rw [State.zone_of_zones ended.zones_eq, State.zone_setZone_state, State.zone_setZone_wp, State.finish_cqes _ hp hr]
  exact ⟨state, wp, rfl⟩

theorem State.startOpen_refused (hl : c.nlb = 1) (hz : c.slba / zoneBlocks = z) (hp : c.kind ≠ .peer) (hr : c.kind ≠ .reconstruct)
    (h : (s.zone n z).state = .full ∨ (s.zone n z).state = .readOnly ∨ (s.zone n z).state = .offline) :
    (s.startOpen c n).zones = s.zones ∧
      (s.startOpen c n).cqes = ⟨c.fn, c.qid, c.cid, .invalidZoneState, 0, 0, .none, Status.invalidZoneState.dnr⟩ :: s.cqes := by
  have ended : Leaves [.zones] s (s.finish c .invalidZoneState 0 0 .none) := (Leaves.refl _).finish
  rw [State.startOpen_one hl hz (State.openZone_refused h)]
  exact ⟨ended.zones_eq, State.finish_cqes _ hp hr _ _ _ _⟩

end Effects

/-! ### The commands -/

section Commands

variable {s : State} {src : Src} {nsid z : Nat} {n : Ns}

/-- What stands before a zone command sees the zones as they were. -/
theorem State.zoneTaken_zone (kind : Kind) : (s.zoneTaken src kind nsid z).zone n z = s.zone n z :=
  State.zone_of_zones (Leaves.zoneTaken (k := [.zones])).zones_eq n z

theorem State.zoneTaken_cqes (kind : Kind) : (s.zoneTaken src kind nsid z).cqes = s.cqes := (Leaves.zoneTaken (k := [.cqes])).cqes_eq

section Managed

variable (hn : (s.entered src).nsFor src.fn nsid = some n) (hz : n.zoned = true) (hr : z * zoneBlocks < n.nsze)

include hn hz hr

theorem execZoneClose_closes (ht : s.takes src .ioOther = true) (hw : s.startsNow src .zoneClose nsid (z * zoneBlocks) 1)
    (ha : (s.zone n z).state.isActive = true) :
    Next (execZoneClose src nsid (z * zoneBlocks) false s) (fun t => (t.zone n z).state = .closed ∧
      (t.zone n z).wp = (s.zone n z).wp ∧ t.completes s src .success 0 0 .none) := by
  obtain ⟨state, wp, posted⟩ := State.startClose_closes (s := s.zoneTaken src .zoneClose nsid z) (n := n)
    (c := s.zoneCommand src .zoneClose nsid z) rfl zoneCommand_zone nofun nofun (by rwa [State.zoneTaken_zone])
  rw [State.zoneTaken_zone] at wp
  rw [State.zoneTaken_cqes] at posted
  rw [execZoneClose, zoneCmd_runs ht hn hz hr hw]
  exact .intro _ ⟨state, wp, posted⟩

theorem execZoneFinish_fills (ht : s.takes src .ioOther = true) (hw : s.startsNow src .zoneFinish nsid (z * zoneBlocks) 1)
    (ha : (s.zone n z).state.isActive = true ∨ (s.zone n z).state = .empty) :
    Next (execZoneFinish src nsid (z * zoneBlocks) false s) (fun t => (t.zone n z).state = .full ∧
      (t.zone n z).wp = (s.zone n z).wp ∧ t.completes s src .success 0 0 .none) := by
  obtain ⟨state, wp, posted⟩ := State.startFinish_fills (s := s.zoneTaken src .zoneFinish nsid z) (n := n)
    (c := s.zoneCommand src .zoneFinish nsid z) rfl zoneCommand_zone nofun nofun (by rwa [State.zoneTaken_zone])
  rw [State.zoneTaken_zone] at wp
  rw [State.zoneTaken_cqes] at posted
  rw [execZoneFinish, zoneCmd_runs ht hn hz hr hw]
  exact .intro _ ⟨state, wp, posted⟩

theorem execZoneReset_empties (ht : s.takes src .ioReset = true) (hw : s.startsNow src .zoneReset nsid (z * zoneBlocks) 1)
    (hh : s.hlt.holdup ≠ 1) (ha : (s.zone n z).state.isActive = true ∨ (s.zone n z).state = .full) :
    Next (execZoneReset src nsid (z * zoneBlocks) false s) (fun t => (t.zone n z).state = .empty ∧ (t.zone n z).wp = 0 ∧
      (t.zone n z).fill = 0 ∧ (t.zone n z).gen = s.xlt.genCounter + 1 ∧ t.xlt.genCounter = s.xlt.genCounter + 1 ∧
      (∀ c ∈ t.clutches, ¬ (c.nsid = nsid ∧ c.zone = z)) ∧ t.completes s src .success 0 0 .none) := by
  have own : n.nsid = nsid := State.ns_nsid (State.nsFor_ns hn)
  have gen : (s.zoneTaken src .zoneReset nsid z).xlt.genCounter = s.xlt.genCounter := (Leaves.zoneTaken (k := [.gen])).gen_eq
  have holdup : (s.zoneTaken src .zoneReset nsid z).hlt = s.hlt := s.entered_hlt src
  obtain ⟨zone, counted, gone, posted⟩ := State.startReset_empties (s := s.zoneTaken src .zoneReset nsid z) (n := n)
    (c := s.zoneCommand src .zoneReset nsid z) rfl zoneCommand_zone nofun nofun (by rwa [holdup]) (by rwa [State.zoneTaken_zone])
  rw [gen] at zone counted
  rw [State.zoneTaken_cqes] at posted
  rw [own] at gone
  rw [execZoneReset, zoneCmd_runs ht hn hz hr hw]
  exact .intro _ ⟨by rw [zone]; rfl, by rw [zone]; rfl, by rw [zone]; rfl, by rw [zone], counted, gone, posted⟩

theorem execZoneOpen_opens (ht : s.takes src .ioOther = true) (hw : s.startsNow src .zoneOpen nsid (z * zoneBlocks) 1)
    (ha : (s.zone n z).state = .implicitOpen ∨ ((s.zone n z).state = .closed ∧
      s.nsOpenFull n = false ∧ (s.entered src).fnOpenFull n.charge = false)) :
    Next (execZoneOpen src nsid (z * zoneBlocks) false s) (fun t => (t.zone n z).state = .explicitOpen ∧
      (t.zone n z).wp = (s.zone n z).wp ∧ t.completes s src .success 0 0 .none) := by
  have room : (s.zoneTaken src .zoneOpen nsid z).nsOpenFull n = s.nsOpenFull n := by
    rw [State.nsOpenFull, State.openIn, State.zonesOf, (Leaves.zoneTaken (k := [.zones])).zones_eq]
    rfl
  obtain ⟨state, wp, posted⟩ := State.startOpen_opens (s := s.zoneTaken src .zoneOpen nsid z) (n := n)
    (c := s.zoneCommand src .zoneOpen nsid z) rfl zoneCommand_zone nofun nofun (by rw [State.zoneTaken_zone, room]; exact ha)
  rw [State.zoneTaken_zone] at wp
  rw [State.zoneTaken_cqes] at posted
  rw [execZoneOpen, zoneCmd_runs ht hn hz hr hw]
  exact .intro _ ⟨state, wp, posted⟩

theorem execZoneOpen_refused (ht : s.takes src .ioOther = true) (hw : s.startsNow src .zoneOpen nsid (z * zoneBlocks) 1)
    (ha : (s.zone n z).state = .full ∨ (s.zone n z).state = .readOnly ∨ (s.zone n z).state = .offline) :
    Next (execZoneOpen src nsid (z * zoneBlocks) false s) (fun t => t.completes s src .invalidZoneState 0 0 .none ∧ t.zones = s.zones) := by
  obtain ⟨zones, posted⟩ := State.startOpen_refused (s := s.zoneTaken src .zoneOpen nsid z) (n := n)
    (c := s.zoneCommand src .zoneOpen nsid z) rfl zoneCommand_zone nofun nofun (by rwa [State.zoneTaken_zone])
  rw [State.zoneTaken_cqes] at posted
  rw [execZoneOpen, zoneCmd_runs ht hn hz hr hw]
  exact .intro _ ⟨posted, zones.trans (Leaves.zoneTaken (k := [.zones])).zones_eq⟩

end Managed

/-! ### Reports (R50, R57, R63, R78) -/

theorem State.earlier_self (s : State) (c : Cmd) : s.earlier c c = false := by simp [State.earlier]

/-- What a command waits for does not depend on its own record in the list, nor on what its `off` says. -/
theorem State.waits_addCmd_off (s : State) (c : Cmd) (x : Nat) :
    (s.addCmd { c with off := x }).waits { c with off := x } = (s.addCmd c).waits c := by
  simp only [State.waits, State.overlapWait, State.fenceWait, State.zoneWait, State.flushWait, State.addCmd_cmds, List.any_append,
    List.any_cons, List.any_nil, State.earlier_self, Bool.false_and, Bool.or_false]
  rfl

/-- A report is answered from the zones as they are. -/
theorem State.startReport_answers {c : Cmd} (hz : c.slba / zoneBlocks = z) (hp : c.kind ≠ .peer) (hr : c.kind ≠ .reconstruct) :
    (s.startReport c n).zones = s.zones ∧ (s.startReport c n).cqes = ⟨c.fn, c.qid, c.cid, .success, 0, 0,
      .zones (n.zones - z) ((List.range (min c.off (n.zones - z))).map fun i => s.zoneDesc n (z + i)), Status.success.dnr⟩ :: s.cqes := by
  have ended {data : Payload} : Leaves [.zones] s (s.finish c .success 0 0 data) := (Leaves.refl s).finish
  unfold State.startReport
  rw [hz]
  exact ⟨ended.zones_eq, State.finish_cqes _ hp hr _ _ _ _⟩

/-- The record of a report, which keeps how many descriptors are asked for. -/
def State.reportCommand (s : State) (src : Src) (nsid z count : Nat) : Cmd := { s.zoneCommand src .report nsid z with off := count }

theorem execReportZones_answers {count : Nat} (ht : s.takes src .ioOther = true) (hn : (s.entered src).nsFor src.fn nsid = some n)
    (hz : n.zoned = true) (hr : z * zoneBlocks < n.nsze) (hw : s.startsNow src .report nsid (z * zoneBlocks) 1) :
    Next (execReportZones src nsid (z * zoneBlocks) count s) (fun t => t.zones = s.zones ∧
      t.completes s src .success 0 0 (.zones (n.zones - z) ((List.range (min count (n.zones - z))).map fun i => s.zoneDesc n (z + i)))) := by
  have free : ((s.entered src).addCmd (s.reportCommand src nsid z count)).waits (s.reportCommand src nsid z count) = false :=
    (State.waits_addCmd_off _ _ _).trans hw
  have taken : Leaves [.zones, .cqes] s ((s.entered src).addCmd (s.reportCommand src nsid z count)) := (Leaves.entered s src).addCmd
  obtain ⟨zones, posted⟩ := State.startReport_answers (s := (s.entered src).addCmd (s.reportCommand src nsid z count)) (n := n)
    (c := s.reportCommand src nsid z count) (zoneCommand_zone (s := s) (src := src) (kind := .report) (nsid := nsid)) nofun nofun
  simp only [State.zoneDesc_of_zones taken.zones_eq] at posted
  rw [taken.cqes_eq] at posted
  unfold execReportZones
  rw [hostTagged_entered _ ht, withNs_some _ _ hn, if_neg (by simp [hz]), if_neg (by omega), ← State.entryPos_takes ht]
  dsimp only
  rw [if_neg (by rw [Bool.not_eq_true]; exact free)]
  exact .intro _ ⟨zones.trans taken.zones_eq, posted⟩

theorem leBytes_length (k n : Nat) : (leBytes k n).length = k := by simp [leBytes]

theorem State.zoneStatus_length (s : State) (n : Ns) (z : Nat) : (s.zoneStatus n z).length = 16 := by
  unfold State.zoneStatus
  split
  · rfl
  · dsimp only
    split <;> simp [leBytes_length, zeros]

theorem State.zoneStatus_gen (h : z < n.zones) : (s.zoneStatus n z).take 8 = leBytes 8 (s.zone n z).gen := by
  unfold State.zoneStatus
  rw [if_neg (by omega)]
  simp [leBytes_length]

theorem execGetFeaturesZonePhysicalStatus_answers {zone : Nat} (ht : s.takes src .getFeat = true)
    (hn : (s.entered src).nsFor src.fn nsid = some n) (hz : n.zoned = true) :
    Next (execGetFeaturesZonePhysicalStatus src nsid zone s) (fun t => ∃ b, b.length = 4096 ∧ t.completes s src .success 0 0 (.bytes b) ∧
      (zone < n.zones → b.take 8 = leBytes 8 (s.zone n zone).gen)) := by
  unfold execGetFeaturesZonePhysicalStatus
  rw [host_takes s _ ht, withNs_some _ _ hn, if_neg (by simp [hz])]
  refine .intro _ ⟨(List.range 256).flatMap fun i => (s.entered src).zoneStatus n (zone + i), ?_,
    by simp only [State.completes, State.done_cqes, State.entered_cqes], fun h => ?_⟩
  · rw [List.length_flatMap]
    simp only [State.zoneStatus_length, List.map_const', List.sum_replicate, List.length_range, smul_eq_mul]
  · rw [List.range_succ_eq_map, List.flatMap_cons, List.take_append_of_le_length (by rw [State.zoneStatus_length]; decide), Nat.add_zero,
      State.zoneStatus_gen h, State.zone_of_zones (s.entered_zones src)]

theorem execSetFeaturesZonePhysicalStatus_refused (ht : s.takes src .setFeat = true) :
    Next (execSetFeaturesZonePhysicalStatus src s) (fun t => t.completes s src .featureNotChangeable 0 0 .none ∧ t.zones = s.zones) := by
  unfold execSetFeaturesZonePhysicalStatus
  rw [host_takes s _ ht]
  exact .intro _ (by simp [State.completes])

theorem State.logRead_changed (s : State) (f page : Nat) (rae : Bool) : ((s.logRead f page rae).fn f).changed = (s.fn f).changed := by
  unfold State.logRead
  split
  · rfl
  · obtain ⟨_, _, _, delivered⟩ := (s.modFn f fun g => { g with masked := g.masked.filter (· ≠ page) }).deliver_fn_same f
    rw [delivered, State.fn_modFn_same]

theorem execGetLogPageChangedZoneList_answers {rae : Bool} (ht : s.takes src .logPage = true) :
    Next (execGetLogPageChangedZoneList src rae s nsid) (fun t =>
      cqeOf src .success 0 0 (.changedZones (((s.fn src.fn).changed.filter (·.1 = nsid)).map (·.2))) ∈ t.cqes ∧
      (t.fn src.fn).changed = if rae then (s.fn src.fn).changed else (s.fn src.fn).changed.filter (·.1 ≠ nsid)) := by
  obtain ⟨l, own⟩ := s.entered_fn (src := src) src.fn
  unfold execGetLogPageChangedZoneList
  rw [host_takes s _ ht]
  refine .intro _ ⟨by simp [own], ?_⟩
  rw [State.fn_of_fns (State.done_success_fns _ _ _ _ _), State.logRead_changed]
  cases rae
  · simp [State.fn_modFn_same, own]
  · simp [own]

end Commands

/-- Settles O3: a zone command that nothing holds back takes its effect in its own step; the reports answer from the zones as they are. -/
theorem zoneManagement : Obligations.ZoneManagement := by
  unfold Obligations.ZoneManagement
  exact ⟨fun s src nsid z n hn hz hr _ => ⟨fun ht hw ha => execZoneClose_closes hn hz hr ht hw ha,
      fun ht hw ha => execZoneFinish_fills hn hz hr ht hw ha, fun ht hw hh ha => execZoneReset_empties hn hz hr ht hw hh ha⟩,
    ⟨fun s src nsid z n ht hn hz hr _ hw => ⟨fun ha => execZoneOpen_opens hn hz hr ht hw ha, fun ha => execZoneOpen_refused hn hz hr ht hw ha⟩,
      fun s src nsid z count n ht hn hz hr hw => execReportZones_answers ht hn hz hr hw⟩,
    fun s src nsid zone n ht hn hz => execGetFeaturesZonePhysicalStatus_answers ht hn hz,
    fun s src ht => execSetFeaturesZonePhysicalStatus_refused ht,
    fun s src nsid rae ht => execGetLogPageChangedZoneList_answers ht⟩
end Sys2Proof.Machine
end

section

-- Proofs are elaborated in turn: run side by side, each waiting one would hold a thread and its stack.
set_option Elab.async false

namespace Sys2Proof.Machine

open Sys2Proof

/-! ## Doorbells and fetch turns (R91, R92, R110, R331) -/

section Fetch

variable {s t : State} {n : Nat} {q : Sq}

theorem execSqDoorbellWrite_pends {fn qid entries : Nat} (hf : fn < fnCount) (hq : (s.fn fn).sq qid = some q) :
    Next (execSqDoorbellWrite fn qid entries s) (fun t => ∃ p, (t.fn fn).sq qid = some p ∧
      p.waiting = min (q.waiting + entries) (q.size - 1) ∧ p.fetched = q.fetched) := by
  unfold execSqDoorbellWrite onFn
  rw [if_pos hf, hq]
  refine .intro _ ⟨{ q with waiting := min (q.waiting + entries) (q.size - 1) }, ?_, rfl, rfl⟩
  rw [State.sq_modSq_same, hq]
  · rfl
  · exact fun _ => rfl

/-- The clocks have no part in the tags a function may take. -/
theorem Clocked.tagRoom (h : Clocked s t) (n : Nat) : t.tagRoom n = s.tagRoom n := by
  have beside : ∀ k, ¬ clockBlock (0x1800000 + k) := fun k h => by
    obtain ⟨-, low⟩ := h
    omega
  have limit : t.tagLimit n = s.tagLimit n := by
    have given : t.rd (Fd.VFM_FN_STATE_ASSIGNED n) = s.rd (Fd.VFM_FN_STATE_ASSIGNED n) := h.words.rd (show 31 < 32 by decide) (beside _)
    have most : t.rd (Fd.VFM_FN_INFLIGHT_LIMIT n) = s.rd (Fd.VFM_FN_INFLIGHT_LIMIT n) := by
      refine h.words.rd (show 13 < 32 by decide) ?_
      rw [Fd.VFM_FN_INFLIGHT_LIMIT, Reg.VFM_FN_INFLIGHT, show 0x1800008 + 0x400 * n = 0x1800000 + (8 + 0x400 * n) by omega]
      exact beside _
    rw [State.tagLimit, State.tagLimit, State.assigned, State.assigned, State.flag, State.flag, given, most]
  have held : t.inflight n = s.inflight n ∧ t.tagsInUse = s.tagsInUse := by
    rw [h.frame]
    exact ⟨rfl, rfl⟩
  rw [State.tagRoom, State.tagRoom, limit, held.1, held.2]

/-- One entry of a queue is fetched for its function, under the least free tag. -/
def State.fetchOne (s : State) (n : Nat) (q : Sq) : State :=
  (s.modSq n q.qid fun p => { p with waiting := p.waiting - 1, fetched := p.fetched ++ [leastFree s.tagsInUse s.tagsInUse.length 0] }).modFn n
    fun f => f.served q

theorem State.fetchFor_succ (k : Nat) (ht : s.tagRoom n = true) (hq : (s.fn n).nextQueue = some q) :
    s.fetchFor n (k + 1) = (s.fetchOne n q).fetchFor n k := by
  rw [State.fetchFor, if_neg (by simp [ht]), hq]
  rfl

theorem State.fetchOne_sq (s : State) (n : Nat) (q : Sq) (qid : Nat) : ((s.fetchOne n q).fn n).sq qid = ((s.fn n).sq qid).map fun p =>
    if p.qid = q.qid then { p with waiting := p.waiting - 1, fetched := p.fetched ++ [leastFree s.tagsInUse s.tagsInUse.length 0] } else p := by
  rw [State.fetchOne, State.fn_modFn_same, State.modSq, State.fn_modFn_same]
  exact Fn.sq_modSq _ _ _ fun _ => rfl

/-- Fetching takes no tag away again. -/
theorem State.fetchFor_fetched (k : Nat) {p : Sq} {qid : Nat} (h : (s.fn n).sq qid = some p) :
    ∃ p', ((s.fetchFor n k).fn n).sq qid = some p' ∧ p.fetched.length ≤ p'.fetched.length := by
  induction k generalizing s p with
  | zero => exact ⟨p, h, le_rfl⟩
  | succ k ih =>
    by_cases room : s.tagRoom n = true
    · cases hq : (s.fn n).nextQueue with
      | none => exact ⟨p, by rw [State.fetchFor, if_neg (by simp [room]), hq]; exact h, le_rfl⟩
      | some q =>
        have one := s.fetchOne_sq n q qid
        rw [h, Option.map_some] at one
        obtain ⟨p', last, grown⟩ := ih one
        refine ⟨p', by rw [State.fetchFor_succ k room hq, last], le_trans ?_ grown⟩
        split <;> simp
    · exact ⟨p, by rw [State.fetchFor, if_pos (by simp [room])]; exact h, le_rfl⟩

theorem State.fetchFor_cmds (s : State) (n k : Nat) : (s.fetchFor n k).cmds = s.cmds ∧ (s.fetchFor n k).cqes = s.cqes := by
  induction k generalizing s with
  | zero => exact ⟨rfl, rfl⟩
  | succ k ih =>
    unfold State.fetchFor
    split
    · exact ⟨rfl, rfl⟩
    · split
      · exact ⟨rfl, rfl⟩
      · exact ih _

theorem State.nextFn_canFetch (h : s.nextFn = some n) : s.canFetch n = true := by
  unfold State.nextFn at h
  split at h
  · rename_i found
    cases h
    have able := List.find?_some found
    simp only [Bool.and_eq_true] at able
    exact able.2
  · exact List.find?_some h

theorem State.fetchTurn_pos (s : State) (n : Nat) : ∃ k, s.fetchTurn n = k + 1 := by
  refine Nat.exists_eq_succ_of_ne_zero ?_
  unfold State.fetchTurn
  split <;> omega

/-- A fetch turn gives the next queue's entry a tag, and moves the round on. -/
theorem execCommandFetch_fetches (hn : s.nextFn = some n) (hq : (s.fn n).nextQueue = some q) (hs : (s.fn n).sq q.qid = some q) :
    Next (execCommandFetch s) (fun t => t.rr = (n + 1) % fnCount ∧ t.cmds = s.cmds ∧ t.cqes = s.cqes ∧
      ∃ p, (t.fn n).sq q.qid = some p ∧ q.fetched.length < p.fetched.length) := by
  have able := State.nextFn_canFetch hn
  simp only [State.canFetch, Bool.and_eq_true] at able
  obtain ⟨⟨-, room⟩, -⟩ := able
  have busy : s.hostBusy.tagRoom n = true := ((Clocked.refl s).hostBusy.tagRoom n).trans room
  obtain ⟨k, turn⟩ := s.fetchTurn_pos n
  have one := s.hostBusy.fetchOne_sq n q q.qid
  rw [State.hostBusy_fn, hs, Option.map_some, if_pos rfl] at one
  obtain ⟨p, last, grown⟩ := State.fetchFor_fetched k one
  unfold execCommandFetch
  rw [hn]
  refine .intro _ ⟨rfl, (State.fetchFor_cmds _ _ _).1.trans ?_, (State.fetchFor_cmds _ _ _).2.trans ?_, p, ?_, ?_⟩
  · simp
  · simp
  · rw [turn, State.fetchFor_succ k busy (by rw [State.hostBusy_fn, hq])]
    exact last
  · simpa using grown

end Fetch

/-! ## Starting and admitting a write (R94, R325, R329) -/

section Start

variable {s : State} {tag : Nat} {c : Cmd} {n : Ns}

theorem State.cmd_tag (h : s.cmd tag = some c) : c.tag = tag := by simpa using List.find?_some h

theorem State.cmd_mem (h : s.cmd tag = some c) : c ∈ s.cmds := List.mem_of_find?_eq_some h

/-- A command that is changed stands among the others as changed. -/
theorem State.mem_modCmd {g : Cmd → Cmd} (h : c ∈ s.cmds) : g c ∈ (s.modCmd c.tag g).cmds :=
  List.mem_map.2 ⟨c, h, if_pos rfl⟩

theorem State.placeItems_cmds (s : State) (p : Nat) (is : List Item) : (s.placeItems p is).2.cmds = s.cmds := by
  induction is generalizing s with
  | nil => rfl
  | cons i is ih =>
    unfold State.placeItems
    split
    · rfl
    · exact ih _

/-- A command some of whose items find room is started, with as many placed. -/
theorem State.placeCmd_places {is : List Item} (hp : s.anyPond = true)
    (h0 : 0 < (s.placeItems (s.homePond c.fn c.qid) (is.drop c.placed)).1) :
    s.placeCmd c is = (s.placeItems (s.homePond c.fn c.qid) (is.drop c.placed)).2.modCmd c.tag fun _ =>
      { c with started := true, placed := c.placed + (s.placeItems (s.homePond c.fn c.qid) (is.drop c.placed)).1 } := by
  unfold State.placeCmd
  rw [if_neg (by simp [hp])]
  dsimp only
  rw [if_neg h0.ne']

theorem State.startCmd_write (hk : c.kind = .write) (hm : s.modeRefusal ⟨c.fn, c.qid, c.cid, 0, 0, 0, false⟩ .ioWrite = none) :
    s.startCmd c n = s.startWrite c n := by
  have refused : s.modeRefusal ⟨c.fn, c.qid, c.cid, 0, 0, 0, false⟩ c.kind.cls = none := by
    rw [hk]
    exact hm
  unfold State.startCmd
  rw [refused, hk]

theorem execCommandStart_places (hc : s.cmd tag = some c) (hn : s.ns c.nsid = some n) (hs : c.started = false) (hw : s.waits c = false)
    (hk : c.kind = .write) (hm : s.modeRefusal ⟨c.fn, c.qid, c.cid, 0, 0, 0, false⟩ .ioWrite = none) (hp : s.anyPond = true)
    (h0 : c.placed = 0) {a : Nat × State} (ha : s.placeItems (s.homePond c.fn c.qid)
      ((List.range (n.clutchesOf c.nlb)).map fun i => ⟨.write, .fn c.fn, tag, i, false, none, false⟩) = a) (room : 0 < a.1) :
    Next (execCommandStart tag s) (fun t => t.efts = a.2.efts ∧
      ∃ d ∈ t.cmds, d.tag = tag ∧ d.started = true ∧ d.items = n.clutchesOf c.nlb ∧ d.placed = a.1) := by
  have own := State.cmd_tag hc
  have items : (c.itemList n).drop c.placed =
      (List.range (n.clutchesOf c.nlb)).map fun i => ⟨.write, .fn c.fn, tag, i, false, none, false⟩ := by
    rw [h0, List.drop_zero, Cmd.itemList, hk, own]
    rfl
  have started : s.startCmd c n = a.2.modCmd c.tag fun _ =>
      { c with items := n.clutchesOf c.nlb, started := true, placed := c.placed + a.1 } := by
    rw [State.startCmd_write hk hm, State.startWrite, State.placeCmd_places hp (by rw [items, ha]; exact room), items, ha]
  unfold execCommandStart
  rw [onTag_some s _ hc, if_neg (by simp [hs]), if_neg (by simp [hw]), hn]
  dsimp only
  rw [started]
  refine .intro _ ⟨State.modCmd_efts _ _ _, _, State.mem_modCmd (c := c) ?_, own, rfl, rfl, ?_⟩
  · rw [← ha, State.placeItems_cmds]
    exact State.cmd_mem hc
  · simp [h0]

theorem execWriteAdmission_admits (hc : s.cmd tag = some c) (hn : s.ns c.nsid = some n) (hk : c.kind.stores = true)
    (hw : c.admitted = false) (hm : s.mode ≠ mReadonly) (ha : s.admits c n = true) :
    Next (execWriteAdmission tag s) (fun t => ∃ d ∈ t.cmds, d.tag = tag ∧ d.admitted = true) := by
  have own := State.cmd_tag hc
  unfold execWriteAdmission
  rw [onTag_some s _ hc, hn]
  dsimp only
  rw [if_neg (by simp [hk, hw]), if_neg hm, if_pos ha, ← own]
  exact .intro _ ⟨_, State.mem_modCmd (State.cmd_mem hc), rfl, rfl⟩

theorem execWriteAdmission_waits (hc : s.cmd tag = some c) (hn : s.ns c.nsid = some n) (hk : c.kind.stores = true)
    (hw : c.admitted = false) (hm : s.mode ≠ mReadonly) (hb : (s.fn c.fn).bal ≤ 0) : execWriteAdmission tag s = .next s := by
  have poor : ¬ s.admits c n = true := by
    have none : ¬ 0 < (s.fn c.fn).bal := by omega
    simp [State.admits, none]
  unfold execWriteAdmission
  rw [onTag_some s _ hc, hn]
  dsimp only
  rw [if_neg (by simp [hk, hw]), if_neg hm, if_neg poor]

/-- A function whose write waits without tokens shows it. -/
theorem State.waitsTokens_of_cmd (hc : c ∈ s.cmds) (hk : c.kind.stores = true) (hw : c.admitted = false) (hb : (s.fn c.fn).bal ≤ 0) :
    s.waitsTokens c.fn = true := by
  rw [State.waitsTokens, decide_eq_true hb, Bool.true_and, List.any_eq_true]
  exact ⟨c, hc, by simp [hk, hw]⟩

/-- WAITTOK, as the function's state register shows it. -/
theorem State.viewFn_waittok (s : State) (f w : Nat) : getBits (s.viewFn (Reg.VFM_FN_STATE f) w) 27 27 = (s.waitsTokens f).toNat := by
  have aligned : Reg.VFM_FN_STATE f % 0x400 = 0 := by
    rw [Reg.VFM_FN_STATE]
    omega
  have own : (Reg.VFM_FN_STATE f - 0x1800000) / 0x400 = f := by
    rw [Reg.VFM_FN_STATE]
    omega
  unfold State.viewFn
  simp only [aligned, own]
  rw [Fld.put, Fd.VFM_FN_STATE_WAITTOK]
  dsimp only
  rw [getBits_put_same]
  cases s.waitsTokens f <;> rfl

end Start

/-! ## The placement point (R58, R59, R61) -/

section Placement

variable {s : State} {c : Cmd} {n : Ns} {z : Nat}

theorem layClutches_length (n : Ns) (fn z id0 : Nat) (i lba g : Nat) (l : List Stored) : (layClutches n fn z id0 i lba g l).length = l.length := by
  induction l generalizing i lba g with
  | nil => rfl
  | cons p l ih => simp [layClutches, ih]

theorem Leaves.finishWrite {k : List Part} {s₀ : State} {lba loc : Nat} (h : Leaves k s₀ s) (hk : .cqes ∉ k := by decide) :
    Leaves k s₀ (s.finishWrite c lba loc) := by
  have counted : Leaves k s₀ (s.countIo c) := h.modFn
  unfold State.finishWrite
  exact .ite (counted.finish hk) (.ite (counted.finish hk) (counted.finish hk))

/-- A placement that fills nothing moves write pointer and fill point, and lays its clutches. -/
theorem State.placeZoned_places (hw : (s.zone n z).wp + c.nlb < zoneBlocks)
    (hg : (s.zone n z).fill + sumNat (c.stored.map Stored.gran) < zoneGranules) :
    ((s.placeZoned c n z).zone n z).wp = (s.zone n z).wp + c.nlb ∧
      ((s.placeZoned c n z).zone n z).fill = (s.zone n z).fill + sumNat (c.stored.map Stored.gran) ∧
      (s.placeZoned c n z).clutches.length = s.clutches.length + c.stored.length := by
  unfold State.placeZoned
  extract_lets w parts gran recorded lba key bare laid advanced moved covered old counted placed charged settled
  have short : ¬ moved.wp = zoneBlocks := Nat.ne_of_lt hw
  have loose : ¬ moved.fill = zoneGranules := Nat.ne_of_lt hg
  have unfilled : settled = charged := (if_neg short).trans (if_neg loose)
  have journaled : Leaves [.clutches] s recorded := (Leaves.refl s).journal
  have laidLength : laid.length = c.stored.length := by
    simp only [laid, bare, List.length_map, List.length_zip, layClutches_length, parts, Nat.min_self]
  have ended (loc : Nat) : Leaves [.zones, .clutches] placed (charged.finishWrite c lba loc) := (Leaves.refl placed).modFn.finishWrite
  have zones : placed.zones = (recorded.setZone n.nsid z moved).zones := rfl
  have clutches : placed.clutches = recorded.clutches ++ laid := rfl
  rw [unfilled, State.zone_of_zones ((ended _).zones_eq.trans zones), State.zone_setZone_wp, State.zone_setZone_fill, (ended _).clutches_eq,
    clutches, List.length_append, journaled.clutches_eq, laidLength]
  exact ⟨rfl, rfl, rfl⟩

theorem State.placeInZone_places (hz : c.slba / zoneBlocks = z) (ho : (s.zone n z).state.isOpen = true) (hs : (s.zone n z).stripe.isSome = true)
    (ha : c.slba % zoneBlocks = (s.zone n z).wp) (hw : (s.zone n z).wp + c.nlb < zoneBlocks)
    (hg : (s.zone n z).fill + sumNat (c.stored.map Stored.gran) < zoneGranules) : s.placeInZone c n = s.placeZoned c n z := by
  obtain ⟨notFull, writable, online, used⟩ := ZState.active_ne (ZState.active_of_open ho)
  have checked (w : Bool) : placeCheck (s.zone n z) w (c.slba % zoneBlocks) c.nlb (sumNat (c.stored.map Stored.gran)) = none := by
    unfold placeCheck
    rw [if_neg notFull, if_neg writable, if_neg online, if_neg (by simp [ha]), if_neg (by omega), if_neg (by omega)]
  have opened : s.openChecks n z = .inl s := by simp [State.openChecks, used, ho]
  unfold State.placeInZone
  simp only [hz, checked, opened, hs, if_true]

theorem State.placeInZone_misplaced (hz : c.slba / zoneBlocks = z) (hk : c.kind = .write) (ho : (s.zone n z).state.isActive = true)
    (ha : c.slba % zoneBlocks ≠ (s.zone n z).wp) : s.placeInZone c n = s.finish c .zoneInvalidWrite 0 0 .none := by
  obtain ⟨notFull, writable, online, -⟩ := ZState.active_ne ho
  have checked (g : Nat) : placeCheck (s.zone n z) true (c.slba % zoneBlocks) c.nlb g = some .zoneInvalidWrite := by
    unfold placeCheck
    rw [if_neg notFull, if_neg writable, if_neg online, if_pos (by simp [ha])]
  have unfilled (g : Nat) : placeFills (s.zone n z) true (c.slba % zoneBlocks) c.nlb g = false := by simp [placeFills, ha]
  unfold State.placeInZone
  simp only [hz, hk, decide_true, Bool.true_or, checked, unfilled]
  rfl

/-- A write all of whose clutches stand in the buffer is placed in its zone. -/
theorem execPlacementPoint_zoned {tag : Nat} (hc : s.cmd tag = some c) (hn : s.ns c.nsid = some n) (hz : n.zoned = true)
    (hp : c.atPlacement n = true) (hw : s.placeWaits c = false) : execPlacementPoint tag s = .next (s.placeInZone c n) := by
  unfold execPlacementPoint
  rw [onTag_some s _ hc, hn]
  dsimp only
  rw [if_pos (by simp [hp, hw, hz]), if_pos hz]

end Placement

/-- Settles O4: doorbell, fetch, start, admission and placement each do their step of a write's way. -/
theorem fetchAdmissionAndPlacement : Obligations.FetchAdmissionAndPlacement := by
  unfold Obligations.FetchAdmissionAndPlacement
  refine ⟨⟨fun s fn qid entries q hf hq => execSqDoorbellWrite_pends hf hq, fun s n q hn hq hs => ?_,
    fun s tag c n hc hn hs hw hk hm hp h0 => ?_⟩,
    fun s tag c n hc hn hk hw _ hm => ⟨fun ha => execWriteAdmission_admits hc hn hk hw hm ha,
      fun hb => ⟨s, execWriteAdmission_waits hc hn hk hw hm hb, rfl, fun w => ?_⟩⟩,
    fun s tag c n hc hn hz hp hw hk _ => ⟨fun ho hs ha hb hg => ?_, fun ho ha => ?_⟩⟩
  · change Next (execCommandFetch s) _
    exact execCommandFetch_fetches hn hq hs
  · exact fun room => execCommandStart_places hc hn hs hw hk hm hp h0 rfl room
  · rw [State.viewFn_waittok, State.waitsTokens_of_cmd (State.cmd_mem hc) hk hw hb]
    rfl
  · refine ⟨_, execPlacementPoint_zoned hc hn hz hp hw, ?_⟩
    rw [State.placeInZone_places rfl ho hs ha hb hg]
    exact State.placeZoned_places hb hg
  · refine ⟨_, execPlacementPoint_zoned hc hn hz hp hw, ?_⟩
    rw [State.placeInZone_misplaced rfl hk ho ha]
    have ended : Leaves [.clutches] s (s.finish c .zoneInvalidWrite 0 0 .none) := (Leaves.refl s).finish
    exact ⟨ended.clutches_eq, s.finish_posts (by simp [hk]) _ _ _ _⟩

end Sys2Proof.Machine
end

section

-- Proofs are elaborated in turn: run side by side, each waiting one would hold a thread and its stack.
set_option Elab.async false

namespace Sys2Proof.Machine

open Sys2Proof

/-! ## Namespaces (R46-R50, R66, R317, R318, R351, R372, R532, R533) -/

section Naming

variable {s t : State} {nsid : Nat} {n : Ns}

/-- A namespace read back after a change that keeps its identifier. -/
theorem State.ns_modNs_same (s : State) (nsid : Nat) {g : Ns → Ns} (hg : ∀ m, (g m).nsid = m.nsid) :
    (s.modNs nsid g).ns nsid = (s.ns nsid).map g := by
  have same : ((fun m : Ns => decide (m.nsid = nsid)) ∘ fun m => if m.nsid = nsid then g m else m) = fun m => decide (m.nsid = nsid) := by
    funext m
    by_cases h : m.nsid = nsid <;> simp [h, hg]
  rw [State.ns, State.ns, State.modNs, List.find?_map, same]
  cases h : s.nss.find? fun m => decide (m.nsid = nsid) with
  | none => rfl
  | some m =>
    have own : m.nsid = nsid := by simpa using List.find?_some h
    simp [own]

/-- The namespace among the others, by identifier. -/
theorem mem_insertBy {α : Type} (lt : α → α → Bool) (x : α) (l : List α) : x ∈ insertBy lt x l := by
  induction l with
  | nil => exact List.mem_cons_self
  | cons y l ih =>
    unfold insertBy
    split
    · exact List.mem_cons_self
    · exact List.mem_cons_of_mem _ ih

end Naming

/-! ### Creation (R46, R47, R66, R532) -/

section Creation

variable {s : State} {src : Src} {a : NsArgs}

/-- A creation makes its namespace, of the next generation, and nothing of the others changes. -/
theorem State.makeNs_makes (s : State) (nsid : Nat) (a : NsArgs) :
    (s.makeNs nsid a).xlt.genCounter = s.xlt.genCounter + 1 ∧ (s.makeNs nsid a).cqes = s.cqes ∧
      ∃ m ∈ (s.makeNs nsid a).nss, m.nsid = nsid ∧ m.nsze = a.nsze ∧ m.fmt = a.fmt ∧ m.attached = none ∧ m.gen0 = s.xlt.genCounter + 1 ∧
        (a.csi = 2 → m.zoned = true ∧ m.clutch = clutchBlocks a.clutchCode) ∧ (a.csi = 0 → m.zoned = false ∧ m.clutch = 1) := by
  unfold State.makeNs
  extract_lets g m
  have bound : Leaves [.nss, .gen, .cqes] _ (State.bindHomes { s with
    nss := insertNs m s.nss, xlt := { s.xlt with genCounter := g }, sec := { s.sec with drawn := s.sec.drawn + 1 } } m) :=
    (Leaves.refl _).bindHomes
  refine ⟨bound.gen_eq, bound.cqes_eq, m, bound.nss_eq ▸ mem_insertBy _ _ _, rfl, rfl, rfl, rfl, rfl, fun zoned => ?_, fun conv => ?_⟩
  · exact ⟨decide_eq_true zoned, if_pos zoned⟩
  · have other : ¬ a.csi = 2 := by omega
    exact ⟨decide_eq_false other, if_neg other⟩

theorem execNamespaceManagementCreate_vf (ht : s.takes src .admin = true) (hf : src.fn ≠ 0) :
    Next (execNamespaceManagementCreate src a s) (fun t => t.completes s src .invalidOpcode 0 0 .none ∧ t.nss = s.nss) := by
  rw [execNamespaceManagementCreate, host_takes s _ ht, createNs, if_pos hf]
  exact .intro _ (by simp [State.completes])

theorem execNamespaceManagementCreate_badField (ht : s.takes src .admin = true) (hf : src.fn = 0) (hb : createBad a = true) :
    Next (execNamespaceManagementCreate src a s) (fun t => t.completes s src .invalidField 0 0 .none ∧ t.nss = s.nss) := by
  rw [execNamespaceManagementCreate, host_takes s _ ht, createNs, if_neg (by simp [hf]), if_pos hb]
  exact .intro _ (by simp [State.completes])

theorem execNamespaceManagementCreate_badFormat (ht : s.takes src .admin = true) (hf : src.fn = 0) (hb : createBad a = false)
    (hm : formatBad a.fmt a.dps = true) :
    Next (execNamespaceManagementCreate src a s) (fun t => t.completes s src .invalidFormat 0 0 .none ∧ t.nss = s.nss) := by
  rw [execNamespaceManagementCreate, host_takes s _ ht, createNs, if_neg (by simp [hf]), if_neg (by simp [hb]), if_pos hm]
  exact .intro _ (by simp [State.completes])

theorem execNamespaceManagementCreate_makes {id : Nat} (hi : leastFree ((s.entered src).nss.map (·.nsid)) 1024 1 = id)
    (ht : s.takes src .admin = true) (hf : src.fn = 0) (hb : createBad a = false) (hm : formatBad a.fmt a.dps = false) (h1 : id ≤ 1024)
    (hc : (s.entered src).capacityBad a = false) (hq : (s.entered src).pastQuota 0 1 (if a.csi = 2 then 0 else argZones a) = false)
    (hr : (s.entered src).trngOk = true) :
    Next (execNamespaceManagementCreate src a s) (fun t => t.completes s src .success id 0 .none ∧
      t.xlt.genCounter = s.xlt.genCounter + 1 ∧ ∃ m ∈ t.nss, m.nsid = id ∧ m.nsze = a.nsze ∧ m.fmt = a.fmt ∧ m.attached = none ∧
        m.gen0 = s.xlt.genCounter + 1 ∧ (a.csi = 2 → m.zoned = true ∧ m.clutch = clutchBlocks a.clutchCode) ∧
        (a.csi = 0 → m.zoned = false ∧ m.clutch = 1)) := by
  rw [execNamespaceManagementCreate, host_takes s _ ht, createNs, if_neg (by simp [hf]), if_neg (by simp [hb]), if_neg (by simp [hm]), hi]
  dsimp only
  rw [if_neg (by omega), if_neg (by simp [hc]), if_neg (by simp [hq]), if_neg (by simp [hr])]
  obtain ⟨gen, quiet, made⟩ := (s.entered src).makeNs_makes id a
  rw [State.entered_xlt] at gen made
  refine .intro _ ⟨?_, ?_, ?_⟩
  · rw [State.completes, State.done_cqes, quiet, State.entered_cqes]
  · rwa [State.done_xlt]
  · rwa [State.done_nss]

end Creation

/-! ### Deletion and Format NVM (R48, R66, R372) -/

section Formatting

variable {s : State} {src : Src} {nsid : Nat} {n : Ns}

/-- An identifier other than FFFF_FFFFh names its own namespace. -/
theorem State.named_one (hn : s.ns nsid = some n) (hi : nsid < 0xFFFFFFFF) : s.named nsid = [n] := by
  rw [State.named, if_neg (by omega), hn]
  rfl

theorem State.deleteNs_deletes (s : State) (n : Ns) :
    (s.deleteNs n).ns n.nsid = none ∧ ∀ e ∈ (s.deleteNs n).zones, e.1 / 2 ^ 20 ≠ n.nsid := by
  unfold State.deleteNs
  extract_lets gone cut
  have settled : Leaves [.nss, .zones] cut (cut.settleFlags 0).refreshXlt := (Leaves.refl cut).settleFlags.refreshXlt
  rw [State.ns_of_nss settled.nss_eq, settled.zones_eq]
  exact ⟨List.find?_eq_none.2 fun m hm => by simpa using (List.mem_filter.1 hm).2, fun e he => by simpa using (List.mem_filter.1 he).2⟩

theorem execNamespaceManagementDelete_deletes (ht : s.takes src .admin = true) (hi : nsid < 0xFFFFFFFF) (hn : s.ns nsid = some n)
    (hf : src.fn = 0) :
    Next (execNamespaceManagementDelete src nsid s) (fun t => t.cqes.head? = some (cqeOf src .success 0 0 .none) ∧
      t.ns nsid = none ∧ ∀ e ∈ t.zones, e.1 / 2 ^ 20 ≠ nsid) := by
  have named : (s.entered src).named nsid = [n] := State.named_one ((State.ns_of_nss (s.entered_nss src) nsid).trans hn) hi
  obtain ⟨gone, zones⟩ := (s.entered src).deleteNs_deletes n
  rw [State.ns_nsid hn] at gone zones
  rw [execNamespaceManagementDelete, host_takes s _ ht, if_neg (by simp [hf]), named, if_neg (by simp)]
  refine .intro _ ⟨by simp, ?_, ?_⟩
  · rw [State.ns_of_nss (State.ok_nss _ _)]
    exact gone
  · rw [State.ok_zones]
    exact zones

/-- All its data gone, a namespace is formatted for whoever has it next, and else as it was. -/
theorem State.dropData_ns (s : State) (g : Nat) (n : Ns) :
    (s.dropData g n).ns n.nsid = (s.ns n.nsid).map fun m => { m with formattedFor := true } := by
  unfold State.dropData
  extract_lets off emptied dropped marked
  have same : Leaves [.nss] s dropped := by
    refine .ite ?_ (Leaves.refl s).dropConv
    exact (Leaves.refl s).emptyZones.foldl fun _ _ hu => hu.setZone
  have settled : Leaves [.nss] (dropped.modNs n.nsid fun m => { m with formattedFor := true }) marked.dropEmptySegs.refreshXlt :=
    (Leaves.refl _).dropWorks.dropEmptySegs.refreshXlt
  rw [State.ns_of_nss settled.nss_eq, State.ns_modNs_same, State.ns_of_nss same.nss_eq]
  exact fun _ => rfl

/-- A conventional namespace's clutches are gone with its data. -/
theorem State.dropData_clutches (s : State) (g : Nat) (hz : n.zoned = false) : ∀ c ∈ (s.dropData g n).clutches, c.nsid ≠ n.nsid := by
  unfold State.dropData
  extract_lets off emptied dropped marked
  have conv : dropped = s.dropConv n.nsid := if_neg (by simp [hz])
  have settled : Leaves [.clutches] (s.removeClutches (·.nsid = n.nsid)) marked.dropEmptySegs.refreshXlt := by
    refine .refreshXlt (.dropEmptySegs (.dropWorks (.modNs ?_)))
    rw [conv]
    exact ((Leaves.refl _).foldl fun _ _ hu => hu.releaseStripe).maps
  rw [settled.clutches_eq]
  exact fun c hc => by simpa using (List.mem_filter.1 hc).2

theorem Leaves.newKey {k : List Part} {s₀ : State} (h : Leaves k s₀ s) (hk : .nss ∉ k := by decide) : Leaves k s₀ (s.newKey nsid) := by
  unfold State.newKey
  refine .modNs (.other ?_) hk
  split
  · exact h.zeroSlot
  · exact h

theorem State.newKey_ns (s : State) (nsid : Nat) :
    (s.newKey nsid).ns nsid = (s.ns nsid).map fun m => { m with key := s.sec.drawn, slotReady := false } := by
  unfold State.newKey
  extract_lets drawn zeroed
  have same : zeroed.nss = s.nss := by
    unfold zeroed
    split <;> rfl
  rw [State.ns_modNs_same]
  · exact congrArg _ (State.ns_of_nss same nsid)
  · exact fun _ => rfl

/-- What Format NVM leaves of a namespace: its size; of a conventional one's clutches, none. -/
theorem State.formatNs_formats (g fmt : Nat) (extended newKey : Bool) (hn : s.ns n.nsid = some n) :
    (∃ m, (s.formatNs g n fmt extended newKey).ns n.nsid = some m ∧ m.fmt = fmt ∧ m.extended = extended ∧ m.nsze = n.nsze) ∧
      (n.zoned = false → ∀ c ∈ (s.formatNs g n fmt extended newKey).clutches, c.nsid ≠ n.nsid) := by
  unfold State.formatNs
  extract_lets ready formatted
  have ended : Leaves [.nss] s (s.endNsCmds n.nsid .abortRequested) := (Leaves.refl s).endNsCmds
  have bound : Leaves [.nss, .clutches] ((s.endNsCmds n.nsid .abortRequested).dropData g n) ready := (Leaves.refl _).bindHomes
  have named : formatted.ns n.nsid = some { { n with formattedFor := true } with fmt := fmt, extended := extended } := by
    rw [State.ns_modNs_same, State.ns_of_nss bound.nss_eq, State.dropData_ns, State.ns_of_nss ended.nss_eq, hn]
    · rfl
    · exact fun _ => rfl
  refine ⟨?_, fun hz => ?_⟩
  · split
    · rw [State.newKey_ns, named]
      exact ⟨_, rfl, rfl, rfl, rfl⟩
    · exact ⟨_, named, rfl, rfl, rfl⟩
  · have kept : Leaves [.clutches] ready (if newKey then formatted.newKey n.nsid else formatted) :=
      .ite (Leaves.refl ready).modNs.newKey (Leaves.refl ready).modNs
    rw [kept.clutches_eq, bound.clutches_eq]
    exact State.dropData_clutches _ _ hz

theorem State.formatSet_one {fn : Nat} (hn : s.ns nsid = some n) (hi : nsid < 0xFFFFFFFF) (hf : fn = 0 ∨ n.attached = some fn) :
    s.formatSet fn nsid = [n] := by
  rw [State.formatSet, State.named_one hn hi]
  simpa using hf

theorem execFormatNvm_formats {fmt dps ses : Nat} {extended : Bool} (ht : s.takes src .admin = true) (hi : nsid < 0xFFFFFFFF)
    (hn : s.ns nsid = some n) (hf : src.fn = 0 ∨ n.attached = some src.fn) (hs : ses ≤ 2) (hb : formatBad fmt dps = false)
    (hm : (s.entered src).mode ≠ mReadonly) (hz : (s.entered src).mode ≠ mSanitize) (hr : ses = 0 ∨ (s.entered src).trngOk = true) :
    Next (execFormatNvm src nsid fmt dps extended ses s) (fun t => t.cqes.head? = some (cqeOf src .success 0 0 .none) ∧
      (∃ m, t.ns nsid = some m ∧ m.fmt = fmt ∧ m.extended = extended ∧ m.nsze = n.nsze) ∧
      (n.zoned = false → ∀ c ∈ t.clutches, c.nsid ≠ nsid)) := by
  have known : (s.entered src).ns nsid = some n := (State.ns_of_nss (s.entered_nss src) nsid).trans hn
  have own := State.ns_nsid hn
  have set := State.formatSet_one known hi hf
  have random : ¬ (decide (ses ≠ 0) && !(s.entered src).trngOk) = true := by
    rcases hr with rfl | words
    · simp
    · simp [words]
  have begun : Leaves [.nss] (s.entered src) ((s.entered src).abortTest 4).nextGen := (Leaves.refl _).abortTest.nextGen
  obtain ⟨format, clutches⟩ := State.formatNs_formats (s := ((s.entered src).abortTest 4).nextGen) (n := n)
    ((s.entered src).abortTest 4).nextGen.xlt.genCounter fmt extended (decide (ses ≠ 0))
    ((State.ns_of_nss begun.nss_eq _).trans (own ▸ known))
  rw [own] at format clutches
  rw [execFormatNvm, host_takes s _ ht, formatCmd, set, if_neg (by simp), if_neg (by omega), if_neg (by simp [hb]), if_neg hm, if_neg hz,
    if_neg random, formatAll, set]
  refine .intro _ ⟨by simp, ?_, ?_⟩
  · rw [State.ns_of_nss (State.ok_nss _ _)]
    exact format
  · rw [State.ok_clutches]
    exact clutches

end Formatting

/-- Settles O6: creation, deletion and Format NVM check and change the namespace they name. -/
theorem namespacesCreatedDeletedFormatted : Obligations.NamespacesCreatedDeletedFormatted := by
  unfold Obligations.NamespacesCreatedDeletedFormatted
  exact ⟨fun s src a ht => ⟨fun hf => execNamespaceManagementCreate_vf ht hf, fun hf hb => execNamespaceManagementCreate_badField ht hf hb,
      fun hf hb hm => execNamespaceManagementCreate_badFormat ht hf hb hm,
      fun hf hb hm h1 hc hq hr => execNamespaceManagementCreate_makes rfl ht hf hb hm h1 hc hq hr⟩,
    fun s src nsid n ht hi hn => ⟨fun hf => execNamespaceManagementDelete_deletes ht hi hn hf,
      fun fmt dps extended ses hf hs hb hm hz hr => execFormatNvm_formats ht hi hn hf hs hb hm hz hr⟩⟩

end Sys2Proof.Machine
end

section

-- Proofs are elaborated in turn: run side by side, each waiting one would hold a thread and its stack.
set_option Elab.async false

namespace Sys2Proof.Machine

open Sys2Proof

/-! ### Attachment (R49, R317, R318) -/

section Attachment

variable {s : State} {src : Src} {nsid f : Nat} {n : Ns}

theorem State.entered_ns (hn : s.ns nsid = some n) : (s.entered src).ns nsid = some n := (State.ns_of_nss (s.entered_nss src) nsid).trans hn

/-- An attachment writes the namespace's entry alone. -/
theorem State.attachTo_ns (s : State) (nsid f k : Nat) : (s.attachTo nsid f k).ns nsid =
    (s.ns nsid).map fun m => { m with attached := some f, slot := some k, slotReady := false, lastFn := some f } := by
  unfold State.attachTo
  have settled {t : State} : Leaves [.nss] t ((t.settleFlags 0).settleFlags f) := (Leaves.refl t).settleFlags.settleFlags
  rw [State.ns_of_nss settled.nss_eq, State.ns_modNs_same]
  exact fun _ => rfl

theorem execNamespaceAttach_attaches {k : Nat} (ht : s.takes src .admin = true) (hf : src.fn = 0) (hn : s.ns nsid = some n) (hb : f < fnCount)
    (ha : n.attached = none) (ho : (s.entered src).othersData n f = false) (hg : (s.entered src).assigned f = true)
    (hq : f = 0 ∨ (s.entered src).pastQuota f 1
      (if n.zoned then (((s.entered src).zonesOf nsid).filter (·.2.counts)).length else n.zones) = false)
    (hk : (s.entered src).attachSlot f = some k) :
    Next (execNamespaceAttach src nsid f s) (fun t => t.completes s src .success 0 0 .none ∧
      ∃ m, t.ns nsid = some m ∧ m.attached = some f ∧ m.slot = some k ∧ m.slotReady = false ∧ m.lastFn = some f) := by
  have known := State.entered_ns (src := src) hn
  have within : ¬ (!(s.entered src).assigned f || (decide (f ≠ 0) && (s.entered src).pastQuota f 1
      (if n.zoned then (((s.entered src).zonesOf nsid).filter (·.2.counts)).length else n.zones))) = true := by
    rcases hq with rfl | quota
    · simp [hg]
    · simp [hg, quota]
  rw [execNamespaceAttach, host_takes s _ ht, attachNs, if_neg (by simp [hf]), known]
  dsimp only
  rw [if_neg (by omega), if_neg (by simp [ha]), if_neg (by simp [ha, ho]), if_neg within, hk]
  have quiet : Leaves [.cqes] (s.entered src) ((s.entered src).attachTo nsid f k) := (Leaves.refl _).modNs.settleFlags.settleFlags
  refine .intro _ ⟨?_, { n with attached := some f, slot := some k, slotReady := false, lastFn := some f }, ?_, rfl, rfl, rfl, rfl⟩
  · rw [State.completes, State.ok_cqes, quiet.cqes_eq, State.entered_cqes]
  · rw [State.ns_of_nss (State.ok_nss _ _), State.attachTo_ns, known]
    rfl

theorem execNamespaceAttach_elsewhere {g : Nat} (ht : s.takes src .admin = true) (hf : src.fn = 0) (hn : s.ns nsid = some n) (hb : f < fnCount)
    (ha : n.attached = some g) (hg : g ≠ f) :
    Next (execNamespaceAttach src nsid f s) (fun t => t.completes s src .nsIsPrivate 0 0 .none ∧ t.nss = s.nss) := by
  rw [execNamespaceAttach, host_takes s _ ht, attachNs, if_neg (by simp [hf]), State.entered_ns hn]
  dsimp only
  rw [if_neg (by omega), if_neg (by simp [ha, hg]), if_pos (by simp [ha])]
  exact .intro _ (by simp [State.completes])

/-- The namespace is attached to no function, and no entry of its identifier has a media slot. -/
def State.detached (s : State) (nsid : Nat) : Prop :=
  (∃ m, s.ns nsid = some m ∧ m.attached = none) ∧ ∀ m ∈ s.nss, m.nsid = nsid → m.slot = none

theorem State.detached.of_nss {t : State} (h : s.detached nsid) (ht : t.nss = s.nss) : t.detached nsid := by
  rw [State.detached, State.ns_of_nss ht, ht]
  exact h

theorem State.detached.ite {c : Prop} {d : Decidable c} {t u : State} (ht : t.detached nsid) (hu : u.detached nsid) :
    (if c then t else u).detached nsid := by
  split
  · exact ht
  · exact hu

theorem State.detached.wr {r : Fld} {v : Nat} (h : s.detached nsid) : (s.wr r v).detached nsid := h.of_nss (s.wr_nss r v)

theorem State.detached.modFn {k : Nat} {g : Fn → Fn} (h : s.detached nsid) : (s.modFn k g).detached nsid := h.of_nss rfl

theorem State.detached.modNs {k : Nat} {g : Ns → Ns} (h : s.detached nsid) (hk : k ≠ nsid) (hg : ∀ m, (g m).nsid = m.nsid) :
    (s.modNs k g).detached nsid := by
  obtain ⟨⟨m, hm, ha⟩, slots⟩ := h
  have same : ((fun m : Ns => decide (m.nsid = nsid)) ∘ fun m => if m.nsid = k then g m else m) = fun m => decide (m.nsid = nsid) := by
    funext m
    by_cases own : m.nsid = k <;> simp [own, hg]
  refine ⟨⟨m, ?_, ha⟩, fun x hx own => ?_⟩
  · rw [State.ns, State.modNs, List.find?_map, same, show s.nss.find? _ = some m from hm, Option.map_some, State.ns_nsid hm, if_neg hk.symm]
  · obtain ⟨y, hy, rfl⟩ := List.mem_map.1 hx
    by_cases other : y.nsid = k
    · rw [if_pos other, hg] at own
      exact absurd (other.symm.trans own) hk
    · rw [if_neg other] at own ⊢
      exact slots y hy own

/-- Taking the media slot away detaches. -/
theorem State.detached_of_modNs {m : Ns} (hn : s.ns nsid = some m) :
    (s.modNs nsid fun m => { m with attached := none, slot := none, slotReady := false }).detached nsid := by
  refine ⟨⟨_, by rw [State.ns_modNs_same _ _ (by exact fun _ => rfl), hn]; rfl, rfl⟩, fun x hx own => ?_⟩
  obtain ⟨y, -, rfl⟩ := List.mem_map.1 hx
  by_cases same : y.nsid = nsid
  · rw [if_pos same]
  · rw [if_neg same] at own
    exact absurd own same

theorem mem_of_mem_insertBy {α : Type} {lt : α → α → Bool} {x y : α} {l : List α} (h : y ∈ insertBy lt x l) : y = x ∨ y ∈ l := by
  induction l with
  | nil => simpa [insertBy] using h
  | cons z l ih =>
    unfold insertBy at h
    split at h
    · exact List.mem_cons.1 h
    · rcases List.mem_cons.1 h with rfl | deeper
      · exact .inr List.mem_cons_self
      · exact (ih deeper).imp_right (List.mem_cons_of_mem _)

theorem mem_of_mem_sortBy {α : Type} {lt : α → α → Bool} {y : α} {l : List α} (h : y ∈ sortBy lt l) : y ∈ l := by
  induction l with
  | nil => exact h
  | cons x l ih =>
    rcases mem_of_mem_insertBy h with rfl | deeper
    · exact List.mem_cons_self
    · exact List.mem_cons_of_mem _ (ih deeper)

/-- A function's media slots are those of namespaces that have one. -/
theorem State.detached.mediaSlots (h : s.detached nsid) {e : Nat × Nat} (he : e ∈ s.mediaSlots f) : e.2 ≠ nsid := by
  intro own
  obtain ⟨m, hm, slot⟩ := List.mem_filterMap.1 (mem_of_mem_sortBy he)
  obtain ⟨k, hk, rfl⟩ := Option.map_eq_some_iff.1 slot
  exact absurd (h.2 m (List.mem_filter.1 hm).1 own) (by simp [hk])

theorem State.detached.foldl {α : Type} {g : State → α → State} {l : List α} (h : s.detached nsid)
    (hg : ∀ t, ∀ x ∈ l, t.detached nsid → (g t x).detached nsid) : (l.foldl g s).detached nsid := by
  induction l generalizing s with
  | nil => exact h
  | cons x l ih => exact ih (hg s x List.mem_cons_self h) fun t y hy => hg t y (List.mem_cons_of_mem _ hy)

theorem State.detached.moveMedia {top : Nat} (h : s.detached nsid) : (s.moveMedia f top).detached nsid := by
  refine .foldl (.foldl h fun _ _ _ ht => ht.of_nss rfl) fun t e he ht => ?_
  have moved := ht.modNs (k := e.2.2) (g := fun n =>
    { n with slot := some (top - 1 - e.1), slotReady := n.slotReady && decide (top - 1 - e.1 = e.2.1) })
    (h.mediaSlots (List.of_mem_zip he).2) fun _ => rfl
  dsimp only
  split
  · split
    · exact moved.of_nss rfl
    · exact moved
  · exact moved

theorem State.detached.resizeKeys {new : Nat} (h : s.detached nsid) : (s.resizeKeys f new).detached nsid := by
  unfold State.resizeKeys
  exact .ite (.ite h.wr.modFn h.wr.modFn.moveMedia) h.modFn.wr

theorem State.detached.retryShrink (h : s.detached nsid) : (s.retryShrink f).detached nsid := by
  unfold State.retryShrink
  split
  · exact .ite h.resizeKeys.wr h
  · exact h

theorem State.unattach_detaches (hn : s.ns n.nsid = some n) (ha : n.attached = some f) : (s.unattach n).detached n.nsid := by
  unfold State.unattach
  rw [ha]
  extract_lets zeroed cleared
  have same : zeroed.nss = s.nss := by
    unfold zeroed
    split <;> rfl
  have detached : cleared.detached n.nsid := State.detached_of_modNs ((State.ns_of_nss same _).trans hn)
  exact detached.moveMedia.wr.retryShrink

theorem execNamespaceDetach_detaches (ht : s.takes src .admin = true) (hf : src.fn = 0) (hn : s.ns nsid = some n) (ha : n.attached = some f) :
    Next (execNamespaceDetach src nsid f s) (fun t => t.cqes.head? = some (cqeOf src .success 0 0 .none) ∧
      ∃ m, t.ns nsid = some m ∧ m.attached = none ∧ m.slot = none) := by
  have own := State.ns_nsid hn
  have ended : Leaves [.nss] (s.entered src) ((s.entered src).endNsCmds nsid .invalidNsOrFormat) := (Leaves.refl _).endNsCmds
  have known : ((s.entered src).endNsCmds nsid .invalidNsOrFormat).ns n.nsid = some n := by
    rw [State.ns_of_nss ended.nss_eq, own]
    exact State.entered_ns hn
  have detached := State.unattach_detaches known ha
  rw [own] at detached
  rw [execNamespaceDetach, host_takes s _ ht, detachNs, if_neg (by simp [hf]), State.entered_ns hn]
  dsimp only
  rw [if_neg (by simp [ha])]
  have charged : (((s.entered src).endNsCmds nsid .invalidNsOrFormat).unattach n).chargePf0.detached nsid := detached.wr
  obtain ⟨⟨m, found, none⟩, slots⟩ := charged.of_nss (State.ok_nss _ src)
  exact .intro _ ⟨by simp, m, found, none, slots m (List.mem_of_find?_eq_some found) (State.ns_nsid found)⟩

theorem execNamespaceDetach_refused (ht : s.takes src .admin = true) (hf : src.fn = 0) (hn : s.ns nsid = some n) (ha : n.attached ≠ some f) :
    Next (execNamespaceDetach src nsid f s) (fun t => t.completes s src .nsNotAttached 0 0 .none ∧ t.nss = s.nss) := by
  rw [execNamespaceDetach, host_takes s _ ht, detachNs, if_neg (by simp [hf]), State.entered_ns hn]
  dsimp only
  rw [if_pos ha]
  exact .intro _ (by simp [State.completes])

end Attachment

/-! ### Reload and Identify (R47, R351, R533) -/

section Identify

variable {s : State} {src : Src} {nsid f k : Nat} {n : Ns}

theorem execMediaSlotReload_reloads (hn : s.ns nsid = some n) (ha : n.attached = some f) (hk : n.slot = some k) (hr : n.slotReady = false)
    (hm : (s.aesKey slotMediaKek).isSome = true) :
    Next (execMediaSlotReload nsid s) (fun t => t.slot k = ⟨1, f, srcMedia, Config.drawnKey n.key⟩ ∧
      ∃ m, t.ns nsid = some m ∧ m.slotReady = true) := by
  unfold execMediaSlotReload
  rw [hn]
  simp only [ha, hk]
  rw [if_neg (by simp [hr, Option.isNone_eq_false_iff.2 hm])]
  refine .intro _ ⟨?_, { n with slotReady := true }, ?_, rfl⟩
  · rw [State.slot, State.modNs, State.setSlot, tblGet_set_same]
  · rw [State.ns_modNs_same, State.ns_of_nss (show (s.setSlot k _).nss = s.nss from rfl), hn]
    · rfl
    · exact fun _ => rfl

theorem execIdentifyController_answers (ht : s.takes src .identify = true) :
    Next (execIdentifyController src s) (fun t => ∃ i : IdCtrl, t.completes s src .success 0 0 (.ctrl i) ∧ i.nn = 1024 ∧
      i.mnan = 1024 ∧ i.npss = 4 ∧ i.selfTest = decide (src.fn = 0)) := by
  rw [execIdentifyController, host_takes s _ ht]
  exact .intro _ ⟨(s.entered src).idCtrl src.fn, by simp [State.completes], rfl, rfl, rfl, rfl⟩

theorem execIdentifyNamespace_answers (ht : s.takes src .identify = true) (hn : s.ns nsid = some n)
    (hf : src.fn = 0 ∨ n.attached = some src.fn) :
    Next (execIdentifyNamespace src nsid s) (fun t => ∃ i : IdNs, t.completes s src .success 0 0 (.ns i) ∧ i.nsze = n.nsze ∧
      i.ncap = n.nsze ∧ (n.zoned = true → i.zsze = 2 ^ 21 ∧ i.levelSel = 128 + n.level) ∧ i.nuse ≤ n.nsze) := by
  have seen : ((s.entered src).ns nsid).filter (fun n => src.fn = 0 || n.attached = some src.fn) = some n := by
    rw [State.entered_ns hn]
    simpa using hf
  rw [execIdentifyNamespace, host_takes s _ ht, seen]
  refine .intro _ ⟨nsId n ((s.entered src).free (n.nsze + 1)).1, ?_, rfl, rfl, fun hz => ⟨if_pos hz, if_pos hz⟩, ?_⟩
  · rw [State.completes, State.done_cqes]
    exact congrArg _ (s.entered_cqes src)
  · exact Nat.le_of_lt_succ (Nat.mod_lt _ (Nat.succ_pos _))

end Identify

/-- Settles O7: attachment and detachment move charge and media slot, a reload loads the slot, and Identify answers the namespace's fields. -/
theorem namespacesAttachedAndIdentified : Obligations.NamespacesAttachedAndIdentified := by
  unfold Obligations.NamespacesAttachedAndIdentified
  exact ⟨fun s src nsid f n ht hf hn hb => ⟨fun ha ho hg hq k hk => execNamespaceAttach_attaches ht hf hn hb ha ho hg hq hk,
      fun g ha hg => execNamespaceAttach_elsewhere ht hf hn hb ha hg, fun ha => execNamespaceDetach_detaches ht hf hn ha,
      fun ha => execNamespaceDetach_refused ht hf hn ha⟩,
    fun s nsid f k n hn ha hk hr hm => execMediaSlotReload_reloads hn ha hk hr hm, fun s src ht => execIdentifyController_answers ht,
    fun s src nsid n ht hn hf => execIdentifyNamespace_answers ht hn hf⟩

end Sys2Proof.Machine
end

section

-- Proofs are elaborated in turn: run side by side, each waiting one would hold a thread and its stack.
set_option Elab.async false

namespace Sys2Proof.Machine

open Sys2Proof

/-! ## Landings (R134) -/

section Landings

variable {s : State} {p n k : Nat} {i : Item} {x : Clutch}

theorem State.eft_of_efts {t : State} (h : t.efts = s.efts) (p n : Nat) : t.eft p n = s.eft p n := by rw [State.eft, State.eft, h]

/-- An item that starts leaves the parked ones, scrub or not. -/
theorem State.startItem_parked (i : Item) : ((s.startItem p n i).eft p n).parked = (s.eft p n).parked := by
  have scrubbed : ((s.scrubEft p n).eft p n).parked = (s.eft p n).parked := by
    rw [State.scrubEft, State.eft_of_efts (State.bump_efts _ _ _), State.eft_modEft_same]
    rfl
  unfold State.startItem
  extract_lets t
  have before : (t.eft p n).parked = (s.eft p n).parked := by
    simp only [t]
    split
    · exact scrubbed
    · rfl
  rw [State.eft_of_efts (State.setOwner_efts _), State.eft_modEft_same]
  exact before

/-- The item has left the parked ones, and the bytes rebuilt for its clutch have been taken up. -/
def State.unparked (s : State) (p n k : Nat) (i : Item) : State :=
  let s := s.modEft p n fun e => { e with parked := e.parked.erase i }
  { s with med := { s.med with pieces := s.med.pieces.filter fun e => e.1 ≠ k } }

theorem State.unparked_eft (s : State) (p n k : Nat) (i : Item) :
    (s.unparked p n k i).eft p n = { s.eft p n with parked := (s.eft p n).parked.erase i } :=
  s.eft_modEft_same p n fun e => { e with parked := e.parked.erase i }

/-- Once every page of a parked item's clutch is read, its eft alone decides where the clutch goes. -/
theorem execDieDataLanding_landed (hp : p < 8) (hn : n < 32) (hi : ((s.eft p n).parked.find? fun j => j.ix = k) = some i)
    (hx : s.clutchOf k = some x) (hr : (s.med.ops.any fun o => o.kind = .read && o.unit = k && o.eft = eftKey p n) = false) :
    execDieDataLanding p n k s =
      if (s.eft p n).run.isNone && (s.eft p n).deque.isEmpty then
        .next (((s.unparked p n k i).startItem p n i).modEft p n fun e => { e with regB := some (s.landed x) })
      else
        .next ({ s.unparked p n k i with landing := s.landing ++ [(i.tag, k, s.landed x)] }.pushItem p n { i with resume := true }) := by
  unfold execDieDataLanding onEft
  rw [inRange_lt _ hp, inRange_lt _ hn]
  dsimp only
  rw [hi, hx]
  exact if_neg (ne_true_of_eq_false hr)

theorem execDieDataLanding_idle (hp : p < 8) (hn : n < 32) (hi : ((s.eft p n).parked.find? fun j => j.ix = k) = some i)
    (hx : s.clutchOf k = some x) (hr : (s.med.ops.any fun o => o.kind = .read && o.unit = k && o.eft = eftKey p n) = false)
    (hrun : (s.eft p n).run = none) (hd : (s.eft p n).deque = []) :
    Next (execDieDataLanding p n k s) (fun t => (t.eft p n).run = some i ∧ (t.eft p n).regB = some (s.landed x) ∧
      (t.eft p n).parked = (s.eft p n).parked.erase i) := by
  rw [execDieDataLanding_landed hp hn hi hx hr, if_pos (by rw [hrun, hd]; rfl)]
  refine .intro _ ?_
  rw [State.eft_modEft_same]
  exact ⟨(State.startItem_eft i).2, rfl, (State.startItem_parked i).trans (by rw [State.unparked_eft])⟩

theorem execDieDataLanding_resumes (hp : p < 8) (hn : n < 32) (hi : ((s.eft p n).parked.find? fun j => j.ix = k) = some i)
    (hx : s.clutchOf k = some x) (hr : (s.med.ops.any fun o => o.kind = .read && o.unit = k && o.eft = eftKey p n) = false)
    (hd : (s.eft p n).deque ≠ []) :
    Next (execDieDataLanding p n k s) (fun t => (t.eft p n).deque = (s.eft p n).deque ++ [{ i with resume := true }] ∧
      (t.eft p n).run = (s.eft p n).run) := by
  have busy : ((s.eft p n).run.isNone && (s.eft p n).deque.isEmpty) = false := by simp [hd]
  have here (l : List (Nat × Nat × Stored)) : ({ s.unparked p n k i with landing := l }).eft p n = (s.unparked p n k i).eft p n := rfl
  rw [execDieDataLanding_landed hp hn hi hx hr, if_neg (ne_true_of_eq_false busy)]
  refine .intro _ ?_
  rw [State.pushItem_eft, here, State.unparked_eft]
  exact ⟨rfl, rfl⟩

end Landings

/-! ## The end of a Digest Range (R123, R124, R150) -/

section Digests

variable {s : State} {tag k : Nat} {c : Cmd} {d : Digest}

/-- A finished command has no tag any more. -/
theorem State.finish_cmd (s : State) (c : Cmd) (st : Status) (dw0 dw1 : Nat) (data : Payload) :
    (s.finish c st dw0 dw1 data).cmd c.tag = none := by
  rw [State.cmd, State.finish_cmds]
  simp

/-- What the owner of a Digest Range has absorbed with all that is at hand (R150). -/
def State.absorbed (s : State) (c : Cmd) (d : Digest) : Digest :=
  absorb (s.known.filter fun x => c.targets.contains x.id) (fun lba => s.xlt.unread.contains (c.nsid, lba)) c.slba (c.nlb - d.next) d

/-- The command ends by a completion with this status and content. -/
theorem State.finish_digest (t : State) (hk : c.kind = .digest) (st : Status) (data : Payload) :
    (t.finish c st 0 0 data).cmd c.tag = none ∧ (t.finish c st 0 0 data).cqes.head? = some ⟨c.fn, c.qid, c.cid, st, 0, 0, data, st.dnr⟩ := by
  refine ⟨t.finish_cmd c st 0 0 data, ?_⟩
  rw [State.finish_cqes t (by simp [hk]) (by simp [hk]), List.head?_cons]

theorem execDigestAbsorb_completes (hc : s.cmd tag = some c) (ho : c.owner = some k) (hk : c.kind = .digest)
    (hd : ((s.eft (k / 32) (k % 32)).ctx.find? fun e => e.tag = tag) = some d) (hf : (s.absorbed c d).fail = none)
    (hn : c.nlb ≤ (s.absorbed c d).next) :
    Next (execDigestAbsorb tag s) (fun t => t.cmd tag = none ∧ t.cqes.head? =
      some ⟨c.fn, c.qid, c.cid, .success, 0, 0, .bytes (digestResult c.off c.nlb (s.absorbed c d).unwritten (s.absorbed c d).msg), false⟩) := by
  have own : c.tag = tag := by simpa using List.find?_some hc
  unfold execDigestAbsorb
  rw [onTag_some s _ hc, ho]
  dsimp only
  rw [hd]
  dsimp only
  rw [← State.absorbed, hf]
  dsimp only
  rw [if_pos hn]
  exact .intro _ (own ▸ ((s.countIo c).cancelItems tag).finish_digest hk .success _)

theorem execDigestAbsorb_fails {st : Status} (hc : s.cmd tag = some c) (ho : c.owner = some k) (hk : c.kind = .digest)
    (hd : ((s.eft (k / 32) (k % 32)).ctx.find? fun e => e.tag = tag) = some d) (hf : (s.absorbed c d).fail = some st) :
    Next (execDigestAbsorb tag s) (fun t => t.cmd tag = none ∧
      t.cqes.head? = some ⟨c.fn, c.qid, c.cid, st, 0, 0, .none, st.dnr⟩) := by
  have own : c.tag = tag := by simpa using List.find?_some hc
  unfold execDigestAbsorb
  rw [onTag_some s _ hc, ho]
  dsimp only
  rw [hd]
  dsimp only
  rw [← State.absorbed, hf]
  exact .intro _ (own ▸ (s.cancelItems tag).finish_digest hk st .none)

end Digests

/-! ## Fences and their causes (R158-R160) -/

section Fences

variable {s : State} {p n : Nat}

theorem cause_outside (p : Nat) {n : Nat} (hn : n < 32) : (Fd.EFT_PD_E_STATE_CAUSE p n).outside fenceWords = true :=
  fenced_outside p hn

theorem State.fenceEft_cause {cause : Nat} (hn : n < 32) (hc : cause < 4) (hf : s.fenced p n = false) :
    (s.fenceEft p n cause).rd (Fd.EFT_PD_E_STATE_CAUSE p n) = cause := by
  obtain ⟨t, e, items, -, fence⟩ := s.fenceEft_eq cause hf
  rw [fence, (State.fenceTold_words _ _ _).rd_outside (cause_outside p hn)]
  exact State.rd_wr_fits _ (Fld.narrow_of_bits _) hc

/-- An entry given to any eft leaves what every eft runs. -/
theorem State.pushItem_run (s : State) (a b : Nat) (i : Item) : ((s.pushItem a b i).eft p n).run = (s.eft p n).run := by
  by_cases same : eftKey p n = eftKey a b
  · rw [State.eft, same, ← State.eft, State.pushItem_eft, State.eft, State.eft, same]
  · rw [State.eft, State.pushItem, State.modEft, State.setEft, tblGet_set_other _ _ _ same, ← State.eft]

theorem State.disperse_run (s : State) (a b : Nat) (items : List Item) : ((s.disperse a b items).eft p n).run = (s.eft p n).run := by
  induction items generalizing s with
  | nil => rfl
  | cons i items ih =>
    unfold State.disperse
    split <;> exact (ih _).trans (s.pushItem_run _ _ i)

theorem State.disperse_hlt (s : State) (a b : Nat) (items : List Item) : (s.disperse a b items).hlt = s.hlt := by
  induction items generalizing s with
  | nil => rfl
  | cons i items ih =>
    unfold State.disperse
    split <;> exact ih _

theorem State.refreshHomes_efts (s : State) : s.refreshHomes.efts = s.efts := s.wr_efts _ _
theorem State.refreshHomes_hlt (s : State) : s.refreshHomes.hlt = s.hlt := s.wr_hlt _ _

theorem State.refreshCrit_fences (s : State) : s.refreshCrit.hlt.fences = s.hlt.fences := by
  unfold State.refreshCrit
  extract_lets old new t u fresh
  have copied : u.fences = s.hlt.fences := congrArg Health.fences (s.wr_hlt _ _)
  split
  · rfl
  · split
    · exact copied
    · refine (foldl_same (·.hlt.fences) _ (fun v e => ?_) _ _).trans copied
      split
      · exact congrArg Health.fences (v.raise_hlt _ _)
      · rfl

theorem State.setMode_fences (s : State) (m : Nat) (back : Bool) : (s.setMode m back).hlt.fences = s.hlt.fences := by
  unfold State.setMode
  extract_lets old t u v w
  have moved : u.hlt = s.hlt := by
    simp only [u, t]
    split <;> simp
  have told : w.hlt = s.hlt := by
    simp only [w]
    split
    · exact (foldl_same (·.hlt) _ (fun x n => x.raise_hlt n _) _ _).trans ((u.record_hlt _ _).trans moved)
    · exact (u.record_hlt _ _).trans moved
  split
  · rfl
  · exact w.refreshCrit_fences.trans (congrArg Health.fences told)

theorem State.degrade_fences (s : State) (bit : Nat) : (s.degrade bit).hlt.fences = s.hlt.fences := by
  have noted (v : Nat) : (s.wr Fd.TOP_MODE_DGCAUSE v).hlt.fences = s.hlt.fences := congrArg Health.fences (s.wr_hlt _ _)
  unfold State.degrade
  dsimp only
  split
  · exact (State.setMode_fences _ _ _).trans (noted _)
  · exact noted _

theorem State.ownerFenced_hlt (s : State) (tag : Nat) : (s.ownerFenced tag).hlt = s.hlt := by
  unfold State.ownerFenced
  split
  · rfl
  · split
    · rfl
    · split <;> rfl

theorem State.fenceTold_run (s : State) (cause : Nat) (e : Eft) (items : List Item) : ((s.fenceTold p n cause e items).eft p n).run = none := by
  have stopped : ((s.fenceCounted p n e).eft p n).run = none := by
    have anew : (s.fenceCounted p n e).eft p n =
        { Eft.init with strikeAt := e.strikeAt, runs := e.runs + 1, fencedThisRun := true, back := e.back ++ e.ovf } := s.eft_setEft_same p n _
    rw [anew]
    rfl
  have given : ((((s.fenceCounted p n e).record 0x0301 [p, n, cause]).disperse p n items).refreshHomes.eft p n).run = none := by
    rw [State.eft_of_efts (State.refreshHomes_efts _), State.disperse_run, State.eft_of_efts (State.record_efts _ _ _), stopped]
  unfold State.fenceTold
  dsimp only
  split
  · rw [State.eft_of_efts (State.degrade_efts _ _), given]
  · exact given

theorem State.fenceTold_fences (s : State) (cause : Nat) (e : Eft) (items : List Item) :
    (s.fenceTold p n cause e items).hlt.fences = s.hlt.fences + 1 := by
  have given : (((s.fenceCounted p n e).record 0x0301 [p, n, cause]).disperse p n items).refreshHomes.hlt.fences = s.hlt.fences + 1 := by
    rw [State.refreshHomes_hlt, State.disperse_hlt, State.record_hlt]
    rfl
  unfold State.fenceTold
  dsimp only
  split
  · rw [State.degrade_fences, given]
  · exact given

theorem State.fenceEft_run (cause : Nat) (hf : s.fenced p n = false) : ((s.fenceEft p n cause).eft p n).run = none := by
  obtain ⟨t, e, items, -, fence⟩ := s.fenceEft_eq cause hf
  rw [fence, State.fenceTold_run]

theorem State.fenceEft_fences (cause : Nat) (hf : s.fenced p n = false) : (s.fenceEft p n cause).hlt.fences = s.hlt.fences + 1 := by
  have owners (l : List Nat) : (l.foldl State.ownerFenced s).hlt = s.hlt := foldl_same (·.hlt) _ (fun t tag => t.ownerFenced_hlt tag) l s
  unfold State.fenceEft
  rw [if_neg (ne_true_of_eq_false hf)]
  refine (State.fenceTold_fences _ _ _ _).trans ?_
  rw [State.wr_hlt, State.wr_hlt, owners]

theorem execEftWatchdogExpiry_fences (hp : p < 8) (hn : n < 32) (hf : s.fenced p n = false) (hr : (s.eft p n).run.isSome = true) :
    Next (execEftWatchdogExpiry p n s) (fun t => t.fenced p n = true ∧ t.rd (Fd.EFT_PD_E_STATE_CAUSE p n) = 2 ∧ (t.eft p n).run = none ∧
      t.hlt.fences = s.hlt.fences + 1) := by
  have runs : ¬ (s.eft p n).run.isNone = true := by simp [← Option.isSome_iff_ne_none, hr]
  unfold execEftWatchdogExpiry onEft
  rw [inRange_lt _ hp, inRange_lt _ hn, if_neg runs]
  exact .intro _ ⟨State.fenceEft_fenced 2 hn hf, State.fenceEft_cause hn (by decide) hf, State.fenceEft_run 2 hf, State.fenceEft_fences 2 hf⟩

/-- The command's word names its eft, and has GO set. -/
theorem fenceCmd_word (hp : p < 8) (hn : n < 32) : (2 ^ 31 + 32 * p + n).testBit 31 = true ∧ getBits (2 ^ 31 + 32 * p + n) 7 5 = p ∧
    getBits (2 ^ 31 + 32 * p + n) 4 0 = n := by
  refine ⟨?_, ?_, ?_⟩
  · rw [Nat.testBit_eq_decide_div_mod_eq]
    exact decide_eq_true (by omega)
  · rw [getBits, Nat.shiftRight_eq_div_pow]
    omega
  · rw [getBits, Nat.shiftRight_eq_div_pow]
    omega

theorem execEftFenceCmd_fences {r : Nat} (hp : p < 8) (hn : n < 32) (hf : s.fenced p n = false) (hw : s.writable r Reg.EFT_FENCE_CMD = true) :
    Next (execEftFenceCmd r (2 ^ 31 + 32 * p + n) s) (fun t => t.fenced p n = true ∧ t.rd (Fd.EFT_PD_E_STATE_CAUSE p n) = 3 ∧
      (t.eft p n).run = none) := by
  obtain ⟨go, pond, eft⟩ := fenceCmd_word hp hn
  have fence : fenceCmd (2 ^ 31 + 32 * p + n) s = s.fenceEft p n 3 := by
    unfold fenceCmd
    rw [go, pond, eft, hf]
    rfl
  rw [execEftFenceCmd, winWrite_reached _ _ hw, fence]
  exact .intro _ ⟨State.fenceEft_fenced 3 hn hf, State.fenceEft_cause hn (by decide) hf, State.fenceEft_run 3 hf⟩

end Fences

/-- Settles O33: landed data goes to region B or to the landing area with a resume entry, a Digest Range ends with what its blocks decide, and
both fences show their cause. -/
theorem landingsDigestsAndFences : Obligations.LandingsDigestsAndFences := by
  unfold Obligations.LandingsDigestsAndFences
  exact fun s => ⟨fun p n k i x hp hn hi hx hr => ⟨execDieDataLanding_idle hp hn hi hx hr, execDieDataLanding_resumes hp hn hi hx hr⟩,
    fun tag c k d hc ho hk hd => ⟨execDigestAbsorb_completes hc ho hk hd, fun st => execDigestAbsorb_fails hc ho hk hd⟩,
    fun p n hp hn hf => ⟨execEftWatchdogExpiry_fences hp hn hf, fun r => execEftFenceCmd_fences hp hn hf⟩⟩

end Sys2Proof.Machine
end

section

-- Proofs are elaborated in turn: run side by side, each waiting one would hold a thread and its stack.
set_option Elab.async false

namespace Sys2Proof.Machine

open Sys2Proof

/-! ## Commands that are abandoned (R106, R107, R307, R335) -/

section Abandoning

variable {s₀ s t : State}

/-- Commands and what waits for them have gone, and zones have closed: nothing else differs. -/
def LetsGo (s t : State) : Prop :=
  ∃ cmds kept landing efts dzl zones quiesce waits attests, t =
    { s with cmds := cmds, kept := kept, landing := landing, efts := efts, dzl := dzl, zones := zones, quiesce := quiesce,
             sec := { s.sec with trngWaits := waits, attests := attests } }

theorem LetsGo.refl (s : State) : LetsGo s s := ⟨_, _, _, _, _, _, _, _, _, rfl⟩

theorem LetsGo.trans (h : LetsGo s₀ s) (ht : LetsGo s t) : LetsGo s₀ t := by
  obtain ⟨_, _, _, _, _, _, _, _, _, rfl⟩ := h
  obtain ⟨_, _, _, _, _, _, _, _, _, rfl⟩ := ht
  exact ⟨_, _, _, _, _, _, _, _, _, rfl⟩

/-- One more change of those fields. -/
theorem LetsGo.step {cmds kept landing efts dzl zones quiesce waits attests} (h : LetsGo s₀ s) :
    LetsGo s₀ { s with cmds := cmds, kept := kept, landing := landing, efts := efts, dzl := dzl, zones := zones, quiesce := quiesce,
                       sec := { s.sec with trngWaits := waits, attests := attests } } :=
  h.trans ⟨_, _, _, _, _, _, _, _, _, rfl⟩

section Fields

variable (h : LetsGo s t)
include h

theorem LetsGo.regs_eq : t.regs = s.regs := by obtain ⟨_, _, _, _, _, _, _, _, _, rfl⟩ := h; rfl
theorem LetsGo.cqes_eq : t.cqes = s.cqes := by obtain ⟨_, _, _, _, _, _, _, _, _, rfl⟩ := h; rfl
theorem LetsGo.fns_eq : t.fns = s.fns := by obtain ⟨_, _, _, _, _, _, _, _, _, rfl⟩ := h; rfl
theorem LetsGo.clutches_eq : t.clutches = s.clutches := by obtain ⟨_, _, _, _, _, _, _, _, _, rfl⟩ := h; rfl
theorem LetsGo.boot_eq : t.boot = s.boot := by obtain ⟨_, _, _, _, _, _, _, _, _, rfl⟩ := h; rfl

end Fields

theorem LetsGo.foldl {α : Type} {g : State → α → State} {l : List α} (h : LetsGo s₀ s) (hg : ∀ u x, LetsGo s₀ u → LetsGo s₀ (g u x)) :
    LetsGo s₀ (l.foldl g s) := by
  induction l generalizing s with
  | nil => exact h
  | cons x l ih => exact ih (hg _ x h)

theorem LetsGo.sendFrame {f : Frame} (h : LetsGo s₀ s) : LetsGo s₀ (s.sendFrame f) := by
  unfold State.sendFrame
  dsimp only
  split
  · exact h.step
  · exact h.step

theorem LetsGo.sendRouted {type dest flags tag : Nat} {b : Bytes} (h : LetsGo s₀ s) : LetsGo s₀ (s.sendRouted type dest flags tag b).2 := by
  unfold State.sendRouted
  split
  · exact h
  · exact h.sendFrame

theorem LetsGo.modOut {tag : Nat} {g : PeerOut → PeerOut} (h : LetsGo s₀ s) : LetsGo s₀ (s.modOut tag g) := h.step

theorem LetsGo.sendPread {o : PeerOut} (h : LetsGo s₀ s) : LetsGo s₀ (s.sendPread o) := by
  unfold State.sendPread
  extract_lets r
  have sent : LetsGo s₀ r.2 := by
    simp only [r]
    split
    · exact h.sendRouted
    · exact h
  split
  · exact sent.modOut.step
  · exact h.modOut

theorem LetsGo.sendOuts {n : Nat} (h : LetsGo s₀ s) : LetsGo s₀ (State.sendOuts n s) := by
  induction n generalizing s with
  | zero => exact h
  | succ n ih =>
    unfold State.sendOuts
    split
    · exact h
    · split
      · exact h
      · exact ih h.sendPread

theorem LetsGo.dropOuts {tag : Nat} (h : LetsGo s₀ s) : LetsGo s₀ (s.dropOuts tag) := h.step.sendOuts

theorem LetsGo.cancelItems {tag : Nat} (h : LetsGo s₀ s) : LetsGo s₀ (s.cancelItems tag) := h.step

theorem LetsGo.dropCmd {tag : Nat} (h : LetsGo s₀ s) : LetsGo s₀ (s.dropCmd tag) := h.step

theorem LetsGo.peerAnswer {i : PeerIn} {st : Status} {b : Bytes} (h : LetsGo s₀ s) : LetsGo s₀ (s.peerAnswer i st b) := by
  unfold State.peerAnswer
  split
  · exact h.step.modOut
  · exact (h.step.foldl fun _ _ hu => hu.sendRouted).sendRouted.step

theorem LetsGo.peerEnd {c : Cmd} {st : Status} {data : Payload} (h : LetsGo s₀ s) : LetsGo s₀ (s.peerEnd c st data) := by
  unfold State.peerEnd
  split
  · exact h
  · exact h.peerAnswer

theorem LetsGo.abandonCmd {c : Cmd} (h : LetsGo s₀ s) : LetsGo s₀ (s.abandonCmd c) := h.dropOuts.cancelItems.dropCmd

theorem State.abandonCmd_cmds (s : State) (c : Cmd) : (s.abandonCmd c).cmds = s.cmds.filter fun d => d.tag ≠ c.tag := by
  rw [← s.dropOuts_cmds c.tag]
  rfl

/-- How a command of a function ends with its reset: a peer read with an answer, another one with none. -/
def State.endUnanswered (s : State) (c : Cmd) : State :=
  if c.kind = .peer then (s.cancelItems c.tag).finish c .commandInterrupted 0 0 .none else s.abandonCmd c

theorem LetsGo.endUnanswered {c : Cmd} (h : LetsGo s₀ s) : LetsGo s₀ (s.endUnanswered c) := by
  unfold State.endUnanswered
  split
  · rename_i peer
    rw [State.finish, if_pos peer]
    exact h.cancelItems.dropCmd.peerEnd
  · exact h.abandonCmd

theorem State.endUnanswered_cmds (s : State) (c : Cmd) : (s.endUnanswered c).cmds = s.cmds.filter fun d => d.tag ≠ c.tag := by
  unfold State.endUnanswered
  split
  · exact (s.cancelItems c.tag).finish_cmds c _ _ _ _
  · exact s.abandonCmd_cmds c

/-- What is left once each of some commands has gone under its tag. -/
theorem State.mem_cmds_foldl {g : State → Cmd → State} (hg : ∀ u c, (g u c).cmds = u.cmds.filter fun d => d.tag ≠ c.tag) {d : Cmd} (l : List Cmd)
    (s : State) (hd : d ∈ (l.foldl g s).cmds) : d ∈ s.cmds ∧ ∀ c ∈ l, d.tag ≠ c.tag := by
  induction l generalizing s with
  | nil => exact ⟨hd, by simp⟩
  | cons x l ih =>
    obtain ⟨left, others⟩ := ih _ hd
    rw [hg, List.mem_filter, decide_eq_true_eq] at left
    exact ⟨left.1, by simpa using ⟨left.2, others⟩⟩

/-- Of the commands that have gone none is left. -/
theorem State.not_mem_dropped {g : State → Cmd → State} (hg : ∀ u c, (g u c).cmds = u.cmds.filter fun d => d.tag ≠ c.tag) {p : Cmd → Bool}
    {d : Cmd} (hd : d ∈ ((s.cmds.filter p).foldl g s).cmds) : p d = false := by
  obtain ⟨had, others⟩ := State.mem_cmds_foldl hg _ s hd
  by_contra gone
  exact others d (List.mem_filter.2 ⟨had, by simpa using gone⟩) rfl

theorem State.abandonFn_letsGo (s : State) (f : Nat) : LetsGo s (s.abandonFn f) := by
  have ended : LetsGo s ((s.cmds.filter fun c => c.fn = f).foldl State.endUnanswered s) := (LetsGo.refl s).foldl fun _ _ hu => hu.endUnanswered
  exact ended.step

theorem State.abandonFn_cmds {f : Nat} {c : Cmd} (hc : c ∈ (s.abandonFn f).cmds) : c.fn ≠ f := by
  have gone := State.not_mem_dropped (g := State.endUnanswered) (p := fun c => c.fn = f) State.endUnanswered_cmds hc
  simpa using gone

end Abandoning

/-! ## A function's reset (R89, R107, R335) -/

section Resets

variable {s : State} {f g : Nat}

theorem State.closeZones_letsGo (s : State) (p : Ns → Bool) : LetsGo s (s.closeZones p) :=
  (LetsGo.refl s).foldl fun _ _ hu => hu.foldl fun _ _ hv => hv.step

theorem State.closeZones_cmds (s : State) (p : Ns → Bool) : (s.closeZones p).cmds = s.cmds := by
  unfold State.closeZones
  refine foldl_same (·.cmds) _ (fun t n => ?_) _ _
  exact foldl_same (·.cmds) _ (fun u z => u.setZone_cmds _ _ _) _ _

theorem State.resetFn_fn_same (s : State) (f : Nat) : (s.resetFn f).fn f = (s.fn f).reset := by
  rw [State.resetFn, State.fn_of_fns (State.closeZones_letsGo _ _).fns_eq, State.fn_modFn_same, State.fn_of_fns (s.abandonFn_letsGo f).fns_eq]

theorem State.resetFn_fn_other (s : State) (h : g ≠ f) : (s.resetFn f).fn g = s.fn g := by
  rw [State.resetFn, State.fn_of_fns (State.closeZones_letsGo _ _).fns_eq, State.fn_modFn_other _ _ _ h, State.fn_of_fns (s.abandonFn_letsGo f).fns_eq]

theorem State.resetFn_regs (s : State) (f : Nat) : (s.resetFn f).regs = s.regs :=
  (State.closeZones_letsGo _ _).regs_eq.trans (s.abandonFn_letsGo f).regs_eq

theorem State.resetFn_boot (s : State) (f : Nat) : (s.resetFn f).boot = s.boot :=
  (State.closeZones_letsGo _ _).boot_eq.trans (s.abandonFn_letsGo f).boot_eq

theorem State.resetFn_cmds {c : Cmd} (hc : c ∈ (s.resetFn f).cmds) : c.fn ≠ f := by
  rw [State.resetFn, State.closeZones_cmds] at hc
  exact State.abandonFn_cmds (s := s) hc

/-! ### The end of its hash session -/

theorem State.setHe_regs (s : State) (n : Nat) (e : HashEngine) : (s.setHe n e).regs = s.regs := rfl

/-- The registers of a hash engine. -/
def engineWords (n : Nat) : List Nat := [Reg.SEC_HE_CTL n, Reg.SEC_HE_STATUS n]

/-- An engine that is cleared writes its own registers. -/
theorem State.heClear_words (s : State) (n : Nat) : s.sameWords (s.heClear n) (· ∈ engineWords n) := by
  have ctl : Reg.SEC_HE_CTL n ∈ engineWords n := List.mem_cons_self
  have status : Reg.SEC_HE_STATUS n ∈ engineWords n := List.mem_cons_of_mem _ List.mem_cons_self
  unfold State.heClear
  extract_lets t u
  have released : s.sameWords t (· ∈ engineWords n) :=
    (((State.sameWords.refl s _).wr ctl (.inl (by decide : 31 < 32))).wr ctl (.inl (by decide : 20 < 32))).wr ctl (.inl (by decide : 11 < 32))
  have cleared : s.sameWords u (· ∈ engineWords n) :=
    ((released.wr ctl (.inl (by decide : 9 < 32))).wr status (.inl (by decide : 31 < 32))).wr status (.inl (by decide : 30 < 32))
  exact (cleared.of_regs (u.setHe_regs n (heDefault n))).fields

/-- An engine's registers lie behind those of the functions. -/
theorem State.heClear_rd (s : State) (n : Nat) {r m l : Nat} (hr : r < 0x2001000) (hm : m < 32) : (s.heClear n).rd ⟨r, m, l⟩ = s.rd ⟨r, m, l⟩ := by
  refine (s.heClear_words n).rd_outside ?_
  have ctl : r ≠ 0x2001000 + 0x100 * n := by omega
  have status : r ≠ 0x2001004 + 0x100 * n := by omega
  simp [Fld.outside, engineWords, Reg.SEC_HE_CTL, Reg.SEC_HE_STATUS, ctl, status, hm]

theorem State.endSession_rd (s : State) (f : Nat) {r m l : Nat} (hr : r < 0x2001000) (hm : m < 32) :
    (s.endSession f).rd ⟨r, m, l⟩ = s.rd ⟨r, m, l⟩ := by
  unfold State.endSession
  split
  · exact s.heClear_rd _ hr hm
  · rfl

theorem State.endSession_fns (s : State) (f : Nat) : (s.endSession f).fns = s.fns := by
  unfold State.endSession
  split
  · simp [State.heClear, State.setHe]
  · rfl

theorem State.endSession_cmds (s : State) (f : Nat) : (s.endSession f).cmds = s.cmds := by
  unfold State.endSession
  split
  · simp [State.heClear, State.setHe]
  · rfl

theorem State.endSession_boot (s : State) (f : Nat) : (s.endSession f).boot = s.boot := by
  unfold State.endSession
  split
  · simp [State.heClear, State.setHe]
  · rfl

theorem State.endSession_slot (s : State) (f k : Nat) : (s.endSession f).slot k = s.slot k := by
  unfold State.endSession
  split
  · simp [State.heClear, State.setHe, State.slot]
  · rfl

/-! ### Its keys -/

theorem tblGet_filter_gone {α : Type} {d : Nat → α} {q : Nat × α → Bool} {k : Nat} (t : List (Nat × α)) (hq : ∀ v, q (k, v) = false) :
    tblGet d (t.filter q) k = d k := by
  induction t with
  | nil => rfl
  | cons e t ih =>
    obtain ⟨i, v⟩ := e
    by_cases keep : q (i, v) = true
    · have other : i ≠ k := by
        rintro rfl
        rw [hq] at keep
        exact Bool.false_ne_true keep
      rw [List.filter_cons_of_pos keep, tblGet, if_neg other, ih]
    · rw [List.filter_cons_of_neg keep, ih]

/-- Every slot of the function's range is empty. -/
theorem State.evictKeys_slot (s : State) (f : Nat) {k : Nat} (hl : s.rd (Fd.VFM_FN_KEYS_BASE f) ≤ k)
    (hu : k < s.rd (Fd.VFM_FN_KEYS_BASE f) + s.rd (Fd.VFM_FN_KEYS_SLOTS f)) : (s.evictKeys f).slot k = slotDefault k :=
  tblGet_filter_gone s.sec.slots fun v => by simp [hl, hu]

theorem State.evictKeys_rd (s : State) (f : Nat) (g : Fld) : (s.evictKeys f).rd g = s.rd g := rfl

/-! ### How it begins -/

/-- The function has been reset, and the rest of its reset runs. -/
def State.resetRuns (s : State) (f : Nat) : State :=
  ((s.resetFn f).modFn f fun g => { g with resetting := true }).wr (Fd.VFM_FN_STATE_RESET f) 1

theorem State.beginReset_eq (s : State) (f : Nat) : s.beginReset f = ((s.resetRuns f).evictKeys f).endSession f := rfl

theorem State.beginReset_fns (s : State) (f : Nat) : (s.beginReset f).fns = ((s.resetFn f).modFn f fun g => { g with resetting := true }).fns := by
  rw [State.beginReset_eq, State.endSession_fns]
  exact State.wr_fns _ _ _

theorem State.beginReset_fn_same (s : State) (f : Nat) : (s.beginReset f).fn f = { (s.fn f).reset with resetting := true } := by
  rw [State.fn_of_fns (s.beginReset_fns f), State.fn_modFn_same, State.resetFn_fn_same]

theorem State.beginReset_fn_other (s : State) (h : g ≠ f) : (s.beginReset f).fn g = s.fn g := by
  rw [State.fn_of_fns (s.beginReset_fns f), State.fn_modFn_other _ _ _ h, State.resetFn_fn_other _ h]

theorem State.beginReset_boot (s : State) (f : Nat) : (s.beginReset f).boot = s.boot := by
  rw [State.beginReset_eq, State.endSession_boot]
  exact (State.wr_boot _ _ _).trans (s.resetFn_boot f)

theorem State.beginReset_cmds {c : Cmd} (hc : c ∈ (s.beginReset f).cmds) : c.fn ≠ f := by
  have same : (s.beginReset f).cmds = (s.resetFn f).cmds := by
    rw [State.beginReset_eq, State.endSession_cmds]
    exact State.wr_cmds _ _ _
  exact State.resetFn_cmds (s := s) (same ▸ hc)

theorem VFM_FN_STATE_lt {n : Nat} (hn : n < fnCount) : Reg.VFM_FN_STATE n < 0x2001000 := by
  unfold fnCount at hn
  unfold Reg.VFM_FN_STATE
  omega

theorem State.beginReset_bit (s : State) (hf : f < fnCount) : (s.beginReset f).rd (Fd.VFM_FN_STATE_RESET f) = 1 := by
  rw [State.beginReset_eq, Fd.VFM_FN_STATE_RESET, State.endSession_rd _ _ (VFM_FN_STATE_lt hf) (by decide), State.evictKeys_rd, State.resetRuns]
  exact State.rd_wr_fits _ (Fld.narrow_of_bits _) Nat.one_lt_two

/-- The reset bit is none of the function's key range. -/
theorem State.resetRuns_keys (s : State) (f : Nat) (m l : Nat) (hm : m < 32) :
    (s.resetRuns f).rd ⟨Reg.VFM_FN_KEYS f, m, l⟩ = s.rd ⟨Reg.VFM_FN_KEYS f, m, l⟩ := by
  have apart : (Fd.VFM_FN_STATE_RESET f).apart ⟨Reg.VFM_FN_KEYS f, m, l⟩ = true := by
    simp [Fld.apart, Fd.VFM_FN_STATE_RESET, Reg.VFM_FN_STATE, Reg.VFM_FN_KEYS, hm]
  exact (State.rd_wr_apart _ _ apart).trans (State.rd_of_regs (s.resetFn_regs f) _)

theorem State.beginReset_slot (s : State) (f : Nat) {k : Nat} (hl : s.rd (Fd.VFM_FN_KEYS_BASE f) ≤ k)
    (hu : k < s.rd (Fd.VFM_FN_KEYS_BASE f) + s.rd (Fd.VFM_FN_KEYS_SLOTS f)) : ((s.beginReset f).slot k).kind = 0 := by
  have base : (s.resetRuns f).rd (Fd.VFM_FN_KEYS_BASE f) = s.rd (Fd.VFM_FN_KEYS_BASE f) := s.resetRuns_keys f _ _ (by decide)
  have slots : (s.resetRuns f).rd (Fd.VFM_FN_KEYS_SLOTS f) = s.rd (Fd.VFM_FN_KEYS_SLOTS f) := s.resetRuns_keys f _ _ (by decide)
  rw [State.beginReset_eq, State.endSession_slot, State.evictKeys_slot _ _ (by rw [base]; exact hl) (by rw [base, slots]; exact hu)]
  rfl

end Resets

/-! ## The commands of enable and reset (R89, R106, R107, R335, R525) -/

section Commands

variable {s : State} {f : Nat}

theorem State.hostTouch_awake (h : s.asleep = false) : s.hostTouch = s := if_neg (ne_true_of_eq_false h)

theorem State.reaches_host (h : s.reaches f = true) : s.hostReaches = true := by
  rw [State.reaches, Bool.and_eq_true] at h
  exact h.1

theorem State.runPending_none (h : s.boot.pendingSlot = none) : s.runPending = s := by
  rw [State.runPending, h]

/-- The end of a self-test leaves the functions, the commands and what the start keeps beside the test. -/
theorem State.abortTest_keeps (s : State) (result : Nat) : (s.abortTest result).fns = s.fns ∧ (s.abortTest result).cmds = s.cmds ∧
    (s.abortTest result).boot = { s.boot with selfTest := (s.abortTest result).boot.selfTest } := by
  unfold State.abortTest State.endTest
  split <;> exact ⟨rfl, rfl, rfl⟩

theorem State.stopEfts_keeps (s : State) (f : Nat) : (s.stopEfts f).fns = s.fns ∧ (s.stopEfts f).cmds = s.cmds ∧ (s.stopEfts f).boot = s.boot := by
  unfold State.stopEfts
  refine ⟨foldl_same (·.fns) _ (fun t e => ?_) _ _, foldl_same (·.cmds) _ (fun t e => ?_) _ _, foldl_same (·.boot) _ (fun t e => ?_) _ _⟩
  · exact State.bump_fns _ _ _
  · exact State.bump_cmds _ _ _
  · exact State.bump_boot _ _ _

theorem execCcEnSet_enables (hf : f < fnCount) (hr : s.reaches f = true) (ha : s.asleep = false) (ams : Nat) (he : (s.fn f).en = false)
    (hg : (s.fn f).resetting = false) (hc : (s.fn f).cfs = false) :
    Next (execCcEnSet f s ams) (fun t => (t.fn f).en = true ∧ (t.fn f).rdy = s.mayReady f ∧ (t.fn f).ams = (if ams = 1 then 1 else 0) ∧
      ∀ g, g ≠ f → t.fn g = s.fn g) := by
  unfold execCcEnSet
  rw [onFn_lt _ hf, if_neg (by simp [hr, he]), State.hostTouch_awake ha]
  refine .intro _ ⟨?_, ?_, ?_, fun g hg => State.fn_modFn_other _ _ _ hg⟩
  · rw [State.fn_modFn_same]
  · rw [State.fn_modFn_same, hg, hc, Bool.not_false, Bool.and_true, Bool.and_true]
  · rw [State.fn_modFn_same]

theorem execCcEnClearPf0_abandons (hr : s.hostReaches = true) (ha : s.asleep = false) (he : (s.fn 0).en = true)
    (hp : s.boot.pendingSlot = none) :
    Next (execCcEnClearPf0 s) (fun t => (t.fn 0).en = false ∧ (t.fn 0).rdy = false ∧ ∀ c ∈ t.cmds, c.fn = 0 → c.kind = .peer) := by
  obtain ⟨stoppedFns, stoppedCmds, stoppedBoot⟩ := (s.resetFn 0).stopEfts_keeps 0
  obtain ⟨fns, cmds, boot⟩ := ((s.resetFn 0).stopEfts 0).abortTest_keeps 2
  have idle : (((s.resetFn 0).stopEfts 0).abortTest 2).boot.pendingSlot = none := by
    rw [boot, stoppedBoot, State.resetFn_boot, ← hp]
  have off : (((s.resetFn 0).stopEfts 0).abortTest 2).fn 0 = (s.fn 0).reset := by
    rw [State.fn_of_fns fns, State.fn_of_fns stoppedFns, State.resetFn_fn_same]
  unfold execCcEnClearPf0
  rw [if_neg (by simp [hr, he]), State.hostTouch_awake ha, State.runPending_none idle]
  refine .intro _ ⟨by rw [off]; rfl, by rw [off]; rfl, fun c hc own => absurd own ?_⟩
  rw [cmds, stoppedCmds] at hc
  exact State.resetFn_cmds hc

theorem execVfReset_begins (hf : f < fnCount) (hr : s.reaches f = true) (ha : s.asleep = false) (h0 : f ≠ 0) :
    Next (execVfReset f s) (fun t => (t.fn f).en = false ∧ (t.fn f).rdy = false ∧ (t.fn f).resetting = true ∧
      t.rd (Fd.VFM_FN_STATE_RESET f) = 1 ∧ (t.fn f).sqs = Fn.init.sqs ∧ (∀ c ∈ t.cmds, c.fn = f → c.kind = .peer) ∧
      ∀ k, s.rd (Fd.VFM_FN_KEYS_BASE f) ≤ k → k < s.rd (Fd.VFM_FN_KEYS_BASE f) + s.rd (Fd.VFM_FN_KEYS_SLOTS f) → (t.slot k).kind = 0) := by
  unfold execVfReset
  rw [onFn_lt _ hf, if_neg h0, if_neg (by simp [hr]), State.hostTouch_awake ha]
  refine .intro _ ?_
  rw [State.beginReset_fn_same]
  exact ⟨rfl, rfl, rfl, s.beginReset_bit hf, rfl, fun c hc own => absurd own (State.beginReset_cmds hc), fun k => s.beginReset_slot f⟩

/-- Every function of a list is reset, whatever the others' resets do. -/
theorem State.foldl_beginReset (l : List Nat) (s : State) : ∀ f, f ∈ l ∨ ((s.fn f).en = false ∧ (s.fn f).resetting = true) →
    ((l.foldl (fun (s : State) f => s.beginReset f) s).fn f).en = false ∧ ((l.foldl (fun (s : State) f => s.beginReset f) s).fn f).resetting = true := by
  induction l generalizing s with
  | nil => simp
  | cons x l ih =>
    intro f h
    refine ih _ f ?_
    by_cases e : f = x
    · rw [e, State.beginReset_fn_same]
      exact .inr ⟨rfl, rfl⟩
    · rw [State.beginReset_fn_other _ e]
      exact h.imp_left (List.mem_of_ne_of_mem e)

theorem execPf0Flr_resets (hr : s.hostReaches = true) (ha : s.asleep = false) (hh : s.boot.fwHang = false) (hp : s.boot.pendingSlot = none)
    (hf : f ∈ s.allFns) :
    Next (execPf0Flr s) (fun t => (t.fn f).en = false ∧ (t.fn f).resetting = true ∧ t.boot.vfEnable = false ∧ t.boot.memSpace = false ∧
      t.boot.bar2 = 0) := by
  obtain ⟨fns, -, boot⟩ := (s.allFns.foldl (fun (s : State) f => s.beginReset f) s).abortTest_keeps 2
  obtain ⟨en, resetting⟩ := State.foldl_beginReset s.allFns s f (.inl hf)
  rw [← State.fn_of_fns fns] at en resetting
  have kept : (s.allFns.foldl (fun (s : State) f => s.beginReset f) s).boot = s.boot :=
    foldl_same (·.boot) _ (fun t f => t.beginReset_boot f) _ _
  have idle : ((s.allFns.foldl (fun (s : State) f => s.beginReset f) s).abortTest 2).boot.pendingSlot = none := by rw [boot, kept, ← hp]
  unfold execPf0Flr
  rw [if_neg (by simp [hr]), State.hostTouch_awake ha, hh]
  dsimp only
  generalize (s.allFns.foldl (fun (s : State) f => s.beginReset f) s).abortTest 2 = t at en resetting idle
  rw [if_neg Bool.false_ne_true, State.runPending_none]
  · exact .intro _ ⟨en, resetting, rfl, rfl, rfl⟩
  · exact idle

theorem execFunctionResetComplete_ends (hf : f < fnCount) (hg : (s.fn f).resetting = true) :
    Next (execFunctionResetComplete f s) (fun t => (t.fn f).resetting = false ∧ (t.fn f).en = (s.fn f).en ∧ (t.fn f).bal = 0 ∧
      t.rd (Fd.VFM_FN_STATE_RESET f) = 0) := by
  unfold execFunctionResetComplete
  rw [onFn_lt _ hf, if_neg (by simp [hg])]
  refine .intro _ ?_
  rw [State.fn_modFn_same, State.wr_fn, State.fn_of_fns (s.stopEfts_keeps f).1, State.modFn_rd]
  exact ⟨rfl, rfl, rfl, State.rd_wr_fits _ (Fld.narrow_of_bits _) Nat.two_pos⟩

end Commands

/-! ## Shutdown notifications (R109, R178) -/

section Shutdown

variable {s : State} {f : Nat}

theorem mem_of_tblGet_ne {α : Type} {d : Nat → α} {k : Nat} (t : List (Nat × α)) (h : tblGet d t k ≠ d k) : (k, tblGet d t k) ∈ t := by
  induction t with
  | nil => exact absurd rfl h
  | cons e t ih =>
    obtain ⟨i, v⟩ := e
    by_cases own : i = k
    · simp [tblGet, own]
    · rw [tblGet, if_neg own] at h ⊢
      exact List.mem_cons_of_mem _ (ih h)

/-- The functions whose notification is in progress and that have no command outstanding. -/
def State.quiet (s : State) : List Nat :=
  (s.fns.filter fun (e : Nat × Fn) => e.2.shst = 1 && !(s.cmds.any fun (c : Cmd) => c.fn = e.1) &&
    !(s.heldSrcs.any fun (c : Src) => c.fn = e.1)).map fun (e : Nat × Fn) => e.1

theorem State.mem_quiet (hs : (s.fn f).shst = 1) (hc : (s.cmds.any fun c => c.fn = f) = false)
    (hh : (s.heldSrcs.any fun c => c.fn = f) = false) : f ∈ s.quiet := by
  have listed : (f, s.fn f) ∈ s.fns := mem_of_tblGet_ne s.fns fun e => Nat.one_ne_zero (hs.symm.trans (congrArg Fn.shst e))
  exact List.mem_map.2 ⟨_, List.mem_filter.2 ⟨listed, by simp only [hs, hc, hh]; rfl⟩, rfl⟩

/-- A change that is the same made once or twice, made to each function of a list. -/
theorem State.foldl_modFn (g : State → Fn → Fn) (hg : ∀ t n h, g (State.modFn t n h) = g t) (hi : ∀ t x, g t (g t x) = g t x) (l : List Nat)
    (s : State) (f : Nat) : (l.foldl (fun (s : State) n => s.modFn n (g s)) s).fn f = if f ∈ l then g s (s.fn f) else s.fn f := by
  induction l generalizing s with
  | nil => rfl
  | cons x l ih =>
    rw [List.foldl_cons, ih, hg]
    by_cases own : f = x
    · rw [own, State.fn_modFn_same, hi, ite_self, if_pos List.mem_cons_self]
    · rw [State.fn_modFn_other _ _ _ own]
      simp [own]

/-- A quiet function's checkpoint has to hold every record written so far. -/
def State.asked (s : State) : State :=
  (s.quiet.filter fun n => (s.fn n).shutFrom.isNone).foldl (fun (s : State) n => s.modFn n fun f => { f with shutFrom := some s.xlt.nextRec }) s

/-- A checkpoint runs for what quiet functions wait for. -/
def State.committing (s : State) : State :=
  if s.quiet.any fun n => decide (s.asked.xlt.ckptDone < ((s.asked.fn n).shutFrom).getD 0) then s.asked.startCheckpoint else s.asked

/-- The functions whose notification is complete. -/
def State.settled (s : State) : List Nat :=
  s.quiet.filter fun n => !s.committing.xlt.restored || (decide (((s.committing.fn n).shutFrom).getD 0 ≤ s.committing.xlt.ckptDone) &&
    s.committing.xlt.unflashed.isEmpty)

theorem State.settleShutdown_eq (hb : (s.clutches.any fun x => x.place = .buffer) = false) (hq : s.quiet ≠ []) :
    s.settleShutdown =
      s.settled.foldl (fun (s : State) n => s.modFn n fun f => { f with shst := 2, shutFrom := none })
        { s.committing with boot := { s.committing.boot with cleanStop := s.committing.boot.cleanStop || s.settled.contains 0 } } := by
  unfold State.settleShutdown
  rw [if_neg (ne_true_of_eq_false hb)]
  exact if_neg (by rw [List.isEmpty_iff]; exact hq)

theorem State.startCheckpoint_running (s : State) : s.startCheckpoint.xlt.ckptRunning = true := by
  unfold State.startCheckpoint
  split
  · assumption
  · rfl

/-- A checkpoint that starts leaves completions, commands and functions, and which records the newest complete one holds. -/
theorem State.startCheckpoint_keeps (s : State) : s.startCheckpoint.cqes = s.cqes ∧ s.startCheckpoint.cmds = s.cmds ∧ s.startCheckpoint.fns = s.fns ∧
    s.startCheckpoint.xlt.restored = s.xlt.restored ∧ s.startCheckpoint.xlt.ckptDone = s.xlt.ckptDone := by
  unfold State.startCheckpoint
  split <;> exact ⟨rfl, rfl, rfl, rfl, rfl⟩

theorem State.asked_keeps (s : State) : s.asked.cqes = s.cqes ∧ s.asked.cmds = s.cmds ∧ s.asked.xlt = s.xlt :=
  ⟨foldl_same (·.cqes) _ (fun t n => t.modFn_cqes n _) _ _, foldl_same (·.cmds) _ (fun t n => t.modFn_cmds n _) _ _,
    foldl_same (·.xlt) _ (fun t n => t.modFn_xlt n _) _ _⟩

theorem State.committing_keeps (s : State) : s.committing.cqes = s.cqes ∧ s.committing.cmds = s.cmds ∧ s.committing.fns = s.asked.fns ∧
    s.committing.xlt.restored = s.xlt.restored ∧ s.committing.xlt.ckptDone = s.xlt.ckptDone := by
  obtain ⟨cqes, cmds, xlt⟩ := s.asked_keeps
  obtain ⟨cqes', cmds', fns, restored, done⟩ := s.asked.startCheckpoint_keeps
  unfold State.committing
  split
  · exact ⟨cqes'.trans cqes, cmds'.trans cmds, fns, restored.trans (congrArg Xlt.restored xlt), done.trans (congrArg Xlt.ckptDone xlt)⟩
  · exact ⟨cqes, cmds, rfl, congrArg Xlt.restored xlt, congrArg Xlt.ckptDone xlt⟩

/-- Neither completions nor commands change where notifications settle. -/
theorem State.settleShutdown_keeps (s : State) : s.settleShutdown.cqes = s.cqes ∧ s.settleShutdown.cmds = s.cmds := by
  by_cases hb : (s.clutches.any fun x => x.place = .buffer) = true
  · rw [State.settleShutdown, if_pos hb]
    exact ⟨rfl, rfl⟩
  · by_cases hq : s.quiet = []
    · have still : s.settleShutdown = s := by
        unfold State.settleShutdown
        rw [if_neg hb]
        exact if_pos (List.isEmpty_iff.2 hq)
      rw [still]
      exact ⟨rfl, rfl⟩
    · obtain ⟨cqes, cmds, -⟩ := s.committing_keeps
      rw [State.settleShutdown_eq (Bool.eq_false_iff.2 hb) hq]
      exact ⟨(foldl_same (·.cqes) _ (fun t n => t.modFn_cqes n _) _ _).trans cqes, (foldl_same (·.cmds) _ (fun t n => t.modFn_cmds n _) _ _).trans cmds⟩

/-- A quiet function with the buffer on flash: without maps its notification is complete at once; with records that the newest complete
checkpoint does not hold, a checkpoint runs first. -/
theorem State.settleShutdown_quiet (hb : (s.clutches.any fun x => x.place = .buffer) = false) (hf : f ∈ s.quiet) (hs : (s.fn f).shst = 1)
    (hn : (s.fn f).shutFrom = none) :
    (s.xlt.restored = false → (s.settleShutdown.fn f).shst = 2) ∧
    (s.xlt.restored = true → s.xlt.ckptDone < s.xlt.nextRec →
      (s.settleShutdown.fn f).shst = 1 ∧ s.settleShutdown.xlt.ckptRunning = true) := by
  obtain ⟨-, -, fns, restored, done⟩ := s.committing_keeps
  have asks : s.asked.fn f = { s.fn f with shutFrom := some s.xlt.nextRec } := by
    have new : f ∈ s.quiet.filter fun n => (s.fn n).shutFrom.isNone := List.mem_filter.2 ⟨hf, by rw [hn]; rfl⟩
    refine (State.foldl_modFn (fun t x => { x with shutFrom := some t.xlt.nextRec }) (fun _ _ _ => rfl) (fun _ _ => rfl) _ s f).trans ?_
    exact if_pos new
  have waits : s.committing.fn f = { s.fn f with shutFrom := some s.xlt.nextRec } := (State.fn_of_fns fns f).trans asks
  have shown : (s.settleShutdown.fn f).shst = if f ∈ s.settled then 2 else (s.committing.fn f).shst := by
    rw [State.settleShutdown_eq hb (List.ne_nil_of_mem hf),
      State.foldl_modFn (fun _ x => { x with shst := 2, shutFrom := none }) (fun _ _ _ => rfl) (fun _ _ => rfl)]
    split <;> rfl
  constructor
  · intro hr
    have complete : f ∈ s.settled := List.mem_filter.2 ⟨hf, by rw [restored, hr]; rfl⟩
    rw [shown, if_pos complete]
  · intro hr hd
    have incomplete : f ∉ s.settled := fun m => by
      have due := (List.mem_filter.1 m).2
      rw [restored, hr, waits, done] at due
      simp only [Option.getD_some, Bool.not_true, Bool.false_or, Bool.and_eq_true, decide_eq_true_eq] at due
      omega
    have starts : (s.quiet.any fun n => decide (s.asked.xlt.ckptDone < ((s.asked.fn n).shutFrom).getD 0)) = true :=
      List.any_eq_true.2 ⟨f, hf, decide_eq_true (by rw [asks, s.asked_keeps.2.2]; exact hd)⟩
    have runs : s.committing.xlt.ckptRunning = true := by
      rw [State.committing, if_pos starts, State.startCheckpoint_running]
    refine ⟨by rw [shown, if_neg incomplete, waits]; exact hs, ?_⟩
    rw [State.settleShutdown_eq hb (List.ne_nil_of_mem hf)]
    exact (congrArg Xlt.ckptRunning (foldl_same (·.xlt) _ (fun t n => t.modFn_xlt n _) _ _)).trans runs

/-- The function fetches no more, its queued commands and QUIESCE requests are gone, and its notification is in progress. -/
def State.shuttingDown (s : State) (f : Nat) : State :=
  let s := (s.cmds.filter fun (c : Cmd) => c.fn = f && !c.started && c.kind ≠ .peer).foldl (fun (s : State) (c : Cmd) => s.abandonCmd c) s
  let s := { s with quiesce := { s.quiesce with queue := s.quiesce.queue.filter fun (r : QReq) => !r.of f } }
  s.modFn f fun f => { f with shst := 1, shutFrom := none, sqs := f.sqs.map fun (q : Sq) => { q with fetched := [], waiting := 0 } }

theorem execShutdownNotification_eq (hf : f < fnCount) (hr : s.hostReaches = true) (ha : s.asleep = false) (he : (s.fn f).en = true)
    (hy : (s.fn f).rdy = true) (hs : (s.fn f).shst = 0) : execShutdownNotification f s = .next (s.shuttingDown f).settleShutdown := by
  unfold execShutdownNotification
  rw [onFn_lt _ hf]
  dsimp only
  rw [if_neg (by simp [hr, he, hy, hs]), State.hostTouch_awake ha]
  rfl

/-- The queued commands go, and nothing else that is the host's. -/
theorem State.abandonQueued_letsGo (s : State) (l : List Cmd) : LetsGo s (l.foldl (fun (s : State) (c : Cmd) => s.abandonCmd c) s) :=
  (LetsGo.refl s).foldl fun _ _ hu => hu.abandonCmd

theorem State.shuttingDown_cqes (s : State) (f : Nat) : (s.shuttingDown f).cqes = s.cqes := (s.abandonQueued_letsGo _).cqes_eq

theorem State.shuttingDown_clutches (s : State) (f : Nat) : (s.shuttingDown f).clutches = s.clutches := (s.abandonQueued_letsGo _).clutches_eq

theorem State.shuttingDown_cmds {c : Cmd} (hc : c ∈ (s.shuttingDown f).cmds) (hf : c.fn = f) (hk : c.kind ≠ .peer) : c.started = true := by
  have gone := State.not_mem_dropped (g := fun s c => s.abandonCmd c) (p := fun c => c.fn = f && !c.started && c.kind ≠ .peer)
    State.abandonCmd_cmds (s := s) hc
  simpa [hf, hk] using gone

theorem State.shuttingDown_fn (s : State) (f : Nat) : ((s.shuttingDown f).fn f).shst = 1 ∧ ((s.shuttingDown f).fn f).shutFrom = none := by
  rw [State.shuttingDown, State.fn_modFn_same]
  exact ⟨rfl, rfl⟩

/-- A function with no command outstanding: nothing is abandoned. -/
theorem State.shuttingDown_idle (hc : (s.cmds.any fun c => c.fn = f) = false) :
    (s.shuttingDown f).cmds = s.cmds ∧ (s.shuttingDown f).xlt = s.xlt ∧ (s.shuttingDown f).heldSrcs.Sublist s.heldSrcs := by
  have none : (s.cmds.filter fun (c : Cmd) => c.fn = f && !c.started && c.kind ≠ .peer) = [] :=
    List.filter_eq_nil_iff.2 fun c m => by
      have other := List.any_eq_false.1 hc c m
      simp only [decide_eq_true_eq] at other
      simp [other]
  rw [State.shuttingDown, none]
  refine ⟨rfl, rfl, ?_⟩
  exact ((((List.Sublist.refl _).append List.filter_sublist).filterMap _).append (.refl _)).append (.refl _) |>.append (.refl _)

theorem execShutdownNotification_settles (hf : f < fnCount) (hr : s.hostReaches = true) (ha : s.asleep = false) (he : (s.fn f).en = true)
    (hy : (s.fn f).rdy = true) (hs : (s.fn f).shst = 0) :
    Next (execShutdownNotification f s) (fun t => t.cqes = s.cqes ∧ (∀ c ∈ t.cmds, c.fn = f → c.kind ≠ .peer → c.started = true) ∧
      ((s.clutches.any fun x => x.place = .buffer) = true → (t.fn f).shst = 1) ∧
      ((s.clutches.any fun x => x.place = .buffer) = false → (s.cmds.any fun c => c.fn = f) = false → (s.heldSrcs.any fun c => c.fn = f) = false →
        (s.xlt.restored = false → (t.fn f).shst = 2) ∧
        (s.xlt.restored = true → s.xlt.ckptDone < s.xlt.nextRec → (t.fn f).shst = 1 ∧ t.xlt.ckptRunning = true))) := by
  obtain ⟨cqes, cmds⟩ := (s.shuttingDown f).settleShutdown_keeps
  obtain ⟨progress, new⟩ := s.shuttingDown_fn f
  rw [execShutdownNotification_eq hf hr ha he hy hs]
  refine .intro _ ⟨cqes.trans (s.shuttingDown_cqes f), fun c hc => State.shuttingDown_cmds (cmds ▸ hc), fun hb => ?_, fun hb hc hh => ?_⟩
  · rw [State.settleShutdown, if_pos (by rw [State.shuttingDown_clutches]; exact hb), progress]
  · obtain ⟨same, xlt, held⟩ := State.shuttingDown_idle hc
    have quiet : f ∈ (s.shuttingDown f).quiet := State.mem_quiet progress (by rw [same]; exact hc)
      (List.any_eq_false.2 fun c m => List.any_eq_false.1 hh c (held.subset m))
    rw [← xlt]
    exact State.settleShutdown_quiet (by rw [State.shuttingDown_clutches]; exact hb) quiet progress new

end Shutdown

/-! ## Configuration requests (R377, R514) -/

section Configuration

variable {s : State}

theorem execConfigurationRequest_retry (ho : s.pwr.on = true) (hp : s.boot.perstLow = false) (hr : s.boot.running = true) (q : ConfigReq)
    (hc : s.boot.cfgReady = false) : Next (execConfigurationRequest s q) (fun t => t = s.reply reqPcie 0 true .none) := by
  unfold execConfigurationRequest
  rw [if_neg (by simp [ho, hp, hr]), if_neg (by simp [hc])]
  exact .intro _ rfl

/-- What a request is answered once the profile is applied. -/
def State.configured (s : State) : ConfigReq → State
  | .vfEnable b => ({ s with boot := { s.boot with vfEnable := b } }).reply reqPcie 0 false .none
  | .memSpace b => ({ s with boot := { s.boot with memSpace := b } }).reply reqPcie 0 false .none
  | .bar2 v => ({ s with boot := { s.boot with bar2 := s.bar2Of v } }).reply reqPcie 0 false .none
  | .readBar2 => s.reply reqPcie (if s.boot.profile.window then s.boot.bar2 + 4 else 0) false .none
  | .other => (s.free (2 ^ 32)).2.reply reqPcie (s.free (2 ^ 32)).1 false .none

theorem execConfigurationRequest_ready (ho : s.pwr.on = true) (hp : s.boot.perstLow = false) (hr : s.boot.running = true) (q : ConfigReq)
    (hc : s.boot.cfgReady = true) : execConfigurationRequest s q = .next (s.configured q) := by
  unfold execConfigurationRequest
  rw [if_neg (by simp [ho, hp, hr]), if_pos hc]
  cases q <;> rfl

/-- A base is cut to 64 MiB. -/
theorem State.bar2Of_aligned {v : Nat} (hw : s.boot.profile.window = true) (hv : v < 2 ^ 64) :
    s.bar2Of v ≤ v ∧ v < s.bar2Of v + 2 ^ 26 ∧ s.bar2Of v % 2 ^ 26 = 0 := by
  rw [State.bar2Of, if_pos hw, Nat.mod_eq_of_lt hv]
  omega

end Configuration

/-- Settles O13: the host's commands on its controllers, shutdown notifications and the configuration requests of a start, each by what it
does to the functions, the commands and the start's state. -/
theorem functionsEnabledResetShutDown : Obligations.FunctionsEnabledResetShutDown := by
  unfold Obligations.FunctionsEnabledResetShutDown
  refine ⟨fun s f hf => ⟨fun hr ha => ⟨execCcEnSet_enables hf hr ha, execCcEnClearPf0_abandons (State.reaches_host hr) ha,
      execVfReset_begins hf hr ha, execPf0Flr_resets (State.reaches_host hr) ha⟩, execFunctionResetComplete_ends hf⟩,
    fun s f => execShutdownNotification_settles, fun s ho hp hr => ⟨execConfigurationRequest_retry ho hp hr, fun hc => ?_⟩⟩
  have ready (q : ConfigReq) : Next (exec (.configurationRequest q) s) (fun t => t = s.configured q) :=
    ⟨_, execConfigurationRequest_ready ho hp hr q hc, rfl⟩
  refine ⟨fun b => ready (.vfEnable b), fun b => ready (.memSpace b), fun v hw hv => ?_, fun hw => ?_, ?_⟩
  · obtain ⟨t, ht, rfl⟩ := ready (.bar2 v)
    exact ⟨_, ht, State.bar2Of_aligned hw hv⟩
  · obtain ⟨t, ht, rfl⟩ := ready .readBar2
    exact ⟨_, ht, by rw [State.configured, hw]; rfl⟩
  · obtain ⟨t, ht, rfl⟩ := ready .other
    exact ⟨_, ht, _, rfl⟩

end Sys2Proof.Machine
end

section
namespace Sys2Proof.Machine

open Sys2Proof

/-! ## Frames of clutches (R138, R139, R143, R146, R147) -/

theorem leNat_leBytes (k n : Nat) : leNat (leBytes k n) = n % 256 ^ k := by
  induction k generalizing n with
  | zero => simp [leBytes, leNat, Nat.mod_one]
  | succ k ih =>
    have tail : leBytes (k + 1) n = byte n :: leBytes k (n / 256) := by
      simp only [leBytes, List.range_succ_eq_map, List.map_cons, List.map_map]
      refine congrArg₂ _ rfl (List.map_congr_left fun i _ => ?_)
      rw [Function.comp_apply, Nat.mul_succ, Nat.add_comm (8 * i), Nat.shiftRight_add, Nat.shiftRight_eq_div_pow n]
    rw [tail, leNat, ih, byte, BitVec.toNat_ofNat, Nat.pow_succ' (m := 256), Nat.mod_mul]

/-- A number's bytes at the front of a string spell it. -/
theorem leNat_take_leBytes {k n : Nat} (h : n < 256 ^ k) (b : Bytes) : leNat ((leBytes k n ++ b).take k) = n := by
  rw [List.take_left' (leBytes_length k n), leNat_leBytes, Nat.mod_eq_of_lt h]

theorem le_ceilDiv_mul {k : Nat} (hk : 0 < k) (n : Nat) : n ≤ ceilDiv n k * k := by
  have whole := Nat.div_add_mod (n + k - 1) k
  have part := Nat.mod_lt (n + k - 1) hk
  rw [ceilDiv, Nat.mul_comm]
  omega

theorem blockHead_length (last : Bool) (type size : Nat) : (blockHead last type size).length = 3 := leBytes_length _ _

/-- A block's header reads back what the encoder wrote. -/
theorem blockHeader_blockHead (last : Bool) {type size : Nat} (ht : type < 4) (hs : size < 2 ^ 21) (b : Bytes) :
    blockHeader (blockHead last type size ++ b) = (last, type, size) := by
  rw [blockHeader, blockHead, leNat_take_leBytes (by split <;> omega)]
  cases last <;> simp <;> omega

/-- What pass 2 decodes from a block of a type, a size and a body. -/
def blockOutput (z : Zst) (type size : Nat) (body : Bytes) : List Run × Bool × Zst :=
  if type = 0 then ([.lit body], true, z)
  else if type = 1 then ([.lit (List.replicate size (nth body 0 0))], true, z)
  else blockRuns z body

/-- A block that pass 2 decodes to a chunk of data behind the `k` bytes of `out`, and the state `z'` for the blocks behind it. -/
structure CodesChunk (lim : Nat) (z z' : Zst) (k : Nat) (out chunk : Bytes) (type size : Nat) (body : Bytes) : Prop where
  type_lt : type < 3
  size_lt : size < 2 ^ 21
  size_le : size ≤ lim
  body_length : body.length = if type = 1 then 1 else size
  coded : (blockOutput z type size body).2 = (true, z')
  runs : runRuns lim (blockOutput z type size body).1 k out = .inr (k + chunk.length, chunk.reverse ++ out)

/-- Blocks that decode to data, one behind the other, the last one flagged so. -/
inductive CodesData (lim : Nat) : Zst → Nat → Bytes → Bytes → Bytes → Prop
  | last {z z' k out chunk type size body} (h : CodesChunk lim z z' k out chunk type size body) :
      CodesData lim z k out chunk (blockHead true type size ++ body ++ [])
  | more {z z' k out chunk type size body rest blocks} (h : CodesChunk lim z z' k out chunk type size body)
      (t : CodesData lim z' (k + chunk.length) (chunk.reverse ++ out) rest blocks) :
      CodesData lim z k out (chunk ++ rest) (blockHead false type size ++ body ++ blocks)

section Blocks

variable {lim k type size : Nat} {z z' : Zst} {out chunk body data blocks : Bytes}

/-- A run of literals within the limit. -/
theorem runRuns_lit {b : Bytes} (h : k + b.length ≤ lim) : runRuns lim [.lit b] k out = .inr (k + b.length, b.reverse ++ out) := by
  simp [runRuns, Nat.not_lt.2 h]

theorem CodesChunk.raw (hc : chunk.length < 2 ^ 21) (h : k + chunk.length ≤ lim) :
    CodesChunk lim z z k out chunk 0 chunk.length chunk :=
  ⟨by decide, hc, by omega, rfl, rfl, runRuns_lit h⟩

/-- Equal bytes are one byte and a count. -/
theorem CodesChunk.rle (hc : chunk.length < 2 ^ 21) (h : k + chunk.length ≤ lim) (hn : chunk ≠ [])
    (he : (chunk.all (· = nth chunk 0 0)) = true) : CodesChunk lim z z k out chunk 1 chunk.length (chunk.take 1) := by
  obtain ⟨b, r, rfl⟩ := List.exists_cons_of_ne_nil hn
  have same : List.replicate (b :: r).length b = b :: r :=
    (List.eq_replicate_of_mem fun x hx => by simpa [nth] using List.all_eq_true.1 he x hx).symm
  have output : blockOutput z 1 (b :: r).length ((b :: r).take 1) = ([.lit (b :: r)], true, z) :=
    congrArg (fun l => ([Run.lit l], true, z)) same
  exact ⟨by decide, hc, by omega, rfl, by rw [output], by rw [output]; exact runRuns_lit h⟩

/-- What the encoder takes from the match search decodes to its chunk: it has checked it. -/
theorem CodesChunk.compressed (hc : chunk.length < 2 ^ 21) (h : k + chunk.length ≤ lim) (hl : body.length < chunk.length)
    (hr : (blockRuns z body).2.1 = true)
    (he : runRuns lim (blockRuns z body).1 k out = .inr (k + chunk.length, chunk.reverse ++ out)) :
    CodesChunk lim z (blockRuns z body).2.2 k out chunk 2 body.length body :=
  ⟨by decide, by omega, by omega, rfl, Prod.ext hr rfl, he⟩

/-- A chunk's block is the last one, or blocks of the remaining data follow. -/
theorem CodesChunk.follow {rest : Bytes} (h : CodesChunk lim z z' k out chunk type size body)
    (t : rest ≠ [] → CodesData lim z' (k + chunk.length) (chunk.reverse ++ out) rest blocks) :
    CodesData lim z k out (chunk ++ rest) (blockHead rest.isEmpty type size ++ body ++ (if rest.isEmpty then [] else blocks)) := by
  cases rest with
  | nil => simpa using CodesData.last h
  | cons b r => exact .more h (t (List.cons_ne_nil b r))

/-- Whatever the match search finds, the encoder's blocks decode to its data. -/
theorem codesData_encodeBlocks (level fuel : Nat) (hn : data ≠ []) (hf : data.length ≤ fuel * 32768) (h : k + data.length ≤ lim) :
    CodesData lim z k out data (encodeBlocks level lim fuel z k out data) := by
  induction fuel generalizing z k out data with
  | zero => exact absurd (List.length_eq_zero_iff.1 (by omega)) hn
  | succ fuel ih =>
    have whole : (data.take 32768).length + (data.drop 32768).length = data.length := by
      rw [← List.length_append, List.take_append_drop]
    have small : (data.take 32768).length < 2 ^ 21 := by rw [List.length_take]; omega
    have fits : k + (data.take 32768).length ≤ lim := by omega
    have chunk_ne : data.take 32768 ≠ [] := by simp [hn]
    have more (z' : Zst) (hr : data.drop 32768 ≠ []) := ih (z := z') (k := k + (data.take 32768).length)
      (out := (data.take 32768).reverse ++ out) hr (by rw [List.length_drop]; omega) (by omega)
    rw [encodeBlocks]
    conv => lhs; rw [← List.take_append_drop 32768 data]
    split
    · next he => exact (CodesChunk.rle small fits chunk_ne he).follow (more _)
    · dsimp only
      split
      · next hx =>
        simp only [Bool.and_eq_true, decide_eq_true_eq] at hx
        obtain ⟨⟨shorter, coded⟩, runs⟩ := hx
        exact (CodesChunk.compressed small fits shorter coded runs).follow (more _)
      · exact (CodesChunk.raw small fits).follow (more _)

/-! What stands at the front of a string that begins with a chunk's block. -/

theorem CodesChunk.header (h : CodesChunk lim z z' k out chunk type size body) (last : Bool) (b : Bytes) :
    blockHeader (blockHead last type size ++ body ++ b) = (last, type, size) := by
  rw [List.append_assoc, blockHeader_blockHead last (h.type_lt.trans (by decide)) h.size_lt]

theorem CodesChunk.take_body (h : CodesChunk lim z z' k out chunk type size body) (last : Bool) (b : Bytes) :
    ((blockHead last type size ++ body ++ b).drop 3).take (if type = 1 then 1 else size) = body := by
  rw [List.append_assoc, List.drop_left' (blockHead_length last type size), List.take_left' h.body_length]

theorem CodesChunk.drop_block (h : CodesChunk lim z z' k out chunk type size body) (last : Bool) (b : Bytes) :
    (blockHead last type size ++ body ++ b).drop (3 + (if type = 1 then 1 else size)) = b :=
  List.drop_left' (by rw [List.length_append, blockHead_length, h.body_length])

theorem CodesChunk.length_block (h : CodesChunk lim z z' k out chunk type size body) (last : Bool) (b : Bytes) :
    (blockHead last type size ++ body ++ b).length = 3 + (if type = 1 then 1 else size) + b.length := by
  rw [List.length_append, List.length_append, blockHead_length, h.body_length]

/-- Fuel for a string that begins with a block is fuel for the block and for what follows it. -/
theorem CodesChunk.fuel (h : CodesChunk lim z z' k out chunk type size body) {last : Bool} {b : Bytes} {fuel : Nat}
    (hf : (blockHead last type size ++ body ++ b).length ≤ fuel) : ∃ n, fuel = n + 1 ∧ b.length ≤ n := by
  rw [h.length_block] at hf
  exact ⟨fuel - 1, by omega, by omega⟩

/-- Pass 1 walks over a chunk's block. -/
theorem CodesChunk.walk (h : CodesChunk lim z z' k out chunk type size body) (fuel : Nat) (last : Bool) (b : Bytes) :
    walk lim (fuel + 1) (blockHead last type size ++ body ++ b) = if last then (if b = [] then 0 else gEND) else walk lim fuel b := by
  have length := h.length_block last b
  have known : (type = 3 || decide (size > lim)) = false := by simp [h.size_le, Nat.ne_of_lt h.type_lt]
  rw [Machine.walk, if_neg (by omega)]
  simp only [h.header, known, h.drop_block, length]
  rw [if_neg (by simp), if_neg (by omega)]
  simp [List.length_eq_zero_iff]

/-- Pass 2 decodes a chunk's block. -/
theorem CodesChunk.decodeBlocks (h : CodesChunk lim z z' k out chunk type size body) (fuel : Nat) (last : Bool) (b : Bytes) :
    decodeBlocks lim (fuel + 1) z (blockHead last type size ++ body ++ b) k out =
      if last then .ok (chunk.reverse ++ out).reverse
      else decodeBlocks lim fuel z' b (k + chunk.length) (chunk.reverse ++ out) := by
  have output : blockOutput z type size body = ((blockOutput z type size body).1, true, z') := Prod.ext rfl h.coded
  have runs := h.runs
  unfold blockOutput at output runs
  rw [Machine.decodeBlocks]
  simp only [h.header, h.take_body, h.drop_block]
  rw [output]
  simp only [runs]
  rfl

theorem CodesData.walk (h : CodesData lim z k out data blocks) {fuel : Nat} (hf : blocks.length ≤ fuel) : walk lim fuel blocks = 0 := by
  induction h generalizing fuel with
  | last h =>
    obtain ⟨fuel, rfl, -⟩ := h.fuel hf
    exact h.walk fuel true []
  | more h t ih =>
    obtain ⟨fuel, rfl, left⟩ := h.fuel hf
    exact (h.walk fuel false _).trans (ih left)

theorem CodesData.decodeBlocks (h : CodesData lim z k out data blocks) {fuel : Nat} (hf : blocks.length ≤ fuel) :
    decodeBlocks lim fuel z blocks k out = .ok (out.reverse ++ data) := by
  induction h generalizing fuel with
  | last h =>
    obtain ⟨fuel, rfl, -⟩ := h.fuel hf
    simpa using h.decodeBlocks fuel true []
  | more h t ih =>
    obtain ⟨fuel, rfl, left⟩ := h.fuel hf
    simpa using (h.decodeBlocks fuel false _).trans (ih left)

end Blocks

/-- The header of the encoder's frames: magic, descriptor and content size. -/
def encodeHead (n : Nat) : Bytes :=
  [0x28, 0xB5, 0x2F, 0xFD] ++ (if n ≤ 65536 then [0x60] ++ leBytes 2 (n - 256) else [0xA0] ++ leBytes 4 n)

theorem frameHeader_encodeHead {n : Nat} (hl : 256 ≤ n) (hh : n ≤ 131072) (b : Bytes) :
    frameHeader (encodeHead n ++ b) = .inr ((encodeHead n).length, n) := by
  unfold encodeHead
  split
  · have size : leNat (leBytes 2 (n - 256)) = n - 256 := (leNat_leBytes _ _).trans (Nat.mod_eq_of_lt (by omega))
    have descriptor : Nat.testBit 96 5 = true := rfl
    simp [frameHeader, nth, leBytes_length, size, descriptor, Nat.sub_add_cancel hl]
    rw [if_neg (by omega), if_neg (by omega)]
  · have size : leNat (leBytes 4 n) = n := (leNat_leBytes _ _).trans (Nat.mod_eq_of_lt (by omega))
    have descriptor : Nat.testBit 160 5 = true := rfl
    simp [frameHeader, nth, leBytes_length, size, descriptor]
    rw [if_neg (by omega), if_neg (by omega)]

/-- Settles O32: the header reads back the content size, pass 1 walks over the encoder's blocks to the frame's end, and pass 2 decodes each of
them to its chunk. -/
theorem framesDecodeToTheirData : Obligations.FramesDecodeToTheirData := by
  unfold Obligations.FramesDecodeToTheirData
  intro level clutch data blocks least most fits
  have coded : CodesData data.length .start 0 [] data (encodeBlocks level data.length (ceilDiv data.length 32768) .start 0 [] data) :=
    codesData_encodeBlocks level _ (List.ne_nil_of_length_pos (by omega)) (le_ceilDiv_mul (by decide) _) (by omega)
  have limit : min data.length 131072 = data.length := by omega
  have frame : encode level data =
      encodeHead data.length ++ encodeBlocks level data.length (ceilDiv data.length 32768) .start 0 [] data := by
    rw [encode, limit]; rfl
  have logical : badLogical data.length clutch = false := by simp [badLogical, blocks, least, fits]
  rw [frame, Machine.guard, limit, logical, frameHeader_encodeHead (by omega) most]
  simp [List.drop_left' rfl, coded.walk le_rfl, coded.decodeBlocks le_rfl]

end Sys2Proof.Machine
end

section
namespace Sys2Proof.Machine

open Sys2Proof

/-! ## The field of parity (R152) -/

theorem gfDouble_xor (a b : Nat) : gfDouble (a ^^^ b) = gfDouble a ^^^ gfDouble b := by
  unfold gfDouble
  simp only [Nat.shiftLeft_xor_distrib, Nat.testBit_xor]
  cases (a <<< 1).testBit 8 <;> cases (b <<< 1).testBit 8 <;>
    simp [Nat.xor_assoc, Nat.xor_comm, Nat.xor_left_comm]

theorem gfMulAux_xor_left (k a b c : Nat) : gfMulAux k (a ^^^ b) c = gfMulAux k a c ^^^ gfMulAux k b c := by
  induction k generalizing a b c with
  | zero => simp [gfMulAux]
  | succ k ih =>
    simp only [gfMulAux, gfDouble_xor, ih]
    cases c.testBit 0 <;> simp [Nat.xor_assoc, Nat.xor_left_comm]

theorem gfMulAux_xor_right (k a b c : Nat) : gfMulAux k a (b ^^^ c) = gfMulAux k a b ^^^ gfMulAux k a c := by
  induction k generalizing a b c with
  | zero => simp [gfMulAux]
  | succ k ih =>
    simp only [gfMulAux, Nat.shiftRight_xor_distrib, Nat.testBit_xor, ih]
    cases b.testBit 0 <;> cases c.testBit 0 <;> simp [Nat.xor_assoc, Nat.xor_left_comm]

theorem gfDouble_zero : gfDouble 0 = 0 := rfl

theorem gfMulAux_zero_left (k b : Nat) : gfMulAux k 0 b = 0 := by
  induction k generalizing b with
  | zero => rfl
  | succ k ih => simp [gfMulAux, gfDouble_zero, ih]

theorem gfDouble_gfMulAux (k a b : Nat) : gfDouble (gfMulAux k a b) = gfMulAux k (gfDouble a) b := by
  induction k generalizing a b with
  | zero => simp [gfMulAux, gfDouble_zero]
  | succ k ih =>
    rw [gfMulAux, gfDouble_xor, ih, gfMulAux]
    cases b.testBit 0 <;> simp [gfDouble_zero]

/-- Multiplications commute: each is a sum of doublings. -/
theorem gfMulAux_right_comm (j k x c d : Nat) : gfMulAux k (gfMulAux j x c) d = gfMulAux j (gfMulAux k x d) c := by
  induction j generalizing x c with
  | zero => exact gfMulAux_zero_left k d
  | succ j ih =>
    rw [gfMulAux, gfMulAux_xor_left, ih, gfMulAux, gfDouble_gfMulAux]
    cases c.testBit 0 <;> simp [gfMulAux_zero_left]

theorem gfDouble_lt {a : Nat} (h : a < 256) : gfDouble a < 256 :=
  (by decide +kernel : ∀ a < 256, gfDouble a < 256) a h

theorem gfMulAux_lt (k b : Nat) {a : Nat} (h : a < 256) : gfMulAux k a b < 256 := by
  induction k generalizing a b with
  | zero => exact Nat.two_pow_pos 8
  | succ k ih =>
    rw [gfMulAux]
    refine Nat.xor_lt_two_pow (n := 8) ?_ (ih _ (gfDouble_lt h))
    split <;> omega

theorem gfMul_lt {a : Nat} (h : a < 256) (b : Nat) : gfMul a b < 256 := gfMulAux_lt 8 b h

theorem one_gfMul {b : Nat} (h : b < 256) : gfMul 1 b = b :=
  (by decide +kernel : ∀ b < 256, gfMul 1 b = b) b h

theorem gfMul_comm {a b : Nat} (ha : a < 256) (hb : b < 256) : gfMul a b = gfMul b a :=
  calc gfMul a b = gfMul (gfMul 1 a) b := by rw [one_gfMul ha]
    _ = gfMul (gfMul 1 b) a := gfMulAux_right_comm 8 8 1 a b
    _ = gfMul b a := by rw [one_gfMul hb]

theorem gfMul_assoc {a b c : Nat} (ha : a < 256) (hb : b < 256) : gfMul (gfMul a b) c = gfMul a (gfMul b c) :=
  calc gfMul (gfMul a b) c = gfMul (gfMul b a) c := by rw [gfMul_comm ha hb]
    _ = gfMul (gfMul b c) a := gfMulAux_right_comm 8 8 b a c
    _ = gfMul a (gfMul b c) := gfMul_comm (gfMul_lt hb c) ha

theorem gfMul_one {a : Nat} (h : a < 256) : gfMul a 1 = a := (gfMul_comm h (by decide)).trans (one_gfMul h)

theorem gfMul_zero (a : Nat) : gfMul a 0 = 0 := by simp [gfMul, gfMulAux]

/-! ### Powers of 2 and inverses -/

theorem gfPow2_lt (j : Nat) : gfPow2 j < 256 := by
  induction j with
  | zero => decide
  | succ j ih => exact gfDouble_lt ih

theorem gfPow2_add (i j : Nat) : gfPow2 (i + j) = gfMul (gfPow2 i) (gfPow2 j) := by
  induction i with
  | zero => rw [Nat.zero_add]; exact (one_gfMul (gfPow2_lt j)).symm
  | succ i ih => rw [Nat.succ_add, gfPow2, ih]; exact gfDouble_gfMulAux 8 (gfPow2 i) (gfPow2 j)

/-- The order of 2 divides 255. -/
theorem gfPow2_mul_255 (k : Nat) : gfPow2 (255 * k) = 1 := by
  have order : gfPow2 255 = 1 := by decide +kernel
  induction k with
  | zero => rfl
  | succ k ih => rw [Nat.mul_succ, gfPow2_add, ih, order]; decide

theorem gfInv_gfPow2 (k : Nat) : gfInv (gfPow2 k) = gfPow2 (254 * k) := by
  have power (n : Nat) : (List.range n).foldl (fun a _ => gfMul a (gfPow2 k)) 1 = gfPow2 (n * k) := by
    induction n with
    | zero => rw [Nat.zero_mul]; rfl
    | succ n ih => rw [List.range_succ, List.foldl_append, ih, List.foldl_cons, List.foldl_nil, Nat.succ_mul, gfPow2_add]
  exact power 254

/-- What has an inverse coefficient: a byte that its inverse takes to 1. -/
structure GfUnit (c : Nat) : Prop where
  lt : c < 256
  inv_lt : gfInv c < 256
  inv_mul : gfMul (gfInv c) c = 1

theorem gfUnit_gfPow2 (k : Nat) : GfUnit (gfPow2 k) := by
  refine ⟨gfPow2_lt k, ?_, ?_⟩
  · rw [gfInv_gfPow2]
    exact gfPow2_lt _
  · rw [gfInv_gfPow2, ← gfPow2_add, ← Nat.succ_mul, gfPow2_mul_255]

/-- The logarithms of 1 + 2^d for the distances `d` of two data members, from 1 on. -/
def zechLogs : List Nat :=
  [25, 50, 223, 100, 138, 191, 112, 200, 120, 21, 245, 127, 99, 224, 33, 145, 68, 240, 92, 42, 10, 235, 196, 254, 1, 198, 104, 193, 181]

/-- The coefficients of two data members differ by a power of 2. -/
theorem gfUnit_gfPow2_xor {i j : Nat} (hi : i < 30) (hj : j < 30) (h : i ≠ j) : GfUnit (gfPow2 i ^^^ gfPow2 j) := by
  have zech : ∀ d < 29, 1 ^^^ gfPow2 (d + 1) = gfPow2 (nth zechLogs d 0) := by decide +kernel
  wlog lt : i < j generalizing i j
  · rw [Nat.xor_comm]
    exact this hj hi h.symm (by omega)
  obtain ⟨d, rfl⟩ : ∃ d, j = i + (d + 1) := ⟨j - i - 1, by omega⟩
  have power : gfPow2 i ^^^ gfPow2 (i + (d + 1)) = gfPow2 (i + nth zechLogs d 0) := by
    rw [gfPow2_add i, gfPow2_add i, ← zech d (by omega)]
    conv => lhs; lhs; rw [← gfMul_one (gfPow2_lt i)]
    exact (gfMulAux_xor_right 8 _ _ _).symm
  rw [power]
  exact gfUnit_gfPow2 _

/-! ### Bytes as field elements -/

/-- A byte times a coefficient. -/
def gfScale (c : Nat) (x : Byte) : Byte := byte (gfMul c x.toNat)

theorem gfScale_toNat {c : Nat} (h : c < 256) (x : Byte) : (gfScale c x).toNat = gfMul c x.toNat := by
  rw [gfScale, byte, BitVec.toNat_ofNat, Nat.mod_eq_of_lt (gfMul_lt h _)]

theorem byte_xor (a b : Nat) : byte (a ^^^ b) = byte a ^^^ byte b := BitVec.ofNat_xor ..

theorem gfScale_xor (c : Nat) (x y : Byte) : gfScale c (x ^^^ y) = gfScale c x ^^^ gfScale c y := by
  rw [gfScale, BitVec.toNat_xor, gfMul, gfMulAux_xor_right, byte_xor]
  rfl

theorem xor_gfScale (c d : Nat) (x : Byte) : gfScale (c ^^^ d) x = gfScale c x ^^^ gfScale d x := by
  rw [gfScale, gfMul, gfMulAux_xor_left, byte_xor]
  rfl

theorem gfScale_gfScale {c d : Nat} (hc : c < 256) (hd : d < 256) (x : Byte) : gfScale c (gfScale d x) = gfScale (gfMul c d) x := by
  rw [gfScale, gfScale_toNat hd, gfScale, gfMul_assoc hc hd]

@[simp] theorem one_gfScale (x : Byte) : gfScale 1 x = x := by
  rw [gfScale, one_gfMul x.isLt, byte, BitVec.ofNat_toNat, BitVec.setWidth_eq]

@[simp] theorem zero_gfScale (x : Byte) : gfScale 0 x = 0#8 := by
  rw [gfScale, gfMul, gfMulAux_zero_left]
  rfl

@[simp] theorem gfScale_zero (c : Nat) : gfScale c 0#8 = 0#8 := by
  rw [gfScale, BitVec.toNat_ofNat, Nat.zero_mod, gfMul_zero]
  rfl

theorem gfScale_ite (c : Nat) (p : Prop) [Decidable p] (x : Byte) : gfScale c (if p then x else 0) = if p then gfScale c x else 0 := by
  split
  · rfl
  · exact gfScale_zero c

theorem GfUnit.inv_scale {c : Nat} (h : GfUnit c) (x : Byte) : gfScale (gfInv c) (gfScale c x) = x := by
  rw [gfScale_gfScale h.inv_lt h.lt, h.inv_mul, one_gfScale]

/-! ### Sums -/

/-- The sum of a function's values below `n`. -/
def xorSum (n : Nat) (f : Nat → Byte) : Byte := (List.range n).foldl (fun a k => a ^^^ f k) 0

theorem xorSum_succ (n : Nat) (f : Nat → Byte) : xorSum (n + 1) f = xorSum n f ^^^ f n := by
  rw [xorSum, List.range_succ, List.foldl_append]
  rfl

theorem xorSum_congr {n : Nat} {f g : Nat → Byte} (h : ∀ k < n, f k = g k) : xorSum n f = xorSum n g := by
  induction n with
  | zero => rfl
  | succ n ih => rw [xorSum_succ, xorSum_succ, ih fun k hk => h k (by omega), h n n.lt_succ_self]

theorem xorSum_xor (n : Nat) (f g : Nat → Byte) : xorSum n (fun k => f k ^^^ g k) = xorSum n f ^^^ xorSum n g := by
  induction n with
  | zero => simp [xorSum]
  | succ n ih => rw [xorSum_succ, xorSum_succ, xorSum_succ, ih]; ac_rfl

theorem gfScale_xorSum (c n : Nat) (f : Nat → Byte) : gfScale c (xorSum n f) = xorSum n fun k => gfScale c (f k) := by
  induction n with
  | zero => exact gfScale_zero c
  | succ n ih => rw [xorSum_succ, xorSum_succ, gfScale_xor, ih]

theorem xorSum_zero (n : Nat) : xorSum n (fun _ => 0) = 0 := by
  induction n with
  | zero => rfl
  | succ n ih => rw [xorSum_succ, ih]; rfl

/-- A sum whose other values are 0. -/
theorem xorSum_single {n j : Nat} (h : j < n) (f : Nat → Byte) : xorSum n (fun k => if k = j then f k else 0) = f j := by
  induction n with
  | zero => exact absurd h (Nat.not_lt_zero j)
  | succ n ih =>
    rw [xorSum_succ]
    rcases Nat.lt_succ_iff_lt_or_eq.1 h with lt | rfl
    · rw [ih lt, if_neg (Nat.ne_of_gt lt)]
      simp
    · rw [if_pos rfl, xorSum_congr (g := fun _ => 0) fun k hk => if_neg (Nat.ne_of_lt hk), xorSum_zero]
      simp

/-! ### Columns of pages -/

theorem nth_gfAcc (c : Nat) {a v : Bytes} (h : v.length = a.length) (i : Nat) :
    nth (gfAcc c a v) i 0 = nth a i 0 ^^^ gfScale c (nth v i 0) := by
  simp only [nth, gfAcc, List.getD_eq_getElem?_getD, List.getElem?_zipWith]
  rcases Nat.lt_or_ge i a.length with hi | hi
  · rw [List.getElem?_eq_getElem hi, List.getElem?_eq_getElem (h ▸ hi)]
    rfl
  · rw [List.getElem?_eq_none hi, List.getElem?_eq_none (h ▸ hi)]
    simp

theorem gfAcc_length (c : Nat) {a v : Bytes} (h : v.length = a.length) : (gfAcc c a v).length = a.length := by
  rw [gfAcc, List.length_zipWith, h, Nat.min_self]

theorem bytes_eq_of_nth {a b : Bytes} (hl : a.length = b.length) (h : ∀ i, nth a i 0 = nth b i 0) : a = b :=
  List.ext_getElem hl fun i ha hb => by simpa [nth, List.getD_eq_getElem?_getD, ha, hb] using h i

theorem nth_zeros (n i : Nat) : nth (zeros n) i 0 = 0 := by
  simp only [nth, zeros, List.getD_eq_getElem?_getD, List.getElem?_replicate]
  split <;> rfl

theorem zeros_length (n : Nat) : (zeros n).length = n := List.length_replicate

section Folds

variable {α : Type} {n : Nat} {l : List α} {c : α → Nat} {v : α → Bytes}

theorem foldl_gfAcc_length (hv : ∀ e ∈ l, (v e).length = n) {a : Bytes} (ha : a.length = n) :
    (l.foldl (fun a e => gfAcc (c e) a (v e)) a).length = n := by
  induction l generalizing a with
  | nil => exact ha
  | cons e l ih =>
    have he := (hv e List.mem_cons_self).trans ha.symm
    exact ih (fun x hx => hv x (List.mem_cons_of_mem _ hx)) ((gfAcc_length _ he).trans ha)

/-- A column of accumulated pages is the accumulated columns. -/
theorem nth_foldl_gfAcc (hv : ∀ e ∈ l, (v e).length = n) {a : Bytes} (ha : a.length = n) (i : Nat) :
    nth (l.foldl (fun a e => gfAcc (c e) a (v e)) a) i 0 = l.foldl (fun x e => x ^^^ gfScale (c e) (nth (v e) i 0)) (nth a i 0) := by
  induction l generalizing a with
  | nil => rfl
  | cons e l ih =>
    have he := (hv e List.mem_cons_self).trans ha.symm
    rw [List.foldl_cons, ih (fun x hx => hv x (List.mem_cons_of_mem _ hx)) ((gfAcc_length _ he).trans ha), nth_gfAcc _ he]
    rfl

end Folds

/-! ### P and Q (R153) -/

theorem eq_map_nth {α : Type} (l : List α) (x : α) : l = (List.range l.length).map fun k => nth l k x :=
  List.ext_getElem (by simp) fun k hk _ => by simp [nth, hk]

section Parity

variable {l l' : List Bytes} {n : Nat}

theorem parityP_length (hb : ∀ b ∈ l, b.length = n) : (parityP l n).length = n :=
  foldl_gfAcc_length (c := fun _ => 1) (v := id) hb (zeros_length n)

theorem parityQ_length (hb : ∀ b ∈ l, b.length = n) : (parityQ l n).length = n :=
  foldl_gfAcc_length (v := Prod.snd) (fun _ he => hb _ (List.of_mem_zip he).2) (zeros_length n)

theorem nth_parityP (hb : ∀ b ∈ l, b.length = n) (i : Nat) :
    nth (parityP l n) i 0 = xorSum l.length fun k => nth (nth l k []) i 0 := by
  refine (nth_foldl_gfAcc (c := fun _ => 1) (v := id) hb (zeros_length n) i).trans ?_
  conv => lhs; rw [eq_map_nth l [], nth_zeros]
  simp only [List.foldl_map, one_gfScale]
  rfl

theorem nth_parityQ (hb : ∀ b ∈ l, b.length = n) (i : Nat) :
    nth (parityQ l n) i 0 = xorSum l.length fun k => gfScale (gfPow2 k) (nth (nth l k []) i 0) := by
  have pairs : (List.range l.length).zip l = (List.range l.length).map fun k => (k, nth l k []) := by
    conv => lhs; rw [eq_map_nth l []]
    simpa using List.zip_map' (f := id) (g := fun k => nth l k []) (l := List.range l.length)
  rw [parityQ, nth_foldl_gfAcc (v := Prod.snd) (fun _ he => hb _ (List.of_mem_zip he).2) (zeros_length n), nth_zeros, pairs, List.foldl_map]
  rfl

/-- What P differs by from the members left is what is lost. -/
theorem nth_parityP_diff (hb : ∀ b ∈ l, b.length = n) (hb' : ∀ b ∈ l', b.length = n) (hl : l'.length = l.length) (i : Nat) :
    nth (gfAcc 1 (parityP l n) (parityP l' n)) i 0 = xorSum l.length fun k => nth (nth l k []) i 0 ^^^ nth (nth l' k []) i 0 := by
  rw [nth_gfAcc 1 ((parityP_length hb').trans (parityP_length hb).symm), one_gfScale, nth_parityP hb, nth_parityP hb', hl, xorSum_xor]

theorem nth_parityQ_diff (hb : ∀ b ∈ l, b.length = n) (hb' : ∀ b ∈ l', b.length = n) (hl : l'.length = l.length) (i : Nat) :
    nth (gfAcc 1 (parityQ l n) (parityQ l' n)) i 0 =
      xorSum l.length fun k => gfScale (gfPow2 k) (nth (nth l k []) i 0 ^^^ nth (nth l' k []) i 0) := by
  simp only [gfScale_xor]
  rw [nth_gfAcc 1 ((parityQ_length hb').trans (parityQ_length hb).symm), one_gfScale, nth_parityQ hb, nth_parityQ hb', hl, xorSum_xor]

/-- Zeros stand for a lost member. -/
theorem length_of_mem_setNth_zeros (hb : ∀ b ∈ l, b.length = n) (j : Nat) : ∀ b ∈ setNth l j (zeros n), b.length = n := fun b h =>
  (List.mem_or_eq_of_mem_set h).elim (hb b) fun e => e ▸ zeros_length n

theorem nth_setNth_zeros {j : Nat} (hj : j < l.length) (k i : Nat) :
    nth (nth (setNth l j (zeros n)) k []) i 0 = if k = j then 0 else nth (nth l k []) i 0 := by
  by_cases h : k = j
  · subst h
    have zero : nth (setNth l k (zeros n)) k [] = zeros n := by simp [nth, setNth, hj]
    rw [if_pos rfl, zero, nth_zeros]
  · simp [nth, setNth, Ne.symm h, h]

theorem nth_lost {j : Nat} (hj : j < l.length) (k i : Nat) :
    nth (nth l k []) i 0 ^^^ nth (nth (setNth l j (zeros n)) k []) i 0 = if k = j then nth (nth l k []) i 0 else 0 := by
  rw [nth_setNth_zeros hj]
  split <;> simp

theorem nth_length (hb : ∀ b ∈ l, b.length = n) {j : Nat} (hj : j < l.length) : (nth l j []).length = n := by
  rw [nth, List.getD_eq_getElem l [] hj]
  exact hb _ (List.getElem_mem hj)

theorem rebuildFromP_lost (hb : ∀ b ∈ l, b.length = n) {j : Nat} (hj : j < l.length) :
    rebuildFromP (setNth l j (zeros n)) (parityP l n) = nth l j [] := by
  have hb' := length_of_mem_setNth_zeros hb j
  have len := (parityP_length hb').trans (parityP_length hb).symm
  rw [rebuildFromP, parityP_length hb]
  refine bytes_eq_of_nth ?_ fun i => ?_
  · rw [gfAcc_length 1 len, parityP_length hb, nth_length hb hj]
  · rw [nth_parityP_diff hb hb' List.length_set]
    simp only [nth_lost hj]
    exact xorSum_single hj _

theorem rebuildFromQ_lost (hb : ∀ b ∈ l, b.length = n) {j : Nat} (hj : j < l.length) :
    rebuildFromQ (setNth l j (zeros n)) j (parityQ l n) = nth l j [] := by
  have hb' := length_of_mem_setNth_zeros hb j
  have diff := (gfAcc_length 1 ((parityQ_length hb').trans (parityQ_length hb).symm)).trans (parityQ_length hb)
  have len := diff.trans (zeros_length n).symm
  rw [rebuildFromQ, parityQ_length hb]
  refine bytes_eq_of_nth ?_ fun i => ?_
  · rw [gfAcc_length _ len, zeros_length, nth_length hb hj]
  · rw [nth_gfAcc _ len, nth_zeros, nth_parityQ_diff hb hb' List.length_set]
    simp only [nth_lost hj, gfScale_ite]
    rw [xorSum_single hj fun k => gfScale (gfPow2 k) (nth (nth l k []) i 0), (gfUnit_gfPow2 j).inv_scale]
    simp

/-- Two lost members' values, as single ones. -/
theorem nth_lostTwo {i j : Nat} (hi : i < l.length) (hj : j < l.length) (hne : i ≠ j) (k m : Nat) :
    nth (nth l k []) m 0 ^^^ nth (nth (setNth (setNth l i (zeros n)) j (zeros n)) k []) m 0 =
      (if k = i then nth (nth l k []) m 0 else 0) ^^^ (if k = j then nth (nth l k []) m 0 else 0) := by
  rw [nth_setNth_zeros (by rwa [setNth, List.length_set]), nth_setNth_zeros hi]
  by_cases hki : k = i
  · subst hki
    simp [hne]
  · by_cases hkj : k = j <;> simp [hki, hkj, hne.symm]

theorem rebuildTwo_lost (hb : ∀ b ∈ l, b.length = n) {i j : Nat} (hi : i < l.length) (hj : j < l.length) (hne : i ≠ j)
    (hu : GfUnit (gfPow2 i ^^^ gfPow2 j)) :
    rebuildTwo (setNth (setNth l i (zeros n)) j (zeros n)) i j (parityP l n) (parityQ l n) = (nth l i [], nth l j []) := by
  have hb' := length_of_mem_setNth_zeros (length_of_mem_setNth_zeros hb i) j
  have size : (setNth (setNth l i (zeros n)) j (zeros n)).length = l.length := by simp [setNth]
  have lenP := (gfAcc_length 1 ((parityP_length hb').trans (parityP_length hb).symm)).trans (parityP_length hb)
  have lenQ := (gfAcc_length 1 ((parityQ_length hb').trans (parityQ_length hb).symm)).trans (parityQ_length hb)
  have lenMix := (gfAcc_length (gfPow2 i) (lenP.trans lenQ.symm)).trans lenQ
  have sumP (m : Nat) : nth (gfAcc 1 (parityP l n) (parityP (setNth (setNth l i (zeros n)) j (zeros n)) n)) m 0 =
      nth (nth l i []) m 0 ^^^ nth (nth l j []) m 0 := by
    rw [nth_parityP_diff hb hb' size]
    simp only [nth_lostTwo hi hj hne]
    rw [xorSum_xor, xorSum_single hi, xorSum_single hj]
  have sumQ (m : Nat) : nth (gfAcc 1 (parityQ l n) (parityQ (setNth (setNth l i (zeros n)) j (zeros n)) n)) m 0 =
      gfScale (gfPow2 i) (nth (nth l i []) m 0) ^^^ gfScale (gfPow2 j) (nth (nth l j []) m 0) := by
    rw [nth_parityQ_diff hb hb' size]
    simp only [nth_lostTwo hi hj hne, gfScale_xor, gfScale_ite]
    rw [xorSum_xor]
    exact congrArg₂ _ (xorSum_single hi fun k => gfScale (gfPow2 k) (nth (nth l k []) m 0))
      (xorSum_single hj fun k => gfScale (gfPow2 k) (nth (nth l k []) m 0))
  have lenZ := lenMix.trans (zeros_length n).symm
  have second : gfAcc (gfInv (gfPow2 i ^^^ gfPow2 j)) (zeros n) (gfAcc (gfPow2 i)
      (gfAcc 1 (parityQ l n) (parityQ (setNth (setNth l i (zeros n)) j (zeros n)) n))
      (gfAcc 1 (parityP l n) (parityP (setNth (setNth l i (zeros n)) j (zeros n)) n))) = nth l j [] := by
    refine bytes_eq_of_nth ?_ fun m => ?_
    · rw [gfAcc_length _ lenZ, zeros_length, nth_length hb hj]
    · rw [nth_gfAcc _ lenZ, nth_zeros, nth_gfAcc _ (lenP.trans lenQ.symm), sumP, sumQ, gfScale_xor (gfPow2 i)]
      have both : ∀ x y z : Byte, (x ^^^ y) ^^^ (x ^^^ z) = z ^^^ y := fun x y z => by
        rw [BitVec.xor_comm x y, BitVec.xor_assoc, ← BitVec.xor_assoc x x z, BitVec.xor_self, BitVec.zero_xor, BitVec.xor_comm]
      rw [both, ← xor_gfScale, hu.inv_scale]
      simp
  rw [rebuildTwo, parityP_length hb, parityQ_length hb, second]
  refine Prod.ext (bytes_eq_of_nth ?_ fun m => ?_) rfl
  · rw [gfAcc_length 1 ((nth_length hb hj).trans lenP.symm), lenP, nth_length hb hi]
  · rw [nth_gfAcc 1 ((nth_length hb hj).trans lenP.symm), sumP, one_gfScale, BitVec.xor_assoc, BitVec.xor_self]
    simp

end Parity

/-! ### Any place of a row from its repair terms (R153, R221, R230) -/

/-- What the page of a place takes of data member `k`. -/
def placeCoeff (r k : Nat) : Nat := if r = 30 then 1 else if r = 31 then gfPow2 k else if k = r then 1 else 0

/-- The page of a place: P is 30, Q is 31. -/
def rowPage (l : List Bytes) (n r : Nat) : Bytes := if r = 30 then parityP l n else if r = 31 then parityQ l n else nth l r []

/-- What terms take of data member `k`. -/
def termSum (k : Nat) : List (Nat × Nat) → Nat
  | [] => 0
  | e :: t => gfMul e.2 (placeCoeff e.1 k) ^^^ termSum k t

theorem termSum_append (k : Nat) (t u : List (Nat × Nat)) : termSum k (t ++ u) = termSum k t ^^^ termSum k u := by
  induction t with
  | nil => exact (Nat.zero_xor _).symm
  | cons e t ih => rw [List.cons_append, termSum, termSum, ih, Nat.xor_assoc]

section Places

variable {l : List Bytes} {n : Nat}

theorem rowPage_length (hl : l.length = 30) (hb : ∀ b ∈ l, b.length = n) {r : Nat} (hr : r < 32) : (rowPage l n r).length = n := by
  unfold rowPage
  split
  · exact parityP_length hb
  · split
    · exact parityQ_length hb
    · exact nth_length hb (by omega)

theorem nth_rowPage (hl : l.length = 30) (hb : ∀ b ∈ l, b.length = n) {r : Nat} (hr : r < 32) (i : Nat) :
    nth (rowPage l n r) i 0 = xorSum 30 fun k => gfScale (placeCoeff r k) (nth (nth l k []) i 0) := by
  unfold rowPage placeCoeff
  split
  · rw [nth_parityP hb, hl]
    simp only [one_gfScale]
  · split
    · rw [nth_parityQ hb, hl]
    · rw [← xorSum_single (show r < 30 by omega) fun k => nth (nth l k []) i 0]
      refine xorSum_congr fun k _ => ?_
      split <;> simp

theorem placeCoeff_lt (r k : Nat) : placeCoeff r k < 256 := by
  have power := gfPow2_lt k
  unfold placeCoeff
  split_ifs <;> omega

/-- Terms of sums are sums of terms. -/
theorem foldl_terms_xorSum (d : Nat → Byte) {t : List (Nat × Nat)} (hc : ∀ e ∈ t, e.2 < 256) (x : Byte) :
    t.foldl (fun x e => x ^^^ gfScale e.2 (xorSum 30 fun k => gfScale (placeCoeff e.1 k) (d k))) x =
      x ^^^ xorSum 30 fun k => gfScale (termSum k t) (d k) := by
  induction t generalizing x with
  | nil =>
    simp only [termSum, zero_gfScale]
    rw [show xorSum 30 (fun _ => 0#8) = 0#8 from xorSum_zero 30, BitVec.xor_zero]
    rfl
  | cons e t ih =>
    rw [List.foldl_cons, ih fun y hy => hc y (List.mem_cons_of_mem _ hy), gfScale_xorSum, BitVec.xor_assoc, ← xorSum_xor]
    simp only [gfScale_gfScale (hc e List.mem_cons_self) (placeCoeff_lt _ _), ← xor_gfScale, termSum]

/-- Terms of other places than `r` and `o` that take of every data member what the page of `r` takes. -/
structure Gives (r : Nat) (o : Option Nat) (t : List (Nat × Nat)) : Prop where
  others : ∀ e ∈ t, e.1 ≠ r ∧ some e.1 ≠ o
  places : ∀ e ∈ t, e.1 < 32
  coeffs : ∀ e ∈ t, e.2 < 256
  sum : ∀ k < 30, termSum k t = placeCoeff r k

theorem Gives.foldl_eq {r : Nat} {o : Option Nat} {t : List (Nat × Nat)} (h : Gives r o t) (hl : l.length = 30)
    (hb : ∀ b ∈ l, b.length = n) (hr : r < 32) : t.foldl (fun a e => gfAcc e.2 a (rowPage l n e.1)) (zeros n) = rowPage l n r := by
  have len : ∀ e ∈ t, (rowPage l n e.1).length = n := fun e he => rowPage_length hl hb (h.places e he)
  refine bytes_eq_of_nth ?_ fun i => ?_
  · rw [foldl_gfAcc_length len (zeros_length n), rowPage_length hl hb hr]
  have pages : t.foldl (fun x e => x ^^^ gfScale e.2 (nth (rowPage l n e.1) i 0)) 0 =
      t.foldl (fun x e => x ^^^ gfScale e.2 (xorSum 30 fun k => gfScale (placeCoeff e.1 k) (nth (nth l k []) i 0))) 0 :=
    List.foldl_ext _ _ _ fun x e he => by rw [nth_rowPage hl hb (h.places e he)]
  rw [nth_foldl_gfAcc len (zeros_length n), nth_zeros, pages, foldl_terms_xorSum _ h.coeffs, nth_rowPage hl hb hr]
  refine (BitVec.zero_xor).trans (xorSum_congr fun k hk => ?_)
  rw [h.sum k hk]

end Places

/-- The terms of the data members left. -/
def dataTerms (r : Nat) (o : Option Nat) (f : Nat → Nat) : List (Nat × Nat) :=
  ((List.range 30).filter fun k => k ≠ r && some k ≠ o).map fun k => (k, f k)

section Terms

variable {r : Nat} {o : Option Nat} {f : Nat → Nat}

theorem mem_dataTerms {e : Nat × Nat} : e ∈ dataTerms r o f ↔ e.1 < 30 ∧ e.1 ≠ r ∧ some e.1 ≠ o ∧ e.2 = f e.1 := by
  simp only [dataTerms, List.mem_map, List.mem_filter, List.mem_range, Bool.and_eq_true, decide_eq_true_eq]
  constructor
  · rintro ⟨k, ⟨hk, hr, ho⟩, rfl⟩
    exact ⟨hk, hr, ho, rfl⟩
  · rintro ⟨hk, hr, ho, he⟩
    exact ⟨e.1, ⟨hk, hr, ho⟩, Prod.ext rfl he.symm⟩

/-- What data members' terms take of one of them is that member's coefficient. -/
theorem termSum_data (hf : ∀ k < 30, f k < 256) (p : Nat → Bool) {m k : Nat} (hm : m ≤ 30) :
    termSum k (((List.range m).filter p).map fun k => (k, f k)) = if k < m ∧ p k then f k else 0 := by
  induction m with
  | zero => simp [termSum]
  | succ m ih =>
    have place : placeCoeff m k = if k = m then 1 else 0 := by rw [placeCoeff, if_neg (by omega), if_neg (by omega)]
    have one : termSum k (([m].filter p).map fun k => (k, f k)) = if k = m ∧ p m then f m else 0 := by
      by_cases hp : p m
      · split_ifs at place with hk
        · simp [termSum, hp, hk, hk ▸ place, gfMul_one (hf m (by omega))]
        · simp [termSum, hp, place, hk, gfMul_zero]
      · simp [termSum, hp]
    rw [List.range_succ, List.filter_append, List.map_append, termSum_append, ih (by omega), one]
    rcases Nat.lt_trichotomy k m with h | rfl | h
    · simp [h, Nat.ne_of_lt h, Nat.lt_succ_of_lt h]
    · simp
    · simp [Nat.not_lt.2 (Nat.le_of_lt h), Nat.ne_of_gt h, Nat.not_lt.2 (Nat.succ_le_of_lt h)]

/-- Terms of the data members left and of parity. -/
theorem Gives.of_dataTerms {u : List (Nat × Nat)} (hf : ∀ k < 30, f k < 256)
    (hu : ∀ e ∈ u, 30 ≤ e.1 ∧ e.1 < 32 ∧ e.1 ≠ r ∧ some e.1 ≠ o ∧ e.2 < 256)
    (hs : ∀ k < 30, (if k ≠ r ∧ some k ≠ o then f k else 0) ^^^ termSum k u = placeCoeff r k) : Gives r o (dataTerms r o f ++ u) where
  others e he := by
    rcases List.mem_append.1 he with h | h
    · obtain ⟨-, hr, ho, -⟩ := mem_dataTerms.1 h
      exact ⟨hr, ho⟩
    · obtain ⟨-, -, hr, ho, -⟩ := hu e h
      exact ⟨hr, ho⟩
  places e he := by
    rcases List.mem_append.1 he with h | h
    · obtain ⟨hk, -⟩ := mem_dataTerms.1 h
      exact hk.trans (by decide)
    · obtain ⟨-, hk, -⟩ := hu e h
      exact hk
  coeffs e he := by
    rcases List.mem_append.1 he with h | h
    · obtain ⟨hk, -, -, hc⟩ := mem_dataTerms.1 h
      exact hc ▸ hf _ hk
    · obtain ⟨-, -, -, -, hc⟩ := hu e h
      exact hc
  sum k hk := by
    rw [termSum_append, dataTerms, termSum_data hf _ le_rfl, ← hs k hk]
    simp [hk]

theorem gfMul_xor_right (c a b : Nat) : gfMul c (a ^^^ b) = gfMul c a ^^^ gfMul c b := gfMulAux_xor_right 8 c a b

end Terms

section Cases

variable {r i : Nat} {o : Option Nat}

@[simp] theorem placeCoeff_p (k : Nat) : placeCoeff 30 k = 1 := rfl
@[simp] theorem placeCoeff_q (k : Nat) : placeCoeff 31 k = gfPow2 k := rfl
theorem placeCoeff_data (hr : r < 30) (k : Nat) : placeCoeff r k = if k = r then 1 else 0 := by
  rw [placeCoeff, if_neg (by omega), if_neg (by omega)]

theorem filter_data (hi : i < 30) : (some i).filter (· < 30) = some i := Option.filter_some_pos (decide_eq_true hi)

theorem ne_of_filter_data {k : Nat} (ho : o.filter (· < 30) = none) (hk : k < 30) : some k ≠ o := by
  rintro rfl
  rw [filter_data hk] at ho
  cases ho

/-- A data member, another one lost too: from P and Q. -/
theorem gives_termCoeffs_data_data (hr : r < 30) (hi : i < 30) (hne : i ≠ r) : Gives r (some i) (termCoeffs r (some i)) := by
  have unit := gfUnit_gfPow2_xor hi hr hne
  have inv := unit.inv_mul
  have ltP := gfMul_lt unit.inv_lt (gfPow2 i)
  have ltQ := unit.inv_lt
  simp only [termCoeffs, if_pos hr, filter_data hi]
  rw [gfMul_xor_right] at inv
  refine .of_dataTerms (fun k _ => gfMul_lt ltQ _) (by simp; omega) fun k _ => ?_
  simp only [termSum, placeCoeff_p, placeCoeff_q, placeCoeff_data hr, gfMul_one ltP, gfMul_xor_right, Nat.xor_zero]
  by_cases kr : k = r
  · simp [kr, inv]
  · by_cases ki : k = i
    · simp [ki, hne]
    · simp [kr, ki, Nat.xor_assoc]

/-- A data member, P lost too: from Q. -/
theorem gives_termCoeffs_data_p (hr : r < 30) : Gives r (some 30) (termCoeffs r (some 30)) := by
  have unit := gfUnit_gfPow2 r
  have ltQ := unit.inv_lt
  simp only [termCoeffs, if_pos hr, show (some 30).filter (· < 30) = none from rfl, if_true]
  refine .of_dataTerms (fun k _ => gfMul_lt ltQ _) (by simp; omega) fun k hk => ?_
  simp only [termSum, placeCoeff_q, placeCoeff_data hr, Nat.xor_zero]
  by_cases kr : k = r
  · simp [kr, unit.inv_mul]
  · simp [kr, Nat.ne_of_lt hk]

/-- A data member, no other one and not P lost: from P. -/
theorem gives_termCoeffs_data (hr : r < 30) (ho : o.filter (· < 30) = none) (hp : o ≠ some 30) : Gives r o (termCoeffs r o) := by
  simp only [termCoeffs, if_pos hr, ho, if_neg hp]
  refine .of_dataTerms (fun k _ => by decide) (by simp [hp.symm]; omega) fun k hk => ?_
  simp only [termSum, placeCoeff_p, placeCoeff_data hr, Nat.xor_zero]
  by_cases kr : k = r
  · simp [kr, gfMul_one]
  · have ko := ne_of_filter_data ho hk
    simp [kr, ko, gfMul_one]

/-- P, a data member lost too: from Q. -/
theorem gives_termCoeffs_p_data (hi : i < 30) : Gives 30 (some i) (termCoeffs 30 (some i)) := by
  have unit := gfUnit_gfPow2 i
  have ltQ := unit.inv_lt
  simp only [termCoeffs, filter_data hi, Nat.lt_irrefl, if_false, if_true]
  refine .of_dataTerms (fun k _ => Nat.xor_lt_two_pow (n := 8) (by decide) (gfMul_lt ltQ _)) (by simp; omega) fun k hk => ?_
  simp only [termSum, placeCoeff_p, placeCoeff_q, Nat.xor_zero]
  by_cases ki : k = i
  · simp [ki, unit.inv_mul]
  · simp [ki, Nat.ne_of_lt hk]

theorem gives_termCoeffs_p (ho : o.filter (· < 30) = none) : Gives 30 o (termCoeffs 30 o) := by
  simp only [termCoeffs, ho, Nat.lt_irrefl, if_false, if_true]
  rw [← List.append_nil (List.map _ _)]
  refine .of_dataTerms (fun k _ => by decide) (by simp) fun k hk => ?_
  have ko := ne_of_filter_data ho hk
  simp [termSum, ko, Nat.ne_of_lt hk]

/-- Q, a data member lost too: from P. -/
theorem gives_termCoeffs_q_data (hi : i < 30) : Gives 31 (some i) (termCoeffs 31 (some i)) := by
  have ltP := gfPow2_lt i
  simp only [termCoeffs, filter_data hi, show ¬ 31 < 30 by decide, show ¬ 31 = 30 by decide, if_false]
  refine .of_dataTerms (fun k _ => Nat.xor_lt_two_pow (n := 8) (gfPow2_lt k) ltP) (by simp; omega) fun k hk => ?_
  simp only [termSum, placeCoeff_p, placeCoeff_q, Nat.xor_zero, gfMul_one ltP]
  by_cases ki : k = i
  · simp [ki]
  · simp [ki, show k ≠ 31 by omega]

theorem gives_termCoeffs_q (ho : o.filter (· < 30) = none) : Gives 31 o (termCoeffs 31 o) := by
  simp only [termCoeffs, ho, show ¬ 31 < 30 by decide, show ¬ 31 = 30 by decide, if_false]
  rw [← List.append_nil (List.map _ _)]
  refine .of_dataTerms (fun k _ => gfPow2_lt k) (by simp) fun k hk => ?_
  have ko := ne_of_filter_data ho hk
  simp [termSum, ko, show k ≠ 31 by omega]

end Cases

theorem gives_termCoeffs {r : Nat} {o : Option Nat} (hr : r < 32) (ho : ∀ k, o = some k → k < 32 ∧ k ≠ r) :
    Gives r o (termCoeffs r o) := by
  have place : r < 30 ∨ r = 30 ∨ r = 31 := by omega
  by_cases data : ∃ i, o = some i ∧ i < 30
  · obtain ⟨i, rfl, hi⟩ := data
    rcases place with hr | rfl | rfl
    · exact gives_termCoeffs_data_data hr hi (ho i rfl).2
    · exact gives_termCoeffs_p_data hi
    · exact gives_termCoeffs_q_data hi
  · have none : o.filter (· < 30) = none := Option.filter_eq_none_iff.2 fun i h lt => data ⟨i, h, of_decide_eq_true lt⟩
    rcases place with hr | rfl | rfl
    · rcases eq_or_ne o (some 30) with rfl | hp
      · exact gives_termCoeffs_data_p hr
      · exact gives_termCoeffs_data hr none hp
    · exact gives_termCoeffs_p none
    · exact gives_termCoeffs_q none

/-- Settles O60: a lost member is what parity differs by from the members left, and the terms of a row take of every data member what the page
of the lost place takes. -/
theorem lostMembersComeBackFromParity : Obligations.LostMembersComeBackFromParity := by
  unfold Obligations.LostMembersComeBackFromParity
  intro l n hl hb p q page
  refine ⟨fun j hj => ⟨rebuildFromP_lost hb (hl ▸ hj), rebuildFromQ_lost hb (hl ▸ hj)⟩, fun i j hij hj => ?_, fun r o hr ho => ?_⟩
  · exact rebuildTwo_lost hb (by omega) (by omega) (Nat.ne_of_lt hij) (gfUnit_gfPow2_xor (hij.trans hj) hj (Nat.ne_of_lt hij))
  · have gives := gives_termCoeffs hr ho
    exact ⟨gives.others, gives.foldl_eq hl hb hr⟩

end Sys2Proof.Machine
end

section
namespace Sys2Proof.Machine

open Sys2Proof

/-! ## Pond gating on the way down (R416, R417) -/

/-- On the way from OP5 down to OP2: the clocks run at OP2 already, and since five ponds run and OP2 allows four, the voltage waits and CLK_OP.CUR
still shows 5 (R417). -/
def sinking : State :=
  ({ State.reset with pwr := { State.reset.pwr with clkOp := 2 } }.wr Fd.CLK_OP_CUR 5).wr Fd.EFT_POND_MAP_GATED 0xE0

/-- Whether a pond is gated in the state a result answers. -/
def gatedAfter (r : Result) (p : Nat) : Option Bool :=
  match r with
  | .next t => some (t.gated p)
  | _ => none

theorem gatedAfter_next {t : State} {p : Nat} : gatedAfter (.next t) p = some (t.gated p) := rfl

theorem sinking_stays_gated : gatedAfter (exec (.pondUngate 5) sinking) 5 = some true := by decide +kernel

theorem sinking_below_cur : sinking.pwr.gating.contains 5 = false ∧ sinking.gated 5 = true ∧
    sinking.ungated < opPonds (sinking.rd Fd.CLK_OP_CUR) ∧
    ((List.range 5).any fun q => sinking.gated q && decide (4 ≤ sinking.unfenced q)) = false := by decide +kernel

/-- Refutes O20: the statement allows as many ponds as CLK_OP.CUR does. While the part goes down the clocks' own point is lower, a pond ungated
would be one more to wait for, and none is ungated above what that point allows. -/
theorem not_pondGating : ¬ Obligations.PondGating := by
  unfold Obligations.PondGating
  intro h
  obtain ⟨idle, gated, few, lowest⟩ := sinking_below_cur
  obtain ⟨t, ht, ungated⟩ := (h sinking 5 (by decide)).2.2 idle gated few lowest
  have stays := sinking_stays_gated
  rw [ht, gatedAfter_next, ungated] at stays
  exact absurd stays (by decide)

end Sys2Proof.Machine
end

section
namespace Sys2Proof.Machine

open Sys2Proof

/-! ## A read-class item that waits for overflow buffers (R142) -/

section Waits

variable {s : State} {p n : Nat}

/-- The eft's deque after the wait is counted, or was counted before. -/
theorem State.waits_deque (b : Bool) : ((if b then s else (s.bump (Fd.EFT_PD_OVF_NOBUF p) 1).modEft p n fun e => { e with noBuf := true }).eft p n).deque =
    (s.eft p n).deque := by
  cases b
  · have bumped : (s.bump (Fd.EFT_PD_OVF_NOBUF p) 1).eft p n = s.eft p n := by simp [State.eft]
    simp [bumped]
  · rfl

theorem State.parkOutput_idle (hr : (s.eft p n).run = none) : s.parkOutput p n = s := by
  simp [State.parkOutput, hr]

theorem State.takeNear_head {want : ItemCls → Bool} {i : Item} {r : List Item} (hd : (s.eft p n).deque = i :: r) (ht : i.isTest = false)
    (hw : want i.cls = true) : s.takeNear p n want = some (i, s.modEft p n fun e => { e with deque := e.deque.erase i }) := by
  have next : nextEntry (i :: r) = some i := by simp [nextEntry, ht]
  simp [State.takeNear, hd, next, hw]

/-- An idle eft that finds too few buffers free for the clutch it has in hand counts the wait once, and leaves the entry in its deque. -/
theorem State.takeRead_waits {want : ItemCls → Bool} {faulty : Bool} {i : Item} {r : List Item} {c : Cmd} {x : Clutch} {ns : Ns} {st : Stored}
    {die : Bool} (hr : (s.eft p n).run = none) (hd : (s.eft p n).deque = i :: r) (ht : i.isTest = false) (hw : want i.cls = true)
    (hc : s.cmd i.tag = some c) (hx : s.clutchOf i.ix = some x) (hn : s.ns c.nsid = some ns) (hp : x.place ≠ .lost)
    (hi : s.inHand p n i x = some (st, die)) (hb : s.rd (Fd.EFT_PD_OVF_FREE p) < ovfNeed (32 + st.region.length)) :
    s.takeRead p n want faulty =
      if (s.eft p n).noBuf then s else (s.bump (Fd.EFT_PD_OVF_NOBUF p) 1).modEft p n fun e => { e with noBuf := true } := by
  have cmd (g : Eft → Eft) : (s.modEft p n g).cmd i.tag = some c := hc
  have clutch (g : Eft → Eft) : (s.modEft p n g).clutchOf i.ix = some x := hx
  have space (g : Eft → Eft) : (s.modEft p n g).ns c.nsid = some ns := hn
  simp only [State.takeRead, hr, State.takeNear_head hd ht hw, ht, Bool.false_and, cmd, clutch, Bool.false_eq_true, if_false]
  rw [space]
  simp [hp, hi, hb]

end Waits

/-! ### A clutch in hand that is longer than the one the index has -/

/-- A namespace of single-block clutches, stored raw, whose media key stands in slot 3. -/
def rawNs : Ns := ⟨2, false, 1000, 1, 0, 0, 0, 0, false, false, some 0, true, some 3, true, 1, 5, some 0⟩

/-- A Digest Range of its first block, owned by eft 0 of pond 0. -/
def digestCmd : Cmd := { Cmd.new 0 0 ⟨0, 1, 0, 0, 0, 0, false⟩ .digest 2 0 1 with started := true, targets := [1], owner := some 0 }

/-- Its feed, resumed with what has landed. -/
def digestItem : Item := ⟨.digest, .fn 0, 0, 1, true, none, false⟩

/-- What 98,304 stored bytes of zeros decrypt to under a key of zeros, up to the logical length. -/
def longPlain : Bytes := (xtsDec (zeros 64) 0 (zeros regionB)).take 4096

/-- A stored clutch that with its header outgrows region B. -/
def longStored : Stored :=
  ⟨({ magic := clutchMagic, fmt := 1, level := 0, llen := 4096, slen := 4096, check := crc32c longPlain, lba := 0, tag := 0, crc := 0 } : Hdr).seal,
    zeros regionB⟩

/-- The clutch as the index has it: with no stored bytes. -/
def shortClutch : Clutch := ⟨1, 2, 0, 0, 65, 0, 1, 0, ⟨longStored.hdr, []⟩, .spawn 7, true, 0, 0, 0⟩

/-- Pond 0 has no free overflow buffer, and the long clutch has landed for the waiting feed. -/
def outOfBuffers : State :=
  { ((State.reset.setEft 0 0 { Eft.init with deque := [digestItem] }).setSlot 3 ⟨1, 0, 0, zeros 64⟩).wr (Fd.EFT_PD_OVF_FREE 0) 0 with
    nss := [rawNs], cmds := [digestCmd], clutches := [shortClutch], landing := [(0, 1, longStored)] }

theorem outOfBuffers_runs : outOfBuffers.fenced 0 0 = false ∧ outOfBuffers.gated 0 = false ∧ (outOfBuffers.eft 0 0).run = none ∧
    (outOfBuffers.eft 0 0).deque = [digestItem] ∧ outOfBuffers.slotWaits rawNs = false ∧ outOfBuffers.rd (Fd.EFT_PD_OVF_FREE 0) = 0 := by
  decide +kernel

theorem outOfBuffers_inHand : outOfBuffers.inHand 0 0 digestItem shortClutch = some (longStored, true) := rfl

/-- The guard takes a raw body whose length fits. -/
theorem guard_rawBody {clutch n : Nat} {b : Bytes} (h : badLogical n clutch = false) : Machine.guard clutch 1 n n b = .ok b := by
  simp [Machine.guard, h]

theorem outOfBuffers_readClutch : outOfBuffers.readClutch digestCmd rawNs longStored shortClutch.ngran false = .data longPlain := by
  have key : outOfBuffers.selectKey rawNs digestCmd.fn digestCmd.keyTag = .inl (zeros 64) := by decide +kernel
  have plain : (xtsDec (zeros 64) longStored.hdr.lba longStored.region).take longStored.hdr.slen = longPlain := rfl
  have body : Machine.guard rawNs.clutch longStored.hdr.fmt longStored.hdr.llen longStored.hdr.slen longPlain = .ok longPlain :=
    guard_rawBody (by decide)
  have check : crc32c longPlain = longStored.hdr.check := rfl
  have good : longStored.hdr.good = true := by simp [longStored, Hdr.good, Hdr.seal, Hdr.head]
  have tag : longStored.hdr.tag = digestCmd.fn := rfl
  have byLba : digestCmd.byLoc = false := rfl
  have noTuples : piBytes rawNs.fmt = 0 := rfl
  have noCheck (a b c d e : Nat) (x y : Bytes) : piCheckAll rawNs.fmt a b c d e x y = none := by cases d <;> rfl
  simp [State.readClutch, key, plain, body, check, good, tag, byLba, noTuples, noCheck]

theorem outOfBuffers_short : outOfBuffers.rd (Fd.EFT_PD_OVF_FREE 0) < ovfNeed (32 + longStored.region.length) := by
  have length : longStored.region.length = 98304 := zeros_length _
  obtain ⟨-, -, -, -, -, free⟩ := outOfBuffers_runs
  rw [free, length]
  decide

/-- Refutes O31: its hypothesis finds overflow buffers for the clutch as the index has it, and what a read-class item needs them for is the
clutch in hand. In a state where what has landed is longer, the item waits for buffers and its entry stays (R142). -/
theorem not_eftsStealAndRunItems : ¬ Obligations.EftsStealAndRunItems := by
  unfold Obligations.EftsStealAndRunItems
  rintro ⟨-, items⟩
  obtain ⟨fenced, gated, idle, deque, slot, free⟩ := outOfBuffers_runs
  obtain ⟨-, reads⟩ := items outOfBuffers 0 0 (by decide) (by decide) fenced gated
  obtain ⟨-, inHand⟩ := reads digestItem [] digestCmd rawNs shortClutch idle deque rfl rfl rfl (by decide) rfl rfl (by decide)
  obtain ⟨-, digest⟩ := inHand _ _ _ outOfBuffers_inHand (by decide) slot outOfBuffers_readClutch
  obtain ⟨t, ht, emptied, -⟩ := digest 0 rfl rfl
  have waits : outOfBuffers.takeRead 0 0 (· = .digest) false = _ :=
    State.takeRead_waits idle deque rfl rfl (c := digestCmd) rfl rfl (ns := rawNs) rfl (by decide) outOfBuffers_inHand outOfBuffers_short
  have run : exec (.digestFeed 0 0 false) outOfBuffers = .next (outOfBuffers.takeRead 0 0 (· = .digest) false) := by
    show execDigestFeed 0 0 false outOfBuffers = _
    simp [execDigestFeed, onEft, inRange, fenced, gated, State.parkOutput_idle idle]
  have stays : (t.eft 0 0).deque = [digestItem] := by
    rw [← Host.Outcome.next.inj (run.symm.trans ht), waits, State.waits_deque, deque]
  exact absurd (emptied.symm.trans stays) (by decide)

end Sys2Proof.Machine
end

section
namespace Sys2Proof.Machine

open Sys2Proof

/-! ## A replacement block past the last number a block key holds (R171, R230) -/

/-- With the first `n` numbers in use, the least free one from `lo` on is `n`. -/
theorem leastFree_range {n fuel lo : Nat} (h : lo ≤ n) (hf : n ≤ lo + fuel) : leastFree (List.range n) fuel lo = n := by
  induction fuel generalizing lo with
  | zero => exact Nat.le_antisymm h hf
  | succ fuel ih =>
    rw [leastFree]
    rcases Nat.lt_or_eq_of_le h with lt | rfl
    · rw [if_pos (by simpa using lt), ih lt (by omega)]
    · rw [if_neg (by simp)]

/-- A block map that lists the first `n` blocks of die 0 of channel 0, all of them in use. -/
def firstBlocks (n : Nat) : List (Nat × Block) := (List.range n).map fun k => (k, ⟨0, 0, 0, 2, false⟩)

section Choice

variable {s : State}

/-- The next block of die 0 is the one behind those. -/
theorem State.fresh_firstBlocks {n : Nat} (hb : s.xlt.blocks = firstBlocks n) (least : 4 ≤ n) (most : n ≤ 8192) (hn : n < s.med.blocksPerDie) :
    s.fresh 0 0 0 = some n := by
  have here : ∀ e ∈ firstBlocks n, decide (e.1 / 8192 = dieKey 0 0 0) = true := by
    intro e he
    obtain ⟨k, hk, rfl⟩ := List.mem_map.1 he
    exact decide_eq_true (Nat.div_eq_of_lt ((List.mem_range.1 hk).trans_le most))
  have listed : (s.listed 0 0 0).map (·.1) = List.range n := by
    rw [State.listed, hb, List.filter_eq_self.2 here, List.map_map, firstBlocks, List.map_map]
    conv => rhs; rw [← List.map_id (List.range n)]
    exact List.map_congr_left fun k hk => Nat.mod_eq_of_lt ((List.mem_range.1 hk).trans_le most)
  rw [State.fresh, listed, List.length_range, leastFree_range least (by omega), if_pos hn]

theorem State.lowBlock_fresh {ce ch l b : Nat} {r : List Nat} {slc : Bool} (hl : s.lunsOf ch ce = l :: r) (hf : s.fresh ch ce l = some b) :
    s.lowBlock ce ch slc = some (l, b) := by
  rw [State.lowBlock, hl, List.findSome?_cons, hf]
  rfl

theorem State.replacement_first {choir ch : Nat} {used r : List Nat} {slc : Bool} {b : Nat × Nat}
    (hc : ((List.range 64).filter fun ch => !used.contains ch) = ch :: r) (hb : s.lowBlock choir ch slc = some b) :
    s.replacement choir used slc = some ⟨ch, b.1, b.2, 0, 0⟩ := by
  rw [State.replacement, hc, List.findSome?_cons, hb]
  rfl

/-- A rebuild begins: with a spare left its member takes the replacement, whose REMAP has to wait for its program units. -/
theorem State.beginRebuild_takes {r : Rebuild} {d : Stripe} {m : Member} (hk : r.kind ≠ 1) (hc : r.copy = false)
    (hp : nth s.xlt.spares r.choir 0 ≠ 0) (hd : s.stripe r.id = some d) (hm : s.replacement r.choir (d.members.map (·.ch)) false = some m) :
    s.beginRebuild r = ((s.takeBlocks r.choir (if r.kind = 2 then 3 else 2) d.slot [m]).modRebuild r
      fun x => { x with target := some { m with status := 1 } }).remap (.member r.kind r.id r.pos) := by
  have spare : s.needSpare r.choir = s := if_neg hp
  have block : s.rebuildBlock r = some m := by
    simp [State.rebuildBlock, hc, hk, State.membersOf, hd, hm]
  simp [State.beginRebuild, hc, hk, spare, block, hd]

theorem State.rebuildNext_untaken {r : Rebuild} (ht : r.target = none) :
    s.rebuildNext r = if (s.beginRebuild r).med.rebuilds = s.med.rebuilds then none else some (s.beginRebuild r) := by
  rw [State.rebuildNext, ht]

theorem execRebuildMember_serves (hg : s.gateOpen = true) (hf : s.choState ≠ sFLUSH) (hs : s.flag Fd.GK_THERM_STOP = false) :
    execRebuildMember s = .next ((s.rebuildOrder.findSome? s.rebuildNext).getD s) := by
  simp [execRebuildMember, hg, hf, hs]

theorem State.remap_early {m : Remap} (h : s.copied m = false) : s.remap m = s := by
  rw [State.remap, h]
  rfl

end Choice

/-- The lost member 0 of stripe 1. -/
def lostMember : Rebuild := ⟨0, 0, 1, 0, 0, false, none⟩

/-- The 8,193rd block of die 0 of channel 0, whose key is that of block 0 of die 1. -/
def block8192 : Member := ⟨0, 0, 8192, 0, 0⟩

/-- Stripe 1: its one member, on channel 63, held one program unit and is to be rebuilt. -/
def strippedStripe : Stripe := ⟨1, 0, 0, 2, 1, 0, [⟨63, 0, 0, 1, 1⟩], 1, false, 0, 0, 0, 0, 0⟩

/-- Stripe 1 has lost its member. Of channel 0's dies of choir 0, die 0 is in service, with one block more than 8,192, and die 1 is retired. -/
def largeDie : State :=
  let s := ((State.reset.wr (Fd.MED_CH_DIES_MAP 0) 1).wr (Fd.MED_CH_RETIRED_MAP 0) 2).wr (Fd.CHO_TURNMAP_LEN 0) 1
  { s with
    xlt := { s.xlt with blocks := firstBlocks 8192, spares := [1, 0, 0, 0], stripes := [strippedStripe] }
    med := { s.med with blocksPerDie := 8193, rebuilds := [lostMember] } }

theorem largeDie_serves : largeDie.gateOpen = true ∧ largeDie.choState ≠ sFLUSH ∧ largeDie.flag Fd.GK_THERM_STOP = false ∧
    largeDie.rebuildOrder = [lostMember] ∧ largeDie.goal lostMember = 1 := by decide +kernel

theorem largeDie_replacement :
    largeDie.replacement lostMember.choir (strippedStripe.members.map (·.ch)) false = some block8192 := by
  have channels : ((List.range 64).filter fun ch => !(strippedStripe.members.map (·.ch)).contains ch) = 0 :: List.range' 1 62 := by decide
  have luns : largeDie.lunsOf 0 0 = [0] := by decide +kernel
  have fresh : largeDie.fresh 0 0 0 = some 8192 := State.fresh_firstBlocks (by simp only [largeDie]) (by omega) (by omega) (by decide +kernel)
  exact State.replacement_first channels (State.lowBlock_fresh luns fresh)

/-- The rebuild begun, the REMAP record apart. -/
def largeDieBegun : State :=
  (largeDie.takeBlocks 0 2 0 [block8192]).modRebuild lostMember fun x => { x with target := some { block8192 with status := 1 } }

theorem largeDie_begins : largeDie.beginRebuild lostMember = largeDieBegun := by
  have early : largeDieBegun.copied (.member 0 1 0) = false := by decide +kernel
  rw [State.beginRebuild_takes (d := strippedStripe) (by decide) rfl (by decide +kernel) (by decide +kernel) largeDie_replacement]
  exact State.remap_early early

theorem retired_after : (largeDie.block (block8192.key 0)).state = 7 ∧ (largeDieBegun.block (block8192.key 0)).state = 7 := by
  decide +kernel

/-- The block the member takes counts as one of the retired die, whether the rebuild has begun or not. -/
theorem largeDie_retired {t : State} (h : exec .rebuildMember largeDie = .next t) : (t.block (block8192.key 0)).state = 7 := by
  obtain ⟨gate, serving, cool, order, -⟩ := largeDie_serves
  obtain ⟨before, begun⟩ := retired_after
  have run := (execRebuildMember_serves gate serving cool).symm.trans h
  rw [order, List.findSome?_cons, State.rebuildNext_untaken rfl, largeDie_begins] at run
  rw [← Host.Outcome.next.inj run]
  split
  · next hb =>
    split at hb
    · cases hb
    · cases hb
      exact begun
  · exact before

/-- Refutes O36: block keys have 13 bits for the block's number. A state may give its dies more blocks than that; where 8,192 of a die are in
use, the replacement is the next one, whose key is that of a block of the next die. With that die retired its STATE shows 7 and not 2. -/
theorem not_copiesRebuildsAndCheckpoints : ¬ Obligations.CopiesRebuildsAndCheckpoints := by
  unfold Obligations.CopiesRebuildsAndCheckpoints
  rintro ⟨rebuilds, -⟩
  obtain ⟨gate, serving, cool, order, goal⟩ := largeDie_serves
  obtain ⟨-, members, -⟩ := rebuilds largeDie
  obtain ⟨begins, -⟩ := members lostMember [] gate serving cool order
  obtain ⟨t, ht, -, -, taken, -⟩ := begins strippedStripe block8192 rfl (by decide) rfl (by decide +kernel) (by decide +kernel)
    (by rw [goal]; decide) largeDie_replacement
  exact absurd ((largeDie_retired ht).symm.trans taken) (by decide)

end Sys2Proof.Machine
end

section

-- Proofs are elaborated in turn: run side by side, each waiting one would hold a thread and its stack.
set_option Elab.async false

namespace Sys2Proof.Machine

open Sys2Proof

/-! ## A block of a channel the part does not have (R171, R174, R218) -/

/-- Native programs that are let go leave the queue and nothing else. -/
theorem State.dropPrograms_native {s : State} {p : DieOp → Bool} (h : ∀ o ∈ s.med.ops, o.slc = false) :
    s.dropPrograms p = { s with med := { s.med with ops := s.med.ops.filter fun o => !(o.kind = .program && p o) } } := by
  have untouched (l : List DieOp) (t : State) (hl : ∀ o ∈ l, o.slc = false) :
      l.foldl (fun (s : State) o => if o.slc then s.reput o else s) t = t := by
    induction l with
    | nil => rfl
    | cons o l ih =>
      rw [List.foldl_cons, if_neg (by simp [hl o])]
      exact ih fun q hq => hl q (List.mem_cons_of_mem _ hq)
  exact untouched _ _ fun o ho => h o (List.mem_filter.1 ho).1

/-- The check finds a block NOT_ERASED that is no member of a stripe or segment: its programs are let go, and it is released for erase
(R172, R218). -/
theorem execErasedCheckComplete_releases {s : State} {k bits : Nat} {o : DieOp} (ho : s.op k = some o) (hk : o.kind = .program)
    (hc : o.checked = false) (hq : o.st = 0) (hb : s.rd Fd.MED_CFG_ERASED_BITS < bits) (hn : o.slc = false)
    (hm : s.memberOf o.ch o.ce o.lun o.block = []) :
    execErasedCheckComplete k bits s = .next
      (((s.dropPrograms fun x => x.onDie o.ch o.ce o.lun && x.block = o.block).releaseBlock (blockKey o.ch o.ce o.lun o.block) false).rebuildAgain
        fun r m => r.choir = o.ce && o.onBlock m) := by
  have failed : ¬ bits ≤ s.rd Fd.MED_CFG_ERASED_BITS := Nat.not_le.2 hb
  simp [execErasedCheckComplete, onOp, ho, hk, hc, hq, hn, hm, failed]

/-! ### XLT_FILL follows the bound stripes -/

section Fill

variable {s t : State}

/-- The two states have the same stripes, and translation is restored in both or in neither. -/
def State.sameStripes (s t : State) : Prop := t.xlt.stripes = s.xlt.stripes ∧ t.xlt.restored = s.xlt.restored

theorem State.sameStripes.trans {u : State} (h : s.sameStripes t) (k : t.sameStripes u) : s.sameStripes u :=
  ⟨k.1.trans h.1, k.2.trans h.2⟩

theorem State.sameStripes.boundAll (h : s.sameStripes t) : t.boundAll = s.boundAll := by
  have each : t.bound = s.bound := funext fun c => by rw [State.bound, State.bound, h.1]
  rw [State.boundAll, State.boundAll, each]

theorem State.wr_sameStripes (s : State) (f : Fld) (v : Nat) : s.sameStripes (s.wr f v) := by simp [State.sameStripes]

theorem State.foldl_sameStripes {α : Type} {f : State → α → State} (hf : ∀ (u : State) x, u.sameStripes (f u x)) (l : List α) (s : State) :
    s.sameStripes (l.foldl f s) := by
  induction l generalizing s with
  | nil => exact ⟨rfl, rfl⟩
  | cons x l ih => exact (hf s x).trans (ih _)

theorem State.drawReserve_sameStripes (s : State) : s.sameStripes s.drawReserve := by
  unfold State.drawReserve
  refine State.foldl_sameStripes (fun u c => ?_) _ s
  exact ⟨rfl, rfl⟩

theorem State.startCheckpoint_sameStripes (s : State) : s.sameStripes s.startCheckpoint := by
  unfold State.startCheckpoint
  split <;> exact ⟨rfl, rfl⟩

theorem State.journal_sameStripes (s : State) (j : JKind) (args : List Nat) : s.sameStripes (s.journal j args) := by
  unfold State.journal
  extract_lets x y recorded shown
  have written : s.sameStripes shown := recorded.wr_sameStripes _ _
  split
  · exact written.trans shown.startCheckpoint_sameStripes
  · exact written

/-- The words that are refreshed behind XLT_FILL. -/
def behindFill : List Nat := [Reg.XLT_SPAWN_SIZE, Reg.XLT_SPAWN_TARGET, Reg.XLT_SPAWN_RESERVE, Reg.XLT_BUF, Reg.XLT_LOG_FREE]

/-- Once translation is restored XLT_FILL shows the bound stripes (R174, R202). -/
theorem State.refreshXlt_fill (hr : s.xlt.restored = true) : s.refreshXlt.rd Fd.XLT_FILL_COUNT = s.boundAll % 2 ^ 19 := by
  unfold State.refreshXlt
  rw [if_neg (by simp [hr])]
  extract_lets drawn counted pending filled sized aimed reserved held used
  have count : pending.boundAll = s.boundAll := by
    refine (s.drawReserve_sameStripes.trans ((State.foldl_sameStripes (fun u c => ?_) _ drawn).trans
      (State.foldl_sameStripes (fun u c => u.wr_sameStripes _ _) _ counted))).boundAll
    split
    · exact u.wr_sameStripes _ _
    · exact ⟨rfl, rfl⟩
  have shown : filled.rd Fd.XLT_FILL_COUNT = pending.boundAll % 2 ^ 19 := pending.rd_wr_same _ _ ⟨by decide, by decide⟩
  have later : filled.sameWords used (· ∈ behindFill) :=
    (((((State.sameWords.refl filled _).wr (by decide) (by decide)).wr (by decide) (by decide)).wr (by decide) (by decide)).setFlag
      (by decide) (by decide)).wr (by decide) (by decide)
  have logFree (c : Nat) : ∃ m l, nth [Fd.XLT_LOG_FREE_C0, Fd.XLT_LOG_FREE_C1, Fd.XLT_LOG_FREE_C2, Fd.XLT_LOG_FREE_C3] c Fd.XLT_LOG_FREE_C0 =
      ⟨Reg.XLT_LOG_FREE, m, l⟩ ∧ m < 32 := by
    match c with
    | 0 | 1 | 2 | 3 | _ + 4 => exact ⟨_, _, rfl, by decide⟩
  rw [(later.foldl fun u c hu => ?_).rd_outside (by decide), shown, count]
  obtain ⟨m, l, hf, hm⟩ := logFree c
  rw [hf]
  exact hu.wr (show Reg.XLT_LOG_FREE ∈ behindFill by decide) (.inl hm)

theorem State.releaseUnit_fill (hr : s.xlt.restored = true) (c unit n rec' : Nat) :
    (s.releaseUnit c unit n rec').rd Fd.XLT_FILL_COUNT = s.boundAll % 2 ^ 19 := by
  unfold State.releaseUnit
  refine (State.refreshXlt_fill (by exact hr)).trans (congrArg (· % 2 ^ 19) ?_)
  exact State.sameStripes.boundAll ⟨rfl, rfl⟩

/-- A block released while translation is restored leaves the bound stripes in XLT_FILL. -/
theorem State.releaseBlock_fill (hr : s.xlt.restored = true) (k : Nat) (slc : Bool) :
    (s.releaseBlock k slc).rd Fd.XLT_FILL_COUNT = s.boundAll % 2 ^ 19 := by
  have marked (g : Block → Block) : s.sameStripes ((s.journal .release [blockUnit k slc]).modBlock k g) :=
    (s.journal_sameStripes _ _).trans ⟨rfl, rfl⟩
  unfold State.releaseBlock
  rw [State.releaseUnit_fill ((marked _).2.trans hr), (marked _).boundAll]

theorem getBits_parity (w m : Nat) : getBits w m 0 % 2 = w % 2 := by
  rw [getBits, Nat.shiftRight_zero, Nat.sub_zero, Nat.mod_mod_of_dvd w (dvd_pow_self 2 m.succ_ne_zero)]

/-- The register of channel 512's retired dies would be XLT_FILL: with an odd number of bound stripes its die 0 reads as retired. -/
theorem State.block_of_fill (h : s.rd Fd.XLT_FILL_COUNT % 2 = 1) : (s.block (blockKey 512 0 0 4)).state = 7 := by
  have word : s.rd (Fd.MED_CH_RETIRED_MAP 512) % 2 = 1 := calc
    s.rd (Fd.MED_CH_RETIRED_MAP 512) % 2 = s.word Reg.XLT_FILL % 2 := getBits_parity _ 31
    _ = s.rd Fd.XLT_FILL_COUNT % 2 := (getBits_parity _ 18).symm
    _ = 1 := h
  have retired : (s.rd (Fd.MED_CH_RETIRED_MAP (blockKey 512 0 0 4 / 8192 / 32))).testBit (blockKey 512 0 0 4 / 8192 % 32) = true := by
    change (s.rd (Fd.MED_CH_RETIRED_MAP 512)).testBit 0 = true
    rw [Nat.testBit_zero, word]
    rfl
  rw [State.block, if_pos retired]

end Fill

/-! ### The stray block -/

/-- A native program, queued and not checked, for block 4 of die 0 of channel 512. -/
def strayProgram : DieOp := { State.reset.progOp 512 0 0 4 0 2 1 false with checked := false }

/-- Translation is restored and stripe 1 is bound, but XLT_FILL has not followed yet; the stray program waits for its check. -/
def strayCheck : State :=
  { State.reset with
    xlt := { State.reset.xlt with restored := true, stripes := [strippedStripe] }
    med := { State.reset.med with ops := [strayProgram] } }

theorem strayCheck_waits : strayCheck.op 0 = some strayProgram ∧ strayCheck.rd Fd.MED_CFG_ERASED_BITS < 2 ^ 32 ∧
    (∀ q ∈ strayCheck.med.ops, q.purpose ≠ 4) ∧ strayCheck.memberOf 512 0 0 4 = [] ∧ (strayCheck.block (blockKey 512 0 0 4)).state = 0 := by
  decide +kernel

/-- With the block's release XLT_FILL shows one bound stripe, which reads as die 0 of channel 512 retired. -/
theorem strayCheck_released (p : DieOp → Bool) (again : Rebuild → Member → Bool) :
    ((((strayCheck.dropPrograms p).releaseBlock (blockKey 512 0 0 4) false).rebuildAgain again).block (blockKey 512 0 0 4)).state = 7 := by
  have dropped : strayCheck.sameStripes (strayCheck.dropPrograms p) := by
    rw [State.dropPrograms_native (by decide +kernel)]
    exact ⟨rfl, rfl⟩
  have bound : strayCheck.boundAll = 1 := by decide +kernel
  have fill : ((strayCheck.dropPrograms p).releaseBlock (blockKey 512 0 0 4) false).rd Fd.XLT_FILL_COUNT = 1 := by
    rw [State.releaseBlock_fill dropped.2, dropped.boundAll, bound]
    rfl
  refine State.block_of_fill ?_
  exact congrArg (· % 2) fill

/-- Refutes O34: its clause on a block that was no member's does not keep the block to the 64 channels the part has. The register of channel
512's retired dies would be XLT_FILL, which follows the bound stripes when the block is released; where it comes to show one stripe, die 0 of that
channel reads as retired, and STATE of the released block shows 7 and not 1. -/
theorem not_dieOperations : ¬ Obligations.DieOperations := by
  unfold Obligations.DieOperations
  rintro ⟨launches, -⟩
  obtain ⟨queued, failed, noFlush, noMember, free⟩ := strayCheck_waits
  obtain ⟨-, operations⟩ := launches strayCheck
  obtain ⟨check, -⟩ := operations 0 strayProgram queued
  obtain ⟨-, notErased⟩ := check (2 ^ 32) rfl rfl rfl
  obtain ⟨-, release⟩ := notErased failed rfl noFlush
  have not6 : (strayCheck.block (blockKey 512 0 0 4)).state ≠ 6 := by rw [free]; decide
  have not7 : (strayCheck.block (blockKey 512 0 0 4)).state ≠ 7 := by rw [free]; decide
  obtain ⟨t, ht, released, -⟩ := release noMember not6 not7
  have run : exec (.erasedCheckComplete 0 (2 ^ 32)) strayCheck = _ :=
    execErasedCheckComplete_releases queued rfl rfl rfl failed rfl noMember
  rw [← Host.Outcome.next.inj (run.symm.trans ht)] at released
  exact absurd ((strayCheck_released _ _).symm.trans released) (by decide)

end Sys2Proof.Machine
end

section

-- Proofs are elaborated in turn: run side by side, each waiting one would hold a thread and its stack.
set_option Elab.async false

namespace Sys2Proof.Machine

open Sys2Proof

/-! ## Log pages and latency windows (R234, R265-R267, R473, R478, R491) -/

/-! ### What the pages show of a command's own state -/

section Entered

variable (s : State) (src : Src)

/-- Taking an entry writes registers of the GK and CLK blocks alone. -/
theorem State.entered_words : s.sameWords (s.entered src) clockBlock := by
  unfold State.entered
  split
  · exact .refl s _
  · have taken {q : Sq} : Fronted .report src s (s.takeEntry src q).2 := (Fronted.refl s).takeEntry
    exact taken.words

theorem State.entered_word {a : Nat} (h : a < 0x100000 ∨ 0x400000 ≤ a := by decide) : (s.entered src).word a = s.word a :=
  s.entered_words src a fun hb => by
    obtain ⟨hl, hh⟩ := hb
    omega

theorem State.entered_rd {f : Fld} (hr : f.reg < 0x100000 ∨ 0x400000 ≤ f.reg := by decide) (hm : f.msb < 32 := by decide) :
    (s.entered src).rd f = s.rd f := by
  rw [State.rd, State.rd, if_pos hm, if_pos hm, s.entered_word src hr]

theorem State.entered_composite : (s.entered src).composite = s.composite := congrArg (signed 8) (Steady.entered s src).rd

theorem State.entered_mode : (s.entered src).mode = s.mode := (Steady.entered s src).rd

theorem State.entered_counter : (s.entered src).counter = s.counter := by
  have low := s.entered_word src (a := Reg.CHO_COUNTER)
  have high := s.entered_word src (a := Reg.CHO_COUNTER + 4)
  exact congrArg₂ (fun l h => l + h <<< 32) low high

theorem State.entered_assignedFns : (s.entered src).assignedFns = s.assignedFns := by
  have each : (s.entered src).assigned = s.assigned := funext fun n => by
    rw [State.assigned, State.assigned, State.flag, State.flag, s.entered_rd src (f := Fd.VFM_FN_STATE_ASSIGNED n)
      (.inr (by simp only [Fd.VFM_FN_STATE_ASSIGNED, Reg.VFM_FN_STATE]; omega)) (of_decide_eq_true rfl)]
  rw [State.assignedFns, State.assignedFns, each]

theorem State.entered_usedChoirs : (s.entered src).usedChoirs = s.usedChoirs := by
  rw [State.usedChoirs, State.usedChoirs, State.entered_xlt]

theorem State.entered_plmWindow (c : Nat) : (s.entered src).plmWindow c = s.plmWindow c := by
  have map : 0x400000 ≤ Reg.CHO_TURNMAP c := by unfold Reg.CHO_TURNMAP; omega
  have start := s.entered_rd src (f := Fd.CHO_TURNMAP_START c) (.inr map) (of_decide_eq_true rfl)
  have len := s.entered_rd src (f := Fd.CHO_TURNMAP_LEN c) (.inr map) (of_decide_eq_true rfl)
  have phase := s.entered_rd src (f := Fd.CHO_PHASE_PHASE)
  have turn : (s.entered src).inTurn c = s.inTurn c := by
    rw [State.inTurn, State.inTurn, State.inTurnAt, State.inTurnAt, State.ecall, State.ecall, start, len, phase, s.entered_counter]
  rw [State.plmWindow, State.plmWindow, turn, s.entered_usedChoirs]

theorem State.entered_retained : (s.entered src).retained = s.retained := by rw [State.retained, State.retained, State.entered_evr]

/-- The latency settings and notices of the functions stay. -/
theorem State.entered_plm (f : Nat) : ((s.entered src).fn f).plmOn = (s.fn f).plmOn ∧ ((s.entered src).fn f).plmPend = (s.fn f).plmPend := by
  obtain ⟨l, own⟩ := s.entered_fn (src := src) f
  rw [own]
  exact ⟨rfl, rfl⟩

/-- Reading a page touches a function's requests, its events and what it has masked. -/
theorem State.logRead_fn (f page : Nat) (rae : Bool) :
    ∃ a e m, (s.logRead f page rae).fn f = { s.fn f with aers := a, events := e, masked := m } := by
  unfold State.logRead
  split
  · exact ⟨_, _, _, rfl⟩
  · obtain ⟨a, e, m, delivered⟩ := (s.modFn f fun g => { g with masked := g.masked.filter (· ≠ page) }).deliver_fn_same f
    rw [delivered, State.fn_modFn_same]
    exact ⟨a, e, m, rfl⟩

theorem State.done_head (st : Status) (a b : Nat) (d : Payload) : (s.done src st a b d).cqes.head? = some (cqeOf src st a b d) := by
  rw [State.done_cqes, List.head?_cons]

end Entered

theorem take_leBytes (k n : Nat) (b : Bytes) : (leBytes k n ++ b).take k = leBytes k n := List.take_left' (leBytes_length k n)

theorem State.chorusPage_length (s : State) : s.chorusPage.length = 128 := by
  simp [State.chorusPage, leBytes_length, zeros, List.length_flatMap]

/-! ### The pages -/

section Pages

variable {s : State} {src : Src} {rae : Bool}

theorem execGetLogPageSmart_answers (ht : s.takes src .logPage = true) :
    Next (execGetLogPageSmart src rae s) (fun t => ∃ l, t.cqes.head? = some (cqeOf src .success 0 0 (.smart l)) ∧
      l.critical = s.rd Fd.HLT_CRIT_CW ∧ l.composite = kelvin s.composite ∧ l.threshold = 10 ∧ l.spare = s.rd Fd.HLT_LIFE_SPARE ∧
      l.used = s.rd Fd.HLT_LIFE_USED ∧ l.powerCycles = s.hlt.powerCycles ∧ l.sensors.length = 8) := by
  unfold execGetLogPageSmart
  rw [host_takes s _ ht]
  exact .intro _ ⟨(s.entered src).smartFor src.fn, State.done_head _ _ _ _ _ _, s.entered_rd src (f := Fd.HLT_CRIT_CW),
    congrArg kelvin (s.entered_composite src), rfl, s.entered_rd src (f := Fd.HLT_LIFE_SPARE), s.entered_rd src (f := Fd.HLT_LIFE_USED),
    congrArg (·.powerCycles) (s.entered_hlt src), by simp [State.smartFor, State.sensors]⟩

theorem execGetLogPageLyskinHealth_answers (ht : s.takes src .logPage = true) :
    Next (execGetLogPageLyskinHealth src rae s) (fun t => ∃ b, t.cqes.head? = some (cqeOf src .success 0 0 (.bytes b)) ∧
      b.take 2 = [1, 0] ∧ b[3]? = some (byte s.mode)) := by
  have head (u : State) : ∃ r, u.lyskin = [1, 0, byte u.lifeSrc, byte u.mode] ++ r :=
    ⟨_, by unfold State.lyskin; simp only [List.append_assoc]; rfl⟩
  obtain ⟨r, page⟩ := head (s.entered src)
  unfold execGetLogPageLyskinHealth
  rw [host_takes s _ ht]
  refine .intro _ ⟨(s.entered src).lyskin, State.done_head _ _ _ _ _ _, ?_, ?_⟩
  · rw [page]
    rfl
  · rw [page, s.entered_mode]
    rfl

theorem execGetLogPageChorusSchedule_answers (ht : s.takes src .logPage = true) :
    Next (execGetLogPageChorusSchedule src rae s) (fun t => ∃ b, t.cqes.head? = some (cqeOf src .success 0 0 (.bytes b)) ∧
      b.length = 128 ∧ b.take 8 = leBytes 8 s.counter) := by
  unfold execGetLogPageChorusSchedule
  rw [host_takes s _ ht]
  refine .intro _ ⟨(s.entered src).chorusPage, State.done_head _ _ _ _ _ _, State.chorusPage_length _, ?_⟩
  unfold State.chorusPage
  simp only [List.append_assoc]
  rw [take_leBytes, s.entered_counter]

theorem execGetLogPagePoolUsage_answers (ht : s.takes src .logPage = true) :
    Next (execGetLogPagePoolUsage src rae s) (fun t => ∃ b, t.cqes.head? = some (cqeOf src .success 0 0 (.bytes b)) ∧
      (src.fn = 0 → b.take 4 = leBytes 4 s.assignedFns.length) ∧ (src.fn ≠ 0 → b.take 40 = zeros 40)) := by
  unfold execGetLogPagePoolUsage
  rw [host_takes s _ ht]
  refine .intro _ ⟨_, State.done_head _ _ _ _ _ _, fun h => ?_, fun h => ?_⟩
  · rw [if_pos h]
    unfold State.poolHeader
    simp only [List.append_assoc]
    rw [take_leBytes, s.entered_assignedFns]
  · rw [if_neg h, List.append_assoc]
    exact List.take_left' (by simp [zeros])

theorem execGetLogPageAutotomyRecord_refused (ht : s.takes src .logPage = true) (hf : src.fn ≠ 0) :
    Next (execGetLogPageAutotomyRecord src rae s) (fun t => t.completes s src .invalidLogPage 0 0 .none) := by
  unfold execGetLogPageAutotomyRecord
  rw [host_takes s _ ht, if_pos hf]
  exact .intro _ (by simp [State.completes])

theorem execGetLogPageAutotomyRecord_answers (ht : s.takes src .logPage = true) (hf : src.fn = 0) :
    Next (execGetLogPageAutotomyRecord src rae s) (fun t => ∃ b, t.cqes.head? = some (cqeOf src .success 0 0 (.bytes b)) ∧
      b.take 4 = leBytes 4 s.med.auto.length) := by
  unfold execGetLogPageAutotomyRecord
  rw [host_takes s _ ht, if_neg (not_not.2 hf)]
  refine .intro _ ⟨_, State.done_head _ _ _ _ _ _, ?_⟩
  unfold State.autoPage
  simp only [List.append_assoc]
  rw [take_leBytes, s.entered_med]

theorem execGetLogPageEventRecords_refused {offset length : Nat} (ht : s.takes src .logPage = true) (hf : src.fn ≠ 0) :
    Next (execGetLogPageEventRecords src rae offset length s) (fun t => t.completes s src .invalidLogPage 0 0 .none) := by
  unfold execGetLogPageEventRecords
  rw [host_takes s _ ht, if_pos hf]
  exact .intro _ (by simp [State.completes])

theorem execGetLogPageEventRecords_unaligned {offset length : Nat} (ht : s.takes src .logPage = true) (hf : src.fn = 0) (ho : offset % 64 ≠ 0) :
    Next (execGetLogPageEventRecords src rae offset length s) (fun t => t.completes s src .invalidField 0 0 .none) := by
  unfold execGetLogPageEventRecords
  rw [host_takes s _ ht, if_neg (not_not.2 hf), if_pos ho]
  exact .intro _ (by simp [State.completes])

/-- A read at offset 0 fixes the list of the retained records for the reads that follow (R491). -/
theorem execGetLogPageEventRecords_fixes {length : Nat} (ht : s.takes src .logPage = true) (hf : src.fn = 0) :
    Next (execGetLogPageEventRecords src rae 0 length s) (fun t => ∃ b, t.cqes.head? = some (cqeOf src .success 0 0 (.bytes b)) ∧
      b.length ≤ length ∧ (t.fn 0).fixedEvents = some (s.retained.map (·.seq))) := by
  let fixed : State := (s.entered src).modFn 0 fun f => { f with fixedEvents := some ((s.entered src).retained.map (·.seq)) }
  have list : (fixed.fn 0).fixedEvents = some (s.retained.map (·.seq)) := by rw [State.fn_modFn_same, s.entered_retained]
  obtain ⟨_, _, _, read⟩ := fixed.logRead_fn 0 0xC4 rae
  unfold execGetLogPageEventRecords
  rw [host_takes s _ ht, if_neg (not_not.2 hf), if_neg (by decide)]
  dsimp only
  rw [if_pos (by rfl)]
  refine .intro _ ⟨_, State.done_head _ _ _ _ _ _, List.length_take_le _ _, ?_⟩
  rw [State.fn_of_fns (State.done_success_fns _ _ _ _ _)]
  exact (congrArg Fn.fixedEvents read).trans list

end Pages

/-! ### Sets (R206, R265, R266) -/

section Sets

variable {s : State} {src : Src} {set : Nat}

theorem noSet (h : set = 0 ∨ 4 < set) : (decide (set = 0) || decide (4 < set)) = true := by simpa using h

theorem isSet (h0 : 0 < set) (h4 : set ≤ 4) : ¬ (decide (set = 0) || decide (4 < set)) = true := by simp; omega

theorem execGetLogPagePredictableLatency_refused {rae : Bool} (ht : s.takes src .logPage = true) (h : set = 0 ∨ 4 < set) :
    Next (execGetLogPagePredictableLatency src set rae s) (fun t => t.completes s src .invalidField 0 0 .none) := by
  unfold execGetLogPagePredictableLatency
  rw [host_takes s _ ht, if_pos (noSet h)]
  exact .intro _ (by simp [State.completes])

/-- The page of a set a function has enabled begins with the set's window; before that it is 0 (R266, assumption 125). -/
theorem execGetLogPagePredictableLatency_answers {rae : Bool} (ht : s.takes src .logPage = true) (h0 : 0 < set) (h4 : set ≤ 4) :
    Next (execGetLogPagePredictableLatency src set rae s) (fun t => ∃ l, l.length = 7 ∧
      ((s.fn src.fn).plmOn.contains set = true → l.head? = some (s.plmWindow (set - 1))) ∧
      ((s.fn src.fn).plmOn.contains set = false → ∀ x ∈ l, x = 0) ∧ t.cqes.head? = some (cqeOf src .success 0 0 (.latency l))) := by
  unfold execGetLogPagePredictableLatency
  rw [host_takes s _ ht, if_neg (isSet h0 h4), (s.entered_plm src src.fn).1]
  refine .intro _ ⟨_, ?_, fun on => ?_, fun off => ?_, State.done_head _ _ _ _ _ _⟩
  · split <;> rfl
  · rw [if_pos on]
    exact congrArg some (s.entered_plmWindow src _)
  · rw [if_neg (Bool.eq_false_iff.1 off)]
    exact fun x hx => List.eq_of_mem_replicate hx

/-- With RAE clear a function's notices of window changes are gone once they are read (R267). -/
theorem execGetLogPagePlmEventAggregate_answers {rae : Bool} (ht : s.takes src .logPage = true) :
    Next (execGetLogPagePlmEventAggregate src rae s) (fun t =>
      t.cqes.head? = some (cqeOf src .success 0 0 (.setEvents (s.fn src.fn).plmPend)) ∧
      (t.fn src.fn).plmPend = if rae then (s.fn src.fn).plmPend else []) := by
  have pend := (s.entered_plm src src.fn).2
  have read (u : State) : ((u.logRead src.fn 0x0B rae).fn src.fn).plmPend = (u.fn src.fn).plmPend := by
    obtain ⟨_, _, _, own⟩ := u.logRead_fn src.fn 0x0B rae
    rw [own]
  unfold execGetLogPagePlmEventAggregate
  rw [host_takes s _ ht]
  dsimp only
  refine .intro _ ⟨by rw [State.done_head, pend], ?_⟩
  rw [State.fn_of_fns (State.done_success_fns _ _ _ _ _), read]
  cases rae with
  | true => exact pend
  | false => rw [if_neg Bool.false_ne_true, if_neg Bool.false_ne_true, State.fn_modFn_same]

theorem execSetFeaturesPlmConfig_refused {enable : Bool} (ht : s.takes src .setFeat = true) (h : set = 0 ∨ 4 < set) :
    Next (execSetFeaturesPlmConfig src set enable s) (fun t => t.completes s src .invalidField 0 0 .none) := by
  unfold execSetFeaturesPlmConfig
  rw [host_takes s _ ht, if_pos (noSet h)]
  exact .intro _ (by simp [State.completes])

/-- A set is enabled or not, and the function's other sets stay. -/
theorem execSetFeaturesPlmConfig_enables {enable : Bool} (ht : s.takes src .setFeat = true) (h0 : 0 < set) (h4 : set ≤ 4) :
    Next (execSetFeaturesPlmConfig src set enable s) (fun t => t.completes s src .success 0 0 .none ∧
      (t.fn src.fn).plmOn.contains set = enable ∧ ∀ k, k ≠ set → (t.fn src.fn).plmOn.contains k = (s.fn src.fn).plmOn.contains k) := by
  unfold execSetFeaturesPlmConfig
  rw [host_takes s _ ht, if_neg (isSet h0 h4)]
  refine .intro _ ?_
  rw [State.fn_of_fns (State.ok_fns _ _), State.fn_modFn_same, (s.entered_plm src src.fn).1]
  refine ⟨by simp [State.completes], ?_, fun k hk => ?_⟩
  · cases enable <;> simp
  · cases enable <;> simp [hk]

theorem execSetFeaturesPlmWindow_refused (ht : s.takes src .setFeat = true) :
    Next (execSetFeaturesPlmWindow src s) (fun t => t.completes s src .featureNotChangeable 0 0 .none) := by
  unfold execSetFeaturesPlmWindow
  rw [host_takes s _ ht]
  exact .intro _ (by simp [State.completes])

theorem execGetFeaturesPlmWindow_answers (ht : s.takes src .getFeat = true) (h0 : 0 < set) (h4 : set ≤ 4) :
    Next (execGetFeaturesPlmWindow src set s) (fun t => t.completes s src .success (s.plmWindow (set - 1)) 0 .none) := by
  unfold execGetFeaturesPlmWindow
  rw [host_takes s _ ht, if_neg (isSet h0 h4), s.entered_plmWindow]
  exact .intro _ (by simp [State.completes])

theorem execIdentifyNvmSetList_answers (ht : s.takes src .identify = true) :
    Next (execIdentifyNvmSetList src s) (fun t =>
      t.completes s src .success 0 0 (.sets ((List.range 4).map fun c => (c + 1, c, s.usedChoirs.contains c)))) := by
  unfold execIdentifyNvmSetList
  rw [host_takes s _ ht, s.entered_usedChoirs]
  exact .intro _ (by simp [State.completes])

end Sets

/-- Settles O22: taking the entry moves only the clocks, which no page shows, so each page tells of the state as it stood. -/
theorem logPagesAndLatencyWindows : Obligations.LogPagesAndLatencyWindows := by
  unfold Obligations.LogPagesAndLatencyWindows
  exact ⟨fun s src rae ht => ⟨execGetLogPageSmart_answers ht, execGetLogPageLyskinHealth_answers ht, execGetLogPageChorusSchedule_answers ht,
      execGetLogPagePoolUsage_answers ht,
      fun hf => ⟨execGetLogPageAutotomyRecord_refused ht hf, fun o n => execGetLogPageEventRecords_refused ht hf⟩,
      fun hf => ⟨execGetLogPageAutotomyRecord_answers ht hf, fun o n ho => execGetLogPageEventRecords_unaligned ht hf ho,
        fun n => execGetLogPageEventRecords_fixes ht hf⟩⟩,
    fun s src set => ⟨fun ht rae => ⟨execGetLogPagePredictableLatency_refused ht, execGetLogPagePredictableLatency_answers ht,
        execGetLogPagePlmEventAggregate_answers ht⟩,
      fun ht => ⟨fun en => execSetFeaturesPlmConfig_refused ht, fun en => execSetFeaturesPlmConfig_enables ht,
        execSetFeaturesPlmWindow_refused ht⟩,
      fun ht => execGetFeaturesPlmWindow_answers ht, fun ht => execIdentifyNvmSetList_answers ht⟩⟩

end Sys2Proof.Machine
end

section

-- Proofs are elaborated in turn: run side by side, each waiting one would hold a thread and its stack.
set_option Elab.async false

namespace Sys2Proof.Machine

open Sys2Proof

/-! ## Channel faults (R210, R224-R229)

Cutting a channel off and retiring a die reach far into the translation layer: rebuilds are queued, rows are lost, programs are placed
elsewhere, the part may come to its end of life. None of that counts a fault or moves a channel's STATE, which this section follows. -/

/-- A field whose words lie outside the channels' registers. -/
def Fld.offChannels (f : Fld) : Bool := decide (f.reg + 4 < 0x800000) || decide (0x900000 ≤ f.reg)

theorem Fld.apart_of_reg {f g : Fld} (h : g.reg ≠ f.reg) (hf : f.msb < 32 := by exact of_decide_eq_true rfl)
    (hg : g.msb < 32 := by exact of_decide_eq_true rfl) : f.apart g = true := by
  simp [Fld.apart, hf, hg, h]

/-- The counts of transient events and status failures and the channels' STATE stay. -/
structure NoFault (s t : State) : Prop where
  transient : t.hlt.transient = s.hlt.transient
  statusFail : t.hlt.statusFail = s.hlt.statusFail
  state : ∀ ch < 64, t.rd (Fd.MED_CH_STATE_STATE ch) = s.rd (Fd.MED_CH_STATE_STATE ch)

section Faultless

variable {s₀ s : State}

theorem NoFault.refl (s : State) : NoFault s s := ⟨rfl, rfl, fun _ _ => rfl⟩

theorem NoFault.trans {t : State} (h : NoFault s₀ s) (ht : NoFault s t) : NoFault s₀ t where
  transient := ht.transient.trans h.transient
  statusFail := ht.statusFail.trans h.statusFail
  state ch hc := (ht.state ch hc).trans (h.state ch hc)

/-- A change of other fields than the register file and the two counts. -/
theorem NoFault.of_counts {t : State} (h : NoFault s₀ s) (hr : t.regs = s.regs := by rfl) (ht : t.hlt.transient = s.hlt.transient := by rfl)
    (hf : t.hlt.statusFail = s.hlt.statusFail := by rfl) : NoFault s₀ t :=
  h.trans ⟨ht, hf, fun _ _ => State.rd_of_regs hr _⟩

/-- An operation that leaves the health counters, and of the register words all but some that are no channel's. -/
theorem NoFault.of_words {t : State} {words : List Nat} (h : NoFault s₀ s) (ht : t.hlt = s.hlt) (hw : s.sameWords t (· ∈ words))
    (ho : words.all (fun a => (Fld.mk a 0 0).offChannels) = true := by decide) : NoFault s₀ t :=
  h.trans ⟨congrArg _ ht, congrArg _ ht, fun ch hc => hw.rd (of_decide_eq_true rfl) fun hm => by
    have off : (Fld.mk (0x800000 + 0x4000 * ch) 0 0).offChannels = true := List.all_eq_true.1 ho _ hm
    simp only [Fld.offChannels, Bool.or_eq_true, decide_eq_true_eq] at off
    omega⟩

section Branches

variable {c : Prop} {d : Decidable c} {t u : State} {α : Type}

theorem NoFault.ite (ht : NoFault s₀ t) (hu : NoFault s₀ u) : NoFault s₀ (if c then t else u) := by
  split
  · exact ht
  · exact hu

theorem NoFault.foldl {f : State → α → State} {l : List α} (h : NoFault s₀ t) (hf : ∀ u x, NoFault s₀ u → NoFault s₀ (f u x)) :
    NoFault s₀ (l.foldl f t) := by
  induction l generalizing t with
  | nil => exact h
  | cons x l ih => exact ih (hf _ x h)

theorem NoFault.getD {o : Option State} (h : NoFault s₀ t) (ho : ∀ v, o = some v → NoFault s₀ v) : NoFault s₀ (o.getD t) := by
  cases o with
  | none => exact h
  | some v => exact ho v rfl

end Branches

/-! ### Registers -/

/-- A write beside the channels' STATE. -/
theorem NoFault.wrApart {f : Fld} {v : Nat} (h : NoFault s₀ s) (hf : ∀ ch < 64, f.apart (Fd.MED_CH_STATE_STATE ch) = true) :
    NoFault s₀ (s.wr f v) :=
  h.trans ⟨congrArg _ (s.wr_hlt f v), congrArg _ (s.wr_hlt f v), fun ch hc => s.rd_wr_apart v (hf ch hc)⟩

theorem NoFault.wr {f : Fld} {v : Nat} (h : NoFault s₀ s) (hf : f.offChannels = true := by decide) : NoFault s₀ (s.wr f v) := by
  refine h.wrApart fun ch hc => ?_
  simp only [Fld.offChannels, Bool.or_eq_true, decide_eq_true_eq] at hf
  have ne : 0x800000 + 0x4000 * ch ≠ f.reg := by omega
  have ne4 : 0x800000 + 0x4000 * ch ≠ f.reg + 4 := by omega
  simp [Fld.apart, Fd.MED_CH_STATE_STATE, Reg.MED_CH_STATE, ne, ne4]

theorem NoFault.setFlag {f : Fld} {b : Bool} (h : NoFault s₀ s) (hf : f.offChannels = true := by decide) : NoFault s₀ (s.setFlag f b) := h.wr hf

theorem Fld.offChannels_of_reg {f : Fld} (h : 0x900000 ≤ f.reg) : f.offChannels = true := by simp [Fld.offChannels, h]

/-- The maps of a channel's dies lie beside every channel's STATE, and so does its count of dies, in the same word. -/
theorem diesMap_apart (n ch : Nat) : (Fd.MED_CH_DIES_MAP n).apart (Fd.MED_CH_STATE_STATE ch) = true :=
  Fld.apart_of_reg (show 0x800000 + 0x4000 * ch ≠ 0x800004 + 0x4000 * n by omega)

theorem retiredMap_apart (n ch : Nat) : (Fd.MED_CH_RETIRED_MAP n).apart (Fd.MED_CH_STATE_STATE ch) = true :=
  Fld.apart_of_reg (show 0x800000 + 0x4000 * ch ≠ 0x800008 + 0x4000 * n by omega)

theorem dieCount_apart (n ch : Nat) : (Fd.MED_CH_STATE_DIES n).apart (Fd.MED_CH_STATE_STATE ch) = true := by
  by_cases h : ch = n
  · rw [h]
    exact Fld.apart_of_bits _
  · exact Fld.apart_of_reg (show 0x800000 + 0x4000 * ch ≠ 0x800000 + 0x4000 * n by omega)

/-! ### Events and modes -/

theorem NoFault.record {code : Nat} {payload : List Nat} (h : NoFault s₀ s) : NoFault s₀ (s.record code payload) :=
  h.of_words (s.record_hlt _ _) (s.record_words _ _)

theorem NoFault.raise {n : Nat} {a : Aen} (h : NoFault s₀ s) : NoFault s₀ (s.raise n a) := h.of_counts (s.raise_regs n a) (by simp) (by simp)

theorem NoFault.refreshCrit (h : NoFault s₀ s) : NoFault s₀ s.refreshCrit := by
  unfold State.refreshCrit
  extract_lets old new t _ u fresh
  have shown : NoFault s₀ u := (show NoFault s₀ t from h.wr).of_counts
  refine .ite h (.ite shown (shown.foldl fun _ _ hu => ?_))
  exact .ite hu.raise hu

theorem NoFault.setMode {m : Nat} {back : Bool} (h : NoFault s₀ s) : NoFault s₀ (s.setMode m back) := by
  unfold State.setMode
  extract_lets old t u v w
  have moved : NoFault s₀ u := .ite h.wr.wr h.wr.wr.wr
  have told : NoFault s₀ w := .ite (moved.record.foldl fun _ _ hu => hu.raise) moved.record
  exact .ite h told.refreshCrit

theorem NoFault.endOfLife (h : NoFault s₀ s) : NoFault s₀ s.endOfLife := by
  have found : NoFault s₀ { s with xlt := { s.xlt with eol := true } } := h.of_counts
  unfold State.endOfLife State.enterReadonly
  exact .ite (.ite found.wr.setMode.wr found.wr.setMode) found

/-! ### The translation layer -/

theorem NoFault.journal {j : JKind} {args : List Nat} (h : NoFault s₀ s) : NoFault s₀ (s.journal j args) := by
  have begun {t : State} (ht : NoFault s₀ t) : NoFault s₀ t.startCheckpoint := by
    unfold State.startCheckpoint
    exact .ite ht ht.of_counts
  unfold State.journal
  extract_lets x y recorded shown
  have written : NoFault s₀ shown := (show NoFault s₀ recorded from h.of_counts).wr
  exact .ite (begun written) written

theorem NoFault.refreshXlt (h : NoFault s₀ s) : NoFault s₀ s.refreshXlt := by
  have log (c : Nat) : (nth [Fd.XLT_LOG_FREE_C0, Fd.XLT_LOG_FREE_C1, Fd.XLT_LOG_FREE_C2, Fd.XLT_LOG_FREE_C3] c
      Fd.XLT_LOG_FREE_C0).offChannels = true := by
    match c with
    | 0 | 1 | 2 | 3 | _ + 4 => rfl
  have free (c : Nat) : (Fd.XLT_FREE_COUNT c).offChannels = true := Fld.offChannels_of_reg (by simp only [Fd.XLT_FREE_COUNT, Reg.XLT_FREE]; omega)
  have pend (c : Nat) : (Fd.XLT_RECLAIM_PEND c).offChannels = true :=
    Fld.offChannels_of_reg (by simp only [Fd.XLT_RECLAIM_PEND, Reg.XLT_RECLAIM]; omega)
  have drawn : NoFault s₀ s.drawReserve := h.foldl fun _ _ hu => hu.of_counts
  unfold State.refreshXlt
  exact .ite h (((drawn.foldl fun _ c hu => .ite (hu.wr (free c)) hu).foldl fun _ c hu => hu.wr (pend c)).wr.wr.wr.wr.setFlag.wr.foldl
    fun _ c hu => hu.wr (log c))

theorem NoFault.modStripe {seq : Nat} {g : Stripe → Stripe} (h : NoFault s₀ s) : NoFault s₀ (s.modStripe seq g) := h.of_counts

theorem NoFault.modMember {r : Rebuild} {g : Member → Member} (h : NoFault s₀ s) : NoFault s₀ (s.modMember r g) := by
  unfold State.modMember
  exact .ite h.of_counts h.modStripe

theorem NoFault.refreshRebuild (h : NoFault s₀ s) : NoFault s₀ s.refreshRebuild := h.setFlag.wr

theorem NoFault.unitErased {unit : Nat} (h : NoFault s₀ s) : NoFault s₀ (s.unitErased unit) := by
  unfold State.unitErased
  refine .ite h ?_
  split
  · exact h
  · exact (NoFault.of_counts h.journal).refreshXlt

theorem NoFault.refreshSpares (h : NoFault s₀ s) : NoFault s₀ s.refreshSpares :=
  (NoFault.of_counts h).foldl fun _ c hu => hu.wr (Fld.offChannels_of_reg (by simp only [Fd.MED_SPARE_COUNT, Reg.MED_SPARE]; omega))

theorem NoFault.checkReserve (h : NoFault s₀ s) : NoFault s₀ s.checkReserve := by
  unfold State.checkReserve
  exact .ite h h.endOfLife

theorem NoFault.noteAuto {e : AutoEntry} (h : NoFault s₀ s) : NoFault s₀ (s.noteAuto e) := by
  unfold State.noteAuto State.addAuto
  extract_lets _ e' t u
  have told : NoFault s₀ u := (show NoFault s₀ t from h.of_counts).record
  exact .ite h.of_counts (.refreshCrit (.ite told.raise (.ite told.raise told)))

/-! ### Programs placed elsewhere -/

theorem NoFault.queueUnit {g : Segment} {u purpose : Nat} {carries : List (Nat × Nat)} (h : NoFault s₀ s) :
    NoFault s₀ (s.queueUnit g u purpose carries) := by
  unfold State.queueUnit
  exact .ite h.of_counts h.of_counts

theorem NoFault.takeBlocks {choir st owner : Nat} {ms : List Member} (h : NoFault s₀ s) : NoFault s₀ (s.takeBlocks choir st owner ms) :=
  h.foldl fun _ _ hu => hu.of_counts

theorem NoFault.newSeg {c : Nat} {u : Nat × State} (h : NoFault s₀ s) (hu : s.newSeg c = some u) : NoFault s₀ u.2 := by
  simp only [State.newSeg] at hu
  obtain ⟨-, hu⟩ := Option.ite_none_left_eq_some.1 hu
  obtain rfl := Option.some.inj hu
  exact (NoFault.of_counts h.journal.takeBlocks).refreshXlt

theorem NoFault.segFor {c g purpose : Nat} {u : Nat × State} (h : NoFault s₀ s) (hu : s.segFor c g purpose = some u) : NoFault s₀ u.2 := by
  have fresh (hn : State.segFor.fresh s c purpose = some u) : NoFault s₀ u.2 := by
    have grown : NoFault s₀ (s.growShare c) := by
      unfold State.growShare
      exact .ite (NoFault.of_counts h).refreshXlt h
    unfold State.segFor.fresh at hn
    exact (NoFault.ite h grown).newSeg (Option.ite_none_right_eq_some.1 hn).2
  unfold State.segFor at hu
  split at hu
  · split at hu
    · cases hu
      exact h
    · exact fresh hu
  · exact fresh hu

theorem NoFault.queueReads {x : Clutch} {eft purpose : Nat} {l : List (Nat × Nat)} (h : NoFault s₀ s) :
    NoFault s₀ (s.queueReads x eft purpose l) :=
  h.foldl fun _ _ hu => hu.of_counts

theorem NoFault.queueSpawn {x : Clutch} {seg purpose : Nat} (h : NoFault s₀ s) : NoFault s₀ (s.queueSpawn x seg purpose) := by
  unfold State.queueSpawn
  split
  · exact h
  · extract_lets p us t u
    have carried : NoFault s₀ t := h.foldl fun _ _ hu => by
      split
      · exact hu.of_counts
      · exact hu.queueUnit
    exact .ite (NoFault.of_counts carried).queueReads carried.of_counts

theorem NoFault.reput {o : DieOp} (h : NoFault s₀ s) : NoFault s₀ (s.reput o) := by
  refine h.foldl fun u x hu => ?_
  refine .ite ?_ hu.of_counts
  split
  · refine (NoFault.of_counts hu).getD fun v hv => ?_
    obtain ⟨c, -, hc⟩ := List.exists_of_findSome?_eq_some hv
    obtain ⟨r, hr, rfl⟩ := Option.map_eq_some_iff.1 hc
    exact ((NoFault.of_counts hu).segFor hr).queueSpawn
  · exact hu.of_counts

theorem NoFault.dropPrograms {p : DieOp → Bool} (h : NoFault s₀ s) : NoFault s₀ (s.dropPrograms p) :=
  (NoFault.of_counts h).foldl fun _ _ hu => .ite hu.reput hu

/-! ### Lost rows, rebuilds, retired dies (R222, R227, R228) -/

theorem NoFault.setZone {nsid z : Nat} {w : Zone} (h : NoFault s₀ s) : NoFault s₀ (s.setZone nsid z w) := h.of_counts

theorem NoFault.settleFlags {f : Nat} (h : NoFault s₀ s) : NoFault s₀ (s.settleFlags f) :=
  h.wr (Fld.offChannels_of_reg (by simp only [Fd.VFM_FN_STATE_OVERQ, Reg.VFM_FN_STATE]; omega))

theorem NoFault.zoneNotice {n : Ns} {z : Nat} (h : NoFault s₀ s) : NoFault s₀ (s.zoneNotice n z) :=
  h.of_counts (s.zoneNotice_regs n z) (by simp) (by simp)

theorem NoFault.loseRows {seq : Nat} {rows : List Nat} (h : NoFault s₀ s) : NoFault s₀ (s.loseRows seq rows) := by
  unfold State.loseRows
  extract_lets new hit first _ _ t u
  have lost : NoFault s₀ t := h.of_counts
  refine .ite h (.noteAuto ?_)
  simp only [u]
  split
  · split
    · exact .ite lost.setZone.settleFlags.zoneNotice lost
    · exact lost
  · exact lost

theorem NoFault.recordLoss {r : Rebuild} (h : NoFault s₀ s) : NoFault s₀ (s.recordLoss r) := by
  unfold State.recordLoss
  extract_lets bears whole l marked _ t
  have lost : NoFault s₀ t := .of_counts (show NoFault s₀ marked from h.foldl fun _ _ hu => hu.modMember)
  exact .ite h (.ite lost lost.loseRows)

theorem NoFault.queueRebuilds {l : List Rebuild} (h : NoFault s₀ s) : NoFault s₀ (s.queueRebuilds l) :=
  ((NoFault.of_counts (h.foldl fun _ _ hu => hu.modMember)).foldl fun _ _ hu => hu.recordLoss).refreshRebuild

theorem NoFault.retireDies {dies : List (Nat × Nat × Nat)} {kind cause ch die : Nat} (h : NoFault s₀ s) :
    NoFault s₀ (s.retireDies dies kind cause ch die) := by
  unfold State.retireDies
  extract_lets keys l journaled marked blocks _ freed dropped erases _ cleared erased _ counted spared e noted here _ listed
  have marks : NoFault s₀ marked := h.journal.foldl fun _ d hu =>
    ((hu.wrApart fun c _ => diesMap_apart d.1 c).wrApart fun c _ => retiredMap_apart d.1 c).wrApart fun c _ => dieCount_apart d.1 c
  have drops : NoFault s₀ dropped := .of_counts (NoFault.of_counts marks (t := freed)).dropPrograms
  have erasures : NoFault s₀ erased := (NoFault.of_counts drops (t := cleared)).foldl fun _ _ hu => hu.unitErased
  have notes : NoFault s₀ noted := .of_counts (NoFault.of_counts erasures (t := counted)).refreshSpares.noteAuto
  exact (NoFault.of_counts notes (t := listed)).queueRebuilds.checkReserve

end Faultless

/-! ### A channel is cut off, a die fails (R228, R229) -/

section Faults

variable (s : State) (ch : Nat)

/-- The registers, the held reads and the queued reads of a channel that is cut off, before its dies leave service. -/
def State.channelCutOff (cause : Nat) : State :=
  let s := if s.rd (Fd.MED_CH_STATE_STATE ch) = 2 || s.rd (Fd.MED_CH_STATE_STATE ch) = 3
    then s.wr Fd.TOP_CONFIG_CHANNELS (s.rd Fd.TOP_CONFIG_CHANNELS - 1) else s
  let s := (s.wr (Fd.MED_CH_STATE_STATE ch) 4).wr (Fd.MED_CH_STATE_CAUSE ch) cause
  let s := if ch < 32 then s.wr Fd.MED_AUTO_LO_MAP (s.rd Fd.MED_AUTO_LO_MAP ||| 2 ^ ch)
    else s.wr Fd.MED_AUTO_HI_MAP (s.rd Fd.MED_AUTO_HI_MAP ||| 2 ^ (ch - 32))
  ({ s with med := { s.med with held := s.med.held.filter (fun (e : Nat × Nat) => e.1 ≠ ch) } }).rebuildReads fun o => o.ch = ch

theorem State.autotomy_eq (cause : Nat) : s.autotomy ch cause = (s.channelCutOff ch cause).retireDies
    (((List.range 32).filter ((s.channelCutOff ch cause).rd (Fd.MED_CH_DIES_MAP ch)).testBit).map fun d => (ch, d / 8, d % 8)) 2 cause ch 0xFF := rfl

theorem State.channelCutOff_hlt (cause : Nat) : (s.channelCutOff ch cause).hlt = s.hlt := by
  simp only [State.channelCutOff, State.rebuildReads]
  split <;> split <;> simp only [State.wr_hlt]

theorem State.channelCutOff_state (hc : ch < 64) (cause : Nat) : (s.channelCutOff ch cause).rd (Fd.MED_CH_STATE_STATE ch) = 4 := by
  unfold State.channelCutOff
  extract_lets t u v
  have four : u.rd (Fd.MED_CH_STATE_STATE ch) = 4 :=
    (State.rd_wr_apart _ _ (Fld.apart_of_bits _)).trans (State.rd_wr_fits _ (Fld.narrow_of_bits _) (by decide : 4 < 2 ^ 4))
  have listed : NoFault u v := .ite (NoFault.refl u).wr (NoFault.refl u).wr
  exact (listed.state ch hc).trans four

theorem State.autotomy_noFault (cause : Nat) : NoFault (s.channelCutOff ch cause) (s.autotomy ch cause) := by
  rw [State.autotomy_eq]
  exact (NoFault.refl _).retireDies

/-- Cutting a channel off counts no fault, and STATE shows it (R229). -/
theorem State.autotomy_cuts (cause : Nat) :
    (s.autotomy ch cause).hlt.transient = s.hlt.transient ∧ (s.autotomy ch cause).hlt.statusFail = s.hlt.statusFail ∧
      (ch < 64 → (s.autotomy ch cause).rd (Fd.MED_CH_STATE_STATE ch) = 4) := by
  have retired := s.autotomy_noFault ch cause
  rw [retired.transient, retired.statusFail, s.channelCutOff_hlt]
  exact ⟨rfl, rfl, fun hc => (retired.state ch hc).trans (s.channelCutOff_state ch hc cause)⟩

/-- A status failure of a die is counted once, and changes no channel's STATE (R228). -/
theorem State.dieFail_counts (o : DieOp) (kind : Nat) :
    NoFault { s with hlt := { s.hlt with statusFail := s.hlt.statusFail + 1 } } (s.dieFail o kind) := by
  unfold State.dieFail
  extract_lets d f l _ _ t
  have noted : NoFault { s with hlt := { s.hlt with statusFail := s.hlt.statusFail + 1 } } t := (NoFault.refl _).of_counts
  exact .ite noted.retireDies noted

theorem State.overrun_noFault (o : DieOp) : NoFault s (s.overrun o) := by
  have counted : NoFault s (s.bump Fd.CHO_STATS_OVERRUNS 1) := (NoFault.refl s).wr
  unfold State.overrun
  exact .ite (.refl s) (.record counted.of_counts)

/-! ### Transient events (R224, R225) -/

/-- The event is counted, and noted with its time. -/
def State.eventNoted (count : Fld) : State :=
  let s := s.bump count 1
  let s := { s with
    med := { s.med with events := (s.med.events.filter fun (e : Nat × Nat) => decide (s.now < e.2 + 10000000000)) ++ [(ch, s.now)] }
    hlt := { s.hlt with transient := s.hlt.transient + 1 } }
  s.wr (Fd.MED_CH_STATE_TRANS10 ch) (min 64 (s.trans10 ch))

/-- The channel is held for retraining, and its operation waits for its retry. -/
def State.heldForRetraining (op : Option Nat) : State :=
  let s := match op with
    | some i => s.modOp i fun o => { o with st := 4 }
    | none => s
  let s := if s.med.held.any fun (e : Nat × Nat) => e.1 = ch then s
    else { s with med := { s.med with held := s.med.held ++ [(ch, s.now)] } }
  s.wr (Fd.MED_CH_STATE_STATE ch) 3

theorem State.transient_eq (count : Fld) (op : Option Nat) : s.transient ch count op =
    if 64 ≤ (s.eventNoted ch count).trans10 ch then (s.eventNoted ch count).autotomy ch 5 else (s.eventNoted ch count).heldForRetraining ch op := by
  cases op <;> rfl

theorem State.eventNoted_hlt (count : Fld) : (s.eventNoted ch count).hlt = { s.hlt with transient := s.hlt.transient + 1 } := by
  simp [State.eventNoted]

/-- The event itself is one more of the channel's within 10 s. -/
theorem State.eventNoted_trans10 (count : Fld) : (s.eventNoted ch count).trans10 ch = s.trans10 ch + 1 := by
  simp [State.eventNoted, State.trans10, List.filter_filter]

theorem State.heldForRetraining_hlt (op : Option Nat) : (s.heldForRetraining ch op).hlt = s.hlt := by
  unfold State.heldForRetraining
  cases op <;> dsimp only <;> split <;> simp [State.modOp]

theorem State.heldForRetraining_state (op : Option Nat) : (s.heldForRetraining ch op).rd (Fd.MED_CH_STATE_STATE ch) = 3 :=
  State.rd_wr_fits _ (Fld.narrow_of_bits _) (by decide : 3 < 2 ^ 4)

theorem State.heldForRetraining_held (op : Option Nat) : ((s.heldForRetraining ch op).med.held.any fun e => e.1 = ch) = true := by
  unfold State.heldForRetraining
  extract_lets t _ u
  rw [State.wr_med]
  by_cases h : (t.med.held.any fun (e : Nat × Nat) => e.1 = ch) = true
  · simp only [u, if_pos h]
    exact h
  · simp [u, if_neg h]

/-- A transient event is counted once, whether it holds the channel or cuts it off, and is no status failure. -/
theorem State.transient_counts (count : Fld) (op : Option Nat) :
    (s.transient ch count op).hlt.transient = s.hlt.transient + 1 ∧ (s.transient ch count op).hlt.statusFail = s.hlt.statusFail := by
  rw [State.transient_eq]
  split
  · obtain ⟨transient, statusFail, -⟩ := (s.eventNoted ch count).autotomy_cuts ch 5
    rw [transient, statusFail, State.eventNoted_hlt]
    exact ⟨rfl, rfl⟩
  · rw [State.heldForRetraining_hlt, State.eventNoted_hlt]
    exact ⟨rfl, rfl⟩

/-- After a transient event the channel retrains or is cut off. -/
theorem State.transient_state (hc : ch < 64) (count : Fld) (op : Option Nat) :
    (s.transient ch count op).rd (Fd.MED_CH_STATE_STATE ch) = 3 ∨ (s.transient ch count op).rd (Fd.MED_CH_STATE_STATE ch) = 4 := by
  rw [State.transient_eq]
  split
  · obtain ⟨-, -, cut⟩ := (s.eventNoted ch count).autotomy_cuts ch 5
    exact .inr (cut hc)
  · exact .inl (State.heldForRetraining_state _ _ _)

/-- Below 64 events within 10 s the channel is held for retraining. -/
theorem State.transient_holds (count : Fld) (op : Option Nat) (h : s.trans10 ch + 1 < 64) :
    (s.transient ch count op).rd (Fd.MED_CH_STATE_STATE ch) = 3 ∧ ((s.transient ch count op).med.held.any fun e => e.1 = ch) = true := by
  rw [State.transient_eq, if_neg (by rw [State.eventNoted_trans10]; omega)]
  exact ⟨State.heldForRetraining_state _ _ _, State.heldForRetraining_held _ _ _⟩

end Faults

/-! ### The commands -/

section Commands

variable {s : State} {k t ch : Nat} {o : DieOp}

theorem onOp_some (h : s.op k = some o) (f : DieOp → Result) : onOp s k f = f o := by rw [onOp, h]

theorem execBuscrcEvent_counts (h : s.op k = some o) (hk : o.kind = .program) (hb : o.busy = true) :
    Next (execBuscrcEvent k t s) (fun u => u.hlt.transient = s.hlt.transient + 1) := by
  obtain ⟨transient, -⟩ := (s.at t).transient_counts o.ch (Fd.MED_CH_XEVT_BUSCRC o.ch) (some k)
  unfold execBuscrcEvent
  rw [onOp_some h, if_neg (by simp [hk, hb])]
  exact .intro _ transient

/-- An operation is marked as timed out; one that was marked before, on its retry, is a status failure of its die. -/
def State.markTimedOut (s : State) (k : Nat) (o : DieOp) : State :=
  let s := s.modOp k fun o => { o with timed := true }
  if o.timed then s.dieFail o 3 else s

theorem State.markTimedOut_counts (s : State) (k : Nat) (o : DieOp) :
    NoFault { s with hlt := { s.hlt with statusFail := s.hlt.statusFail + o.timed.toNat } } (s.markTimedOut k o) := by
  unfold State.markTimedOut
  extract_lets _ marked
  cases o.timed with
  | false => exact (NoFault.refl _).of_counts
  | true => exact (NoFault.of_counts (.refl _)).trans (marked.dieFail_counts o 3)

/-- An operation past three times its maximum time is a transient event of its channel; the second time also a status failure (R210, R227). -/
theorem execOperationTimeout_counts (h : s.op k = some o) (hb : o.busy = true) (hc : o.ch < 64)
    (hm : 3 * s.maxTime o ≤ o.ran + (if o.st = 1 then max s.now t - o.startedAt else 0)) :
    Next (execOperationTimeout k t s) (fun u => u.hlt.transient = s.hlt.transient + 1 ∧
      (u.rd (Fd.MED_CH_STATE_STATE o.ch) = 3 ∨ u.rd (Fd.MED_CH_STATE_STATE o.ch) = 4) ∧ u.hlt.statusFail = s.hlt.statusFail + o.timed.toNat) := by
  have late : ¬ (!o.busy || decide (o.ran + (if o.st = 1 then (s.at t).now - o.startedAt else 0) < 3 * (s.at t).maxTime o)) = true := by
    simp only [hb, Bool.not_true, Bool.false_or, decide_eq_true_eq, not_lt]
    exact hm
  have ran : NoFault s ((s.at t).overrun o) := (NoFault.of_counts (.refl s)).trans ((s.at t).overrun_noFault o)
  obtain ⟨transient, statusFail⟩ := ((s.at t).overrun o).transient_counts o.ch (Fd.MED_CH_XEVT_TIMEOUT o.ch) (some k)
  have state := ((s.at t).overrun o).transient_state o.ch hc (Fd.MED_CH_XEVT_TIMEOUT o.ch) (some k)
  rw [ran.transient] at transient
  rw [ran.statusFail] at statusFail
  have marked := (((s.at t).overrun o).transient o.ch (Fd.MED_CH_XEVT_TIMEOUT o.ch) (some k)).markTimedOut_counts k o
  have run : execOperationTimeout k t s =
      .next ((((s.at t).overrun o).transient o.ch (Fd.MED_CH_XEVT_TIMEOUT o.ch) (some k)).markTimedOut k o) := by
    unfold execOperationTimeout
    rw [onOp_some h]
    exact if_neg late
  rw [run]
  exact .intro _ ⟨marked.transient.trans transient, by rwa [marked.state _ hc], marked.statusFail.trans (congrArg (· + _) statusFail)⟩

/-- A training check has been run in this frame. -/
def State.trainingChecked (s : State) (ch : Nat) : State :=
  { s with med := { s.med with tchecks := (s.med.tchecks.filter fun (e : Nat × Nat) => e.1 ≠ ch) ++ [(ch, s.rd Fd.CHO_COUNTER_FRAME)] } }

theorem State.trainingChecked_hlt (s : State) (ch : Nat) : (s.trainingChecked ch).hlt = s.hlt := rfl

theorem State.trans10_of_events {s u : State} (he : u.med.events = s.med.events) (hn : u.now = s.now) (ch : Nat) :
    u.trans10 ch = s.trans10 ch := by
  rw [State.trans10, State.trans10, he, hn]

/-- A training check that is due and fails is a transient event (R224). -/
theorem execTrainingCheck_fails (hc : ch < 64) (hs : s.rd (Fd.MED_CH_STATE_STATE ch) = 2) (hd : (s.at t).checkDue ch = true)
    (hr : (s.med.ops.any fun o => o.ch = ch && o.kind = .read && o.purpose = 0 && o.st = 0) = false) :
    Next (execTrainingCheck ch false t s) (fun u => u.hlt.transient = s.hlt.transient + 1 ∧
      ((s.at t).trans10 ch + 1 < 64 → u.rd (Fd.MED_CH_STATE_STATE ch) = 3 ∧ (u.med.held.any fun e => e.1 = ch) = true)) := by
  have due : ¬ (!(s.at t).checkDue ch || decide ((s.at t).rd (Fd.MED_CH_STATE_STATE ch) ≠ 2) ||
      (s.at t).med.ops.any (fun o => o.ch = ch && o.kind = .read && o.purpose = 0 && o.st = 0)) = true := by
    rw [State.at_rd, State.at_med, hr, hd, hs]
    decide
  have run : execTrainingCheck ch false t s = .next (((s.at t).trainingChecked ch).transient ch (Fd.MED_CH_XEVT_TRAINLOSS ch) none) := by
    unfold execTrainingCheck
    rw [inRange_lt _ hc]
    exact (if_neg due).trans (congrArg Host.Outcome.next (if_neg Bool.false_ne_true))
  rw [run]
  obtain ⟨transient, -⟩ := ((s.at t).trainingChecked ch).transient_counts ch (Fd.MED_CH_XEVT_TRAINLOSS ch) none
  rw [State.trainingChecked_hlt, State.at_hlt] at transient
  refine .intro _ ⟨transient, fun few => ?_⟩
  rw [← State.trans10_of_events (s := s.at t) (u := (s.at t).trainingChecked ch) rfl rfl] at few
  exact ((s.at t).trainingChecked ch).transient_holds ch _ none few

/-! ### Retraining (R225, R226) -/

/-- A retraining is counted, and the eyes it found are shown. -/
def State.retrained (s : State) (ch reye weye : Nat) : State :=
  (((s.bump (Fd.MED_CH_XEVT_RETRAIN ch) 1).count (Fd.MED_CH_TRAIN_COUNT ch)).wr (Fd.MED_CH_TRAIN_REYE ch) (min 255 reye)).wr
    (Fd.MED_CH_TRAIN_WEYE ch) (min 255 weye)

theorem State.retrained_med (s : State) (ch reye weye : Nat) : (s.retrained ch reye weye).med = s.med := by simp [State.retrained]

theorem State.retrained_rtfail (s : State) (ch reye weye : Nat) :
    (s.retrained ch reye weye).rd (Fd.MED_CH_STATE_RTFAIL ch) = s.rd (Fd.MED_CH_STATE_RTFAIL ch) := by
  have event : Reg.MED_CH_STATE ch ≠ Reg.MED_CH_XEVT ch := by simp only [Reg.MED_CH_STATE, Reg.MED_CH_XEVT]; omega
  have train : Reg.MED_CH_STATE ch ≠ Reg.MED_CH_TRAIN ch := by simp only [Reg.MED_CH_STATE, Reg.MED_CH_TRAIN]; omega
  unfold State.retrained
  rw [State.rd_wr_apart _ _ (Fld.apart_of_reg train), State.rd_wr_apart _ _ (Fld.apart_of_reg train), State.count,
    State.rd_wr_apart _ _ (Fld.apart_of_reg train), State.bump, State.rd_wr_apart _ _ (Fld.apart_of_reg event)]

/-- The channel is held no longer. -/
def State.unheld (s : State) (ch : Nat) : State :=
  { s with med := { s.med with held := s.med.held.filter fun (e : Nat × Nat) => e.1 ≠ ch } }

theorem State.unheld_rd (s : State) (ch : Nat) (f : Fld) : (s.unheld ch).rd f = s.rd f := State.rd_of_regs rfl f

/-- The channel is in service again. -/
def State.backInService (s : State) (ch : Nat) : State :=
  ((s.wr (Fd.MED_CH_STATE_RTFAIL ch) 0).wr (Fd.MED_CH_STATE_STATE ch) 2).unheld ch

theorem State.backInService_state (s : State) (ch : Nat) : (s.backInService ch).rd (Fd.MED_CH_STATE_STATE ch) = 2 := by
  rw [State.backInService, State.unheld_rd]
  exact State.rd_wr_fits _ (Fld.narrow_of_bits _) (by decide : 2 < 2 ^ 4)

theorem State.backInService_rtfail (s : State) (ch : Nat) : (s.backInService ch).rd (Fd.MED_CH_STATE_RTFAIL ch) = 0 := by
  rw [State.backInService, State.unheld_rd]
  exact (State.rd_wr_apart _ _ (Fld.apart_of_bits _)).trans <| State.rd_wr_fits _ (Fld.narrow_of_bits _) (by decide : 0 < 2 ^ 2)

theorem State.backInService_held (s : State) (ch : Nat) : ((s.backInService ch).med.held.any fun e => e.1 = ch) = false := by
  simp [State.backInService, State.unheld]

theorem State.backInService_ops (s : State) (ch : Nat) : (s.backInService ch).med.ops = s.med.ops := by simp [State.backInService, State.unheld]

/-- A retraining of a held channel: a narrow eye is a failure, and with both eyes wide what waits for its retry is retried. -/
theorem execRetrainingComplete_held (hc : ch < 64) (hh : (s.med.held.any fun e => e.1 = ch) = true) (r w : Nat) :
    execRetrainingComplete ch r w t s = if decide (r < 8) || decide (w < 8) then
      .next (if 3 ≤ ((s.at t).retrained ch r w).rd (Fd.MED_CH_STATE_RTFAIL ch) + 1 then
        (((s.at t).retrained ch r w).wr (Fd.MED_CH_STATE_RTFAIL ch) (((s.at t).retrained ch r w).rd (Fd.MED_CH_STATE_RTFAIL ch) + 1)).autotomy ch 4
      else ((s.at t).retrained ch r w).wr (Fd.MED_CH_STATE_RTFAIL ch) (((s.at t).retrained ch r w).rd (Fd.MED_CH_STATE_RTFAIL ch) + 1))
    else .next (((((s.at t).retrained ch r w).backInService ch).med.ops.filter fun o => o.ch = ch && o.st = 4).foldl (fun u o => u.retryOp o)
      (((s.at t).retrained ch r w).backInService ch)) := by
  have held : ¬ (!(s.at t).med.held.any fun (e : Nat × Nat) => e.1 = ch) = true := by rw [State.at_med, hh]; decide
  unfold execRetrainingComplete
  rw [inRange_lt _ hc]
  exact if_neg held

/-- With both eyes wide the channel is in service again (R226). -/
theorem execRetrainingComplete_returns (hc : ch < 64) (hh : (s.med.held.any fun e => e.1 = ch) = true) {r w : Nat} (hr : 8 ≤ r) (hw : 8 ≤ w)
    (ho : ∀ o ∈ s.med.ops, o.st ≠ 4) : Next (execRetrainingComplete ch r w t s) (fun u =>
      u.rd (Fd.MED_CH_STATE_STATE ch) = 2 ∧ u.rd (Fd.MED_CH_STATE_RTFAIL ch) = 0 ∧ (u.med.held.any fun e => e.1 = ch) = false) := by
  have wide : ¬ (decide (r < 8) || decide (w < 8)) = true := by simp; omega
  have none : ((((s.at t).retrained ch r w).backInService ch).med.ops.filter fun o => o.ch = ch && o.st = 4) = [] := by
    rw [State.backInService_ops, State.retrained_med, State.at_med]
    exact List.filter_eq_nil_iff.2 fun o hm => by simp [ho o hm]
  rw [execRetrainingComplete_held hc hh, if_neg wide, none, List.foldl_nil]
  exact .intro _ ⟨State.backInService_state _ _, State.backInService_rtfail _ _, State.backInService_held _ _⟩

/-- A first or second failure of the retraining is counted, and the channel stays held (R226). -/
theorem execRetrainingComplete_fails (hc : ch < 64) (hh : (s.med.held.any fun e => e.1 = ch) = true) {r w : Nat} (hr : r < 8)
    (hf : s.rd (Fd.MED_CH_STATE_RTFAIL ch) < 2) : Next (execRetrainingComplete ch r w t s) (fun u =>
      u.rd (Fd.MED_CH_STATE_RTFAIL ch) = s.rd (Fd.MED_CH_STATE_RTFAIL ch) + 1 ∧ u.med.held = s.med.held) := by
  have rtfail : ((s.at t).retrained ch r w).rd (Fd.MED_CH_STATE_RTFAIL ch) = s.rd (Fd.MED_CH_STATE_RTFAIL ch) := (s.at t).retrained_rtfail ch r w
  rw [execRetrainingComplete_held hc hh, if_pos (by simp [hr]), rtfail, if_neg (by omega)]
  refine .intro _ ⟨State.rd_wr_fits _ (Fld.narrow_of_bits _) ?_, ?_⟩
  · show s.rd (Fd.MED_CH_STATE_RTFAIL ch) + 1 < 4
    omega
  · rw [State.wr_med, State.retrained_med, State.at_med]

/-- Of what `rebuildReads` is asked for, no read keeps its purpose. -/
theorem State.mem_rebuildReads {p : DieOp → Bool} (h : o ∈ (s.rebuildReads p).med.ops) : o.purpose = 10 ∨ ¬ (o.kind = .read ∧ p o = true) := by
  obtain ⟨q, -, rfl⟩ := List.mem_map.1 h
  split
  · exact .inl rfl
  · rename_i stays
    exact .inr (by simpa using stays)

/-- Host reads of a channel held 500 µs are rebuilt (R211). -/
theorem execChannelHoldTimeout_rebuilds (hc : ch < 64) (hh : (s.med.held.any fun e => e.1 = ch && decide (e.2 + 500000 ≤ t)) = true) :
    Next (execChannelHoldTimeout ch t s) (fun u => ∀ o ∈ u.med.ops, o.ch = ch → o.kind = .read → o.st = 0 → o.purpose ≠ 0) := by
  have held : ((s.at t).med.held.any fun (e : Nat × Nat) => e.1 = ch && decide (e.2 + 500000 ≤ t)) = true := hh
  unfold execChannelHoldTimeout
  rw [inRange_lt _ hc]
  dsimp only
  rw [if_pos held]
  refine .intro _ fun o ho hch hk hst => ?_
  rcases State.mem_rebuildReads ho with ten | stays
  · omega
  · exact fun hp => stays ⟨hk, by simp [hch, hst, hp]⟩

end Commands

/-- Settles O35: an event is counted before it holds or cuts off its channel, and neither touches a count; a die's failure counts beside it. -/
theorem channelsTrainAndHold : Obligations.ChannelsTrainAndHold := by
  unfold Obligations.ChannelsTrainAndHold
  exact fun s t => ⟨fun k o h => ⟨fun hk hb => execBuscrcEvent_counts h hk hb, fun hb hc hm => execOperationTimeout_counts h hb hc hm⟩,
    fun ch hc => ⟨fun hs hd hr => execTrainingCheck_fails hc hs hd hr,
      fun hh => ⟨fun r w hr hw ho => execRetrainingComplete_returns hc hh hr hw ho, fun r w hr hf => execRetrainingComplete_fails hc hh hr hf⟩,
      fun hh => execChannelHoldTimeout_rebuilds hc hh⟩⟩

end Sys2Proof.Machine
end
